-- ==== Sys2Proof/Word.lean ====
section
/-! DEFINITION. The words of the hub (00_scope.md, Conventions: a word is 32 bits, bit 0 the least significant). -/

namespace Sys2Proof

/-- A register, a descriptor word, a record word (R4). -/
abbrev Word := BitVec 32

/-- A byte of a boot image, a journal record or a bus transfer. -/
abbrev Byte := BitVec 8

/-- A TAG, a RESULT, an event VALUE, a host address (R93, R94, R95). -/
abbrev DWord := BitVec 64

/-- DEN_TIME (R62): 48 bits, microseconds. -/
abbrev Time := BitVec 48

end Sys2Proof
end

