-- ==== Sys2Proof/Syntax.lean ====
section
/-! DEFINITION. The commands of the hub: one constructor of `Instr` for each row of spec/opcode_table.json.
The table gives no operand fields; the operands are the model's (notes/assumptions/1.md). -/

namespace Sys2Proof

/-- The level read at a strap pin (R20). -/
inductive StrapLevel where
  | open_ | k47 | k10 | r0
  deriving DecidableEq, Repr

/-- What the world shows the hub during a cold start (R31, R33, R159, R136). -/
structure StartWorld where
  /-- STRAP0 to STRAP3 as read (R20). -/
  strap0 : StrapLevel
  strap1 : StrapLevel
  strap2 : StrapLevel
  strap3 : StrapLevel
  /-- ACIN in mV, and whether it qualifies as valid within the start (step 3 and 4). -/
  acin : Nat
  acinValid : Bool
  /-- BATSNS in mV. -/
  batsns : Nat
  /-- PV banks PVA to PVH that read below 2.0 V once BATSW is closed (R159). -/
  pvLow : BitVec 8
  /-- What has qualified by the end of step 9: presence on MAINS_SNS0, the level of MAINS_SNS1 (R282, R283). -/
  sns0 : Bool
  sns1 : Bool
  /-- XCLK passes the monitor by step 8 (R53). -/
  xclk : Bool
  /-- Bank A, bank B can be read in the scan (R136). -/
  readA : Bool
  readB : Bool
  /-- PERST_N is asserted when step 9 ends (R396). -/
  perst : Bool
  deriving DecidableEq, Repr

/-- Who makes a register access (R331, R372). -/
inductive Source where
  | link | port
  deriving DecidableEq, Repr

/-- Address and data of one MSI-X table entry; its mask bit stands in `LinkCfg.msixMask` (R67). -/
structure MsixEntry where
  addr : DWord
  data : Word
  deriving DecidableEq, Repr

/-- What the host has written into configuration space and the MSI-X table (R67, R68, R70 to R76, R83). -/
structure LinkCfg where
  /-- Command: Memory Space Enable, Parity Error Response, SERR# Enable. -/
  memEn : Bool
  parityEn : Bool
  serrEn : Bool
  cacheLine : Byte
  intLine : Byte
  /-- Addresses in BAR0/1 and BAR2/3. -/
  bar0 : DWord
  bar2 : DWord
  /-- Error reporting enables, Device Control [3:0]. -/
  errEn : BitVec 4
  /-- Completion Timeout Disable, Read Completion Boundary, Common Clock Configuration, Extended Synch. -/
  ctoDisable : Bool
  rcb : Bool
  commonClock : Bool
  extSync : Bool
  /-- Max_Payload_Size and Max_Read_Request_Size in bytes. -/
  mps : Nat
  mrrs : Nat
  ltrEn : Bool
  aspmL1 : Bool
  l11 : Bool
  l12 : Bool
  pmeEn : Bool
  /-- Power state D3hot. -/
  d3hot : Bool
  /-- Interrupt Disable. -/
  intxDisable : Bool
  /-- MSI-X enabled; else MSI with `msiVectors` vectors when that is not zero; else INTx. -/
  msix : Bool
  msiVectors : Nat
  msiAddr : DWord
  msiData : BitVec 16
  /-- Mask bits of MSI, mask bits of the MSI-X table, MSI-X Function Mask. -/
  msiMask : Word
  msixMask : Word
  msixAll : Bool
  msixTable : Vector MsixEntry 32
  /-- AER: Uncorrectable Error Mask and Severity, Correctable Error Mask. -/
  aerMask : Word
  aerSeverity : Word
  aerCorrMask : Word
  /-- L1 PM Substates Control 1 [31:4] and Control 2. -/
  l1ss1 : Word
  l1ss2 : Word
  /-- Target speed of Link Control 2 is 5.0 GT/s. -/
  target5 : Bool
  deriving DecidableEq, Repr

/-- The bits of the AER status registers that the host's write clears (R82). -/
structure AerAck where
  uncorr : Word
  corr : Word
  deriving DecidableEq, Repr

/-- The structures of host memory that the hub reads by itself (R81). -/
inductive ReadOf where
  | doorbell
  | sq (q : Fin 16)
  deriving DecidableEq, Repr

/-- How a read fails (R81, LINK_DMAERR). -/
inductive ReadError where
  | ur | ca | poisoned | timeout
  deriving DecidableEq, Repr

/-- What comes of a read of host memory that belongs to an item (R81): data, a failure, or a read lost with the link. -/
inductive ItemRead where
  | data (words : List Word)
  | failed (e : ReadError)
  | lost
  deriving DecidableEq, Repr

/-- The doorbell page as a poll reads it (R89). -/
structure DoorbellPage where
  sqProd : Vector Word 16
  cqCons : Vector Word 16
  heartbeat : DWord
  eqCons : Word
  stCons : Vector Word 4
  deriving DecidableEq, Repr

/-- A 64-byte descriptor (R93). -/
abbrev Descriptor := Vector Word 16

/-- Causes of a lane, in the order of the table of R155. -/
inductive LaneCause where
  | ocSustained | bootUv | stageOt | supplyUv | ovAbs | share | startFail | swFail
  deriving DecidableEq, Repr

/-- Supply-side causes that the row CHG_FAULT raises (R230). -/
inductive ChgCause where
  /-- ACIN, or BATSNS, in mV. -/
  | acinOv (mv : Nat)
  /-- VIN and ACIN in mV. -/
  | acgateFail (vin acin : Nat)
  | battOv (mv : Nat)
  /-- Battery current in mA. -/
  | chgOc (ma : Int)
  | swFail
  deriving DecidableEq, Repr

/-- Lend stop causes beside SHORT and BACKFEED, which have a row of their own (R224). -/
inductive LendCause where
  | command | shed | battLow | sub | system
  deriving DecidableEq, Repr

/-- Causes of the row LEND_FAULT (R224). -/
inductive LendFaultCause where
  /-- PARTNER in mV. -/
  | short (mv : Nat)
  | backfeed (mv : Nat)
  deriving DecidableEq, Repr

/-- Causes of Lift on FSRC 154 (R227). -/
inductive LiftCause where
  | short
  /-- ACC in mV. -/
  | ov (mv : Nat)
  | uv (mv : Nat)
  deriving DecidableEq, Repr

/-- An armature dip in the coil current of a pulse: when its minimum comes, in ms from the start, and its depth in mA (R233). -/
structure Dip where
  ms : Nat
  depth : Nat
  deriving DecidableEq, Repr

/-- Why a relay pulse ends early (R234). -/
inductive PulseAbort where
  | coilShort | coilOpen | bankUv
  deriving DecidableEq, Repr

/-- A motor's limit input (R241). -/
inductive Limit where
  | home | far
  deriving DecidableEq, Repr

/-- Fan faults of R256. -/
inductive FanCause where
  /-- The output in mV. -/
  | short (mv : Nat)
  | ov (mv : Nat)
  deriving DecidableEq, Repr

/-- A comparator, as ADC SRC numbers it (R260): WM00 to WM63, FC00 to FC15. -/
inductive Comparator where
  | wm (k : Fin 64)
  | fc (i : Fin 16)
  deriving DecidableEq, Repr

/-- The level of a comparator after its filter (R275, R279). -/
structure CompLevel where
  below : Bool
  above : Bool
  deriving DecidableEq, Repr

/-- What a port sees of its bus (R313): a START or a STOP that another controller makes, or SCL and SDA both high for so many
µs. -/
inductive BusSight where
  | start | stop
  | high (us : Nat)
  deriving DecidableEq, Repr

/-- How an attempt of a two-wire transfer ends (R316, R317). -/
inductive AttemptEnd where
  /-- Every byte written is acknowledged; the bytes read, a PEC byte after them. -/
  | done (read : List Byte)
  /-- An address is not acknowledged: the first, or that of the read phase after `acked` write bytes. -/
  | addrNack (acked : Option Nat)
  /-- Write byte number `acked` is not acknowledged. -/
  | dataNack (acked : Nat)
  /-- Arbitration lost in an address or data phase. -/
  | arbLost (acked : Nat) (addr : Bool)
  /-- Loss detected at a STOP or repeated START. -/
  | arbLostCtrl (acked : Nat)
  deriving DecidableEq, Repr

/-- One census probe's answer (R323). -/
inductive ProbeAnswer where
  | ack | nack | arbLost
  deriving DecidableEq, Repr

/-- One alert round (R321): the address byte read and the PEC byte after it, or 0x0C not acknowledged. -/
inductive AlertRound where
  | read (byte pec : Byte)
  | nack
  deriving DecidableEq, Repr

/-- What a word's circuit reads when CAL_RUN reaches it (R300), with no trim of its own or of another circuit in it. -/
structure CalWord where
  /-- Readings of a known zero, in 1/16 of the word's OFF step: 64 samples of a lane, 256 conversions, one sweep or one
  chopped short; none where a lane shows no zero window within 100 ms. -/
  zeros : List Int
  /-- Its reading of CALREF or of the fraction applied, in ppm of what it should read. -/
  seen : Nat
  /-- CALREF in µV, as measured before the gain (R302). -/
  ref : Nat
  deriving DecidableEq, Repr

/-- Causes of an Owl expiry (R341, R342, OWL_EXPIRED). -/
inductive OwlCause where
  | timeout | early | clkStop | domainReset
  deriving DecidableEq, Repr

/-- The two Owl clocks (R342). -/
inductive OwlClock where
  | wdt | ember
  deriving DecidableEq, Repr

/-- Standard requests on EP0 that change the port's state (R327). -/
inductive UsbRequest where
  | setConfiguration (n : Nat)
  /-- GET_DESCRIPTOR of the device, of its configuration and of its serial number. -/
  | getDevice
  | getConfiguration
  | getSerial
  /-- The language list that goes before the serial string. -/
  | getLanguages
  | setAddress (n : Nat)
  /-- GET_CONFIGURATION: the configuration in force. -/
  | currentConfiguration
  /-- GET_STATUS of the device, of the interface, and of a bulk endpoint by its address. -/
  | deviceStatus
  | interfaceStatus
  | endpointStatus (ep : Nat)
  /-- SET_FEATURE and CLEAR_FEATURE of ENDPOINT_HALT. -/
  | setHalt (ep : Nat)
  | clearHalt (ep : Nat)
  /-- GET_INTERFACE and SET_INTERFACE: the one interface has its setting 0 alone. -/
  | getInterface
  | setInterface (n : Nat)
  | busReset
  /-- A request that the port does not implement. -/
  | other
  deriving DecidableEq, Repr

/-- A fan's readings at an update (R253): FANPV in mV, and the time between the last tach edges in µs, none without a new
edge. -/
structure FanReading where
  fanpv : Nat
  tach : Option Nat
  deriving DecidableEq, Repr

/-- A tamper input's pin has stood at `mv` for FILT; `raw`: DEN_TIME of the edge that began it (R284). -/
structure TamperEdge where
  input : Fin 8
  mv : Nat
  raw : Time
  deriving DecidableEq, Repr

/-- One ADC cut source (R267): a comparator edge. -/
structure CutEdge where
  comp : Comparator
  active : Bool
  deriving DecidableEq, Repr

/-- The commands. The constructors stand in the order of spec/opcode_table.json. -/
inductive Instr where
  | coldStart (w : StartWorld)
  | bootHoldClear (w : StartWorld)
  | acinValid (mv : Nat)
  | acinInvalid (mv : Nat)
  | mainsLoss
  | mainsPresence
  /-- The pin's level that has held for SNS1_FILT. -/
  | sns1Qualify (high : Bool)
  | hostAutoRun
  | rootStop
  | powerFail (edges : BitVec 8)
  | uvBurrow (batsns : Nat)
  | burrowExitBtn (w : StartWorld)
  | burrowExitAcin (w : StartWorld)
  | shake
  | shakePowerOff
  | shakeOffTimeEnd (w : StartWorld)
  | hrstRelease
  | glbModeWrite (v : Word)
  | registerWrite (src : Source) (addr : BitVec 16) (be : BitVec 4) (v : Word)
  | dentimeLoRead (src : Source)
  | authtagLoRead (src : Source) (k : Fin 4)
  | hbeatLoRead (src : Source)
  | glbEpochHiWrite (v : Word)
  | glbEpochLoWrite (v : Word)
  | glbKeyfuseWrite (v : Word)
  | keyfuseDone
  | clkDselWrite (d : Fin 9) (v : Word)
  | linkIpendWrite (v : Word)
  | chgIntsrcWrite (v : Word)
  | ringCfgWrite (addr : BitVec 16) (v : Word)
  | linkPollWrite (v : Word)
  | holdSet
  | holdRelease
  | holdReleaseWait
  /-- The host writes configuration space or the MSI-X table: `cfg` is what stands there then, with Bus Master Enable set. -/
  | bmeSet (cfg : LinkCfg) (ack : AerAck)
  /-- The same with Bus Master Enable clear. -/
  | bmeClear (cfg : LinkCfg) (ack : AerAck)
  | perstAssert
  | functionLevelReset
  | linkTrainingStart
  | linkDown
  | linkRetrain
  | l1Entry (sub : Fin 3)
  | l1Exit (byPoll : Bool)
  | vectorUnmask (v : Fin 32)
  | doorbellPoll (page : DoorbellPage)
  | dmaReadFail (what : ReadOf) (e : ReadError)
  | aerUncorrectable (status : Word) (correctable : Word)
  | descriptorArrival (q : Fin 16) (d : Descriptor)
  | journalWriteDone (okA okB : Bool)
  | journalCompaction
  | completionPost (cq : Fin 16)
  | reinstateA
  | reinstateB
  | reinstateDone (ok : Bool)
  | biOpen (v : Word)
  | biDataWrite (v : Word)
  | biCommit (v : Word)
  | biCommitDone (ok : Bool)
  | nop (aseq : Word)
  | fence (aseq : Word)
  | owlFeed (aseq : Word)
  | handleCreate (aseq : Word) (table : ItemRead)
  | handleDestroy (aseq : Word)
  | railSetV (aseq : Word)
  | railEnable (aseq : Word) (vmeas : Nat)
  | railDisable (aseq : Word)
  | railGang (aseq : Word)
  | railLimits (aseq : Word)
  | seqGraphRun (aseq : Word)
  | relaySet (aseq : Word)
  | motorHome (aseq : Word)
  | motorMove (aseq : Word)
  | motorStop (aseq : Word)
  | fanSet (aseq : Word)
  | adcSeqStart (aseq : Word)
  | adcSeqStop (aseq : Word)
  | adcUrgent (aseq : Word)
  | twbXfer (aseq : Word) (buf : ItemRead)
  /-- The answers to the probes that run now, in ascending order of their addresses: the round goes on while one is left. -/
  | twbCensus (aseq : Word) (answers : List ProbeAnswer)
  | chgSet (aseq : Word)
  | lendSet (aseq : Word)
  | liftSet (aseq : Word)
  | gaugeRebase (aseq : Word)
  | budgetSet (aseq : Word)
  | leashSet (aseq : Word)
  | thermalSet (aseq : Word)
  | calSnapshot (aseq : Word)
  | calRestore (aseq : Word) (image : ItemRead)
  /-- CALREF in µV as the two readings before the first word show it, and what the words of its range that are reached now
  find, in the order of R301: the run goes on while one is left. -/
  | calRun (aseq : Word) (first second : Nat) (words : List CalWord)
  | arm (aseq : Word)
  | disarm (aseq : Word)
  | faultClear (aseq : Word) (vmeas : Nat)
  | faultReactionSet (aseq : Word)
  | burrowEnter (aseq : Word)
  | bootImageWrite (aseq : Word) (image : ItemRead) (verified : Bool)
  | journalRead (aseq : Word)
  | serviceGrant (aseq : Word)
  | deferredItemServed (vmeas : Nat)
  | deferTmo (aseq : Word)
  | unshedHoldExpiry
  | capBattUpdate (batsns : Nat)
  | timeTrigger
  | armDelayExpiry (slot : Fin 64)
  | xclkLoss
  | rootLock
  | lockFailRetry
  | xclkQualified
  | emberBad
  | trimWindow (cycles : Nat)
  | sofMark (cycles : Nat)
  | stuckTimer (d : Fin 9)
  | laneRemeasure (n : Fin 48) (mv : Nat)
  | laneSlewDone (n : Fin 48)
  | laneFault (n : Fin 48) (c : LaneCause)
  | laneSupplyRecover (n : Fin 48) (mv : Nat)
  | laneDropout (n : Fin 48) (on : Bool)
  | railPgAssert (r : Fin 48) (mv : Nat)
  | pgTmo (r : Fin 48)
  | prebiasTmo (r : Fin 48)
  | gangDone (r : Fin 48)
  | autoShed (r : Fin 48) (current : Int)
  | rsCorrection (r : Fin 48) (remote : Int)
  | senseLost (r : Fin 48) (remote : Int) (local_ : Int)
  | senseFrozen (r : Fin 48) (amplitude : Nat)
  | windowUv (r : Fin 48) (mv : Nat)
  | windowOv (r : Fin 48) (mv : Nat)
  | graphNodeStart (g : Fin 16) (i : Fin 32) (vmeas : Nat)
  | graphNodeDone (g : Fin 16) (i : Fin 32)
  | graphNodeTmo (g : Fin 16) (i : Fin 32)
  | chgStateChange (batsns : Nat)
  | chgTerminate
  | chgRecharge (batsns : Nat)
  | preTmo
  | safetyTmo
  | inputAdapt (vin : Nat)
  | chgFault (c : ChgCause)
  | batswOpenFail (diff : Int)
  | gaugeSample (ma : Int) (batsns : Nat)
  | senseRange
  | batteryRest (batsns : Nat)
  | cutoffPend (batsns : Nat)
  | cutoff (batsns : Nat)
  | dsgOc (ma : Nat)
  | lendVinReached
  | lendStartDone (mv : Nat)
  | lendStop (c : LendCause)
  | lendFault (c : LendFaultCause)
  | liftReached (mv : Nat)
  | liftFault (c : LiftCause)
  | relayPulseEnd (n : Fin 48) (dip : Option Dip) (peak : Nat)
  | relayPulseAbort (n : Fin 48) (why : PulseAbort) (peak : Nat)
  | relayRetry (n : Fin 48)
  | motorBridgeOc (m : Fin 2)
  /-- `count`: what the encoder's own counter holds. -/
  | motorBrakeEnd (m : Fin 2) (count : Int)
  | motorStall (m : Fin 2)
  | motorSupplyLost (m : Fin 2)
  /-- `count`: the encoder's own counter now; `first`: the same at the first counted level change of this trip (R243). -/
  | limitQualified (m : Fin 2) (l : Limit) (active : Bool) (count first : Int)
  /-- Counted level changes of a limit other than those that qualified, each by its age in µs (R241). -/
  | limitChatter (m : Fin 2) (l : Limit) (ages : List Nat)
  | motorTargetReached (m : Fin 2)
  | moveTmo (m : Fin 2)
  | encoderError (m : Fin 2) (count : Nat)
  | fanUpdate (f : Fin 4) (rd : FanReading)
  | fanTachLost (f : Fin 4) (silent : Nat)
  | fanBlind (f : Fin 4)
  | fanTachBack (f : Fin 4)
  | fanFault (f : Fin 4) (c : FanCause)
  | fanSpinupEnd (f : Fin 4)
  | fanNotSettled (f : Fin 4)
  | adcTrigger (q : Fin 8)
  /-- What stands at the input, in 10⁻⁹ of its unit (V, A, °C), as its circuits give it untrimmed. -/
  | adcConversionDone (c : Fin 2) (nano : Int)
  | adcCut (c : Fin 2)
  | streamFlush (st : Fin 4)
  | irqGapEnd
  /-- The input has stood at `code`, on its ×1 scale, for FILT. -/
  | wmEdge (k : Fin 64) (code : BitVec 16)
  /-- The pin has stood at `mv` for FILT. -/
  | fcEdge (i : Fin 16) (mv : Nat)
  /-- `input` is what the comparator sees: a code of a monitor's input, mV at a fast comparator's pin. -/
  | blankWindowEnd (c : Comparator) (input : BitVec 16)
  /-- The inputs that become active in one DEN cycle. -/
  | tamper (edges : List TamperEdge)
  | recGapEnd (i : Fin 8)
  | tamperClear (i : Fin 8) (mv : Nat)
  /-- What TD00 to TD23 read, in 0.1 °C, and the pins TX0 to TX7, in µV. -/
  | thermalSample (die : Vector Int 24) (tx : Vector Nat 8)
  /-- What the die sensors have read for 1 ms, in 0.1 °C; the sensor that trips, none where the mean does. -/
  | dieShutdown (sensor : Option (Fin 24)) (die : Vector Int 24)
  /-- The highest die reading within the last 10 s. -/
  | dieCooled (hottest : Int)
  /-- What the idle port sees of its bus (R313), and ALERT_N. -/
  | twbOperationStart (p : Fin 4) (sees : BusSight) (alertLow : Bool)
  | twbAttemptEnd (p : Fin 4) (e : AttemptEnd)
  | twbTimeout (p : Fin 4) (acked : Nat) (addr : Bool)
  | twbRecovery (p : Fin 4) (sclHigh sdaHigh : Bool)
  | twbBusStuck (p : Fin 4)
  /-- The rounds that run now, and ALERT_N after them: the sweep goes on where neither ends it. -/
  | alertSweep (p : Fin 4) (rounds : List AlertRound) (stillLow : Bool)
  | alertHoldEnd (p : Fin 4) (stillLow : Bool)
  /-- CENSUS_PER has passed; once the port has chosen the round, the answers to the probes that run now. -/
  | periodicCensus (p : Fin 4) (answers : List ProbeAnswer)
  /-- USB_VBSNS, in mV. -/
  | usbAttach (mv : Nat)
  | usbStandardRequest (r : UsbRequest)
  | info (seq : BitVec 16) (addr : Word)
  | regRead (seq : BitVec 16) (addr count arg : Word)
  | regWrite (seq : BitVec 16) (addr count : Word) (payload : List Word)
  | jnlRead (seq : BitVec 16) (first count arg : Word)
  | calRead (seq : BitVec 16) (addr : Word)
  | serviceDescriptor (d : Descriptor)
  | serviceCompletionAck
  | grantEnd
  | usbVbusOv (mv : Nat)
  /-- Commands and descriptors refused within the last second. -/
  | usbFlood (refused : Nat)
  /-- The count has run out, or, with `feed`, a feed of the Host Owl arrives that is early. -/
  | owlExpiry (o : Fin 2) (feed : Bool)
  | owlRung1 (o : Fin 2)
  | owlRung2 (o : Fin 2)
  | owlClockStop (c : OwlClock)
  | hostrstEnd
  | headValidClear (c : Fin 2)
  | overflowClear (c : Fin 2)
  | fltReactWrite (n : Fin 192) (v : Word)
  | linkUp (gen2 : Bool)
  | usbDetach (mv : Nat)
  | usbSuspend (suspended : Bool)
  | usbReplyRead
  | badCmd (seq : BitVec 16) (cmd : Byte) (addr : Word)
  | faultCauseEnd (src : Fin 192) (detail : Fin 16)
  | softStopDone (r : Fin 48)
  deriving DecidableEq, Repr

end Sys2Proof
end

