-- ==== Sys2Proof/Machine/State.lean ====
section
/-! DEFINITION. The state of the hub as plain data. Registers that are plain storage live in `regs`, one home each;
everything else the spec gives the hub stands in a structure of its own, block by block. -/

namespace Sys2Proof.Machine

/-- Sparse content by key: keys strictly rising, no entry equal to what an unlisted key reads as. -/
abbrev Sparse (α : Type) := List (Nat × α)

/-! ### Power states, start-up and reset (03) -/

/-- R29. -/
inductive PState where
  | full | outage | hush | burrow
  deriving DecidableEq, Repr

/-- R36, R37, R40. -/
inductive IfState where
  | setup | run | granted
  deriving DecidableEq, Repr

/-- How far the hub is with its start (R31, R33): no VDEN; held at step 6; held at step 11; blank boot; past step 11; in a
Shake before and after its step 3. -/
inductive Stage where
  | down | heldBattery | heldImage | blank | started | shaking | shakeOff
  deriving DecidableEq, Repr

/-- BOOT_HOLD (R33). -/
inductive BootHold where
  | none | noBattery | precharge | imageBad | blank | battHigh
  deriving DecidableEq, Repr

/-- The Burrow latch (03, The Den supply; R21, R44 to R46, R215, R286). -/
structure BurrowLatch where
  inBurrow : Bool
  /-- The present BURROW was entered on undervoltage. -/
  uv : Bool
  /-- STRAP1 and STRAP2 as held. -/
  strap1 : BitVec 1
  strap2 : BitVec 2
  /-- Shake off-time, 100 ms steps. -/
  shakeOff : Nat
  /-- A Shake is in its off-time; it did not find quiescence. -/
  shake : Bool
  shakeTorn : Bool
  /-- Power fail exhausted VHOLD. -/
  denLoss : Bool
  gaugeZero : Bool
  /-- The latch has memory: this is not first power. -/
  memory : Bool
  /-- Tamper inputs qualified after power fail. -/
  tamper : BitVec 8
  /-- ACIN has been not valid during the present BURROW. -/
  acinLost : Bool
  deriving DecidableEq, Repr

/-- Why HRST_N is held low (R18, R33, R35, R41, R295, R344, R351): each cause holds by itself. -/
structure HrstHold where
  /-- Start-up, HUSH, or a battery-less host release: until R187, R42 or R35 lets go. -/
  start : Bool
  /-- A die shutdown holds (R295). -/
  die : Bool
  /-- An Owl rung 1 pulse or a HOSTRST pulse (R344, R351). -/
  pulse : Bool
  deriving DecidableEq, Repr

structure Power where
  pstate : PState
  iface : IfState
  stage : Stage
  mains : Bool
  acinValid : Bool
  hostUp : Bool
  bootHold : BootHold
  /-- GLB_STRAP. -/
  strap : Word
  latch : BurrowLatch
  acgate : Bool
  batsw : Bool
  ptng : Bool
  hrst : HrstHold
  /-- HRST_N is due 1 ms after a graph run has completed (R187, R295, R344). -/
  hrstDue : Bool
  /-- No RUN entry since the last cold start or Shake (R38). -/
  firstRun : Bool
  /-- RESTORE is due at RUN entry (R140). -/
  restoreDue : Bool
  /-- A BURROW_ENTER has been answered; its shutdown is running downward (R43). -/
  burrowing : Bool
  /-- GLB_MODE REFUSE. -/
  refuse : BitVec 3
  /-- PV banks marked ABSENT at this cold start (R159). -/
  bankAbsent : BitVec 8
  /-- The PV banks have been judged at this cold start (R159). -/
  banksJudged : Bool
  /-- Graphs that are up, in the order in which they ran (R43). -/
  upOrder : List Nat
  deriving DecidableEq, Repr

/-- The Den domain's time and the read latches (R62, R372, R379). -/
structure ReadLatch where
  denHi : Word
  authHi : Vector Word 4
  hbeatHi : Word
  deriving DecidableEq, Repr

structure Den where
  up : Bool
  time : Time
  latLink : ReadLatch
  latPort : ReadLatch
  epochHeld : Option Word
  deriving DecidableEq, Repr

/-! ### Clocks (04) -/

/-- EMBER_SRC of CLK_STATUS. -/
inductive TrimSrc where
  | holding | xclk | sof
  deriving DecidableEq, Repr

structure Domain where
  /-- ACTIVE: true for EMBER. -/
  ember : Bool
  parked : Bool
  deriving DecidableEq, Repr

structure Clk where
  /-- REF: true for ember. -/
  refEmber : Bool
  locked : Bool
  coasting : Bool
  rootRun : Bool
  xPresent : Bool
  src : TrimSrc
  trimLocked : Bool
  backoff : Bool
  code : Int
  leashHit : Bool
  /-- Consecutive windows within ±0.05 %. -/
  goodWindows : Nat
  /-- DEN_TIME of the XCLK losses of the last 10 s, newest first (R56). -/
  losses : List Time
  domains : Vector Domain 9
  /-- The reference change that ROOT_LOCK ends was a loss of XCLK (R54 step 5). -/
  lossPending : Bool
  deriving DecidableEq, Repr

/-! ### The link (05) and the rings (06) -/

/-- LSTATE. -/
inductive LState where
  | down | l0 | l1 | l11 | l12
  deriving DecidableEq, Repr

structure SqRing where
  prod : Word
  cons : Word
  /-- Entries read but not yet consumed: the next position whose data is due. -/
  fetch : Word
  rseqFails : Nat
  bad : Bool
  /-- The entry is read again at the next poll only (R81, R101). -/
  stalled : Bool
  deriving DecidableEq, Repr

structure OutRing where
  prod : Word
  cons : Word
  /-- A poll made after the last release has read the consumer index (R80). -/
  fresh : Bool
  /-- The next consumer index read becomes the producer index (R114). -/
  adopt : Bool
  bad : Bool
  deriving DecidableEq, Repr

/-- BODY descriptors due after an ARM (R398). -/
structure BodyDue where
  /-- ASEQ of the ARM last accepted in this ring, none where it was refused at the door. -/
  arm : Option Word
  /-- BODY positions still due at the door. -/
  left : Nat
  /-- The ARM they follow was refused at the door. -/
  refused : Bool
  deriving DecidableEq, Repr

structure Link where
  dlUp : Bool
  gen2 : Bool
  lstate : LState
  perst : Bool
  training : Bool
  /-- Since when configuration requests reach the hub, none while they do not (R396). -/
  since : Option Time
  /-- SRIS, not SRNS, is in force: CLKMODE at the last training (R84). -/
  sris : Bool
  held : Bool
  hold : Bool
  dmaFail : Bool
  bmeWait : Bool
  bme : Bool
  cfg : LinkCfg
  /-- Messages held back by a mask. -/
  masked : Word
  /-- Vectors whose source has become pending and that the host has not been reached for (R83). -/
  wakePend : Word
  /-- AER Uncorrectable and Correctable Error Status. -/
  aer : Word
  aerCorr : Word
  /-- POLL_MAX as the last LTR message told it (R76). -/
  ltrTold : Nat
  clkreqReleased : Bool
  /-- The shadow page is written again once the link is back (R61, LINK domain). -/
  rewrite : Bool
  /-- Offsets of shadow slots that have changed and are not written yet (R98). -/
  shadowDue : List Nat
  /-- Poll interval in 10 µs steps (R73). -/
  interval : Nat
  /-- The poll that an exit from L1 asks for is still to come (R74). -/
  pollDue : Bool
  /-- DEN_TIME of the last poll (R90). -/
  lastPoll : Time
  /-- The next tail read is the upper half, below 512 B (R98). -/
  tailHigh : Bool
  /-- Consecutive failed reads of the doorbell page and of each SQ (R81). -/
  dbFails : Nat
  sqFails : Vector Nat 16
  sqs : Vector SqRing 16
  cqs : Vector OutRing 16
  eq : OutRing
  sts : Vector OutRing 4
  bodyDue : Vector BodyDue 16
  deriving DecidableEq, Repr

/-! ### Work (06, 07) -/

/-- R121. -/
inductive Verdict where
  | done | deferred | cancelled | refusedBudget | refusedState | refusedHandle | refusedAuth
  | refusedFormat | refusedLeash | refusedDuplicate | failed | failedIndeterminate
  deriving DecidableEq, Repr

/-- Where an accepted item without a final verdict stands (R103, R132, R141). -/
inductive Phase where
  | body | delay | queued | waiting | working
  deriving DecidableEq, Repr

structure Item where
  aseq : Word
  /-- RING of its records: 0 to 15, 0x10 service, 0x1F hub (R123). -/
  ring : BitVec 5
  opcode : Byte
  /-- DFLAGS (R93). -/
  flags : Byte
  tag : DWord
  handle : Word
  /-- Words 4 to 13. -/
  ops : Vector Word 10
  phase : Phase
  /-- START committed (R132). -/
  startRec : Bool
  interim : Bool
  /-- The ARM that it is a body of. -/
  armOf : Option Word
  armed : Bool
  /-- The CQ of its completions where replay has fixed it (R134 step 6). -/
  toCq : Option (Fin 16)
  /-- An ARM: BODY descriptors seen after it, and what went wrong with them: 1 missing, 2 refused, 3 refused and then
  missing (R142). -/
  bodySeen : Nat
  bodyFail : Nat
  redriven : Bool
  /-- DEN_TIME when it began work. -/
  began : Time
  deriving DecidableEq, Repr

/-- A completion that is not acknowledged (R109 to R111). -/
structure Comp where
  aseq : Word
  ring : BitVec 5
  opcode : Byte
  tag : DWord
  handle : Word
  verdict : Verdict
  detail : Byte
  armed : Bool
  /-- FLAGS [15:8] of the descriptor. -/
  flags : Byte
  time : Time
  result : DWord
  replayed : Bool
  /-- The CQ and position that the newest DONE shows, none where it shows none (R125, R132). -/
  shown : Option (Nat × Word)
  /-- Where it goes, and the position it was posted at, none while held. -/
  cq : Nat
  pos : Option Word
  deriving DecidableEq, Repr

/-- An event record (R95). -/
structure Event where
  code : BitVec 16
  handle : Word
  index : BitVec 16
  detail : BitVec 16
  time : Time
  value : DWord
  deriving DecidableEq, Repr

/-- A record on its way to the banks, and what its commit brings about (R102, R131). -/
inductive Job where
  | accept (it : Item)
  | door (it : Item) (v : Verdict) (detail : Byte) (result : DWord)
  deriving DecidableEq, Repr

/-- Who asked for a graph's run in progress, and so what follows it. -/
inductive RunBy where
  | none
  | item
  | boot
  | hub
  | owlDown (o : Fin 2) (thenUp : Bool)
  | owlUp (o : Fin 2)
  | burrow
  | cooled
  deriving DecidableEq, Repr

/-- What waits for room in the journal while FREE is below 16 (R139): a record; the RELAY record of a relay; the ACCEPT,
START and DONE of an item of the hub's own that has acted; a run of the hub's own; the end of an object, whose generation
advances with its GENPACK; a verdict that stands behind one of these. -/
inductive Owed where
  | record (w : List Word)
  | relay (n : Fin 48)
  | item (it : Item) (c : Comp)
  | run (g : Fin 16) (down : Bool) (by_ : RunBy)
  | ends (c slot : Nat)
  | verdict (a : Word) (v : Verdict) (detail : Nat) (result : DWord)
  deriving DecidableEq, Repr

/-- An ARMED slot (R140 to R142). -/
structure ArmedSlot where
  aseq : Word
  trigger : BitVec 4
  cond : Word
  time : Time
  delay : Nat
  handle : Word
  /-- A trigger came at this DEN_TIME, and its FIRE record waits for room (R139). -/
  due : Option Time
  fired : Bool
  deriving DecidableEq, Repr

structure Bank where
  inService : Bool
  /-- Slot number to its 16 words; an unlisted slot holds no record. -/
  slots : Sparse (List Word)
  deriving DecidableEq, Repr

/-- RESULT of JNL_BICTL. -/
inductive BiResult where
  | none | done | layout | crc | mac | old | short | write
  deriving DecidableEq, Repr

structure Journal where
  bankA : Bank
  bankB : Bank
  image0 : Sparse Word
  image1 : Sparse Word
  /-- Copy in use (JNL_IMAGE [0]), none without a good copy. -/
  inUse : Option (Fin 2)
  head : Word
  queue : List Job
  /-- Oldest first (R139). -/
  owed : List Owed
  scanned : Bool
  fullWait : Bool
  /-- Banks whose reinstatement is asked for; the first is at work (R136). -/
  reinstating : List (Fin 2)
  /-- ASEQs of the final records that a committed ACK covers (R111, R139). -/
  acked : List Word
  /-- The table that the hub read once for each GRAPH and ADCSEQ object, by the ASEQ of its creation: the object's
  parameters, which replay returns with it (R134, R182, R260). -/
  tables : List (Word × List Word)
  /-- The TAGs of the descriptors accepted last since the scan, newest first, no more than 1,024 (R133). -/
  recent : List DWord
  /-- TAGs that the scan found and that may be of the 1,024 accepted last, until so many have come since (R133). -/
  older : List DWord
  /-- Consumer index last journaled, and when, for each CQ and the service ring. -/
  acks : Vector Word 17
  ackTime : Vector Time 17
  biWords : Sparse Word
  biPtr : Nat
  biMac : DWord
  biBusy : Bool
  biResult : BiResult
  deriving DecidableEq, Repr

structure KeySlot where
  loaded : BitVec 4
  fused : Bool
  fusing : Bool
  words : Vector Word 4
  lastTag : DWord
  deriving DecidableEq, Repr

structure Engine where
  items : List Item
  comps : List Comp
  events : List Event
  eventsLost : Nat
  /-- Generation of each handle slot by its global index (R97, R125); 0x001 where nothing is listed. -/
  gens : Sparse (BitVec 12)
  /-- Global index of each object in use, with the ASEQ of the item that made it, 0 for the boot image's (R134). -/
  objs : List (Nat × Word)
  /-- ASEQs of the started items in queue order (R103). -/
  line : List Word
  armed : Vector (Option ArmedSlot) 64
  keys : Vector KeySlot 4
  /-- The SQ served last, and how many descriptors it gave in this turn (R99). -/
  lastSq : Fin 16
  turn : Nat
  deriving DecidableEq, Repr

/-! ### Faults (21) -/

structure FaultSrc where
  present : BitVec 16
  latched : BitVec 16
  faulted : Bool
  raises : BitVec 8
  lastPost : Option Time
  deriving DecidableEq, Repr

structure FaultEntry where
  time : Time
  src : Nat
  detail : Byte
  handle : Word
  value : Word
  deriving DecidableEq, Repr

structure Collector where
  entries : List FaultEntry
  overflow : Bool
  lost : BitVec 16
  count : Word
  snap : Vector Word 6
  snapSt : Word
  deriving DecidableEq, Repr

structure Faults where
  src : Vector FaultSrc 192
  coll : Vector Collector 2
  deriving DecidableEq, Repr

/-! ### Lanes, rails, graphs (08, 09) -/

inductive LaneState where
  | off | measure | start | reg | join | shed | waitDown | supplyWait | stopped | absent
  deriving DecidableEq, Repr

structure Lane where
  state : LaneState
  limited : Bool
  dropout : Bool
  slewHeld : Bool
  /-- Rail slot it is bound to. -/
  rail : Option (Fin 48)
  /-- Interleave position and current share in 1/64 (R149, R170). -/
  pos : Nat
  share : Nat
  /-- Reference in 0.01 mV, without the remote sense correction (08, Voltage command and slew). -/
  ref : Nat
  /-- Leaves the rail's member set when its SHED ends (R170). -/
  leaving : Bool
  /-- In MEASURE: what the measurement finds, in mV, and when it ends (R154). -/
  meas : Option (Nat × Time)
  /-- The phase on the way to a new interleave position, none once in place (R170). -/
  moving : Option Nat
  /-- The cycle limit ended the last period (R150). -/
  limiting : Bool
  /-- Periods that an AUTO lane still runs as FPWM after a falling reference (R152). -/
  fall : Nat
  /-- Its start is a sinking one (R154, R166). -/
  sink : Bool
  deriving DecidableEq, Repr

inductive RailState where
  | off | starting | waitDown | sinking | on | stopping | faulted | pending
  deriving DecidableEq, Repr

/-- BUDGET_STATE (R200). -/
inductive BudState where
  | none | served | deferPower | deferSlot | deferOrder | deferSub | throttled | shed | refused
  deriving DecidableEq, Repr

structure Rail where
  lanes : BitVec 48
  /-- Words 7 to 12 of the parameters (R161). -/
  w7 : Word
  w8 : Word
  w9 : Word
  w10 : Word
  w11 : Word
  w12 : Word
  state : RailState
  pg : Bool
  rsActive : Bool
  senseLost : Bool
  senseFrozen : Bool
  corrLimit : Bool
  /-- Members held out by AUTO_SHED. -/
  shedMask : BitVec 48
  ganging : Bool
  /-- Own slew in 0.1 mV/µs, 0 for the lead's LANE_SLEW (R167). -/
  slew : Nat
  /-- A slew to a new target is running (R167). -/
  slewing : Bool
  /-- The lowest derate in force, in mV (R294). -/
  derate : Option Nat
  bud : BudState
  /-- When a lane of the rail last stood at its cycle limit, none once a full period has passed since (R150). -/
  limitAt : Option Time
  corr : Int
  /-- The last corrections, newest first, one per 100 µs (R177). -/
  corrHist : List Int
  frozen : Bool
  startTime : Time
  boot : Bool
  laneEdge : Bool
  deriving DecidableEq, Repr

inductive GraphState where
  | idle | runUp | up | runDown | down | failed
  deriving DecidableEq, Repr

structure Node where
  wait : Bool
  tmo : Nat
  vtarget : Nat
  rail : Word
  pred : Word
  upDelay : Nat
  downDelay : Nat
  deriving DecidableEq, Repr

structure Graph where
  nodes : List Node
  onFail : Bool
  boot : Bool
  state : GraphState
  /-- Nodes started and not done, done, failed, in the present or last run. -/
  active : Word
  done : Word
  failed : Word
  unwinding : Bool
  by_ : RunBy
  /-- The item that carries the run; the hub's own runs have one too (R344). -/
  item : Option Word
  deriving DecidableEq, Repr

/-! ### Budget (10) -/

inductive Demand where
  | rail (r : Nat) | relay (n : Nat) | motor (m : Nat) | fan (f : Nat) | charger | lend | lift
  deriving DecidableEq, Repr

structure Grant where
  demand : Demand
  tier : Nat
  mw : Nat
  acc : Bool
  /-- When it ends by itself: a pulse, or a move with a time limit (R192). -/
  ends : Option Time
  deriving DecidableEq, Repr

/-- Who waits (R191). -/
inductive Waiter where
  | item (aseq : Word)
  | node (g : Nat) (i : Nat)
  | fan (f : Nat)
  | reassert (n : Nat)
  | retry (n : Nat)
  deriving DecidableEq, Repr

structure Req where
  who : Waiter
  aseq : Word
  demand : Demand
  tier : Nat
  mw : Nat
  acc : Bool
  slot : Bool
  /-- Length of the pulse or the bound of the move in µs, none where nothing bounds it (R192). -/
  dur : Option Nat
  since : Time
  deriving DecidableEq, Repr

structure Budget where
  grants : List Grant
  waiting : List Req
  /-- Tiers shed under R196, and for each the claims at the moment of shedding. -/
  shedCap : BitVec 4
  shedSum : Vector Nat 4
  shedForce : BitVec 4
  overCap : Bool
  slots : Vector (Option (Fin 48)) 6
  lastPulse : Option Time
  capBatt : Nat
  chgState : BudState
  lendState : BudState
  liftState : BudState
  deriving DecidableEq, Repr

/-! ### Battery (11) -/

inductive ChgState where
  | off | startup | precharge | cc | cv | done | paused | fault | lend | disabled
  deriving DecidableEq, Repr

inductive LendPhase where
  | off | slewing | closing | running
  deriving DecidableEq, Repr

inductive LiftPhase where
  | off | rising | running
  deriving DecidableEq, Repr

structure Charger where
  state : ChgState
  /-- 0b01 LiFePO4, 0b10 Li-ion (CHG_CFG CHEM). -/
  chem : BitVec 2
  /-- Current in force in 10 mA, and what decided it (CHG_ITARGET). -/
  target : Nat
  decided : BitVec 3
  /-- Current lowered by adaptation, in mA, none while not adapting. -/
  adapted : Option Nat
  leashHit : Bool
  /-- The target in 10 mA before adaptation (R208). -/
  base : Nat
  /-- A fault cause holds the charger in FAULT (R203, R230). -/
  stopped : Bool
  /-- The safety timer in half microseconds, and the time in PRECHARGE in µs (R205, R206). -/
  safety : Nat
  preTime : Nat
  qacc : Int
  /-- Remainder below one unit, in 1/160,000 mA × 250 µs, which the gauge converter's trim resolves. -/
  qrem : Int
  qvalid : Bool
  vvalid : Bool
  rest : Bool
  dispute : Bool
  cutPend : Bool
  derated : Bool
  lb : Bool
  senseRange : Bool
  socV : Nat
  socVlb : Nat
  /-- SOC_USE was below WARN_SOC (R228). -/
  low : Bool
  lend : LendPhase
  vlend : Nat
  ilend : Nat
  lendSoc : Nat
  lendStop : Byte
  lift : LiftPhase
  vacc : Nat
  ilift : Nat
  liftClaim : Nat
  liftStop : Byte
  /-- BATSNS in mV, as last sampled. -/
  batsns : Nat
  deriving DecidableEq, Repr

/-! ### Actuators (12), fans (13) -/

inductive RelayState where
  | idle | waiting | pulsing | retryGap | faulted
  deriving DecidableEq, Repr

/-- POSITION (R235). -/
inductive RelayPos where
  | unknown | open_ | closed
  deriving DecidableEq, Repr

structure Relay where
  w5 : Word
  w6 : Word
  state : RelayState
  pos : RelayPos
  /-- Journaled target, true for CLOSED, and whether it is confirmed. -/
  target : Option Bool
  confirmed : Bool
  /-- ASEQ of the RELAY_SET that set the target (R125, RELAY word 7). -/
  targetAseq : Word
  /-- The target stands in that item's START record; no RELAY record holds it yet (R138). -/
  byStart : Bool
  /-- The item that drives the pulse, none for a re-assertion. -/
  item : Option Word
  /-- Direction, width, retries left, and FORCE on a confirmed target, of the pulse in progress. -/
  dir : Bool
  width : Nat
  left : Nat
  held : Bool
  limiting : Bool
  bud : BudState
  deriving DecidableEq, Repr

inductive MotorState where
  | idle | pending | homing | moving | braking | faulted
  deriving DecidableEq, Repr

/-- Homing steps (R243): away from HOME, toward it, back-off, the last approach. -/
inductive HomeStep where
  | release | approach | backoff | final
  deriving DecidableEq, Repr

/-- Why the channel brakes, and how its item ends then. -/
inductive BrakeEnd where
  | none
  | homeStep (next : HomeStep)
  | homed
  | arrived
  | stopped
  /-- The channel is FAULTED once it has stopped (R241). -/
  | faulted
  deriving DecidableEq, Repr

structure Motor where
  p : Vector Word 9
  state : MotorState
  posValid : Bool
  homed : Bool
  coasted : Bool
  pos : Int
  target : Int
  duty : Nat
  step : HomeStep
  farTrips : Nat
  brake : BrakeEnd
  item : Option Word
  homeActive : Bool
  farActive : Bool
  /-- The encoder's own count at position 0 (R243). -/
  zero : Int
  /-- When each limit last made the level changes that chatter counts (R241). -/
  homeEdges : List Time
  farEdges : List Time
  /-- Illegal encoder transitions of the item (R249). -/
  badSteps : Nat
  bud : BudState
  deriving DecidableEq, Repr

inductive FanState where
  | off | spinup | run | blind | shed | faulted
  deriving DecidableEq, Repr

structure Fan where
  /-- Words 5 to 12 (R251). -/
  p : Vector Word 8
  state : FanState
  speed : Bool
  target : Nat
  /-- The target in force that the budget has served, before the band rule, and the mode it is for. -/
  run : Nat
  runSpeed : Bool
  /-- Commanded output in 0.1 mV, and the demand of the speed loop in mV. -/
  out : Nat
  demand : Nat
  rpm : Nat
  fanpv : Nat
  ramping : Bool
  bandMoved : Bool
  leashHit : Bool
  dropout : Bool
  tachOk : Bool
  tachLost : Bool
  /-- A loss in SPEED mode holds the output, or has taken it to BLIND (R255). -/
  held : Bool
  /-- Settled updates in a row (R257). -/
  settled : Nat
  item : Option Word
  bud : BudState
  deriving DecidableEq, Repr

/-! ### Measurement (14) and comparators (15) -/

structure AdcEntry where
  word : Word
  gain : Fin 4
  /-- Samples below 20 %, and DEN_TIME until which the hold runs. -/
  small : Nat
  hold : Option Time
  rstep : Bool
  /-- The entry stands at the leash's edge: that above (true) or that below (R266). -/
  edge : Option Bool
  deriving DecidableEq, Repr

structure Seq where
  w8 : Word
  w9 : Word
  w10 : Word
  entries : List AdcEntry
  running : Bool
  inPass : Bool
  waiting : Bool
  /-- SEQ_STOPPED detail with which it stops once its pass has ended, 0 while nothing asks it to stop. -/
  stopWhy : Nat
  entry : Nat
  passes : Nat
  limit : Nat
  records : Nat
  dropped : Nat
  item : Option Word
  stopItem : Option Word
  gainEdge : Bool
  /-- DEN_TIME of its next TIMER trigger, edges of its lane since the last trigger, and edges of its comparator that have not
  arrived yet (R263). -/
  at_ : Time
  laneEdges : Nat
  due : Nat
  deriving DecidableEq, Repr

/-- A cut waiting or running on a converter (R267). -/
structure Cut where
  seq : Fin 8
  entry : Nat
  item : Option Word
  deriving DecidableEq, Repr

structure Conv where
  pass : Option (Fin 8)
  cut : Option Cut
  queue : List Cut
  /-- Comparator edges on their way to the converter that a sequence asks a cut for, oldest first (R267). -/
  edges : List CutEdge
  deriving DecidableEq, Repr

structure Stream where
  /-- Records that wait, oldest first, each with the DEN_TIME at which it was produced. -/
  pend : List (Word × Time)
  overrun : Bool
  episode : Nat
  deriving DecidableEq, Repr

structure Adc where
  seqs : Vector (Option Seq) 8
  convs : Vector Conv 2
  streams : Vector Stream 4
  irqGap : Bool
  irqDue : Bool
  highest : Nat
  deriving DecidableEq, Repr

inductive WmOwner where
  | free | host | rail (r : Fin 48)
  deriving DecidableEq, Repr

structure Wm where
  owner : WmOwner
  below : Bool
  above : Bool
  blanked : Bool
  limited : Bool
  lastPost : Option Time
  deriving DecidableEq, Repr

structure Fc where
  below : Bool
  above : Bool
  active : Bool
  blanked : Bool
  count : BitVec 16
  lastPost : Option Time
  deriving DecidableEq, Repr

/-- Badger's books for one input (R284, R286). -/
structure TamperIn where
  gap : Bool
  count : Nat
  first : Time
  side : BitVec 2
  /-- The power state at that edge. -/
  pst : PState
  /-- An edge qualified before the scan ended, with its own time (R286). -/
  heldEdge : Option Time
  deriving DecidableEq, Repr

/-- What the mains judgement sees of FC12 and FC13 (R282, R283): DEN_TIME at which FC12 last became active and last became
inactive, how many times it has become active without a break and from when on, whether a loss has qualified since VDEN
rose, and when FC13's level last changed. -/
structure MainsWatch where
  rise : Time
  fall : Time
  rises : Nat
  first : Time
  lost : Bool
  change1 : Time
  deriving DecidableEq, Repr

structure Cmp where
  wms : Vector Wm 64
  fcs : Vector Fc 16
  sns0 : Bool
  sns1 : Bool
  tampers : Vector TamperIn 8
  mains : MainsWatch
  deriving DecidableEq, Repr

/-! ### Thermal (16), calibration (17) -/

structure Sensor where
  raw : Int
  inUse : Int
  suspect : Bool
  failed : Bool
  unknown : Bool
  /-- Consecutive samples toward the other judgement. -/
  count : Nat
  deriving DecidableEq, Repr

inductive RuleState where
  | inactive | pending | active
  deriving DecidableEq, Repr

structure Rule where
  w5 : Word
  w6 : Word
  w7 : Word
  w8 : Word
  state : RuleState
  stale : Bool
  dwell : Nat
  deriving DecidableEq, Repr

structure Thermal where
  sensors : Vector Sensor 32
  rules : Vector (Option Rule) 32
  shutdown : Bool
  cooling : Bool
  /-- The sensor that tripped the die shutdown (R291). -/
  tripped : Option (Fin 24)
  dieMax : Int
  dieMaxEver : Int
  deriving DecidableEq, Repr

/-- A CAL_RUN under way (R301, R302): the words it has still to treat, in order, those determined and skipped, its first
reading of CALREF in µV, and whether a later one has shifted. -/
structure CalJob where
  item : Word
  todo : List Nat
  determined : Nat
  skipped : Nat
  first : Nat
  noisy : Bool
  deriving DecidableEq, Repr

/-- A trim word that has changed: what stands for it until its circuit's safe point, and when it changed (R299). -/
structure TrimHold where
  index : Nat
  word : Word
  since : Time
  deriving DecidableEq, Repr

structure Cal where
  trimmed : Bool
  fromImage : Bool
  crc : BitVec 16
  lastRef : Nat
  run : Option CalJob
  holds : List TrimHold
  deriving DecidableEq, Repr

/-! ### Two-wire (18), USB (19), Owls (20) -/

inductive PartnerOrigin where
  | created | census | alert
  deriving DecidableEq, Repr

structure Partner where
  origin : PartnerOrigin
  pec : Bool
  pinned : Bool
  misses : Nat
  missMax : Nat
  transfers : BitVec 16
  alerts : BitVec 16
  lastAck : Word
  deriving DecidableEq, Repr

/-- What a port is doing (R312). -/
inductive PortOp where
  | idle | xfer | sweep | census | recover
  deriving DecidableEq, Repr

/-- The bus as a port knows it (R313): free, another controller's since its START, or not known to be free. -/
inductive BusState where
  | free | busy | unknown
  deriving DecidableEq, Repr

/-- A census round in progress (R323, R325): the item, none for a periodic round; the probe's kind; the range; the next
address; what its probes have found. -/
structure Census where
  item : Option Word
  write : Bool
  first : Nat
  last : Nat
  next : Nat
  acked : Nat
  created : Nat
  deriving DecidableEq, Repr

structure Port where
  op : PortOp
  item : Option Word
  attempts : Nat
  arbLosses : Nat
  retries : Nat
  /-- The write data of the transfer in progress. -/
  wdata : List Byte
  /-- Write bytes acknowledged in its last attempt, and whether the address was. -/
  acked : Nat
  addrAck : Bool
  bus : BusState
  /-- The census round under way, between its probes. -/
  census : Option Census
  /-- A periodic round is due: the journal's head when CENSUS_PER had passed (R312). -/
  due : Option Word
  /-- Alert rounds of the sweep under way (R321). -/
  rounds : Nat
  /-- The next attempt waits for a free bus (R317). -/
  again : Bool
  lastSweep : Bool
  needRecovery : Bool
  stuckSda : Bool
  stuckScl : Bool
  alertHold : Bool
  alertLow : Bool
  deriving DecidableEq, Repr

structure Twb where
  ports : Vector Port 4
  partners : Sparse (Option Partner)
  deriving DecidableEq, Repr

/-- CLASS of a grant (R333). -/
inductive GrantClass where
  | ring | setup
  deriving DecidableEq, Repr

structure SvcGrant where
  cls : GrantClass
  ends : Time
  opmask : Word
  /-- Head of the journal when the grant began: items accepted later may be its own (R336). -/
  from_ : Word
  deriving DecidableEq, Repr

structure Usb where
  vbus : Bool
  attached : Bool
  /-- The device address that the USB host has given, 0 before it has. -/
  address : Nat
  configured : Bool
  /-- Bulk endpoints that are halted, by their address. -/
  halted : List Nat
  suspended : Bool
  grant : Option SvcGrant
  ringPos : Word
  /-- The reply on EP1 IN that is not read yet. -/
  reply : Option (List Word)
  /-- Service completions of the present grant waiting for their acknowledgement, oldest first. -/
  sending : List Comp
  /-- BODY descriptors due in the service ring (R335, R398). -/
  due : BodyDue
  /-- A grant stood when the Den domain fell: the start tells of its end (R334). -/
  lostGrant : Bool
  deriving DecidableEq, Repr

inductive OwlState where
  | off | watch | paused | expired | resetting | cycling | gaveUp
  deriving DecidableEq, Repr

structure Owl where
  state : OwlState
  clock : OwlClock
  cycles : Nat
  lastFeed : Time
  /-- What WIN_OPEN is measured from: the last feed, or the reload at RUN entry (R341). -/
  winFrom : Option Time
  /-- What is left of TMO, or of the wait for the next rung, in 10 µs. -/
  left : Nat
  /-- In EXPIRED, the rung that the wait leads to, 1 or 2. -/
  rung : Nat
  /-- What is left of OFF_T between the two runs of rung 2, in 10 µs. -/
  off : Option Nat
  deriving DecidableEq, Repr

structure Owls where
  owls : Vector Owl 2
  hbeat : DWord
  wdtStopped : Bool
  emberStopped : Bool
  deriving DecidableEq, Repr

/-! ### What the hub sends -/

/-- What a read phase asks for: so many bytes, a PEC included; or a block, whose first byte N is a count, N + 1 bytes and the
PEC, with byte `most` not acknowledged where the count would pass it (R314). -/
inductive BusRead where
  | bytes (n : Nat)
  | block (most : Nat) (pec : Bool)
  deriving DecidableEq, Repr

/-- One thing the hub sends to the outside. -/
inductive Output where
  /-- One write to host memory, and one read request (R70): neither Relaxed Ordering nor No Snoop is set (R69). -/
  | memWrite (addr : DWord) (data : List Byte)
  | memRead (addr : DWord) (len : Nat)
  /-- An MSI-X or MSI message: its number, its address and its data (R71). -/
  | message (vector : Nat) (addr : DWord) (data : Word)
  | ltr (latency : Nat)
  | pme
  /-- What the port says of itself on EP0 (R327): the device, its configuration, its serial string. -/
  | usbDevice (vendor product release : Nat)
  | usbConfig (cls sub protocol maxPower : Nat) (selfPowered : Bool) (bulk : List (Nat × Nat))
  | usbSerial (digits : List Nat)
  /-- The data of another standard request, and the refusal of one (a STALL). -/
  | usbData (bytes : List Nat)
  | usbStall
  /-- A packet on EP2 IN: a completion's eight words (R336). -/
  | service (words : List Word)
  /-- An attempt on a two-wire port: the bytes written, what is to be read, and whether a repeated START stands
  between the phases. -/
  | bus (port : Nat) (addr : BitVec 7) (write : List Byte) (read : BusRead) (rstart : Bool)
  /-- A recovery on a port. -/
  | recovery (port : Nat)
  deriving DecidableEq, Repr

/-- The hub. -/
structure State where
  pending : List Instr
  out : List Output
  freeIx : Nat
  regs : Sparse Word
  pwr : Power
  den : Den
  clk : Clk
  link : Link
  eng : Engine
  jnl : Journal
  flt : Faults
  lanes : Vector Lane 48
  rails : Vector (Option Rail) 48
  graphs : Vector (Option Graph) 16
  bud : Budget
  chg : Charger
  relays : Vector (Option Relay) 48
  motors : Vector (Option Motor) 2
  fans : Vector (Option Fan) 4
  adc : Adc
  cmp : Cmp
  thm : Thermal
  cal : Cal
  twb : Twb
  usb : Usb
  owl : Owls
  deriving DecidableEq, Repr

/-- Nothing the spec gives the hub stops it: no command ends in a fault (notes/assumptions/8.md). -/
inductive Fault where
  deriving DecidableEq, Repr

/-- Raised by no meaning; `notModelled` is the dispatch's word for a command not reached yet (safe: it stops). -/
inductive Refusal where
  /-- The command named has no meaning yet. Raised by Dispatch alone; safe. -/
  | notModelled (mnemonic : String)
  deriving DecidableEq, Repr

/-! ### The hub before its first start (notes/assumptions/4.md) -/

def ReadLatch.reset : ReadLatch := { denHi := 0, authHi := Vector.replicate 4 0, hbeatHi := 0 }

def Den.reset : Den :=
  { up := false, time := 0, latLink := ReadLatch.reset, latPort := ReadLatch.reset, epochHeld := none }

def BurrowLatch.reset : BurrowLatch :=
  { inBurrow := false, uv := false, strap1 := 0, strap2 := 0, shakeOff := 0, shake := false, shakeTorn := false,
    denLoss := false, gaugeZero := false, memory := false, tamper := 0, acinLost := false }

/-- No VDEN: the pins are at their state in the Reset column of R18, the power state is HUSH by R29. -/
def Power.reset : Power :=
  { pstate := .hush, iface := .setup, stage := .down, mains := false, acinValid := false, hostUp := false,
    bootHold := .none, strap := 0, latch := BurrowLatch.reset, acgate := false, batsw := false,
    ptng := false, hrst := { start := true, die := false, pulse := false }, hrstDue := false, firstRun := true, restoreDue := false, burrowing := false, refuse := 0,
    bankAbsent := 0, banksJudged := false, upOrder := [] }

def Clk.reset : Clk :=
  { refEmber := true, locked := false, coasting := false, rootRun := false, xPresent := false, src := .holding,
    trimLocked := false, backoff := false, code := 0, leashHit := false, goodWindows := 0, losses := [],
    domains := Vector.ofFn (fun d => { ember := d = 7, parked := false }), lossPending := false }

/-- Configuration space after reset (R67, R68). -/
def linkCfgReset : LinkCfg :=
  { memEn := false, parityEn := false, serrEn := false, cacheLine := 0, intLine := 0, bar0 := 0, bar2 := 0, errEn := 0,
    ctoDisable := false, rcb := false, commonClock := false, extSync := false,
    mps := 128, mrrs := 512, ltrEn := false, aspmL1 := false, l11 := false, l12 := false, pmeEn := false,
    d3hot := false, intxDisable := false, msix := false, msiVectors := 0, msiAddr := 0, msiData := 0, msiMask := 0,
    msixMask := 0xFFFFFFFF, msixAll := false, msixTable := Vector.replicate 32 { addr := 0, data := 0 }, aerMask := 0,
    aerSeverity := 0x00462030, aerCorrMask := 0x2000, l1ss1 := 0, l1ss2 := 0x28, target5 := true }

def Link.reset : Link :=
  { dlUp := false, gen2 := false, lstate := .down, perst := false, training := false, since := none,
    sris := true, held := false, hold := false,
    dmaFail := false, bmeWait := false, bme := false, cfg := linkCfgReset, masked := 0, wakePend := 0, aer := 0, aerCorr := 0,
    ltrTold := 0, clkreqReleased := false, rewrite := false, shadowDue := [], interval := 1, pollDue := false, lastPoll := 0, tailHigh := false, dbFails := 0, sqFails := Vector.replicate 16 0,
    sqs := Vector.replicate 16 { prod := 0, cons := 0, fetch := 0, rseqFails := 0, bad := false, stalled := false },
    cqs := Vector.replicate 16 { prod := 0, cons := 0, fresh := false, adopt := false, bad := false },
    eq := { prod := 0, cons := 0, fresh := false, adopt := false, bad := false },
    sts := Vector.replicate 4 { prod := 0, cons := 0, fresh := false, adopt := false, bad := false },
    bodyDue := Vector.replicate 16 { arm := none, left := 0, refused := false } }

def KeySlot.reset : KeySlot :=
  { loaded := 0, fused := false, fusing := false, words := Vector.replicate 4 0, lastTag := 0 }

/-- No SQ has been served: the first turn begins after SQ15, with SQ00. R99 leaves the first turn open (DESIGN CHOICE,
notes/assumptions/51.md). -/
def Engine.reset : Engine :=
  { items := [], comps := [], events := [], eventsLost := 0, gens := [], objs := [], line := [], armed := Vector.replicate 64 none,
    keys := Vector.replicate 4 KeySlot.reset, lastSq := 15, turn := 8 }

def Journal.reset : Journal :=
  { bankA := { inService := true, slots := [] }, bankB := { inService := true, slots := [] }, image0 := [],
    image1 := [], inUse := none, head := 0, queue := [], owed := [], scanned := false,
    fullWait := false, reinstating := [], acked := [], tables := [], recent := [], older := [], acks := Vector.replicate 17 0, ackTime := Vector.replicate 17 0,
    biWords := [], biPtr := 0, biMac := 0, biBusy := false, biResult := .none }

def FaultSrc.reset : FaultSrc := { present := 0, latched := 0, faulted := false, raises := 0, lastPost := none }

def Collector.reset : Collector :=
  { entries := [], overflow := false, lost := 0, count := 0, snap := Vector.replicate 6 0, snapSt := 0 }

def Faults.reset : Faults :=
  { src := Vector.replicate 192 FaultSrc.reset, coll := Vector.replicate 2 Collector.reset }

def Lane.reset : Lane :=
  { state := .off, limited := false, dropout := false, slewHeld := false, rail := none, pos := 0, share := 0,
    ref := 0, leaving := false, meas := none, moving := none, limiting := false, fall := 0, sink := false }

def Budget.reset : Budget :=
  { grants := [], waiting := [], shedCap := 0, shedSum := Vector.replicate 4 0, shedForce := 0, overCap := false,
    slots := Vector.replicate 6 none, lastPulse := none, capBatt := 0, chgState := .none,
    lendState := .none, liftState := .none }

def Charger.reset : Charger :=
  { state := .off, chem := 1, target := 0, decided := 0, adapted := none, leashHit := false,
    base := 0, stopped := false, safety := 0, preTime := 0,
    qacc := 0, qrem := 0, qvalid := false, vvalid := false, rest := false, dispute := false, cutPend := false,
    derated := false, lb := false, senseRange := false, socV := 0, socVlb := 0, low := false, lend := .off,
    vlend := 0, ilend := 0, lendSoc := 0, lendStop := 0, lift := .off, vacc := 0,
    ilift := 0, liftClaim := 0, liftStop := 0, batsns := 0 }

def Conv.reset : Conv := { pass := none, cut := none, queue := [], edges := [] }

def Adc.reset : Adc :=
  { seqs := Vector.replicate 8 none,
    convs := Vector.replicate 2 Conv.reset,
    streams := Vector.replicate 4 { pend := [], overrun := false, episode := 0 }, irqGap := false, irqDue := false,
    highest := 0 }

def Wm.reset : Wm :=
  { owner := .free, below := false, above := false, blanked := false, limited := false, lastPost := none }

def Fc.reset : Fc := { below := false, above := false, active := false, blanked := false, count := 0, lastPost := none }

def TamperIn.reset : TamperIn := { gap := false, count := 0, first := 0, side := 0, pst := .hush, heldEdge := none }

def Cmp.reset : Cmp :=
  { wms := Vector.replicate 64 Wm.reset, fcs := Vector.replicate 16 Fc.reset, sns0 := false, sns1 := false, tampers := Vector.replicate 8 TamperIn.reset,
    mains := { rise := 0, fall := 0, rises := 0, first := 0, lost := false, change1 := 0 } }

def Sensor.reset : Sensor :=
  { raw := 0, inUse := 0, suspect := false, failed := false, unknown := false, count := 0 }

def Thermal.reset : Thermal :=
  { sensors := Vector.replicate 32 Sensor.reset, rules := Vector.replicate 32 none, shutdown := false,
    cooling := false, tripped := none, dieMax := 0, dieMaxEver := 0 }

def Cal.reset : Cal := { trimmed := false, fromImage := false, crc := 0, lastRef := 0, run := none, holds := [] }

def Port.reset : Port :=
  { op := .idle, item := none, attempts := 0, arbLosses := 0, retries := 0, wdata := [], acked := 0, addrAck := false, bus := .unknown, census := none, due := none, rounds := 0, again := false, lastSweep := false,
    needRecovery := false, stuckSda := false, stuckScl := false, alertHold := false, alertLow := false }

def Twb.reset : Twb := { ports := Vector.replicate 4 Port.reset, partners := [] }

def Usb.reset : Usb :=
  { vbus := false, attached := false, address := 0, configured := false, halted := [], suspended := false, grant := none, ringPos := 0,
    reply := none, sending := [], due := { arm := none, left := 0, refused := false }, lostGrant := false }

def Owl.reset : Owl := { state := .off, clock := .wdt, cycles := 0, lastFeed := 0, winFrom := none, left := 0, rung := 0, off := none }

def Owls.reset : Owls :=
  { owls := Vector.replicate 2 Owl.reset, hbeat := 0, wdtStopped := false, emberStopped := false }

/-- The hub before its first start: no VDEN, every register at its numeric reset value (R377 step 1). -/
def State.reset : State :=
  { pending := [], out := [], freeIx := 0, regs := [], pwr := Power.reset, den := Den.reset, clk := Clk.reset,
    link := Link.reset, eng := Engine.reset, jnl := Journal.reset, flt := Faults.reset,
    lanes := Vector.replicate 48 Lane.reset, rails := Vector.replicate 48 none, graphs := Vector.replicate 16 none,
    bud := Budget.reset, chg := Charger.reset, relays := Vector.replicate 48 none, motors := Vector.replicate 2 none,
    fans := Vector.replicate 4 none, adc := Adc.reset, cmp := Cmp.reset, thm := Thermal.reset, cal := Cal.reset,
    twb := Twb.reset, usb := Usb.reset, owl := Owls.reset }

end Sys2Proof.Machine
end

