-- ==== Sys2Proof/Machine/Bits.lean ====
section
/-! DEFINITION. Bit fields, sparse content and vectors: the plain helpers every block uses. -/

namespace Sys2Proof.Machine

/-- Field [hi:lo] of a word as a number. -/
def fld (w : Word) (hi lo : Nat) : Nat := (w.toNat / 2 ^ lo) % 2 ^ (hi + 1 - lo)

/-- Bit i of a word. -/
def bit (w : Word) (i : Nat) : Bool := w.getLsbD i

/-- A number placed at bit `lo` of a word, cut to the word. -/
def at_ (lo v : Nat) : Word := BitVec.ofNat 32 (v * 2 ^ lo)

/-- A flag placed at bit `i`. -/
def flag (i : Nat) (b : Bool) : Word := at_ i (if b then 1 else 0)

/-- Word with field [hi:lo] replaced. -/
def setFld (w : Word) (hi lo v : Nat) : Word :=
  (w &&& ~~~(at_ lo (2 ^ (hi + 1 - lo) - 1))) ||| at_ lo (v % 2 ^ (hi + 1 - lo))

/-- A field of `n` bits read as a signed number. -/
def signed (n v : Nat) : Int := if 2 ^ (n - 1) ≤ v % 2 ^ n then (v % 2 ^ n : Int) - 2 ^ n else (v % 2 ^ n : Int)

/-- An integer as a field of `n` bits, two's complement. -/
def unsigned (n : Nat) (i : Int) : Nat := (i % (2 ^ n : Int)).toNat

/-- Clamp to [lo, hi]. -/
def clampN (lo hi v : Nat) : Nat := if v < lo then lo else if hi < v then hi else v

def clampI (lo hi v : Int) : Int := if v < lo then lo else if hi < v then hi else v

/-- A count that saturates at the greatest value of `n` bits. -/
def satAdd (n a b : Nat) : Nat := if 2 ^ n ≤ a + b then 2 ^ n - 1 else a + b

/-- "0 is taken as d". -/
def orElse0 (v d : Nat) : Nat := if v = 0 then d else v

/-- Low and high words of a 64-bit value (R4). -/
def loW (d : DWord) : Word := d.setWidth 32
def hiW (d : DWord) : Word := (d >>> 32).setWidth 32
def dword (lo hi : Word) : DWord := hi ++ lo

/-- DEN_TIME as the two words of a record (R94): [31:0], then [47:32] in [15:0]. -/
def timeLo (t : Time) : Word := t.setWidth 32
def timeHi (t : Time) : Word := (t >>> 32).setWidth 32

/-- R63, R123: a later count, compared as a signed difference. -/
def later32 (a b : Word) : Bool := 0 < (a - b).toInt
def laterT (a b : Time) : Bool := 0 < (a - b).toInt
/-- Microseconds from `b` to `a` modulo 2^48. -/
def sinceT (a b : Time) : Nat := (a - b).toNat

/-! ### Sparse content -/

/-- What key `k` holds. -/
def spGet {α : Type} (dflt : Nat → α) (m : Sparse α) (k : Nat) : α :=
  match m with
  | [] => dflt k
  | (j, v) :: rest => if j = k then v else spGet dflt rest k

/-- Drops key `k` from a list whose keys rise. -/
def spErase {α : Type} (m : Sparse α) (k : Nat) : Sparse α :=
  match m with
  | [] => []
  | (j, v) :: rest => if j = k then rest else (j, v) :: spErase rest k

/-- Puts (k, v) into a list whose keys rise, in place of what k held. -/
def spInsert {α : Type} (m : Sparse α) (k : Nat) (v : α) : Sparse α :=
  match m with
  | [] => [(k, v)]
  | (j, u) :: rest => if k < j then (k, v) :: (j, u) :: rest else if k = j then (k, v) :: rest
                      else (j, u) :: spInsert rest k v

/-- Writes key `k`; writing what an unlisted key reads as removes the entry. -/
def spSet {α : Type} [DecidableEq α] (dflt : Nat → α) (m : Sparse α) (k : Nat) (v : α) : Sparse α :=
  if v = dflt k then spErase m k else spInsert m k v

/-- The canonical form: keys strictly rising, no entry equal to what an unlisted key reads as. -/
def spWf {α : Type} [DecidableEq α] (dflt : Nat → α) (m : Sparse α) : Bool :=
  match m with
  | [] => true
  | (k, v) :: rest =>
    decide (v ≠ dflt k) && rest.all (fun e => decide (k < e.1)) && spWf dflt rest

/-! ### Sorting -/

/-- `x` ahead of the first element that it may stand before. -/
def insertBy {α : Type} (le : α → α → Bool) (x : α) : List α → List α
  | [] => [x]
  | y :: rest => if le x y then x :: y :: rest else y :: insertBy le x rest

/-- A stable sort. -/
def sortBy {α : Type} (le : α → α → Bool) (l : List α) : List α := l.foldr (insertBy le) []

/-! ### Vectors -/

/-- Vector with element `i` changed by `f`. -/
def upd {α : Type} {n : Nat} (v : Vector α n) (i : Fin n) (f : α → α) : Vector α n := v.set i.val (f v[i]) i.isLt

/-- `some` index when the number is in range. -/
def fin? (n k : Nat) : Option (Fin n) := if h : k < n then some ⟨k, h⟩ else none

/-- Element `k`, or `d` out of range. -/
def nth {α : Type} {n : Nat} (v : Vector α n) (k : Nat) (d : α) : α := if h : k < n then v[k] else d

/-- All indices. -/
def fins (n : Nat) : List (Fin n) := List.finRange n

/-- The word whose bit i is f i. -/
def bitsOf (n : Nat) (f : Nat → Bool) : Nat := (List.range n).foldl (fun a i => if f i then a + 2 ^ i else a) 0

/-- Is bit i of a number set. -/
def nbit (v i : Nat) : Bool := (v / 2 ^ i) % 2 = 1

/-- Bytes of a word, lowest first (R4). -/
def wordBytes (w : Word) : List Byte := [w.setWidth 8, (w >>> 8).setWidth 8, (w >>> 16).setWidth 8, (w >>> 24).setWidth 8]

/-- A word of four bytes, the first in bits [7:0] (R4). -/
def bytesWord (a b c d : Byte) : Word := d ++ c ++ b ++ a

end Sys2Proof.Machine
end

