-- ==== Sys2Proof/Machine/Cmac.lean ====
section
/-! DEFINITION. AES-128 (FIPS 197) and AES-CMAC (NIST SP 800-38B), which R117 names for the MAC of an authorised
operation and R145 for a boot image. -/

namespace Sys2Proof.Machine

/-- Multiplication by x in GF(2^8). -/
def xtime (a : Byte) : Byte := (a <<< 1) ^^^ (if a.getLsbD 7 then 0x1B else 0)

def gmul (a b : Byte) : Byte :=
  ((List.range 8).foldl (fun (p : Byte × Byte) i => (if b.getLsbD i then p.1 ^^^ p.2 else p.1, xtime p.2)) (0, a)).1

/-- a to the power 254: the inverse, and 0 for 0. -/
def ginv (a : Byte) : Byte :=
  let a2 := gmul a a
  let a4 := gmul a2 a2
  let a8 := gmul a4 a4
  let a16 := gmul a8 a8
  let a32 := gmul a16 a16
  let a64 := gmul a32 a32
  let a128 := gmul a64 a64
  gmul a2 (gmul a4 (gmul a8 (gmul a16 (gmul a32 (gmul a64 a128)))))

def sbox (a : Byte) : Byte :=
  let i := ginv a
  i ^^^ i.rotateLeft 1 ^^^ i.rotateLeft 2 ^^^ i.rotateLeft 3 ^^^ i.rotateLeft 4 ^^^ 0x63

def xorB (a b : List Byte) : List Byte := List.zipWith (· ^^^ ·) a b

/-- The next round key from the last one. -/
def nextKey (k : List Byte) (rcon : Byte) : List Byte :=
  let g := fun i => k.getD i 0
  let t := [sbox (g 13) ^^^ rcon, sbox (g 14), sbox (g 15), sbox (g 12)]
  let w0 := xorB (k.take 4) t
  let w1 := xorB ((k.drop 4).take 4) w0
  let w2 := xorB ((k.drop 8).take 4) w1
  let w3 := xorB ((k.drop 12).take 4) w2
  w0 ++ w1 ++ w2 ++ w3

def shiftRows (s : List Byte) : List Byte :=
  (List.range 16).map fun j => s.getD (j % 4 + 4 * ((j / 4 + j % 4) % 4)) 0

def mixColumn (c : List Byte) : List Byte :=
  let g := fun i => c.getD (i % 4) 0
  (List.range 4).map fun i => xtime (g i) ^^^ (xtime (g (i + 1)) ^^^ g (i + 1)) ^^^ g (i + 2) ^^^ g (i + 3)

def mixColumns (s : List Byte) : List Byte :=
  mixColumn (s.take 4) ++ mixColumn ((s.drop 4).take 4) ++ mixColumn ((s.drop 8).take 4) ++ mixColumn ((s.drop 12).take 4)

/-- `left` more rounds, the last of them without MixColumns. -/
def aesRounds (left : Nat) (key : List Byte) (rcon : Byte) (s : List Byte) : List Byte :=
  match left with
  | 0 => s
  | n + 1 =>
    let k := nextKey key rcon
    let t := shiftRows (s.map sbox)
    aesRounds n k (xtime rcon) (xorB (if n = 0 then t else mixColumns t) k)

/-- AES-128 of one 16-byte block. -/
def aes (key blk : List Byte) : List Byte := aesRounds 10 key 1 (xorB blk key)

/-- 128 bits, first byte most significant, doubled in GF(2^128). -/
def dbl128 (b : List Byte) : List Byte :=
  let v : BitVec 128 := b.foldl (fun a x => (a <<< 8) ||| x.setWidth 128) 0
  let d := (v <<< 1) ^^^ (if v.getLsbD 127 then 0x87 else 0)
  (List.range 16).map fun i => (d >>> (8 * (15 - i))).setWidth 8

/-- CBC over the blocks before the last, then the last with its subkey. -/
def cmacLoop (fuel : Nat) (key k1 k2 x msg : List Byte) : List Byte :=
  match fuel with
  | 0 => x
  | n + 1 =>
    if msg.length ≤ 16 then
      let last := if msg.length = 16 then xorB msg k1 else xorB (msg ++ [0x80] ++ List.replicate (15 - msg.length) 0) k2
      aes key (xorB x last)
    else cmacLoop n key k1 k2 (aes key (xorB x (msg.take 16))) (msg.drop 16)

/-- AES-CMAC of a message under a key of 16 bytes. -/
def cmac (key msg : List Byte) : List Byte :=
  let k1 := dbl128 (aes key (List.replicate 16 0))
  cmacLoop (msg.length / 16 + 1) key k1 (dbl128 k1) (List.replicate 16 0) msg

/-- The first 8 bytes of the CMAC in output order, as they lie in memory (R117, R4). -/
def mac64 (key msg : List Byte) : DWord :=
  let o := cmac key msg
  let g := fun i => o.getD i 0
  dword (bytesWord (g 0) (g 1) (g 2) (g 3)) (bytesWord (g 4) (g 5) (g 6) (g 7))

end Sys2Proof.Machine
end

