-- ==== Sys2Proof/Machine/Crc.lean ====
section
/-! DEFINITION. The CRC-32 of journal records and images (R123: as the IEEE 802.3 frame check sequence, reflected,
initial value 0xFFFF_FFFF, final complement) and the CRC-8 of SMBus PEC (18). -/

namespace Sys2Proof.Machine

/-- One bit of the reflected CRC-32. -/
def crcBit (c : Word) : Word := if bit c 0 then (c >>> 1) ^^^ 0xEDB88320 else c >>> 1

def crcByte (c : Word) (b : Byte) : Word :=
  crcBit (crcBit (crcBit (crcBit (crcBit (crcBit (crcBit (crcBit (c ^^^ b.setWidth 32))))))))

/-- CRC-32 of a list of words, each little-endian (R4, R123). -/
def crc32 (ws : List Word) : Word :=
  ~~~(ws.foldl (fun c w => (wordBytes w).foldl crcByte c) 0xFFFFFFFF)

/-- One bit of the CRC-8 of SMBus: x^8 + x^2 + x + 1 (R310). -/
def pecBit (c : Byte) : Byte := if c.getLsbD 7 then (c <<< 1) ^^^ 0x07 else c <<< 1

/-- The PEC of a list of bytes, initial value 0 (R310). -/
def pec (bs : List Byte) : Byte :=
  bs.foldl (fun c b => pecBit (pecBit (pecBit (pecBit (pecBit (pecBit (pecBit (pecBit (c ^^^ b))))))))) 0

end Sys2Proof.Machine
end

