-- ==== Sys2Proof/Config.lean ====
section
/-! DEFINITION. What one part fixes and the spec leaves open. No constant here has a body: a statement about the hub
holds whatever they are. -/

namespace Sys2Proof.Config

/-- The stepping of this part: its letter, A for 0, and its digit (R1). Fixed in silicon, differs between parts. -/
opaque stepping : Nat × Nat

/-- How long after training may begin the hub goes on answering configuration requests with Configuration Request Retry
Status, in µs: at most 100 ms (R396). -/
opaque configReady : Nat

/-- The die serial number (R378), unique to each part. -/
opaque serial : DWord

/-- What a register whose reset entry is "Fixed" by the part's kind alone reads: LANE_ID of a lane (08). -/
opaque laneId : Nat → Word

/-- Half A of a motor bridge drives away from HOME, as the board has wired the motor, while DIR_INV is clear (R231). -/
opaque awayHalfA : Bool

/-- What a register that shows a live measurement reads (LANE_IAVG, RAIL_VOUT, CHG_IBAT and their like): a function
of its BAR0 offset and of DEN_TIME (notes/assumptions/9.md). -/
opaque liveReading : Nat → Time → Word

/-- Bits of host memory, of a device or of a measurement that the spec gives no value: one fresh value for each index
drawn (notes/assumptions/3.md). -/
opaque freeWord : Nat → Word

opaque freeNat : Nat → Nat

end Sys2Proof.Config
end

