-- ==== Sys2Proof/Machine/RegMap.lean ====
section
/-! DEFINITION. The register map of BAR0 (23, R369, R370): which offsets are registers, what access code each of
their bits carries (R7), what each reads after reset (R377 step 1), and where a write out of range is stored (R376). -/

namespace Sys2Proof.Machine

/-- The bits of a register by access code (R7); every other bit is RO or reserved. -/
structure Acc where
  rw : Word
  rws : Word
  rwd : Word
  w1c : Word
  wo : Word
  deriving DecidableEq, Repr

def accRO : Acc := { rw := 0, rws := 0, rwd := 0, w1c := 0, wo := 0 }
def accRW (m : Word) : Option Acc := some { accRO with rw := m }
def accRWS (m : Word) : Option Acc := some { accRO with rws := m }
def accRWD (m : Word) : Option Acc := some { accRO with rwd := m }
def accW1C (m : Word) : Option Acc := some { accRO with w1c := m }
def accWO (m : Word) : Option Acc := some { accRO with wo := m }

/-- The instance and the offset within it, for instances of `stride` bytes from `base`. -/
def inst (base stride count off : Nat) : Option (Nat × Nat) :=
  if base ≤ off ∧ off < base + stride * count then some ((off - base) / stride, (off - base) % stride) else none

/-- GLB (0x0000), CLK (0x0100) and LINK (0x0400). -/
def accGlb (o : Nat) : Option Acc :=
  if o = 0x0010 then some { accRO with rws := 0x3, wo := 0xFF00 }
  else if o = 0x0018 then accW1C 0xFF
  else if o = 0x001C then accRWS 0x00FFFF1F
  else if o = 0x0030 ∨ o = 0x0034 ∨ o = 0x0038 then accRW 0xFFFFFFFF
  else if 0x0040 ≤ o ∧ o < 0x0080 then accWO 0xFFFFFFFF
  else if o = 0x0080 then accWO 0x0000FF03
  else if o < 0x00A8 then some accRO
  else none

def accClk (o : Nat) : Option Acc :=
  if o = 0x0104 then accRWS 0xFF07
  else if o = 0x011C then accW1C 0x1FF
  else if 0x0100 ≤ o ∧ o ≤ 0x0118 then some accRO
  else match inst 0x0160 0x20 9 o with
    | some (d, r) => if r = 0 then (if d = 7 then some accRO else accRWS 1) else if r ≤ 0xC then some accRO else none
    | none => none

def accRing (q : Bool) (r : Nat) : Option Acc :=
  if r = 0 then accRW 0xFFFFFFC0 else if r = 4 then accRW 0xFFFFFFFF
  else if r = 8 then accRW (if q then 0x00010F0F else 0x0001000F) else some accRO

def accLink (o : Nat) : Option Acc :=
  if o = 0x0404 then some { accRO with rw := 1, w1c := 2, rws := 0x10 }
  else if o = 0x0408 then accRWS 0xFFFFFFFF
  else if o = 0x040C then accRW 0x03FF03FF
  else if o = 0x0410 then accW1C 0xFFFFFFFF
  else if o = 0x0414 then accRW 0xFFFFFFFF
  else if o = 0x0400 ∨ o = 0x0418 ∨ o = 0x041C then some accRO
  else if o = 0x0640 ∨ o = 0x0648 then accRW 0xFFFFF000
  else if o = 0x0650 then accRW 0xFFFFFFC0
  else if o = 0x0644 ∨ o = 0x064C ∨ o = 0x0654 then accRW 0xFFFFFFFF
  else if o = 0x0658 then accRW 0x0001000F
  else if o = 0x065C then accRW 0x9F9F9F9F
  else match inst 0x0440 0x10 16 o, inst 0x0540 0x10 16 o, inst 0x0660 8 4 o with
    | some (_, r), _, _ => accRing true r
    | none, some (_, r), _ => accRing false r
    | none, none, some (_, r) => accRW (if r = 0 then 0xFFFFFFC0 else 0xFFFFFFFF)
    | none, none, none => none

/-- JNL (0x0800) and FLT (0x0C00). -/
def accJnl (o : Nat) : Option Acc :=
  if o = 0x0804 then accRWS 3
  else if o = 0x0840 then some { accRO with rws := 0x30, wo := 3 }
  else if o = 0x0844 ∨ o = 0x0848 ∨ o = 0x084C then accWO 0xFFFFFFFF
  else if (0x0800 ≤ o ∧ o ≤ 0x082C) ∨ o = 0x0850 then some accRO else none

def accFlt (o : Nat) : Option Acc :=
  if 0x0C00 ≤ o ∧ o < 0x0F00 then accRWS 0x7F
  else if o = 0x0FB4 then accRWS 0xFFFF
  else if (0x0F80 ≤ o ∧ o < 0x0FB4) ∨ o = 0x0FB8 then some accRO
  else match inst 0x0F00 0x40 2 o with
    | some (_, r) => if r = 0 then accRWS 1 else if r = 8 then accW1C 3 else if r ≤ 0x38 then some accRO else none
    | none => none

def accLane (n r : Nat) : Option Acc :=
  let ctl := 32 ≤ n
  if r = 0x04 then accRWS (if ctl then 0xF else 0x7)
  else if r = 0x08 then accRWS 0xFFF
  else if r = 0x0C then accRWS 0x3FFF
  else if r = 0x10 then accRWS 0x3FF
  else if r = 0x14 then accRWS 0xFFFF
  else if r = 0x18 then accRWS 0x7FFF
  else if r = 0x1C then accRWS (if ctl then 0x000103FF else 0)
  else if r = 0x20 then accRWS 0x000FFFFF
  else if r = 0x24 then accRWS 0x0FFF0FFF
  else if r = 0x28 then accRWS 0xFF
  else if r = 0x2C then accRWS 0xFFF
  else if r = 0 ∨ (0x40 ≤ r ∧ r ≤ 0x64) then some accRO else none

/-- BUD (0x5000), CHG (0x5400). -/
def accBud (o : Nat) : Option Acc :=
  if o = 0x5004 then accRWS 1
  else if o = 0x5008 ∨ o = 0x500C ∨ o = 0x5028 then accRWS 0xFFFFFF
  else if o = 0x502C then accRWS 0xFF07
  else if o = 0x5030 then accRWS 0xFFFFFFFF
  else if o = 0x5034 then accRWS 0xFFFF
  else if o = 0x5038 then accRWS 0x333
  else if (0x5000 ≤ o ∧ o ≤ 0x5098) ∨ o = 0x50A0 ∨ o = 0x50A4 then some accRO else none

def accChg (o : Nat) : Option Acc :=
  if o = 0x5404 then accRWS 1
  else if o = 0x5408 then accRWS 0x3FF
  else if o = 0x540C then accRWS 0x1FFF
  else if o = 0x5410 ∨ o = 0x5414 then accRWS 0xFFFFFF
  else if o = 0x5418 then accRWS 0x1FF
  else if o = 0x5444 ∨ o = 0x5450 then accRWS 0xFFFFFFFF
  else if o = 0x5454 then accRWS 0xFF0FFF
  else if o = 0x5458 then accRWS 0x1FFFF
  else if o = 0x54C0 then accW1C 0x3FF
  else if o = 0x54C4 then accRWS 0x3FF
  else if (0x5400 ≤ o ∧ o ≤ 0x5434) ∨ o = 0x5440 ∨ o = 0x5448 ∨ o = 0x544C ∨ o = 0x545C ∨ (0x5480 ≤ o ∧ o ≤ 0x5488) ∨
     (0x54A0 ≤ o ∧ o ≤ 0x54A8) ∨ o = 0x54D0 then some accRO else none

/-- ACT (0x5800), FAN (0x6000), ADC (0x6400). -/
def accAct (o : Nat) : Option Acc :=
  if o = 0x5800 then accRWS 0xFFFF
  else if (0x5804 ≤ o ∧ o ≤ 0x5830) then some accRO
  else match inst 0x5840 0x18 48 o, inst 0x5CC0 0x80 2 o with
    | some _, _ => some accRO
    | none, some (_, r) => if r ≤ 0x40 then some accRO else none
    | none, none => none

def accFan (o : Nat) : Option Acc :=
  if o = 0x6000 then some accRO
  else match inst 0x6040 0x70 4 o with
    | some (_, r) => if r ≤ 0x40 then some accRO else none
    | none => none

def accAdc (o : Nat) : Option Acc :=
  if o = 0x6404 then accRWS 0xFFFF00FF
  else if o = 0x6400 ∨ o = 0x6408 ∨ (0x6410 ≤ o ∧ o < 0x6420) ∨ (0x6440 ≤ o ∧ o < 0x69C0) then some accRO
  else match inst 0x69C0 0x20 2 o with
    | some (_, r) => if r ≤ 0xC then some accRO else none
    | none => none

/-- CMP and TMP (0x7000), THM (0x7800). -/
def accCmp (o : Nat) : Option Acc :=
  if o = 0x700C then accRWD 0x07FFFFFF
  else if o = 0x701C then accRWS 0xFFFF
  else if 0x7000 ≤ o ∧ o ≤ 0x7018 then some accRO
  else if o = 0x7780 then accRWD 0xFFFF
  else if 0x7784 ≤ o ∧ o < 0x77D0 then some accRO
  else match inst 0x7080 0x18 64 o, inst 0x7680 0x10 16 o with
    | some (_, r), _ =>
      if r = 0 then accRWS 0x00FF3CFF else if r = 4 then accRWS 0xFFFFFFFF else if r = 8 then accRWS 0x7FFFF else some accRO
    | none, some (i, r) =>
      if r = 0 then accRWD (if i < 8 then 0xFF1F else if 14 ≤ i then 0x1FF0F else 0xFF0F)
      else if r = 4 then accRWD 0x03FF03FF else if r = 8 then accRWD 0x7FFFF else some accRO
    | none, none => none

def accThm (o : Nat) : Option Acc :=
  if o = 0x7800 then accRWS 0xFFFFFF
  else if 0x7804 ≤ o ∧ o < 0x7820 then some accRO
  else if 0x7820 ≤ o ∧ o < 0x7840 then accRWS 0xFFFFFFFF
  else match inst 0x7840 8 32 o with
    | some (i, r) => if r = 0 then accRWS (if i < 24 then 0xFF else 0xFFFFFFFF) else some accRO
    | none => if 0x7940 ≤ o ∧ o < 0x7A80 then some accRO else none

/-- CAL (0x8000), TWB (0x8800), USB (0x9000), OWL (0x9400), LSH (0x9600). -/
def accCal (o : Nat) : Option Acc :=
  if 0x8000 ≤ o ∧ o < 0x82A8 then accRWD 0x07FFFFFF
  else if o = 0x87F8 then accRWD 0x000107FF
  else if o = 0x87FC then some accRO else none

def accTwb (o : Nat) : Option Acc :=
  if o = 0x8804 then accRW 0x1FF
  else if o = 0x8800 ∨ (0x8808 ≤ o ∧ o ≤ 0x8814) ∨ (0x8940 ≤ o ∧ o < 0x8B00) then some accRO
  else match inst 0x8840 0x40 4 o with
    | some (_, r) =>
      if r = 0 then accRWS 0x00FF0F7F else if r = 4 then accRWS 0x1FFFF else if r = 8 then accRWS 0xFF
      else if r ≤ 0x24 then some accRO else none
    | none => none

def accUsb (o : Nat) : Option Acc :=
  if o = 0x9000 then accRWS 1 else if 0x9004 ≤ o ∧ o ≤ 0x901C then some accRO else none

def accOwl (o : Nat) : Option Acc :=
  if o = 0x9400 ∨ o = 0x9404 ∨ o = 0x9408 then some accRO
  else match inst 0x9410 0x20 2 o with
    | some (i, r) =>
      if r = 0 then accRWS (if i = 0 then 0xF3F else 0xF37)
      else if r = 4 then accRWS (if i = 0 then 0xFFFFFFFF else 0xFFFF)
      else if r = 8 then accRWS (if i = 0 then 0xFFFF else 0)
      else if r = 0xC then accRWS 0xFFFFFFFF else some accRO
    | none => none

def accLsh (o : Nat) : Option Acc :=
  if o = 0x9604 then accRWS 0x07FF07FF
  else if o = 0x9608 then accRWS 0xF0F
  else if o = 0x960C then accRWS 0x3FF
  else if o = 0x9610 then accRWS 0xFFFF
  else if o = 0x9614 then accRWS 0xF
  else if 0x9620 ≤ o ∧ o < 0x9638 then accRWS 0xFFFFFFFF
  else if o = 0x9600 ∨ (0x9640 ≤ o ∧ o < 0x9658) then some accRO else none

/-- The access code of the register at an offset, none for reserved space (R370). -/
def regAccess (o : Nat) : Option Acc :=
  if o % 4 ≠ 0 then none
  else if o < 0x0100 then accGlb o
  else if o < 0x0400 then accClk o
  else if o < 0x0800 then accLink o
  else if o < 0x0C00 then accJnl o
  else if o < 0x1000 then accFlt o
  else if o < 0x4000 then accLane ((o - 0x1000) / 0x100) (o % 0x100)
  else if o < 0x4D00 then some accRO
  else if o < 0x5400 then (if 0x5000 ≤ o then accBud o else none)
  else if o < 0x5800 then accChg o
  else if o < 0x6000 then accAct o
  else if o < 0x6400 then accFan o
  else if o < 0x7000 then accAdc o
  else if o < 0x7800 then accCmp o
  else if o < 0x8000 then accThm o
  else if o < 0x8800 then accCal o
  else if o < 0x9000 then accTwb o
  else if o < 0x9400 then accUsb o
  else if o < 0x9600 then accOwl o
  else accLsh o

/-- Bits that SETUP and RUN writes may reach: the union over the codes. -/
def Acc.any (a : Acc) : Word := a.rw ||| a.rws ||| a.rwd ||| a.w1c ||| a.wo

/-- Bits locked in RUN (R7): RWS, RWD and WO. -/
def Acc.locked (a : Acc) : Word := a.rws ||| a.rwd

/-- What a stored register reads after step 1 of R377; 0 unless its table says otherwise. -/
def regReset (o : Nat) : Word :=
  if o = 0x0000 then 0x00481A7E else if o = 0x000C then 0x10C03030
  else if o = 0x001C then 0x000A0A10
  else if o = 0x0104 then 0x00000107
  else if o = 0x0404 then 0x00000010 else if o = 0x0408 then 0x00481A7E else if o = 0x040C then 0x00C80001
  else if o < 0x0C00 then 0
  else if o < 0x0F00 then 0x61 else if o = 0x0FB4 then 0x00000A14
  else if o < 0x1000 then 0
  else if o < 0x4000 then
    let ctl := 32 ≤ (o - 0x1000) / 0x100
    let r := o % 0x100
    if r = 0x04 then 0x3 else if r = 0x08 then (if ctl then 400 else 2000) else if r = 0x10 then 10
    else if r = 0x14 then (if ctl then 10000 else 5000) else if r = 0x18 then (if ctl then 5000 else 2000)
    else if r = 0x1C then (if ctl then 0x64 else 0) else if r = 0x20 then (if ctl then 0x4237 else 0x1437)
    else if r = 0x24 then 0x05320840 else if r = 0x28 then 0x19 else 0
  else if o < 0x5000 then 0
  else if o = 0x5008 then 50000 else if o = 0x500C then 5000 else if o = 0x5028 then 20000
  else if o = 0x502C then 0x506 else if o = 0x5030 then 0x3C3C3C00 else if o = 0x5034 then 100 else if o = 0x5038 then 0x132
  else if o = 0x5404 then 1 else if o = 0x5408 then 100 else if o = 0x540C then 3600 else if o = 0x5410 then 0x003C1E0A
  else if o = 0x5414 then 0x00183C14 else if o = 0x5418 then 0xB4 else if o = 0x5444 then 0x000F4240
  else if o = 0x5450 then 0x191407D0 else if o = 0x5454 then 0x00320AF0 else if o = 0x5458 then 0x00011405
  else if o = 0x54C4 then 0x39
  else if o = 0x5800 then 0xA50 else if o = 0x6404 then 0x0A0A000A
  else if o = 0x700C then 0x0005140F else if o = 0x701C then 0x64
  else if o < 0x7680 then 0
  else if o < 0x7780 then
    let i := (o - 0x7680) / 0x10
    let r := o % 0x10
    if r = 0 then (if i < 8 then 0x141A else if i < 12 then 0xD else if i = 12 then 0xC else if i = 13 then 0xF else 3)
    else if r = 4 then (if i < 8 then 0x012C0096 else if i < 12 then 0xFA else if i = 12 then 0x01900000
                        else if i = 13 then 0x019D0000 else 0)
    else 0
  else if o = 0x7780 then 0xAFF else if o = 0x7800 then 0x0008180A
  else if o < 0x7820 then 0
  else if o < 0x7840 then 0x0D6B03E8
  else if o < 0x7900 then (if o % 8 = 0 then 1 else 0)
  else if o = 0x7A44 then 0x00FFFFFF
  else if o < 0x8840 then 0
  else if o < 0x8940 then (let r := o % 0x40; if r = 0 then 0x001E035A else if r = 8 then 0xA else 0)
  else if o = 0x9000 then 1
  else if o = 0x9410 then 0x330 else if o = 0x9430 then 0x301 else if o = 0x9414 then 0x012C03E8 else if o = 0x9434 then 0xA
  else if o = 0x941C ∨ o = 0x943C then 0x0A146432
  else if o = 0x9604 then 0x03FF0400 else if o = 0x9608 then 0xF0F else if o = 0x960C then 100
  else if o = 0x9610 then 0xFFFF else if o = 0x9614 then 0xC
  else if 0x9620 ≤ o ∧ o < 0x9638 then 0x11111111 else 0

/-- Field [hi:lo] brought into [a, b] (R376). -/
def clampFld (w : Word) (hi lo a b : Nat) : Word := setFld w hi lo (clampN a b (fld w hi lo))

/-- The greatest peak or negative current that RSENSE allows, in mA: 75 mV divided by RSENSE (R147). -/
def senseMax (rsense : Nat) : Nat := 7500000 / orElse0 rsense 1

/-- R147: limits of a lane's registers. -/
def clampLane (n r rsense : Nat) (w : Word) : Word :=
  let ctl := 32 ≤ n
  if r = 0x04 then (if fld w 2 1 = 3 then setFld w 2 1 1 else w)
  else if r = 0x08 then (if ctl then clampFld w 11 0 200 800 else clampFld w 11 0 1000 2400)
  else if r = 0x0C then clampFld w 13 0 0 (if ctl then 12000 else 5500)
  else if r = 0x10 then clampFld w 9 0 1 500
  else if r = 0x14 then (if ctl then clampFld w 15 0 1000 (min 40000 (senseMax rsense)) else clampFld w 15 0 500 6000)
  else if r = 0x18 then (if ctl then clampFld w 14 0 500 (min 20000 (senseMax rsense)) else clampFld w 14 0 250 4000)
  else if r = 0x1C then (if ctl then clampFld w 9 0 10 1000 else w)
  else if r = 0x24 then clampFld w 23 16 10 100
  else w

/-- R376: what a write of `w` stores in the fields that have a range. `li`: the chemistry in use is 3S Li-ion. -/
def clampReg (li : Bool) (rsense o : Nat) (w : Word) : Word :=
  if o = 0x040C then clampFld (clampFld w 9 0 0 1000) 25 16 0 1000
  else if 0x1000 ≤ o ∧ o < 0x4000 then clampLane ((o - 0x1000) / 0x100) (o % 0x100) rsense w
  else if o = 0x502C then clampFld w 2 0 1 6
  else if o = 0x5408 then clampFld w 9 0 0 1000
  else if o = 0x540C then (if li then clampFld w 12 0 4000 4350 else clampFld w 12 0 3400 3650)
  else if o = 0x5414 then clampFld w 7 0 5 100
  else if o = 0x5418 then clampFld w 8 0 170 340
  else if o = 0x5444 then clampFld w 31 0 1000 10000000
  else if o = 0x5454 then (if li then clampFld w 11 0 3100 3600 else clampFld w 11 0 2600 3100)
  else if o = 0x5800 then clampFld w 7 0 70 90
  else if o = 0x6404 then clampFld w 7 0 0 100
  else if o = 0x700C then clampFld w 7 0 0 100
  else if 0x7680 ≤ o ∧ o < 0x7780 ∧ o % 0x10 = 4 then clampFld (clampFld w 9 0 0 825) 25 16 0 825
  else if o = 0x7800 then clampFld w 7 0 0 100
  else if o = 0x8804 then clampFld w 8 0 0 447
  else if 0x8840 ≤ o ∧ o < 0x8940 ∧ o % 0x40 = 0 then clampFld w 23 16 25 35
  else if o = 0x960C then clampFld w 9 0 0 1000
  else w

end Sys2Proof.Machine
end

