-- ==== Sys2Proof/Machine/Ops.lean ====
section
/-! DEFINITION. The operations every block shares: the register file, what the hub sends, interrupt messages and
events. -/

namespace Sys2Proof.Machine

/-- What a meaning answers. -/
abbrev Out := Host.Outcome State Fault Refusal

/-! ### Registers -/

/-- The stored word of the register at offset `o`. -/
def reg (s : State) (o : Nat) : Word := spGet regReset s.regs o

def setReg (o : Nat) (w : Word) (s : State) : State := { s with regs := spSet regReset s.regs o w }

/-- A stored register changed in place. -/
def modReg (o : Nat) (f : Word → Word) (s : State) : State := setReg o (f (reg s o)) s

/-- Sets bits of a W1C or flag register. -/
def orReg (o : Nat) (m : Word) (s : State) : State := setReg o (reg s o ||| m) s

/-- Field [hi:lo] of a stored register. -/
def rfld (s : State) (o hi lo : Nat) : Nat := fld (reg s o) hi lo
def rbit (s : State) (o i : Nat) : Bool := bit (reg s o) i

/-- Counts up field [hi:lo], saturating. -/
def countReg (o hi lo n : Nat) (s : State) : State :=
  modReg o (fun w => setFld w hi lo (satAdd (hi + 1 - lo) (fld w hi lo) n)) s

def now (s : State) : Time := s.den.time

/-! ### Facts about the hub that many rules ask -/

def battless (s : State) : Bool := fld s.pwr.strap 13 12 = 1

/-- 3S Li-ion is in use (R202). -/
def liIon (s : State) : Bool := s.chg.chem = 2

def inRun (s : State) : Bool := s.pwr.iface ≠ .setup
/-- Writes are judged as in SETUP: SETUP, or a granted SETUP (R40, R374). -/
def setupWrites (s : State) : Bool := s.pwr.iface ≠ .run
/-- The Den domain has supply and the Core is up. -/
def up (s : State) : Bool := s.den.up

/-- Reset of R18: from first supply until step 9 of the start has applied the boot image, and the off-time of a Shake. -/
def inReset (s : State) : Bool :=
  !s.den.up || s.pwr.stage = .down || s.pwr.stage = .heldBattery || s.pwr.stage = .shakeOff

/-- Every output stands in its Reset state: Reset itself, and what is left of the start before the boot graph, which a hold
may make long (R18, R31). -/
def outputsReset (s : State) : Bool := inReset s || s.pwr.stage = .heldImage || s.pwr.stage = .blank

/-- The columns of R18. -/
inductive PinColumn where
  | full | outage | hush | burrow | reset
  deriving DecidableEq, Repr

def pinColumn (s : State) : PinColumn :=
  if s.pwr.latch.inBurrow then .burrow
  else if outputsReset s then .reset
  else match s.pwr.pstate with
    | .full => .full
    | .outage => .outage
    | .hush => .hush
    | .burrow => .burrow

def hostGraph (s : State) : Nat := rfld s 0x001C 3 0

/-- No DMA is possible while HELD, while the link is not in DL_Up, or while Bus Master Enable is clear (R81). -/
def dmaOk (s : State) : Bool := !s.link.held && s.link.dlUp && s.link.bme

/-! ### Outputs and free values -/

def emit (o : Output) (s : State) : State := { s with out := o :: s.out }

/-- A value the spec leaves open, and the state that will not give it again. -/
def drawWord (s : State) : Word × State := (Config.freeWord s.freeIx, { s with freeIx := s.freeIx + 1 })
def drawNat (s : State) : Nat × State := (Config.freeNat s.freeIx, { s with freeIx := s.freeIx + 1 })

/-- num / den where the spec states no rounding: exact, or either neighbour (notes/assumptions/18.md). -/
def roundOpen (num den : Nat) (s : State) : Nat × State :=
  if num % den = 0 then (num / den, s) else let d := drawNat s; (num / den + d.1 % 2, d.2)

/-! ### Host memory (R70) -/

/-- The greatest write and the greatest read request. -/
def writeLimit (s : State) : Nat := min 256 s.link.cfg.mps
def readLimit (s : State) : Nat := min 512 s.link.cfg.mrrs

/-- Writes of at most `lim` bytes, in address order. -/
def writesOf (fuel lim : Nat) (addr : DWord) (data : List Byte) (s : State) : State :=
  match fuel with
  | 0 => s
  | n + 1 => if data.isEmpty then s
             else writesOf n lim (addr + BitVec.ofNat 64 lim) (data.drop lim) (emit (.memWrite addr (data.take lim)) s)

def memWrite (addr : DWord) (data : List Byte) (s : State) : State := writesOf data.length (writeLimit s) addr data s

/-- Words, little-endian (R4). -/
def memWords (addr : DWord) (ws : List Word) (s : State) : State := memWrite addr (ws.flatMap wordBytes) s

/-- Read requests of at most `lim` bytes, in address order. -/
def readsOf (fuel lim : Nat) (addr : DWord) (len : Nat) (s : State) : State :=
  match fuel with
  | 0 => s
  | n + 1 => if len = 0 then s
             else readsOf n lim (addr + BitVec.ofNat 64 lim) (len - lim) (emit (.memRead addr (min lim len)) s)

def memRead (addr : DWord) (len : Nat) (s : State) : State := readsOf len (readLimit s) addr len s

/-- An address in a pair of registers. -/
def regAddr (s : State) (o : Nat) : DWord := dword (reg s o) (reg s (o + 4))

/-- Where entry position `p` of a ring lies whose BASE stands at `o`: BASE + (p mod E) × entry size (R88). -/
def entryAddr (s : State) (o : Nat) (p : Word) (entries size : Nat) : DWord :=
  regAddr s o + BitVec.ofNat 64 (p.toNat % entries * size)

def modLink (f : Link → Link) (s : State) : State := { s with link := f s.link }

/-- A slot of the shadow page has changed and is not written yet: it goes out with the next poll or the next whole page
(R98). -/
def shadowLater (off : Nat) (s : State) : State :=
  if s.link.shadowDue.contains off then s
  else modLink (fun l => { l with shadowDue := l.shadowDue ++ [off] }) s

/-- Writes one slot of the shadow page when DMA is possible (R77, R90). -/
def shadowWrite (off : Nat) (v : DWord) (s : State) : State :=
  if dmaOk s then memWords (regAddr s 0x0648 + BitVec.ofNat 64 off) [loW v, hiW v] s else shadowLater off s

/-- Word `i` of the shadow page (R90). -/
def shadowWord (s : State) (i : Nat) : Word :=
  if i < 32 then (match fin? 16 (i / 2) with | some q => if i % 2 = 0 then s.link.sqs[q].cons else 0 | none => 0)
  else if i < 64 then 0
  else if i < 96 then (match fin? 16 ((i - 64) / 2) with | some q => if i % 2 = 0 then s.link.cqs[q].prod else 0 | none => 0)
  else if i = 128 then timeLo s.link.lastPoll
  else if i = 129 then timeHi s.link.lastPoll
  else if i = 130 then s.link.eq.prod
  else if 132 ≤ i && i < 140 then (match fin? 4 ((i - 132) / 2) with | some k => if i % 2 = 0 then s.link.sts[k].prod else 0 | none => 0)
  else 0

/-- Writes the whole shadow page when DMA is possible (R77, R80). -/
def shadowPage (s : State) : State :=
  if dmaOk s then
    memWords (regAddr s 0x0648) ((List.range 1024).map (shadowWord s)) (modLink (fun l => { l with shadowDue := [] }) s)
  else s

/-- The changed slots of the shadow page are written (R98). -/
def shadowChanges (s : State) : State :=
  s.link.shadowDue.foldl (fun t off => shadowWrite off (dword (shadowWord t (off / 4)) (shadowWord t (off / 4 + 1))) t)
    (modLink (fun l => { l with shadowDue := [] }) s)

/-! ### Interrupts (R71, R72, R83) -/

/-- The source of vector `v` has become pending, and the host has not been reached for it (R83). It stays so until the vector
is sent, the link comes up or a reset of the link: a write to LINK_IPEND does not end it (R83 gives no such end: DESIGN
CHOICE, notes/assumptions/80.md). -/
def pendVector (v : Nat) (s : State) : State :=
  let s1 := modLink (fun l => { l with wakePend := l.wakePend ||| at_ v 1 }) s
  if s.link.cfg.d3hot && s.link.dlUp && s.link.cfg.pmeEn && rbit s 0x0414 v then emit .pme s1 else s1

/-- WAKE_N is asserted (R83). -/
def wakeN (s : State) : Bool :=
  let hush := s.pwr.pstate = .hush
  s.den.up && !s.link.dlUp && (s.link.perst || hush) && (s.link.cfg.pmeEn || hush) &&
    decide (s.link.wakePend &&& reg s 0x0414 ≠ 0)

/-- INTA is asserted (R72). -/
def inta (s : State) : Bool :=
  !s.link.cfg.msix && s.link.cfg.msiVectors = 0 && !s.link.cfg.intxDisable && decide (reg s 0x0410 ≠ 0)

/-- The number of the message that carries vector `v`, none under INTx. -/
def messageOf (c : LinkCfg) (v : Nat) : Option Nat :=
  if c.msix then some v else if c.msiVectors = 0 then none else some (v % c.msiVectors)

/-- Message `m` is masked (R72). -/
def maskedNow (c : LinkCfg) (m : Nat) : Bool := if c.msix then c.msixAll || bit c.msixMask m else bit c.msiMask m

/-- The message with number `m`: under MSI-X the entry's own address and data, under MSI the address, and the data with the
number in its low bits. -/
def messageOut (c : LinkCfg) (m : Nat) : Output :=
  if c.msix then let e := nth c.msixTable m { addr := 0, data := 0 }; .message m e.addr e.data
  else .message m c.msiAddr (BitVec.ofNat 32 (c.msiData.toNat / c.msiVectors * c.msiVectors + m))

/-- Sends vector `v`: LINK_IPEND, and the message unless held, masked or under INTx. A vector that finds no DMA possible
shows in LINK_IPEND and, for WAKE_N and PME, as pending; its message is not sent later: the release sends the vectors of what
it posts (R77 does not say; DESIGN CHOICE, notes/assumptions/52.md). -/
def sendVector (v : Nat) (s : State) : State :=
  let s1 := orReg 0x0410 (at_ v 1) s
  if !dmaOk s then pendVector v s1
  else
    let s2 := if s.link.cfg.d3hot then pendVector v s1 else modLink (fun l => { l with wakePend := l.wakePend &&& ~~~(at_ v 1) }) s1
    match messageOf s.link.cfg v with
    | none => s2
    | some m =>
      if maskedNow s.link.cfg m then modLink (fun l => { l with masked := l.masked ||| at_ m 1 }) s2
      else emit (messageOut s.link.cfg m) s2

/-- Pending messages whose mask is lifted are sent (R72). -/
def sendUnmasked (s : State) : State :=
  (List.range 32).foldl (fun t m =>
    if bit t.link.masked m && !maskedNow t.link.cfg m && dmaOk t then
      emit (messageOut t.link.cfg m) (modLink (fun l => { l with masked := l.masked &&& ~~~(at_ m 1) }) t)
    else t) s

/-! ### Rings (R88) -/

/-- A ring in use: EN set and SIZE valid. -/
def ringOn (cfg : Word) : Bool := bit cfg 16 && 4 ≤ fld cfg 3 0 && fld cfg 3 0 ≤ 12
def ringSize (cfg : Word) : Nat := 2 ^ fld cfg 3 0

def sqCfg (s : State) (q : Nat) : Word := reg s (0x0448 + q * 0x10)
def cqCfg (s : State) (q : Nat) : Word := reg s (0x0548 + q * 0x10)
def stByte (s : State) (k : Nat) : Nat := rfld s 0x065C (8 * k + 7) (8 * k)
def stOn (s : State) (k : Nat) : Bool := nbit (stByte s k) 7 && 6 ≤ stByte s k % 32 && stByte s k % 32 ≤ 16
def stSize (s : State) (k : Nat) : Nat := 2 ^ (stByte s k % 32)

/-- Entries a ring holds (R88). -/
def OutRing.held (r : OutRing) : Nat := (r.prod - r.cons).toNat

/-- The hub may post to a ring now: in use, DMA possible, its consumer index read since the last release, room by the last
valid consumer index (R92). -/
def ringRoom (s : State) (on : Bool) (size : Nat) (r : OutRing) : Bool :=
  on && dmaOk s && r.fresh && r.held < size

/-! ### Events (R95, R112, R113) -/

def eqRoom (s : State) : Bool := ringRoom s (ringOn (reg s 0x0658)) (ringSize (reg s 0x0658)) s.link.eq

/-- The eight words of an event record at position `p` (R95). -/
def eventWords (e : Event) (p : Word) : List Word :=
  [at_ 0 e.code.toNat ||| at_ 16 (p.toNat % 65536), e.handle, at_ 0 e.index.toNat ||| at_ 16 e.detail.toNat, 0,
   timeLo e.time, timeHi e.time, loW e.value, hiW e.value]

/-- Writes one event record to EQ, then the producer index, then vector 23 (R69, R112). -/
def writeEvent (e : Event) (s : State) : State :=
  let p := s.link.eq.prod
  let s1 := memWords (entryAddr s 0x0650 p (ringSize (reg s 0x0658)) 32) (eventWords e p) (modLink (fun l => { l with eq := { l.eq with prod := p + 1 } }) s)
  sendVector 23 (shadowWrite 0x208 ((p + 1).setWidth 64) s1)

def modEng (f : Engine → Engine) (s : State) : State := { s with eng := f s.eng }

def eqLost (n : Nat) (s : State) : Event :=
  { code := 0x0301, handle := 0, index := 0, detail := 0, time := now s, value := BitVec.ofNat 64 n }

/-- Posts held events while EQ has room, then EQ_LOST for those dropped (R113). -/
def flushEvents (fuel : Nat) (s : State) : State :=
  match fuel with
  | 0 => s
  | n + 1 =>
    if eqRoom s then
      match s.eng.events with
      | e :: rest => flushEvents n (writeEvent e (modEng (fun g => { g with events := rest }) s))
      | [] => if s.eng.eventsLost = 0 then s
              else flushEvents n (writeEvent (eqLost s.eng.eventsLost s) (modEng (fun g => { g with eventsLost := 0 }) s))
    else s

/-- Posts the held events that fit. -/
def drainEvents (s : State) : State := flushEvents (s.eng.events.length + 1) s

/-- Events held, EQ_LOST records not counted. -/
def heldEvents (s : State) : Nat := (s.eng.events.filter (fun e => e.code ≠ 0x0301)).length

/-- Posts an event: at once, or held, or dropped and counted. -/
def postEvent (e : Event) (s : State) : State :=
  if eqRoom s && s.eng.events.isEmpty && s.eng.eventsLost = 0 then writeEvent e s
  else
    let s1 := pendVector 23 s
    if heldEvents s < 64 then
      modEng (fun g => { g with
        events := g.events ++ (if g.eventsLost = 0 then [e] else [eqLost g.eventsLost s, e]), eventsLost := 0 }) s1
    else modEng (fun g => { g with eventsLost := g.eventsLost + 1 }) s1

/-- An event by its code, handle, INDEX, DETAIL and VALUE at this moment. -/
def event (code : BitVec 16) (handle : Word) (index detail : Nat) (value : DWord) (s : State) : State :=
  postEvent { code := code, handle := handle, index := BitVec.ofNat 16 index, detail := BitVec.ofNat 16 detail,
              time := now s, value := value } s

/-! ### State updaters by block -/

def modPwr (f : Power → Power) (s : State) : State := { s with pwr := f s.pwr }
def modClk (f : Clk → Clk) (s : State) : State := { s with clk := f s.clk }
/-- A trigger, an item that begins or a journal write in HUSH starts the root, which then locks on ember (R41, R53,
R57). -/
def rootWake (s : State) : State :=
  if s.clk.rootRun then s else modClk (fun c => { c with rootRun := true, locked := false, refEmber := true }) s

/-- Start-of-frame marks stop: the trim loop holds, unless XCLK is its source (R49). -/
def sofStops (s : State) : State := modClk (fun c => { c with src := if c.src = .sof then .holding else c.src }) s

def modJnl (f : Journal → Journal) (s : State) : State := { s with jnl := f s.jnl }
def modBud (f : Budget → Budget) (s : State) : State := { s with bud := f s.bud }
def modChg (f : Charger → Charger) (s : State) : State := { s with chg := f s.chg }
def modUsb (f : Usb → Usb) (s : State) : State := { s with usb := f s.usb }
def modThm (f : Thermal → Thermal) (s : State) : State := { s with thm := f s.thm }
def modLane (n : Fin 48) (f : Lane → Lane) (s : State) : State := { s with lanes := upd s.lanes n f }
def setRail (r : Fin 48) (x : Option Rail) (s : State) : State := { s with rails := s.rails.set r.val x r.isLt }
def modRail (r : Fin 48) (f : Rail → Rail) (s : State) : State := setRail r (s.rails[r].map f) s
def setGraph (g : Fin 16) (x : Option Graph) (s : State) : State := { s with graphs := s.graphs.set g.val x g.isLt }
def modGraph (g : Fin 16) (f : Graph → Graph) (s : State) : State := setGraph g (s.graphs[g].map f) s
def setRelay (n : Fin 48) (x : Option Relay) (s : State) : State := { s with relays := s.relays.set n.val x n.isLt }
def modRelay (n : Fin 48) (f : Relay → Relay) (s : State) : State := setRelay n (s.relays[n].map f) s
def setMotor (m : Fin 2) (x : Option Motor) (s : State) : State := { s with motors := s.motors.set m.val x m.isLt }
def modMotor (m : Fin 2) (f : Motor → Motor) (s : State) : State := setMotor m (s.motors[m].map f) s
def setFan (k : Fin 4) (x : Option Fan) (s : State) : State := { s with fans := s.fans.set k.val x k.isLt }
def modFan (k : Fin 4) (f : Fan → Fan) (s : State) : State := setFan k (s.fans[k].map f) s
def modSeq (q : Fin 8) (f : Seq → Seq) (s : State) : State :=
  { s with adc := { s.adc with seqs := s.adc.seqs.set q.val (s.adc.seqs[q].map f) q.isLt } }
def modConv (c : Fin 2) (f : Conv → Conv) (s : State) : State :=
  { s with adc := { s.adc with convs := upd s.adc.convs c f } }
def modPort (p : Fin 4) (f : Port → Port) (s : State) : State :=
  { s with twb := { s.twb with ports := upd s.twb.ports p f } }
def modOwl (o : Fin 2) (f : Owl → Owl) (s : State) : State :=
  { s with owl := { s.owl with owls := upd s.owl.owls o f } }
def modSrc (n : Fin 192) (f : FaultSrc → FaultSrc) (s : State) : State :=
  { s with flt := { s.flt with src := upd s.flt.src n f } }
def modColl (c : Fin 2) (f : Collector → Collector) (s : State) : State :=
  { s with flt := { s.flt with coll := upd s.flt.coll c f } }

end Sys2Proof.Machine
end

