-- ==== Sys2Proof/Machine/Journal.lean ====
section
/-! DEFINITION. The journal's log (07): records as they stand in the banks (R123 to R125), the one writer, which
records are still needed (R138), FREE (R139) and the deduplication window (R133). -/

namespace Sys2Proof.Machine

/-! ### Handles (R97, R125) -/

def classSlots (c : Nat) : Nat :=
  match c with
  | 1 => 48 | 2 => 48 | 3 => 2 | 4 => 4 | 5 => 8 | 6 => 448 | 7 => 64 | 8 => 32 | 9 => 16 | _ => 0

def classBase (c : Nat) : Nat :=
  match c with
  | 1 => 0 | 2 => 48 | 3 => 96 | 4 => 98 | 5 => 102 | 6 => 110 | 7 => 558 | 8 => 622 | 9 => 654 | _ => 0

def hClass (h : Word) : Nat := fld h 31 28
def hGen (h : Word) : Nat := fld h 27 16
def hSlot (h : Word) : Nat := fld h 15 0

def genReset (_ : Nat) : BitVec 12 := 1
/-- The generation of a slot. It advances when its GENPACK is written, so that what the journal shows never lags it (R97). -/
def genOf (s : State) (g : Nat) : BitVec 12 := spGet genReset s.eng.gens g

/-! ### Records (R123, R125): words 0 to 13 with RECSEQ still zero -/

def mkRec (type opcode dflags : Nat) (ring : BitVec 5) (tag : DWord) (handle : Word) (body : List Word) : List Word :=
  [at_ 0 type ||| at_ 8 opcode ||| at_ 16 dflags ||| at_ 24 ring.toNat, 0, loW tag, hiW tag, handle]
    ++ body ++ List.replicate (9 - body.length) 0

/-- A record the hub originates: no descriptor behind it. -/
def hubRec (type : Nat) (body : List Word) : List Word := mkRec type 0 0 0x1F 0 0 body

/-- The 16 words of a record: RECSEQ, CRC and COMMIT filled in. -/
def stamp (w : List Word) (rs : Word) : List Word :=
  let l := (w.take 14).set 1 rs
  let c := crc32 l
  l ++ [c, c ^^^ 0x5A5AA5A5]

def wd (w : List Word) (i : Nat) : Word := w.getD i 0
def recType (w : List Word) : Nat := fld (wd w 0) 7 0
def recSeq (w : List Word) : Word := wd w 1
def recTag (w : List Word) : DWord := dword (wd w 2) (wd w 3)
/-- ASEQ of a record: word 5. -/
def recAseq (w : List Word) : Word := wd w 5

/-- R124: what makes the content of slot `k` a record. -/
def validSlot (k : Nat) (w : List Word) : Bool :=
  w.length = 16 && wd w 14 = crc32 (w.take 14) && wd w 15 = wd w 14 ^^^ 0x5A5AA5A5 && (recSeq w).toNat % 2048 = k

/-- What a bank's slot holds, none where it holds no record. -/
def Bank.at_ (b : Bank) (k : Nat) : Option (List Word) := (b.slots.find? (fun e => e.1 = k)).map (·.2)

def dead (s : State) : Bool := !s.jnl.bankA.inService && !s.jnl.bankB.inService

/-- The bank the hub reads: A while it is in service. -/
def readBank (s : State) : Bank := if s.jnl.bankA.inService then s.jnl.bankA else s.jnl.bankB

/-- Every record of the log, by slot. -/
def recs (s : State) : List (Nat × List Word) := if dead s then [] else (readBank s).slots

/-- Every record, oldest first. -/
def recsInOrder (s : State) : List (List Word) :=
  sortBy (fun a b => decide ((s.jnl.head - recSeq b).toNat ≤ (s.jnl.head - recSeq a).toNat)) ((recs s).map (·.2))

/-! ### Which records are needed (R138) -/

def openItem (s : State) (a : Word) : Bool := s.eng.items.any (fun i => i.aseq = a)
def unacked (s : State) (a : Word) : Bool := s.eng.comps.any (fun c => c.aseq = a)

/-- The item set the journaled target of a relay, and only its START holds it. -/
def holdsTarget (s : State) (a : Word) : Bool :=
  s.relays.toList.any fun r => match r with
    | some r => r.targetAseq = a && r.byStart
    | none => false

/-- The item made an object that still stands, or a live ARMED slot: replay needs its records (R134 step 2 and 4;
notes/assumptions/12.md). -/
def keptItem (s : State) (a : Word) : Bool :=
  s.eng.objs.any (fun o => o.2 = a) ||
    s.eng.armed.toList.any fun x => match x with
      | some x => x.aseq = a
      | none => false

/-- Newer record of the same kind, where `key` says what the kind is. -/
def newest (s : State) (w : List Word) (key : List Word → Word) : Bool :=
  !(recs s).any fun e => recType e.2 = recType w && key e.2 = key w && later32 (recSeq e.2) (recSeq w)

/-- TAGs a record carries for the deduplication window (R133). -/
def recTags (w : List Word) : List DWord :=
  match recType w with
  | 1 | 4 | 5 => [recTag w]
  | 8 => (List.range (min 4 (wd w 5).toNat)).map fun i => dword (wd w (6 + 2 * i)) (wd w (7 + 2 * i))
  | _ => []

/-- A final record of the same item that is newer: a fresh DONE replaces a DONE or a DOOR (R132, R138). -/
def newestFinal (s : State) (w : List Word) : Bool :=
  !(recs s).any fun e => (recType e.2 = 4 || recType e.2 = 5) && recAseq e.2 = recAseq w && later32 (recSeq e.2) (recSeq w)

/-- A TAG that the window must keep (R133). -/
def keepsTag (s : State) (t : DWord) : Bool := s.jnl.recent.contains t || s.jnl.older.contains t

/-- A TAG of the window that no newer record holds. -/
def lastHolder (s : State) (w : List Word) (t : DWord) : Bool :=
  keepsTag s t && !(recs s).any fun e => (recTags e.2).contains t && later32 (recSeq e.2) (recSeq w)

/-- A copy of the item's ACCEPT stands in the log behind its final record `w`, and would outlast it: the work state is read from
the journal alone, so `w` stays as long (R128, R131; DEDUCED, notes/assumptions/81.md). -/
def outlived (s : State) (w : List Word) : Bool :=
  (recs s).any fun e => recType e.2 = 1 && recAseq e.2 = recAseq w && later32 (recSeq e.2) (recSeq w)

/-- The record is still needed (R138). The DONE of a RELAY_SET whose START holds the journaled target is kept with it, since
without it the item would count as open (the exception names ACCEPT and START alone: DEDUCED, notes/assumptions/81.md). -/
def needed (s : State) (w : List Word) : Bool :=
  let a := recAseq w
  -- until replay has returned the relays, every START of a RELAY_SET may hold a target (R134 step 3)
  let early := s.pwr.firstRun && (recType w = 1 || recType w = 3) && fld (wd w 0) 15 8 = 0x20
  let kept := openItem s a || unacked s a || keptItem s a || holdsTarget s a || early
  match recType w with
  | 1 | 2 | 3 => kept && newest s w recAseq
  | 4 => (kept || outlived s w) && newestFinal s w
  | 5 => unacked s a && newestFinal s w
  | 6 => newest s w (fun x => at_ 0 (fld (wd x 5) 4 0))
  -- until the advance of the slot's generation stands in a GENPACK
  | 7 => (genOf s (classBase 7 + (wd w 5).toNat % 64)).toNat = hGen (wd w 4) && newest s w recAseq
  | 8 => (recTags w).any (lastHolder s w)
  | 9 => newest s w recAseq
  | 0xA => newest s w (fun _ => 0)
  | 0xB => !(recs s).any fun e => recType e.2 = 0xB && recAseq e.2 = recAseq w &&
      (later32 (wd e.2 7) (wd w 7) || (wd e.2 7 = wd w 7 && later32 (recSeq e.2) (recSeq w)))
  | 0x10 => newest s w (fun x => at_ 0 (fld (wd x 5) 2 0))
  | 0x11 => newest s w (fun _ => 0)
  | 0x14 => newest s w (fun _ => 0)
  | _ => false

/-- JNL_SPACE: live records and FREE (R139). -/
def liveRecs (s : State) : Nat := ((recs s).filter (fun e => needed s e.2)).length
def free (s : State) : Nat := 2048 - liveRecs s

/-- RESERVE_LOW: below 16 only DONE, TAMPER, BANK and ACK records and copies are written (R139). -/
def reserveLow (s : State) : Bool := free s < 16

/-! ### Writing (R131, R138) -/

def putBank (k : Nat) (w : List Word) (b : Bank) : Bank :=
  if b.inService then { b with slots := spInsert b.slots k w } else b

/-- Writes a record at the next RECSEQ in every bank in service. -/
def putRec (w : List Word) (s : State) : State :=
  let rs := s.jnl.head + 1
  let k := rs.toNat % 2048
  let full := stamp w rs
  modJnl (fun j => { j with head := rs, bankA := putBank k full j.bankA, bankB := putBank k full j.bankB }) s

/-- The ACK record of a CQ, or of the service ring at 16. -/
def ackRec (cq : Nat) (idx : Word) : List Word := hubRec 6 [at_ 0 cq, idx]

/-- TAGs of `w` that the window must keep and that no other slot holds. -/
def orphanTags (s : State) (k : Nat) (w : List Word) : List DWord :=
  (recTags w).filter fun t =>
    keepsTag s t && !(recs s).any (fun e => e.1 ≠ k && (recTags e.2).contains t)

/-- Up to four TAGs for one TAGSET, from slot `k` and the slots after it. -/
def gatherTags (fuel k : Nat) (acc : List DWord) (s : State) : List DWord :=
  match fuel with
  | 0 => acc.take 4
  | n + 1 =>
    if 4 ≤ acc.length then acc.take 4
    else
      let more := match (readBank s).at_ k with
        | some w => if recType w = 8 || needed s w then [] else orphanTags s k w
        | none => []
      gatherTags n ((k + 1) % 2048) (acc ++ more) s

/-- The consumer index of a CQ as last read. -/
def cqCons (s : State) (q : Nat) : Word := if h : q < 16 then s.link.cqs[q].cons else 0

/-- The acknowledgement of CQ `q` stands only in the hub: no ACK record covers it yet (R139). -/
def relies (s : State) (q : Nat) : Bool := q < 16 && cqCons s q ≠ nth s.jnl.acks q 0

/-- What must be written before slot `k` may be overwritten: a copy of a needed record, an ACK that it relies on, or
its TAG in a TAGSET. -/
def forced (s : State) (k : Nat) : Option (List Word) :=
  match (readBank s).at_ k with
  | none => none
  | some w =>
    if needed s w then some (w.take 14)
    else if (recType w = 4 || recType w = 5) && !s.jnl.acked.contains (recAseq w) && relies s (fld (wd w 12) 4 0) then
      some (ackRec (fld (wd w 12) 4 0) (cqCons s (fld (wd w 12) 4 0)))
    else if orphanTags s k w ≠ [] then
      let tags := gatherTags 64 ((k + 1) % 2048) (orphanTags s k w) s
      some (hubRec 8 (at_ 0 tags.length :: tags.flatMap (fun t => [loW t, hiW t])))
    else none

/-- Takes over what a committed ACK covers: the finals of that CQ posted before the index. -/
def noteAck (cq : Nat) (idx : Word) (s : State) : State :=
  if h : cq < 17 then
    modJnl (fun j => { j with
      acks := j.acks.set cq idx h, ackTime := j.ackTime.set cq (now s) h,
      acked := j.acked ++ ((recs s).filter (fun e => (recType e.2 = 4 || recType e.2 = 5) && fld (wd e.2 12) 4 0 = cq &&
        wd e.2 11 ≠ 0xFFFFFFFF && !unacked s (recAseq e.2) && !openItem s (recAseq e.2) &&
        !j.acked.contains (recAseq e.2))).map (fun e => recAseq e.2) }) s
  else s

/-- Writes a forced record; an ACK also counts as journaled. -/
def putForced (w : List Word) (s : State) : State :=
  if recType w = 6 then noteAck (fld (wd w 5) 4 0) (wd w 6) (putRec w s) else putRec w s

def eraseRec (k : Nat) (b : Bank) : Bank := { b with slots := spErase b.slots k }

/-- What stands in the way of the next `ahead` records (1 or 2): for the second, the slot of the first is overwritten. -/
def inTheWay (s : State) (ahead : Nat) : Option (List Word) :=
  let k := (s.jnl.head + 1).toNat % 2048
  match forced s k with
  | some w => some w
  | none =>
    if ahead = 2 then
      forced { s with jnl := { s.jnl with bankA := eraseRec k s.jnl.bankA, bankB := eraseRec k s.jnl.bankB } } ((k + 1) % 2048)
    else none

/-- Makes the next `ahead` slots (1 or 2) free to write, copying forward what is needed there. -/
def clearWay (fuel ahead : Nat) (s : State) : State :=
  match fuel with
  | 0 => s
  | n + 1 => match inTheWay s ahead with
    | some w => clearWay n ahead (putForced w s)
    | none => s

/-- A final record that is overwritten leaves the list of acknowledged ones, if it was the last of its item. -/
def forget (s : State) : State :=
  let k := (s.jnl.head + 1).toNat % 2048
  match (readBank s).at_ k with
  | some w =>
    if (recType w = 4 || recType w = 5) && !(recs s).any (fun e => e.1 ≠ k && (recType e.2 = 4 || recType e.2 = 5) && recAseq e.2 = recAseq w)
    then modJnl (fun j => { j with acked := j.acked.filter (fun a => a ≠ recAseq w) }) s else s
  | none => s

/-- Commits a record; DEAD writes none (R137). In HUSH the write starts the root, whose domains are parked while it stands
(R41, R57). -/
def commit (w : List Word) (s : State) : State :=
  if dead s then rootWake s else putRec w (forget (clearWay 2048 1 (rootWake s)))

/-! ### Records that wait for room (R139) -/

/-- Below 16 free slots a record other than DONE, TAMPER, BANK and ACK waits, and behind it whatever comes later. -/
def mustWait (s : State) : Bool := !dead s && (reserveLow s || !s.jnl.owed.isEmpty)

def owe (o : Owed) (s : State) : State := modJnl (fun j => { j with owed := j.owed ++ [o] }) s

/-- Commits a record of any other type, at once or when FREE has risen. -/
def commitNew (w : List Word) (s : State) : State := if mustWait s then owe (.record w) s else commit w s

/-- The ASEQ of the record that is written next, once the way is clear for it: its RECSEQ (R125). With no bank in service no
record numbers it: the first number above the head that no open item has. -/
def nextAseq (s : State) : Word :=
  ((List.range (s.eng.items.length + 1)).map (fun i => s.jnl.head + 1 + BitVec.ofNat 32 i)).find? (fun a => !openItem s a)
    |>.getD (s.jnl.head + 1)

/-- The way is cleared for `n` records, so that the first takes the RECSEQ after the head. -/
def makeWay (n : Nat) (s : State) : State := if dead s then rootWake s else clearWay 2048 n (rootWake s)

/-- Commits an ACK record and takes it over. -/
def commitAck (cq : Nat) (idx : Word) (s : State) : State := noteAck cq idx (commit (ackRec cq idx) s)

/-! ### The deduplication window (R133, R121) -/

def verdictCode : Verdict → Nat
  | .done => 0x00 | .deferred => 0x02 | .cancelled => 0x03 | .refusedBudget => 0x10 | .refusedState => 0x11
  | .refusedHandle => 0x12 | .refusedAuth => 0x13 | .refusedFormat => 0x14 | .refusedLeash => 0x15
  | .refusedDuplicate => 0x16 | .failed => 0x20 | .failedIndeterminate => 0x21

def verdictOf (n : Nat) : Verdict :=
  if n = 0x00 then .done else if n = 0x02 then .deferred else if n = 0x03 then .cancelled
  else if n = 0x10 then .refusedBudget else if n = 0x11 then .refusedState else if n = 0x12 then .refusedHandle
  else if n = 0x13 then .refusedAuth else if n = 0x14 then .refusedFormat else if n = 0x15 then .refusedLeash
  else if n = 0x16 then .refusedDuplicate else if n = 0x20 then .failed else .failedIndeterminate

def jobTag : Job → DWord
  | .accept it => it.tag
  | .door it _ _ _ => it.tag

/-- A TAG lies in the window, descriptors on their way to the banks included. -/
def inWindow (s : State) (t : DWord) : Bool :=
  (recs s).any (fun e => (recTags e.2).contains t) || s.jnl.queue.any (fun j => jobTag j = t)

/-- The final record of the descriptor that a TAG belongs to: not that of a resubmission, refused as a duplicate. -/
def finalOfTag (t : DWord) (w : List Word) : Bool :=
  (recType w = 4 || recType w = 5) && recTag w = t && fld (wd w 6) 7 0 ≠ 0x16

def jobDuplicate : Job → Bool
  | .accept _ => false
  | .door _ v _ _ => v = .refusedDuplicate

/-- DETAIL and RESULT of REFUSED_DUPLICATE (R121). -/
def duplicateOf (s : State) (t : DWord) : Byte × DWord :=
  match (recsInOrder s).reverse.find? (finalOfTag t) with
  | some w => (BitVec.ofNat 8 (fld (wd w 6) 7 0), dword (wd w 7) (wd w 8))
  | none =>
    match s.jnl.queue.find? (fun j => jobTag j = t && !jobDuplicate j) with
    | some (.door _ v _ r) => (BitVec.ofNat 8 (verdictCode v), r)
    | some (.accept _) => (0xFF, 0)
    | none => if s.eng.items.any (fun i => i.tag = t) then (0xFF, 0) else (0xFE, 0)

end Sys2Proof.Machine
end

