-- ==== Sys2Proof/Machine/Items.lean ====
section
/-! DEFINITION. Work (06, 07): handles and their check (R97, R105), the queues and their order (R103, R104, R106),
final verdicts and their completions (R109 to R112, R132). -/

namespace Sys2Proof.Machine

/-! ### Handles (R97, R125) -/

/-- The handle of a slot at its present generation. -/
def handleOf (s : State) (c slot : Nat) : Word := at_ 28 c ||| at_ 16 (genOf s (classBase c + slot)).toNat ||| at_ 0 slot

/-- The slot is not free: an object holds it, or one that has ended until its GENPACK is written. -/
def objThere (s : State) (g : Nat) : Bool := s.eng.objs.any (fun o => o.1 = g)

/-- The slot's object has ended, and its GENPACK waits for room. -/
def ending (s : State) (g : Nat) : Bool := s.jnl.owed.any fun o => match o with
  | .ends c slot => decide (classBase c + slot = g)
  | _ => false

/-- From 0xFFF to 0x001 (R97). -/
def nextGen (g : BitVec 12) : BitVec 12 := if g = 0xFFF then 1 else g + 1

/-- The GENPACK record of a group: 21 generations of 12 bits (R125). -/
def genPack (s : State) (grp : Nat) : List Word :=
  let v := (List.range 21).foldl (fun a i => a + (if 21 * grp + i < 670 then (genOf s (21 * grp + i)).toNat else 0) * 2 ^ (12 * i)) 0
  hubRec 9 (at_ 0 grp :: (List.range 8).map (fun i => BitVec.ofNat 32 (v / 2 ^ (32 * i))))

/-- A slot is free: its generation advances and is journaled (R97); an ARMED slot watches no more. -/
def slotEnds (c slot : Nat) (s : State) : State :=
  let g := classBase c + slot
  let makers := (s.eng.objs.filter (fun o => o.1 = g)).map (·.2)
  let s0 := modJnl (fun j => { j with tables := j.tables.filter (fun e => !makers.contains e.1) }) s
  let s1 := modEng (fun e => { e with gens := spSet genReset e.gens g (nextGen (genOf s g)),
                                      objs := e.objs.filter (fun o => o.1 ≠ g),
                                      armed := if c = 7 then e.armed.setIfInBounds slot none else e.armed }) s0
  commit (genPack s1 (g / 21)) s1

/-- A slot's object ends. Below 16 free slots the GENPACK waits, and with it the advance and the slot (R139). -/
def endObject (c slot : Nat) (s : State) : State := if mustWait s then owe (.ends c slot) s else slotEnds c slot s

/-- An object comes into a slot; `a` is the ASEQ of the item that made it, 0 for the boot image's. -/
def noteObject (c slot : Nat) (a : Word) (s : State) : State :=
  modEng (fun e => { e with objs := e.objs ++ [(classBase c + slot, a)] }) s

/-- The class that word 3 must name (R120): none for handle 0; TWB_XFER and HANDLE_DESTROY apart. -/
def opClass (op : Nat) : Option Nat :=
  if 0x10 ≤ op ∧ op ≤ 0x14 then some 1 else if op = 0x15 then some 9 else if op = 0x20 then some 2
  else if 0x21 ≤ op ∧ op ≤ 0x23 then some 3 else if op = 0x28 then some 4 else if 0x30 ≤ op ∧ op ≤ 0x32 then some 5
  else if op = 0x50 then some 8 else if op = 0x61 then some 7 else none

/-- R105 from the class on: CLASS, STALE, FREE, for a handle that must name class `ok`. -/
def handleFault (s : State) (h : Word) (ok : Nat → Bool) : Option Nat :=
  let c := hClass h
  if c < 1 || 9 < c || classSlots c ≤ hSlot h then some 1
  else if !ok c then some 4
  else if (genOf s (classBase c + hSlot h)).toNat ≠ hGen h then some 3
  else if !objThere s (classBase c + hSlot h) || ending s (classBase c + hSlot h) then some 2
  else none

/-- The handle check of R105 when the item begins work: the detail, or none. -/
def handleErr (s : State) (op : Nat) (h : Word) : Option Nat :=
  match opClass op with
  | some c => handleFault s h (fun k => k = c)
  | none =>
    if op = 0x09 then handleFault s h (fun k => k ≠ 7)
    else if op = 0x38 then (if h = 0 then none else handleFault s h (fun k => k = 6))
    else if h = 0 then none else some 1

/-! ### Queues (R103, R104) -/

/-- What queue an item belongs to (R120). -/
inductive QKey where
  | handle (h : Word)
  /-- HOUSE 0, CHARGER 1, BUDGET 2, LEASH 3, CAL 4, ARMING 5, FAULT 6, SYSTEM 7, BUSn 8 + n. -/
  | group (g : Nat)
  | fence (ring : Nat)
  deriving DecidableEq, Repr

def opv (it : Item) (w : Nat) : Word := nth it.ops (w - 4) 0

def keyOf (it : Item) : QKey :=
  let op := it.opcode.toNat
  if op = 0x01 then .fence it.ring.toNat
  else if op = 0x00 ∨ op = 0x02 ∨ op = 0x08 then .group 0
  else if 0x40 ≤ op ∧ op ≤ 0x43 then .group 1
  else if op = 0x48 then .group 2
  else if op = 0x49 then .group 3
  else if 0x58 ≤ op ∧ op ≤ 0x5A then .group 4
  else if op = 0x60 then .group 5
  else if op = 0x68 ∨ op = 0x69 then .group 6
  else if 0x70 ≤ op then .group 7
  else if op = 0x39 ∨ (op = 0x38 ∧ it.handle = 0) then .group (8 + fld (opv it 4) 1 0)
  else .handle it.handle

def findItem (s : State) (a : Word) : Option Item := s.eng.items.find? (fun i => i.aseq = a)

def modItem (a : Word) (f : Item → Item) (s : State) : State :=
  modEng (fun e => { e with items := e.items.map (fun i => if i.aseq = a then f i else i) }) s

def inLine (s : State) (a : Word) : Bool := s.eng.line.contains a

/-- The item has begun work. -/
def begun (it : Item) : Bool := it.phase = .waiting || it.phase = .working

def itemAt (s : State) (a : Word) (f : Item → Bool) : Bool :=
  match findItem s a with
  | some i => f i
  | none => false

/-- Items accepted before `it`. -/
def earlier (s : State) (it : Item) : List Item := s.eng.items.takeWhile (fun i => i.aseq ≠ it.aseq)

/-- An ARMED BODY item that waits for its trigger or its DELAY stands in no queue. -/
def dormant (it : Item) : Bool := it.phase = .body || it.phase = .delay

/-- R103, R104, R107: the item may start. -/
def canStart (s : State) (it : Item) : Bool :=
  !inLine s it.aseq && it.phase = .queued && s.pwr.stage ≠ .shaking && !s.pwr.firstRun &&
  (if it.opcode = 0x01 then (earlier s it).all (fun j => j.ring ≠ it.ring || dormant j)
   else (earlier s it).all (fun j => j.ring ≠ it.ring || dormant j || inLine s j.aseq) &&
     ((s.eng.line.filter (fun a => itemAt s a (fun j => decide (keyOf j = keyOf it)))).length < 16))

/-- An item from an SQ goes ahead of any later-accepted item of its queue that has not begun work. -/
def insertLine (s : State) (it : Item) (line : List Word) : List Word :=
  match line with
  | [] => [it.aseq]
  | a :: rest =>
    if itemAt s a (fun j => decide (keyOf j = keyOf it) && !begun j && later32 j.aseq it.aseq) then it.aseq :: a :: rest
    else a :: insertLine s it rest

def startOne (s : State) (it : Item) : State :=
  if canStart s it then modEng (fun e => { e with line := insertLine s it e.line }) s else s

/-- Moves every item that may start into its queue, in acceptance order. -/
def startAll (s : State) : State := s.eng.items.foldl startOne s

/-- R106: what a later opcode supersedes on its handle. -/
def supersedesOp (late early : Nat) : Bool :=
  (late = 0x23 && (early = 0x21 || early = 0x22)) ||
  (late = 0x12 && (early = 0x11 || early = 0x10 || early = 0x13)) ||
  (late = 0x10 && early = 0x10) || (late = 0x28 && early = 0x28) || (late = 0x15 && early = 0x15)

/-- Items of the same queue that stand before `it` and lack a final verdict. -/
def ahead (s : State) (it : Item) : List Item :=
  let before := s.eng.line.takeWhile (fun a => a ≠ it.aseq)
  s.eng.items.filter fun j => decide (keyOf j = keyOf it) && j.aseq ≠ it.aseq && !dormant j &&
    (if inLine s j.aseq then before.contains j.aseq else later32 it.aseq j.aseq)

/-- R103, R106: the item may begin work now. FREE below 16, or a record that waits, holds back whatever needs a new record
(R139). -/
def canBegin (s : State) (it : Item) : Bool :=
  s.den.up && inLine s it.aseq && it.phase = .queued &&
  (ahead s it).all (fun j => supersedesOp it.opcode.toNat j.opcode.toNat) && !mustWait s

/-! ### Completions -/

/-- The CQ that an SQ names; the service ring is 16, the hub's own items 31. -/
def cqOf (s : State) (ring : BitVec 5) : Nat := if ring.toNat < 16 then fld (sqCfg s ring.toNat) 11 8 else ring.toNat

def cqRoom (s : State) (q : Nat) : Bool :=
  if h : q < 16 then ringRoom s (ringOn (cqCfg s q)) (ringSize (cqCfg s q)) s.link.cqs[q] else false

def cqProd (s : State) (q : Nat) : Word := if h : q < 16 then s.link.cqs[q].prod else 0

/-- Completions that wait for a position on CQ `q` (R109, R87). -/
def heldOn (s : State) (q : Nat) : List Comp := s.eng.comps.filter (fun c => c.cq = q && c.pos.isNone)

/-- The eight words of a completion at position `p` of its CQ (R94). -/
def compWords (c : Comp) (p : Word) : List Word :=
  [loW c.tag, hiW c.tag,
   at_ 0 (verdictCode c.verdict) ||| at_ 8 c.detail.toNat ||| flag 16 c.replayed ||| flag 17 (c.verdict = .deferred) |||
     flag 18 c.armed ||| at_ 24 (c.ring.toNat % 16),
   c.handle, timeLo c.time, timeHi c.time ||| at_ 16 (p.toNat % 65536), loW c.result, hiW c.result]

/-- No interrupt follows the completion: QUIET, and DONE (R112). -/
def quiet (c : Comp) : Bool := c.flags.getLsbD 1 && c.verdict = .done

/-- Writes a completion at the producer index, then the index, then the CQ's vector (R69, R94, R112). -/
def writeCompletion (q : Nat) (c : Comp) (s : State) : State :=
  if h : q < 16 then
    let p := s.link.cqs[q].prod
    let s1 := memWords (entryAddr s (0x0540 + 0x10 * q) p (ringSize (cqCfg s q)) 32) (compWords c p)
      (modLink (fun l => { l with cqs := upd l.cqs ⟨q, h⟩ (fun r => { r with prod := p + 1 }) }) s)
    let s2 := shadowWrite (0x100 + 8 * q) ((p + 1).setWidth 64) s1
    if quiet c then s2 else sendVector q s2
  else s

/-- The DONE or DOOR record of a completion (R125). For an item of the hub's own, which posts no completion and for whose CQ
R125 gives no value, word 12 holds its RING, 0x1F (DESIGN CHOICE, notes/assumptions/82.md). -/
def doneRec (type : Nat) (c : Comp) (cpos : Word) : List Word :=
  mkRec type c.opcode.toNat c.flags.toNat c.ring c.tag c.handle
    [c.aseq, at_ 0 (verdictCode c.verdict) ||| at_ 8 c.detail.toNat ||| flag 18 c.armed, loW c.result, hiW c.result,
     timeLo c.time, timeHi c.time, cpos, at_ 0 c.cq]

def addComp (c : Comp) (s : State) : State := modEng (fun e => { e with comps := e.comps ++ [c] }) s

/-- FLT_CLRCNT counts every final verdict of a FAULT_CLEAR (21, Registers). -/
def countClear (c : Comp) (s : State) : State :=
  if c.opcode = 0x68 then (if c.verdict = .done then countReg 0x0FB8 15 0 1 s else countReg 0x0FB8 31 16 1 s) else s

/-- A service item whose own grant stands still (R334, R336). -/
def grantCarries (s : State) (a : Word) : Bool := match s.usb.grant with
  | some g => g.cls = .ring && later32 a g.from_
  | none => false

/-- A completion's packet on EP2 IN. It has no position of a CQ: what R94's field for it holds is open (notes/assumptions/83.md). -/
def sendService (c : Comp) (s : State) : State := let d := drawWord s; emit (.service (compWords c d.1)) d.2

/-- A completion of the service ring is posted on EP2 IN, and waits for its acknowledgement (R336). -/
def postService (c : Comp) (s : State) : State :=
  modUsb (fun u => { u with sending := u.sending ++ [c] }) (addComp c (sendService c s))

/-- A completion waits for its CQ; its vector's source has become pending (R83). -/
def holdComp (c : Comp) (s : State) : State := if quiet c then addComp c s else pendVector c.cq (addComp c s)

/-- Commits a final verdict and posts its completion, or holds it (R109, R132). -/
def postFinal (type : Nat) (c : Comp) (s0 : State) : State :=
  let s := countClear c s0
  if c.cq < 16 then
    if cqRoom s c.cq && (heldOn s c.cq).isEmpty then
      let p := cqProd s c.cq
      writeCompletion c.cq c (addComp { c with pos := some p, shown := some (c.cq, p) } (commit (doneRec type c p) s))
    else holdComp c (commit (doneRec type c 0xFFFFFFFF) s)
  else
    let s1 := commit (doneRec type c 0xFFFFFFFF) s
    -- R336: the service ring's completion is sent on EP2 IN within its grant; the hub's own items post none (R352)
    if c.cq = 16 && grantCarries s c.aseq then postService c s1
    else modJnl (fun j => { j with acked := j.acked ++ [c.aseq] }) s1

/-- The CQ of an item's completions: the one that replay fixed (R134 step 6), else the one its SQ names. -/
def itemCq (s : State) (it : Item) : Nat :=
  match it.toCq with
  | some q => q.val
  | none => cqOf s it.ring

/-- The completion of an item with a final verdict. -/
def compOf (s : State) (it : Item) (v : Verdict) (detail : Nat) (result : DWord) (h : Word) : Comp :=
  { aseq := it.aseq, ring := it.ring, opcode := it.opcode, tag := it.tag, handle := h, verdict := v,
    detail := BitVec.ofNat 8 detail, armed := it.armed, flags := it.flags, time := now s, result := result,
    replayed := false, shown := none, cq := itemCq s it, pos := none }

/-- Slot of the ARMED handle whose ARM has ASEQ `a`. -/
def armedSlotOf (s : State) (a : Word) : Option (Fin 64) :=
  (fins 64).find? fun k => match s.eng.armed[k] with
    | some x => x.aseq = a
    | none => false

/-- R141 rule 5: an ARMED slot ends once every BODY item has a final verdict. -/
def endSlot (arm : Option Word) (s : State) : State :=
  match arm with
  | none => s
  | some a =>
    if s.eng.items.any (fun i => i.armOf = some a) then s
    else match armedSlotOf s a with
      | some k => if ending s (classBase 7 + k.val) then s else endObject 7 k.val s
      | none => s

/-- The item leaves the queues. -/
def dropItem (a : Word) (s : State) : State :=
  modEng (fun e => { e with items := e.items.filter (fun i => i.aseq ≠ a), line := e.line.filter (fun b => b ≠ a) }) s

/-- The final verdict of an item (R132), with the handle its completion shows. -/
def completeH (a : Word) (v : Verdict) (detail : Nat) (result : DWord) (h : Option Word) (s : State) : State :=
  match findItem s a with
  | none => s
  | some it =>
    startAll (endSlot it.armOf (postFinal 4 (compOf s it v detail result (h.getD it.handle)) (dropItem a s)))

def complete (a : Word) (v : Verdict) (detail : Nat) (result : DWord) (s : State) : State :=
  completeH a v detail result none s

/-- A verdict behind a record of the item's own: where that record waits for room, so does the verdict (R139). -/
def completeBehind (a : Word) (v : Verdict) (detail : Nat) (result : DWord) (s : State) : State :=
  if !dead s && !s.jnl.owed.isEmpty && (findItem s a).isSome then owe (.verdict a v detail result) s else complete a v detail result s

/-- The verdict of the item waits for room in the journal. -/
def verdictWaits (s : State) (a : Word) : Bool := s.jnl.owed.any fun o => match o with
  | .verdict b _ _ _ => decide (b = a)
  | _ => false

/-- The final verdict of the item an object works for, if it works for one. -/
def completeOpt (a : Option Word) (v : Verdict) (detail : Nat) (result : DWord) (s : State) : State :=
  match a with
  | some a => complete a v detail result s
  | none => s

/-- The interim completion of a deferred item, once (R110); it leaves no record and stays until it is acknowledged (R111,
R132). -/
def interim (a : Word) (detail : Nat) (delay : DWord) (s : State) : State :=
  match findItem s a with
  | none => s
  | some it =>
    let c := compOf s it .deferred detail delay it.handle
    let s1 := modItem a (fun i => { i with interim := true }) s
    if it.interim then s
    else if 16 ≤ it.ring.toNat then (if c.cq = 16 && grantCarries s a then postService c s1 else s)
    else
      if cqRoom s c.cq && (heldOn s c.cq).isEmpty then
        writeCompletion c.cq c (addComp { c with pos := some (cqProd s c.cq) } s1)
      else holdComp c s1

/-- A held completion of CQ `q` is posted: a fresh DONE where the newest does not show its position, then
the completion (R109, R132). -/
def postHeld (q : Nat) (s : State) : State :=
  match heldOn s q with
  | [] => s
  | c :: _ =>
    if cqRoom s q then
      let p := cqProd s q
      let s1 := modEng (fun e => { e with
            comps := e.comps.map (fun x => if x = c then { c with pos := some p, shown := some (q, p) } else x) })
          (if c.verdict = .deferred || c.shown = some (q, p) then s else commit (doneRec 4 c p) s)
      writeCompletion q c s1
    else s

/-- Posts every held completion that finds room. -/
def postAllHeld (fuel q : Nat) (s : State) : State :=
  match fuel with
  | 0 => s
  | n + 1 => if cqRoom s q && !(heldOn s q).isEmpty then postAllHeld n q (postHeld q s) else s

/-! ### Beginning work -/

/-- The START record, before the item first acts on anything outside the hub (R132). -/
def commitStart (it : Item) (s : State) : State :=
  if it.startRec then s
  else modItem it.aseq (fun i => { i with startRec := true })
    (commit (mkRec 3 it.opcode.toNat it.flags.toNat it.ring it.tag it.handle [it.aseq]) s)

/-! ### BUDGET_STATE and requests that are withdrawn (R193, R200) -/

def setBud (d : Demand) (b : BudState) (s : State) : State :=
  match d with
  | .rail r => match fin? 48 r with
    | some r => modRail r (fun x => { x with bud := b }) s
    | none => s
  | .relay n => match fin? 48 n with
    | some n => modRelay n (fun x => { x with bud := b }) s
    | none => s
  | .motor m => match fin? 2 m with
    | some m => modMotor m (fun x => { x with bud := b }) s
    | none => s
  | .fan f => match fin? 4 f with
    | some f => modFan f (fun x => { x with bud := b }) s
    | none => s
  | .charger => modBud (fun x => { x with chgState := b }) s
  | .lend => modBud (fun x => { x with lendState := b }) s
  | .lift => modBud (fun x => { x with liftState := b }) s

def grantOf (s : State) (d : Demand) : Option Grant := s.bud.grants.find? (fun g => decide (g.demand = d))
def grantMw (s : State) (d : Demand) : Nat := match grantOf s d with
  | some g => g.mw
  | none => 0

/-- A request of the demand has left the ledger unserved: what it shows now. -/
def budAfter (d : Demand) (s : State) : State :=
  if s.bud.waiting.any (fun q => decide (q.demand = d)) then s else setBud d (if (grantOf s d).isSome then .served else .none) s

/-- The waiting requests that `p` names leave the ledger unserved. -/
def withdrawThose (p : Req → Bool) (s : State) : State :=
  (s.bud.waiting.filter p).foldl (fun t q => budAfter q.demand t)
    (modBud (fun b => { b with waiting := b.waiting.filter (fun q => !p q) }) s)

/-- Requests of an item that is no longer wanted leave the ledger (R193). -/
def withdraw (a : Word) (s : State) : State := withdrawThose (fun r => decide (r.who = .item a)) s

/-- R106: what `it` supersedes completes FAILED SUPERSEDED, in acceptance order. -/
def supersede (it : Item) (s : State) : State :=
  (ahead s it).foldl (fun t j => complete j.aseq .failed 0x01 0 (withdraw j.aseq t)) s

/-- The item begins work, and CORE runs for it (R41, R57): superseding, then the handle check of R105, then `k`. -/
def beginWork (op : Nat) (a : Word) (k : Item → State → State) (s : State) : State :=
  match findItem s a with
  | none => s
  | some it =>
    if it.opcode.toNat = op && canBegin s it then
      let s0 := supersede it (rootWake s)
      -- what it has superseded may have left no room for its START (R139)
      if mustWait s0 then s0
      else
        let s1 := modItem a (fun i => { i with phase := .working, began := now s }) s0
        match handleErr s1 op it.handle with
        | some d => complete a .refusedHandle d 0 s1
        | none => k it s1
    else s

/-- Refusals that many opcodes share. -/
def refuseOperand (a : Word) : State → State := complete a .refusedFormat 0x07 0

end Sys2Proof.Machine
end

