-- ==== Sys2Proof/Machine/Readback.lean ====
section
/-! DEFINITION. What every register of BAR0 reads (R369, R372): the stored ones from the register file, the composed
ones from the state, live measurements as free readings. A read changes nothing here; the latching pairs of R372 are
in Access. -/

namespace Sys2Proof.Machine

/-! ### State codes as the registers show them -/

def LaneState.code : LaneState → Nat
  | .off => 0 | .measure => 1 | .start => 2 | .reg => 3 | .join => 4 | .shed => 5 | .waitDown => 6 | .supplyWait => 7
  | .stopped => 8 | .absent => 15

def RailState.code : RailState → Nat
  | .off => 0 | .starting => 1 | .waitDown => 2 | .sinking => 3 | .on => 4 | .stopping => 5 | .faulted => 6 | .pending => 7

def GraphState.code : GraphState → Nat
  | .idle => 0 | .runUp => 1 | .up => 2 | .runDown => 3 | .down => 4 | .failed => 5

def BudState.code : BudState → Nat
  | .none => 0 | .served => 1 | .deferPower => 2 | .deferSlot => 3 | .deferOrder => 4 | .deferSub => 5 | .throttled => 6
  | .shed => 7 | .refused => 8

def ChgState.code : ChgState → Nat
  | .off => 0 | .startup => 1 | .precharge => 2 | .cc => 3 | .cv => 4 | .done => 5 | .paused => 6 | .fault => 7
  | .lend => 8 | .disabled => 9

def RelayState.code : RelayState → Nat
  | .idle => 0 | .waiting => 1 | .pulsing => 2 | .retryGap => 3 | .faulted => 4

def RelayPos.code : RelayPos → Nat
  | .unknown => 0 | .open_ => 1 | .closed => 2

def MotorState.code : MotorState → Nat
  | .idle => 0 | .pending => 1 | .homing => 2 | .moving => 3 | .braking => 4 | .faulted => 5

def FanState.code : FanState → Nat
  | .off => 0 | .spinup => 1 | .run => 2 | .blind => 3 | .shed => 4 | .faulted => 5

def OwlState.code : OwlState → Nat
  | .off => 0 | .watch => 1 | .paused => 2 | .expired => 3 | .resetting => 4 | .cycling => 5 | .gaveUp => 6

def PState.code : PState → Nat
  | .full => 0 | .outage => 1 | .hush => 2 | .burrow => 3

def BootHold.code : BootHold → Nat
  | .none => 0 | .noBattery => 1 | .precharge => 2 | .imageBad => 3 | .blank => 4 | .battHigh => 5

def PartnerOrigin.code : PartnerOrigin → Nat
  | .created => 0 | .census => 1 | .alert => 2

def RuleState.code : RuleState → Nat
  | .inactive => 0 | .pending => 1 | .active => 2

def LState.code : LState → Nat
  | .down => 0 | .l0 => 1 | .l1 => 2 | .l11 => 3 | .l12 => 4

def BiResult.code : BiResult → Nat
  | .none => 0 | .done => 1 | .layout => 2 | .crc => 3 | .mac => 4 | .old => 5 | .short => 6 | .write => 7

/-- A live measurement: a free value of the offset and the moment (notes/assumptions/9.md). -/
def live (s : State) (o : Nat) : Word := Config.liveReading o (now s)

/-- Causes present and latched of a source. -/
def causesOf (s : State) (n : Nat) : FaultSrc := nth s.flt.src n FaultSrc.reset
def anyPresent (s : State) (n : Nat) : Bool := (causesOf s n).present ≠ 0
def faulted (s : State) (n : Nat) : Bool := (causesOf s n).faulted

/-! ### Rails and lanes -/

/-- Members of a rail in ascending order. -/
def membersOf (m : BitVec 48) : List (Fin 48) := (fins 48).filter (fun n => m.getLsbD n.val)

def Rail.members (r : Rail) : List (Fin 48) := membersOf r.lanes
/-- The lead lane: the lowest-numbered member (R163). -/
def Rail.lead (r : Rail) : Fin 48 := r.members.headD 0

def Rail.vset (r : Rail) : Nat := fld r.w7 13 0
def Rail.sinkOk (r : Rail) : Bool := bit r.w7 16
def Rail.hushKeep (r : Rail) : Bool := bit r.w7 17
def Rail.autoShed (r : Rail) : Bool := bit r.w7 18
def Rail.ditherEn (r : Rail) : Bool := bit r.w7 19
def Rail.tier (r : Rail) : Nat := fld r.w7 25 24
def Rail.rsEn (r : Rail) : Bool := bit r.w8 7
def Rail.rsPair (r : Rail) : Nat := fld r.w8 4 0 % 16
def Rail.wmon (r : Rail) : Nat := fld r.w8 21 16
def Rail.wmEn (r : Rail) : Bool := bit r.w8 23
def Rail.minLanes (r : Rail) : Nat := orElse0 (fld r.w8 11 8) 1
/-- In mV: 2 mV steps, 0 is taken as 100. -/
def Rail.corrMax (r : Rail) : Int := 2 * (min 150 (orElse0 (fld r.w8 31 24) 100) : Nat)
def Rail.imax (r : Rail) : Nat := fld r.w9 15 0 * 10
def Rail.claim (r : Rail) : Nat := fld r.w10 23 0
def Rail.uvPct (r : Rail) : Nat := orElse0 (fld r.w11 7 0) 50
def Rail.ovPct (r : Rail) : Nat := orElse0 (fld r.w11 15 8) 80
/-- The target in force: the lower of VSET and every derate (R294). -/
def Rail.target (r : Rail) : Nat := match r.derate with
  | some d => min d r.vset
  | none => r.vset
/-- AUTO_SHED's thresholds, in % of the lead's ILIM (R172). -/
def Rail.shedPct (r : Rail) : Nat := orElse0 (fld r.w9 23 16) 20
def Rail.addPct (r : Rail) : Nat := orElse0 (fld r.w9 31 24) 60
/-- Where the reference is going, in 0.01 mV: the target, or 500 mV in a soft stop (R168). -/
def Rail.goal (r : Rail) : Nat := if r.state = .stopping then 50000 else 100 * r.target

def railAt (s : State) (r : Nat) : Option Rail := nth s.rails r none

def laneRun (l : Lane) : Bool := l.state = .start || l.state = .reg || l.state = .join || l.state = .shed

def rail2 (s : State) (n : Fin 48) : Option Rail := (s.lanes[n].rail).bind (fun r => s.rails[r])
/-- The lane whose registers FSW, SLEW and PHASE0 rule lane n (R148). -/
def leadOf (s : State) (n : Fin 48) : Fin 48 := match rail2 s n with
  | some r => r.lead
  | none => n

def laneReg (s : State) (n : Fin 48) (r : Nat) : Word := reg s (0x1000 + n.val * 0x100 + r)

/-- `a / b`, rounded to the nearest. -/
def ratio (a b : Nat) : Nat := if b = 0 then 0 else (2 * a + b) / (2 * b)

/-- PER in ticks (R148). -/
def perOf (fsw : Nat) : Nat := ratio 400000 fsw

/-- The PWM domain runs on ember. -/
def pwmEmber (s : State) : Bool := (s.clk.domains[2]).ember

/-- Ember cycles of 50 ticks per period: at least 4 for an integrated lane, which would else pass 2,400 kHz (R58). -/
def emberCycles (ctl : Bool) (per : Nat) : Nat := max (if ctl then 1 else 4) (ratio per 50)

/-- The period of lane `n` in ticks, as it runs (R58, R148). -/
def perIn (s : State) (n : Fin 48) : Nat :=
  let per := perOf (fld (laneReg s (leadOf s n) 8) 11 0)
  if pwmEmber s then 50 * emberCycles (32 ≤ n.val) per else per

/-- Ticks at which a lane at position `p` of `k` starts its period (R149); on ember a whole number of its cycles (R58). -/
def phaseOf (s : State) (n : Fin 48) (p k : Nat) : Nat :=
  let per := perIn s n
  let t := fld (laneReg s (leadOf s n) 0x2C) 11 0 + ratio (p * per) k
  (if pwmEmber s then 50 * ratio t 50 else t) % per

def runningOf (s : State) (r : Rail) : List (Fin 48) := r.members.filter (fun n => laneRun s.lanes[n])

/-- Lanes of a rail, running or not (LANE_BIND NLANES). -/
def nLanes (r : Rail) : Nat := r.members.length

/-- The lane regulates, and the PWM domain is on ember (R160). -/
def laneEmber (s : State) (l : Lane) : Bool := laneRun l && pwmEmber s

/-- The phase of lane `n` of rail `x` now (R149, R170): on ember, also on the way, a whole number of its cycles (R58). -/
def phaseNow (s : State) (n : Fin 48) (x : Rail) : Nat :=
  match s.lanes[n].moving with
  | none => phaseOf s n s.lanes[n].pos (nLanes x)
  | some t => if pwmEmber s then 50 * ratio t 50 % perIn s n else t

/-- The reference in mV. -/
def Lane.vref (l : Lane) : Nat := l.ref / 100

/-- The dither on the lead's reference, in mV: 1 kHz, ±2 mV, delayed by 62.5 µs for each pair, while the rail is ON with RS_EN
set (R176). That an undelayed wave begins its upper half at each whole millisecond of DEN_TIME is the model's (DESIGN CHOICE,
notes/assumptions/90.md). -/
def ditherMv (t : Time) (x : Rail) : Int :=
  if x.ditherEn && x.rsEn && x.state = .on then (if (2 * t.toNat + 2000 - 125 * x.rsPair) % 2000 < 1000 then 2 else -2) else 0

/-- LANE_VREF, and what the lane regulates to: on the lead, with the remote sense correction and the dither (R174, R176). -/
def shownRef (s : State) (n : Fin 48) : Nat :=
  let l := s.lanes[n]
  match rail2 s n with
  | some x => if x.lead = n && laneRun l then ((l.vref : Int) + x.corr + ditherMv (now s) x).toNat else l.vref
  | none => l.vref

/-- Maximum duty in 0.1 %: the minimum off-time of R147, 40 ns or 150 ns, is 16 or 60 ticks of the period (R158). -/
def maxDuty (s : State) (n : Fin 48) : Nat :=
  let per := perIn s n
  1000 * (per - (if n.val < 32 then 16 else 60)) / per

/-- The duty of lane `n` in 0.1 %: in dropout the maximum, of which the digit below 0.1 % is open; else a live reading. -/
def laneDuty (s : State) (n : Fin 48) (w : Word) : Nat :=
  if laneRun s.lanes[n] && s.lanes[n].dropout then
    let per := perIn s n
    maxDuty s n + (if 1000 * (per - (if n.val < 32 then 16 else 60)) % per = 0 then 0 else fld w 0 0)
  else fld w 9 0

/-! ### The low side (R152, R153, R166) -/

/-- The lane makes a sinking start (R166). -/
def sinkStart (s : State) (n : Fin 48) : Bool := s.lanes[n].state = .start && s.lanes[n].sink

/-- The reference is above where it goes. -/
def refFalls (s : State) (n : Fin 48) : Bool := match rail2 s n with
  | some x => decide (x.goal < s.lanes[n].ref)
  | none => false

/-- The low side conducts for the whole off-time: FPWM, AUTO while and after the reference falls, and a sinking start. A
running lane without it is in diode emulation, as every other start is (R154). -/
def runsFpwm (s : State) (n : Fin 48) : Bool :=
  let l := s.lanes[n]
  let mode := fld (laneReg s n 4) 2 1
  laneRun l && (sinkStart s n || (l.state ≠ .start &&
    (mode = 0 || (mode ≠ 2 && (refFalls s n || decide (0 < l.fall))))))

/-- The negative current limit in force, in mA: LANE_INEG, at most 500 mA in a sinking start. -/
def negLimit (s : State) (n : Fin 48) : Nat :=
  let i := fld (laneReg s n 0x18) 14 0
  if sinkStart s n then min i 500 else i

/-- Skipping periods, a lane fires at least once in so many µs; none without a floor. -/
def skipGap (s : State) (n : Fin 48) : Option Nat :=
  match fld (laneReg s n 0x28) 7 0 with
  | 0 => none
  | k => some (1000 / k)

/-- The bits of LANE_STATUS that show the last period: NEG_LIMITING where the lane may sink, DE_ACTIVE and SKIPPING in diode
emulation. -/
def lastPeriod (s : State) (n : Fin 48) : Word :=
  if !laneRun s.lanes[n] then 0 else if runsFpwm s n then 0x40 else 0x110

/-! ### A rail's windows (R178) -/

/-- The lane whose reference and measurement stand for the rail: the lead, or the lowest member that is not stopped. -/
def decider (s : State) (x : Rail) : Fin 48 :=
  (x.members.find? (fun n => s.lanes[n].state ≠ .stopped && s.lanes[n].state ≠ .absent && s.lanes[n].state ≠ .supplyWait)).getD x.lead

/-- What the thresholds are taken from, in mV: the target, or the present reference while it slews. -/
def winBase (s : State) (x : Rail) : Nat :=
  let l := s.lanes[decider s x]
  if laneRun l && (x.slewing || x.state = .starting || x.state = .sinking || x.state = .stopping) then l.vref else x.target

/-! ### The input map (R259) and window monitors (R275, R277, R278) -/

def bipolar (i : Nat) : Bool :=
  (48 ≤ i && i ≤ 111) || i = 118 || (143 ≤ i && i ≤ 150) || i = 153 || i = 158 || i = 159

/-- LSB of input `i` at ×1 and 16 bits, in nV (lane currents in nA, the die's mean in 10⁻⁹ °C). -/
def lsbNano (i : Nat) : Nat :=
  if i < 32 then 100000 else if i < 48 then 200000 else if i < 80 then 250000 else if i < 96 then 2500
  else if i < 112 then 400000 else if i = 112 || i = 115 || i = 116 then 800000 else if i = 118 then 1250
  else if i < 119 then 400000 else if i < 127 then 31250 else if i < 143 then 62500 else if i < 151 then 125000
  else if i = 151 then 62500 else if i = 152 then 31250 else if i = 153 then 10000000 else if i < 158 then 250000 else 6250

/-- The code of input `i` at `uv` µV, clipped at full scale. -/
def codeAt (i uv : Nat) : Nat := min (if bipolar i then 32767 else 65535) (1000 * uv / lsbNano i)

/-! ### Trims (R296, R299) -/

def calReg (i : Nat) : Nat := 0x8000 + 4 * i

/-- The GAIN and OFF corrections of a trim word. -/
def trimGain (w : Word) : Int := 20000 + signed 12 (fld w 23 12)
def trimOff (w : Word) : Int := signed 12 (fld w 11 0)

/-- A reading as a fraction, trimmed by `w`, whose OFF step is `step` in the fraction's unit: the raw value × (1 + GAIN ×
0.000 05), and OFF added to that (the order is a DESIGN CHOICE, notes/assumptions/95.md). -/
def corrected (w : Word) (step : Int) (x : Int × Nat) : Int × Nat :=
  (x.1 * trimGain w + trimOff w * step * (20000 * x.2 : Nat), 20000 * x.2)

/-- The nearest integer to a fraction. -/
def nearest (x : Int × Nat) : Int := (2 * x.1 + x.2) / (2 * x.2 : Nat)

/-- Converter `c` has a conversion in progress. -/
def converting (s : State) (c : Fin 2) : Bool := s.adc.convs[c].pass.isSome || s.adc.convs[c].cut.isSome

/-- No period of lane `n` has ended since `t`. -/
def samePeriod (s : State) (n : Nat) (t : Time) : Bool := match fin? 48 n with
  | some n => laneRun s.lanes[n] && decide (400 * (now s).toNat / perIn s n = 400 * t.toNat / perIn s n)
  | none => false

/-- The change of a trim word waits for its circuit's safe point: a conversion in progress ends, a running lane's next period
starts, 2 µs pass at a comparator (R299). -/
def trimWaits (s : State) (h : TrimHold) : Bool :=
  if h.index < 48 then samePeriod s h.index h.since
  else if h.index < 56 then converting s (if h.index < 52 then 0 else 1)
  else if h.index = 56 || h.index = 59 then converting s 0
  else if h.index = 57 || h.index = 60 then converting s 1
  else (h.index = 61 || (64 ≤ h.index && h.index < 144)) && sinceT (now s) h.since < 2

/-- The trim word in force at its circuit. A comparator's acts at once, its output is held (R299). -/
def trimWord (s : State) (i : Nat) : Word :=
  match s.cal.holds.find? (fun h => h.index = i) with
  | some h => if i < 61 && trimWaits s h then h.word else reg s (calReg i)
  | none => reg s (calReg i)

/-- The output of the comparator with trim word `i` is held across a change of its word or of the reference all share. -/
def trimHolds (s : State) (i : Nat) : Bool := s.cal.holds.any fun h => (h.index = i || h.index = 61) && trimWaits s h

/-- The circuits before the converters that input `i` passes, each by its word and its OFF step in 10⁻⁹ of the input's unit. -/
def frontOf (i : Nat) : List (Nat × Int) :=
  if i < 48 then [] else if i < 80 then [(i - 48, 2000000)] else if i < 96 then [(i - 48, 1000)]
  else if i < 112 then [(i + 57, 50000)] else if i = 118 then [(145, 1000)]
  else if 119 ≤ i ∧ i < 127 then [(63, 0), (146, 50000)] else if i = 152 then [(58, 0)]
  else if 154 ≤ i ∧ i < 158 then [(i - 5, 1000000)] else if i = 158 ∨ i = 159 then [(i - 11, 2000)] else []

def trimChain (s : State) (ws : List (Nat × Int)) (x : Int × Nat) : Int × Nat :=
  ws.foldl (fun y w => corrected (trimWord s w.1) w.2 y) x

/-- What input `i` brings to converters and monitors, in 10⁻⁹ of its unit. -/
def frontEnd (s : State) (i : Nat) (nano : Int × Nat) : Int × Nat := trimChain s (frontOf i) nano

/-- A reading that passes the circuit of word `i` alone, to the nearest unit: `num` / `den` of it is the OFF step. -/
def trimNear (s : State) (i : Nat) (num den : Nat) (v : Int) : Int :=
  let y := corrected (trimWord s i) num (v * den, 1)
  nearest (y.1, y.2 * den)

/-- UV and OV thresholds at `mv`, in µV (R178). -/
def Rail.uvOf (r : Rail) (mv : Nat) : Nat := mv * (1000 - r.uvPct)
def Rail.ovOf (r : Rail) (mv : Nat) : Nat := mv * (1000 + r.ovPct)

/-- The ADC map index that a rail's monitor watches: the remote point while remote sense is in use, else the lead's VS. -/
def watchedInput (x : Rail) : Nat := if x.rsActive then 96 + x.rsPair else x.lead.val

def wmReg (k : Fin 64) (r : Nat) : Nat := 0x7080 + k.val * 0x18 + r

/-- SRC, LO and HI of a monitor: a rail that holds it programs them from its own values (R178). -/
def wmSrc (s : State) (k : Fin 64) : Nat :=
  match s.cmp.wms[k].owner with
  | .rail r => (match s.rails[r] with
    | some x => watchedInput x
    | none => 0)
  | _ => rfld s (wmReg k 0) 7 0

def railThresh (s : State) (x : Rail) : Word :=
  let v := winBase s x
  at_ 0 (codeAt (watchedInput x) (x.uvOf v)) ||| at_ 16 (codeAt (watchedInput x) (x.ovOf v))

def wmThresh (s : State) (k : Fin 64) : Word :=
  match s.cmp.wms[k].owner with
  | .rail r => (match s.rails[r] with
    | some x => railThresh s x
    | none => reg s (wmReg k 4))
  | _ => reg s (wmReg k 4)

/-- HYST at the comparator, in mV. -/
def hystMv : Nat → Nat
  | 0 => 0
  | 1 => 10
  | 2 => 20
  | _ => 40

/-- HYST at the monitor's input, in codes: of 2.048 V full scale, 65,536 or 32,768 codes. -/
def wmHyst (s : State) (k : Fin 64) : Int :=
  ((if bipolar (wmSrc s k) then 16 else 32) * hystMv (rfld s (wmReg k 0) 12 11) : Nat)

/-- A reading as the monitor compares it: signed on a bipolar input. -/
def wmValue (s : State) (k : Fin 64) (code : BitVec 16) : Int := if bipolar (wmSrc s k) then code.toInt else code.toNat

def wmActive (w : Wm) : Bool := w.below || w.above

/-- A window with hysteresis `h`: left beyond it, entered again inside LO to HI (R275). -/
def judgeWindow (active : Bool) (lo hi h v : Int) : CompLevel :=
  { below := v < lo - (if active then 0 else h), above := hi + (if active then 0 else h) < v }

/-- A threshold that its DAC's word `i` and the reference of all comparators trim; `mv`: a millivolt at the comparator. -/
def trimmedDac (s : State) (i : Nat) (mv t : Int) : Int × Nat := trimChain s [(i, mv), (61, 0)] (t, 1)

/-- A window with trimmed thresholds. -/
def judgeTrimmed (active : Bool) (lo hi : Int × Nat) (h : Int) (v : Int × Nat) : CompLevel :=
  judgeWindow active (lo.1 * v.2) (hi.1 * v.2) (h * (lo.2 * v.2 : Nat)) (v.1 * lo.2)

/-- The level of monitor `k` with its input at `code`, all in 10⁻⁹ of the input's unit; thresholds ignore their low four
bits. -/
def wmJudge (s : State) (k : Fin 64) (code : BitVec 16) : CompLevel :=
  let t := wmThresh s k &&& 0xFFF0FFF0
  let lsb : Int := lsbNano (wmSrc s k)
  let mv := lsb * if bipolar (wmSrc s k) then 16 else 32
  let dac := fun (x : Nat) => trimmedDac s (64 + k.val) mv (lsb * wmValue s k (BitVec.ofNat 16 x))
  judgeTrimmed (wmActive s.cmp.wms[k]) (dac (fld t 15 0)) (dac (fld t 31 16)) (lsb * wmHyst s k)
    (frontEnd s (wmSrc s k) (lsb * wmValue s k code, 1))

/-- The motor channel's PWM commutates. -/
def motorDriving (m : Motor) : Bool := m.state = .homing || m.state = .moving

/-- The source of a blanking word gives edges: its lane switches, its motor channel drives (R280). -/
def edgesRun (s : State) (w : Word) : Bool :=
  if fld w 1 0 = 1 then fld w 9 8 ≠ 0 && laneRun (nth s.lanes (fld w 7 2) Lane.reset)
  else fld w 1 0 = 3 && (match nth s.motors (fld w 7 2) none with
    | some m => motorDriving m
    | none => false)

/-- BLANKED of the comparator whose status register is at `o`, with blanking word `w`: a relay's window is held in State; of
those that open at every period of a lane or motor channel, which DEN_TIME is too coarse to show, a reading tells whether
one is open now (R280, notes/assumptions/9.md). -/
def shownBlank (s : State) (o : Nat) (w : Word) (held : Bool) : Bool :=
  held || (edgesRun s w && decide (fld w 17 10 ≠ 0) && bit (live s o) 3)

def readLane (s : State) (n : Fin 48) (r : Nat) : Word :=
  let l := s.lanes[n]
  let o := 0x1000 + n.val * 0x100 + r
  let lead := leadOf s n
  if r = 0 then at_ 0 n.val ||| flag 8 (32 ≤ n.val) ||| at_ 12 ((if n.val < 32 then n.val else n.val - 32) / 4)
  else if r = 8 then laneReg s lead 8
  else if r = 0xC then (match rail2 s n with | some x => at_ 0 x.target | none => reg s o)
  else if r = 0x10 then
    (match rail2 s n with | some x => if x.slew = 0 then laneReg s lead 0x10 else at_ 0 x.slew | none => reg s o)
  else if r = 0x40 then
    at_ 0 l.state.code ||| flag 5 l.limiting ||| flag 7 l.dropout ||| flag 9 l.limited ||| flag 10 (laneEmber s l)
      ||| flag 11 l.slewHeld ||| (live s o &&& lastPeriod s n)
  else if r = 0x44 then at_ 0 (shownRef s n % 2 ^ 14)
  else if r = 0x4C then live s o &&& 0xFFFF
  else if r = 0x50 then live s o &&& 0xFFFF
  else if r = 0x54 then (match rail2 s n with
    | some x => at_ 0 (perIn s n % 4096) ||| at_ 16 (phaseNow s n x % 4096)
    | none => 0)
  else if r = 0x58 then
    (match l.rail, rail2 s n with
     | some k, some x => at_ 0 k.val ||| flag 6 true ||| flag 7 (decide (x.lead = n)) ||| at_ 8 (nLanes x) ||| at_ 12 l.pos ||| at_ 16 l.share
     | _, _ => 0)
  else if r = 0x5C then at_ 0 (laneDuty s n (live s o))
  else if r = 0x60 then at_ 0 ((causesOf s n.val).present.toNat % 256) ||| at_ 8 ((causesOf s n.val).latched.toNat % 256)
  else if r = 0x64 then live s o
  else reg s o

def readRail (s : State) (k : Fin 48) (o : Nat) : Word :=
  match s.rails[k] with
  | none => 0
  | some x =>
    let r := o % 0x40
    if r = 0 then handleOf s 1 k.val
    else if r = 4 then BitVec.ofNat 32 x.lanes.toNat
    else if r = 8 then at_ 0 (x.lanes.toNat / 2 ^ 32)
    else if r = 0xC then x.w7 else if r = 0x10 then x.w8 else if r = 0x14 then x.w9 else if r = 0x18 then x.w10
    else if r = 0x1C then x.w11 else if r = 0x20 then x.w12
    else if r = 0x24 then
      at_ 0 x.state.code ||| flag 4 x.pg ||| flag 5 x.rsActive ||| flag 6 x.senseLost ||| flag 7 x.senseFrozen |||
      flag 8 x.corrLimit ||| flag 9 (x.members.any (fun n => s.lanes[n].state = .supplyWait)) |||
      flag 10 (decide (x.shedMask ≠ 0)) ||| flag 11 x.ganging ||| at_ 12 ((runningOf s x).length) ||| at_ 16 x.bud.code
    else if r = 0x28 then live s o &&& 0x3FFF3FFF
    else if r = 0x2C then live s o
    else if r = 0x30 then at_ 0 (unsigned 10 x.corr) ||| (live s o &&& 0x00FF0000)
    else if r = 0x34 then at_ 0 ((causesOf s (48 + k.val)).present.toNat % 512) |||
      at_ 16 ((causesOf s (48 + k.val)).latched.toNat % 512)
    else reg s o

def readGraph (s : State) (g : Fin 16) (r : Nat) : Word :=
  match s.graphs[g] with
  | none => 0
  | some x =>
    if r = 0 then handleOf s 9 g.val
    else if r = 4 then at_ 0 x.state.code ||| at_ 8 x.nodes.length ||| flag 16 x.boot ||| flag 17 x.onFail
    else if r = 8 then x.done else x.failed

/-! ### Budget (R189, R191) -/

def sumMw (l : List Grant) : Nat := l.foldl (fun a g => a + g.mw) 0
def granted (s : State) : Nat := sumMw s.bud.grants

/-- The capacity in effect (R189). -/
def capacity (s : State) : Nat :=
  if s.pwr.pstate = .full then rfld s 0x5008 23 0 + (if rbit s 0x5004 0 then s.bud.capBatt else 0) else s.bud.capBatt

/-- Capacity in effect minus RESERVE. -/
def usable (s : State) : Int := (capacity s : Int) - (rfld s 0x500C 23 0 : Nat)

/-- FREE (R189). -/
def freePower (s : State) : Int := usable s - (granted s : Nat)

/-- CAP_LIFT: VACC × ILIFT in mW while Lift runs (R226). -/
def capLift (s : State) : Nat := if s.chg.lift = .running then s.chg.vacc * s.chg.ilift else 0

/-- VLEND × ILEND in mW (R222). -/
def lendClaim (s : State) : Nat := s.chg.vlend * s.chg.ilend / 10

/-- CAP_LEND (R225). -/
def capLend (s : State) : Nat :=
  if s.pwr.pstate = .full then
    min (lendClaim s) (s.bud.capBatt - sumMw (s.bud.grants.filter (fun g => decide (g.demand ≠ .lend))))
  else lendClaim s

/-- The grant of the pulse in a slot: how many ms it still runs (BUD_SLOT). -/
def msLeft (s : State) (n : Fin 48) : Nat :=
  match s.bud.grants.find? (fun g => decide (g.demand = .relay n.val)) with
  | some g => match g.ends with
    | some e => if laterT e (now s) then (sinceT e (now s) + 999) / 1000 else 0
    | none => 0
  | none => 0

/-- Tiers a FAULTED source sheds (R354): never tier 0. -/
def shedByFault (s : State) (t : Nat) : Bool :=
  t ≠ 0 && (fins 192).any fun n =>
    s.flt.src[n].faulted && bit (reg s (0x0C00 + 4 * n.val)) 2 && rfld s (0x0C00 + 4 * n.val) 6 5 = t

/-- Tiers an ACTIVE thermal rule sheds (R294). -/
def shedByRule (s : State) (t : Nat) : Bool :=
  t ≠ 0 && s.thm.rules.toList.any fun x => match x with
    | some r => r.state = .active && !r.stale && fld r.w5 11 8 = 5 && bit r.w8 t
    | none => false

/-- A tier is shed now, for whatever cause (R197). -/
def tierShed (s : State) (t : Nat) : Bool :=
  s.bud.shedCap.getLsbD t || s.bud.shedForce.getLsbD t || shedByFault s t || shedByRule s t

def readBud (s : State) (o : Nat) : Word :=
  let tier := (o - 0x5040) / 0x10
  if o = 0x5000 then flag 0 s.bud.overCap ||| at_ 8 (bitsOf 4 (tierShed s)) ||| at_ 12 s.bud.shedForce.toNat
  else if o = 0x5010 then at_ 0 (s.bud.capBatt % 2 ^ 24)
  else if o = 0x5014 then at_ 0 (capLift s % 2 ^ 24)
  else if o = 0x5018 then at_ 0 (capLend s % 2 ^ 24)
  else if o = 0x501C then at_ 0 (capacity s % 2 ^ 24)
  else if o = 0x5020 then at_ 0 (granted s % 2 ^ 24)
  else if o = 0x5024 then at_ 0 (unsigned 25 (freePower s))
  else if o = 0x503C then at_ 0 s.bud.chgState.code ||| at_ 4 s.bud.lendState.code ||| at_ 8 s.bud.liftState.code
  else if 0x5040 ≤ o ∧ o < 0x5080 then
    let g := s.bud.grants.filter (fun x => x.tier = tier)
    let w := s.bud.waiting.filter (fun x => x.tier = tier)
    if o % 0x10 = 0 then at_ 0 (sumMw g % 2 ^ 24)
    else if o % 0x10 = 4 then at_ 0 (w.foldl (fun a x => a + x.mw) 0 % 2 ^ 24)
    else if o % 0x10 = 8 then at_ 0 (g.length % 256) ||| at_ 8 (w.length % 256)
    else reg s o
  else if o = 0x5080 then at_ 0 (bitsOf 6 (fun i => (nth s.bud.slots i none).isSome)) |||
    at_ 8 ((s.bud.waiting.filter (fun x => x.slot)).length % 256)
  else if 0x5084 ≤ o ∧ o < 0x509C then
    (match nth s.bud.slots ((o - 0x5084) / 4) none with
     | some n => at_ 0 n.val ||| flag 15 true ||| at_ 16 (msLeft s n)
     | none => 0)
  else reg s o

/-! ### Charger (11) -/

/-- A die shutdown holds: what would start a lane, a pulse, a motor, the charger, Lend or Lift is refused 0x30
(R295). -/
def hot (s : State) : Bool := s.thm.shutdown || s.thm.cooling

def cells (s : State) : Nat := if liIon s then 3 else 4
def perCell (s : State) : Nat := s.chg.batsns / cells s

/-- A charge-current cap that ACTIVE rules hold in force, in 10 mA steps (R294). -/
def ruleMin (s : State) (action hi : Nat) : Option Nat :=
  s.thm.rules.toList.foldl (fun (a : Option Nat) x => match x with
    | some r => if r.state = .active && !r.stale && fld r.w5 11 8 = action then
        (match a with | some v => some (min v (fld r.w8 hi 0)) | none => some (fld r.w8 hi 0)) else a
    | none => a) none
def chgCap (s : State) : Option Nat := ruleMin s 2 9
def dsgCap (s : State) : Option Nat := ruleMin s 3 15

def lendRuns (s : State) : Bool := s.chg.lend = .slewing || s.chg.lend = .closing || s.chg.lend = .running

/-- PAUSE causes (R207). -/
def pauseBits (s : State) : Nat :=
  (if tierShed s (rfld s 0x5038 1 0) then 1 else 0) + (if rbit s 0x5404 0 then 0 else 2) +
  (if chgCap s = some 0 then 4 else 0) + (if lendRuns s then 8 else 0)

/-- SOC_Q in 0.1 % (R212). -/
def socQ (s : State) : Int := let q := (reg s 0x5444).toNat
  if q = 0 then 0 else s.chg.qacc * 1000 / (q : Int)

/-- SOC_USE in 0.1 % (R214). -/
def socUse (s : State) : Int :=
  if s.chg.qvalid && !s.chg.dispute then socQ s
  else if s.chg.vvalid then (s.chg.socV : Int) else (s.chg.socVlb : Int)

/-- INT_N is low (R228). -/
def intN (s : State) : Bool :=
  !inReset s && s.pwr.pstate ≠ .burrow && decide (reg s 0x54C0 &&& reg s 0x54C4 ≠ 0)

def readChg (s : State) (o : Nat) : Word :=
  let c := s.chg
  if o = 0x5400 then at_ 0 c.state.code ||| flag 4 s.pwr.acinValid ||| flag 5 (c.decided = 3 || c.decided = 4) |||
    flag 6 (decide (c.base < rfld s 0x5408 9 0) && (c.state = .cc || c.state = .cv)) ||| flag 7 c.leashHit ||| at_ 8 (pauseBits s)
  else if o = 0x5404 then (reg s o &&& 1) ||| at_ 16 c.chem.toNat
  else if o = 0x541C then at_ 0 c.target ||| at_ 12 c.decided.toNat
  else if o = 0x5420 then live s o &&& 0xFFFF
  else if o = 0x5424 then at_ 0 (c.batsns % 65536) ||| at_ 16 (perCell s % 65536)
  else if o = 0x5428 then live s o
  else if o = 0x542C then at_ 0 (min 65535 (c.safety / 120000000)) ||| at_ 16 (min 65535 (c.preTime / 60000000))
  else if o = 0x5430 then at_ 0 ((List.range 6).foldl (fun a i => a + ((causesOf s (150 + i)).present.toNat % 32) * 32 ^ i) 0)
  else if o = 0x5434 then at_ 0 ((List.range 6).foldl (fun a i => a + ((causesOf s (150 + i)).latched.toNat % 32) * 32 ^ i) 0)
  else if o = 0x5440 then at_ 0 (unsigned 32 c.qacc)
  else if o = 0x5448 then at_ 0 (clampI 0 1000 (socQ s)).toNat ||| at_ 16 ((if c.lb then c.socVlb else c.socV) % 2048)
  else if o = 0x544C then flag 0 c.qvalid ||| flag 1 c.vvalid ||| flag 2 c.rest ||| flag 3 c.dispute ||| flag 4 c.cutPend |||
    flag 5 c.derated ||| flag 6 c.lb ||| flag 7 c.senseRange
  else if o = 0x5480 then at_ 0 c.vlend ||| at_ 16 c.ilend
  else if o = 0x5484 then flag 0 (c.lend = .running) ||| at_ 8 c.lendStop.toNat ||| (live s o &&& 0xFFFF0000)
  else if o = 0x5488 then at_ 0 c.lendSoc
  else if o = 0x54A0 then at_ 0 c.vacc ||| at_ 16 c.ilift
  else if o = 0x54A4 then at_ 0 c.liftClaim
  else if o = 0x54A8 then flag 0 (c.lift = .running) ||| at_ 8 c.liftStop.toNat ||| (live s o &&& 0xFFFF0000)
  else if o = 0x54D0 then flag 0 s.pwr.batsw ||| (live s o &&& 0xFFFF0000)
  else reg s o

/-! ### Actuators and fans (12, 13) -/

def relayBits (s : State) (p : Relay → Bool) : Nat :=
  bitsOf 48 fun i => match nth s.relays i none with
    | some r => p r
    | none => false

def readRelay (s : State) (n : Fin 48) (o : Nat) : Word :=
  match s.relays[n] with
  | none => 0
  | some x =>
    let r := (o - 0x5840) % 0x18
    if r = 0 then handleOf s 2 n.val else if r = 4 then x.w5 else if r = 8 then x.w6
    else if r = 0xC then
      at_ 0 x.pos.code ||| flag 2 (x.target = some true) ||| flag 3 x.target.isSome ||| flag 4 x.confirmed |||
      at_ 5 x.state.code ||| flag 8 x.limiting ||| at_ 12 ((causesOf s (96 + n.val)).latched.toNat % 16) ||| at_ 16 x.bud.code
    else reg s o

/-- QUAL in µs, CHAT_N and CHAT_WIN in µs (R231). -/
def Motor.qualUs (x : Motor) : Nat := 1000 * (if fld (nth x.p 4 0) 7 0 = 0 then 10 else fld (nth x.p 4 0) 7 0)
def Motor.chatN (x : Motor) : Nat := if fld (nth x.p 4 0) 15 8 = 0 then 4 else fld (nth x.p 4 0) 15 8
def Motor.chatWin (x : Motor) : Nat := 10000 * (if fld (nth x.p 4 0) 23 16 = 0 then 10 else fld (nth x.p 4 0) 23 16)

/-- Those of the changes `es` that lie within the CHAT_WIN that ends at `t`. -/
def Motor.recentEdges (x : Motor) (t : Time) (es : List Time) : List Time := es.filter (fun e => sinceT t e ≤ x.chatWin)

def Motor.edges (x : Motor) : Limit → List Time
  | .home => x.homeEdges
  | .far => x.farEdges

def readMotor (s : State) (m : Fin 2) (o : Nat) : Word :=
  match s.motors[m] with
  | none => 0
  | some x =>
    let r := (o - 0x5CC0) % 0x80
    let p := (causesOf s (144 + m.val)).present
    if r = 0 then handleOf s 3 m.val
    else if r ≤ 0x24 then nth x.p (r / 4 - 1) 0
    else if r = 0x28 then
      at_ 0 x.state.code ||| flag 4 x.posValid ||| flag 5 x.homed ||| flag 6 x.coasted |||
      at_ 8 (p.toNat % 8) ||| flag 11 (p.getLsbD 3 || p.getLsbD 4) ||| at_ 16 x.bud.code
    else if r = 0x2C then
      (if !x.posValid then 0
       else if x.coasted || x.state = .homing || x.state = .moving || x.state = .braking then live s o
       else BitVec.ofInt 32 x.pos)
    else if r = 0x30 then BitVec.ofInt 32 x.target
    else if r = 0x34 then live s o
    else if r = 0x38 then flag 0 x.homeActive ||| flag 1 x.farActive ||| (live s o &&& 0xC) |||
      at_ 8 ((x.recentEdges (now s) x.homeEdges).length % 256) ||| at_ 16 ((x.recentEdges (now s) x.farEdges).length % 256)
    else reg s o

/-- The highest floor ACTIVE rules hold on fan `f`, in mV or rpm by its mode (R252, R294). -/
def fanFloor (s : State) (f : Nat) (speed : Bool) : Nat :=
  s.thm.rules.toList.foldl (fun a x => match x with
    | some r => if r.state = .active && !r.stale && fld r.w5 11 8 = 4 && hSlot r.w7 = f then
        max a (if speed then fld r.w8 31 16 else fld r.w8 13 0) else a
    | none => a) 0

def fanTarget (s : State) (f : Fin 4) (x : Fan) : Nat := max x.target (fanFloor s f.val x.speed)

def readFan (s : State) (f : Fin 4) (o : Nat) : Word :=
  match s.fans[f] with
  | none => 0
  | some x =>
    let r := (o - 0x6040) % 0x70
    let fl := fanFloor s f.val x.speed
    if r = 0 then handleOf s 4 f.val
    else if r ≤ 0x20 then nth x.p (r / 4 - 1) 0
    else if r = 0x24 then at_ 0 x.target ||| flag 16 x.speed
    else if r = 0x28 then at_ 0 fl
    else if r = 0x2C then
      at_ 0 x.state.code ||| flag 3 x.speed ||| flag 4 x.ramping ||| flag 5 x.bandMoved ||| flag 6 x.leashHit |||
      flag 7 x.dropout ||| flag 8 x.tachOk ||| flag 9 (decide (x.target < fl)) ||| (if x.out = 0 then 0 else live s o &&& 0x400) |||
      at_ 12 ((causesOf s (146 + f.val)).latched.toNat % 8) ||| at_ 16 x.bud.code
    else if r = 0x30 then at_ 0 (x.out / 10 % 2 ^ 14) ||| (live s o &&& 0x3FFF0000)
    else if r = 0x34 then at_ 0 (x.rpm % 65536) ||| at_ 16 (if x.runSpeed then fanTarget s f x else 0)
    else if r = 0x38 then live s o &&& 0xFFF
    else reg s o

/-! ### Measurement, comparators, thermal (14, 15, 16) -/

def seqState (x : Seq) : Nat := if x.inPass then 2 else if x.waiting then 3 else if x.running then 1 else 0

def streamCount (s : State) : Nat := s.adc.streams.toList.foldl (fun a x => a + x.pend.length) 0

def readAdc (s : State) (o : Nat) : Word :=
  if o = 0x6400 then
    at_ 0 (bitsOf 8 (fun i => match nth s.adc.seqs i none with | some x => x.running | none => false)) |||
    flag 8 (converting s 0) ||| flag 9 (converting s 1)
  else if o = 0x6408 then at_ 0 (streamCount s) ||| at_ 16 s.adc.highest
  else if 0x6410 ≤ o ∧ o < 0x6420 then
    reg s o ||| flag 31 (nth s.adc.streams ((o - 0x6410) / 4) { pend := [], overrun := false, episode := 0 }).overrun
  else match inst 0x6440 0x20 8 o, inst 0x6540 0x40 8 o, inst 0x69C0 0x20 2 o with
    | some (q, r), _, _ =>
      (match nth s.adc.seqs q none with
       | none => 0
       | some x =>
         if r = 0 then handleOf s 5 q else if r = 4 then x.w8 else if r = 8 then x.w9 else if r = 0xC then x.w10
         else if r = 0x10 then at_ 0 (seqState x) ||| at_ 8 x.entry ||| flag 16 x.gainEdge
         else if r = 0x14 then at_ 0 x.passes else reg s o)
    | none, some (q, r), _ =>
      (match nth s.adc.seqs q none with
       | none => 0
       | some x =>
         let e := fun i => ((x.entries.getD i { word := 0, gain := 0, small := 0, hold := none, rstep := false, edge := none }).word).toNat % 2 ^ 15
         at_ 0 (e (r / 2)) ||| at_ 16 (e (r / 2 + 1)))
    | none, none, some (c, r) =>
      let v := nth s.adc.convs c Conv.reset
      if r = 0 then
        flag 0 (v.pass.isSome || v.cut.isSome) ||| at_ 1 (match v.pass with | some q => q.val | none => 0) ||| flag 4 v.pass.isSome |||
        flag 5 v.cut.isSome ||| at_ 8 v.queue.length
      else reg s o
    | none, none, none => reg s o

def readCmp (s : State) (o : Nat) : Word :=
  let wm := fun i => nth s.cmp.wms i Wm.reset
  let fc := fun i => nth s.cmp.fcs i Fc.reset
  if o = 0x7000 then at_ 0 (bitsOf 32 (fun i => wmActive (wm i)))
  else if o = 0x7004 then at_ 0 (bitsOf 32 (fun i => wmActive (wm (32 + i))))
  else if o = 0x7008 then at_ 0 (bitsOf 16 (fun i => (fc i).active))
  else if o = 0x7010 then flag 0 s.pwr.mains ||| flag 1 s.cmp.sns0 ||| flag 2 s.cmp.sns1 ||| (live s o &&& 8)
  else if o = 0x7784 then at_ 0 (bitsOf 8 (fun i => (fc i).active)) ||| at_ 8 (bitsOf 8 (fun i => (fc i).below)) |||
    at_ 16 (bitsOf 8 (fun i => (fc i).above))
  else if o = 0x7788 then
    at_ 0 (bitsOf 8 (fun i => decide ((nth s.cmp.tampers i TamperIn.reset).count ≠ 0)))
  else match inst 0x7080 0x18 64 o, inst 0x7680 0x10 16 o with
    | some (k, r), _ =>
      let w := wm k
      if r = 0 then
        (match w.owner with
         | .free => reg s o &&& 0x00FF3CFF
         | .host => (reg s o &&& 0x00FF3CFF) ||| at_ 8 1
         | .rail x => (reg s o &&& 0x00FF3C00) ||| at_ 8 2 ||| at_ 0 (match s.rails[x] with
           | some y => watchedInput y
           | none => 0))
      else if r = 4 then (match fin? 64 k with
        | some f => wmThresh s f
        | none => 0)
      else if r = 0xC then flag 0 w.below ||| flag 1 w.above ||| flag 2 (wmActive w) |||
        flag 3 (shownBlank s o (reg s (o - 4)) w.blanked) ||| flag 4 w.limited |||
        at_ 8 (match w.owner with | .rail x => x.val | _ => 0)
      else reg s o
    | none, some (i, r) =>
      let f := fc i
      if r = 0xC then (live s o &&& 1) ||| flag 1 f.active ||| flag 2 f.below ||| flag 3 f.above |||
        flag 4 (shownBlank s o (reg s (o - 4)) f.blanked) ||| at_ 16 f.count.toNat
      else reg s o
    | none, none => reg s o

/-- Sensor code `i` is a member of group `g` (16). -/
def inGroup (s : State) (g i : Nat) : Bool := rbit s (0x7840 + 8 * i) g

/-- A group's value (R290): the highest temperature in use among its members; 0 for an empty group. -/
def groupVal (s : State) (g : Nat) : Int :=
  match ((fins 32).filter (fun i => inGroup s g i.val)).map (fun i => s.thm.sensors[i].inUse) with
  | [] => 0
  | t :: rest => rest.foldl max t

def readThm (s : State) (o : Nat) : Word :=
  let sens := fun (p : Sensor → Bool) => at_ 0 (bitsOf 32 (fun i => p (nth s.thm.sensors i Sensor.reset)))
  let act := fun i => match nth s.thm.rules i none with | some r => decide (r.state = .active) | none => false
  if o = 0x7804 then flag 0 s.thm.shutdown ||| flag 1 s.thm.cooling ||| at_ 8 (((List.range 32).filter act).length)
  else if o = 0x7808 then sens (·.suspect) else if o = 0x780C then sens (·.unknown) else if o = 0x7810 then sens (·.failed)
  else if o = 0x7814 then at_ 0 (unsigned 16 s.thm.dieMax) ||| at_ 16 (unsigned 16 s.thm.dieMaxEver)
  else if o = 0x781C then at_ 0 (bitsOf 32 act)
  else match inst 0x7840 8 32 o, inst 0x7940 8 32 o, inst 0x7A40 8 8 o with
    | some (i, r), _, _ =>
      if r = 0 then reg s o
      else let x := nth s.thm.sensors i Sensor.reset
        at_ 0 (unsigned 16 x.inUse) ||| at_ 16 (unsigned 16 x.raw)
    | none, some (i, r), _ =>
      (match nth s.thm.rules i none with
       | none => 0
       | some x => if r = 0 then x.w5 else at_ 0 x.state.code ||| flag 2 x.stale ||| at_ 8 (x.dwell % 256) ||| at_ 16 (fld x.w6 15 0))
    | none, none, some (g, r) =>
      if r = 0 then at_ 0 (unsigned 16 (groupVal s g)) else at_ 0 (bitsOf 32 (inGroup s g))
    | none, none, none => reg s o

/-! ### CAL, TWB, USB, OWL, LSH -/

/-- Partner slot number → its handle's slot; 112 addresses on each of four ports (18). -/
def partnerAt (s : State) (k : Nat) : Option Partner := spGet (fun _ => none) s.twb.partners k

/-- An attempt of a transfer is under way. -/
def underWay (x : Port) : Bool := x.op = .xfer && 0 < x.attempts && !x.again

def portState (s : State) (p : Fin 4) : Nat :=
  let x := s.twb.ports[p]
  if !rbit s (0x8840 + 0x40 * p.val) 0 then 0
  else if x.stuckSda || x.stuckScl then 6
  else match x.op with
    | .xfer => 2 | .sweep => 3 | .census => 4 | .recover => 5
    | .idle => if x.alertHold then 7 else 1

def readTwb (s : State) (o : Nat) : Word :=
  let port := fun (p : Port → Bool) => bitsOf 4 (fun i => p (nth s.twb.ports i Port.reset))
  let sel := rfld s 0x8804 8 0
  let cell := fun a p => match partnerAt s (p * 112 + a) with
    | some x => (1 : Nat) + 2 * x.origin.code + (if x.pec then 8 else 0) + (if x.pinned then 16 else 0) + 32 * x.misses
    | none => 0
  if o = 0x8800 then at_ 0 (port (fun x => decide (x.op ≠ .idle))) ||| at_ 4 (bitsOf 4 (fun i => rbit s (0x8840 + 0x40 * i) 0)) |||
    at_ 8 (port (fun x => decide (x.op = .sweep))) ||| at_ 12 (port (fun x => x.stuckSda || x.stuckScl))
  else if o = 0x8808 then (match partnerAt s sel with | some _ => handleOf s 6 sel | none => 0)
  else if o = 0x880C then (match partnerAt s sel with | some x => at_ 0 x.transfers.toNat ||| at_ 16 x.alerts.toNat | none => 0)
  else if o = 0x8810 then (match partnerAt s sel with | some x => x.lastAck | none => 0)
  else if o = 0x8814 then at_ 0 s.twb.partners.length
  else if 0x8940 ≤ o then
    let a := (o - 0x8940) / 4
    at_ 0 (cell a 0) ||| at_ 8 (cell a 1) ||| at_ 16 (cell a 2) ||| at_ 24 (cell a 3)
  else match inst 0x8840 0x40 4 o with
    | some (p, r) => if h : p < 4 then (if r = 0xC then at_ 0 (portState s ⟨p, h⟩) ||| (live s o &&& 0x70) |||
        flag 7 (s.twb.ports[p].bus = .busy || underWay s.twb.ports[p]) else reg s o) else 0
    | none => reg s o

def readUsb (s : State) (o : Nat) : Word :=
  let u := s.usb
  if o = 0x9004 then flag 0 u.vbus ||| flag 1 u.attached ||| flag 2 u.configured ||| flag 3 u.suspended ||| flag 4 u.grant.isSome |||
    at_ 5 (match u.grant with | some g => (match g.cls with | .ring => 1 | .setup => 2) | none => 0)
  else if o = 0x9008 then (match u.grant with | some g => timeLo g.ends | none => 0)
  else if o = 0x900C then (match u.grant with | some g => g.opmask | none => 0)
  else if o = 0x9018 then at_ 0 (u.ringPos.toNat % 65536) ||| at_ 16 (u.sending.length % 65536)
  else reg s o

def readOwl (s : State) (o : Nat) : Word :=
  if o = 0x9400 then flag 0 s.owl.wdtStopped ||| flag 1 s.owl.emberStopped ||| (reg s o &&& 0xFFFF0000)
  else if o = 0x9404 then loW s.owl.hbeat
  else if o = 0x9408 then hiW s.owl.hbeat
  else match inst 0x9410 0x20 2 o with
    | some (i, r) =>
      let x := nth s.owl.owls i Owl.reset
      if r = 0x10 then at_ 0 x.state.code ||| flag 3 (x.clock = .ember) ||| at_ 4 x.cycles
      else if r = 0x14 then at_ 0 (x.off.getD x.left % 16777216)
      else if r = 0x1C then timeLo x.lastFeed else reg s o
    | none => reg s o

/-! ### GLB, CLK, LINK, JNL, FLT -/

/-- GLB_PSTATE (03). -/
def glbPstate (s : State) : Word :=
  at_ 0 s.pwr.pstate.code ||| flag 2 (s.chg.lend = .running) ||| flag 3 (s.chg.lift = .running) ||| flag 4 s.pwr.acinValid |||
  flag 5 s.pwr.mains ||| flag 6 s.pwr.hostUp ||| at_ 8 s.pwr.bootHold.code ||| flag 12 (battless s)

/-- Revision ID of a stepping: A is 1 in bits [7:4], the digit stands in bits [3:0] (R1). -/
def revisionOf (p : Nat × Nat) : Nat := 16 * (p.1 % 15 + 1) + p.2 % 16

/-- The die serial number: any number but 0 and the greatest (R378). -/
def serialNumber : DWord := BitVec.ofNat 64 (Config.serial.toNat % (2 ^ 64 - 2) + 1)

def readGlb (s : State) (o : Nat) : Word :=
  if o = 0x0004 then at_ 0 (revisionOf Config.stepping) ||| at_ 8 1
  else if o = 0x0008 then s.pwr.strap
  else if o = 0x0010 then at_ 0 (if s.pwr.iface = .run then 1 else 0) ||| flag 16 (s.pwr.iface = .granted) ||| at_ 17 s.pwr.refuse.toNat
  else if o = 0x0014 then glbPstate s
  else if o = 0x0028 then loW serialNumber
  else if o = 0x002C then hiW serialNumber
  else if 0x0040 ≤ o ∧ o < 0x0084 then 0
  else if o = 0x0084 then
    let k := fun (p : KeySlot → Bool) => bitsOf 4 (fun i => p (nth s.eng.keys i KeySlot.reset))
    at_ 0 (k (fun x => decide (x.loaded = 0xF))) ||| at_ 4 (k (·.fused)) ||| at_ 8 (if k (·.fusing) = 0 then 0 else 1)
  else if 0x0088 ≤ o ∧ o < 0x00A8 then
    let x := nth s.eng.keys ((o - 0x88) / 8) KeySlot.reset
    if o % 8 = 0 then loW x.lastTag else hiW x.lastTag
  else reg s o

def clkStatus (s : State) : Word :=
  let c := s.clk
  flag 0 c.refEmber ||| flag 1 c.locked ||| flag 2 c.coasting ||| flag 3 c.rootRun ||| flag 4 c.xPresent |||
  at_ 5 (match c.src with | .holding => 0 | .xclk => 1 | .sof => 2) ||| flag 7 c.trimLocked ||| flag 8 c.backoff

def readClk (s : State) (o : Nat) : Word :=
  if o = 0x0100 then clkStatus s
  else if o = 0x0108 then at_ 0 (unsigned 11 s.clk.code) ||| flag 16 s.clk.leashHit
  else if o = 0x010C then live s o &&& 0xFFFF
  else if o = 0x0110 then timeLo s.den.time
  else if o = 0x0114 then timeHi s.den.time
  else match inst 0x0160 0x20 9 o with
    | some (d, r) =>
      let x := nth s.clk.domains d { ember := false, parked := false }
      if r = 0 then (if d = 7 then 1 else reg s o)
      else if r = 4 then flag 0 x.ember ||| (if d = 7 then 0 else live s o &&& 2) ||| flag 2 x.parked
      else if r = 0xC then live s o &&& 0xFFFFF else reg s o
    | none => reg s o

def readLink (s : State) (o : Nat) : Word :=
  let l := s.link
  if o = 0x0400 then flag 0 l.dlUp ||| at_ 1 (if l.dlUp then (if l.gen2 then 2 else 1) else 0) ||| at_ 3 l.lstate.code |||
    flag 6 l.perst ||| flag 7 l.held
  else if o = 0x0404 then flag 0 l.hold ||| flag 1 l.dmaFail ||| flag 2 l.bmeWait ||| (reg s o &&& 0x10)
  else match inst 0x0440 0x10 16 o, inst 0x0540 0x10 16 o with
    | some (q, r), _ => if r = 0xC then (nth l.sqs q { prod := 0, cons := 0, fetch := 0, rseqFails := 0, bad := false, stalled := false }).cons else reg s o
    | none, some (q, r) => if r = 0xC then cqProd s q else reg s o
    | none, none => reg s o

def imgWord (s : State) (c k : Nat) : Word := spGet (fun _ => 0) (if c = 0 then s.jnl.image0 else s.jnl.image1) k

/-- The words of a boot image copy. -/
def imgWords (s : State) (c : Nat) : List Word := (List.range 2048).map (imgWord s c)

/-- What makes an image good (R126): over its 2,048 words. -/
def goodImage (ws : List Word) : Bool :=
  wd ws 3 = crc32 (ws.drop 4) && wd ws 0 = 0x4E424931 && wd ws 2 = 1 && decide (1 ≤ (wd ws 1).toNat)

/-- BODY items that wait in slots that have not fired. -/
def armedBodies (s : State) : Nat :=
  (s.eng.items.filter (fun i => i.phase = .body && s.eng.armed.toList.any (fun x => match x with
    | some x => decide (i.armOf = some x.aseq)
    | none => false))).length

def readJnl (s : State) (o : Nat) : Word :=
  let j := s.jnl
  if o = 0x0800 then flag 0 j.bankA.inService ||| flag 1 j.bankB.inService ||| flag 2 (j.bankA.inService != j.bankB.inService) |||
    flag 3 (dead s) ||| (live s o &&& 0x20) ||| flag 6 j.fullWait ||| flag 7 (reserveLow s)
  else if o = 0x0804 then flag 0 (j.reinstating.contains 0) ||| flag 1 (j.reinstating.contains 1)
  else if o = 0x0808 then j.head
  else if o = 0x080C then at_ 0 (liveRecs s % 4096) ||| at_ 16 (free s)
  else if o = 0x0810 then at_ 0 ((s.eng.armed.toList.filter (·.isSome)).length) ||| at_ 16 (armedBodies s % 256)
  else if o = 0x081C then
    at_ 0 (match j.inUse with | some c => c.val | none => 0) ||| flag 1 (goodImage (imgWords s 0)) ||| flag 2 (goodImage (imgWords s 1))
  else if o = 0x0820 then (match j.inUse with | some c => imgWord s c.val 1 | none => 0)
  else if o = 0x0840 then (reg s o &&& 0x30) ||| flag 8 j.biBusy ||| at_ 12 j.biResult.code
  else if o = 0x0850 then at_ 0 j.biPtr
  else if o = 0x0844 ∨ o = 0x0848 ∨ o = 0x084C then 0
  else reg s o

def readFlt (s : State) (o : Nat) : Word :=
  let f := fun i => causesOf s i
  if o < 0x0F00 then
    let x := f ((o - 0x0C00) / 4)
    (reg s o &&& 0x7F) ||| flag 16 x.faulted ||| flag 17 (decide (x.present ≠ 0)) ||| at_ 24 x.raises.toNat
  else if o = 0x0F80 then
    flag 0 ((List.range 164).any (fun i => (f i).faulted)) ||| flag 1 ((List.range 28).any (fun i => (f (164 + i)).faulted)) |||
    at_ 16 (((List.range 192).filter (fun i => (f i).faulted)).length)
  else if 0x0F84 ≤ o ∧ o < 0x0F9C then at_ 0 (bitsOf 32 (fun b => (f (32 * ((o - 0x0F84) / 4) + b)).faulted))
  else if 0x0F9C ≤ o ∧ o < 0x0FB4 then at_ 0 (bitsOf 32 (fun b => decide ((f (32 * ((o - 0x0F9C) / 4) + b)).present ≠ 0)))
  else match inst 0x0F00 0x40 2 o with
    | some (c, r) =>
      let x := nth s.flt.coll c Collector.reset
      let h := x.entries.head?
      if r = 4 then at_ 0 x.entries.length ||| flag 6 x.overflow ||| at_ 16 x.lost.toNat
      else if r = 8 then flag 0 (!x.entries.isEmpty) ||| flag 1 x.overflow
      else if r = 0xC then x.count
      else if r = 0x10 then (match h with | some e => timeLo e.time | none => 0)
      else if r = 0x14 then (match h with | some e => at_ 0 e.src ||| at_ 8 e.detail.toNat ||| (timeHi e.time <<< 16) | none => 0)
      else if r = 0x18 then (match h with | some e => e.handle | none => 0)
      else if r = 0x1C then (match h with | some e => e.value | none => 0)
      else if 0x20 ≤ r ∧ r ≤ 0x34 then nth x.snap ((r - 0x20) / 4) 0
      else if r = 0x38 then x.snapSt
      else reg s o
    | none => reg s o

/-- LSH_STATUS: each quantity at an edge now (R365). -/
def lshStatus (s : State) : Word :=
  flag 0 s.clk.leashHit |||
  flag 1 (s.adc.seqs.toList.any (fun x => match x with | some q => q.gainEdge | none => false)) |||
  flag 2 s.chg.leashHit |||
  flag 3 (s.rails.toList.any (fun x => match x with | some r => r.laneEdge | none => false)) |||
  flag 4 (s.fans.toList.any (fun x => match x with | some f => f.leashHit | none => false)) |||
  flag 5 s.bud.overCap

/-- What the register at offset `o` reads, the latches of R372 apart; zero in reserved space (R370). -/
def readReg (s : State) (o : Nat) : Word :=
  if (regAccess o).isNone then 0
  else if o < 0x0100 then readGlb s o
  else if o < 0x0400 then readClk s o
  else if o < 0x0800 then readLink s o
  else if o < 0x0C00 then readJnl s o
  else if o < 0x1000 then readFlt s o
  else if o < 0x4000 then (if h : (o - 0x1000) / 0x100 < 48 then readLane s ⟨(o - 0x1000) / 0x100, h⟩ (o % 0x100) else 0)
  else if o < 0x4C00 then (if h : (o - 0x4000) / 0x40 < 48 then readRail s ⟨(o - 0x4000) / 0x40, h⟩ o else 0)
  else if o < 0x4D00 then (if h : (o - 0x4C00) / 0x10 < 16 then readGraph s ⟨(o - 0x4C00) / 0x10, h⟩ (o % 0x10) else 0)
  else if o < 0x5400 then readBud s o
  else if o < 0x5800 then readChg s o
  else if o < 0x5840 then
    if o = 0x581C then at_ 0 (relayBits s (fun r => r.pos = .closed)) else if o = 0x5820 then at_ 0 (relayBits s (fun r => r.pos = .closed) / 2 ^ 32)
    else if o = 0x5824 then at_ 0 (relayBits s (fun r => r.target.isSome && !r.confirmed))
    else if o = 0x5828 then at_ 0 (relayBits s (fun r => r.target.isSome && !r.confirmed) / 2 ^ 32)
    else if o = 0x582C then at_ 0 (relayBits s (fun r => r.state = .pulsing)) else if o = 0x5830 then at_ 0 (relayBits s (fun r => r.state = .pulsing) / 2 ^ 32)
    else if 0x5804 ≤ o ∧ o < 0x581C then live s o &&& 0xFFFF
    else reg s o
  else if o < 0x5CC0 then (if h : (o - 0x5840) / 0x18 < 48 then readRelay s ⟨(o - 0x5840) / 0x18, h⟩ o else 0)
  else if o < 0x6000 then (if h : (o - 0x5CC0) / 0x80 < 2 then readMotor s ⟨(o - 0x5CC0) / 0x80, h⟩ o else 0)
  else if o < 0x6400 then (if o = 0x6000 then live s o &&& 0x1FFFF else if h : (o - 0x6040) / 0x70 < 4 then readFan s ⟨(o - 0x6040) / 0x70, h⟩ o else 0)
  else if o < 0x7000 then readAdc s o
  else if o < 0x7800 then readCmp s o
  else if o < 0x8000 then readThm s o
  else if o < 0x8800 then
    if o = 0x87FC then flag 0 s.cal.trimmed ||| flag 1 s.cal.fromImage ||| flag 2 s.cal.run.isSome ||| at_ 16 s.cal.crc.toNat
    else reg s o
  else if o < 0x9000 then readTwb s o
  else if o < 0x9400 then readUsb s o
  else if o < 0x9600 then readOwl s o
  else if o = 0x9600 then lshStatus s else reg s o

end Sys2Proof.Machine
end

