-- ==== Sys2Proof/Machine/Ledger.lean ====
section
/-! DEFINITION. The power budget's ledgers (10): requests in their order, the walk, grants and their release, the
elastic charger (R189 to R195, R200). -/

namespace Sys2Proof.Machine

/-! ### The charger's demand (R190, R191, R208) -/

def chgTier (s : State) : Nat := rfld s 0x5038 1 0
def lendTier (s : State) : Nat := rfld s 0x5038 5 4
def liftTier (s : State) : Nat := rfld s 0x5038 9 8

/-- While charging: in CC or CV. -/
def charging (s : State) : Bool := s.chg.state = .cc || s.chg.state = .cv

/-- ICHG × BATSNS in mW. -/
def chgWant (s : State) : Nat := if charging s then rfld s 0x5408 9 0 * 10 * s.chg.batsns / 1000 else 0
/-- The leash minimum × BATSNS, no more than the request. -/
def chgFloor (s : State) : Nat := if charging s then min (rfld s 0x960C 9 0 * 10 * s.chg.batsns / 1000) (chgWant s) else 0

/-- The target before adaptation and what decided it (R208). A request granted in full takes nothing from ICHG. -/
def chargeBase (s : State) : Nat × BitVec 3 :=
  if s.chg.state = .precharge then (rfld s 0x5414 7 0, 5)
  else if !charging s then (0, 0)
  else
    let ichg := rfld s 0x5408 9 0
    let bud := if chgWant s ≤ grantMw s .charger then ichg
      else if s.chg.batsns = 0 then 0 else grantMw s .charger * 1000 / s.chg.batsns / 10
    let a : Nat × BitVec 3 := if bud < ichg then (bud, 1) else (ichg, 0)
    match chgCap s with
    | some c => if c < a.1 then (c, 2) else a
    | none => a

/-- The current in force and what decided it (CHG_ITARGET): adaptation lowers it below the target (R209). -/
def chargeTarget (s : State) : Nat × BitVec 3 :=
  let b := chargeBase s
  match s.chg.adapted with
  | some ma => if charging s && ma / 10 < b.1 then (ma / 10, if s.chg.leashHit then 4 else 3) else b
  | none => b

def retarget (s : State) : State :=
  let t := chargeTarget s
  let b := chargeBase s
  modChg (fun c => { c with target := t.1, decided := t.2, base := b.1 }) s

/-! ### The walk (R191, R192, R195) -/

/-- The order of requests: tier, then ASEQ. -/
def reqBefore (a b : Req) : Bool := a.tier < b.tier || (a.tier = b.tier && !later32 a.aseq b.aseq)

def inOrder (l : List Req) : List Req := sortBy reqBefore l

/-- What one walk keeps as it goes. -/
structure Walk where
  /-- Power left, the charger's floor set aside. -/
  base : Int
  /-- A request ahead waits for power. -/
  blocked : Bool
  /-- What the grants supplied from ACC leave of CAP_LIFT. -/
  lift : Int
  /-- Pulses running and the last pulse start. -/
  busy : Nat
  last : Option Time
  deriving DecidableEq, Repr

def slotsMax (s : State) : Nat := clampN 1 6 (rfld s 0x502C 2 0)
def stagger (s : State) : Nat := rfld s 0x502C 15 8 * 1000

/-- CAP_LEND for a request of `mw` (R225). -/
def lendFits (s : State) (mw : Nat) : Bool :=
  s.pwr.pstate ≠ .full || mw + sumMw (s.bud.grants.filter (fun g => decide (g.demand ≠ .lend))) ≤ s.bud.capBatt

/-- CAP_LIFT for a LIFT_SET: what its own VACC and ILIFT give, less the other ACC grants (R189, R226; DEDUCED,
notes/assumptions/64.md). -/
def liftFits (s : State) (r : Req) : Bool :=
  match findItem s r.aseq with
  | some it => r.mw + sumMw (s.bud.grants.filter (fun g => g.acc && decide (g.demand ≠ .lift))) ≤
      fld (opv it 5) 8 0 * fld (opv it 6) 7 0
  | none => true

/-- Why a request cannot be served in this walk at time `t`, none where it can: the details of R192. -/
def causeOf (s : State) (t : Time) (w : Walk) (r : Req) : Option Nat :=
  let need := (r.mw : Int) - grantMw s r.demand
  if tierShed s r.tier then some 0x13
  else if w.base < need then some 0x10
  else if r.acc && decide (w.lift < need) then some 0x14
  else if r.demand = .lift && !liftFits s r then some 0x14
  else if r.demand = .lend && !lendFits s r.mw then some 0x15
  else if w.blocked then some 0x12
  else if r.slot && (slotsMax s ≤ w.busy || (match w.last with
      | some l => decide (sinceT t l < stagger s)
      | none => false)) then some 0x11
  else none

/-- What serving or passing over a request leaves for those behind it. -/
def walkStep (s : State) (t : Time) (w : Walk) (r : Req) (c : Option Nat) : Walk :=
  match c with
  | none =>
    let need := (r.mw : Int) - grantMw s r.demand
    { w with base := w.base - need, lift := if r.acc then w.lift - need else w.lift,
             busy := if r.slot then w.busy + 1 else w.busy, last := if r.slot then some t else w.last }
  | some 0x10 => { w with blocked := true }
  | some _ => w

def walkList (s : State) (t : Time) (w : Walk) (l : List Req) : List (Req × Option Nat) × Walk :=
  l.foldl (fun (acc : List (Req × Option Nat) × Walk) r =>
    let c := causeOf s t acc.2 r
    (acc.1 ++ [(r, c)], walkStep s t acc.2 r c)) ([], w)

def nonElastic (s : State) : Nat := sumMw (s.bud.grants.filter (fun g => decide (g.demand ≠ .charger)))
def accGrants (s : State) : Nat := sumMw (s.bud.grants.filter (fun g => g.acc))

/-- One walk over the waiting requests: each with its cause, and the charger's grant at its place (R191 step 3): first
in its tier (notes/assumptions/13.md). -/
def walkAll (t : Time) (s : State) : List (Req × Option Nat) × Nat :=
  let floor := chgFloor s
  let w0 : Walk :=
    { base := usable s - (nonElastic s : Nat) - (floor : Nat), blocked := false,
      lift := (capLift s : Int) - (accGrants s : Nat),
      busy := (s.bud.slots.toList.filter (·.isSome)).length, last := s.bud.lastPulse }
  let l := inOrder s.bud.waiting
  let a := walkList s t w0 (l.filter (fun r => r.tier < chgTier s))
  let g := max floor (min (chgWant s) (a.2.base + floor).toNat)
  let b := walkList s t { a.2 with base := a.2.base + floor - g } (l.filter (fun r => chgTier s ≤ r.tier))
  (a.1 ++ b.1, g)

/-- OVER ends with the excess (R196). -/
def overEnds (s : State) : State :=
  modBud (fun b => { b with overCap := b.overCap && decide (usable s < (granted s : Int)) }) s

/-- The charger takes its grant (R191, R194) and its current follows; without a demand it shows none, or that its tier is
shed (R200). -/
def fitCharger (s : State) : State :=
  let g := (walkAll (now s) s).2
  let others := s.bud.grants.filter (fun x => decide (x.demand ≠ .charger))
  if charging s then
    retarget (overEnds (setBud .charger (if g < chgWant s then .throttled else .served)
      (modBud (fun b => { b with grants := others ++ [{ demand := .charger, tier := chgTier s, mw := g, acc := false, ends := none }] }) s)))
  else
    let st : BudState := if s.bud.chgState = .shed && tierShed s (chgTier s) then .shed else .none
    retarget (overEnds (setBud .charger st (modBud (fun b => { b with grants := others }) s)))

/-! ### Grants -/

/-- Lowest free pulse slot. -/
def freeSlot (s : State) : Option (Fin 6) := (fins 6).find? (fun i => s.bud.slots[i].isNone)

def takeSlot (n : Nat) (t : Time) (s : State) : State :=
  match freeSlot s, fin? 48 n with
  | some i, some n => modBud (fun b => { b with slots := b.slots.set i.val (some n) i.isLt, lastPulse := some t }) s
  | _, _ => s

def demandIx : Demand → Nat
  | .relay n => n
  | _ => 48

/-- The request is granted. -/
def serveReq (t : Time) (r : Req) (s : State) : State :=
  let g : Grant := { demand := r.demand, tier := r.tier, mw := r.mw, acc := r.acc,
                     ends := r.dur.map (fun d => t + BitVec.ofNat 48 d) }
  let s1 := modBud (fun b => { b with
      grants := b.grants.filter (fun x => decide (x.demand ≠ r.demand)) ++ [g],
      waiting := b.waiting.filter (fun x => decide (x ≠ r)) }) s
  fitCharger (setBud r.demand .served (if r.slot then takeSlot (demandIx r.demand) t s1 else s1))

/-- A demand ends: its grant and its pulse slot are free. -/
def release (d : Demand) (s : State) : State :=
  fitCharger (setBud d .none (modBud (fun b => { b with
    grants := b.grants.filter (fun x => decide (x.demand ≠ d)),
    slots := b.slots.map (fun x => match x with
      | some n => if decide (d = .relay n.val) then none else some n
      | none => none) }) s))

/-- A grant is lowered in place: what lowers a demand never waits (R190). -/
def lowerGrant (d : Demand) (tier mw : Nat) (s : State) : State :=
  fitCharger (setBud d .served (modBud (fun b => { b with
    grants := b.grants.map (fun x => if x.demand = d then { x with mw := mw, tier := tier } else x) }) s))

/-- A demand taken without waiting (R255 step 2): the grant stands whatever FREE is. -/
def forceGrant (d : Demand) (tier mw : Nat) (s : State) : State :=
  fitCharger (setBud d .served (modBud (fun b => { b with
    grants := b.grants.filter (fun x => decide (x.demand ≠ d)) ++
      [{ demand := d, tier := tier, mw := mw, acc := false, ends := none }] }) s))

/-- A demand's waiting requests leave the ledger. -/
def withdrawDemand (d : Demand) (s : State) : State := withdrawThose (fun r => decide (r.demand = d)) s

/-! ### A request arrives (R192) -/

/-- Grants of lower-numbered tiers; the elastic charger counts at its floor (notes/assumptions/14.md). -/
def lowerGrants (s : State) (r : Req) : Nat :=
  (s.bud.grants.filter (fun g => decide (g.tier < r.tier ∧ g.demand ≠ r.demand))).foldl (fun a g => match g.demand with
    | .charger => a + min g.mw (chgFloor s)
    | _ => a + g.mw) 0

/-- By how much the claim exceeds what the tier could ever have. -/
def exceeds (s : State) (r : Req) : Int := (r.mw : Int) - (usable s - (lowerGrants s r : Nat))

inductive Asked where
  | refused (short : Nat)
  | served
  | waits (cause : Nat)
  deriving DecidableEq, Repr

def addReq (r : Req) (s : State) : State := modBud (fun b => { b with waiting := b.waiting ++ [r] }) s

/-- What becomes of a request that arrives now. -/
def ask (s : State) (r : Req) : Asked :=
  if 0 < exceeds s r then .refused (exceeds s r).toNat
  else match (walkAll (now s) (addReq r s)).1.find? (fun x => decide (x.1 = r)) with
    | some (_, some c) => .waits c
    | _ => .served

def causeState (c : Nat) : BudState :=
  if c = 0x10 then .deferPower else if c = 0x11 then .deferSlot else if c = 0x12 then .deferOrder
  else if c = 0x13 then .shed else .deferSub

/-- A refusal counts in BUD_REFCNT and shows in BUD_LASTREF. -/
def noteRefusal (d : Demand) (short : Nat) (s : State) : State :=
  setBud d .refused (setReg 0x50A4 (at_ 0 (min short 0xFFFFFF)) (countReg 0x50A0 15 0 1 s))

/-- The request is put where `ask` says: granted, or waiting and counted as a deferral. -/
def place (r : Req) (a : Asked) (s : State) : State :=
  match a with
  | .refused n => noteRefusal r.demand n s
  | .served => serveReq (now s) r s
  | .waits c => fitCharger (setBud r.demand (causeState c) (countReg 0x50A0 31 16 1 (addReq r s)))

/-! ### The expected delay (R192): the ledger run forward over scheduled ends -/

/-- Everything that ends by `t` leaves the ledger. -/
def expire (t : Time) (s : State) : State :=
  let ended := s.bud.grants.filter (fun g => match g.ends with
    | some e => !laterT e t
    | none => false)
  ended.foldl (fun s g => release g.demand s) s

def serveAll (t : Time) (s : State) : State :=
  ((walkAll t s).1.filter (fun x => x.2.isNone)).foldl (fun s x => serveReq t x.1 s) s

/-- The nearest of the times after `t`. -/
def soonest (t : Time) (l : List Time) : Option Time :=
  (l.filter (fun e => laterT e t)).foldl (fun (a : Option Time) e => match a with
    | some b => if laterT b e then some e else some b
    | none => some e) none

def runForward (fuel : Nat) (t : Time) (r : Req) (s : State) : Option Time :=
  match fuel with
  | 0 => none
  | n + 1 =>
    let s1 := serveAll t (expire t s)
    if !s1.bud.waiting.contains r then some t
    else
      let ends := s1.bud.grants.filterMap (·.ends)
      let stag := match s1.bud.lastPulse with
        | some l => if s1.bud.waiting.any (·.slot) then [l + BitVec.ofNat 48 (stagger s1)] else []
        | none => []
      match soonest t (ends ++ stag) with
      | some e => runForward n e r s1
      | none => none

/-- RESULT of the interim completion: the expected delay in µs. -/
def expectedDelay (s : State) (r : Req) : DWord :=
  match runForward 512 (now s) r s with
  | some e => BitVec.ofNat 64 (sinceT e (now s))
  | none => 0xFFFFFFFFFFFFFFFF

/-! ### Requests of items -/

/-- An item's request: served it goes on with `k`; refused it completes; else it waits and its interim completion is
posted (R110, R192). -/
def itemAsks (a : Word) (r : Req) (k : State → State) (s : State) : State :=
  let ans := ask s r
  let s1 := place r ans s
  match ans with
  | .refused n => complete a .refusedBudget 0x10 (BitVec.ofNat 64 n) s1
  | .served => k s1
  | .waits c => interim a c (expectedDelay s1 r) (modItem a (fun i => { i with phase := .waiting }) s1)

end Sys2Proof.Machine
end

