-- ==== Sys2Proof/Machine/Stops.lean ====
section
/-! DEFINITION. How each object is turned off, whoever asks (08 to 13, 21): what ISOLATE, a shed, HUSH and BURROW
share. Nothing here raises a fault. -/

namespace Sys2Proof.Machine

/-! ### Causes (R349) -/

def setPresent (n d : Nat) (b : Bool) (s : State) : State :=
  match fin? 192 n with
  | some n => modSrc n (fun x => { x with present :=
      if b then x.present ||| BitVec.ofNat 16 (2 ^ (d - 1)) else x.present &&& ~~~(BitVec.ofNat 16 (2 ^ (d - 1))) }) s
  | none => s

/-- Cause `d` of source `n` is no longer present. -/
def endCause (n d : Nat) (s : State) : State := setPresent n d false s

def isPresent (s : State) (n d : Nat) : Bool := (causesOf s n).present.getLsbD (d - 1)

/-! ### Items that the hub originates (R352) -/

/-- The ACCEPT record of an item (R125). -/
def acceptRec (it : Item) : List Word :=
  mkRec 1 it.opcode.toNat it.flags.toNat it.ring it.tag it.handle (it.aseq :: it.ops.toList.take 8)

/-- A fresh item with the given identity. -/
def newItem (aseq : Word) (ring : BitVec 5) (op : Nat) (flags : Byte) (tag : DWord) (h : Word) (ops : Vector Word 10)
    (t : Time) : Item :=
  { aseq := aseq, ring := ring, opcode := BitVec.ofNat 8 op, flags := flags, tag := tag, handle := h, ops := ops,
    phase := .queued, startRec := false, interim := false, armOf := none, armed := false, toCq := none, bodySeen := 0, bodyFail := 0,
    redriven := false, began := t }

/-- The item is one that a later `op` on handle `h` supersedes. -/
def supersededBy (op : Nat) (h : Word) (i : Item) : Bool :=
  i.handle = h && !dormant i && supersedesOp op i.opcode.toNat

/-- The hub's own `op` on `h` supersedes what R106 lets it. -/
def supersedeOn (op : Nat) (h : Word) (s : State) : State :=
  (s.eng.items.filter (supersededBy op h)).foldl (fun t j => complete j.aseq .failed 0x01 0 (withdraw j.aseq t)) s

/-- The ACCEPT and START of an item of the hub's own whose ASEQ is the next. -/
def hubStart (it : Item) (s : State) : State :=
  commit (mkRec 3 it.opcode.toNat 0 0x1F 0 it.handle [it.aseq]) (commit (acceptRec it) s)

/-- ACCEPT, START and DONE of an item of the hub's own that has acted; the ASEQ they have. -/
def hubWritten (it : Item) (c : Comp) (s : State) : Word × State :=
  let s1 := makeWay 1 s
  let a := nextAseq s1
  (a, commit (doneRec 4 { c with aseq := a } 0xFFFFFFFF) (hubStart { it with aseq := a } s1))

/-- An item that the hub originates and carries out at once, with RING 0x1F and no completion (R352), and its ASEQ. Below 16
free slots its records wait and its effect does not (R139 says what needs a record waits; DESIGN CHOICE,
notes/assumptions/53.md). -/
def hubRecs (op : Nat) (h : Word) (ops : Vector Word 10) (s : State) : Word × State :=
  let it := newItem 0 0x1F op 0 0 h ops (now s)
  let c := compOf s it .done 0 0 h
  if mustWait s then (0, owe (.item it c) s) else hubWritten it c s

/-- The hub's own `op` on `h`, its operand in word 4. -/
def hubItem (op : Nat) (h : Word) (w4 : Word) (s : State) : State :=
  (hubRecs op h ((Vector.replicate 10 0).set 0 w4) (supersedeOn op h s)).2

/-- The RELAY record (R125). -/
def relayRec (n : Fin 48) (x : Relay) : List Word :=
  hubRec 0xB [at_ 0 n.val, flag 0 (x.target = some true) ||| flag 1 x.confirmed, x.targetAseq]

/-- A RELAY record: what the relay's target stands in from then on. -/
def writeRelay (n : Fin 48) (s : State) : State :=
  match s.relays[n] with
  | some x => modRelay n (fun y => { y with byStart := false }) (commit (relayRec n x) s)
  | none => s

/-- A RELAY record, at once or when FREE has risen (R139). -/
def commitRelay (n : Fin 48) (s : State) : State := if mustWait s then owe (.relay n) s else writeRelay n s

/-- A verdict whose detail the spec does not state: the detail is a free value (notes/assumptions/15.md). -/
def completeFree (a : Option Word) (v : Verdict) (s : State) : State :=
  match a with
  | some a => let d := drawNat s; complete a v d.1 0 d.2
  | none => s

/-! ### Rails (R168, R178) -/

def railHandle (s : State) (r : Fin 48) : Word := handleOf s 1 r.val

/-- Power-good changes: RAIL_PGTIME and the event (R178). -/
def setPg (r : Fin 48) (b : Bool) (s : State) : State :=
  match s.rails[r] with
  | some x => if x.pg = b then s else
      event 0x0510 (railHandle s r) r.val (if b then 1 else 0) 0
        (setReg (0x4000 + r.val * 0x40 + 0x3C) (timeLo (now s)) (modRail r (fun x => { x with pg := b }) s))
  | none => s

def modLanes (ns : List (Fin 48)) (f : Lane → Lane) (s : State) : State := ns.foldl (fun t n => modLane n f t) s

/-- A lane that does not switch has no reference, no measurement under way, and shows nothing of its last period. -/
def laneQuiet (l : Lane) : Lane :=
  { l with ref := 0, slewHeld := false, dropout := false, limiting := false, fall := 0, meas := none, moving := none, sink := false }

/-- A lane turns off; STOPPED and ABSENT are left only as R157 and R159 say. -/
def laneOff (l : Lane) : Lane :=
  if l.state = .stopped || l.state = .absent then laneQuiet l else { laneQuiet l with state := .off }

def laneFree (l : Lane) : Lane := { laneOff l with rail := none, pos := 0, share := 0, leaving := false }

/-- Lanes bound to a rail. -/
def boundTo (s : State) (r : Fin 48) : List (Fin 48) := (fins 48).filter (fun n => s.lanes[n].rail = some r)

/-- Interleave positions in ascending lane number (R163), full share. -/
def placeLanes (r : Fin 48) (members : List (Fin 48)) (s : State) : State :=
  (members.zipIdx).foldl (fun t e => modLane e.1 (fun l =>
    { l with rail := some r, pos := e.2, share := 64, leaving := false, moving := none }) t) s

/-- The rail that a graph node names now, none where its handle fails (R105, R187). -/
def nodeRail (s : State) (nd : Node) : Option (Fin 48) :=
  match fin? 48 (hSlot nd.rail) with
  | some r =>
    if hClass nd.rail = 1 && (hGen nd.rail = 0 || hGen nd.rail = (genOf s r.val).toNat) && (s.rails[r]).isSome then some r
    else none
  | none => none

def nodeAt (g : Graph) (i : Nat) : Node :=
  g.nodes.getD i { wait := true, tmo := 0, vtarget := 0, rail := 0, pred := 0, upDelay := 0, downDelay := 0 }

/-- Upward nodes in progress on rail `r` fail (R185). -/
def failNodes (r : Fin 48) (s : State) : State :=
  (fins 16).foldl (fun t k => match t.graphs[k] with
    | some g =>
      if g.state = .runUp && !g.unwinding then
        let hit := bitsOf 32 (fun i => bit g.active i && !(nodeAt g i).wait && decide (nodeRail t (nodeAt g i) = some r))
        if hit = 0 then t
        else withdrawThose (fun q => match q.who with
            | .node g' i => decide (g' = k.val) && nbit hit i
            | _ => false)
          (modGraph k (fun x => { x with active := x.active &&& ~~~(at_ 0 hit), failed := x.failed ||| at_ 0 hit }) t)
      else t
    | none => t) s

/-- RAIL_VOUT. -/
def railVout (s : State) (r : Fin 48) : Word := live s (0x4000 + r.val * 0x40 + 0x28) &&& 0x3FFF3FFF
/-- RESULT [15:0] holds RAIL_VOUT (R167). -/
def voutResult (s : State) (r : Fin 48) : DWord := dword (at_ 0 (fld (railVout s r) 13 0)) 0
/-- RAIL_ENABLE's RESULT (R164): the output in mV and the time from start in 100 µs steps. -/
def enableResult (s : State) (x : Rail) (mv : Nat) : DWord :=
  dword (at_ 0 (mv % 65536) ||| at_ 16 (min 0xFFFF (sinceT (now s) x.startTime / 100))) 0

/-- The item of an opcode in progress on a handle. -/
def onHandle (s : State) (h : Word) (op : Nat) : Option Word :=
  (s.eng.items.find? (fun i => i.handle = h && i.opcode.toNat = op && begun i)).map (·.aseq)

/-- Items in progress on a handle. -/
def workOn (s : State) (h : Word) : List Word := (s.eng.items.filter (fun i => i.handle = h && begun i)).map (·.aseq)

/-- The limits of RAIL_LIMITS (R180): words 9, 10 and 11, and TIER where it is applied. -/
def setLimits (it : Item) (x : Rail) : Rail :=
  { x with w9 := opv it 4, w10 := opv it 5 &&& 0xFFFFFF, w11 := opv it 6 &&& 0xFFFFFF,
           w7 := if bit (opv it 7) 8 then setFld x.w7 25 24 (fld (opv it 7) 1 0) else x.w7 }

/-- A rail has gone OFF: what only waited for it is done. RAIL_SET_V and RAIL_LIMITS are stored, as on a rail that is
OFF (R167, R180); RAIL_GANG is bound (R169); RAIL_DISABLE has come to its end (R168). -/
def settleRail (r : Fin 48) (s : State) : State :=
  (workOn s (railHandle s r)).foldl (fun t a => match findItem t a with
    | some it =>
      if it.opcode = 0x10 then complete a .done 0 (voutResult t r) t
      else if it.opcode = 0x12 || it.opcode = 0x13 then complete a .done 0 0 t
      else if it.opcode = 0x14 && it.phase ≠ .waiting then complete a .done 0 0 (modRail r (setLimits it) t)
      else t
    | none => t) s

/-- Every member turns off; the rail goes to `st`; its grant ends once it is OFF (R190). -/
def railDown (r : Fin 48) (st : RailState) (s : State) : State :=
  match s.rails[r] with
  | none => s
  | some x =>
    let s1 := modLanes (boundTo s r) laneOff s
    let s2 := modLanes ((boundTo s r).filter (fun n => s.lanes[n].leaving)) laneFree s1
    let s3 := placeLanes r x.members s2
    let s4 := modRail r (fun x => { x with state := st, rsActive := false, slewing := false, ganging := false, shedMask := 0, limitAt := none }) s3
    let s5 := setPg r false (if st = .off then release (.rail r.val) s4 else s4)
    if st = .off then settleRail r s5 else s5

/-- A waiting request of RAIL_LIMITS, which no RAIL_DISABLE supersedes (R106). -/
def limitsReq (s : State) (q : Req) : Bool := match q.who with
  | .item a => itemAt s a (fun i => i.opcode = 0x14)
  | _ => false

/-- What waits to start rail `r` leaves the ledger: its RAIL_ENABLE and the nodes on it (R168, R193). -/
def withdrawStarts (r : Fin 48) (s : State) : State :=
  withdrawThose (fun q => decide (q.demand = .rail r.val) && !limitsReq s q) s

/-- RAIL_DISABLE without SOFT, originated by the hub (R181, R352); upward nodes in progress on the rail fail (R185). -/
def railIsolate (r : Fin 48) (s : State) : State :=
  match s.rails[r] with
  | none => s
  | some x =>
    let s1 := withdrawStarts r (hubItem 0x12 (railHandle s r) 0 s)
    if x.state = .faulted || x.state = .off then s1 else failNodes r (railDown r .off s1)

/-- A rail of a shed tier: disabled, and shows SHED; a waiting request stays waiting (R197). -/
def railShed (r : Fin 48) (s : State) : State :=
  match s.rails[r] with
  | none => s
  | some x =>
    let s1 := if x.state = .off || x.state = .pending || x.state = .faulted then s
      else failNodes r (railDown r .off (hubItem 0x12 (railHandle s r) 0 s))
    setBud (.rail r.val) .shed s1

/-! ### The charger, Lend and Lift (R203, R207, R224, R227) -/

/-- PRE_V in mV per cell (R202). -/
def preV (s : State) : Nat := if liIon s then 3000 else 2800
/-- The undervoltage and the overvoltage level of the battery, in mV (R202). -/
def uvMv (s : State) : Nat := if liIon s then 9000 else 10000
def ovMv (s : State) : Nat := if liIon s then 13200 else 14800

/-- The voltage tests of R203. -/
def chgEntry (s : State) : ChgState :=
  if perCell s < preV s then .precharge
  else if cells s * rfld s 0x540C 12 0 ≤ s.chg.batsns then .cv else .cc

/-- The charger changes state: event, INT_N sources, its grant (R203, R228). -/
def setChg (st : ChgState) (s : State) : State :=
  if s.chg.state = st then fitCharger s
  else
    let keep := st = .cc || st = .cv
    let s1 := modChg (fun c => { c with
      state := st, adapted := if keep then c.adapted else none, leashHit := keep && c.leashHit,
      stopped := c.stopped || st = .fault,
      safety := if st = .cc && (c.state = .done || c.state = .off || c.state = .fault) then 0 else c.safety,
      preTime := if st = .precharge then 0 else c.preTime }) s
    let s2 := orReg 0x54C0 (if st = .done then 6 else 2) s1
    fitCharger (setBud .charger (if st = .paused && tierShed s (chgTier s) then .shed else s2.bud.chgState)
      (event 0x0701 0 st.code 0 0 s2))

/-- Where the charger stands now, supply and pause causes considered (R203, R207). -/
def chgNow (s : State) : ChgState :=
  match s.chg.state with
  | .startup => .startup
  | .disabled => .disabled
  | st =>
    if lendRuns s then .lend
    else if !s.pwr.acinValid then .off
    else if s.chg.stopped then .fault
    else if !s.pwr.acgate || hot s then .off
    else if pauseBits s ≠ 0 then .paused
    else if st = .precharge || st = .cc || st = .cv || st = .done then st
    else chgEntry s

def chgUpdate (s : State) : State := setChg (chgNow s) s

/-- Lend stops with detail `d` (R224). -/
def lendOff (d : Nat) (s : State) : State :=
  if s.chg.lend = .off then s
  else
    let s1 := modChg (fun c => { c with lend := .off, lendStop := BitVec.ofNat 8 d })
      (modPwr (fun p => { p with ptng := false, acgate := p.acgate || p.pstate = .full }) s)
    let s2 := release .lend s1
    chgUpdate (event 0x0706 0 0 d 0 (orReg 0x54C0 0x80 s2))

/-- Lift stops; CAP_LIFT becomes 0 (R226, R227). -/
def liftOff (d : Nat) (s : State) : State :=
  if s.chg.lift = .off then s
  else
    let s1 := modChg (fun c => { c with lift := .off, liftStop := BitVec.ofNat 8 d }) s
    event 0x0707 0 0 d 0 (orReg 0x54C0 0x100 (release .lift s1))

/-- The item of an opcode in progress, if there is one. -/
def inProgress (s : State) (op : Nat) : Option Word :=
  (s.eng.items.find? (fun i => i.opcode.toNat = op && begun i)).map (·.aseq)

/-- Lend stops for a cause other than a command: a LEND_SET in progress ends with it, but one that waits in a tier that is
shed stays waiting (R197). -/
def lendAbort (d : Nat) (s : State) : State :=
  if s.chg.lend = .running && d = 2 then lendOff d s
  else completeFree (inProgress s 0x41) .failed (lendOff d (withdrawDemand .lend s))

def liftAbort (d : Nat) (s : State) : State :=
  completeFree (inProgress s 0x42) .failed (liftOff d (withdrawDemand .lift s))

/-- Lift stops; LIFT_STOP's DETAIL is a free value. -/
def liftOffFree (s : State) : State := if s.chg.lift = .off then s else let d := drawNat s; liftOff d.1 d.2

/-- Lift stops for a cause that has no detail of its own: LIFT_STOP's DETAIL is a free value. -/
def liftAbortFree (s : State) : State :=
  if s.chg.lift = .off then s else let d := drawNat s; liftAbort d.1 d.2

/-! ### Relays, motors, fans (R234, R240, R246, R256, R258) -/

def relayHandle (s : State) (n : Fin 48) : Word := handleOf s 2 n.val
def motorHandle (s : State) (m : Fin 2) : Word := handleOf s 3 m.val
def fanHandle (s : State) (f : Fin 4) : Word := handleOf s 4 f.val

/-- RLY_LAND and the RESULT of R234. -/
def landWord (code landing peak : Nat) : Word := at_ 0 (code % 256) ||| at_ 8 (landing % 256) ||| at_ 16 (peak % 65536)

/-- Latched causes of a relay count as present while a pulse runs (R234; notes/assumptions/16.md). -/
def relayPresent (n : Fin 48) (running : Bool) (s : State) : State :=
  modSrc ⟨96 + n.val, by omega⟩ (fun x => { x with present := if running then x.latched else 0 }) s

/-- FC or WM blanking word `w` names an edge of relay `n`'s pulse: 0 start, 1 end (R280). -/
def blanksOn (w : Word) (n edge : Nat) : Bool :=
  fld w 1 0 = 2 && fld w 7 2 = n && nbit (fld w 9 8) edge && fld w 17 10 ≠ 0

/-- An edge of a relay pulse opens the blanking windows that name it (R280). -/
def blankRelay (n edge : Nat) (s : State) : State :=
  { s with cmp := { s.cmp with
      wms := Vector.ofFn fun (k : Fin 64) => if blanksOn (reg s (0x7080 + k.val * 0x18 + 8)) n edge
        then { s.cmp.wms[k] with blanked := true } else s.cmp.wms[k],
      fcs := Vector.ofFn fun (i : Fin 16) => if blanksOn (reg s (0x7680 + i.val * 0x10 + 8)) n edge
        then { s.cmp.fcs[i] with blanked := true } else s.cmp.fcs[i] } }

/-- A pulse's outcome is judged: RLY_LAND, counts, event, slot free (R234, R235). -/
def relayJudged (n : Fin 48) (code landing peak : Nat) (s : State) : State :=
  let o := 0x5840 + n.val * 0x18
  let s1 := setReg (o + 0x10) (landWord code landing peak) (relayPresent n false (blankRelay n.val 1 s))
  let s2 := if code ≤ 1 then s1 else countReg (o + 0x14) 31 16 1 s1
  event 0x0801 (relayHandle s n) n.val code 0 (release (.relay n.val) (modRelay n (fun x => { x with limiting := 1500 ≤ peak }) s2))

/-- Verdict and detail of an outcome (R234). -/
def landVerdict (code : Nat) : Verdict × Nat :=
  match code with
  | 0 => (.done, 0) | 1 => (.done, 0x11) | 2 => (.failedIndeterminate, 0x12) | 3 => (.failed, 0x13)
  | 4 => (.failed, 0x14) | _ => (.failedIndeterminate, 0x15)

/-- The relay's item, if there is one, completes with the last outcome. -/
def relayVerdict (n : Fin 48) (st : RelayState) (s : State) : State :=
  match s.relays[n] with
  | none => s
  | some x =>
    let w := reg s (0x5840 + n.val * 0x18 + 0x10)
    let v := landVerdict (fld w 7 0)
    let s1 := modRelay n (fun r => { r with state := st, item := none, left := 0 }) s
    match x.item with
    | some a => completeBehind a v.1 v.2 (w.setWidth 64) s1
    | none => s1

/-- A pulse ends with an outcome: NO_MOVE and CUT retry while pulses are left; anything else ends the item. -/
def relayEnd (n : Fin 48) (code landing peak : Nat) (s : State) : State :=
  match s.relays[n] with
  | none => s
  | some x =>
    let s1 := relayJudged n code landing peak s
    if (code = 2 || code = 5) && 0 < x.left then modRelay n (fun r => { r with state := .retryGap, left := r.left - 1 }) s1
    else relayVerdict n (if code = 3 || code = 4 then .faulted else .idle) s1

/-- A pulse that ends as CUT before its landing and its peak are known: both are free. -/
def relayCut (n : Fin 48) (s : State) : State :=
  let a := drawNat s
  let b := drawNat a.2
  relayEnd n 5 a.1 b.1 b.2

/-- The motor brakes; its grant lasts until it has stopped. -/
def motorBrake (m : Fin 2) (e : BrakeEnd) (s : State) : State :=
  modMotor m (fun x => { x with state := .braking, brake := e, coasted := false }) s

def motorDrives (x : Motor) : Bool := x.state = .homing || x.state = .moving

/-- Homing ends without success: the position is UNKNOWN. -/
def loses (x : Motor) : Bool := x.state = .homing || (x.state = .braking && match x.brake with
  | .homeStep _ => true
  | .homed => true
  | _ => false)

/-- The channel stops for good: the grant ends. -/
def motorRest (m : Fin 2) (st : MotorState) (s : State) : State :=
  release (.motor m.val) (modMotor m (fun x => { x with state := st, brake := .none, item := none }) s)

/-- The motor's item ends now with a failure; the channel brakes (R239 to R247). -/
def motorFail (m : Fin 2) (d : Nat) (lose : Bool) (s : State) : State :=
  match s.motors[m] with
  | none => s
  | some x =>
    let s1 := withdrawDemand (.motor m.val) s
    let s2 := if motorDrives x then release (.motor m.val) (motorBrake m .stopped s1)
      else if x.state = .braking then
        release (.motor m.val) (modMotor m (fun y => { y with brake := if y.brake = .faulted then .faulted else .stopped }) s1)
      else if x.state = .pending then motorRest m .idle s1 else s1
    let s3 := modMotor m (fun y => { y with item := none, posValid := y.posValid && !lose, homed := y.homed && !lose }) s2
    completeOpt x.item .failed d 0 s3

/-- The BURROW shutdown and a Shake stop every channel; the items end FAILED 0x19 (R240). -/
def motorsSystem (s : State) : State :=
  (fins 2).foldl (fun t m => match t.motors[m] with
    | some x => if motorDrives x || x.state = .braking || x.state = .pending then motorRest m .idle (motorFail m 0x19 (loses x) t) else t
    | none => t) s

/-- The output turns off; the host target stays (R256, R258). -/
def fanDown (f : Fin 4) (st : FanState) (s : State) : State :=
  release (.fan f.val) (modFan f (fun x => { x with state := st, out := 0, demand := 0, ramping := false, settled := 0,
                                                     held := false, bandMoved := false, dropout := false }) s)

/-- The output turns off and the fan is FAULTED; an item under way fails (R256). -/
def fanFails (f : Fin 4) (s : State) : State :=
  match s.fans[f] with
  | some x =>
    let s1 := modFan f (fun y => { y with item := none }) (fanDown f .faulted s)
    completeFree x.item .failed s1
  | none => s

/-- What a fan of a shed tier does (R258). -/
def fanShed (f : Fin 4) (s : State) : State :=
  match s.fans[f] with
  | some x => setBud (.fan f.val) .shed (if x.state = .faulted then s else fanDown f .shed s)
  | none => s

/-! ### Lanes (R155) -/

/-- A lane enters STOPPED. -/
def laneStop (n : Fin 48) (s : State) : State :=
  modLane n (fun l => if l.state = .absent then l else { laneQuiet l with state := .stopped }) s

/-! ### Ports (R326, 19) -/

/-- The port releases its pull-up. -/
def usbRelease (s : State) : State :=
  if s.usb.attached then
    event 0x0F01 0 0 0 0 (sofStops (modUsb (fun u =>
      { u with attached := false, address := 0, configured := false, halted := [], suspended := false, reply := none }) s))
  else s

end Sys2Proof.Machine
end

