-- ==== Sys2Proof/Machine/FanOps.lean ====
section
/-! DEFINITION. The fan rules that FAN_SET, thermal floors, sheds and the leash share (13): the band rule (R254), the
claim, and how a target in force is served (R252, R257, R258). -/

namespace Sys2Proof.Machine

/-- An arrival at the edge of quantity `q` (R365, R366). -/
def leashEdge (q : Nat) (handle : Word) (detail : Nat) (value : DWord) (s : State) : State :=
  event 0x1201 handle q detail value (countReg (0x9640 + 4 * q) 15 0 1 s)

def fanClaimFull (x : Fan) : Nat := fld (nth x.p 0 0) 23 0
def fanTier (x : Fan) : Nat := fld (nth x.p 0 0) 25 24
/-- RAMP in 0.1 mV per 10 ms update. -/
def fanRamp (x : Fan) : Nat := orElse0 (fld (nth x.p 1 0) 9 0) 100
def fanBlindMv (x : Fan) : Nat := orElse0 (fld (nth x.p 1 0) 29 16) 13000
def fanTach (x : Fan) : Bool := bit (nth x.p 2 0) 8
def fanBand (x : Fan) (b : Nat) : Word := nth x.p (3 + b) 0
def bandLo (w : Word) : Nat := fld w 13 0
def bandHi (w : Word) : Nat := fld w 29 16
def bandOn (w : Word) : Bool := bit w 31
def fanRpmFull (x : Fan) : Nat := fld (nth x.p 7 0) 15 0

/-- The leash lets band `b` of fan `f` apply. -/
def bandLeashed (s : State) (f : Fin 4) (b : Nat) : Bool := rbit s 0x9610 (4 * f.val + b)

/-- Bands that apply, and enabled bands that the leash leaves out. -/
def bandsThat (s : State) (f : Fin 4) (x : Fan) (leash : Bool) : List (Nat × Word) :=
  ((List.range 4).map (fun b => (b, fanBand x b))).filter (fun e => bandOn e.2 && bandLeashed s f e.1 == leash)

def inBand (v : Nat) (w : Word) : Bool := bandLo w < v && v < bandHi w

/-- The applying band that holds `v`. -/
def bandOf (s : State) (f : Fin 4) (x : Fan) (v : Nat) : Option Word :=
  ((bandsThat s f x true).find? (fun e => inBand v e.2)).map (·.2)

/-- The edge of band `w`, the upper one where `up`. One outside the output's limits cannot be taken: the other is, or else
`v` stands (R250; DESIGN CHOICE, notes/assumptions/94.md). -/
def bandEdge (v : Nat) (w : Word) (up : Bool) : Nat :=
  let lo := decide (2500 ≤ bandLo w)
  let hi := decide (bandHi w ≤ 13000)
  if hi && (up || !lo) then bandHi w else if lo then bandLo w else v

/-- A thermal floor decides the target in force (R254). -/
def floorDecides (s : State) (f : Fin 4) (x : Fan) : Bool := x.target < fanFloor s f.val x.speed

/-- The target after the band rule, and whether it was moved (R254). -/
def bandTarget (s : State) (f : Fin 4) (x : Fan) (t : Nat) : Nat × Bool :=
  match bandOf s f x t with
  | some w => (bandEdge t w (floorDecides s f x || bandHi w - t ≤ t - bandLo w), true)
  | none => (t, false)

/-- The most the output can be, in mV: FANPV less 0.5 V, from its first reading on (R250). -/
def fanTop (x : Fan) : Nat := if x.fanpv = 0 then 13000 else min 13000 (x.fanpv - 500)

/-- What a fan steps to from OFF, in 0.1 mV (R253). -/
def fanStep (x : Fan) : Nat := min 25000 (10 * fanTop x)

/-- The fan's claim at target `t`, rounded up. -/
def fanClaim (s : State) (f : Fin 4) (x : Fan) (t : Nat) : Nat :=
  let full := if x.speed then max 1 (fanRpmFull x) else 13000
  let t' := if x.speed then t else (bandTarget s f x t).1
  (fanClaimFull x * t' + full - 1) / full

/-- LEASH_HIT: a target in an enabled band outside the leash runs as it stands, and each arrival is posted. -/
def fanLeash (f : Fin 4) (s : State) : State :=
  match s.fans[f] with
  | none => s
  | some x =>
    let v := if x.runSpeed then x.demand else x.run
    match (bandsThat s f x false).find? (fun e => inBand v e.2) with
    | some e => if x.leashHit then s
                else leashEdge 4 (fanHandle s f) e.1 (BitVec.ofNat 64 v) (modFan f (fun y => { y with leashHit := true }) s)
    | none => modFan f (fun y => { y with leashHit := false }) s

/-- The budget serves target `t`: an OFF fan starts through SPINUP, stepping to 2,500 mV (R253). -/
def fanStart (f : Fin 4) (t : Nat) (s : State) : State :=
  fanLeash f (modFan f (fun x =>
    if x.state = .off || x.state = .shed || x.state = .faulted then
      { x with run := t, runSpeed := x.speed, state := .spinup, out := fanStep x, demand := 2500, ramping := true, settled := 0 }
    else { x with run := t, runSpeed := x.speed, demand := if x.runSpeed then x.demand else x.out / 10, ramping := true, settled := 0 }) s)

/-- The fan's own request leaves the ledger; a FAN_SET that waits stays. -/
def withdrawFan (f : Fin 4) (s : State) : State :=
  withdrawThose (fun q => decide (q.who = .fan f.val)) s

/-- RESULT of FAN_SET (R257). -/
def fanResult (x : Fan) : DWord := dword (at_ 0 (x.out / 10 % 65536) ||| at_ 16 (x.rpm % 65536)) 0

/-- The item that sets a fan has come to its end. -/
def fanItemDone (f : Fin 4) (detail : Nat) (s : State) : State :=
  match s.fans[f] with
  | some x => completeOpt x.item .done detail (fanResult x) (modFan f (fun y => { y with item := none, settled := 0 }) s)
  | none => s

/-- The fan's tier is shed, and the fan with it (R258). -/
def fanIsShed (s : State) (x : Fan) : Bool := tierShed s (fanTier x)

/-- The target in force is 0: the output is off, and an item under way has reached its target. -/
def fanOff (f : Fin 4) (s : State) : State :=
  let st : FanState := match s.fans[f] with
    | some x => if x.state = .shed && fanIsShed s x then .shed else .off
    | none => .off
  fanItemDone f 0 (fanDown f st (withdrawFan f (modFan f (fun x => { x with run := 0, leashHit := false }) s)))

def fanReq (s : State) (f : Fin 4) (x : Fan) (who : Waiter) (a : Word) (mw : Nat) : Req :=
  { who := who, aseq := a, demand := .fan f.val, tier := fanTier x, mw := mw, acc := false, slot := false, dur := none,
    since := now s }

/-- The target in force changes for a cause other than FAN_SET: a floor, the end of a shed, a FAULT_CLEAR, HUSH
(R252, R256, R258). -/
def fanApply (f : Fin 4) (s : State) : State :=
  match s.fans[f] with
  | none => s
  | some x =>
    if x.state = .blind || x.held then s
    else
      let t := fanTarget s f x
      if t = 0 then (if x.state = .faulted then s else if x.state = .off then withdrawFan f s else fanOff f s)
      else
        let mw := fanClaim s f x t
        let s1 := withdrawFan f s
        if mw ≤ grantMw s (.fan f.val) && !fanIsShed s x then fanStart f t (lowerGrant (.fan f.val) (fanTier x) mw s1)
        else
          let r := fanReq s f x (.fan f.val) (nextAseq s) mw
          let ans := ask s1 r
          let s2 := place r ans s1
          if ans = .served then fanStart f t s2 else s2

/-- Every fan that is not held off by a fault looks at its target again. -/
def fansApply (s : State) : State :=
  (fins 4).foldl (fun t f => match t.fans[f] with
    | some x => if x.state = .faulted then t else fanApply f t
    | none => t) s

end Sys2Proof.Machine
end

