-- ==== Sys2Proof/Machine/Shed.lean ====
section
/-! DEFINITION. Shedding and restoring tiers (R196 to R199). -/

namespace Sys2Proof.Machine

/-- Vector 19 goes with each SHED, UNSHED and BUDGET_OVER (R199). -/
def budEvent (code : BitVec 16) (index detail : Nat) (value : DWord) (s : State) : State :=
  sendVector 19 (event code 0 index detail value s)

def railOfTier (s : State) (t : Nat) : List (Fin 48) :=
  (fins 48).filter fun r => match s.rails[r] with
    | some x => x.tier = t
    | none => false

def fanOfTier (s : State) (t : Nat) : List (Fin 4) :=
  (fins 4).filter fun f => match s.fans[f] with
    | some x => fanTier x = t
    | none => false

/-- Grants of a tier that a shed releases; a FAULTED rail keeps its own until it is OFF (R190). -/
def shedGrants (s : State) (t : Nat) : List Grant :=
  s.bud.grants.filter fun g => decide (g.tier = t) && match g.demand with
    | .rail r => (match railAt s r with
      | some x => decide (x.state ≠ .faulted)
      | none => true)
    | .fan _ | .charger | .lend => true
    | _ => false

/-- The claims of a tier: the charger's is its request (R190). -/
def tierClaims (s : State) (t : Nat) : Nat :=
  (shedGrants s t).foldl (fun a g => a + (if g.demand = .charger then chgWant s else g.mw)) 0

/-- What shedding tier `t` does once a cause holds it shed (R197): 1 CAPACITY, 2 FORCED, 3 FAULT, 4 THERMAL. -/
def shedTier (t cause : Nat) (s : State) : State :=
  if t = 0 then s
  else
    let mw := sumMw (shedGrants s t)
    let s1 := (railOfTier s t).foldl (fun u r => railShed r u) s
    let s2 := if chgTier s = t then chgUpdate s1 else s1
    let s3 := if lendTier s = t && lendRuns s2 then setBud .lend .shed (lendAbort 2 s2) else s2
    let s4 := (fanOfTier s t).foldl (fun u f => fanShed f u) s3
    let s5 := (s4.bud.waiting.filter (fun r => r.tier = t)).foldl (fun u r => setBud r.demand .shed u) s4
    budEvent 0x0601 t cause (BitVec.ofNat 64 mw) (countReg (0x504C + 0x10 * t) 15 0 1 s5)

/-- Tier in the leash's auto-shed set. -/
def autoShedSet (s : State) (t : Nat) : Bool := t ≠ 0 && rbit s 0x9614 t

/-- R196 step 2: the highest tier of the set that holds grants and is not shed yet. -/
def shedNext (s : State) : Option Nat :=
  [3, 2, 1].find? (fun t => autoShedSet s t && !tierShed s t && s.bud.grants.any (fun g => g.tier = t))

/-- R196: lowers the charger, sheds, else OVER. -/
def arbitrateN (fuel : Nat) (s : State) : State :=
  let s1 := fitCharger s
  let excess := (granted s1 : Int) - usable s1
  if excess ≤ 0 then modBud (fun b => { b with overCap := false }) s1
  else
    match fuel, shedNext s1 with
    | n + 1, some t =>
      let claims := tierClaims s1 t
      arbitrateN n (shedTier t 1 (modBud (fun b => { b with
        shedCap := b.shedCap ||| BitVec.ofNat 4 (2 ^ t), shedSum := b.shedSum.setIfInBounds t claims }) s1))
    | _, _ =>
      if s1.bud.overCap then s1
      else budEvent 0x0603 0 0 (BitVec.ofInt 64 excess)
        (countReg 0x9654 15 0 1 (modBud (fun b => { b with overCap := true }) s1))

/-- The capacity or the grants have changed (R191, R196). -/
def arbitrate (s : State) : State := arbitrateN 4 s

/-- A cause that held tier `t` shed is gone: if none is left the tier is restored (R199). -/
def restoreTier (t : Nat) (s : State) : State :=
  if t = 0 || tierShed s t then s
  else
    let s1 := budEvent 0x0602 t 0 0 s
    let s2 := if chgTier s = t then chgUpdate s1 else s1
    arbitrate ((fanOfTier s t).foldl (fun u f => match u.fans[f] with
      | some x => if x.state = .shed then fanApply f u else u
      | none => u) s2)

/-- Tiers shed by a cause that `before` did not know are shed now, and those no longer held are restored: what a change
of fault reactions, rules or FORCE brings about. -/
def shedChange (before : Nat → Bool) (cause : Nat) (newly : Nat → Bool) (s : State) : State :=
  [3, 2, 1].foldl (fun u t => if newly t then shedTier t cause u else if before t then restoreTier t u else u) s

end Sys2Proof.Machine
end

