-- ==== Sys2Proof/Machine/Arms.lean ====
section
/-! DEFINITION. Armed work: how a slot fires and how its BODY items enter their queues (R140, R141). -/

namespace Sys2Proof.Machine

def bodiesOf (s : State) (arm : Word) : List Word := (s.eng.items.filter (fun i => i.armOf = some arm)).map (·.aseq)

/-- A fired BODY item enters at the tail of its queue (R103), also where 16 items stand there: R104 lets the 17th wait in its SQ,
which a BODY item has left (DESIGN CHOICE, notes/assumptions/59.md). -/
def enterTail (a : Word) (s : State) : State :=
  modEng (fun e => { e with line := e.line.filter (fun b => b ≠ a) ++ [a] })
    (modItem a (fun i => { i with phase := .queued, armed := true }) s)

def setArmed (k : Fin 64) (x : Option ArmedSlot) (s : State) : State :=
  modEng (fun e => { e with armed := e.armed.set k.val x k.isLt }) s

/-- The BODY items of a fired slot enter their queues, in body order. -/
def releaseBodies (k : Fin 64) (x : ArmedSlot) (s : State) : State :=
  (bodiesOf s x.aseq).foldl (fun t a => enterTail a t) (setArmed k (some { x with due := none }) s)

def fireRec (k : Fin 64) (x : ArmedSlot) (t : Time) : List Word :=
  mkRec 7 0 0 0x1F 0 x.handle [at_ 0 k.val, at_ 0 x.trigger.toNat, timeLo t, timeHi t]

/-- Slot `k` fires at trigger time `t`: FIRE commits before any BODY item begins (R141 rule 2), and ARM_FIRED is posted;
below 16 free slots the record waits (R139). -/
def fireSlot (k : Fin 64) (t : Time) (s : State) : State :=
  match s.eng.armed[k] with
  | none => s
  | some x =>
    if x.fired then s
    else if reserveLow s && !dead s then setArmed k (some { x with due := some t }) s -- R139
    else
      let s1 := event 0x0404 x.handle x.trigger.toNat 0 0 (commit (fireRec k x t) s)
      let y := { x with fired := true, due := some t }
      if x.delay = 0 then releaseBodies k y s1
      else (bodiesOf s x.aseq).foldl (fun u a => modItem a (fun i => { i with phase := .delay, armed := true }) u) (setArmed k (some y) s1)

/-- Armed slots in the ASEQ order of their ARMs. -/
def slotsInOrder (s : State) : List (Fin 64) :=
  let ageOf := fun (k : Fin 64) => match s.eng.armed[k] with
    | some x => (s.jnl.head - x.aseq).toNat
    | none => 0
  sortBy (fun a b => decide (ageOf b ≤ ageOf a)) ((fins 64).filter (fun k => (s.eng.armed[k]).isSome))

/-- Triggers are watched: not in BURROW, not while the Den domain is down, not before RUN entry (R141 rule 6). -/
def watched (s : State) : Bool := s.den.up && s.pwr.pstate ≠ .burrow && !s.pwr.firstRun

/-- One trigger event: every slot it meets fires, in the ASEQ order of their ARMs (R141 rule 3). -/
def fireAll (p : ArmedSlot → Bool) (t : Time) (s : State) : State :=
  if !watched s then s
  else (slotsInOrder s).foldl (fun u k => match s.eng.armed[k] with
    | some x => if !x.fired && x.due.isNone && p x then fireSlot k t u else u
    | none => u) s

def fireOutage (s : State) : State := fireAll (fun x => x.trigger = 1) (now s) s
def fireRestore (s : State) : State := fireAll (fun x => x.trigger = 2) (now s) s
def fireTamper (i : Nat) (s : State) : State := fireAll (fun x => x.trigger = 3 && bit x.cond i && i < 8) (now s) s
/-- EDGE 0b01 leaving, 0b10 returning, 0b11 either. -/
def fireWindow (k : Nat) (leaving : Bool) (s : State) : State :=
  fireAll (fun x => x.trigger = 5 && fld x.cond 5 0 = k && bit x.cond (if leaving then 8 else 9)) (now s) s
def fireOwl (o : Nat) (s : State) : State := fireAll (fun x => x.trigger = 6 && fld x.cond 0 0 = o) (now s) s

/-- FIRE records that waited for room are written once FREE allows (R139). -/
def retryFires (s : State) : State :=
  (slotsInOrder s).foldl (fun u k => match u.eng.armed[k] with
    | some x => (match x.due with
      | some t => if x.fired then u else fireSlot k t (setArmed k (some { x with due := none }) u)
      | none => u)
    | none => u) s

end Sys2Proof.Machine
end

