-- ==== Sys2Proof/Machine/PowerOps.lean ====
section
/-! DEFINITION. Moving between FULL, OUTAGE and HUSH (03: R29, R35, R41, R42), with what each entry does in the blocks
(R57, R273, R343, 13). -/

namespace Sys2Proof.Machine

/-! ### Parts of HUSH entry -/

/-- A sequence is STOPPED: SEQ_STOPPED, and the ADC_SEQ_STOP that asked completes (R264, R265). -/
def seqStopNow (q : Fin 8) (why : Nat) (s : State) : State :=
  match s.adc.seqs[q] with
  | none => s
  | some x =>
    let s1 := modSeq q (fun y => { y with running := false, inPass := false, waiting := false, stopWhy := 0, stopItem := none, item := none }) s
    let s2 := event 0x0A01 (handleOf s 5 q.val) q.val why 0 s1
    completeOpt x.item .done 0 (dword (BitVec.ofNat 32 x.records) (BitVec.ofNat 32 x.dropped))
      (completeOpt x.stopItem .done 0 (BitVec.ofNat 64 x.passes) s2)

/-- A sequence is asked to stop: at once, or when the pass in progress or waiting has ended (R265). -/
def seqStop (q : Fin 8) (why : Nat) (s : State) : State :=
  match s.adc.seqs[q] with
  | none => s
  | some x =>
    if !x.running then s
    else if x.inPass || x.waiting then modSeq q (fun y => { y with stopWhy := why }) s
    else seqStopNow q why s

/-- R273. -/
def hushSeqs (s : State) : State :=
  (fins 8).foldl (fun t q => match t.adc.seqs[q] with
    | some x => if x.running && !bit x.w8 7 then seqStop q 3 t else t
    | none => t) s

/-- The link leaves DL_Up. -/
def linkLost (s : State) : State :=
  if s.link.dlUp then
    countReg 0x0418 31 16 1 (modLink (fun l => { l with dlUp := false, gen2 := false, lstate := .down, clkreqReleased := false }) s)
  else s

def owlReg (s : State) (o : Fin 2) (r : Nat) : Word := reg s (0x9410 + o.val * 0x20 + r)
def owlEn (s : State) (o : Fin 2) : Bool := bit (owlReg s o 0) 0
def owlVigil (s : State) (o : Fin 2) : Bool := bit (owlReg s o 0) 1

/-- HUSH, or in a battery-less build OUTAGE with the host down (R35). -/
def hostRests (s : State) : Bool :=
  s.pwr.pstate = .hush || (battless s && decide (s.pwr.pstate = .outage) && !s.pwr.hostUp)

/-- Owl `o` does not count: it dozes (R343), or is the Host Owl outside RUN (R338). -/
def owlRests (s : State) (o : Fin 2) : Bool := (hostRests s && !owlVigil s o) || (o = 0 && !inRun s)

/-- What an Owl counts down from, in 10 µs: TMO, and HELD_TMO of the Host Owl while HELD (R338, R339). -/
def owlTmo (s : State) (o : Fin 2) : Nat :=
  let w := owlReg s o 4
  let tmo := 1000 * orElse0 (fld w 15 0) 1
  if o = 0 && s.link.held then orElse0 (10000 * fld w 31 16) tmo else tmo

/-- TMO reloads; on the ladder `left` is the wait for a rung, which no reload touches (R344). -/
def owlReload (o : Fin 2) (s : State) : State :=
  modOwl o (fun x => if x.state = .watch || x.state = .paused then { x with left := owlTmo s o } else x) s

/-- An Owl that is to rest pauses, and one that rests no longer reloads TMO and counts (R338, R343). -/
def owlSettle (o : Fin 2) (s : State) : State :=
  match s.owl.owls[o].state with
  | .watch => if owlRests s o then modOwl o (fun x => { x with state := .paused }) s else s
  | .paused => if owlRests s o then s else owlReload o (modOwl o (fun x => { x with state := .watch }) s)
  | _ => s

def owlsSettle (s : State) : State := owlSettle 1 (owlSettle 0 s)

/-- The last enabled rung has ended: TMO reloads, one cycle counts (R344). -/
def owlEndLadder (o : Fin 2) (s : State) : State :=
  owlSettle o (owlReload o (modOwl o (fun x => { x with state := .watch, cycles := min 15 (x.cycles + 1) }) s))

/-- Rail slots that a graph names. -/
def inGraph (s : State) (r : Fin 48) : Bool :=
  s.graphs.toList.any fun g => match g with
    | some g => g.nodes.any (fun nd => !nd.wait && decide (nodeRail s nd = some r))
    | none => false

/-- Rails of graphs, in the reverse of each graph's order. -/
def graphRails (s : State) : List (Fin 48) :=
  s.graphs.toList.flatMap fun g => match g with
    | some g => g.nodes.reverse.filterMap (fun nd => if nd.wait then none else nodeRail s nd)
    | none => []

def railGoes (s : State) (r : Fin 48) : Bool := match s.rails[r] with
  | some x => !x.hushKeep && decide (x.state ≠ .off) && decide (x.state ≠ .faulted)
  | none => false

/-- Rails without HUSH_KEEP turn off: those of no graph at once, the others in reverse order (R41). -/
def hushRails (s : State) : State :=
  (((fins 48).filter (fun r => !inGraph s r)) ++ graphRails s).foldl (fun t r => if railGoes t r then railIsolate r t else t) s

/-- In HUSH the XCLK input is disabled: the root moves to ember (R53). A relock that runs goes on to its end (R54). -/
def hushClock (s : State) : State :=
  modClk (fun c => { c with xPresent := false, src := if c.src = .xclk then .holding else c.src, goodWindows := 0,
                            refEmber := true, locked := c.locked && c.refEmber, coasting := c.coasting || (c.rootRun && !c.refEmber) }) s

/-- Each host target becomes 0 (13). -/
def hushFans (s : State) : State :=
  fansApply ((fins 4).foldl (fun t f => modFan f (fun x => { x with target := 0 }) t) s)

/-- What a host that is down means in HUSH, and in a battery-less build's OUTAGE (R35, R41). -/
def hostDown (s : State) : State :=
  linkLost (modPwr (fun p => { p with hrst := { p.hrst with start := true }, hrstDue := false }) s)

/-- R41: entry to HUSH. -/
def enterHush (s : State) : State :=
  hushSeqs (hushFans (hushClock (hostDown (hushRails (modPwr (fun p => { p with pstate := .hush }) s)))))

/-! ### OUTAGE and FULL -/

/-- The FULL to OUTAGE table. `d`: the event's detail, 0 for mains loss. -/
def enterOutage (d : Nat) (s : State) : State :=
  let s1 := modPwr (fun p => { p with pstate := .outage, acgate := false }) s
  event 0x0101 0 0 d 0 (fireOutage (arbitrate (chgUpdate s1)))

/-- Entry to FULL from OUTAGE or HUSH; while Lend runs ACGATE stays open (R42). -/
def enterFull (s : State) : State :=
  let s1 := if s.pwr.pstate = .hush then rootWake s else s
  let s2 := modPwr (fun p => { p with pstate := .full, acgate := !lendRuns s1 }) s1
  event 0x0102 0 0 0 0 (fireRestore (arbitrate (chgUpdate s2)))

def facts (s : State) : Bool := s.pwr.mains && s.pwr.acinValid

def hostRuns (s : State) : Bool := match nth s.graphs (hostGraph s) none with
  | some g => g.state = .runUp || g.state = .runDown
  | none => false

/-- The host graph runs downward: HUSH comes when it has finished (R41). -/
def hostSinks (s : State) : Bool := match nth s.graphs (hostGraph s) none with
  | some g => g.state = .runDown
  | none => false

/-- Where R29 would give HUSH and the build has no battery, the host stays in reset (R35). -/
def hushless (s : State) : State := if battless s && !s.pwr.hostUp && !hostRuns s then hostDown s else s

/-- The power state by the facts of R29 with the host down, in a battery-less build by R35: nothing but GLB_PSTATE follows,
while the start has closed no supply yet (R31). -/
def factState (s : State) : State :=
  modPwr (fun p => { p with pstate := if facts s then .full else if battless s then .outage else .hush }) s

/-- The hub judges R29 again. `d`: the OUTAGE event's detail. Where FULL ends with the host not up, R29 gives HUSH, and the
table of FULL to OUTAGE is run first: the OUTAGE event and the OUTAGE work, then HUSH (R41 has the hub enter HUSH from
OUTAGE only: DESIGN CHOICE, notes/assumptions/75.md). -/
def judge (d : Nat) (s : State) : State :=
  if !s.den.up || s.pwr.burrowing || s.pwr.stage = .shaking || s.pwr.stage = .shakeOff || s.pwr.stage = .down then s
  else if s.pwr.stage = .heldBattery then owlsSettle (factState s)
  else
    let s1 := if s.pwr.pstate = .full && !facts s then hushless (enterOutage d s)
              else if s.pwr.pstate ≠ .full && facts s then enterFull s else s
    let s2 := if s1.pwr.pstate = .hush && s1.pwr.hostUp then rootWake (modPwr (fun p => { p with pstate := .outage }) s1) else s1
    owlsSettle (if s2.pwr.pstate = .outage && !s2.pwr.hostUp && !hostSinks s2 && !battless s2 then enterHush s2 else s2)

/-- The host graph has gone down, or a die shutdown has cleared HOST_UP (R35, R41). -/
def hostFell (s : State) : State :=
  let s1 := judge 0 s
  if battless s1 && s1.pwr.pstate = .outage && !s1.pwr.burrowing then hostDown s1 else s1

end Sys2Proof.Machine
end

