-- ==== Sys2Proof/Machine/RailOps.lean ====
section
/-! DEFINITION. Starting and stopping rails and their lanes (08: R147, R154; 09: R164 to R168, R178), shared by items,
graphs and restarts. -/

namespace Sys2Proof.Machine

/-! ### Which reactions a source offers, and which stand (R351, R352) -/

def offersHold (n : Nat) : Bool := n < 150 || n = 151 || n = 153 || n = 154 || (164 ≤ n && n ≤ 167)
def offersIsolate (n : Nat) : Bool := offersHold n || n = 176

def reactOf (s : State) (n : Nat) : Word := reg s (0x0C00 + 4 * n)
/-- HOLD and ISOLATE in force on source `n`. -/
def held (s : State) (n : Nat) : Bool := faulted s n && bit (reactOf s n) 4 && offersHold n
def isolated (s : State) (n : Nat) : Bool := faulted s n && bit (reactOf s n) 1 && offersIsolate n

/-! ### What temperature holds back (R294, R295) -/

/-- Rails that a graph names now. -/
def railsOf (s : State) (g : Graph) : List (Fin 48) := g.nodes.filterMap (fun nd => if nd.wait then none else nodeRail s nd)

/-- The graph a THRULE's TARGET names, none where it fails R105. -/
def ruleGraph (s : State) (x : Rule) : Option (Fin 16) :=
  if (handleFault s x.w7 (fun c => c = 9)).isNone then fin? 16 (hSlot x.w7) else none

/-- An ACTIVE SHUTDOWN rule keeps graph `k` down: it names `k`, or a graph that shares a rail with it. -/
def keptDown (s : State) (k : Fin 16) : Bool :=
  s.thm.rules.toList.any fun x => match x with
    | some x => x.state = .active && !x.stale && fld x.w5 11 8 = 6 && (match ruleGraph s x with
      | some j => decide (j = k) || (match s.graphs[j], s.graphs[k] with
        | some a, some b => (railsOf s a).any (fun r => (railsOf s b).contains r)
        | _, _ => false)
      | none => false)
    | none => false

/-! ### Limits (R147, R162 check 3) -/

def isCtl (n : Fin 48) : Bool := 32 ≤ n.val
def targetOk (ctl : Bool) (mv : Nat) : Bool := 500 ≤ mv && mv ≤ (if ctl then 12000 else 5500)

/-- The greatest IMAX, in mA: 4 A per integrated lane, or the sum of LANE_ILIM. -/
def imaxLimit (s : State) (ms : List (Fin 48)) : Nat :=
  ms.foldl (fun a n => a + (if isCtl n then fld (laneReg s n 0x14) 15 0 else 4000)) 0

def laneIsoBank (n : Fin 48) : Nat := if isCtl n then (n.val - 32) / 4 else n.val / 4

/-! ### Starting (R154, R164 to R166) -/

/-- A member that may start: not STOPPED, not ABSENT, and no ISOLATE or HOLD on its source. -/
def mayStart (s : State) (n : Fin 48) : Bool :=
  s.lanes[n].state ≠ .stopped && s.lanes[n].state ≠ .absent && !held s n.val && !isolated s n.val

def setVmeas (ns : List (Fin 48)) (mv : Nat) (s : State) : State :=
  ns.foldl (fun t n => setReg (0x1000 + n.val * 0x100 + 0x48) (at_ 0 (mv % 2 ^ 14)) t) s

/-- MEASURE begins, to end 2 µs later with `mv`; with its bank supply still low a lane waits for that (R154, R155). -/
def laneMeasure (n : Fin 48) (mv : Nat) (s : State) : State :=
  let low := isPresent s n.val 4
  modLane n (fun l => { laneQuiet l with
    state := if low then .supplyWait else .measure, meas := if low then none else some (mv, now s + 2) }) s

/-- The offset stands at the limit of R174. -/
def atCorrLimit (x : Rail) (c : Int) : Bool := decide (c = x.corrMax ∨ c = -x.corrMax)

/-- Every member starts from the lead's measured voltage. A frozen correction stays; any other begins at 0. -/
def railStart (r : Fin 48) (vmeas : Nat) (s : State) : State :=
  match s.rails[r] with
  | none => s
  | some x =>
    let s1 := (x.members.filter (mayStart s)).foldl (fun t n => laneMeasure n vmeas t) s
    let c := if x.frozen then x.corr else 0
    let s2 := modRail r (fun y => { y with
      state := .starting, startTime := now s, corr := c, corrHist := [c], corrLimit := atCorrLimit y c, slewing := false,
      shedMask := 0, limitAt := none }) s1
    let s3 := if atCorrLimit x c then s2 else endCause (48 + r.val) 6 s2
    endCause (48 + r.val) 5 s3

/-- LANE_LOST ends once every member runs or is held out by AUTO_SHED (R181). -/
def lostEnds (r : Fin 48) (s : State) : State :=
  match s.rails[r] with
  | some x => if x.members.all (fun n => laneRun s.lanes[n] || x.shedMask.getLsbD n.val) then endCause (48 + r.val) 7 s else s
  | none => s

/-- The measurement of lane `n` has ended: WAIT_DOWN where the output is above the target and may not be sunk, else START
from what it found. The first of a start decides for the rail (R154, R165, R166). -/
def measured (n : Fin 48) (s : State) : State :=
  match s.lanes[n].meas, s.lanes[n].rail with
  | some (mv, _), some r =>
    (match s.rails[r] with
    | none => s
    | some x =>
      let above := decide (x.target < mv)
      let wait := above && !x.sinkOk
      let s1 := setVmeas [n] mv (modLane n (fun l => { l with
        meas := none, state := if wait then .waitDown else .start, ref := if wait then 0 else 100 * mv,
        sink := above && x.sinkOk }) s)
      let s2 := if above && x.state = .starting && decider s x = n && (runningOf s x).isEmpty then
          modRail r (fun y => { y with state := if wait then .waitDown else .sinking }) s1
        else s1
      lostEnds r s2)
  | _, _ => s

/-- The measurements under way on a rail have ended. -/
def measuredAll (r : Fin 48) (s : State) : State := (boundTo s r).foldl (fun t n => measured n t) s

/-- What happens to a lane after its measurement comes after the 2 µs of it. -/
def pastMeasure (n : Fin 48) (s : State) : State :=
  if s.lanes[n].state = .measure then (match s.lanes[n].rail with
    | some r => measuredAll r s
    | none => s)
  else s

/-- The rail's request: CLAIM at TIER (R190). -/
def railReq (s : State) (r : Fin 48) (x : Rail) (who : Waiter) (a : Word) (mw : Nat) : Req :=
  { who := who, aseq := a, demand := .rail r.val, tier := x.tier, mw := mw, acc := false, slot := false, dur := none,
    since := now s }

/-- The rail reaches ON: members in REG, remote sense in use, RAIL_SET_V of the start completes (R164, R166, R167). -/
def railOn (r : Fin 48) (s : State) : State :=
  match s.rails[r] with
  | none => s
  | some x =>
    let s1 := modLanes (x.members.filter (fun n => s.lanes[n].state = .start)) (fun l => { l with state := .reg, ref := 100 * x.target }) s
    let s2 := modRail r (fun y => { y with state := .on, slewing := false, rsActive := y.rsEn && !y.senseLost && !y.senseFrozen }) s1
    completeOpt (onHandle s (railHandle s r) 0x10) .done 0 (voutResult s r) s2

/-- A new target in force (R151, R167, R294): an ON rail slews, another start in progress follows it. -/
def retargetRail (r : Fin 48) (f : Rail → Rail) (s : State) : State :=
  let s1 := modRail r f s
  match s1.rails[r] with
  | some x => if x.state = .on then modRail r (fun y => { y with slewing := true }) s1 else s1
  | none => s1

/-- VSET stored (R167). -/
def setVset (mv : Nat) (x : Rail) : Rail := { x with w7 := setFld x.w7 13 0 mv }

/-- The rail is enabled: its members run, or start. -/
def railRuns (x : Rail) : Bool := x.state = .on || x.state = .starting || x.state = .sinking || x.state = .waitDown

/-- JOIN at the rail's present reference (R154, R170). -/
def laneJoin (n : Fin 48) (x : Rail) (s : State) : State :=
  let l0 := s.lanes[decider s x]
  modLane n (fun l => { laneQuiet l with state := .join, share := 0, ref := if laneRun l0 then l0.ref else x.goal }) s

/-- A lane leaves STOPPED (R157): JOIN where others run, else a fresh start that finds `vmeas`, else OFF. -/
def laneReturn (n : Fin 48) (vmeas : Nat) (s : State) : State :=
  match rail2 s n with
  | none => modLane n (fun l => { l with state := .off }) s
  | some x =>
    let running := (runningOf s x).filter (fun m => m ≠ n)
    if x.state = .on && !running.isEmpty then laneJoin n x s
    else if railRuns x then laneMeasure n vmeas s
    else modLane n (fun l => { l with state := .off }) s

end Sys2Proof.Machine
end

