-- ==== Sys2Proof/Machine/GraphOps.lean ====
section
/-! DEFINITION. Sequence graphs at work (R182 to R187), the hub's own runs (R42, R43, R294, R295, R344), and what the
end of a run brings about. -/

namespace Sys2Proof.Machine

/-! ### The Den domain falls (R30, R43, R47) -/

/-- What outlasts the Den domain: the banks, the boot image copies, fused keys and the Burrow latch. -/
def denFall (s : State) : State :=
  { State.reset with
    pending := s.pending, out := s.out, freeIx := s.freeIx,
    pwr := { Power.reset with latch := s.pwr.latch, pstate := if s.pwr.latch.inBurrow then .burrow else .hush },
    jnl := { Journal.reset with bankA := s.jnl.bankA, bankB := s.jnl.bankB, image0 := s.jnl.image0, image1 := s.jnl.image1,
                                head := s.jnl.head, acked := s.jnl.acked, tables := s.jnl.tables },
    usb := { Usb.reset with lostGrant := s.usb.lostGrant || s.usb.grant.isSome },
    eng := { Engine.reset with keys := s.eng.keys.map (fun k => if k.fused then { k with lastTag := 0, fusing := false, loaded := 0 } else KeySlot.reset) } }

/-! ### BURROW (R43) -/

/-- Motors brake and release, fans, Lift, Lend and the charger stop (R43 step 4). -/
def burrowStops (s : State) : State :=
  let s1 := motorsSystem s
  let s2 := (fins 4).foldl (fun t f => match t.fans[f] with
    | some x => if x.state = .off || x.state = .faulted then t else fanOff f t
    | none => t) s1
  let s3 := lendAbort 7 (liftAbortFree s2)
  setChg .off s3

/-- Steps 4 to 7: the BURROW record, BATSW open, VHOLD discharged, the Den domain falls. -/
def burrowFinish (s : State) : State :=
  let s1 := burrowStops s
  let s3 := if reserveLow s1 then s1 else commit (hubRec 0x13 [flag 0 s.pwr.latch.uv]) s1 -- R139
  let s4 := modPwr (fun p => { p with batsw := false,
                                      latch := { p.latch with inBurrow := true, acinLost := !p.acinValid } }) s3
  denFall s4

/-! ### Runs -/

def nodeMask (g : Graph) : Nat := 2 ^ g.nodes.length - 1

def hubRunRec (a : Word) (h : Word) (down : Bool) (t : Time) : Item :=
  { newItem a 0x1F 0x15 0 0 h ((Vector.replicate 10 0).set 0 (flag 0 down)) t with phase := .working, startRec := true }

/-- A rail whose request leaves the ledger unserved waits no longer. -/
def railUnwait (d : Demand) (s : State) : State :=
  match d with
  | .rail r => (match fin? 48 r with
    | some r => modRail r (fun x => if x.state = .pending then { x with state := .off } else x) s
    | none => s)
  | _ => s

/-- The waiting requests that `mine` names leave the ledger (R193). -/
def withdrawReqs (mine : Req → Bool) (s : State) : State :=
  (s.bud.waiting.filter mine).foldl (fun t q => railUnwait q.demand t) (withdrawThose mine s)

/-- Node requests of a graph leave the ledger. -/
def withdrawNodes (k : Fin 16) (s : State) : State :=
  withdrawReqs (fun q => match q.who with
    | .node g _ => decide (g = k.val)
    | _ => false) s

/-- The Owl whose rung 2 a run is. -/
def runOwl : RunBy → Option (Fin 2)
  | .owlDown o _ | .owlUp o => some o
  | _ => none

/-- A run of an Owl's rung 2 that another run supersedes is the end of that rung (R344 gives no other end: DESIGN CHOICE,
notes/assumptions/76.md). -/
def owlCut (k : Fin 16) (by_ : RunBy) (s : State) : State :=
  match s.graphs[k].bind (fun g => runOwl g.by_) with
  | some o => if runOwl by_ ≠ some o && s.owl.owls[o].state = .cycling then owlEndLadder o s else s
  | none => s

/-- A run begins (R183, R184); downward on the host graph clears HOST_UP (R185). -/
def startRun (k : Fin 16) (down : Bool) (by_ : RunBy) (item : Option Word) (s0 : State) : State :=
  let s := owlCut k by_ s0
  let s1 := modGraph k (fun g => { g with state := if down then .runDown else .runUp, active := 0, done := 0, failed := 0,
                                          unwinding := false, by_ := by_, item := item }) (withdrawNodes k s)
  if down && hostGraph s = k.val then owlsSettle (modPwr (fun p => { p with hostUp := false }) s1) else s1

/-- A run that the hub originates: journaled with RING 0x1F, superseding what runs on the graph (R344, R106). -/
def hubRunNow (k : Fin 16) (down : Bool) (by_ : RunBy) (s : State) : State :=
  if (s.graphs[k]).isNone then s
  else if !down && (hot s || keptDown s k) then (match runOwl by_ with -- R294, R295: no run upward
    | some o => owlEndLadder o s
    | none => s)
  else
    let h := handleOf s 9 k.val
    let s1 := makeWay 1 (supersedeOn 0x15 h s)
    let it := hubRunRec (nextAseq s1) h down (now s1)
    startRun k down by_ (some it.aseq)
      (modEng (fun e => { e with items := e.items ++ [it], line := e.line ++ [it.aseq] }) (hubStart it s1))

/-- It waits where its records have no room (R139). -/
def hubRun (k : Fin 16) (down : Bool) (by_ : RunBy) (s : State) : State :=
  if mustWait s then owe (.run k down by_) s else hubRunNow k down by_ s

/-- What waited for room is written, or begins. -/
def payOwed (o : Owed) (s : State) : State :=
  match o with
  | .record w => commit w s
  | .relay n => writeRelay n s
  | .item it c => (hubWritten it c s).2
  | .run k down by_ => hubRunNow k down by_ s
  | .ends c slot => slotEnds c slot s
  | .verdict a v detail result => complete a v detail result s

/-- FREE has risen: what waited goes on in its order, as far as FREE allows (R139). With no bank in service nothing waits for
a record any more (R137). -/
def flushOwed (fuel : Nat) (s : State) : State :=
  match fuel with
  | 0 => s
  | n + 1 => match s.jnl.owed with
    | [] => s
    | o :: rest => if reserveLow s && !dead s then s else flushOwed n (payOwed o (modJnl (fun j => { j with owed := rest }) s))

/-- The hub's own run on the host graph. -/
def hostRun (down : Bool) (by_ : RunBy) (s : State) : State :=
  match fin? 16 (hostGraph s) with
  | some k => hubRun k down by_ s
  | none => s

/-- BURROW step 3: the next up graph runs downward, the host graph last; when none is left, steps 4 to 7. -/
def burrowNext (s : State) : State :=
  let order := (s.pwr.upOrder.reverse.filter (fun k => k ≠ hostGraph s)) ++ (s.pwr.upOrder.filter (fun k => k = hostGraph s))
  match order with
  | k :: _ => match fin? 16 k with
    | some k => hubRun k true .burrow s
    | none => burrowFinish s
  | [] => burrowFinish s

/-- Step 3 of R43: rails outside any graph turn off, then the graphs run down. -/
def burrowStart (s : State) : State :=
  let s1 := modPwr (fun p => { p with burrowing := true }) s
  let s2 := (fins 48).foldl (fun t r => if !inGraph t r && (match t.rails[r] with
    | some x => decide (x.state ≠ .off)
    | none => false) then railDown r .off t else t) s1
  burrowNext s2

/-! ### Nodes -/

def nodeReady (g : Graph) (i : Nat) : Bool :=
  let nd := nodeAt g i
  let users := (List.range g.nodes.length).filter (fun j => bit (nodeAt g j).pred i)
  i < g.nodes.length && !bit g.active i &&
  (if g.unwinding then bit g.done i && users.all (fun j => !bit g.done j && !bit g.active j)
   else !bit g.done i && !bit g.failed i &&
     (if g.state = .runUp then decide (nd.pred &&& ~~~g.done = 0) && !(g.onFail && decide (g.failed ≠ 0))
      else users.all (fun j => bit g.done j)))

def anyReady (g : Graph) : Bool := (List.range g.nodes.length).any (nodeReady g)

/-- A node has done its work: upward and downward it counts as done, in an unwind it leaves the nodes that are up. -/
def nodeDone (k : Fin 16) (i : Nat) (s : State) : State :=
  modGraph k (fun g => { g with active := g.active &&& ~~~(at_ i 1),
                                done := if g.unwinding then g.done &&& ~~~(at_ i 1) else g.done ||| at_ i 1 }) s

def nodeFail (k : Fin 16) (i : Nat) (s : State) : State :=
  withdrawReqs (fun q => decide (q.who = .node k.val i))
    (modGraph k (fun g => { g with active := g.active &&& ~~~(at_ i 1), failed := g.failed ||| at_ i 1 }) s)

/-! ### The end of a run -/

/-- What follows a run, by who asked for it (R43, R187, R295, R344, R346). -/
def afterRun (by_ : RunBy) (s : State) : State :=
  match by_ with
  | .boot => modPwr (fun p => { p with hrstDue := true }) s
  | .owlDown o thenUp =>
    if thenUp then modOwl o (fun x => { x with off := some (10000 * fld (owlReg s o 0xC) 31 24) }) s
    else if s.owl.owls[o].state = .cycling then event 0x1003 0 o.val 0 0 (modOwl o (fun x => { x with state := .gaveUp }) s)
    else s
  | .owlUp o => if s.owl.owls[o].state = .cycling then owlEndLadder o s else s
  | .burrow => if s.pwr.burrowing then burrowNext s else s
  | _ => s

/-- A run ends: the graph's state, GRAPH_DONE, the item's verdict, HOST_UP and what hangs on it (R184, R185). -/
def endRun (k : Fin 16) (g : Graph) (down : Bool) (s : State) : State :=
  let ok := g.failed = 0
  let host := hostGraph s = k.val
  let st : GraphState := if !ok then .failed else if down then .down else .up
  let upNow := ok && !down
  let s1 := modGraph k (fun x => { x with state := st, active := 0, unwinding := false, by_ := .none, item := none }) s
  let s2 := modPwr (fun p => { p with
    upOrder := if down || upNow then p.upOrder.filter (fun j => j ≠ k.val) ++ (if upNow then [k.val] else []) else p.upOrder,
    hostUp := p.hostUp || (host && upNow),
    hrstDue := p.hrstDue || (host && upNow) }) s1
  let s3 := event 0x0520 (handleOf s 9 k.val) k.val (if down && ok then 1 else 0) (g.failed.setWidth 64) s2
  let s4 := completeOpt g.item (if ok then .done else .failed) (if ok then 0 else 0x10) (if ok then 0 else g.failed.setWidth 64) s3
  afterRun g.by_ (if !host then s4 else if down then hostFell s4 else judge 0 s4)

/-- Looks whether a run has come to its end or turns to unwind. -/
def settleOne (k : Fin 16) (s : State) : State :=
  match s.graphs[k] with
  | none => s
  | some g =>
    if g.state ≠ .runUp && g.state ≠ .runDown then s
    else if g.active ≠ 0 then s
    else if g.unwinding then (if g.done = 0 then endRun k g true s else s)
    else if g.state = .runDown then (if g.done.toNat = nodeMask g then endRun k g true s else s)
    else if g.failed ≠ 0 && g.onFail then
      if g.done = 0 then endRun k g false s
      else
        let s1 := modGraph k (fun x => { x with unwinding := true, state := .runDown }) s
        if hostGraph s = k.val then owlsSettle (modPwr (fun p => { p with hostUp := false }) s1) else s1
    else if anyReady g then s
    else endRun k g false s

/-- Every graph looks at its run; twice, since the end of one run can end a node of another. -/
def settle (s : State) : State :=
  let s1 := (fins 16).foldl (fun t k => settleOne k t) s
  (fins 16).foldl (fun t k => settleOne k t) s1

/-- Upward nodes in progress on rail `r` are done: power-good stands at the target (R183). -/
def nodesOnPg (r : Fin 48) (s : State) : State :=
  (fins 16).foldl (fun t k => match t.graphs[k] with
    | some g =>
      if g.state = .runUp then
        (List.range g.nodes.length).foldl (fun u i =>
          if bit g.active i && !(nodeAt g i).wait && decide (nodeRail u (nodeAt g i) = some r) then nodeDone k i u else u) t
      else t
    | none => t) s

end Sys2Proof.Machine
end

