-- ==== Sys2Proof/Machine/Faults.lean ====
section
/-! DEFINITION. Fault sources (21): what a raise latches, captures, does by reaction and posts (R348 to R358), and how
a change of a reaction mask acts (R361). -/

namespace Sys2Proof.Machine

/-! ### What a capture carries (R348) -/

/-- The object of a source, or 0 where none stands. -/
def faultHandle (s : State) (n : Nat) : Word :=
  let railOf := fun (r : Fin 48) => if (s.rails[r]).isSome then railHandle s r else 0
  match fin? 48 n, fin? 48 (n - 48), fin? 48 (n - 96) with
  | some l, _, _ => (match s.lanes[l].rail with
    | some r => railOf r
    | none => 0)
  | none, some r, _ => railOf r
  | none, none, some k => if (s.relays[k]).isSome then relayHandle s k else 0
  | none, none, none =>
    if n < 146 then (if (nth s.motors (n - 144) none).isSome then handleOf s 3 (n - 144) else 0)
    else if n < 150 then (if (nth s.fans (n - 146) none).isSome then handleOf s 4 (n - 146) else 0)
    else 0

/-- ADC_LAST of an input. -/
def adcLast (s : State) (input : Nat) : Word := reg s (0x6740 + 4 * input)

/-- VS of lane `n` in mV, a live reading that no register shows (notes/assumptions/9.md). -/
def liveVs (s : State) (n : Nat) : Word := live s (0x10000 + n)

def faultValue (s : State) (n : Nat) : Word :=
  if n < 48 then (readReg s (0x1000 + 0x100 * n + 0x4C) &&& 0xFFFF) ||| (liveVs s n <<< 16)
  else if n < 96 then readReg s (0x4000 + 0x40 * (n - 48) + 0x28)
  else if n < 144 then readReg s (0x5840 + 0x18 * (n - 96) + 0x10)
  else if n < 146 then readReg s (0x5CC0 + 0x80 * (n - 144) + 0x34)
  else if n < 150 then readReg s (0x6040 + 0x70 * (n - 146) + 0x30)
  else if n < 156 then adcLast s ([115, 118, 114, 117, 116, 113].getD (n - 150) 0)
  else if n < 164 then readReg s (0x7A40 + 8 * (n - 156))
  else if n < 168 then readReg s (0x8840 + 0x40 * (n - 164) + 0xC)
  else if n = 168 then readReg s 0x041C
  else if n < 171 then readReg s 0x0808
  else if n = 171 ∨ n = 173 then readReg s 0x0100
  else if n = 172 then readReg s 0x9400
  else if n < 176 then readReg s (0x9410 + 0x20 * (n - 174) + 0x10)
  else if n = 176 then readReg s 0x9004
  else if n = 177 then readReg s 0x87FC
  else readReg s 0x7784

/-! ### Capture (R356, R357) -/

def collOf (n : Nat) : Fin 2 := if n < 164 then 0 else 1

def loseEntry (x : Collector) : Collector :=
  { x with overflow := true, lost := BitVec.ofNat 16 (satAdd 16 x.lost.toNat 1) }

def captureIn (first : Bool) (e : FaultEntry) (snap : Vector Word 6) (st : Word) (y : Collector) : Collector :=
  let x := { y with count := BitVec.ofNat 32 (satAdd 32 y.count.toNat 1) }
  if first then (if x.entries.isEmpty then { x with entries := [e], snap := snap, snapSt := st } else loseEntry x)
  else if x.entries.length < 32 then { x with entries := x.entries ++ [e] }
  else loseEntry { x with entries := x.entries.drop 1 ++ [e] }

def capture (n d : Nat) (s : State) : State :=
  let c := collOf n
  let e : FaultEntry := { time := now s, src := n, detail := BitVec.ofNat 8 d, handle := faultHandle s n, value := faultValue s n }
  modColl c (captureIn (rbit s (0x0F00 + 0x40 * c.val) 0) e
    (Vector.ofFn fun (w : Fin 6) => readReg s (0x0F84 + 4 * w.val)) (glbPstate s)) s

/-- NOTIFY (R350 step 4): FAULT and the collector's vector, unless within NGAP of the last. -/
def faultNotify (n : Fin 192) (d : Nat) (s : State) : State :=
  let gap := rfld s 0x0FB4 15 8 * 1000
  let soon := match s.flt.src[n].lastPost with
    | some t => decide (sinceT (now s) t < gap)
    | none => false
  if !bit (reactOf s n.val) 0 || soon then s
  else sendVector (16 + (collOf n.val).val)
    (event 0x1101 (faultHandle s n.val) n.val d ((faultValue s n.val).setWidth 64)
      (modSrc n (fun x => { x with lastPost := some (now s) }) s))

/-- Causes that end only with FAULT_CLEAR are latched and never present (R349, R359; notes/assumptions/16.md). -/
def latch (n : Fin 192) (d : Nat) (present : Bool) (s : State) : State :=
  let b := BitVec.ofNat 16 (2 ^ (d - 1))
  modSrc n (fun x => { x with present := if present then x.present ||| b else x.present, latched := x.latched ||| b,
                              faulted := true, raises := BitVec.ofNat 8 (satAdd 8 x.raises.toNat 1) }) s

/-- INT_N sources of the battery's FSRCs (R228). -/
def batterySource (n : Nat) (s : State) : State :=
  if n = 151 then orReg 0x54C0 0x40 s else if n = 155 then orReg 0x54C0 0x200 s else s

/-- Steps 1 and 2. -/
def latchCapture (n : Fin 192) (d : Nat) (present : Bool) (s : State) : State :=
  capture n.val d (latch n d present (batterySource n.val s))

/-- A raise that finds its source FAULTED. -/
def raiseAgain (n : Fin 192) (d : Nat) (present : Bool) (s : State) : State := faultNotify n d (latchCapture n d present s)

/-! ### ISOLATE (R352) -/

/-- The state of a channel that has stopped. -/
def braked (x : Motor) : MotorState := if x.brake = .faulted then .faulted else .idle

/-- MOTOR_STOP (R246): by brake or by coast; homing that it ends leaves the position UNKNOWN. A MOTOR_STOP that still brakes
goes on. -/
def motorStopNow (m : Fin 2) (coast : Bool) (s : State) : State :=
  match s.motors[m] with
  | none => s
  | some x =>
    let s1 := withdrawDemand (.motor m.val) s
    let stopping := match x.item.bind (findItem s) with
      | some it => decide (it.opcode = 0x23)
      | none => false
    let s2 := modMotor m (fun y => { y with
      posValid := y.posValid && !loses x, homed := y.homed && !loses x, item := if stopping then y.item else none }) s1
    if motorDrives x || x.state = .braking then
      let s3 := release (.motor m.val) s2
      if coast then modMotor m (fun y => { y with state := braked y, brake := .none, coasted := true }) s3
      else if x.brake = .faulted then s3 else motorBrake m .stopped s3
    else if x.state = .pending then motorRest m .idle s1 else s1

def twbReg (p : Fin 4) (r : Nat) : Nat := 0x8840 + 0x40 * p.val + r

def xAddr (it : Item) : Nat := if it.handle = 0 then fld (opv it 4) 14 8 else hSlot it.handle % 112 + 8

/-- The port is free again. -/
def portIdle (p : Fin 4) (s : State) : State :=
  modPort p (fun x => { x with op := if x.op = .recover || x.needRecovery then .recover else .idle, item := none, attempts := 0,
                               arbLosses := 0, retries := 0, wdata := [], acked := 0, addrAck := false, again := false }) s

/-- RESULT of a transfer that fails (R315). -/
def xFailed (x : Port) : DWord :=
  BitVec.ofNat 64 (x.acked % 256 + 256 * (x.attempts % 256) + (if x.addrAck then 65536 else 0))

/-- A transfer fails with detail `d`, INDETERMINATE where `ind`. -/
def xFailAs (p : Fin 4) (d : Nat) (ind : Bool) (s : State) : State :=
  let x := s.twb.ports[p]
  match x.item.bind (findItem s) with
  | some it =>
    let s1 := setReg (twbReg p 0x20) (at_ 0 d ||| at_ 8 (xAddr it) ||| flag 15 ind) (countReg (twbReg p 0x10) 31 16 1 (countReg (twbReg p 0x10) 15 0 1 s))
    portIdle p (complete it.aseq (if ind then .failedIndeterminate else .failed) d (xFailed x) s1)
  | none => portIdle p s

def xWlen (it : Item) : Nat := fld (opv it 5) 8 0
def xRlen (it : Item) : Nat := fld (opv it 5) 24 16
def xPec (s : State) (it : Item) : Bool :=
  bit (opv it 4) 16 || (decide (it.handle ≠ 0) && match partnerAt s (hSlot it.handle) with
    | some x => x.pec
    | none => false)

/-- Bytes of the write phase: data, and the PEC of a write-only transfer (R314). -/
def xWrites (s : State) (it : Item) : Nat := xWlen it + (if xPec s it && xRlen it = 0 then 1 else 0)

/-- The verdict of a failed transfer by what the last attempt saw acknowledged (R316). -/
def xFail (p : Fin 4) (d : Nat) (surely : Bool) (s : State) : State :=
  xFailAs p d (surely || s.twb.ports[p].addrAck || 0 < s.twb.ports[p].acked) s

/-- How far the attempt under way had come when something ended it is open, up to every byte of its write phase. -/
def cutShort (p : Fin 4) (s : State) : State :=
  match s.twb.ports[p].item.bind (findItem s) with
  | some it =>
    if underWay s.twb.ports[p] then
      let d := drawNat s
      let n := d.1 / 2 % (xWrites s it + 1)
      modPort p (fun x => { x with acked := n, addrAck := decide (n ≠ 0) || decide (d.1 % 2 = 1) }) d.2
    else s
  | none => s

/-- A transfer that has begun ends with detail `d`: cut in an attempt, or between two, by what the last one saw. -/
def endTransfer (p : Fin 4) (d : Nat) (s : State) : State :=
  if s.twb.ports[p].item.isSome && 0 < s.twb.ports[p].attempts then xFail p d false (cutShort p s) else s

/-- The pins are released and the port stops: a transfer or a census in progress ends, with a detail that R326 does not
name. -/
def portStop (p : Fin 4) (s : State) : State :=
  let d := drawNat s
  let s1 := endTransfer p (d.1 % 256) d.2
  let s2 := completeOpt (s1.twb.ports[p].census.bind (·.item)) .failed (d.1 % 256) 0 s1
  modPort p (fun y => { y with op := .idle, item := none, again := false, alertHold := false, census := none, due := none, rounds := 0,
                               bus := .unknown }) s2

/-- A pulse in progress ends as CUT, which is cause 0x04 on its own source (R234). -/
def relayIsolate (k : Fin 48) (n : Fin 192) (s : State) : State :=
  match s.relays[k] with
  | some x => if x.state = .pulsing then raiseAgain n 4 false (relayCut k s) else s
  | none => s

def isolateBase (n : Fin 192) (s : State) : State :=
  match fin? 48 (n.val - 48), fin? 48 (n.val - 96), fin? 2 (n.val - 144), fin? 4 (n.val - 146), fin? 4 (n.val - 164) with
  | some r, _, _, _, _ => railIsolate r s
  | none, some k, _, _, _ => relayIsolate k n s
  | none, none, some m, _, _ =>
    if (s.motors[m]).isSome then motorStopNow m false (hubItem 0x23 (motorHandle s m) 0 s) else s
  | none, none, none, some f, _ => fanFails f s
  | none, none, none, none, some p => if 164 ≤ n.val then portStop p s else s
  | none, none, none, none, none =>
    if n.val = 151 then setChg .fault s
    else if n.val = 153 then lendAbort 7 s
    else if n.val = 154 then liftAbortFree s
    else if n.val = 176 then usbRelease s
    else s

/-! ### The other reactions (R351, R354, R355) -/

def hrstLow (s : State) : Bool := s.pwr.hrst.start || s.pwr.hrst.die || s.pwr.hrst.pulse

def hostRst (s : State) : State :=
  if hrstLow s || s.pwr.pstate = .hush then s else modPwr (fun p => { p with hrst := { p.hrst with pulse := true } }) s

/-- SHED: the tier is shed with cause FAULT unless another fault holds it shed already. -/
def shedBy (s0 : State) (n : Nat) (s : State) : State :=
  let t := fld (reactOf s n) 6 5
  if bit (reactOf s n) 2 && t ≠ 0 && !shedByFault s0 t then shedTier t 3 s else s

/-- SHED and HOSTRST of a source that was CLEAR in `s0`. -/
def shedAndReset (s0 : State) (n : Nat) (s : State) : State :=
  let s1 := shedBy s0 n s
  if bit (reactOf s n) 3 then hostRst s1 else s1

/-- A raise of any source but a lane's. -/
def raiseBase (n : Fin 192) (d : Nat) (present : Bool) (s : State) : State :=
  if s.flt.src[n].faulted then raiseAgain n d present s
  else
    let s1 := latchCapture n d present s
    let s2 := if bit (reactOf s n.val) 1 && offersIsolate n.val then isolateBase n s1 else s1
    faultNotify n d (shedAndReset s n.val s2)

/-! ### Lanes -/

/-- A member that stops while its rail is ON: LANE_LOST, once per episode (R173). -/
def laneLost (n : Fin 48) (s : State) : State :=
  match s.lanes[n].rail with
  | some r => (match s.rails[r] with
    | some x => if x.state = .on && !isPresent s (48 + r.val) 7 then raiseBase ⟨48 + r.val, by omega⟩ 7 true s else s
    | none => s)
  | none => s

/-- A lane enters STOPPED, and its rail learns of it. -/
def laneStops (n : Fin 48) (s : State) : State :=
  if s.lanes[n].state = .stopped || s.lanes[n].state = .absent then s
  else if laneRun s.lanes[n] then laneLost n (laneStop n s) else laneStop n s

def isolateLane (n : Fin 48) (s : State) : State := laneStops n s

def raiseLane (n : Fin 48) (d : Nat) (present : Bool) (s : State) : State :=
  let k : Fin 192 := ⟨n.val, by omega⟩
  if s.flt.src[k].faulted then raiseAgain k d present s
  else
    let s1 := latchCapture k d present s
    let s2 := if bit (reactOf s n.val) 1 then isolateLane n s1 else s1
    faultNotify k d (shedAndReset s n.val s2)

/-- A raise (R350); graphs whose nodes it ended look at their runs. FSRC 186 to 191 are never raised (R348). -/
def raiseAs (n d : Nat) (present : Bool) (s : State) : State :=
  match fin? 48 n, fin? 192 n with
  | some l, _ => settle (raiseLane l d present s)
  | none, some k => if n < 186 then settle (raiseBase k d present s) else s
  | none, none => s

/-- A raise of a cause that is present until its chapter ends it. -/
def raise (n d : Nat) (s : State) : State := raiseAs n d true s

/-- A raise of a cause that only FAULT_CLEAR ends. -/
def raiseLatched (n d : Nat) (s : State) : State := raiseAs n d false s

/-- Once per episode: no raise while the cause is present. -/
def raiseOnce (n d : Nat) (s : State) : State := if isPresent s n d then s else raise n d s

/-! ### Changes of a reaction mask (R361) -/

def isolateNow (n : Fin 192) (s : State) : State :=
  match fin? 48 n.val with
  | some l => settle (isolateLane l s)
  | none => settle (isolateBase n s)

/-- Tiers that faults shed in `s` and did not in `s0`, and the other way round. -/
def shedFollow (s0 s : State) : State :=
  shedChange (fun t => shedByFault s0 t && !shedByFault s t) 3 (fun t => shedByFault s t && !shedByFault s0 t) s

/-- FLT_REACT of source `n` takes a mask: what it adds or removes acts at once on a FAULTED source. -/
def setReact (n : Fin 192) (mask : Word) (s : State) : State :=
  let s1 := setReg (0x0C00 + 4 * n.val) (mask &&& 0x7F) s
  let s2 := if isolated s1 n.val && !isolated s n.val then isolateNow n s1 else s1
  shedFollow s s2

end Sys2Proof.Machine
end

