-- ==== Sys2Proof/Machine/Clocks.lean ====
section
/-! DEFINITION. Clocks (04): the reference and the root (R53 to R57, R66), the ember trim (R49 to R51), CLK_DSEL. -/

namespace Sys2Proof.Machine

/-- Of the nine domains only DEN has no multiplexer (R48). -/
def domDen : Fin 9 := 7

def modDom (d : Fin 9) (f : Domain → Domain) (s : State) : State := modClk (fun c => { c with domains := upd c.domains d f }) s

/-- Domains that hold their logic idle while the root is stopped (R57): CORE, LINK, ADC, USB, BUS, JNL. -/
def parks (d : Fin 9) : Bool := d ≠ 2 && d ≠ 7 && d ≠ 8

/-! ### The reference (R53, R54, R56) -/

def inHush (s : State) : Bool := s.pwr.pstate = .hush

/-- FORCE_EMBER in force: ignored while ember itself is bad, and before an image is applied it yields to a qualified XCLK
(CLK_REFCTL). -/
def forceEmber (s : State) : Bool := rbit s 0x0104 2 && !isPresent s 171 3 && (s.jnl.inUse.isSome || !s.clk.xPresent)

/-- XCLK losses of the last 10 s. -/
def recentLosses (s : State) (l : List Time) : List Time := l.filter (fun t => decide (sinceT (now s) t < 10000000))

/-- The hub moves the root to XCLK and relocks; an established link begins a speed change to its Link Control 2 target,
which succeeds at once (DESIGN CHOICE: R85 says that it begins, not that the partner supports it;
notes/assumptions/49.md). -/
def toXclk (s : State) : State :=
  modLink (fun l => { l with gen2 := if l.dlUp then l.cfg.target5 else l.gen2 })
    (modClk (fun c => { c with refEmber := false, locked := false, coasting := true, backoff := false, lossPending := false }) s)

/-- The root takes ember. -/
def toEmber (s : State) : State :=
  if s.clk.refEmber then s else modClk (fun c => { c with refEmber := true, locked := false, coasting := true }) s

/-- What CLK_REFCTL and EMBER_BAD select (R53, R56): a return to XCLK is told by XCLK_RETURNED (R66). -/
def refSelect (s : State) : State :=
  if forceEmber s then toEmber s
  else if s.clk.xPresent && rbit s 0x0104 0 && !s.clk.backoff && !inHush s && s.clk.refEmber && s.clk.rootRun then
    raiseLatched 171 2 (toXclk s)
  else s

/-- XCLK fails a monitor check (R54): the reference moves to ember; XCLK_LOST follows at the lock. Every loss of a
qualified XCLK counts toward the four of R56, the selected reference or not (DESIGN CHOICE: R54 speaks of the selected
reference, R56 of XCLK; notes/assumptions/50.md). -/
def xclkLoss (s : State) : State :=
  if !s.den.up || inHush s || !s.clk.xPresent then s
  else
    let l := now s :: recentLosses s s.clk.losses
    let s1 := modClk (fun c => { c with xPresent := false, src := .holding, goodWindows := 0, losses := l,
                                        backoff := decide (4 ≤ l.length) }) s
    if s.clk.refEmber then s1
    else modClk (fun c => { c with refEmber := true, locked := false, coasting := true, lossPending := true }) s1

/-- XCLK has passed the monitor for XCLK_QUAL, or for 10 s after four losses (R53, R56). The monitor works while the
hub is not in HUSH. -/
def xclkQualified (s : State) : State :=
  if !s.den.up || inHush s then s
  else
    let again := s.clk.xPresent
    let s1 := endCause 171 1 (modClk (fun c => { c with
      xPresent := true, src := .xclk, goodWindows := if again then c.goodWindows else 0,
      backoff := !again && decide (4 ≤ (recentLosses s c.losses).length) }) s)
    if s1.clk.refEmber && s1.clk.rootRun && rbit s1 0x0104 0 && !forceEmber s1 && !s1.clk.backoff then
      raiseLatched 171 2 (toXclk s1)
    else s1

/-- Domains go back to the source CLK_DSEL gives them (R57, R59). -/
def unpark (s : State) : State :=
  (fins 9).foldl (fun t d => if d = domDen then t
    else modDom d (fun x => { x with ember := rbit t (0x0160 + 0x20 * d.val) 0, parked := false }) t) s

/-- The root has locked: LOCK_FAIL ends, and a loss of XCLK is raised now (R54 steps 4 and 5). -/
def rootLocked (s : State) : State :=
  if !s.clk.rootRun || s.clk.locked then s
  else
    let s1 := endCause 173 1 (unpark (modClk (fun c => { c with locked := true, coasting := false, lossPending := false }) s))
    if s.clk.lossPending then raiseAs 171 1 (!s.clk.xPresent) (countReg 0x0118 15 0 1 s1) else s1

/-- No lock after 50 µs: LOCK_FAILS counts each failure of the retries (R66). -/
def lockFail (s : State) : State :=
  if !s.clk.rootRun || s.clk.locked then s else raiseOnce 173 1 (countReg 0x0118 23 16 1 s)

/-- Converters at work keep the root running (R273). -/
def adcBusy (s : State) : Bool :=
  s.adc.seqs.toList.any (fun x => match x with
    | some x => x.running
    | none => false) || s.adc.convs.toList.any (fun c => c.cut.isSome || !c.queue.isEmpty)

/-- A record, a boot image or a bank's copy is being written. -/
def journalBusy (s : State) : Bool := !s.jnl.queue.isEmpty || s.jnl.biBusy || !s.jnl.reinstating.isEmpty

/-- A port has an operation in hand: in HUSH armed work's (R18). -/
def portsBusy (s : State) : Bool := s.twb.ports.toList.any (fun x => x.op = .xfer || x.op = .census || x.census.isSome)

/-- The journal has been idle for ROOT_IDLE in HUSH without USB_VBSNS: the root stops (R57). It runs on while a converter or
a two-wire port is at work: their domains would be parked (R273, DEDUCED for the ports, notes/assumptions/77.md). -/
def rootStop (s : State) : State :=
  if adcBusy s || portsBusy s || !inHush s || s.usb.vbus || journalBusy s || !s.clk.rootRun then s
  else
    (fins 9).foldl (fun t d => if d = domDen then t
      else modDom d (fun x => { x with ember := true, parked := parks d }) t)
      (modClk (fun c => { c with rootRun := false, locked := false, coasting := false }) s)

/-! ### The ember trim (R49 to R51, R365, R368) -/

/-- Half a step is 0.2 ember cycles: an odd error leaves the rounding open. -/
def trimStep (cycles : Nat) (s : State) : Int × State :=
  let d : Int := 5 * (8000 - (cycles : Int))
  if d % 2 = 0 then (d / 2, s) else let r := drawNat s; (d / 2 + (r.1 % 2 : Nat), r.2)

def emberMin (s : State) : Int := signed 11 (rfld s 0x9604 10 0)
def emberMax (s : State) : Int := signed 11 (rfld s 0x9604 26 16)

/-- CODE moves by the error, at most 64 steps, and stops at the leash: LEASH_HIT and LEASH_EDGE tell of an arrival there,
not of a CODE that still comes in from outside a leash made narrower. -/
def trimCode (want : Int) (s : State) : State :=
  let c := s.clk.code
  let t := c + clampI (-64) 64 want
  let inside := clampI (emberMin s) (emberMax s) t
  let code := clampI (-1024) 1023 (clampI (c - 64) (c + 64) inside)
  let hit := decide (inside ≠ t ∧ code = inside)
  let s1 := modClk (fun k => { k with code := code, leashHit := hit }) s
  if hit && !s.clk.leashHit then
    leashEdge 0 0 (if t < inside then 1 else 2) (BitVec.ofInt 64 s1.clk.code) s1
  else s1

/-- TRIM_LOCKED: three windows in a row within ±0.05 %, lost outside ±0.1 %. -/
def trimLock (cycles : Nat) (s : State) : State :=
  let e := ((cycles : Int) - 8000).natAbs
  modClk (fun c =>
    let n := if e ≤ 4 then min 3 (c.goodWindows + 1) else 0
    { c with goodWindows := n, trimLocked := if 8 < e then false else c.trimLocked || decide (n = 3) }) s

def trimBy (cycles : Nat) (s : State) : State :=
  let d := trimStep cycles (trimLock cycles s)
  trimCode d.1 d.2

/-- A 1 ms window against XCLK. -/
def trimWindow (cycles : Nat) (s : State) : State :=
  if !s.den.up || !s.clk.xPresent || inHush s then s else trimBy cycles (modClk (fun c => { c with src := .xclk }) s)

/-- A start-of-frame mark (R49, R50, R328): the port counts it, and its interval trims ember or is discarded and counted. -/
def sofMark (cycles : Nat) (s : State) : State :=
  if !s.den.up || !s.usb.attached || s.usb.suspended then s
  else
    let s1 := countReg 0x9010 15 0 1 s
    if !s.usb.configured || !rbit s 0x0104 1 || s.clk.xPresent then s1
    else
      let s2 := modClk (fun c => { c with src := .sof }) s1
      if 80 < ((cycles : Int) - 8000).natAbs then countReg 0x9010 31 16 1 s2 else trimBy cycles s2

/-! ### CLK_DSEL (R59) -/

/-- The source that a domain uses in FULL and OUTAGE; parking overrides it. -/
def setDsel (d : Fin 9) (v : Word) (s : State) : State :=
  if d = domDen then s
  else modDom d (fun x => if s.clk.rootRun then { x with ember := bit v 0 } else x) (setReg (0x0160 + 0x20 * d.val) (v &&& 1) s)

/-! ### Commands -/

def execXclkLoss (s : State) : Out := .next (xclkLoss s)
def execRootLock (s : State) : Out := .next (rootLocked s)
def execLockFailRetry (s : State) : Out := .next (lockFail s)
def execXclkQualified (s : State) : Out := .next (xclkQualified s)
/-- With XCLK qualified, ember counts outside ±6 %, or stands still (R66): FORCE_EMBER no longer holds the root on it. -/
def emberBad (s : State) : State := if s.den.up && s.clk.xPresent then refSelect (raiseOnce 171 3 s) else s

def execEmberBad (s : State) : Out := .next (emberBad s)
def execTrimWindow (cycles : Nat) (s : State) : Out := .next (trimWindow cycles s)
def execSofMark (cycles : Nat) (s : State) : Out := .next (sofMark cycles s)
def execRootStop (s : State) : Out := .next (rootStop s)

end Sys2Proof.Machine
end

