-- ==== Sys2Proof/Machine/OwlOps.lean ====
section
/-! DEFINITION. The Owls (20): feeding, expiry's rung 0, the ladder (R338 to R347). The Core reset of a Core Owl's
expiry is in Resets. -/

namespace Sys2Proof.Machine

def owlRung1En (s : State) (o : Fin 2) : Bool := bit (owlReg s o 0) 4
def owlRung2En (s : State) (o : Fin 2) : Bool := bit (owlReg s o 0) 5
def owlMaxCycles (s : State) (o : Fin 2) : Nat := orElse0 (fld (owlReg s o 0) 11 8) 3

/-- OWL_COUNT of an Owl. -/
def owlCountAt (o : Fin 2) : Nat := 0x9428 + 0x20 * o.val

/-- EN and CLKSRC as OWL_CFG now has them (R338, R342). -/
def owlApply (o : Fin 2) (s : State) : State :=
  let en := owlEn s o
  owlSettle o (modOwl o (fun x => { x with
    clock := if bit (owlReg s o 0) 2 then .ember else .wdt,
    cycles := if en then x.cycles else 0,
    left := if x.state = .off then owlTmo s o else x.left,
    state := if !en then .off else if x.state = .off then .watch else x.state }) s)

/-- The Owl counts: in WATCH, which `owlSettle` leaves where it rests; the Host Owl not while a die shutdown holds, the Core
Owl while CORE is not parked (R338, R343). -/
def owlCounts (s : State) (o : Fin 2) : Bool :=
  owlEn s o && s.owl.owls[o].state = .watch &&
    (if o = 0 then !owlRests s 0 && !s.thm.shutdown && !s.thm.cooling else !owlRests s 1 && !(s.clk.domains[0]).parked)

/-- DLY1 and DLY2 in 10 µs. -/
def owlDly1 (s : State) (o : Fin 2) : Nat := 10000 * fld (owlReg s o 0xC) 7 0
def owlDly2 (s : State) (o : Fin 2) : Nat := 10000 * fld (owlReg s o 0xC) 15 8

def owlCauseCode : OwlCause → Nat
  | .timeout => 1 | .early => 2 | .clkStop => 3 | .domainReset => 4

/-- Rung 0 (R344), without the Core reset. -/
def owlRung0 (o : Fin 2) (c : OwlCause) (s : State) : State :=
  let s1 := raise (174 + o.val) 1 (countReg (owlCountAt o) 15 0 1 (modOwl o (fun x => { x with
    state := .expired, rung := if owlRung1En s o then 1 else 2,
    left := if owlRung1En s o then owlDly1 s o else owlDly2 s o }) s))
  let s2 := fireOwl o.val (sendVector 21 (event 0x1001 0 o.val (owlCauseCode c) 0 s1))
  if owlRung1En s o || owlRung2En s o then s2 else owlEndLadder o s2

/-- A feed (R345, R346, R347). A Core Owl in GAVE_UP stays there. -/
def owlFed (o : Fin 2) (s : State) : State :=
  let s1 := endCause (174 + o.val) 1 (modOwl o (fun x => { x with lastFeed := now s, winFrom := some (now s) }) s)
  if s.owl.owls[o].state = .off || (o = 1 && decide (s.owl.owls[o].state = .gaveUp)) then s1
  else owlSettle o (modOwl o (fun x => { x with state := .watch, cycles := 0, left := owlTmo s o }) s1)

/-- With WIN_EN a Host Owl feed is early within WIN_OPEN of the last (R341). -/
def owlEarly (s : State) : Bool :=
  bit (owlReg s 0 0) 3 && match s.owl.owls[0].winFrom with
    | some t => decide (sinceT (now s) t < fld (owlReg s 0 8) 15 0 * 10000)
    | none => false

/-- A feed of the Host Owl; an early one is counted and is an expiry with cause EARLY. -/
def hostFeed (s : State) : State :=
  if !owlEn s 0 || !inRun s then s
  else if owlEarly s then
    owlRung0 0 .early (countReg (owlCountAt 0) 31 16 1 (modOwl 0 (fun x => { x with lastFeed := now s, winFrom := some (now s) }) s))
  else owlFed 0 s

/-- A tail read brings the heartbeat (R339). -/
def heartbeat (v : DWord) (s : State) : State :=
  if v = s.owl.hbeat then s else hostFeed { s with owl := { s.owl with hbeat := v } }

/-- The Host Owl starts with a full TMO at each entry to RUN, the return from a granted SETUP included, and leaves GAVE_UP
(R40, R338, R341, R346). A ladder under way goes on: an entry to RUN is no feed. -/
def owlRunEntry (s : State) : State :=
  let st := s.owl.owls[(0 : Fin 2)].state
  if owlEn s 0 && (st = .watch || st = .paused || st = .gaveUp) then
    owlSettle 0 (modOwl 0 (fun x => { x with state := .watch, winFrom := some (now s), left := owlTmo s 0 }) s)
  else s

/-- The rung that Owl `o` waits for is due. -/
def rungDue (s : State) (o : Fin 2) (r : Nat) : Bool :=
  s.owl.owls[o].state = .expired && s.owl.owls[o].rung = r && s.owl.owls[o].left = 0

/-- Rung 1, DLY1 after rung 0: HRST_N low for HRST_W; skipped in HUSH, or where it is no longer enabled (R344, R346). -/
def owlRungOne (o : Fin 2) (s : State) : State :=
  if !rungDue s o 1 then s
  else
    let s1 := modOwl o (fun x => { x with rung := 2, left := owlDly2 s o }) s
    if inHush s || !owlRung1En s o then (if owlRung2En s o then s1 else owlEndLadder o s1)
    else event 0x1002 0 o.val 1 0 (modPwr (fun p => { p with hrst := { p.hrst with pulse := true } })
      (modOwl o (fun x => { x with state := .resetting }) s1))

/-- HRST_W has passed: the pulse ends, and an Owl in RESETTING waits for rung 2 or has done (R344, R355). -/
def pulseEnd (s : State) : State :=
  (fins 2).foldl (fun t o => if t.owl.owls[o].state = .resetting then
      (if owlRung2En t o then modOwl o (fun x => { x with state := .expired }) t else owlEndLadder o t) else t)
    (modPwr (fun p => { p with hrst := { p.hrst with pulse := false } }) s)

/-- Rung 2, DLY2 after rung 1: the host graph down and, OFF_T later, up; up only in HUSH; down only after MAX_CYCLES
cycles (R344, R346). -/
def owlRungTwo (o : Fin 2) (s : State) : State :=
  if s.owl.owls[o].off = some 0 then
    settle (hostRun false (.owlUp o) (rootWake (modOwl o (fun x => { x with off := none }) s)))
  else if !rungDue s o 2 then s
  else if !owlRung2En s o then owlEndLadder o s
  else
    let spent := decide (owlMaxCycles s o ≤ s.owl.owls[o].cycles)
    let s1 := event 0x1002 0 o.val 2 0 (modOwl o (fun x => { x with state := .cycling }) s)
    if (nth s.graphs (hostGraph s) none).isNone then
      (if spent then afterRun (.owlDown o false) s1 else owlEndLadder o s1)
    else if spent then settle (hostRun true (.owlDown o false) s1)
    else if inHush s then settle (hostRun false (.owlUp o) (rootWake s1))
    else settle (hostRun true (.owlDown o true) s1)

/-! ### Commands -/

def execOwlRung1 (o : Fin 2) (s : State) : Out := .next (owlRungOne o s)
def execOwlRung2 (o : Fin 2) (s : State) : Out := .next (owlRungTwo o s)
/-- HOSTRST and rung 1 pulses end (R355). -/
def execHostrstEnd (s : State) : Out := .next (pulseEnd s)

/-- OWL_FEED (R340). -/
def execOwlFeed (a : Word) (s : State) : Out :=
  .next (beginWork 0x02 a (fun it t =>
    if it.redriven then complete a .done 0x11 0 t
    else if !owlEn t 0 then complete a .refusedState 0x10 0 t
    else
      let left := BitVec.ofNat 64 t.owl.owls[(0 : Fin 2)].left
      if owlEarly t && inRun t then complete a .done 0x12 left (hostFeed t) else complete a .done 0 left (hostFeed t)) s)

end Sys2Proof.Machine
end

