-- ==== Sys2Proof/Machine/Writes.lean ====
section
/-! DEFINITION. What every register write shares: the count of locked writes (R39), the SETUP_WRITE record of a
granted SETUP (R40), the range rule (R376). -/

namespace Sys2Proof.Machine

/-- A write that is counted in GLB_LOCKED_WR. -/
def lockCount (o : Nat) (s : State) : State := setReg 0x0024 (at_ 0 o) (countReg 0x0020 31 0 1 s)

/-- A write that takes effect in a granted SETUP is journaled (R40); its record may wait for room (R139). -/
def setupRecord (o : Nat) (v : Word) (s : State) : State :=
  if s.pwr.iface = .granted then commitNew (hubRec 0x12 [at_ 0 o, v]) s else s

/-- LANE_RSENSE of the lane whose register stands at `o`. -/
def rsenseAt (s : State) (o : Nat) : Nat := if 0x1000 ≤ o ∧ o < 0x4000 then rfld s (o - o % 0x100 + 0x1C) 9 0 else 0

/-- The value that a write of `v` into the fields `m` leaves, out-of-range fields brought to the nearer end. -/
def merged (s : State) (o : Nat) (m v : Word) : Word :=
  clampReg (liIon s) (rsenseAt s o) o ((reg s o &&& ~~~m) ||| (v &&& m))

/-- Stores the fields `m` of a register. -/
def storeFields (o : Nat) (m v : Word) (s : State) : State := setReg o (merged s o m v) s

/-- Bits of `o` that a write of `v` would have to change to count as locked: RWS and RWD fields that differ, WO fields
that are not zero. -/
def wouldChange (s : State) (o : Nat) (a : Acc) (v : Word) : Bool :=
  decide ((readReg s o ^^^ v) &&& a.locked ≠ 0) || decide (v &&& a.wo ≠ 0)

/-- Registers whose fields carry more than one access code, a locked one among them. -/
def mixedCodes (o : Nat) : Bool :=
  o = 0x0010 || o = 0x0404 || o = 0x0840 || o = 0x5404 || (0x0C00 ≤ o && o < 0x0F00) ||
    (0x7080 ≤ o && o < 0x7680 && (o - 0x7080) % 0x18 = 0)

/-- Registers coded RWS of which this instance has no field: LANE_CSCFG of an integrated lane, OWL_WIN of the Core Owl. -/
def fieldless (o : Nat) : Bool := o = 0x9438 || (0x1000 ≤ o && o < 0x3000 && o % 0x100 = 0x1C)

/-- A write of `v` that RUN ignores is counted: always where the register has one code, where it would change a locked
field otherwise (R39). -/
def countsLocked (s : State) (o : Nat) (a : Acc) (v : Word) : Bool :=
  if mixedCodes o then wouldChange s o a v else decide (a.locked ||| a.wo ≠ 0) || fieldless o

/-- Clears the bits of a W1C register that are written as 1. -/
def clearBits (o : Nat) (v : Word) (s : State) : State := modReg o (fun w => w &&& ~~~v) s

end Sys2Proof.Machine
end

