-- ==== Sys2Proof/Machine/Link.lean ====
section
/-! DEFINITION. The PCI Express link (05): the ring hold (R77 to R80), its resets (R78), training and speed (R84, R85,
R396), power states (R74, R75), interrupts (R72), the failures of reads (R81, R82) and FSRC 168 (R86). -/

namespace Sys2Proof.Machine

/-! ### Poll interval (R73) -/

def pollMin (s : State) : Nat := orElse0 (rfld s 0x040C 9 0) 1
def pollMax (s : State) : Nat := max (pollMin s) (rfld s 0x040C 25 16)
def resetInterval (s : State) : State := modLink (fun l => { l with interval := pollMin s }) s

/-- An LTR message with the latency POLL_MAX, in 10 µs steps (R76). -/
def sendLtr (s : State) : State :=
  if s.link.cfg.ltrEn && s.link.dlUp then emit (.ltr (pollMax s)) (modLink (fun l => { l with ltrTold := pollMax s }) s) else s

/-! ### Causes of FSRC 168 that indices decide (R86, R87, R92) -/

def sqOn (s : State) (q : Fin 16) : Bool := ringOn (sqCfg s q.val)
def cqOn (s : State) (q : Fin 16) : Bool := ringOn (cqCfg s q.val)
def eqOn (s : State) : Bool := ringOn (reg s 0x0658)

def anySqBad (s : State) : Bool := (fins 16).any (fun q => sqOn s q && s.link.sqs[q].bad)
def anyOutBad (s : State) : Bool :=
  (fins 16).any (fun q => cqOn s q && s.link.cqs[q].bad) || (eqOn s && s.link.eq.bad) ||
    (fins 4).any (fun k => stOn s k.val && s.link.sts[k].bad)

/-- An SQ with EN set names a CQ whose EN is clear. -/
def cqOffNow (s : State) : Bool := (fins 16).any (fun q => bit (sqCfg s q.val) 16 && !bit (cqCfg s (fld (sqCfg s q.val) 11 8)) 16)

def causeFollows (d : Nat) (b : Bool) (s : State) : State := if b then raiseOnce 168 d s else endCause 168 d s

/-- SQ_INDEX, CQ_INDEX and CQ_OFF follow what they watch. -/
def judgeRings (s : State) : State :=
  let s1 := causeFollows 4 (anySqBad s) s
  let s2 := causeFollows 5 (anyOutBad s) s1
  causeFollows 6 (inRun s && cqOffNow s) s2

/-! ### The hold (R77, R78, R80, R114) -/

/-- The job of a ring: its SQ, none for the service ring. -/
def jobRing : Job → Nat
  | .accept it => it.ring.toNat
  | .door it _ _ _ => it.ring.toNat

/-- The commit in hand goes on; what was only read is forgotten: nothing but the service ring's jobs stays behind it. -/
def keepJobs (l : List Job) : List Job :=
  match l with
  | [] => []
  | j :: rest => j :: rest.filter (fun x => 16 ≤ jobRing x)

def jobsOf (s : State) (q : Nat) : Nat := (s.jnl.queue.filter (fun j => jobRing j = q)).length

/-- Each SQ is read again from the first entry that no commit covers. -/
def refetch (s : State) : State :=
  (fins 16).foldl (fun t q => modLink (fun l => { l with
    sqs := upd l.sqs q (fun r =>
      let f := r.cons + BitVec.ofNat 32 (jobsOf s q.val)
      { r with fetch := f, rseqFails := if f = r.fetch then r.rseqFails else 0 }) }) t) s

/-- HELD sets once the commit in hand has ended; the shadow page is written before it, if DMA is possible. -/
def heldWhenDone (s : State) : State :=
  if !s.link.hold || s.link.held || s.jnl.queue.any (fun j => jobRing j < 16) then s
  else owlReload 0 (modLink (fun l => { l with held := true }) (shadowPage s))

/-- HOLD sets, by a write or a cause; a waiting release is cancelled. -/
def holdNow (s : State) : State :=
  let s1 := modLink (fun l => { l with hold := true, bmeWait := false }) s
  if s.link.hold then s1
  else heldWhenDone (refetch (modJnl (fun j => { j with queue := keepJobs j.queue }) s1))

/-- A completion that was posted and not acknowledged is due again, marked REPLAYED. -/
def dueAgain (c : Comp) : Comp := if c.pos.isSome && c.cq < 16 then { c with pos := none, replayed := true } else c

def repost (s : State) : State := modEng (fun e => { e with comps := e.comps.map dueAgain }) s

/-- Those of CQ `q`, whose positions have restarted. -/
def repostOn (q : Nat) (s : State) : State :=
  modEng (fun e => { e with comps := e.comps.map (fun c => if c.cq = q then dueAgain c else c) }) s

/-- The release: steps 1 to 3 of R80; what is due is posted after the polls that follow. R80 gives no interval for them: the
model lets it start at POLL_MIN (DESIGN CHOICE, notes/assumptions/54.md). -/
def releaseNow (s : State) : State :=
  let s1 := repost (modLink (fun l => { l with
      hold := false, held := false, bmeWait := false, interval := pollMin s, tailHigh := false,
      cqs := l.cqs.map (fun r => { r with fresh := false }),
      eq := { l.eq with fresh := false, adopt := eqOn s },
      sts := Vector.ofFn (fun k => { l.sts[k] with fresh := false, adopt := stOn s k.val }) }) s)
  sendUnmasked (shadowPage (owlReload 0 s1))

/-- A write of 0 to HOLD. -/
def writeRelease (s : State) : State :=
  if !s.link.hold then s
  else if s.link.bme then releaseNow s
  else modLink (fun l => { l with bmeWait := true }) s

/-- A cause of R78 sets HOLD in RUN. -/
def holdInRun (s : State) : State := if inRun s then holdNow s else s

/-! ### Resets of the link (R78) -/

/-- CLKMODE of the boot image in use, else 1 (R126). -/
def imageClkMode (s : State) : Bool := match s.jnl.inUse with
  | some c => bit (imgWord s c.val 7) 4
  | none => true

/-- What PERST_N and a Function Level Reset reset. -/
def resetConfig (s : State) : State :=
  let s1 := modLink (fun l => { l with cfg := linkCfgReset, bme := false, masked := 0, wakePend := 0, aer := 0,
                                       aerCorr := 0, ltrTold := 0, dmaFail := false,
                                       bmeWait := false, clkreqReleased := false }) s
  endCause 168 2 (endCause 168 1 (setReg 0x0414 0 (setReg 0x0410 0
    (modReg 0x0404 (fun w => setFld w 4 4 (if imageClkMode s then 1 else 0)) s1))))

/-! ### Failures of reads and writes (R81) -/

def readErrCode : ReadError → Nat
  | .ur => 1 | .ca => 2 | .poisoned => 3 | .timeout => 4

/-- LINK_DMAERR: the structure, the cause and the SQ. -/
def noteDmaErr (what cause q : Nat) (s : State) : State :=
  setReg 0x041C (at_ 0 what ||| at_ 4 cause ||| at_ 8 q) s

/-- An item's read or write that could not be made, or that failed: FAILED 0x10 DMA. -/
def failDma (a : Word) (what cause : Nat) (s : State) : State := complete a .failed 0x10 0 (noteDmaErr what cause 0 s)

/-- What an item's read of `len` bytes brings: its words, or the failure of the item. A read lost with the link is no failed
read. -/
def itemRead (a : Word) (what : Nat) (from_ : DWord) (len : Nat) (r : ItemRead) (k : List Word → State → State)
    (s : State) : State :=
  if !dmaOk s then failDma a what 5 s
  else
    let t := memRead from_ len s
    match r with
    | .data ws => k ws t
    | .failed e => failDma a what (readErrCode e) t
    | .lost => complete a .failed 0x10 0 t

/-- A failed read of the doorbell page or of an SQ; the third in a row holds the rings. -/
def dmaReadFail (what : ReadOf) (e : ReadError) (s : State) : State :=
  if !inRun s || !dmaOk s || s.link.hold then s
  else
    let s1 := match what with
      | .doorbell => modLink (fun l => { l with dbFails := l.dbFails + 1 }) (noteDmaErr 0 (readErrCode e) 0 s)
      | .sq q => modLink (fun l => { l with sqFails := upd l.sqFails q (· + 1),
                                            sqs := upd l.sqs q (fun r => { r with stalled := true }) })
                   (noteDmaErr 1 (readErrCode e) q.val s)
    let n : Nat := match what with
      | .doorbell => s1.link.dbFails
      | .sq q => s1.link.sqFails[q]
    if n < 3 then s1
    else raiseOnce 168 1 (modLink (fun l => { l with dmaFail := true, dbFails := 0, sqFails := Vector.replicate 16 0 }) (holdNow s1))

/-! ### Ring and page registers (R79, R88) -/

/-- Offsets 0x0440 to 0x067C. -/
def isRingReg (o : Nat) : Bool := 0x0440 ≤ o && o < 0x0680

/-- A ring whose configuration changes from `a` to `b` comes into use; SIZE or EN changed. -/
def comesUp (a b : Word) : Bool := ringOn b && !(ringOn a && fld a 3 0 = fld b 3 0)

def stCfgOn (b : Nat) : Bool := nbit b 7 && 6 ≤ b % 32 && b % 32 ≤ 16

def freshRing : OutRing := { prod := 0, cons := 0, fresh := true, adopt := false, bad := false }

/-- What has gone wrong with the BODY items of an ARM (R142): what went wrong first, and whether one is missing, so that no
more come (notes/assumptions/47.md). -/
def bodyFault (had now : Nat) : Nat := if had = 0 then now else if had = 2 && now = 1 then 3 else had

/-- The ARM that BODY descriptors follow learns of them: one seen, and what was wrong with it. -/
def armSees (a : Option Word) (seen : Nat) (fail : Nat) (s : State) : State :=
  match a with
  | some a => modItem a (fun i => { i with bodySeen := i.bodySeen + seen, bodyFail := bodyFault i.bodyFail fail }) s
  | none => s

/-- BODY descriptors still due after an ARM can come no more, because their ring restarts or their grant has ended: for the ARM
they count as missing (R142 names only a descriptor without BODY: DESIGN CHOICE, notes/assumptions/55.md). -/
def armLoses (x : BodyDue) (s : State) : State := if x.left = 0 then s else armSees x.arm 0 1 s

/-- Indices restart where a ring has come into use. -/
def restartRings (o : Nat) (a b : Word) (s : State) : State :=
  if o % 16 = 8 && o < 0x0540 then
    (match fin? 16 ((o - 0x0440) / 16) with
     | some q => if comesUp a b then modLink (fun l => { l with
           sqs := upd l.sqs q (fun _ => { prod := 0, cons := 0, fetch := 0, rseqFails := 0, bad := false, stalled := false }),
           sqFails := upd l.sqFails q (fun _ => 0),
           bodyDue := upd l.bodyDue q (fun _ => { arm := none, left := 0, refused := false }) }) (armLoses s.link.bodyDue[q] s) else s
     | none => s)
  else if o % 16 = 8 && o < 0x0640 then
    (match fin? 16 ((o - 0x0540) / 16) with
     | some q => if comesUp a b then
         repostOn q.val (modLink (fun l => { l with cqs := upd l.cqs q (fun _ => freshRing) }) s) else s
     | none => s)
  else if o = 0x0658 then (if comesUp a b then modLink (fun l => { l with eq := freshRing }) s else s)
  else if o = 0x065C then
    (fins 4).foldl (fun t k =>
      let x := fld a (8 * k.val + 7) (8 * k.val)
      let y := fld b (8 * k.val + 7) (8 * k.val)
      if stCfgOn y && !(stCfgOn x && x % 32 = y % 32) then modLink (fun l => { l with sts := upd l.sts k (fun _ => freshRing) }) t else t) s
  else s

/-- A write to a ring or page register: in SETUP always, in RUN only while HELD. -/
def ringWrite (o : Nat) (v : Word) (s : State) : State :=
  match regAccess o with
  | none => s
  | some acc =>
    if !isRingReg o || acc.rw = 0 then s
    else if setupWrites s || s.link.held then
      let a := reg s o
      let s1 := setupRecord o v (storeFields o acc.rw v s)
      judgeRings (restartRings o a (reg s1 o) s1)
    else lockCount o s

/-! ### Meanings -/

def holdSet (s : State) : State := holdNow s

/-- What the host has written into configuration space takes effect (R67, R72, R82, R86). -/
def configWrite (bme : Bool) (c : LinkCfg) (k : AerAck) (s : State) : State :=
  let aer := s.link.aer &&& ~~~k.uncorr
  let s1 := modLink (fun l => { l with bme := bme, cfg := c, aer := aer, aerCorr := l.aerCorr &&& ~~~k.corr }) s
  if aer = 0 then endCause 168 2 s1 else s1

def bmeSet (c : LinkCfg) (k : AerAck) (s : State) : State :=
  if !s.link.dlUp then s
  else
    let s1 := configWrite true c k s
    if s.link.bmeWait then releaseNow s1 else sendUnmasked s1

/-- Clearing Bus Master Enable holds the rings (R78); a write that finds it clear only stores. -/
def bmeClear (c : LinkCfg) (k : AerAck) (s : State) : State :=
  if !s.link.dlUp then s
  else
    let s1 := configWrite false c k s
    if s.link.bme then holdInRun s1 else s1

/-- PERST_N is ignored in HUSH (R18). -/
def perstAssert (s : State) : State :=
  if !s.den.up || inHush s then s
  else holdInRun (resetConfig (linkLost (modLink (fun l => { l with perst := true, training := false, since := none }) s)))

/-- Step 9 of the cold start has ended: the link may train (R396). -/
def mayTrain (s : State) : Bool :=
  s.den.up && !inHush s && (s.pwr.stage = .heldImage || s.pwr.stage = .blank || s.pwr.stage = .started)

/-- A training begins: CLKMODE takes effect (R84). -/
def train (s : State) : State := modLink (fun l => { l with training := true, sris := rbit s 0x0404 4 }) s

/-- A Function Level Reset: LINK_STATUS other than HELD is reset too, so that the link shows as down until it has trained
again (R78). -/
def functionLevelReset (s : State) : State :=
  if !s.link.dlUp then s
  else
    let s1 := resetConfig (modLink (fun l => { l with dlUp := false, gen2 := false, lstate := .down }) s)
    holdInRun (if mayTrain s1 then train s1 else s1)

/-- PERST_N has been released and step 9 of the cold start has ended. -/
def linkTrainingStart (s : State) : State :=
  if !mayTrain s || s.link.dlUp then s
  else train (modLink (fun l => { l with perst := false, since := some (now s) }) s)

/-- The link leaves DL_Up, and 10 ms later it has not come back. On XCLK it trains again at once, on ember every 100 ms
(R85). -/
def linkDown (s : State) : State :=
  if !s.den.up then s
  else
    let s1 := linkLost s
    let s2 := if s.link.dlUp && mayTrain s && !s.link.perst && !s.clk.refEmber then train s1 else s1
    if inRun s && !s.link.hold && !inHush s then raiseOnce 168 3 s2 else s2

/-- With the root on ember a link that is down trains again every 100 ms. -/
def linkRetrain (s : State) : State :=
  if s.link.dlUp || !s.clk.refEmber || s.link.perst || !mayTrain s then s else train s

def linkUp (gen2 : Bool) (s : State) : State :=
  if !mayTrain s || !s.link.training || s.link.dlUp || s.link.perst then s
  else
    let s1 := modLink (fun l => { l with
      dlUp := true, training := false, gen2 := gen2 && !s.clk.refEmber && l.cfg.target5, lstate := .l0, wakePend := 0,
      clkreqReleased := false }) s
    let s2 := endCause 168 3 s1
    let s3 := if s.pwr.iface = .run then sendLtr s2 else s2
    sendUnmasked (if s3.link.rewrite && dmaOk s3 then modLink (fun l => { l with rewrite := false }) (shadowPage s3) else s3)

/-- ASPM L1 after 10 µs without a TLP; the substates as they are enabled (R75). -/
def l1Entry (sub : Fin 3) (s : State) : State :=
  let c := s.link.cfg
  if !s.link.dlUp || s.link.lstate ≠ .l0 || !c.aspmL1 then s
  else
    let st : LState := if sub = 2 && c.l12 then .l12 else if sub = 1 && c.l11 then .l11 else .l1
    modLink (fun l => { l with lstate := st, clkreqReleased := c.l11 || c.l12 }) s

/-- After an exit that no poll caused the hub polls at once and then sets the interval to POLL_MIN (R74): the poll is the
sender's next command. Where no poll can be made, in SETUP or while HELD, the poll stays due until the first that is made,
and the interval is POLL_MIN after that one (R74 does not say: DESIGN CHOICE, notes/assumptions/79.md). -/
def l1Exit (byPoll : Bool) (s : State) : State :=
  if !s.link.dlUp || s.link.lstate = .l0 || s.link.lstate = .down then s
  else
    modLink (fun l => { l with lstate := .l0, clkreqReleased := false, pollDue := l.pollDue || !byPoll }) s

/-- The mask of a message is lifted: a message held back is sent. -/
def vectorUnmask (v : Fin 32) (s : State) : State :=
  let m := at_ v.val 1
  if !s.link.dlUp then s
  else sendUnmasked (modLink (fun l => { l with cfg := if l.cfg.msix then { l.cfg with msixMask := l.cfg.msixMask &&& ~~~m }
    else { l.cfg with msiMask := l.cfg.msiMask &&& ~~~m } }) s)

/-- LINK_POLL: a change of POLL_MAX in RUN sends an LTR message. -/
def linkPollWrite (v : Word) (s : State) : State :=
  let s1 := setupRecord 0x040C v (storeFields 0x040C 0x03FF03FF v s)
  if s.pwr.iface = .run && rfld s 0x040C 25 16 ≠ rfld s1 0x040C 25 16 then sendLtr s1 else s1

/-- The number of bits set. -/
def ones (w : Word) : Nat := ((List.range 32).filter (fun i => bit w i)).length

/-- Errors that AER logs: correctable ones are counted only (R82). -/
def aerUncorrectable (status correctable : Word) (s : State) : State :=
  if !s.link.dlUp then s
  else
    let st := s.link.aer ||| status
    let s1 := countReg 0x0418 15 0 (ones correctable)
      (modLink (fun l => { l with aer := st, aerCorr := l.aerCorr ||| correctable }) s)
    if st = 0 then s1 else raiseOnce 168 2 s1

/-! ### Commands -/

/-- A write of LINK_CTL that changes HOLD alone, journaled in a granted SETUP (R40). -/
def holdRecord (b : Bool) (s : State) : State := setupRecord 0x0404 (flag 0 b ||| (reg s 0x0404 &&& 0x10)) s

def execHoldSet (s : State) : Out := .next (if s.den.up then holdSet (holdRecord true s) else s)
def execHoldRelease (s : State) : Out := .next (if s.den.up && s.link.bme then writeRelease (holdRecord false s) else s)
def execHoldReleaseWait (s : State) : Out := .next (if !s.den.up || s.link.bme then s else writeRelease (holdRecord false s))
def execBmeSet (c : LinkCfg) (k : AerAck) (s : State) : Out := .next (bmeSet c k s)
def execBmeClear (c : LinkCfg) (k : AerAck) (s : State) : Out := .next (bmeClear c k s)
def execPerstAssert (s : State) : Out := .next (perstAssert s)
def execFunctionLevelReset (s : State) : Out := .next (functionLevelReset s)
def execLinkTrainingStart (s : State) : Out := .next (linkTrainingStart s)
def execLinkDown (s : State) : Out := .next (linkDown s)
def execLinkRetrain (s : State) : Out := .next (linkRetrain s)
def execLinkUp (gen2 : Bool) (s : State) : Out := .next (linkUp gen2 s)
def execL1Entry (sub : Fin 3) (s : State) : Out := .next (l1Entry sub s)
def execL1Exit (byPoll : Bool) (s : State) : Out := .next (l1Exit byPoll s)
def execVectorUnmask (v : Fin 32) (s : State) : Out := .next (vectorUnmask v s)
def execDmaReadFail (what : ReadOf) (e : ReadError) (s : State) : Out := .next (dmaReadFail what e s)
def execAerUncorrectable (status correctable : Word) (s : State) : Out := .next (aerUncorrectable status correctable s)

end Sys2Proof.Machine
end

