-- ==== Sys2Proof/Machine/Operands.lean ====
section
/-! DEFINITION. The operand layouts of every opcode (R397): the bits that words 4 to 13 may hold, by the fields that
select among layouts, and which opcodes are listed (R120) and authorised. -/

namespace Sys2Proof.Machine

def full : Word := 0xFFFFFFFF

/-- Words 5 to 13 of HANDLE_CREATE for an ADCSEQ (R260): word 9 by TRIG in word 8. -/
def layoutSeq (w8 : Word) : List Word :=
  [full, full, 0xFF, 0xFFFF00FF,
   (match fld w8 3 2 with
    | 0 => 0x000FFFFF | 1 => 0x00FF013F | 2 => 0x37F | _ => 0),
   0x001F837F]

/-- Words 5 to 8 of a thermal rule (R292): word 7 and word 8 by ACTION in word 5. -/
def layoutRule (w5 : Word) : List Word :=
  let act : Word × Word := match fld w5 11 8 with
    | 1 => (full, 0x3FFF) | 2 => (0, 0x3FF) | 3 => (0, 0xFFFF) | 4 => (full, 0xFFFF3FFF) | 5 => (0, 0xF)
    | 6 => (full, 0) | _ => (full, full)
  [0xFFFF0FFF, 0xFFFF, act.1, act.2]

/-- Words 5 to 13 of HANDLE_CREATE by CLASS (R115); for an unlisted CLASS what some layout uses. -/
def layoutCreate (w4 w5 w8 : Word) : List Word :=
  match fld w4 3 0 with
  | 1 => [full, 0xFFFF, 0x030F3FFF, 0xFFBF0F9F, full, 0x00FFFFFF, 0x00FFFFFF, 0xFFFF]
  | 2 => [0x0073FFFF, 0x00FFFFFF]
  | 3 => [0x307, 0x00FFFFFF, full, 0x00FFFFFF, 0x00FFFFFF, 0x00FFFFFF, full, full, full]
  | 4 => [0x03FFFFFF, 0x3FFF03FF, 0x00FFF103, 0xBFFF3FFF, 0xBFFF3FFF, 0xBFFF3FFF, 0xBFFF3FFF, 0xFFFF]
  | 5 => layoutSeq w8
  | 6 => [0x00037F03, 0x7]
  | 8 => layoutRule w5
  | 9 => [full, full, full]
  | _ => [full, full, full, full, full, 0xBFFFFFFF, full, full, full]

/-- Words 4 to 8 of ARM by TRIGGER (R140). -/
def layoutArm (w4 : Word) : List Word :=
  let t := fld w4 3 0
  let w5 : Word := match t with
    | 1 => 0 | 2 => 0 | 3 => 0xFF | 4 => 0 | 5 => 0x33F | 6 => 1 | _ => 0x3FF
  let time := t = 4 || t = 0 || 7 ≤ t
  [0x0F0F, w5, if time then full else 0, if time then 0xFFFF else 0, 0xFFFF]

/-- Words 4 to 13 of TWB_XFER by BUF (R314). -/
def layoutXfer (w4 : Word) : List Word :=
  [0x00F77F03, 0x01FF01FF] ++ (if bit w4 18 then [full, full, full] else List.replicate 8 full)

/-- Words 6 to 12 of FAN_SET are used with NEWCFG only, each as the same word in creation (R257). -/
def layoutFan (w4 : Word) : List Word :=
  [0x101, full] ++ (if bit w4 8 then
    [0x3FFF03FF, 0x00FFF103, 0xBFFF3FFF, 0xBFFF3FFF, 0xBFFF3FFF, 0xBFFF3FFF, 0xFFFF] else [])

/-- The bits that words 4 to 13 may hold, none for an opcode that is not listed (R120). Missing words are unused. -/
def layoutOf (op : Nat) (w4 w5 w8 : Word) : Option (List Word) :=
  match op with
  | 0x00 | 0x01 | 0x02 | 0x09 | 0x11 | 0x21 | 0x31 | 0x61 | 0x70 => some []
  | 0x08 => some (0xFFFF000F :: layoutCreate w4 w5 w8)
  | 0x10 => some [0x3FFF, 0x3FF]
  | 0x12 => some [1]
  | 0x13 => some [0, full, 0xFFFF]
  | 0x14 => some [full, 0x00FFFFFF, 0x00FFFFFF, 0x103]
  | 0x15 => some [1]
  | 0x20 => some [0x00FF0101]
  | 0x22 => some [full, 0xFF]
  | 0x23 => some [1]
  | 0x28 => some (layoutFan w4)
  | 0x30 => some [0xFFFF]
  | 0x32 => some [0x1F]
  | 0x38 => some (layoutXfer w4)
  | 0x39 => some [0x103, 0x7F7F]
  | 0x40 => some [0x1FF, 1, 0x3FF, 0x1FFF, 0x00FFFFFF, 0x00FFFFFF, 0x1FF, full, 0x00FF0FFF, full]
  | 0x41 => some [1, 0x7FF, 0x1FF, 0xFF]
  | 0x42 => some [1, 0x1FF, 0xFF, 0x00FFFFFF]
  | 0x43 => some [3, if fld w4 1 0 = 2 then full else 0]
  | 0x48 => some [0x3F, 0x00FFFFFF, 0x00FFFFFF, full, 1, 0xF, 0x00FFFFFF, 0xFF07]
  | 0x49 => some [0x3F, 0x07FF07FF, 0xF0F, 0x3FF, 0xFFFF, 0xF, 0x000F3F3F]
  | 0x50 => some (1 :: layoutRule w5)
  | 0x58 => some [full, full, full, 1]
  | 0x59 => some [full, full, full]
  | 0x5A => some [0x01FF01FF, 1, if bit w5 0 then 0x1FFF else 0]
  | 0x60 => some (layoutArm w4)
  | 0x68 => some [0xFF]
  | 0x69 => some [0xFFFF, 0x7F]
  | 0x71 => some [full, full, full, full]
  | 0x72 => some [0x103, full, full, full, full, full]
  | 0x78 => some [3, 0xFFFF, if fld w4 1 0 = 1 || fld w4 1 0 = 3 then 0x7FF else 0]
  | _ => none

/-- The opcode is listed. -/
def opListed (op : Nat) : Bool := (layoutOf op 0 0 0).isSome

/-- A bit that the layout leaves unused is set: operands are words 4 to 13. -/
def reservedSet (op : Nat) (ops : List Word) : Bool :=
  match layoutOf op (ops.getD 0 0) (ops.getD 1 0) (ops.getD 4 0) with
  | some l => ops.zipIdx.any (fun e => decide (e.1 &&& ~~~(l.getD e.2 0) ≠ 0))
  | none => false

/-- The authorised operations (06): RELAY_SET toward CLOSED, BURROW_ENTER, BOOT_IMAGE_WRITE, SERVICE_GRANT. -/
def authorised (op : Nat) (w4 : Word) : Bool := (op = 0x20 && bit w4 0) || op = 0x70 || op = 0x71 || op = 0x78

/-! ### Operands that several opcodes share -/

/-- A 48-bit member set in words 5 and 6 (R161). -/
def lanesOf (lo hi : Word) : BitVec 48 := hi.setWidth 16 ++ lo

/-- A buffer address in two words (R4). -/
def addrOf (lo hi : Word) : DWord := dword lo hi

def aligned (a : DWord) (n : Nat) : Bool := a.toNat % n = 0

end Sys2Proof.Machine
end

