-- ==== Sys2Proof/Machine/Door.lean ====
section
/-! DEFINITION. The door (06): the poll of the doorbell page (R89, R92, R98, R99), the checks of R100, acceptance
(R102, R131), the posting of held completions (R109) and background compaction (R138). -/

namespace Sys2Proof.Machine

/-! ### Banks that fail (R136, R137) -/

def bankRec (s : State) : List Word := hubRec 0x14 [flag 0 s.jnl.bankA.inService ||| flag 1 s.jnl.bankB.inService]

def bankIn (s : State) (b : Fin 2) : Bool := if b = 0 then s.jnl.bankA.inService else s.jnl.bankB.inService

def modBank (b : Fin 2) (f : Bank → Bank) (s : State) : State :=
  modJnl (fun j => if b = 0 then { j with bankA := f j.bankA } else { j with bankB := f j.bankB }) s

/-- What tells of a bank that is retired: its FSRC, BANK_RETIRED, vector 18. -/
def retireTold (b : Fin 2) (d : Nat) (s : State) : State := sendVector 18 (event 0x0401 0 b.val d 0 (raise (169 + b.val) d s))

/-- A bank is retired: its FSRC, a BANK record in the other bank, BANK_RETIRED, vector 18. -/
def retireBank (b : Fin 2) (d : Nat) (s : State) : State :=
  if !bankIn s b then s
  else
    let s1 := modBank b (fun x => { x with inService := false }) s
    retireTold b d (commit (bankRec s1) s1)

/-! ### Capacity (R108, R139) -/

/-- BODY items that wait for their trigger do not count against the CQ (R108). -/
def countsOpen (it : Item) : Bool := it.phase ≠ .body

def onCq (s : State) (c : Nat) (it : Item) : Bool := it.ring.toNat < 16 && itemCq s it = c

/-- Items on CQ `c` without a final verdict, those still on their way to the banks included. -/
def openOn (s : State) (c : Nat) : Nat :=
  (s.eng.items.filter (fun i => onCq s c i && countsOpen i)).length +
  (s.jnl.queue.filter (fun j => match j with
    | .accept it => onCq s c it && countsOpen it
    | .door .. => false)).length

/-- Positions reserved for completions of refused descriptors that are still to be committed. -/
def reservedOn (s : State) (c : Nat) : Nat :=
  (s.jnl.queue.filter (fun j => match j with
    | .door it _ _ _ => onCq s c it
    | .accept _ => false)).length

def freeSlots (s : State) (c : Fin 16) : Int :=
  (ringSize (cqCfg s c.val) : Int) - (s.link.cqs[c].held : Nat) - ((heldOn s c.val).length : Nat) - (reservedOn s c.val : Nat)

/-- R108, R87. -/
def cqAllows (s : State) (q : Fin 16) : Bool := match fin? 16 (fld (sqCfg s q.val) 11 8) with
  | some c => cqOn s c && decide (2 ≤ freeSlots s c - 2 * (openOn s c.val : Nat))
  | none => false

/-- Accepted items that lack a DONE, with those whose record is still on its way. -/
def openItems (s : State) : Nat := s.eng.items.length + (s.jnl.queue.filter (fun j => match j with
    | .accept _ => true
    | .door .. => false)).length

/-- R139: FREE is at least 256 plus twice the open items. -/
def journalAllows (s : State) : Bool := 256 + 2 * openItems s ≤ free s

/-- FULL_WAIT follows R139; each pause is told once. -/
def judgeFull (s : State) : State :=
  if dead s then s
  else if journalAllows s then modJnl (fun j => { j with fullWait := false }) s
  else if s.jnl.fullWait then s
  else sendVector 18 (event 0x0402 0 0 0 0 (modJnl (fun j => { j with fullWait := true }) s))

/-- The hub may consume the next descriptor of SQ `q`. -/
def mayTake (s : State) (q : Fin 16) : Bool :=
  sqOn s q && !s.link.sqs[q].stalled && decide (s.link.sqs[q].fetch ≠ s.link.sqs[q].prod) && cqAllows s q && journalAllows s

/-- The SQ whose turn it is (R99): the one served last up to eight times unless it has run dry, then round-robin after it. -/
def dueSq (s : State) : Option (Fin 16) :=
  if s.eng.turn < 8 && mayTake s s.eng.lastSq then some s.eng.lastSq
  else ((List.range 16).filterMap (fun i => fin? 16 ((s.eng.lastSq.val + 1 + i) % 16))).find? (mayTake s)

/-! ### BODY descriptors due (R398) -/

def itemBody (it : Item) : Bool := it.flags.getLsbD 0
def armCount (it : Item) : Nat := fld (opv it 4) 11 8

def dueOf (s : State) (ring : Nat) : BodyDue := if h : ring < 16 then s.link.bodyDue[ring] else s.usb.due

def setDue (ring : Nat) (x : BodyDue) (s : State) : State :=
  match fin? 16 ring with
  | some q => modLink (fun l => { l with bodyDue := upd l.bodyDue q (fun _ => x) }) s
  | none => modUsb (fun u => { u with due := x }) s

def jobItem : Job → Item
  | .accept it => it
  | .door it _ _ _ => it

def jobRefused : Job → Bool
  | .accept _ => false
  | .door .. => true

/-- What is due behind a descriptor, with `a` the ASEQ of an accepted ARM. -/
def dueAfter (x : BodyDue) (it : Item) (a : Option Word) (refused : Bool) : BodyDue :=
  if itemBody it then { x with left := x.left - 1 }
  else if it.opcode = 0x60 then { arm := a, left := armCount it, refused := refused }
  else { arm := none, left := 0, refused := false }

/-- What the door sees as due: descriptors on their way to the banks included. -/
def dueNow (s : State) (ring : Nat) : BodyDue :=
  (s.jnl.queue.filter (fun j => jobRing j = ring)).foldl (fun x j => dueAfter x (jobItem j) none (jobRefused j)) (dueOf s ring)

/-! ### The checks (R100, R117, R118) -/

abbrev Refused := Verdict × Nat × DWord

def descOp (d : Descriptor) : Nat := fld d[0] 7 0
def descTag (d : Descriptor) : DWord := dword d[1] d[2]
def descOps (d : Descriptor) : Vector Word 10 := Vector.ofFn (fun i => d[i.val + 4])
def keySlot (flags : Byte) : Fin 4 := ⟨flags.toNat / 4 % 4, by omega⟩

def descItem (s : State) (ring : BitVec 5) (d : Descriptor) : Item :=
  let it := newItem 0 ring (descOp d) (BitVec.ofNat 8 (fld d[0] 15 8)) (descTag d) d[3] (descOps d) (now s)
  if itemBody it then { it with phase := .body } else it

def keyBytes (k : KeySlot) : List Byte := k.words.toList.flatMap wordBytes

/-- The MAC of a descriptor: bytes 0 to 55 with RSEQ taken as zero. -/
def descMac (k : KeySlot) (d : Descriptor) : DWord :=
  mac64 (keyBytes k) (((d[0] &&& 0xFFFF) :: (d.toList.drop 1).take 13).flatMap wordBytes)

/-- A descriptor that has passed check 4 and is on its way to the banks. -/
def passedFour (j : Job) (k : Fin 4) : Bool :=
  let it := jobItem j
  authorised it.opcode.toNat (opv it 4) && keySlot it.flags = k && match j with
    | .accept _ => true
    | .door _ v _ _ => v = .cancelled

def lastTagNow (s : State) (k : Fin 4) : DWord :=
  s.jnl.queue.foldl (fun t j => if passedFour j k then jobTag j else t) s.eng.keys[k].lastTag

def authFault (s : State) (d : Descriptor) (it : Item) : Option Refused :=
  let k := keySlot it.flags
  let ks := s.eng.keys[k]
  if !ks.fused || ks.fusing then some (.refusedAuth, 1, 0)
  else if descMac ks d ≠ dword d[14] d[15] then some (.refusedAuth, 2, 0)
  else if descTag d ≤ lastTagNow s k then some (.refusedAuth, 3, 0)
  else none

/-- Check 2 (R397, R398). `listed`: the opcode counts as listed on this ring. R100 gives no order among the parts of this check:
the model judges them in the order in which R100 names them (DESIGN CHOICE, notes/assumptions/60.md). A non-zero KEY of a
descriptor that is not authorised has no detail of its own: the model gives 0x05, that of a non-zero MAC, which R100 names
with it (DESIGN CHOICE, notes/assumptions/86.md). -/
def formatFault (d : Descriptor) (it : Item) (due : BodyDue) (listed : Bool) : Option Nat :=
  let op := it.opcode.toNat
  if !listed then some 2
  else if fld d[0] 15 12 ≠ 0 || reservedSet op it.ops.toList then some 3
  else if it.tag = 0 then some 4
  else if !authorised op (opv it 4) && (keySlot it.flags ≠ 0 || d[14] ≠ 0 || d[15] ≠ 0) then some 5
  else if itemBody it && due.left = 0 then some 6
  else none

/-- Checks 2 to 4, and the BODY items of an ARM refused at the door. -/
def doorFault (s : State) (d : Descriptor) (it : Item) (listed : Bool) : Option Refused :=
  let due := dueNow s it.ring.toNat
  match formatFault d it due listed with
  | some n => some (.refusedFormat, n, 0)
  | none =>
    if inWindow s it.tag then let x := duplicateOf s it.tag; some (.refusedDuplicate, x.1.toNat, x.2)
    else match (if authorised it.opcode.toNat (opv it 4) then authFault s d it else none) with
      | some r => some r
      | none => if itemBody it && due.refused then some (.cancelled, 1, 0) else none

def doorJob (s : State) (d : Descriptor) (it : Item) (listed : Bool) : Job := match doorFault s d it listed with
  | some (v, n, r) => .door it v (BitVec.ofNat 8 n) r
  | none => .accept it

def queueJob (j : Job) (s : State) : State := modJnl (fun x => { x with queue := x.queue ++ [j] }) s

/-! ### A descriptor arrives -/

def modSq (q : Fin 16) (f : SqRing → SqRing) (s : State) : State := modLink (fun l => { l with sqs := upd l.sqs q f }) s

/-- The entry at the fetch position is taken; an SQ that runs dry ends its turn. -/
def tookSq (q : Fin 16) (s : State) : State :=
  let dry := s.link.sqs[q].fetch + 1 = s.link.sqs[q].prod
  modEng (fun e => { e with lastSq := q, turn := if dry then 8 else if e.lastSq = q && e.turn < 8 then e.turn + 1 else 1 })
    (modSq q (fun r => { r with fetch := r.fetch + 1, rseqFails := 0 }) s)

/-- Check 1 failed: the entry is read again at the next poll, and consumed at the third failure (R101). -/
def rseqMiss (q : Fin 16) (it : Item) (s : State) : State :=
  if 2 ≤ s.link.sqs[q].rseqFails then queueJob (.door it .refusedFormat 1 0) (tookSq q s)
  else modEng (fun e => { e with lastSq := q, turn := 8 }) (modSq q (fun r => { r with rseqFails := r.rseqFails + 1, stalled := true }) s)

/-- The entry at the fetch position is read: one read of 64 bytes, which no ring's end splits (R70, R99). -/
def readSq (q : Fin 16) (s : State) : State :=
  memRead (entryAddr s (0x0440 + 0x10 * q.val) s.link.sqs[q].fetch (ringSize (sqCfg s q.val)) 64) 64 s

def descriptorArrival (q : Fin 16) (d : Descriptor) (s : State) : State :=
  if !inRun s || !dmaOk s || s.link.hold || dead s then s
  else if dueSq s ≠ some q then judgeFull s
  else
    let s1 := modLink (fun l => { l with sqFails := upd l.sqFails q (fun _ => 0) }) (readSq q s)
    let it := descItem s (BitVec.ofNat 5 q.val) d
    if fld d[0] 31 16 ≠ (s.link.sqs[q].fetch).toNat % 65536 then rseqMiss q it s1
    else queueJob (doorJob s1 d it (opListed (descOp d))) (tookSq q s1)

/-! ### Acceptance -/

/-- BODY tracking at the commit of a descriptor (R142). -/
def trackBody (it : Item) (aseq : Word) (refused : Bool) (s : State) : State :=
  let ring := it.ring.toNat
  let x := dueOf s ring
  let s1 := if itemBody it then (if x.left = 0 then s else armSees x.arm 1 (if refused then 2 else 0) s)
            else if x.left = 0 then s else armSees x.arm 0 1 s
  setDue ring (dueAfter x it (if refused then none else some aseq) refused) s1

/-- The window holds the TAG (R133); once 1,024 have come since the scan, none that it found is among the last. -/
def noteTag (t : DWord) (s : State) : State :=
  modJnl (fun j => { j with recent := (t :: j.recent).take 1024, older := if 1023 ≤ j.recent.length then [] else j.older }) s

/-- JNL_LATENCY. -/
def noteLatency (t : Time) (s : State) : State :=
  let us := min 0xFFFF (sinceT (now s) t)
  modReg 0x0828 (fun w => at_ 0 us ||| at_ 16 (max us (fld w 31 16))) s

/-- The last TAGs of the keys, as an AUTH record holds them (R118). -/
def authRec (s : State) : List Word := hubRec 0x0A (0 :: s.eng.keys.toList.flatMap (fun k => [loW k.lastTag, hiW k.lastTag]))

/-- The key's last TAG is that of the descriptor. -/
def lastTagOf (j : Job) (s : State) : State :=
  modEng (fun e => { e with keys := upd e.keys (keySlot (jobItem j).flags) (fun x => { x with lastTag := jobTag j }) }) s

/-- A descriptor that has passed check 4 is behind an AUTH record. -/
def noteAuth (j : Job) (s : State) : State :=
  if passedFour j (keySlot (jobItem j).flags) then commitNew (authRec (lastTagOf j s)) (lastTagOf j s) else s

/-- The consumer index passes the slot (R102). -/
def passSlot (ring : Nat) (s : State) : State :=
  match fin? 16 ring with
  | some q => shadowWrite (8 * q.val) ((s.link.sqs[q].cons + 1).setWidth 64) (modSq q (fun r => { r with cons := r.cons + 1 }) s)
  | none => s

/-- Words 12 and 13 are not both zero: an ACCEPT_X goes before the ACCEPT. -/
def hasX (it : Item) : Bool := opv it 12 ≠ 0 || opv it 13 ≠ 0

def acceptX (it : Item) : List Word :=
  mkRec 2 it.opcode.toNat it.flags.toNat it.ring it.tag it.handle [it.aseq, opv it 12, opv it 13]

/-- Records that the acceptance of a descriptor is made of. -/
def jobSlots : Job → Nat
  | .accept it => if hasX it then 2 else 1
  | .door .. => 1

/-- ACCEPT, with ACCEPT_X before it where it is due: the ASEQ and the state. -/
def commitAccept (it : Item) (s : State) : Word × State :=
  let s1 := makeWay (if hasX it then 2 else 1) s
  let a := s1.jnl.head + (if hasX it then 2 else 1)
  let it := { it with aseq := a }
  (a, commit (acceptRec it) (if hasX it then commit (acceptX it) s1 else s1))

/-- Where the completion of a refusal would be posted now, as its DOOR record shows it. -/
def doorPos (s : State) (c : Comp) : Word :=
  if c.cq < 16 && cqRoom s c.cq && (heldOn s c.cq).isEmpty then cqProd s c.cq else 0xFFFFFFFF

/-- The records of a descriptor in the order in which they are written, one at a time (R131), from the head of `s` on. -/
def jobWrites (j : Job) (s : State) : List (List Word) :=
  let it := jobItem j
  let auth := if passedFour j (keySlot it.flags) then [authRec (lastTagOf j s)] else []
  match j with
  | .accept _ =>
    let it := { it with aseq := s.jnl.head + (if hasX it then 2 else 1) }
    (if hasX it then [acceptX it] else []) ++ [acceptRec it] ++ auth
  | .door _ v d res =>
    let c := { compOf s { it with aseq := s.jnl.head + 1 } v 0 res it.handle with detail := d }
    doneRec 5 c (doorPos s c) :: auth

/-- The first `n` of them are written, and nothing follows. -/
def writeFirst (n : Nat) (j : Job) (s : State) : State := ((jobWrites j s).take n).foldl (fun t w => commit w t) s

/-- A record stands in bank A alone. -/
def writeTorn (w : List Word) (s : State) : State := modJnl (fun x => { x with bankB := s.jnl.bankB }) (commit w s)

/-- The item is taken in, and its acceptance timed: an ARM's BODY item waits, anything else is queued. A BODY whose ARM has ended is cancelled. -/
def takeIn (it : Item) (s : State) : State :=
  let arm := (dueOf s it.ring.toNat).arm
  let it := { it with armOf := if itemBody it then arm else none, began := now s }
  let s1 := modEng (fun e => { e with items := e.items ++ [it] }) (trackBody it it.aseq false s)
  match it.armOf with
  | some a => if openItem s a then startAll s1 else complete it.aseq .cancelled 0 0 s1
  | none => startAll s1

/-- The front record is committed. -/
def commitJob (j : Job) (s : State) : State :=
  let it := jobItem j
  let ring := it.ring.toNat
  let s0 := noteLatency it.began (noteTag it.tag s)
  match j with
  | .accept _ =>
    let r := commitAccept it s0
    takeIn { it with aseq := r.1 } (noteAuth j (passSlot ring r.2))
  | .door _ v d res =>
    let s1 := makeWay 1 s0
    let a := nextAseq s1
    let c := { compOf s1 { it with aseq := a } v 0 res it.handle with detail := d }
    trackBody it a true (noteAuth j (passSlot ring (postFinal 5 c s1)))

/-- Background compaction: one record forward, so that the 256 slots after the head come to hold no needed record (R138). -/
def copyAhead (s : State) : State :=
  let k := fun i => (s.jnl.head.toNat + 1 + i) % 2048
  match forced s (k 0) with
  | some w => putForced w s
  | none =>
    match (List.range 256).findSome? (fun i => match (readBank s).at_ (k i) with
        | some w => if needed s w then some w else none
        | none => none) with
    | some w => putRec (w.take 14) (forget s)
    | none => s

/-- Between two acceptances one copy is made (R138). -/
def copyBetween (s : State) : State := if dead s || s.jnl.queue.isEmpty then s else copyAhead s

/-- The front descriptor's record has no room: FREE is below 16 (R139). -/
def frontWaits (s : State) : Bool := mustWait s && !s.jnl.queue.isEmpty

/-- The copy that the writer makes before it can write the front descriptor's records: a needed record has come within their
slots. An acceptance waits for the copy in hand (R138). -/
def copyInHand (s : State) : Option (List Word) :=
  if dead s then none else s.jnl.queue.head?.bind (fun j => inTheWay s (jobSlots j))

/-- The descriptor whose record the writer has in hand, or would have next. -/
def inHand (s : State) : Option Job := if frontWaits s || (copyInHand s).isSome then none else s.jnl.queue.head?

/-- A record write and its read-backs end: banks that failed are retired; the record counts if one bank holds it. -/
def journalWriteDone (okA okB : Bool) (s : State) : State :=
  if !s.den.up || dead s || frontWaits s then s
  else
    let badA := s.jnl.bankA.inService && !okA
    let badB := s.jnl.bankB.inService && !okB
    let drop := fun (t : State) => (if badB then retireBank 1 1 else id) ((if badA then retireBank 0 1 else id) t)
    let lost := (badA || !s.jnl.bankA.inService) && (badB || !s.jnl.bankB.inService)
    if lost then heldWhenDone (refetch (modJnl (fun x => { x with queue := [] }) (drop s)))
    else match s.jnl.queue, copyInHand (drop s) with
      | [], _ => drop s
      | _, some w => judgeFull (putForced w (drop s))
      | j :: rest, none =>
        heldWhenDone (judgeFull (copyBetween (commitJob j (modJnl (fun x => { x with queue := rest }) (drop s)))))

/-- Background compaction, when nothing is being accepted. -/
def compactOne (s : State) : State :=
  if !s.den.up || dead s || !s.jnl.queue.isEmpty then s else copyAhead s

/-! ### The poll (R73, R89, R92, R98, R114) -/

/-- Entries by which a consumer index may lag. -/
def outValid (r : OutRing) (size : Nat) (v : Word) : Bool := (r.prod - v).toNat ≤ size

/-- One SQ producer index; true in the result where it brings new work. -/
def seeSq (v : Word) (size : Nat) (r : SqRing) : SqRing × Bool :=
  if size < (v - r.cons).toNat then ({ r with bad := true }, false)
  else ({ r with bad := false, prod := v }, decide (v ≠ r.prod))

def pollSqs (p : DoorbellPage) (s : State) : State × Bool :=
  (fins 16).foldl (fun (a : State × Bool) q =>
    if sqOn a.1 q then
      let x := seeSq p.sqProd[q] (ringSize (sqCfg a.1 q.val)) a.1.link.sqs[q]
      (modSq q (fun _ => x.1) a.1, a.2 || x.2)
    else a) (s, false)

def seeOut (v : Word) (size : Nat) (r : OutRing) : OutRing :=
  if outValid r size v then { r with bad := false, cons := v, fresh := true } else { r with bad := true }

/-- The completion has been passed by the consumer index. -/
def passed (r : OutRing) (c : Comp) : Bool := match c.pos with
  | some p => decide ((r.prod - r.cons).toNat < (r.prod - p).toNat)
  | none => false

/-- What the consumer index of a CQ acknowledges; journaled once a millisecond (R111, R139). -/
def ackCq (q : Fin 16) (s : State) : State :=
  let r := s.link.cqs[q]
  let s1 := modEng (fun e => { e with comps := e.comps.filter (fun c => !(c.cq = q.val && passed r c)) }) s
  let j := s.jnl
  if nth j.acks q.val 0 ≠ r.cons && 1000 ≤ sinceT (now s) (nth j.ackTime q.val 0) then
    commitAck q.val r.cons s1 else s1

def pollCq (p : DoorbellPage) (q : Fin 16) (s : State) : State :=
  if cqOn s q then
    ackCq q (modLink (fun l => { l with cqs := upd l.cqs q (seeOut p.cqCons[q] (ringSize (cqCfg s q.val))) }) s)
  else s

/-- At the first poll after a release the consumer index becomes the producer index; what was not consumed is
discarded, and one EQ_LOST tells how much (R114). -/
def adoptOut (v : Word) (size : Nat) (r : OutRing) : OutRing × Nat :=
  if outValid r size v then ({ prod := v, cons := v, fresh := true, adopt := false, bad := false }, (r.prod - v).toNat)
  else ({ r with bad := true }, 0)

def pollEq (p : DoorbellPage) (s : State) : State :=
  if !eqOn s then s
  else
    let size := ringSize (reg s 0x0658)
    if s.link.eq.adopt then
      let x := adoptOut p.eqCons size s.link.eq
      let s1 := shadowLater 0x208 (modLink (fun l => { l with eq := x.1 }) s)
      if x.1.adopt then s1
      else modEng (fun e => { e with events := eqLost (x.2 + e.eventsLost) s :: e.events, eventsLost := 0 }) s1
    else modLink (fun l => { l with eq := seeOut p.eqCons size l.eq }) s

def pollSt (p : DoorbellPage) (k : Fin 4) (s : State) : State :=
  if !stOn s k.val then s
  else if s.link.sts[k].adopt then
    shadowLater (0x210 + 8 * k.val) (modLink (fun l => { l with sts := upd l.sts k (fun r => (adoptOut p.stCons[k] (stSize s k.val) r).1) }) s)
  else modLink (fun l => { l with sts := upd l.sts k (seeOut p.stCons[k] (stSize s k.val)) }) s

/-- Which halves of the tail this poll reads (R98): 0x100 to 0x17F, and 0x200 to 0x22F. -/
def tailLow (s : State) : Bool := 512 ≤ s.link.cfg.mrrs || !s.link.tailHigh
def tailUp (s : State) : Bool := 512 ≤ s.link.cfg.mrrs || s.link.tailHigh

/-- The tail range is read. -/
def pollTail (p : DoorbellPage) (s : State) : State :=
  let s1 := if tailLow s then (fins 16).foldl (fun t q => pollCq p q t) s else s
  let s2 := if tailUp s then heartbeat p.heartbeat ((fins 4).foldl (fun t k => pollSt p k t) (pollEq p s1)) else s1
  if 512 ≤ s.link.cfg.mrrs then s2 else modLink (fun l => { l with tailHigh := !l.tailHigh }) s2

/-- The interval after a poll (R73); POLL_MIN after the poll that an exit from L1 asked for (R74). -/
def nextInterval (new : Bool) (s : State) : State :=
  modLink (fun l => { l with interval := if new || l.pollDue then pollMin s else min (pollMax s) (2 * l.interval),
                             pollDue := false }) s

/-- FREE may have risen: what waited for a record goes on (R139). -/
def roomAgain (s : State) : State := retryFires (flushOwed s.jnl.owed.length s)

/-- The reads of a poll: the head, then the tail or the half of it whose turn it is (R98). -/
def readPage (s : State) : State :=
  let base := regAddr s 0x0640
  let s1 := memRead base 0x80 s
  if 512 ≤ s.link.cfg.mrrs then memRead (base + 0x100) 0x130 s1
  else if s.link.tailHigh then memRead (base + 0x200) 0x30 s1
  else memRead (base + 0x100) 0x80 s1

/-- Entries that were to be read again at a poll are due (R81, R101). -/
def wakeSqs (l : Link) : Link := { l with dbFails := 0, sqs := l.sqs.map (fun r => { r with stalled := false }) }

def doorbellPoll (p : DoorbellPage) (s : State) : State :=
  if !inRun s || !dmaOk s || s.link.hold then s
  else
    let a := pollSqs p (modLink wakeSqs (readPage s))
    let s1 := judgeRings (pollTail p a.1)
    let s2 := nextInterval a.2 (roomAgain (judgeFull (drainEvents s1)))
    shadowWrite 0x200 ((now s2).setWidth 64) (shadowChanges (modLink (fun l => { l with lastPoll := now s2 }) s2))

/-! ### Commands -/

def execDescriptorArrival (q : Fin 16) (d : Descriptor) (s : State) : Out := .next (descriptorArrival q d s)
def execJournalWriteDone (okA okB : Bool) (s : State) : Out := .next (journalWriteDone okA okB s)
def execJournalCompaction (s : State) : Out := .next (roomAgain (compactOne s))
def execCompletionPost (q : Fin 16) (s : State) : Out := .next (postHeld q.val s)
def execDoorbellPoll (p : DoorbellPage) (s : State) : Out := .next (doorbellPoll p s)

end Sys2Proof.Machine
end

