-- ==== Sys2Proof/Machine/Lanes.lean ====
section
/-! DEFINITION. The phase lanes at work (08): starting and coming into regulation (R154, R164 to R166), protection
(R155 to R157), dropout (R158). -/

namespace Sys2Proof.Machine

/-! ### What a rail sees of its members -/

def lostEndsOf (n : Fin 48) (s : State) : State := match s.lanes[n].rail with
  | some r => lostEnds r s
  | none => s

/-! ### Starting -/

/-- A measurement 100 µs after the last (R154, R165). -/
def laneRemeasureNow (n : Fin 48) (mv : Nat) (s : State) : State :=
  let s1 := setVmeas [n] mv s
  match s.lanes[n].rail with
  | none => s
  | some r =>
    match s.rails[r] with
    | none => s
    | some x =>
      if s.lanes[n].state ≠ .waitDown then s
      else if x.target < mv then s1
      else if x.state = .waitDown then
        if decider s x ≠ n then s1
        else
          let ms := x.members.filter (fun m => s.lanes[m].state = .waitDown)
          modRail r (fun y => { y with state := .starting }) (modLanes ms (fun l => { l with state := .start, ref := 100 * mv }) s1)
      else modLane n (fun l => { l with state := .start, ref := 100 * mv }) s1

def laneRemeasure (n : Fin 48) (mv : Nat) (s : State) : State := laneRemeasureNow n mv (pastMeasure n s)

/-- The reference of lane `n` is held short of where it goes (R150). -/
def slewStands (s : State) (n : Fin 48) (x : Rail) : Bool := s.lanes[n].slewHeld && decide (s.lanes[n].ref ≠ x.goal)

/-- The reference of lane `n` stands at the target; while it is held it does not come there. -/
def slewDoneNow (n : Fin 48) (s : State) : State :=
  match s.lanes[n].rail with
  | none => s
  | some r =>
    match s.rails[r] with
    | none => s
    | some x =>
      let starting := x.state = .starting || x.state = .sinking
      if slewStands s n x then s
      else if starting && s.lanes[n].state = .start then
        if decider s x = n then lostEnds r (railOn r s)
        else modLane n (fun l => { l with state := .reg, ref := 100 * x.target }) s
      else if x.state = .on && s.lanes[n].state = .start then
        lostEnds r (modLane n (fun l => { l with state := .reg, ref := 100 * x.target }) s)
      else if x.state = .on && x.slewing && decider s x = n then
        let s1 := modRail r (fun y => { y with slewing := false })
          (modLanes (runningOf s x) (fun l => { l with ref := 100 * x.target }) s)
        let s2 := completeOpt (onHandle s1 (railHandle s1 r) 0x10) .done 0 (voutResult s1 r) s1
        settle (if x.pg then nodesOnPg r s2 else s2)
      else s

def laneSlewDone (n : Fin 48) (s : State) : State := slewDoneNow n (pastMeasure n s)

/-! ### Protection -/

/-- Every lane of a bank enters STOPPED (STAGE_OT). -/
def bankMates (n : Fin 48) : List (Fin 48) := (fins 48).filter (fun m => m.val / 4 = n.val / 4)

def stageTrip (n : Fin 48) (s : State) : State :=
  let ran := (bankMates n).filter (fun m => laneRun s.lanes[m])
  let s1 := (bankMates n).foldl (fun t m => laneStop m t) s
  settle (ran.foldl (fun t m => laneLost m t) (if isPresent s n.val 3 then s1 else raiseAs n.val 3 true s1))

/-- START_FAIL has stopped the last member: RAIL_ENABLE fails and the rail is OFF, for no member switches (R164). -/
def startFailed (r : Fin 48) (s : State) : State :=
  match s.rails[r] with
  | some x =>
    if (x.state = .starting || x.state = .sinking || x.state = .waitDown) &&
       x.members.all (fun m => s.lanes[m].state = .stopped || s.lanes[m].state = .absent) then
      settle (railDown r .off (completeOpt (onHandle s (railHandle s r) 0x11) .failed 0x10 0 s))
    else s
  | none => s

def railStartFailed (n : Fin 48) (s : State) : State := match s.lanes[n].rail with
  | some r => startFailed r s
  | none => s

/-- Own action STOPPED, with the end of a start that has lost its last member; then the raise, then what a running rail makes
of it (R155, R164, R173, R351). -/
def laneTrip (n : Fin 48) (d : Nat) (s : State) : State :=
  let ran := laneRun s.lanes[n]
  let s1 := laneStop n s
  let s2 := raiseAs n.val d false (if d = 7 then railStartFailed n s1 else s1)
  if ran then settle (laneLost n s2) else s2

/-- The lane stops switching until its supply is back. -/
def supplyTrip (n : Fin 48) (s : State) : State :=
  let ran := laneRun s.lanes[n]
  let s1 := modLane n (fun l => { laneQuiet l with state := .supplyWait }) s
  let s2 := if isPresent s n.val 4 then s1 else raiseAs n.val 4 true s1
  if ran then settle (laneLost n s2) else s2

def laneActive (l : Lane) : Bool := laneRun l || l.state = .measure || l.state = .waitDown

/-- SHARE asks for a rail of two or more lanes. -/
def manyLanes (s : State) (n : Fin 48) : Bool := match rail2 s n with
  | some x => decide (2 ≤ x.members.length)
  | none => false

/-- A cause of R155 is detected. The causes that a switching period shows are those of lanes that run or are about to. -/
def laneCause (n : Fin 48) (c : LaneCause) (s : State) : State :=
  let l := s.lanes[n]
  if l.state = .absent || !s.den.up then s
  else match c with
    | .ocSustained => if l.state = .reg then raiseOnce n.val 1 s else s
    | .bootUv => if laneRun l then raiseOnce n.val 2 s else s
    | .stageOt => if isCtl n then s else stageTrip n s
    | .supplyUv => if laneActive l then supplyTrip n s else s
    | .ovAbs => raiseOnce n.val 5 s
    | .share => if l.state = .reg && manyLanes s n then raiseOnce n.val 6 s else s
    | .startFail => if l.state = .start then laneTrip n 7 s else s
    | .swFail => if laneActive l then laneTrip n 8 s else s

def laneFault (n : Fin 48) (c : LaneCause) (s : State) : State :=
  laneCause n c (if c = .startFail then pastMeasure n s else s)

/-- The supply has been good for 1 ms (R156). -/
def laneSupplyRecover (n : Fin 48) (mv : Nat) (s : State) : State :=
  let s1 := endCause n.val 4 s
  if s.lanes[n].state ≠ .supplyWait then s1
  else
    let enabled := match rail2 s n with
      | some x => railRuns x
      | none => false
    if enabled && !held s n.val && !isolated s n.val then laneMeasure n mv s1 else laneStop n s1

/-- The command asks for more duty than the minimum off-time allows, and no longer: LANE_DROPOUT on entry (R158). -/
def laneDropout (n : Fin 48) (on : Bool) (s : State) : State :=
  if !laneRun s.lanes[n] || s.lanes[n].dropout = on then s
  else
    let s1 := modLane n (fun l => { l with dropout := on }) s
    if on then event 0x0501 0 n.val 0 0 s1 else s1

/-! ### Commands -/

def execLaneRemeasure (n : Fin 48) (mv : Nat) (s : State) : Out := .next (laneRemeasure n mv s)
def execLaneSlewDone (n : Fin 48) (s : State) : Out := .next (laneSlewDone n s)
def execLaneFault (n : Fin 48) (c : LaneCause) (s : State) : Out := .next (laneFault n c s)
def execLaneSupplyRecover (n : Fin 48) (mv : Nat) (s : State) : Out := .next (laneSupplyRecover n mv s)
def execLaneDropout (n : Fin 48) (on : Bool) (s : State) : Out := .next (laneDropout n on s)

end Sys2Proof.Machine
end

