-- ==== Sys2Proof/Machine/Monitors.lean ====
section
/-! DEFINITION. Window monitors (R276 to R281): a monitor's output, its events, and the COMPARATOR triggers that take its
edges. -/

namespace Sys2Proof.Machine

def modWm (k : Fin 64) (f : Wm → Wm) (s : State) : State := { s with cmp := { s.cmp with wms := upd s.cmp.wms k f } }

/-- An event is due: none within EVT_GAP of the last (R281). -/
def gapOver (s : State) (last : Option Time) : Bool := match last with
  | some t => decide (rfld s 0x701C 15 0 * 1000 ≤ sinceT (now s) t)
  | none => true

/-- WM_EDGE of a HOST-owned monitor with EVT (R281). -/
def wmEvent (k : Fin 64) (active : Bool) (s : State) : State :=
  let w := s.cmp.wms[k]
  if w.owner = .host && rbit s (wmReg k 0) 13 && gapOver s w.lastPost then
    event 0x0B10 0 k.val (if active then 1 else 2) 0 (modWm k (fun x => { x with lastPost := some (now s) }) s)
  else s

/-! ### Edges that sequences take (R263, R267) -/

def seqTrig (w8 : Word) : Nat := fld w8 3 2
def seqConv (x : Seq) : Fin 2 := if bit x.w8 0 then 1 else 0

/-- SRC and CUT_SRC of a comparator (R260). -/
def compCode : Comparator → Nat
  | .wm k => k.val
  | .fc i => 64 + i.val

/-- A trigger or cut word names the edge. -/
def edgeNamed (w : Word) (e : CutEdge) : Bool := fld w 6 0 = compCode e.comp && bit w (if e.active then 8 else 9)

/-- The edge triggers the sequence. -/
def edgeTriggers (x : Seq) (e : CutEdge) : Bool := x.running && seqTrig x.w8 = 2 && edgeNamed x.w9 e

/-- The sequence asks for a cut at this edge. -/
def cutAsks (x : Seq) (c : Fin 2) (e : CutEdge) : Bool := seqConv x = c && bit x.w10 15 && edgeNamed x.w10 e

/-- An output edge sets out for the sequences that it triggers, and for the converters that a sequence asks a cut of. -/
def compEdge (e : CutEdge) (s : State) : State :=
  { s with adc := { s.adc with
      seqs := s.adc.seqs.map (fun x => x.map (fun x => if edgeTriggers x e then { x with due := x.due + 1 } else x)),
      convs := Vector.ofFn fun c => if s.adc.seqs.toList.any (fun x => match x with
          | some x => cutAsks x c e
          | none => false) then { s.adc.convs[c] with edges := s.adc.convs[c].edges ++ [e] } else s.adc.convs[c] } }

/-! ### The output -/

/-- The output of a monitor becomes `lv` (R276, R278): status, counts, time, event, and all that takes the edge. -/
def wmSet (k : Fin 64) (lv : CompLevel) (s : State) : State :=
  let w := s.cmp.wms[k]
  if w.below = lv.below && w.above = lv.above then s
  else
    let act := lv.below || lv.above
    let s1 := setReg (wmReg k 0x14) (timeLo (now s)) (modWm k (fun x => { x with below := lv.below, above := lv.above }) s)
    if act = wmActive w then s1
    else fireWindow k.val act (wmEvent k act (compEdge { comp := .wm k, active := act }
      (if act then countReg (wmReg k 0x10) 15 0 1 s1 else countReg (wmReg k 0x10) 31 16 1 s1)))

/-- A monitor compares, and no change of a trim holds its output. -/
def wmRuns (k : Fin 64) (s : State) : Bool := s.den.up && rbit s (wmReg k 0) 10 && !trimHolds s (64 + k.val)

/-- A blanking window of the monitor is open (R280). -/
def wmBlanked (k : Fin 64) (s : State) : Bool := shownBlank s (wmReg k 0xC) (reg s (wmReg k 8)) s.cmp.wms[k].blanked

/-- The level of a monitor that compares and is not blanked. -/
def wmLevel (k : Fin 64) (lv : CompLevel) (s : State) : State :=
  if wmRuns k s && !wmBlanked k s then wmSet k lv s else s

/-- The input of a monitor has stood at `code` for FILT (R275). -/
def wmInput (k : Fin 64) (code : BitVec 16) (s : State) : State := wmLevel k (wmJudge s k code) s

/-- The monitor that a rail holds sees the output at `mv`. -/
def railSees (x : Rail) (mv : Nat) (s : State) : State := match fin? 64 x.wmon with
  | some k => wmInput k (BitVec.ofNat 16 (codeAt (watchedInput x) (1000 * mv))) s
  | none => s

/-- The output of a rail's monitor. -/
def railWm (s : State) (x : Rail) : Wm := nth s.cmp.wms x.wmon Wm.reset

end Sys2Proof.Machine
end

