-- ==== Sys2Proof/Machine/Rails.lean ====
section
/-! DEFINITION. Rails (09): creation (R161 to R163), the items on a rail (R164, R167 to R170, R180), what happens on a
running rail (R164 to R179) and what a rail's end releases (R188). -/

namespace Sys2Proof.Machine

abbrev Refuse := Verdict × Nat

/-! ### Creation -/

/-- The rail of HANDLE_CREATE words 5 to 13. -/
def railOf (w : Nat → Word) (boot : Bool) : Rail :=
  { lanes := lanesOf (w 5) (w 6), w7 := w 7 &&& 0x030F3FFF, w8 := w 8 &&& 0xFFBF0F9F, w9 := w 9, w10 := w 10 &&& 0xFFFFFF, w11 := w 11 &&& 0xFFFFFF,
    w12 := w 12 &&& 0xFFFF, state := .off, pg := false, rsActive := false, senseLost := false, senseFrozen := false,
    corrLimit := false, shedMask := 0, ganging := false, slew := 0, slewing := false, derate := none, bud := .none,
    limitAt := none, corr := 0, corrHist := [], frozen := false, startTime := 0, boot := boot, laneEdge := false }

def oneKind (ms : List (Fin 48)) : Bool := ms.all isCtl || ms.all (fun n => !isCtl n)

/-- Checks 1 and 2 of R162. -/
def lanesFault (ms : List (Fin 48)) : Option Refuse :=
  if ms.length < 1 || 8 < ms.length then some (.refusedFormat, 0x10)
  else if !oneKind ms then some (.refusedFormat, 0x11) else none

/-- Checks 4 to 6, for a rail in slot `r`. -/
def membersFault (s : State) (r : Fin 48) (ms : List (Fin 48)) : Option Refuse :=
  let vin := fun (n : Fin 48) => bit (laneReg s n 4) 3
  if ms.any (fun n => s.lanes[n].state = .absent) then some (.refusedState, 0x11)
  else if ms.any (fun n => s.lanes[n].rail.isSome && s.lanes[n].rail ≠ some r) then some (.refusedState, 0x10)
  else if ms.any isCtl && ms.any vin && ms.any (fun n => !vin n) then some (.refusedState, 0x12)
  else none

def pairTaken (s : State) (p : Nat) : Bool := s.rails.toList.any fun x => match x with
  | some x => x.rsEn && x.rsPair = p
  | none => false

/-- R162; a pair above 15 does not exist (OPERAND). -/
def railFault (s : State) (r : Fin 48) (x : Rail) : Option Refuse :=
  let ms := x.members
  match lanesFault ms with
  | some e => some e
  | none =>
    if !targetOk (ms.any isCtl) x.vset || imaxLimit s ms < x.imax then some (.refusedLeash, 0)
    else match membersFault s r ms with
      | some e => some e
      | none =>
        if x.rsEn && 16 ≤ fld x.w8 4 0 then some (.refusedFormat, 0x07)
        else if x.rsEn && pairTaken s x.rsPair then some (.refusedState, 0x13)
        else if x.wmEn && (nth s.cmp.wms x.wmon Wm.reset).owner ≠ .free then some (.refusedState, 0x14)
        else none

def setWm (k : Nat) (f : Wm → Wm) (s : State) : State := match fin? 64 k with
  | some k => modWm k f s
  | none => s

/-- The rail stands in its slot: lanes, pair and monitor are its own, and BOOT_ENTRY ends (R163, R181). -/
def placeRail (r : Fin 48) (x : Rail) (s : State) : State :=
  let s1 := placeLanes r x.members (setRail r (some x) s)
  let s2 := if x.wmEn then setWm x.wmon (fun m => { m with owner := .rail r, below := false, above := false, blanked := false, limited := false })
      (orReg (0x7080 + x.wmon * 0x18) (flag 10 true) s1) else s1
  endCause (48 + r.val) 9 s2

/-- A destroyed rail releases what it held (R188). -/
def removeRail (r : Fin 48) (s : State) : State :=
  match s.rails[r] with
  | none => s
  | some x =>
    let s1 := modLanes (boundTo s r) laneFree (release (.rail r.val) (withdrawDemand (.rail r.val) s))
    let s2 := if x.wmEn then setWm x.wmon (fun m => { m with owner := .free, below := false, above := false, blanked := false })
        (modReg (0x7080 + x.wmon * 0x18) (fun w => (w &&& ~~~0x4FF) ||| at_ 0 (watchedInput x))
          (setReg (0x7080 + x.wmon * 0x18 + 4) (railThresh s x) s1)) else s1
    setRail r none s2

/-! ### Items -/

/-- Begins an item on the rail its handle names. -/
def onRail (op : Nat) (a : Word) (k : Item → Fin 48 → Rail → State → State) (s : State) : State :=
  beginWork op a (fun it t => match fin? 48 (hSlot it.handle) with
    | some r => (match t.rails[r] with
      | some x => k it r x t
      | none => t)
    | none => t) s

def failHold (a : Word) (s : State) : State := complete a .refusedState 0x31 0 s

/-- The budget has served a start. -/
def railServed (a : Word) (r : Fin 48) (vmeas : Nat) (s : State) : State :=
  match findItem s a with
  | none => s
  | some it =>
    let s1 := commitStart it (modItem a (fun i => { i with phase := .working }) s)
    match s.rails[r] with
    | some x => if x.state = .off || x.state = .pending then railStart r vmeas s1 else s1
    | none => s1

/-- RAIL_ENABLE (R164). -/
def railEnable (a : Word) (vmeas : Nat) (s : State) : State :=
  onRail 0x11 a (fun _ r x t =>
    if held t (48 + r.val) then failHold a t
    else if hot t then complete a .refusedState 0x30 0 t
    else if x.state = .faulted then complete a .refusedState 0x17 0 t
    else if x.state = .on then complete a .done 0 (enableResult t x (fld (railVout t r) 13 0)) t
    else
      let t1 := itemAsks a (railReq t r x (.item a) a x.claim) (railServed a r vmeas) t
      match t1.rails[r] with
      | some y => if itemAt t1 a (fun i => i.phase = .waiting) && y.state = .off then modRail r (fun z => { z with state := .pending }) t1 else t1
      | none => t1) s

/-- Upward nodes in progress that want another target than `v` fail (R185). -/
def failOthers (r : Fin 48) (x : Rail) (v : Nat) (s : State) : State :=
  (fins 16).foldl (fun t k => match t.graphs[k] with
    | some g =>
      if g.state = .runUp && !g.unwinding then
        (List.range g.nodes.length).foldl (fun u i =>
          let nd := nodeAt g i
          let want := if nd.vtarget = 0 then x.vset else nd.vtarget
          if bit g.active i && !nd.wait && decide (nodeRail u nd = some r) && want ≠ v then nodeFail k i u else u) t
      else t
    | none => t) s

/-- The lowest derate that ACTIVE rules hold on rail slot `r` (R294). -/
def derateOn (s : State) (r : Nat) : Option Nat :=
  s.thm.rules.toList.foldl (fun (a : Option Nat) x => match x with
    | some x => if x.state = .active && !x.stale && fld x.w5 11 8 = 1 && hSlot x.w7 = r then
        some (match a with
          | some v => min v (fld x.w8 13 0)
          | none => fld x.w8 13 0)
      else a
    | none => a) none

/-- A derate's RAIL_SET_V begins: it leaves VSET unchanged, and takes the derate that stands by now (R294). -/
def derateBegins (it : Item) (r : Fin 48) (x : Rail) (t : State) : State :=
  let set := fun (y : Rail) => { y with derate := derateOn t r.val }
  let t1 := commitStart it t
  if x.state = .on && (x.slewing || (set x).target ≠ x.target) then settle (retargetRail r set t1)
  else
    let t2 := modRail r set t1
    settle (if x.state = .starting || x.state = .waitDown || x.state = .sinking then t2
            else complete it.aseq .done 0 (voutResult t2 r) t2)

/-- RAIL_SET_V (R167), the host's or a derate's. -/
def railSetV (a : Word) (s : State) : State :=
  onRail 0x10 a (fun it r x t =>
    if it.ring = 0x1F then derateBegins it r x t else
    let v := fld (opv it 4) 13 0
    let sl := fld (opv it 5) 9 0
    if held t (48 + r.val) && x.vset < v then failHold a t
    else if !targetOk (isCtl x.lead) v || 500 < sl then complete a .refusedLeash 0 0 t
    else
      let t1 := failOthers r x v (commitStart it t)
      let set := fun y => let z := setVset v y; { z with slew := if sl = 0 then z.slew else sl }
      let y := set x
      if x.state = .on && (x.slewing || y.target ≠ x.target) then settle (retargetRail r set t1)
      else
        let t2 := modRail r set t1
        settle (if x.state = .starting || x.state = .waitDown || x.state = .sinking then t2
                else complete a .done 0 (voutResult t2 r) t2)) s

/-- SOFT slews a reference that is in use; everything else ends at once. -/
def softly (s : State) (x : Rail) : Bool :=
  (x.state = .on || x.state = .starting || x.state = .sinking) && !(runningOf s x).isEmpty

/-- RAIL_DISABLE (R168). -/
def railDisable (a : Word) (s : State) : State :=
  onRail 0x12 a (fun it r x t =>
    let t1 := withdrawStarts r (commitStart it t)
    if x.state = .off || x.state = .faulted then settle (complete a .done 0 0 (failNodes r t1))
    else if bit (opv it 4) 0 && softly t x then
      settle (failNodes r (setPg r false (modRail r (fun y => { y with state := .stopping, slewing := true, rsActive := false }) t1)))
    else if bit (opv it 4) 0 && x.state = .stopping then t1
    else settle (failNodes r (railDown r .off t1))) s

/-- Lanes that a new member set adds, and those it takes out. -/
def gangLanes (r : Fin 48) (x : Rail) (new : BitVec 48) (s : State) : State :=
  let ms := membersOf new
  let added := ms.filter (fun n => !x.lanes.getLsbD n.val)
  let gone := x.members.filter (fun n => !new.getLsbD n.val)
  let s1 := (ms.zipIdx).foldl (fun t e => modLane e.1 (fun l =>
    { l with rail := some r, pos := e.2, moving := if x.lanes.getLsbD e.1.val then some (phaseNow s e.1 x) else none }) t) s
  let s2 := (added.filter (mayStart s)).foldl (fun t n => laneJoin n x t) s1
  modLanes gone (fun l => { l with state := if laneRun l then .shed else l.state, leaving := true }) s2

/-- RAIL_GANG (R169, R170). -/
def railGang (a : Word) (s : State) : State :=
  onRail 0x13 a (fun it r x t =>
    let new := lanesOf (opv it 5) (opv it 6)
    let ms := membersOf new
    if held t (48 + r.val) then failHold a t
    else match lanesFault ms with
      | some e => complete a e.1 e.2 0 t
      | none =>
        match membersFault t r ms with
        | some e => complete a e.1 e.2 0 t
        | none =>
          if ms.head? ≠ some x.lead then complete a .refusedState 0x15 0 t
          else if imaxLimit t ms < x.imax then complete a .refusedState 0x16 0 t
          else if x.state = .starting || x.state = .waitDown || x.state = .sinking || x.state = .stopping || x.state = .pending then
            complete a .refusedState 0x18 0 t
          else
            let t1 := countReg (0x4000 + r.val * 0x40 + 0x38) 31 16 1 (commitStart it t)
            let y := { x with lanes := new, shedMask := x.shedMask &&& new }
            if x.state = .on then gangLanes r x new (setRail r (some { y with ganging := true }) t1)
            else complete a .done 0 0 (placeLanes r ms (modLanes (x.members.filter (fun n => !new.getLsbD n.val)) laneFree (setRail r (some y) t1)))) s

/-- A request that waits for the rail asks with the rail's present claim and tier. -/
def reask (r : Fin 48) (a : Word) (s : State) : State :=
  match s.rails[r] with
  | some x => modBud (fun b => { b with waiting := b.waiting.map (fun q =>
      if q.demand = .rail r.val && q.aseq ≠ a then { q with mw := x.claim, tier := x.tier } else q) }) s
  | none => s

/-- New limits stand; a rail that is off in the meantime holds no grant. -/
def limitsServed (a : Word) (r : Fin 48) (s : State) : State :=
  match findItem s a with
  | none => s
  | some it =>
    let s1 := reask r a (modRail r (setLimits it) (commitStart it s))
    let s2 := match s1.rails[r] with
      | some x => if x.state = .off && (grantOf s1 (.rail r.val)).isSome then release (.rail r.val) s1 else s1
      | none => s1
    complete a .done 0 0 s2

/-- RAIL_LIMITS (R180). -/
def railLimits (a : Word) (s : State) : State :=
  onRail 0x14 a (fun it r x t =>
    let y := setLimits it x
    if imaxLimit t x.members < y.imax then complete a .refusedLeash 0 0 t
    else
      let d := Demand.rail r.val
      let asks := railReq t r y (.item a) a y.claim
      if (grantOf t d).isSome then
        if grantMw t d < y.claim then itemAsks a asks (limitsServed a r) t
        else limitsServed a r (lowerGrant d y.tier y.claim t)
      else if x.state = .pending && x.claim < y.claim then itemAsks a asks (limitsServed a r) t
      else limitsServed a r t) s

/-! ### On a running rail -/

/-- Power-good asserts with the output at `mv` (R164, R178). -/
def railPgAssert (r : Fin 48) (mv : Nat) (s : State) : State :=
  match s.rails[r] with
  | none => s
  | some x =>
    let s0 := if x.wmEn then railSees x mv s else s
    if x.state ≠ .on || x.pg || (x.wmEn && wmActive (railWm s0 x)) then s0
    else
      let s1 := endCause (48 + r.val) 1 (endCause (48 + r.val) 8 (setPg r true s0))
      let s2 := completeOpt (onHandle s1 (railHandle s1 r) 0x11) .done 0 (enableResult s1 x mv) s1
      settle (if x.slewing then s2 else nodesOnPg r s2)

/-- PG_TMO after the start (R164). -/
def pgTmo (r : Fin 48) (s : State) : State :=
  match s.rails[r] with
  | none => s
  | some x =>
    if !railRuns x || x.pg then s
    else raiseOnce (48 + r.val) 8 (completeOpt (onHandle s (railHandle s r) 0x11) .failed 0x12 0 s)

/-- WAIT_TMO in WAIT_DOWN (R165). -/
def prebiasEnds (r : Fin 48) (s : State) : State :=
  match s.rails[r] with
  | none => s
  | some x =>
    if x.state ≠ .waitDown || fld x.w12 7 0 = 0 then s
    else
      let a := onHandle s (railHandle s r) 0x11
      raise (48 + r.val) 5 (completeOpt a .failed 0x11 0 (railDown r .off s))

def prebiasTmo (r : Fin 48) (s : State) : State := prebiasEnds r (measuredAll r s)

/-- Lane `n` has its full share, or none where it leaves, and its phase (R170). -/
def inPlace (s : State) (n : Fin 48) : Bool :=
  let l := s.lanes[n]
  l.moving.isNone && (l.state ≠ .join || l.share = 64) && (l.state ≠ .shed || l.share = 0)

/-- Every share and phase is in place (R170); lanes that AUTO_SHED or a restart moves arrive in the same way. -/
def gangDone (r : Fin 48) (s : State) : State :=
  match s.rails[r] with
  | none => s
  | some x =>
    if x.state ≠ .on || !(boundTo s r).all (inPlace s) then s
    else
      let ls := boundTo s r
      let s1 := modLanes (ls.filter (fun n => s.lanes[n].state = .join)) (fun l => { l with state := .reg, share := 64, moving := none }) s
      let s2 := modLanes (ls.filter (fun n => s.lanes[n].state = .shed && !s.lanes[n].leaving)) (fun l => { laneOff l with share := 0 }) s1
      let s3 := modLanes (ls.filter (fun n => s.lanes[n].leaving)) laneFree (modLanes ls (fun l => { l with moving := none }) s2)
      let s4 := lostEnds r (modRail r (fun y => { y with ganging := false }) s3)
      if x.ganging then
        completeOpt (onHandle s4 (railHandle s4 r) 0x13) .done 0 0 (event 0x0513 (railHandle s4 r) r.val 0 0 s4)
      else s4

/-- The leash's floor of lanes for a rail slot (LSH_LANEMIN). -/
def laneFloor (s : State) (r : Fin 48) : Nat := rfld s (0x9620 + 4 * (r.val / 8)) (4 * (r.val % 8) + 3) (4 * (r.val % 8))

/-- Members that AUTO_SHED leaves running. -/
def kept (s : State) (x : Rail) : List (Fin 48) := (runningOf s x).filter (fun n => !x.shedMask.getLsbD n.val)

def maskOf (n : Fin 48) : BitVec 48 := BitVec.ofNat 48 (2 ^ n.val)

def autoShedEvent (r : Fin 48) (s : State) : State :=
  match s.rails[r] with
  | some x => event 0x0512 (railHandle s r) r.val 0 (BitVec.ofNat 64 (kept s x).length) s
  | none => s

/-- The rail sheds its highest-numbered running lane, or stands at a floor. -/
def railShedLane (r : Fin 48) (x : Rail) (s : State) : State :=
  let ks := kept s x
  if max x.minLanes (laneFloor s r) < ks.length then
    match (ks.filter (fun n => n ≠ x.lead)).getLast? with
    | some n => autoShedEvent r (modRail r (fun y => { y with shedMask := y.shedMask ||| maskOf n, laneEdge := false })
        (modLane n (fun l => { l with state := .shed }) s))
    | none => s
  else if x.minLanes < laneFloor s r && 1 < ks.length && !x.laneEdge then
    leashEdge 3 (railHandle s r) (laneFloor s r) (BitVec.ofNat 64 ks.length) (modRail r (fun y => { y with laneEdge := true }) s)
  else s

/-- It rejoins its lowest-numbered shed member. -/
def railRejoin (r : Fin 48) (x : Rail) (s : State) : State :=
  let s0 := modRail r (fun y => { y with laneEdge := false }) s
  match (x.members.filter (fun n => x.shedMask.getLsbD n.val && mayStart s n)).head? with
  | some n => autoShedEvent r (lostEnds r (modRail r (fun y => { y with shedMask := y.shedMask &&& ~~~(maskOf n) })
      (laneJoin n x s0)))
  | none => s0

/-- The rail current has stood long enough where R172 judges it: below SHED_PCT of the lead's ILIM for each lane but one,
or above ADD_PCT of it for each lane. -/
def lightLoad (s : State) (x : Rail) (ma : Int) : Bool :=
  decide (100 * ma < (x.shedPct * fld (laneReg s x.lead 0x14) 15 0 * ((kept s x).length - 1) : Nat))
def heavyLoad (s : State) (x : Rail) (ma : Int) : Bool :=
  decide (((x.addPct * fld (laneReg s x.lead 0x14) 15 0 * (kept s x).length : Nat) : Int) < 100 * ma)

/-- Light load sheds a lane, heavy load brings one back (R172). `ma`: the rail current. -/
def autoShed (r : Fin 48) (ma : Int) (s : State) : State :=
  match s.rails[r] with
  | none => s
  | some x =>
    if x.state ≠ .on || !x.autoShed then s
    else if lightLoad s x ma then railShedLane r x s
    else if heavyLoad s x ma then railRejoin r x s
    else s

/-! ### Remote sense (R174 to R177) -/

/-- A reading of the rail's remote sense pair in mV, to the nearest, through the trim of its amplifier (R296). -/
def remoteSeen (s : State) (x : Rail) (mv : Int) : Int := trimNear s (153 + x.rsPair) 1 20 mv

/-- 100 µs have passed: one correction step toward the target, at most 1 mV; in a slew the offset is held (R174). -/
def rsCorrection (r : Fin 48) (remote : Int) (s : State) : State :=
  match s.rails[r] with
  | none => s
  | some x =>
    if x.state ≠ .on || !x.rsActive then s
    else
      let c := if x.slewing then x.corr else clampI (-x.corrMax) x.corrMax (x.corr + clampI (-1) 1 ((x.target : Int) - remoteSeen s x remote))
      let lim := atCorrLimit x c
      let s1 := modRail r (fun y => { y with corr := c, corrHist := (c :: y.corrHist).take 161, corrLimit := lim }) s
      if lim then raiseOnce (48 + r.val) 6 s1 else endCause (48 + r.val) 6 s1

/-- The offset held 16 ms ago: 160 steps back, or the oldest since the start. -/
def heldCorr (x : Rail) : Int := match x.corrHist[160]? with
  | some c => c
  | none => x.corrHist.getLast?.getD x.corr

/-- Falling back to local sense. -/
def senseFall (r : Fin 48) (d : Nat) (f : Rail → Rail) (s : State) : State :=
  match s.rails[r] with
  | none => s
  | some x =>
    let c := if x.frozen then x.corr else heldCorr x
    let s1 := modRail r (fun y => f { y with rsActive := false, corr := c, frozen := true, corrLimit := atCorrLimit y c }) s
    let s2 := if atCorrLimit x c then raiseOnce (48 + r.val) 6 s1 else endCause (48 + r.val) 6 s1
    event 0x0511 (railHandle s r) r.val d 0 (raiseOnce (48 + r.val) d (countReg (0x4000 + r.val * 0x40 + 0x38) 15 8 1 s2))

/-- For 20 µs the remote and the local reading have differed by more than 300 mV. A pair that the rail has fallen back from
is still checked: its cause comes back in a new episode (R177, R349). -/
def senseLost (r : Fin 48) (remote local_ : Int) (s : State) : State :=
  match s.rails[r] with
  | some x =>
    if !x.rsEn || (remoteSeen s x remote - local_).natAbs ≤ 300 then s
    else if x.senseLost then raiseOnce (48 + r.val) 3 s
    else senseFall r 3 (fun y => { y with senseLost := true }) s
  | none => s

/-- The recovered amplitude, in 0.1 mV, is below 1 mV. -/
def senseFrozen (r : Fin 48) (amplitude : Nat) (s : State) : State :=
  match s.rails[r] with
  | some x =>
    if !x.rsEn || !x.ditherEn || x.state ≠ .on || 10 * 20000 ≤ amplitude * trimGain (trimWord s (153 + x.rsPair)) then s
    else if x.senseFrozen then raiseOnce (48 + r.val) 4 s
    else senseFall r 4 (fun y => { y with senseFrozen := true }) s
  | none => s

/-! ### Windows (R178, R179) -/

/-- UV takes no action of its own; it is blanked while the rail starts or stops and while a slew is held. -/
def uvCrossed (r : Fin 48) (s : State) : State :=
  match s.rails[r] with
  | none => s
  | some x =>
    if x.state ≠ .on || x.members.any (fun n => s.lanes[n].slewHeld) then s else raiseOnce (48 + r.val) 1 (setPg r false s)

/-- An OV crossing stops the rail. -/
def ovCrossed (r : Fin 48) (s : State) : State :=
  match s.rails[r] with
  | none => s
  | some x =>
    if !(railRuns x || x.state = .stopping) then s
    else
      let items := workOn s (railHandle s r)
      let s1 := failNodes r (railDown r .faulted (withdrawDemand (.rail r.val) (countReg (0x4000 + r.val * 0x40 + 0x38) 7 0 1 s)))
      raiseOnce (48 + r.val) 2 (items.foldl (fun t a => complete a .failed 0x13 0 t) s1)

/-- A rail's monitor, whose input has stood at `mv` for FILT, says BELOW, and ABOVE. -/
def windowUv (r : Fin 48) (mv : Nat) (s : State) : State :=
  match s.rails[r] with
  | none => s
  | some x =>
    let s1 := railSees x mv s
    if x.wmEn && (railWm s1 x).below then uvCrossed r s1 else s

def windowOv (r : Fin 48) (mv : Nat) (s : State) : State :=
  match s.rails[r] with
  | none => s
  | some x =>
    let s1 := railSees x mv s
    if x.wmEn && (railWm s1 x).above then ovCrossed r s1 else s

/-- What a rail makes of the output of the monitor it holds. -/
def railEdge (k : Fin 64) (s : State) : State :=
  match s.cmp.wms[k].owner with
  | .rail r => if s.cmp.wms[k].above then ovCrossed r s else if s.cmp.wms[k].below then uvCrossed r s else s
  | _ => s

/-- The reference has come down to 500 mV (R168). -/
def softStopDone (r : Fin 48) (s : State) : State :=
  match s.rails[r] with
  | some x => if x.state = .stopping then settle (railDown r .off s) else s
  | none => s

/-! ### Commands -/

def execRailSetV (a : Word) (s : State) : Out := .next (railSetV a s)
def execRailEnable (a : Word) (vmeas : Nat) (s : State) : Out := .next (railEnable a vmeas s)
def execRailDisable (a : Word) (s : State) : Out := .next (railDisable a s)
def execRailGang (a : Word) (s : State) : Out := .next (railGang a s)
def execRailLimits (a : Word) (s : State) : Out := .next (railLimits a s)
def execRailPgAssert (r : Fin 48) (mv : Nat) (s : State) : Out := .next (railPgAssert r mv s)
def execPgTmo (r : Fin 48) (s : State) : Out := .next (pgTmo r s)
def execPrebiasTmo (r : Fin 48) (s : State) : Out := .next (prebiasTmo r s)
def execGangDone (r : Fin 48) (s : State) : Out := .next (gangDone r s)
def execAutoShed (r : Fin 48) (current : Int) (s : State) : Out := .next (autoShed r current s)
def execRsCorrection (r : Fin 48) (remote : Int) (s : State) : Out := .next (rsCorrection r remote s)
def execSenseLost (r : Fin 48) (remote local_ : Int) (s : State) : Out := .next (senseLost r remote local_ s)
def execSenseFrozen (r : Fin 48) (amplitude : Nat) (s : State) : Out := .next (senseFrozen r amplitude s)
def execWindowUv (r : Fin 48) (mv : Nat) (s : State) : Out := .next (windowUv r mv s)
def execWindowOv (r : Fin 48) (mv : Nat) (s : State) : Out := .next (windowOv r mv s)
def execSoftStopDone (r : Fin 48) (s : State) : Out := .next (softStopDone r s)

end Sys2Proof.Machine
end

