-- ==== Sys2Proof/Machine/Graphs.lean ====
section
/-! DEFINITION. Sequence graphs as commands (09: R182 to R187): the graph table, SEQ_GRAPH_RUN, and the start, the end
and the time-out of a node. -/

namespace Sys2Proof.Machine

/-! ### The table (R182) -/

def nodeOf (w : Nat → Word) (i : Nat) : Node :=
  let a := w (4 + 4 * i)
  { wait := fld a 3 0 = 2, tmo := orElse0 (fld a 15 8) 10, vtarget := fld a 29 16, rail := w (5 + 4 * i),
    pred := w (6 + 4 * i), upDelay := fld (w (7 + 4 * i)) 15 0, downDelay := fld (w (7 + 4 * i)) 31 16 }

/-- Node `i` offends. `zeroGen`: the boot image may name a rail by generation 0. -/
def nodeBad (w : Nat → Word) (zeroGen : Bool) (i : Nat) : Bool :=
  let t := fld (w (4 + 4 * i)) 3 0
  let h := w (5 + 4 * i)
  !(t = 1 || t = 2) || decide ((w (6 + 4 * i)).toNat / 2 ^ i ≠ 0) ||
    (t = 1 && (hClass h ≠ 1 || (hGen h = 0 && !zeroGen)))

/-- The first offending node; a header that fails offends as node 0. -/
def tableFault (w : Nat → Word) (zeroGen : Bool) (len : Nat) : Option Nat :=
  let n := fld (w 0) 5 0
  if n < 1 || 32 < n || len ≠ 16 + 16 * n then some 0 else (List.range n).find? (nodeBad w zeroGen)

def graphOf (w : Nat → Word) (boot : Bool) : Graph :=
  { nodes := (List.range (fld (w 0) 5 0)).map (nodeOf w), onFail := bit (w 0) 8, boot := boot, state := .idle,
    active := 0, done := 0, failed := 0, unwinding := false, by_ := .none, item := none }

/-! ### The run -/

def isRunning (g : Graph) : Bool := g.state = .runUp || g.state = .runDown

/-- SEQ_GRAPH_RUN (R183, R184, R186). A graph that already runs is superseded (R106): its run ends there. -/
def seqGraphRun (a : Word) (s : State) : State :=
  beginWork 0x15 a (fun it t => match fin? 16 (hSlot it.handle) with
    | some k =>
      if (t.graphs[k]).isNone then t
      else if !bit (opv it 4) 0 && (hot t || keptDown t k) then complete a .refusedState 0x30 0 t
      else settle (startRun k (bit (opv it 4) 0) .item (some a) (commitStart it t))
    | none => t) s

/-! ### Upward -/

/-- A rail node's own target. -/
def wantOf (nd : Node) (x : Rail) : Nat := if nd.vtarget = 0 then x.vset else nd.vtarget

/-- The node's rail may be enabled and take its target (R164, R167, R185). -/
def nodeMay (s : State) (r : Fin 48) (x : Rail) (v : Nat) : Bool :=
  decide (x.state ≠ .faulted) && !hot s && !held s (48 + r.val) && targetOk (isCtl x.lead) v

/-- The rail stands at the target with power-good. -/
def railStands (x : Rail) : Bool := x.state = .on && x.pg && !x.slewing

/-- The node's request: as RAIL_ENABLE's, in the name of the run's item. -/
def askNode (k : Fin 16) (i : Nat) (item : Option Word) (r : Fin 48) (vmeas : Nat) (s : State) : State :=
  match s.rails[r] with
  | none => s
  | some x =>
    let q := railReq s r x (.node k.val i) (item.getD (nextAseq s)) x.claim
    let ans := ask s q
    let s1 := place q ans s
    match ans with
    | .refused _ => nodeFail k i s1
    | .served => railStart r vmeas s1
    | .waits c =>
      let s2 := modRail r (fun y => { y with state := .pending }) s1
      match item with
      | some a => interim a c (expectedDelay s2 q) s2
      | none => s2

def nodeUp (k : Fin 16) (i : Nat) (item : Option Word) (nd : Node) (vmeas : Nat) (s : State) : State :=
  match nodeRail s nd with
  | none => nodeFail k i s
  | some r =>
    match s.rails[r] with
    | none => nodeFail k i s
    | some x =>
      let v := wantOf nd x
      if !nodeMay s r x v then nodeFail k i s
      else
        let y := setVset v x
        let moves := decide (y.target ≠ x.target)
        let s1 := if nd.vtarget = 0 then s
          else if x.state = .on && moves then retargetRail r (setVset v) s else modRail r (setVset v) s
        if railStands x && !moves then nodeDone k i s1
        else if x.state = .off then askNode k i item r vmeas s1
        else s1

/-! ### Downward -/

/-- The node disables its rail; a rail that is OFF, and a handle that names no rail, is done at once. -/
def nodeDown (k : Fin 16) (i : Nat) (nd : Node) (s : State) : State :=
  match nodeRail s nd with
  | none => nodeDone k i s
  | some r =>
    match s.rails[r] with
    | none => nodeDone k i s
    | some x =>
      if x.state = .off then nodeDone k i s
      else
        let s1 := withdrawStarts r (supersedeOn 0x12 (railHandle s r) s)
        if x.state = .faulted then s1 else railDown r .off s1

/-- A soft stop under way ends where an upward node wants the rail. -/
def stopEnds (nd : Node) (s : State) : State :=
  match nodeRail s nd with
  | some r => (match s.rails[r] with
    | some x => if x.state = .stopping then railDown r .off s else s
    | none => s)
  | none => s

/-- A node starts, its delay having passed (R183, R184). -/
def graphNodeStart (k : Fin 16) (i : Nat) (vmeas : Nat) (s : State) : State :=
  match s.graphs[k] with
  | none => s
  | some g =>
    if !isRunning g || !nodeReady g i then s
    else
      let nd := nodeAt g i
      let s0 := if g.state = .runUp && !nd.wait then stopEnds nd (rootWake s) else rootWake s
      let s1 := modGraph k (fun x => { x with active := x.active ||| at_ i 1 }) s0
      settle (if nd.wait then nodeDone k i s1
        else if g.state = .runUp then nodeUp k i g.item nd vmeas s1 else nodeDown k i nd s1)

/-- The output of a downward node's rail has fallen below 10 % of VSET (R184); an upward node is done at power-good,
which the rail must show at its target (R183). -/
def graphNodeDone (k : Fin 16) (i : Nat) (s : State) : State :=
  match s.graphs[k] with
  | none => s
  | some g =>
    let stands := match (nodeRail s (nodeAt g i)).bind (fun r => s.rails[r]) with
      | some x => railStands x
      | none => false
    if !isRunning g || !bit g.active i || (g.state = .runUp && !stands) then s else settle (nodeDone k i s)

/-- The node's request waits: its TMO stands still (R183). -/
def nodeWaits (s : State) (k : Fin 16) (i : Nat) : Bool := s.bud.waiting.any (fun q => decide (q.who = .node k.val i))

/-- TMO (R184, R185). -/
def graphNodeTmo (k : Fin 16) (i : Nat) (s : State) : State :=
  match s.graphs[k] with
  | none => s
  | some g =>
    if !isRunning g || !bit g.active i || nodeWaits s k i then s
    else settle (if g.state = .runUp then nodeFail k i s else nodeDone k i s)

/-- The budget has served the request of a node that still waits for it. -/
def nodeServed (g i : Nat) (r : Fin 48) (vmeas : Nat) (s : State) : State :=
  match (nth s.graphs g none) with
  | some x => if bit x.active i then railStart r vmeas s else s
  | none => s

/-! ### Commands -/

def execSeqGraphRun (a : Word) (s : State) : Out := .next (seqGraphRun a s)
def execGraphNodeStart (k : Fin 16) (i : Fin 32) (vmeas : Nat) (s : State) : Out := .next (graphNodeStart k i.val vmeas s)
def execGraphNodeDone (k : Fin 16) (i : Fin 32) (s : State) : Out := .next (graphNodeDone k i.val s)
def execGraphNodeTmo (k : Fin 16) (i : Fin 32) (s : State) : Out := .next (graphNodeTmo k i.val s)

end Sys2Proof.Machine
end

