-- ==== Sys2Proof/Machine/Battery.lean ====
section
/-! DEFINITION. Charger, gauge, cutoff, Lend and Lift (11: R202 to R230). -/

namespace Sys2Proof.Machine

/-- Millivolts per cell brought to the pack. -/
def pack (s : State) (perCell : Nat) : Nat := cells s * perCell

def sawBatsns (mv : Nat) (s : State) : State := modChg (fun c => { c with batsns := mv }) s

def cutoffMv (s : State) : Nat := rfld s 0x5454 11 0

/-! ### The gauge (R212 to R215) -/

/-- The open-circuit curve: mV per cell and 0.1 %. -/
def socCurve (s : State) : List (Nat × Nat) :=
  if liIon s then [(3000, 0), (3400, 40), (3600, 100), (3700, 250), (3800, 450), (3900, 600), (4000, 720), (4100, 840), (4200, 950), (4300, 1000)]
  else [(2800, 0), (3000, 30), (3150, 80), (3200, 120), (3360, 950), (3400, 980), (3450, 1000)]

/-- Linear interpolation of a pack voltage: numerator and denominator of the value in 0.1 %. -/
def interp (n b : Nat) : List (Nat × Nat) → Nat × Nat
  | [] => (0, 1)
  | [(_, y)] => (y, 1)
  | (x0, y0) :: (x1, y1) :: rest =>
    if b ≤ n * x0 then (y0, 1)
    else if b ≤ n * x1 then (y0 * (n * (x1 - x0)) + (y1 - y0) * (b - n * x0), n * (x1 - x0))
    else interp n b ((x1, y1) :: rest)

/-- The curve at a pack voltage. -/
def socAt (b : Nat) (s : State) : Nat × State := let x := interp (cells s) b (socCurve s); roundOpen x.1 x.2 s

/-- The flat part of the LiFePO4 curve, ends included. -/
def flat (s : State) (b : Nat) : Bool := !liIon s && pack s 3200 ≤ b && b ≤ pack s 3360

/-- SOC_V is valid at this voltage when at rest. -/
def restValid (s : State) (b : Nat) : Bool := liIon s || b ≤ pack s 3200 || pack s 3360 ≤ b

/-- SOC_VLB, and at rest SOC_V. -/
def gaugeVolts (b : Nat) (s : State) : State :=
  let lb := if flat s b then (120, s) else socAt b s
  let s1 := modChg (fun c => { c with socVlb := lb.1 }) lb.2
  if s.chg.rest && restValid s b then
    let v := if flat s b then (if b = pack s 3200 then 120 else 950, s1) else (lb.1, s1)
    modChg (fun c => { c with socV := v.1, vvalid := true }) v.2
  else modChg (fun c => { c with vvalid := false }) s1

/-- DISPUTE ends (R218). -/
def disputeEnd (s : State) : State :=
  if s.chg.dispute then endCause 152 1 (modChg (fun c => { c with dispute := false, lb := false }) s) else s

/-- LOW (R228): SOC_USE falls below WARN_SOC. -/
def judgeLow (s : State) : State :=
  let below := decide (socUse s < (rfld s 0x5450 31 24 * 10 : Nat))
  let s1 := modChg (fun c => { c with low := below }) s
  if below && !s.chg.low then orReg 0x54C0 0x8 s1 else s1

/-- DISPUTE begins or ends (R218), and LOW. -/
def judgeGauge (s : State) : State :=
  let c := s.chg
  judgeLow (
    if c.dispute then (if 0 < c.qacc then disputeEnd s else s)
    else if c.qvalid && !s.pwr.acinValid && c.qacc ≤ 0 && pack s (cutoffMv s) < c.batsns && !s.pwr.burrowing then
      event 0x0702 0 0 0 (BitVec.ofNat 64 c.socVlb)
        (raise 152 1 (orReg 0x54C0 0x10 (modChg (fun x => { x with dispute := true, lb := true }) s)))
    else s)

def satQ (q : Int) : Int := clampI (-(2 ^ 31)) (2 ^ 31 - 1) q

/-- QACC takes a new value (R215, R216). -/
def rebase (q : Int) (s : State) : State :=
  let n := satQ q
  event 0x0705 0 0 0 (BitVec.ofInt 64 (n - s.chg.qacc))
    (countReg 0x545C 15 0 1 (modChg (fun c => { c with qacc := n, qrem := 0, qvalid := true }) s))

def qfull (s : State) : Nat := (reg s 0x5444).toNat

/-- SOC_V has become valid: the rest witness (R215). -/
def witness (before s : State) : State :=
  if s.chg.vvalid && !before.chg.vvalid && (!s.chg.qvalid || rbit s 0x5458 16) then
    rebase ((s.chg.socV * qfull s / 1000 : Nat) : Int) s
  else s

def gaugeRuns (s : State) : Bool := s.den.up && !battless s

/-- One unit of QACC, in 1/160,000 mA times 250 µs. -/
def qUnit : Int := 1440000 * 160000

/-- A sample of `ma` mA through the gauge converter's trim, whose OFF step of 0.25 µV is 1/8 mA at the 2 mΩ of the charge sense
resistor; in 1/160,000 mA (R296). -/
def gaugeParts (s : State) (ma : Int) : Int := (corrected (trimWord s 144) 1 (8 * ma, 1)).1

/-- A sample of the current, and the voltage with it (R212, R213, R217). -/
def gaugeSample (ma : Int) (b : Nat) (s : State) : State :=
  if !gaugeRuns s then sawBatsns b s
  else
    let n := gaugeParts s ma
    let t := s.chg.qrem + n
    let moves := decide (rfld s 0x5458 7 0 * 10 * 160000 < n.natAbs)
    let s1 := modChg (fun c => { c with
      qacc := satQ (c.qacc + t.tdiv qUnit), qrem := t.tmod qUnit, batsns := b, rest := c.rest && !moves,
      cutPend := c.cutPend && b ≤ pack s (cutoffMv s + 50) }) s
    judgeGauge (witness s (gaugeVolts b s1))

/-- The battery is at rest (R213). -/
def batteryRest (b : Nat) (s : State) : State :=
  if !gaugeRuns s then s
  else judgeGauge (witness s (gaugeVolts b (modChg (fun c => { c with rest := true, batsns := b }) s)))

/-- A reading beyond ±25 mV (R212). -/
def gaugeRange (s : State) : State :=
  if !gaugeRuns s then s
  else judgeGauge (raiseOnce 152 3 (modChg (fun c => { c with senseRange := true, qvalid := false }) s))

/-- GAUGE_REBASE (R216). -/
def gaugeRebase (a : Word) (s : State) : State :=
  beginWork 0x43 a (fun it t =>
    let mode := fld (opv it 4) 1 0
    if battless t then complete a .refusedState 0x12 0 t
    else if mode = 3 && !t.chg.vvalid then complete a .refusedState 0x14 0 t
    else
      let old := t.chg.qacc
      let new : Int := if mode = 0 then 0 else if mode = 1 then (qfull t : Int) else if mode = 2 then (opv it 5).toInt
        else ((t.chg.socV * qfull t / 1000 : Nat) : Int)
      let t1 := judgeGauge (disputeEnd (rebase new t))
      complete a .done 0 (dword (BitVec.ofInt 32 old) (BitVec.ofInt 32 t1.chg.qacc)) t1) s

/-! ### Cutoff (R217 to R220) -/

def cutoffPend (b : Nat) (s : State) : State :=
  if !gaugeRuns s || s.pwr.acinValid || s.chg.cutPend || pack s (cutoffMv s) < b then s
  else event 0x0703 0 0 0 0 (orReg 0x54C0 0x20 (modChg (fun c => { c with cutPend := true, batsns := b }) s))

/-- CUT_PEND has stood for CUT_FILT: CUTOFF, then BURROW marked for undervoltage. -/
def cutoff (b : Nat) (s : State) : State :=
  if !gaugeRuns s || s.pwr.acinValid || !s.chg.cutPend || s.pwr.burrowing || pack s (cutoffMv s + 50) < b then s
  else
    let s1 := event 0x0704 0 0 0 (BitVec.ofInt 64 s.chg.qacc) (sawBatsns b s)
    let s2 := if 0 < s.chg.qacc && s.chg.qvalid then raise 152 2 (countReg 0x545C 31 16 1 s1) else s1
    burrowStart (modPwr (fun p => { p with latch := { p.latch with gaugeZero := true, uv := true } }) (disputeEnd s2))

/-! ### CAP_BATT (R221) -/

def derateSoc (s : State) : Nat := rfld s 0x5450 23 16 * 10

/-- F changes. -/
def judgeDerate (s : State) : State :=
  let soc := socUse s
  if battless s then modChg (fun c => { c with derated := false }) s
  else if !s.chg.derated && decide (soc < derateSoc s) then event 0x0708 0 0 1 0 (modChg (fun c => { c with derated := true }) s)
  else if s.chg.derated && decide ((derateSoc s : Int) + 20 ≤ soc) then
    event 0x0708 0 0 0 0 (modChg (fun c => { c with derated := false }) s)
  else s

/-- The discharge limit in force, in 10 mA. -/
def dsgLimit (s : State) : Nat := match dsgCap s with
  | some c => min c (rfld s 0x5450 15 0)
  | none => rfld s 0x5450 15 0

def capBattUpdate (b : Nat) (s : State) : State :=
  if !s.den.up then s
  else
    let s1 := judgeDerate (sawBatsns b s)
    let x := roundOpen (b * dsgLimit s1) (if s1.chg.derated then 200 else 100) s1
    arbitrate (modBud (fun k => { k with capBatt := x.1 }) x.2)

/-! ### Charging (R203 to R209) -/

/-- The charger moves on, and its grant with it (R196). -/
def chgMoves (st : ChgState) (s : State) : State := arbitrate (setChg st s)

/-- The voltage tests. -/
def chgVolts (b : Nat) (s0 : State) : State :=
  let s := sawBatsns b s0
  let low := decide (b < pack s (preV s))
  match s.chg.state with
  | .precharge => if low then s else chgMoves .cc s
  | .cc => if low then chgMoves .precharge s else if pack s (rfld s 0x540C 12 0) ≤ b then chgMoves .cv s else s
  | .cv => if low then chgMoves .precharge s else s
  | _ => s

/-- Termination. -/
def chgTerminate (s : State) : State :=
  if s.chg.state ≠ .cv then s else judgeGauge (setChg .done (rebase (qfull s : Int) s))

/-- Recharge. -/
def chgRecharge (b : Nat) (s : State) : State :=
  let lim := rfld s 0x540C 12 0 - 5 * rfld s 0x5410 15 8
  if s.chg.state ≠ .done || pack s lim ≤ b then s
  else chgMoves (if b < pack s (preV s) then .precharge else .cc) (sawBatsns b s)

/-- A cause that only FAULT_CLEAR ends is raised once until then (R230). -/
def raiseEpisode (n d : Nat) (s : State) : State :=
  if (causesOf s n).latched.getLsbD (d - 1) then s else raiseLatched n d s

/-- Precharge lasts beyond PRE_TMO (R205). -/
def preTmo (s : State) : State :=
  if s.chg.state ≠ .precharge || s.chg.preTime ≤ 60000000 * rfld s 0x5414 15 8 then s
  else
    let s1 := setChg .fault s
    let s2 := if s.pwr.bootHold = .precharge then modPwr (fun p => { p with batsw := false }) s1 else s1
    raiseOnce 151 1 s2

/-- The safety timer reaches SAFETY (R206). -/
def safetyTmo (s : State) : State :=
  if charging s && decide (3600000000 * orElse0 (rfld s 0x5414 23 16) 24 ≤ s.chg.safety) then raiseEpisode 151 2 (setChg .fault s) else s

/-- The target before adaptation, in mA. -/
def baseMa (s : State) : Nat := 10 * (chargeBase s).1

def chgMin (s : State) : Nat := 10 * rfld s 0x960C 9 0

/-- The adapted current goes to `ma`; at or above the target adaptation ends. -/
def adaptTo (ma : Nat) (s : State) : State :=
  let base := baseMa s
  let floor := chgMin s
  let hit := decide (ma ≤ floor)
  let s1 := retarget (modChg (fun c => { c with adapted := if base ≤ ma then none else some ma, leashHit := decide (ma < base) && hit }) s)
  if s1.chg.leashHit && !s.chg.leashHit then leashEdge 2 0 1 (BitVec.ofNat 64 ma) s1 else s1

/-- A step of input adaptation: 100 µs (R209). How far the current falls, up to 100 mA, is open. -/
def inputAdapt (vin : Nat) (s : State) : State :=
  if !charging s then s
  else
    let base := baseMa s
    let cur := min base (s.chg.adapted.getD base)
    let adpt := rfld s 0x5418 8 0 * 100
    if cur < base && cur < chgMin s then adaptTo (min (min base (chgMin s)) (cur + 1)) s
    else if vin < adpt then
      if base ≤ chgMin s then s
      else let d := drawNat s; adaptTo (max (chgMin s) (cur - d.1 % 101)) d.2
    else if adpt + 200 < vin then adaptTo (cur + 1) s
    else s

/-! ### Supply-side causes (R211, R221, R230) -/

def chgFault (c : ChgCause) (s : State) : State :=
  let runs := s.chg.state = .startup || s.chg.state = .precharge || s.chg.state = .lend || charging s
  if !s.den.up then s
  else match c with
    | .acinOv mv => if 38000 < mv then raiseOnce 150 1 s else s
    | .acgateFail vin acin => if s.pwr.acgate && 1000 < ((vin : Int) - acin).natAbs then raiseOnce 150 2 s else s
    | .battOv mv => if s.chg.state = .disabled || mv ≤ ovMv s then s else raiseOnce 151 3 (setChg .fault s)
    | .chgOc ma => if runs && (10 * s.chg.target + 1000 : Int) < ma then raiseEpisode 151 4 (setChg .fault s) else s
    | .swFail => if runs then raiseEpisode 151 5 (setChg .fault s) else s

/-- VSYS and BATSNS differ with BATSW closed. -/
def batswOpen (diff : Int) (s : State) : State := if s.pwr.batsw && 300 < diff.natAbs then raiseOnce 155 1 s else s

/-! ### CHG_SET (R210) -/

def vcellOk (s : State) (v : Nat) : Bool := if liIon s then 4000 ≤ v && v ≤ 4350 else 3400 ≤ v && v ≤ 3650
def cutoffOk (s : State) (v : Nat) : Bool := if liIon s then 3100 ≤ v && v ≤ 3600 else 2600 ≤ v && v ≤ 3100

/-- Group `g` of word 4 is to change. -/
def chgs (it : Item) (g : Nat) : Bool := bit (opv it 4) g

def chgOperand (it : Item) : Bool :=
  (chgs it 2 && decide (fld (opv it 7) 12 0 % 5 ≠ 0)) || (chgs it 7 && decide (fld (opv it 12) 11 0 % 10 ≠ 0))

def chgRange (s : State) (it : Item) : Bool :=
  (chgs it 1 && 1000 < fld (opv it 6) 9 0) || (chgs it 2 && !vcellOk s (fld (opv it 7) 12 0)) ||
  (chgs it 4 && !(5 ≤ fld (opv it 9) 7 0 && fld (opv it 9) 7 0 ≤ 100)) ||
  (chgs it 5 && !(170 ≤ fld (opv it 10) 8 0 && fld (opv it 10) 8 0 ≤ 340)) ||
  (chgs it 7 && !cutoffOk s (fld (opv it 12) 11 0)) ||
  (chgs it 8 && !(1000 ≤ (opv it 13).toNat && (opv it 13).toNat ≤ 10000000))

/-- The groups of CHG_SET: register, and the bits an operand word may set in it. -/
def chgGroups : List (Nat × Nat × Word) :=
  [(0x5404, 5, 1), (0x5408, 6, 0x3FF), (0x540C, 7, 0x1FFF), (0x5410, 8, 0xFFFFFF), (0x5414, 9, 0xFFFFFF),
   (0x5418, 10, 0x1FF), (0x5450, 11, full), (0x5454, 12, 0xFF0FFF), (0x5444, 13, full)]

def chgStore (it : Item) (s : State) : State :=
  chgGroups.zipIdx.foldl (fun t e => if chgs it e.2 then setReg e.1.1 (opv it e.1.2.1 &&& e.1.2.2) t else t) s

def chgSet (a : Word) (s : State) : State :=
  beginWork 0x40 a (fun it t =>
    let sets := chgs it 0 && bit (opv it 5) 0
    if sets && held t 151 then failHold a t
    else if battless t then complete a .refusedState 0x12 0 t
    else if chgOperand it then refuseOperand a t
    else if chgRange t it then complete a .refusedLeash 0 0 t
    else if sets && hot t then complete a .refusedState 0x30 0 t
    else
      let t1 := judgeLow (arbitrate (chgUpdate (chgStore it (commitStart it t))))
      complete a .done 0 (BitVec.ofNat 64 t1.chg.target) t1) s

/-! ### Lend (R222 to R225) -/

def lendMw (it : Item) : Nat := fld (opv it 5) 10 0 * fld (opv it 6) 8 0 / 10

def lendRange (it : Item) : Bool :=
  !(500 ≤ fld (opv it 5) 10 0 && fld (opv it 5) 10 0 ≤ 2000) || !(1 ≤ fld (opv it 6) 8 0 && fld (opv it 6) 8 0 ≤ 300)

/-- A rail with a member on a bank supplied from VIN is not OFF. -/
def vinBank (s : State) : Bool :=
  s.rails.toList.any fun x => match x with
    | some x => decide (x.state ≠ .off) && x.members.any (fun n => isCtl n && bit (laneReg s n 4) 3)
    | none => false

def latchedIn (s : State) (n : Nat) : Bool := (causesOf s n).latched ≠ 0

def lendValues (it : Item) (c : Charger) : Charger :=
  { c with vlend := fld (opv it 5) 10 0, ilend := fld (opv it 6) 8 0, lendSoc := fld (opv it 7) 7 0 }

/-- The budget has served a start (R223 steps 1 and 2), or a rise of a running Lend. -/
def lendServed (a : Word) (s : State) : State :=
  match findItem s a with
  | none => s
  | some it =>
    let s1 := commitStart it (modItem a (fun i => { i with phase := .working }) s)
    if s.chg.lend = .off then
      chgUpdate (modPwr (fun p => { p with acgate := false }) (modChg (fun c => { lendValues it c with lend := .slewing }) s1))
    else complete a .done 0 (((live s 0x5484 >>> 16) &&& 0xFFFF).setWidth 64) (modChg (lendValues it) s1)

def lendReq (s : State) (a : Word) (mw : Nat) : Req :=
  { who := .item a, aseq := a, demand := .lend, tier := lendTier s, mw := mw, acc := false, slot := false, dur := none, since := now s }

def lendSet (a : Word) (s : State) : State :=
  beginWork 0x41 a (fun it t =>
    if bit (opv it 4) 0 && held t 153 then failHold a t
    else if lendRange it then complete a .refusedLeash 0 0 t
    else if !bit (opv it 4) 0 then complete a .done 0 0 (if t.chg.lend = .off then t else arbitrate (lendOff 1 (commitStart it t)))
    else if hot t then complete a .refusedState 0x30 0 t
    else if vinBank t then complete a .refusedState 0x10 0 t
    else if battless t then complete a .refusedState 0x12 0 t
    else if t.chg.cutPend || socUse t < (fld (opv it 7) 7 0 * 10 : Nat) then complete a .refusedState 0x11 0 t
    else if latchedIn t 153 then complete a .refusedState 0x13 0 t
    else if t.chg.lend ≠ .off && lendMw it ≤ grantMw t .lend then
      lendServed a (lowerGrant .lend (lendTier t) (lendMw it) t)
    else itemAsks a (lendReq t a (lendMw it)) (lendServed a) t) s

def lendVinReached (s : State) : State :=
  if s.chg.lend ≠ .slewing then s
  else modPwr (fun p => { p with ptng := true }) (modChg (fun c => { c with lend := .closing }) s)

def lendStartDone (mv : Nat) (s : State) : State :=
  if s.chg.lend ≠ .closing then s
  else completeOpt (inProgress s 0x41) .done 0 (BitVec.ofNat 64 (mv % 65536)) (modChg (fun c => { c with lend := .running }) s)

def lendCode : LendCause → Nat
  | .command => 1 | .shed => 2 | .battLow => 5 | .sub => 6 | .system => 7

/-- Lend stops; the charger and the capacity follow. -/
def lendStops (d : Nat) (s : State) : State := arbitrate (lendAbort d s)

/-- A stop cause of R224. SUB stands in the ledger (R225). -/
def lendStop (c : LendCause) (s : State) : State :=
  if s.chg.lend = .off || (c = .sub && grantMw s .lend ≤ capLend s) then s else lendStops (lendCode c) s

def lendFault (c : LendFaultCause) (s : State) : State :=
  match c with
  | .short mv => if s.chg.lend = .running && mv < 8 * s.chg.vlend then raiseEpisode 153 1 (lendStops 3 s) else s
  | .backfeed mv => if s.chg.lend ≠ .off && 10 * s.chg.vlend + 1000 < mv then raiseEpisode 153 2 (lendStops 4 s) else s

/-! ### Lift (R226, R227) -/

def liftRange (it : Item) : Bool :=
  !(180 ≤ fld (opv it 5) 8 0 && fld (opv it 5) 8 0 ≤ 280) || !(1 ≤ fld (opv it 6) 7 0 && fld (opv it 6) 7 0 ≤ 200)

def liftValues (it : Item) (c : Charger) : Charger :=
  { c with vacc := fld (opv it 5) 8 0, ilift := fld (opv it 6) 7 0, liftClaim := fld (opv it 7) 23 0 }

/-- The claim is one for loads on ACC: once granted it counts against CAP_LIFT. -/
def accGrant (s : State) : State :=
  modBud (fun b => { b with grants := b.grants.map (fun g => if g.demand = .lift then { g with acc := true } else g) }) s

/-- The budget has served the start; a running Lift takes the new values. LIFT_REACHED completes the item. -/
def liftServed (a : Word) (s : State) : State :=
  match findItem s a with
  | none => s
  | some it =>
    let s1 := commitStart it (modItem a (fun i => { i with phase := .working }) (accGrant s))
    modChg (fun c => { liftValues it c with lift := if c.lift = .off then .rising else c.lift }) s1

def liftReq (s : State) (a : Word) (mw : Nat) : Req :=
  { who := .item a, aseq := a, demand := .lift, tier := liftTier s, mw := mw, acc := false, slot := false, dur := none, since := now s }

def liftSet (a : Word) (s : State) : State :=
  beginWork 0x42 a (fun it t =>
    if bit (opv it 4) 0 && held t 154 then failHold a t
    else if liftRange it then complete a .refusedLeash 0 0 t
    else if !bit (opv it 4) 0 then complete a .done 0 0 (liftOffFree (if t.chg.lift = .off then t else commitStart it t))
    else if hot t then complete a .refusedState 0x30 0 t
    else if latchedIn t 154 then complete a .refusedState 0x13 0 t
    else if t.chg.lift ≠ .off && fld (opv it 7) 23 0 ≤ grantMw t .lift then
      liftServed a (lowerGrant .lift (liftTier t) (fld (opv it 7) 23 0) t)
    else itemAsks a (liftReq t a (fld (opv it 7) 23 0)) (liftServed a) t) s

/-- ACC stands at `mv`: the start, or a change of VACC, is over once that is within 3 % of VACC. -/
def liftReached (mv : Nat) (s : State) : State :=
  if s.chg.lift = .off || 3 * s.chg.vacc < ((mv : Int) - 100 * s.chg.vacc).natAbs then s
  else completeOpt (inProgress s 0x42) .done 0 (BitVec.ofNat 64 (mv % 65536)) (modChg (fun c => { c with lift := .running }) s)

def liftFault (c : LiftCause) (s : State) : State :=
  if s.chg.lift = .off then s
  else match c with
    | .short => raiseEpisode 154 1 (liftAbort 1 s)
    | .ov mv => if 100 * s.chg.vacc + 2000 < mv then raiseEpisode 154 2 (liftAbort 2 s) else s
    | .uv mv => if mv < 90 * s.chg.vacc then raiseOnce 154 3 s else s

/-! ### Commands -/

def execChgSet (a : Word) (s : State) : Out := .next (chgSet a s)
def execLendSet (a : Word) (s : State) : Out := .next (lendSet a s)
def execLiftSet (a : Word) (s : State) : Out := .next (liftSet a s)
def execGaugeRebase (a : Word) (s : State) : Out := .next (gaugeRebase a s)
def execCapBattUpdate (b : Nat) (s : State) : Out := .next (capBattUpdate b s)
def execChgStateChange (b : Nat) (s : State) : Out := .next (chgVolts b s)
def execChgTerminate (s : State) : Out := .next (chgTerminate s)
def execChgRecharge (b : Nat) (s : State) : Out := .next (chgRecharge b s)
def execPreTmo (s : State) : Out := .next (preTmo s)
def execSafetyTmo (s : State) : Out := .next (safetyTmo s)
def execInputAdapt (vin : Nat) (s : State) : Out := .next (inputAdapt vin s)
def execChgFault (c : ChgCause) (s : State) : Out := .next (chgFault c s)
def execBatswOpenFail (diff : Int) (s : State) : Out := .next (batswOpen diff s)
def execGaugeSample (ma : Int) (b : Nat) (s : State) : Out := .next (gaugeSample ma b s)
def execSenseRange (s : State) : Out := .next (gaugeRange s)
def execBatteryRest (b : Nat) (s : State) : Out := .next (batteryRest b s)
def execCutoffPend (b : Nat) (s : State) : Out := .next (cutoffPend b s)
def execCutoff (b : Nat) (s : State) : Out := .next (cutoff b s)
/-- DSG_OC (R221): the switch stays closed. -/
def execDsgOc (ma : Nat) (s : State) : Out :=
  .next (if s.den.up && 1250 * rfld s 0x5450 15 0 < 100 * ma then raiseOnce 155 2 s else s)
def execLendVinReached (s : State) : Out := .next (lendVinReached s)
def execLendStartDone (mv : Nat) (s : State) : Out := .next (lendStartDone mv s)
def execLendStop (c : LendCause) (s : State) : Out := .next (lendStop c s)
def execLendFault (c : LendFaultCause) (s : State) : Out := .next (lendFault c s)
def execLiftReached (mv : Nat) (s : State) : Out := .next (liftReached mv s)
def execLiftFault (c : LiftCause) (s : State) : Out := .next (liftFault c s)

end Sys2Proof.Machine
end

