-- ==== Sys2Proof/Machine/Actuators.lean ====
section
/-! DEFINITION. Relay drivers and motor channels (12: R231 to R249). -/

namespace Sys2Proof.Machine

/-! ### Relays: parameters (R231) -/

def pulseWidth (x : Relay) (dir : Bool) (pw : Nat) : Nat :=
  if pw ≠ 0 then pw else orElse0 (if dir then fld x.w5 7 0 else fld x.w5 15 8) 40

def pwOk (pw : Nat) : Bool := pw = 0 || (5 ≤ pw && pw ≤ 250)

def relayTier (x : Relay) : Nat := fld x.w5 17 16
def relayRetries (x : Relay) : Nat := fld x.w5 22 21
/-- The smallest dip that counts, in mA. -/
def dipMin (x : Relay) : Nat := 5 * orElse0 (fld x.w6 7 0) 10
def twinMin (x : Relay) : Nat := orElse0 (fld x.w6 15 8) 3
def twinMax (x : Relay) (width : Nat) : Nat := min (orElse0 (fld x.w6 23 16) 30) width

def relayOf (w : Nat → Word) : Relay :=
  { w5 := w 5 &&& 0x0073FFFF, w6 := w 6 &&& 0x00FFFFFF, state := .idle, pos := .unknown, target := none, confirmed := false,
    targetAseq := 0, byStart := false, item := none, dir := false, width := 0, left := 0, held := false, limiting := false,
    bud := .none }

def relayFault (w : Nat → Word) : Bool := !pwOk (fld (w 5) 7 0) || !pwOk (fld (w 5) 15 8)

/-! ### Pulses (R232 to R235) -/

/-- CONFIRMED or HELD: the position is the target's. -/
def relayConfirm (n : Fin 48) (s : State) : State :=
  commitRelay n (modRelay n (fun x => { x with confirmed := true, pos := if x.dir then .closed else .open_ }) s)

/-- The coil is driven (step 1 of R233); under ISOLATE no pulse starts, and the attempt counts as CUT (R352). -/
def relayPulse (n : Fin 48) (s : State) : State :=
  let s1 := modRelay n (fun x => { x with state := .pulsing, pos := .unknown }) s
  if isolated s (96 + n.val) then settle (raiseLatched (96 + n.val) 4 (relayCut n s1))
  else relayPresent n true (countReg (0x5840 + n.val * 0x18 + 0x14) 15 0 1 (blankRelay n.val 0 s1))

def relayReq (s : State) (n : Fin 48) (x : Relay) (who : Waiter) (a : Word) (width : Nat) : Req :=
  { who := who, aseq := a, demand := .relay n.val, tier := relayTier x, mw := rfld s 0x5028 23 0, acc := false, slot := true,
    dur := some (width * 1000), since := now s }

/-- The slot is granted to an item's first pulse: START commits, and its TARGET becomes the journaled target. -/
def relayServed (a : Word) (n : Fin 48) (s : State) : State :=
  match findItem s a with
  | none => s
  | some it =>
    let dir := bit (opv it 4) 0
    let s1 := commitStart it (modItem a (fun i => { i with phase := .working }) s)
    relayPulse n (modRelay n (fun x => { x with
      held := bit (opv it 4) 8 && x.confirmed && x.target = some dir,
      target := some dir, confirmed := false, targetAseq := a, byStart := true, item := some a, dir := dir,
      width := pulseWidth x dir (fld (opv it 4) 23 16), left := relayRetries x }) s1)

/-- The relay still pulses, waits for a retry or for a re-assertion: an item on it cannot begin yet. -/
def relayBusy (s : State) (h : Word) : Bool :=
  match nth s.relays (hSlot h) none with
  | some x => x.state = .pulsing || x.state = .retryGap || x.state = .waiting
  | none => false

def relaySet (a : Word) (s : State) : State :=
  if itemAt s a (fun i => relayBusy s i.handle) then s
  else beginWork 0x20 a (fun it t => match fin? 48 (hSlot it.handle) with
    | none => t
    | some n => match t.relays[n] with
      | none => t
      | some x =>
        let dir := bit (opv it 4) 0
        let pw := fld (opv it 4) 23 16
        if held t (96 + n.val) then failHold a t
        else if !pwOk pw then refuseOperand a t
        else if x.state = .faulted then complete a .refusedState 0x17 0 t
        else if hot t then complete a .refusedState 0x30 0 t
        else if x.target = some dir && x.confirmed && !bit (opv it 4) 8 then
          complete a .done 0x10 0 (commitRelay n (modRelay n (fun y => { y with targetAseq := a }) t))
        else
          let t1 := itemAsks a (relayReq t n x (.item a) a (pulseWidth x dir pw)) (relayServed a n) t
          if itemAt t1 a (fun i => i.phase = .waiting) then modRelay n (fun y => { y with state := .waiting }) t1 else t1) s

/-- The dip is a landing (R233 step 2). -/
def lands (x : Relay) (d : Dip) : Bool := dipMin x ≤ d.depth && twinMin x ≤ d.ms && d.ms ≤ twinMax x x.width

/-- PW has passed: the coil is released and the outcome judged. Without a landing RLY_LAND's time is a free value. -/
def relayPulseEnd (n : Fin 48) (dip : Option Dip) (peak : Nat) (s : State) : State :=
  match s.relays[n] with
  | none => s
  | some x =>
    if x.state ≠ .pulsing then s
    else match dip.filter (lands x) with
      | some e => relayEnd n 0 e.ms peak (relayConfirm n s)
      | none =>
        let d := drawNat s
        if x.held then relayEnd n 1 d.1 peak (relayConfirm n d.2)
        else raiseLatched (96 + n.val) 3 (relayEnd n 2 d.1 peak d.2)

/-- The pulse ends early. -/
def relayPulseAbort (n : Fin 48) (why : PulseAbort) (peak : Nat) (s : State) : State :=
  match s.relays[n] with
  | none => s
  | some x =>
    if x.state ≠ .pulsing then s
    else
      let d := drawNat s
      match why with
      | .coilShort => raiseLatched (96 + n.val) 2 (relayEnd n 4 d.1 peak d.2)
      | .coilOpen => raiseLatched (96 + n.val) 1 (relayEnd n 3 d.1 peak d.2)
      | .bankUv => raiseLatched (96 + n.val) 4 (relayEnd n 5 d.1 peak d.2)

/-- RETRY_GAP has passed: a slot anew. A retry that the budget refuses ends the item with its last outcome. -/
def relayRetry (n : Fin 48) (s : State) : State :=
  match s.relays[n] with
  | none => s
  | some x =>
    if x.state ≠ .retryGap then s
    else
      let r := relayReq s n x (.retry n.val) (x.item.getD (nextAseq s)) x.width
      let ans := ask s r
      let s1 := place r ans s
      match ans with
      | .refused _ => relayVerdict n .idle s1
      | .served => relayPulse n s1
      | .waits c =>
        let s2 := modRelay n (fun y => { y with state := .waiting }) s1
        match x.item with
        | some a => interim a c (expectedDelay s2 r) s2
        | none => s2

/-- A re-assertion at replay step 3 (R236): the drive of the STARTED item `a`, or the hub's own. `ord` stands for its
place among the requests. -/
def relayReassert (n : Fin 48) (a : Option Word) (ord : Word) (s : State) : State :=
  match s.relays[n], (s.relays[n]).bind (·.target) with
  | some x, some dir =>
    if hot s then completeOpt a .refusedState 0x30 0 s else -- R295
    let pw := match a.bind (findItem s) with
      | some it => fld (opv it 4) 23 16
      | none => 0
    let s0 := modRelay n (fun y => { y with item := a, dir := dir, width := pulseWidth x dir pw, left := relayRetries x, held := false }) s
    let s1 := match a with
      | some a => modItem a (fun i => { i with phase := .working }) s0
      | none => event 0x0802 (relayHandle s n) n.val 0 0 s0
    let r := relayReq s1 n x (.reassert n.val) ord (pulseWidth x dir pw)
    let ans := ask s1 r
    let s2 := place r ans s1
    match ans with
    | .refused k => match a with
      | some a => complete a .refusedBudget 0x10 (BitVec.ofNat 64 k) (modRelay n (fun y => { y with item := none }) s2)
      | none => s2
    | .served => relayPulse n s2
    | .waits c =>
      let s3 := modRelay n (fun y => { y with state := .waiting }) s2
      match a with
      | some a => interim a c (expectedDelay s3 r) s3
      | none => s3
  | _, _ => s

/-! ### Motors: parameters (R231) -/

def motorOf (w : Nat → Word) : Motor :=
  { p := Vector.ofFn (fun i => w (5 + i.val)), state := .idle, posValid := false, homed := false, coasted := false, pos := 0,
    target := 0, duty := 0, step := .approach, farTrips := 0, brake := .none, item := none, homeActive := false,
    farActive := false, zero := 0, homeEdges := [], farEdges := [], badSteps := 0, bud := .none }

def motP (x : Motor) (w : Nat) : Word := nth x.p (w - 5) 0
def motAcc (x : Motor) : Bool := bit (motP x 5) 0
def motEnc (x : Motor) : Bool := bit (motP x 5) 1
def motTier (x : Motor) : Nat := fld (motP x 5) 9 8
def motClaim (x : Motor) : Nat := fld (motP x 6) 23 0
def motTmo (x : Motor) : Nat := fld (motP x 13) 31 16

def inOr0 (v lo hi : Nat) : Bool := v = 0 || (lo ≤ v && v ≤ hi)

/-- A motor parameter lies outside its range. -/
def motorFault (w : Nat → Word) : Bool :=
  let rs := fld (w 7) 15 0
  let il := fld (w 7) 31 16
  !(10 ≤ rs && rs ≤ 1000) || !(10 ≤ il && il ≤ 500) ||
  !inOr0 (fld (w 8) 7 0) 5 100 || !inOr0 (fld (w 8) 15 8) 5 100 || !inOr0 (fld (w 8) 23 16) 5 100 ||
  !inOr0 (fld (w 9) 7 0) 2 50 || !inOr0 (fld (w 9) 15 8) 2 32 || !inOr0 (fld (w 9) 23 16) 1 100

/-! ### Starting (R243, R245) -/

def onMotor (op : Nat) (a : Word) (k : Item → Fin 2 → Motor → State → State) (s : State) : State :=
  beginWork op a (fun it t => match fin? 2 (hSlot it.handle) with
    | some m => (match t.motors[m] with
      | some x => k it m x t
      | none => t)
    | none => t) s

/-- The channel still brakes: an item that drives cannot begin yet. -/
def motorBraking (s : State) (h : Word) : Bool :=
  match nth s.motors (hSlot h) none with
  | some x => x.state = .braking
  | none => false

def motorReq (s : State) (m : Fin 2) (x : Motor) (a : Word) : Req :=
  { who := .item a, aseq := a, demand := .motor m.val, tier := motTier x, mw := motClaim x, acc := motAcc x, slot := false,
    dur := if motTmo x = 0 then none else some (motTmo x * 100000), since := now s }

/-- The budget has served the item: START commits and the drive begins. -/
def motorServed (a : Word) (m : Fin 2) (s : State) : State :=
  match findItem s a with
  | none => s
  | some it =>
    let s1 := commitStart it (modItem a (fun i => { i with phase := .working }) s)
    if it.opcode = 0x21 then
      modMotor m (fun x => { x with state := .homing, step := if x.homeActive then .release else .approach, farTrips := 0,
                                    item := some a, coasted := false, brake := .none, badSteps := 0 }) s1
    else
      modMotor m (fun x => { x with state := .moving, target := (opv it 4).toInt, item := some a, coasted := false, brake := .none, badSteps := 0,
                                    duty := orElse0 (fld (opv it 5) 7 0) (orElse0 (fld (motP x 8) 7 0) 70) }) s1

def motorAsks (a : Word) (m : Fin 2) (x : Motor) (s : State) : State :=
  let s1 := itemAsks a (motorReq s m x a) (motorServed a m) s
  if itemAt s1 a (fun i => i.phase = .waiting) then modMotor m (fun y => { y with state := .pending, item := some a }) s1 else s1

def motorHome (a : Word) (s : State) : State :=
  if itemAt s a (fun i => motorBraking s i.handle) then s
  else onMotor 0x21 a (fun _ m x t =>
    if held t (144 + m.val) then failHold a t
    else if x.state = .faulted then complete a .refusedState 0x17 0 t
    else if hot t then complete a .refusedState 0x30 0 t
    else motorAsks a m x t) s

def motorMove (a : Word) (s : State) : State :=
  if itemAt s a (fun i => motorBraking s i.handle) then s
  else onMotor 0x22 a (fun it m x t =>
    if held t (144 + m.val) then failHold a t
    else if !inOr0 (fld (opv it 5) 7 0) 5 100 then refuseOperand a t
    else if it.redriven && !x.posValid then complete a .failed 0x1F 0 t
    else if !x.posValid then complete a .refusedState 0x11 0 t
    else if !motEnc x then complete a .refusedState 0x12 0 t
    else if x.state = .faulted then complete a .refusedState 0x17 0 t
    else if hot t then complete a .refusedState 0x30 0 t
    else motorAsks a m x t) s

def posResult (x : Motor) : DWord := if x.posValid then (BitVec.ofInt 32 x.pos).setWidth 64 else 0

/-- MOTOR_STOP (R246). Where a channel coasts the position at the verdict is free. -/
def motorStop (a : Word) (s : State) : State :=
  onMotor 0x23 a (fun it m x t =>
    let coast := bit (opv it 4) 0
    let t1 := commitStart it t
    if motorDrives x || x.state = .braking then
      let t2 := motorStopNow m coast t1
      if coast then
        let d := drawWord t2
        let t3 := modMotor m (fun y => { y with pos := if y.posValid then d.1.toInt else y.pos }) d.2
        match t3.motors[m] with
        | some y => complete a .done 0 (posResult y) t3
        | none => t3
      else modMotor m (fun y => { y with item := some a }) t2
    else
      let t2 := motorStopNow m coast t1
      complete a .done 0 (posResult x) t2) s

/-! ### Driving (R238 to R249) -/

/-- The item is at work: driving, or braking between two steps. -/
def motorWorks (x : Motor) : Bool := motorDrives x || (x.state = .braking && x.item.isSome && x.brake ≠ .stopped)

/-- The channel brakes for good and its item fails. -/
def motorEnds (m : Fin 2) (x : Motor) (d : Nat) (lose : Bool) (s : State) : State :=
  let s1 := release (.motor m.val) (motorBrake m .stopped s)
  let s2 := modMotor m (fun y => { y with item := none, posValid := y.posValid && !lose, homed := y.homed && !lose }) s1
  completeOpt x.item .failed d 0 s2

/-- Runs `k` on a channel whose item is at work. -/
def whileWorks (m : Fin 2) (k : Motor → State → State) (s : State) : State :=
  match s.motors[m] with
  | some x => if motorWorks x then k x s else s
  | none => s

def whileDrives (m : Fin 2) (k : Motor → State → State) (s : State) : State :=
  match s.motors[m] with
  | some x => if motorDrives x then k x s else s
  | none => s

/-- All gates low at once. -/
def bridgeOc (m : Fin 2) (s : State) : State :=
  whileDrives m (fun x t =>
    let t1 := release (.motor m.val) (modMotor m (fun y => { y with
      state := .faulted, brake := .none, item := none, posValid := y.posValid && !loses x, homed := y.homed && !loses x }) t)
    raiseLatched (144 + m.val) 3 (completeFree x.item .failed t1)) s

def stall (m : Fin 2) (s : State) : State :=
  whileDrives m (fun x t => raiseLatched (144 + m.val) 2 (motorEnds m x 0x16 (loses x || !motEnc x) t)) s

def supplyLost (m : Fin 2) (s : State) : State :=
  whileDrives m (fun x t =>
    if !motAcc x || s.chg.lift ≠ .off then t else raiseLatched (144 + m.val) 5 (motorEnds m x 0x18 (loses x) t)) s

def moveTmo (m : Fin 2) (s : State) : State :=
  whileWorks m (fun x t => if motTmo x = 0 then t else motorEnds m x 0x1E (loses x) t) s

/-- LIM and ENC of a channel are sensed: in FULL and OUTAGE, and in HUSH while it moves (R18). -/
def motorSensed (s : State) (x : Motor) : Bool :=
  s.den.up && !inReset s && (!inHush s || motorDrives x || x.state = .braking)

/-- `k` illegal encoder transitions: they count, and more than 16 in one item end it (R249). -/
def encoderError (m : Fin 2) (k : Nat) (s : State) : State :=
  match s.motors[m] with
  | none => s
  | some x =>
    if !motEnc x || !motorSensed s x then s
    else
      let s1 := countReg (0x5CC0 + m.val * 0x80 + 0x3C) 15 0 k s
      whileWorks m (fun x t =>
        if 16 < x.badSteps + k then raiseLatched (144 + m.val) 4 (motorEnds m x 0x20 true t)
        else modMotor m (fun y => { y with badSteps := y.badSteps + k }) t) s1

/-- The step in progress brakes, and `e` follows. -/
def brakeTo (m : Fin 2) (e : BrakeEnd) : State → State := motorBrake m e

/-- FAR trips while homing (R244). -/
def farTrip (m : Fin 2) (x : Motor) (s : State) : State :=
  if 1 ≤ x.farTrips then motorEnds m x 0x1C true s
  else modMotor m (fun y => { y with step := .approach, farTrips := 1 }) s

def homingLimit (m : Fin 2) (l : Limit) (active : Bool) (x : Motor) (s : State) : State :=
  match l, active, x.step with
  | .far, true, _ => farTrip m x s
  | .home, false, .release => brakeTo m (.homeStep .approach) s
  | .home, true, .approach => brakeTo m (.homeStep .backoff) s
  | .home, true, .final => brakeTo m .homed s
  | _, _, _ => s

/-- FAR trips while a homing brakes between two drives: it counts, and the next drive goes toward HOME as step 2 (R244). -/
def farBraking (m : Fin 2) (x : Motor) (s : State) : State :=
  if 1 ≤ x.farTrips then motorEnds m x 0x1C true s
  else modMotor m (fun y => { y with farTrips := 1, brake := if y.brake = .homed then .homed else .homeStep .approach }) s

/-- The limit lies in the direction of travel: HOME is the side of falling positions. -/
def ahead_ (l : Limit) (x : Motor) : Bool := match l with
  | .home => x.target < x.pos
  | .far => x.pos < x.target

/-- Counted changes of a limit, at the times `ts`, join those of the last CHAT_WIN (R241). -/
def noteEdges (m : Fin 2) (l : Limit) (ts : List Time) (s : State) : State :=
  modMotor m (fun y => match l with
    | .home => { y with homeEdges := y.recentEdges (now s) (ts ++ y.homeEdges) }
    | .far => { y with farEdges := y.recentEdges (now s) (ts ++ y.farEdges) }) s

/-- More than CHAT_N of the changes `es` lie within one CHAT_WIN. -/
def chatters (x : Motor) (es : List Time) : Bool := es.any (fun t => decide (x.chatN < (x.recentEdges t es).length))

/-- Chatter faults the motor, driving or not. A channel that drives or brakes is FAULTED once its brake has ended, and the
raise does not wait for that (R241; notes/assumptions/92.md). -/
def chatterFaults (m : Fin 2) (l : Limit) (x : Motor) (s : State) : State :=
  let drives := motorDrives x || x.state = .braking
  let s1 := release (.motor m.val) (withdrawDemand (.motor m.val) (countReg (0x5CC0 + m.val * 0x80 + 0x3C) 31 16 1
    (modMotor m (fun y => { y with
      state := if drives then .braking else .faulted, brake := if drives then .faulted else .none, coasted := y.coasted && !drives,
      item := none, posValid := false, homed := false }) s)))
  event 0x0804 (motorHandle s m) m.val (match l with
    | .home => 0
    | .far => 1) 0 (raise (144 + m.val) 1 (completeOpt x.item .failed 0x17 0 s1))

/-- Counted level changes at the times `ts`, and what they amount to: in HUSH they are watched only while the channel drives
(R241, R242). -/
def countedChanges (m : Fin 2) (l : Limit) (ts : List Time) (s : State) : State :=
  match s.motors[m] with
  | none => s
  | some x =>
    if !motorSensed s x || (inHush s && !motorDrives x) then s
    else
      let s1 := noteEdges m l ts s
      match s1.motors[m] with
      | none => s1
      | some y => if !isPresent s (144 + m.val) 1 && chatters y (y.edges l) then chatterFaults m l x s1 else s1

/-- A limit changes its qualified level, with the encoder's counter at `count`, and at `first` when this trip's first counted
change came (R241, R243 to R245). Chatter prevails. -/
def limitQualified (m : Fin 2) (l : Limit) (active : Bool) (count first : Int) (s : State) : State :=
  match s.motors[m] with
  | none => s
  | some x =>
    if !motorSensed s x then s
    else
      let s1 := countedChanges m l [now s - BitVec.ofNat 48 x.qualUs] (modMotor m (fun y => match l with
        | .home => { y with homeActive := active }
        | .far => { y with farActive := active }) s)
      match s1.motors[m] with
      | none => s1
      | some y =>
        if y.state = .homing then
          homingLimit m l active y (if l = .home && active && y.step = .final then modMotor m (fun z => { z with zero := first }) s1 else s1)
        else if y.state = .braking && l = .far && active && loses y then farBraking m y s1
        else if y.state = .moving && active && ahead_ l y then
          motorEnds m y 0x1D false (modMotor m (fun z => { z with pos := count - z.zero }) s1)
        else s1

/-- Counted level changes that do not qualify (R241). -/
def limitChatter (m : Fin 2) (l : Limit) (ages : List Nat) (s : State) : State :=
  countedChanges m l (ages.map (fun a => now s - BitVec.ofNat 48 a)) s

/-- The drive has covered its distance: a move's target, the back-off, or the bound of a homing step
(notes/assumptions/19.md). -/
def targetReached (m : Fin 2) (s : State) : State :=
  whileDrives m (fun x t =>
    if x.state = .moving then brakeTo m .arrived t
    else match x.step with
      | .release => motorEnds m x 0x1A true t
      | .backoff => brakeTo m (.homeStep .final) t
      | _ => motorEnds m x 0x1B true t) s

/-- The channel has stopped, with the encoder's counter at `count`. -/
def brakeEnd (m : Fin 2) (count : Int) (s : State) : State :=
  match s.motors[m] with
  | none => s
  | some x =>
    if x.state ≠ .braking then s
    else
      let pos := count - x.zero
      let y := { x with pos := pos, brake := BrakeEnd.none }
      let rest := fun (z : Motor) => release (.motor m.val) (setMotor m (some { z with state := braked x, item := none }) s)
      match x.brake with
      | .homeStep next => setMotor m (some { y with state := .homing, step := next }) s
      | .homed =>
        let s1 := setReg (0x5CC0 + m.val * 0x80 + 0x40) (timeLo (now s)) (rest { y with posValid := true, homed := true })
        event 0x0803 (motorHandle s m) m.val 0 (BitVec.ofInt 64 pos) (completeOpt x.item .done 0 ((BitVec.ofInt 32 pos).setWidth 64) s1)
      | .arrived =>
        completeOpt x.item .done (if 8 < (pos - x.target).natAbs then 0x10 else 0) ((BitVec.ofInt 32 pos).setWidth 64) (rest y)
      | _ => completeOpt x.item .done 0 (posResult y) (rest y)

/-! ### Commands -/

def execRelaySet (a : Word) (s : State) : Out := .next (relaySet a s)
def execRelayPulseEnd (n : Fin 48) (dip : Option Dip) (peak : Nat) (s : State) : Out := .next (relayPulseEnd n dip peak s)
def execRelayPulseAbort (n : Fin 48) (why : PulseAbort) (peak : Nat) (s : State) : Out := .next (relayPulseAbort n why peak s)
def execRelayRetry (n : Fin 48) (s : State) : Out := .next (relayRetry n s)
def execMotorHome (a : Word) (s : State) : Out := .next (motorHome a s)
def execMotorMove (a : Word) (s : State) : Out := .next (motorMove a s)
def execMotorStop (a : Word) (s : State) : Out := .next (motorStop a s)
def execMotorBridgeOc (m : Fin 2) (s : State) : Out := .next (bridgeOc m s)
def execMotorBrakeEnd (m : Fin 2) (count : Int) (s : State) : Out := .next (brakeEnd m count s)
def execMotorStall (m : Fin 2) (s : State) : Out := .next (stall m s)
def execMotorSupplyLost (m : Fin 2) (s : State) : Out := .next (supplyLost m s)
def execLimitQualified (m : Fin 2) (l : Limit) (active : Bool) (count first : Int) (s : State) : Out :=
  .next (limitQualified m l active count first s)
def execLimitChatter (m : Fin 2) (l : Limit) (ages : List Nat) (s : State) : Out := .next (limitChatter m l ages s)
def execMotorTargetReached (m : Fin 2) (s : State) : Out := .next (targetReached m s)
def execMoveTmo (m : Fin 2) (s : State) : Out := .next (moveTmo m s)
def execEncoderError (m : Fin 2) (count : Nat) (s : State) : Out := .next (encoderError m count s)

end Sys2Proof.Machine
end

