-- ==== Sys2Proof/Machine/Fans.lean ====
section
/-! DEFINITION. The fans (13): FAN_SET, the update every 10 ms, tach loss and faults (R250 to R257). -/

namespace Sys2Proof.Machine

/-! ### Parameters (R251) -/

def fanOf (w : Nat → Word) : Fan :=
  { p := Vector.ofFn (fun i => w (5 + i.val)), state := .off, speed := false, target := 0, run := 0, runSpeed := false, out := 0, demand := 0,
    rpm := 0, fanpv := 0, ramping := false, bandMoved := false, leashHit := false, dropout := false, tachOk := false,
    tachLost := false, held := false, settled := 0, item := none, bud := .none }

def enabledBands (x : Fan) : List (Nat × Word) :=
  ((List.range 4).map (fun b => (b, fanBand x b))).filter (fun e => bandOn e.2)

def bandBad (w : Word) : Bool := bandHi w ≤ bandLo w || bandHi w - bandLo w < 100
def overlap (a b : Word) : Bool := bandLo a < bandHi b && bandLo b < bandHi a

/-- The checks of R251: bands count while they are enabled. -/
def fanFaultOf (x : Fan) : Option Refuse :=
  let w6 := nth x.p 1 0
  let bs := enabledBands x
  if !inOr0 (fld w6 9 0) 5 500 || !inOr0 (fld w6 29 16) 2500 13000 || !(100 ≤ fanRpmFull x && fanRpmFull x ≤ 20000) ||
     bs.any (fun e => bandBad e.2) || bs.any (fun e => bs.any (fun g => decide (e.1 < g.1) && overlap e.2 g.2)) then
    some (.refusedFormat, 0x07)
  else if bs.any (fun e => inBand (fanBlindMv x) e.2) then some (.refusedFormat, 0x10)
  else none

/-! ### FAN_SET (R257) -/

/-- R250. -/
def fanTargetOk (speed : Bool) (t : Nat) : Bool :=
  t = 0 || (if speed then 100 ≤ t && t ≤ 20000 else 2500 ≤ t && t ≤ 13000)

/-- The fan as FAN_SET asks for it: words 6 to 12 as in creation, CLAIM_FULL and TIER unchanged. -/
def fanWith (it : Item) (x : Fan) : Fan :=
  let y := if bit (opv it 4) 8 then { x with p := (Vector.ofFn (fun i => if i.val = 0 then nth x.p 0 0 else opv it (5 + i.val)) : Vector Word 8) } else x
  { y with speed := bit (opv it 4) 0, target := (opv it 5).toNat }

/-- The fan takes what the item asks for. -/
def fanTakes (it : Item) (x : Fan) : Fan :=
  { fanWith it x with item := some it.aseq, settled := 0 }

/-- TACH_LOST stands, or the fan is at BLIND: FAN_SET stores its target (R257). -/
def blindHeld (x : Fan) : Bool := x.state = .blind || x.tachLost

/-- The claim at BLIND, rounded up. -/
def blindClaim (x : Fan) : Nat := (fanClaimFull x * fanBlindMv x + 12999) / 13000

/-- The budget has served the item: the fan goes to its target, or stores it while TACH_LOST holds it. -/
def fanServed (a : Word) (f : Fin 4) (s : State) : State :=
  match findItem s a, s.fans[f] with
  | some it, some x =>
    if x.state = .faulted then complete a .refusedState 0x17 0 (release (.fan f.val) s)
    else if blindHeld x then
      let s1 := setFan f (some { fanWith it x with item := none }) (commitStart it s)
      complete a .done 0x11 (fanResult x) (if x.state = .blind then forceGrant (.fan f.val) (fanTier x) (blindClaim x) s1 else s1)
    else
      let y := fanTakes it x
      let s1 := setFan f (some y) (commitStart it (modItem a (fun i => { i with phase := .working }) s))
      let tgt := fanTarget s1 f y
      if tgt = 0 then fanOff f s1
      else fanStart f tgt (lowerGrant (.fan f.val) (fanTier y) (fanClaim s1 f y tgt) s1)
  | _, _ => s

def fanSet (a : Word) (s : State) : State :=
  beginWork 0x28 a (fun it t => match fin? 4 (hSlot it.handle) with
    | none => t
    | some f => match t.fans[f] with
      | none => t
      | some x =>
        let y := fanTakes it x
        if held t (146 + f.val) then complete a .refusedState 0x18 0 t
        else match (if bit (opv it 4) 8 then fanFaultOf y else none) with
          | some e => complete a e.1 e.2 0 t
          | none =>
            if !fanTargetOk y.speed (opv it 5).toNat then complete a .refusedLeash 0 0 t
            else if y.speed && !fanTach y then complete a .refusedState 0x10 0 t
            else if x.state = .faulted then complete a .refusedState 0x17 0 t
            else if blindHeld x then complete a .done 0x11 (fanResult x) (setFan f (some { fanWith it x with item := none }) t)
            else
              let mw := fanClaim t f y (fanTarget t f y)
              if fanTarget t f y = 0 || (mw ≤ grantMw t (.fan f.val) && !fanIsShed t y) then fanServed a f t
              else itemAsks a (fanReq t f y (.item a) a mw) (fanServed a f) t) s

/-! ### The update (R252 to R254) -/

/-- SPEED mode's demand goes toward the target; by how much is open. -/
def stepDemand (f : Fin 4) (x : Fan) (s : State) : State :=
  if !x.runSpeed || x.held || x.rpm = x.run then s
  else
    let d := drawNat s
    let v := if x.rpm < x.run then x.demand + d.1 else x.demand - d.1
    modFan f (fun y => { y with demand := clampN 2500 13000 v }) d.2

/-- Where the output of SPEED mode stands to a band that holds the demand: its present edge, until the demand has passed
the midpoint by 100 mV; the upper edge where a floor decides. -/
def edgeOf (floor : Bool) (x : Fan) (w : Word) : Nat :=
  let mid2 := bandLo w + bandHi w
  bandEdge x.demand w (floor || (
    if 10 * bandHi w ≤ x.out then !decide (2 * x.demand + 200 < mid2)
    else if x.out ≤ 10 * bandLo w then decide (mid2 + 200 < 2 * x.demand)
    else decide (10 * mid2 ≤ 2 * x.out)))

/-- The voltage that mode and target ask for, and whether the band rule moves it. -/
def fanAsks (s : State) (f : Fin 4) (x : Fan) : Nat × Bool :=
  if x.state = .blind then (fanBlindMv x, false)
  else if x.held then (x.out / 10, false)
  else if !x.runSpeed then bandTarget s f x x.run
  else match bandOf s f x x.demand with
    | some w => (edgeOf (floorDecides s f x) x w, true)
    | none => (x.demand, false)

/-- The voltage the output makes for, in 0.1 mV: at most FANPV less 0.5 V, and where that lies in a band its lower edge
(R250, R254; notes/assumptions/94.md). -/
def fanGoal (s : State) (f : Fin 4) (x : Fan) : Nat :=
  let v := (fanAsks s f x).1
  let top := fanTop x
  10 * (if v ≤ top then v else match bandOf s f x top with
    | some w => if 2500 ≤ bandLo w then bandLo w else top
    | none => top)

/-- One step of the ramp, in 0.1 mV, and whether it jumps a band. -/
def rampStep (s : State) (f : Fin 4) (x : Fan) (goal : Nat) : Nat × Bool :=
  let bands := (bandsThat s f x true).map (fun e => (10 * bandLo e.2, 10 * bandHi e.2))
  if x.out < goal then
    match bands.find? (fun b => decide (b.1 = x.out) && decide (b.2 ≤ goal)) with
    | some b => (b.2, true)
    | none =>
      let next := min goal (x.out + fanRamp x)
      match bands.find? (fun b => x.out < b.1 && b.1 < next) with
      | some b => (b.1, false)
      | none => (next, false)
  else if goal < x.out then
    match bands.find? (fun b => decide (b.2 = x.out) && decide (goal ≤ b.1)) with
    | some b => (b.1, true)
    | none =>
      let next := max goal (x.out - fanRamp x)
      match bands.find? (fun b => b.2 < x.out && next < b.2) with
      | some b => (b.2, false)
      | none => (next, false)
  else (goal, false)

/-- Within ±5 % of the target, or the demand held at a band's edge. -/
def fanSettles (x : Fan) (moved : Bool) : Bool :=
  moved || 20 * ((x.rpm : Int) - x.run).natAbs ≤ x.run

def fanMoves (x : Fan) : Bool := x.state = .spinup || x.state = .run || x.state = .blind

/-- The output has come to rest: FAN_BLIND on arrival, or the end of a VOLTAGE item. -/
def fanArrives (f : Fin 4) (x : Fan) (s : State) : State :=
  if x.state = .blind then (if x.ramping then event 0x0903 (fanHandle s f) f.val 0 0 s else s)
  else if x.runSpeed then s else fanItemDone f 0 s

/-- Tach pulses per revolution. -/
def fanPulses (x : Fan) : Nat := fld (nth x.p 2 0) 1 0 + 1

/-- Speed from the time between tach edges in µs (R253). -/
def rpmOf (x : Fan) (us : Nat) : Nat := 60000000 / (max 1 us * fanPulses x)

/-- The time between tach edges that R255 expects, in µs. -/
def expectedTach (x : Fan) : Nat := 60000000 / (fanPulses x * max 100 (if x.runSpeed then min x.run x.rpm else x.rpm))

/-- Every 10 ms. -/
def fanUpdate (f : Fin 4) (rd : FanReading) (s : State) : State :=
  let s1 := modFan f (fun x => match rd.tach with
    | some us => if fanTach x then { x with fanpv := rd.fanpv, rpm := rpmOf x us, tachOk := !x.tachLost } else { x with fanpv := rd.fanpv }
    | none => { x with fanpv := rd.fanpv }) s
  match s1.fans[f] with
  | none => s1
  | some x0 =>
    if !fanMoves x0 then s1
    else
      let s2 := fanLeash f (if x0.state = .blind then s1 else stepDemand f x0 s1)
      match s2.fans[f] with
      | none => s2
      | some y =>
        -- the output never exceeds what FANPV allows (R250)
        let x := { y with out := min y.out (10 * fanTop y) }
        let g := fanAsks s2 f x
        let goal := fanGoal s2 f x
        let r := rampStep s2 f x goal
        let n := if x.runSpeed && x.state ≠ .blind && fanSettles x g.2 then x.settled + 1 else 0
        let s3 := modFan f (fun z => { z with out := r.1, ramping := decide (r.1 ≠ goal), bandMoved := g.2, dropout := fanTop x < g.1, settled := n }) s2
        let s4 := if r.2 then countReg (0x6040 + f.val * 0x70 + 0x3C) 31 16 1 s3 else s3
        let s5 := if r.1 = goal then fanArrives f x s4 else s4
        -- 100 updates after the first that found it settled, 1 s has passed
        if 100 < n && x.item.isSome then fanItemDone f 0 s5 else s5

/-! ### Tach loss and faults (R255, R256) -/

/-- No edge for `silent` µs, which is four expected periods. SPEED mode holds its output, unless it is at BLIND already;
VOLTAGE mode takes no action. A loss after the cause has ended is a new one. -/
def tachLoss (f : Fin 4) (silent : Nat) (s : State) : State :=
  match s.fans[f] with
  | none => s
  | some x =>
    if !fanTach x || (x.state ≠ .run && x.state ≠ .blind) || silent < 4 * expectedTach x ||
       (isPresent s (146 + f.val) 1 && (x.held || !x.runSpeed)) then s
    else
      let o := 0x6040 + f.val * 0x70
      let s1 := setReg (o + 0x40) (timeLo (now s)) (countReg (o + 0x3C) 15 0 1 (modFan f (fun y => { y with
        tachLost := true, tachOk := false, held := y.held || y.runSpeed, ramping := y.ramping && !(y.runSpeed && y.state = .run), settled := 0 }) s))
      let s2 := raiseOnce (146 + f.val) 1 s1
      if x.runSpeed then event 0x0901 (fanHandle s f) f.val 0 0 s2 else s2

/-- HOLD_T later: BLIND, and its claim at once. -/
def fanBlind (f : Fin 4) (s : State) : State :=
  match s.fans[f] with
  | none => s
  | some x =>
    if !x.held || x.state ≠ .run then s
    else
      arbitrate (forceGrant (.fan f.val) (fanTier x) (blindClaim x)
        (modFan f (fun y => { y with state := .blind, ramping := true, bandMoved := false }) (withdrawFan f s)))

/-- A reading of the fan's output in mV, to the nearest, through its trim (R296). -/
def fanSeen (s : State) (f : Fin 4) (mv : Nat) : Int := trimNear s (149 + f.val) 1 1 mv

/-- Edges for 1 s: the cause ends. -/
def tachBack (f : Fin 4) (s : State) : State :=
  if !isPresent s (146 + f.val) 1 then s
  else event 0x0902 (fanHandle s f) f.val 0 0 (endCause (146 + f.val) 1 (modFan f (fun y => { y with tachOk := true }) s))

def fanFault (f : Fin 4) (c : FanCause) (s : State) : State :=
  match s.fans[f] with
  | none => s
  | some x => match c with
    | .short mv => if fanMoves x && decide (20 * fanSeen s f mv < x.out) then raiseLatched (146 + f.val) 2 (fanFails f s) else s
    | .ov mv => if x.out + 10000 < 10 * fanSeen s f mv then raiseOnce (146 + f.val) 3 (if x.state = .faulted then s else fanFails f s) else s

def fanSpinupEnd (f : Fin 4) (s : State) : State :=
  modFan f (fun x => if x.state = .spinup then { x with state := .run } else x) s

/-- SPEED mode has not settled in the 30 s since the item began work. -/
def fanNotSettled (f : Fin 4) (s : State) : State :=
  match s.fans[f] with
  | some x =>
    if x.runSpeed && itemAt s (x.item.getD 0) (fun i => x.item.isSome && i.phase = .working && 30000000 ≤ sinceT (now s) i.began) then
      fanItemDone f 0x12 s
    else s
  | none => s

/-! ### Commands -/

def execFanSet (a : Word) (s : State) : Out := .next (fanSet a s)
def execFanUpdate (f : Fin 4) (rd : FanReading) (s : State) : Out := .next (fanUpdate f rd s)
def execFanTachLost (f : Fin 4) (silent : Nat) (s : State) : Out := .next (tachLoss f silent s)
def execFanBlind (f : Fin 4) (s : State) : Out := .next (fanBlind f s)
def execFanTachBack (f : Fin 4) (s : State) : Out := .next (tachBack f s)
def execFanFault (f : Fin 4) (c : FanCause) (s : State) : Out := .next (fanFault f c s)
def execFanSpinupEnd (f : Fin 4) (s : State) : Out := .next (fanSpinupEnd f s)
def execFanNotSettled (f : Fin 4) (s : State) : Out := .next (fanNotSettled f s)

end Sys2Proof.Machine
end

