-- ==== Sys2Proof/Machine/Adc.lean ====
section
/-! DEFINITION. The measurement subsystem (14): sequences, passes, autorange, cuts and delivery (R259 to R273). -/

namespace Sys2Proof.Machine

/-! ### Entries (R260) -/

def entInput (w : Word) : Nat := fld w 7 0
def entGain (w : Word) : Fin 4 := ⟨fld w 9 8 % 4, by omega⟩
def entAuto (w : Word) : Bool := bit w 10
def ent12 (w : Word) : Bool := bit w 11
def entFormat (w : Word) : Nat := fld w 13 12
def entNoStream (w : Word) : Bool := bit w 14

/-- An entry that SEQ_TABLE refuses. -/
def entryBad (w : Word) : Bool :=
  159 < entInput w || (entFormat w = 2) != bipolar (entInput w) || entFormat w = 3 ||
  ((entInput w = 152 || entInput w = 153) && (entGain w ≠ 0 || entAuto w)) || decide (fld w 31 15 ≠ 0)

def freshEntry (w : Word) : AdcEntry := { word := w, gain := entGain w, small := 0, hold := none, rstep := false, edge := none }

/-- A trigger or a cut field outside its range; `n` entries. -/
def seqOperand (w8 w9 w10 : Word) (n : Nat) : Bool :=
  (match seqTrig w8 with
   | 0 => !(2 ≤ fld w9 19 0 && fld w9 19 0 ≤ 1000000)
   | 1 => 48 ≤ fld w9 5 0
   | 2 => 80 ≤ fld w9 6 0 || fld w9 9 8 = 0
   | _ => false) ||
  (bit w10 15 && (80 ≤ fld w10 6 0 || fld w10 9 8 = 0 || n ≤ fld w10 20 16))

def seqOf (w8 w9 w10 : Word) (table : List Word) : Seq :=
  { w8 := w8, w9 := w9, w10 := w10, entries := table.map freshEntry, running := false, inPass := false, waiting := false,
    stopWhy := 0, entry := 0, passes := 0, limit := 0, records := 0, dropped := 0, item := none, stopItem := none,
    gainEdge := false, at_ := 0, laneEdges := 0, due := 0 }

def shielded (x : Seq) : Bool := bit x.w8 1
def entryAt (x : Seq) (i : Nat) : AdcEntry := x.entries.getD i (freshEntry 0)
def setEntry (i : Nat) (e : AdcEntry) (x : Seq) : Seq :=
  let l := x.entries.set i e
  { x with entries := l, gainEdge := l.any (·.edge.isSome) }

def seqReg (q : Fin 8) (r : Nat) : Nat := 0x6440 + q.val * 0x20 + r

/-! ### Delivery (R269 to R272) -/

def modStream (k : Fin 4) (f : Stream → Stream) (s : State) : State :=
  { s with adc := { s.adc with streams := upd s.adc.streams k f } }

def modOutSt (k : Fin 4) (f : OutRing → OutRing) (s : State) : State :=
  modLink (fun l => { l with sts := upd l.sts k f }) s

/-- Writes pending records while the ring has room. -/
def writeStream (fuel : Nat) (k : Fin 4) (s : State) : State :=
  match fuel with
  | 0 => s
  | n + 1 =>
    match (s.adc.streams[k]).pend with
    | [] => s
    | r :: rest =>
      if ringRoom s (stOn s k.val) (stSize s k.val) s.link.sts[k] then
        writeStream n k (memWords (entryAddr s (0x0660 + 8 * k.val) s.link.sts[k].prod (stSize s k.val) 4) [r.1]
          (modOutSt k (fun o => { o with prod := o.prod + 1 }) (modStream k (fun x => { x with pend := rest }) s)))
      else s

/-- Vector 22, no more often than once per IRQ_GAP. -/
def streamVector (s : State) : State :=
  if s.adc.irqGap then { s with adc := { s.adc with irqDue := true } }
  else sendVector 22 { s with adc := { s.adc with irqGap := decide (rfld s 0x6404 31 24 ≠ 0), irqDue := false } }

/-- The pending records, then the producer index, then the vector; a ring that receives a record after an overrun says how
many were dropped (R272). -/
def streamWrite (k : Fin 4) (s : State) : State :=
  let before := s.link.sts[k].prod
  let s1 := writeStream 256 k s
  let after := s1.link.sts[k].prod
  if after = before then s
  else
    let s2 := streamVector (shadowWrite (0x210 + 8 * k.val) (after.setWidth 64) s1)
    if (s2.adc.streams[k]).overrun then
      event 0x0A02 0 k.val 0 (BitVec.ofNat 64 (s2.adc.streams[k]).episode)
        (modStream k (fun x => { x with overrun := false, episode := 0 }) s2)
    else s2

/-- 64 records are pending for the ring, or the oldest of them is ST_FLUSH old (R270). -/
def flushDue (k : Fin 4) (s : State) : Bool := match (s.adc.streams[k]).pend with
  | [] => false
  | r :: rest => 64 ≤ rest.length + 1 || decide (orElse0 (rfld s 0x6404 23 16) 1 * 10 ≤ sinceT (now s) r.2)

/-- A flush that is due. -/
def streamFlush (k : Fin 4) (s : State) : State := if flushDue k s then streamWrite k s else s

/-- A record goes to its ring's share of the buffer, or is dropped; true where it is dropped. The 64th is written at once. -/
def pushStream (k : Fin 4) (r : Word) (s : State) : State × Bool :=
  if 256 ≤ (s.adc.streams[k]).pend.length then
    (countReg (0x6410 + 4 * k.val) 23 0 1 (modStream k (fun x => { x with overrun := true, episode := x.episode + 1 }) s), true)
  else
    let s0 := if dmaOk s then s else pendVector 22 s -- R83
    let s1 := modStream k (fun x => { x with pend := x.pend ++ [(r, now s)] }) s0
    let s2 := { s1 with adc := { s1.adc with highest := max s1.adc.highest (streamCount s1) } }
    (if 64 ≤ (s2.adc.streams[k]).pend.length then streamWrite k s2 else s2, false)

/-- IRQ_GAP has passed. -/
def irqGapEnd (s : State) : State :=
  let s1 := { s with adc := { s.adc with irqGap := false } }
  if s.adc.irqDue then streamVector s1 else s1

/-! ### One conversion (R261, R266) -/

/-- The integer nearest below or above a fraction, which of them is open where it is none (notes/assumptions/18.md). -/
def openInt (x : Int × Nat) (s : State) : Int × State :=
  if x.1 % x.2 = 0 then (x.1 / x.2, s) else let d := drawNat s; (x.1 / x.2 + (d.1 % 2 : Nat), d.2)

def gainTimes (g : Fin 4) : Nat := match g with
  | 0 => 1
  | 1 => 2
  | 2 => 8
  | 3 => 32

/-- The mean raw temperature of the GOOD die sensors, in 10⁻⁹ °C: input 153 (R290). -/
def dieMean (s : State) : Option (Int × Nat) :=
  let l := (s.thm.sensors.toList.take 24).filter (fun x => !x.suspect && !x.failed && !x.unknown)
  if l.isEmpty then none else some (l.foldl (fun a x => a + x.raw) 0 * 100000000, l.length)

/-- The trim words of converter `c` with its PGA at `g`: PGA and core, whose OFF steps are ¼ LSB, and reference. -/
def convChain (c : Fin 2) (g : Fin 4) : List (Nat × Int) := [(48 + 4 * c.val + g.val, 1), (56 + c.val, 1), (59 + c.val, 0)]

/-- The code that converter `c` gives for entry `w` at gain `g`: input × G / LSB, in the 12-bit LSB of 16 steps where the
entry asks for one (R259), through the trims in force (R296). With no GOOD die sensor input 153 is a free value. -/
def convCode (c : Fin 2) (w : Word) (g : Fin 4) (nano : Int) (s : State) : Int × State :=
  let i := entInput w
  match if i = 153 then dieMean s else some (nano, 1) with
  | none => let d := drawNat s; (signed 16 d.1, d.2)
  | some x =>
    let y := frontEnd s i x
    let z := trimChain s (convChain c g) (y.1 * (4 * gainTimes g : Nat), y.2 * lsbNano i)
    openInt (z.1, z.2 * (if ent12 w then 64 else 4)) s

/-- Full scale of a code, in codes: unipolar above zero, bipolar either side. -/
def codeTop (w : Word) : Int :=
  if bipolar (entInput w) then (if ent12 w then 2047 else 32767) else (if ent12 w then 4095 else 65535)
def codeLow (w : Word) : Int := if bipolar (entInput w) then -(codeTop w) - 1 else 0

/-- The input exceeds full scale; a unipolar input below zero does not. -/
def isOver (w : Word) (code : Int) : Bool := codeTop w < code || (bipolar (entInput w) && code < codeLow w)

/-- Below 20 % of full scale. -/
def isSmall (w : Word) (code : Int) : Bool := 5 * code.natAbs < (codeTop w + 1).toNat

def valueOf (w : Word) (code : Int) : Nat :=
  let c := clampI (codeLow w) (codeTop w) code
  if entFormat w = 1 && ent12 w then unsigned 16 (16 * c) else unsigned 16 c

def recordOf (q : Fin 8) (i : Nat) (conv : Fin 2) (e : AdcEntry) (cut : Bool) (code : Int) : Word :=
  at_ 0 (valueOf e.word code) ||| at_ 16 i ||| at_ 21 q.val ||| at_ 24 conv.val ||| flag 25 (isOver e.word code) |||
  flag 26 e.rstep ||| flag 27 cut ||| at_ 28 (entFormat e.word) ||| at_ 30 e.gain.val

/-- Gains the leash allows on a converter. -/
def gainAllowed (s : State) (c : Fin 2) (g : Nat) : Bool := rbit s 0x9608 (8 * c.val + g)

def gainBelow (s : State) (c : Fin 2) (g : Fin 4) : Option (Fin 4) :=
  ((fins 4).filter (fun h => h < g && gainAllowed s c h.val)).getLast?
def gainAbove (s : State) (c : Fin 2) (g : Fin 4) : Option (Fin 4) :=
  ((fins 4).filter (fun h => g < h && gainAllowed s c h.val)).head?

def adcHold (s : State) : Nat := orElse0 (rfld s 0x6404 7 0) 1 * 100

/-- What a sample does to its entry; true where it arrives at the leash's edge. It leaves the lower edge with a sample within
full scale, the upper one with a sample that is not small or exceeds full scale (step 5 once for each arrival; R365). -/
def autorange (s : State) (c : Fin 2) (cut : Bool) (code : Int) (e : AdcEntry) : AdcEntry × Bool :=
  let e1 := { e with rstep := false,
                     hold := if e.rstep && e.hold.isSome then some (now s + BitVec.ofNat 48 (adcHold s)) else e.hold }
  if !entAuto e.word then (e1, false)
  else if isOver e.word code then
    match gainBelow s c e.gain with
    | some g => ({ e1 with gain := g, rstep := true, small := 0, hold := some (now s), edge := none }, false)
    | none => ({ e1 with small := 0, edge := if e.gain = 0 then none else some false },
        decide (e.gain ≠ 0) && decide (e.edge ≠ some false))
  else
    let e2 := { e1 with edge := if e1.edge = some false then none else e1.edge }
    let waits := match e1.hold with
      | some t => laterT t (now s)
      | none => false
    if cut then (e2, false)
    else if !isSmall e.word code then ({ e2 with small := 0, edge := none }, false)
    else if waits then (e2, false)
    else if e1.small + 1 < 8 then ({ e2 with small := e1.small + 1 }, false)
    else match gainAbove s c e.gain with
      | some g => ({ e2 with gain := g, rstep := true, small := 0, hold := none, edge := none }, false)
      | none => ({ e2 with small := 7, edge := if e.gain = 3 then none else some true },
          decide (e.gain ≠ 3) && decide (e2.edge ≠ some true))

/-- A sample of entry `i` of sequence `q` is delivered and steps the gain; its record. -/
def sample (c : Fin 2) (q : Fin 8) (i : Nat) (cut : Bool) (code : Int) (s : State) : Word × State :=
  match s.adc.seqs[q] with
  | none => (0, s)
  | some x =>
    let e := entryAt x i
    let r := recordOf q i c e cut code
    let a := autorange s c cut code e
    let s1 := setReg (0x6740 + 4 * entInput e.word) r (countReg (0x69C0 + c.val * 0x20 + 4) 31 0 1 s)
    let p := match bit x.w8 6 && !entNoStream e.word, fin? 4 (fld x.w8 5 4) with
      | true, some k => pushStream k r s1
      | _, _ => (s1, false)
    let s2 := modSeq q (fun y => setEntry i a.1 { y with
      records := if cut then y.records else y.records + 1, dropped := if !cut && p.2 then y.dropped + 1 else y.dropped }) p.1
    (r, if a.2 then leashEdge 1 (handleOf s 5 q.val) (i + 256 * c.val) (BitVec.ofNat 64 e.gain.val) s2 else s2)

/-! ### Passes (R262 to R265) -/

/-- The trim words of converter `c`. -/
def convWord (c : Fin 2) (i : Nat) : Bool := (48 + 4 * c.val ≤ i && i < 52 + 4 * c.val) || i = 56 + c.val || i = 59 + c.val

/-- CAL_RUN holds the converter: the word in hand is one of its own (R304). -/
def calHolds (s : State) (c : Fin 2) : Bool := match s.cal.run with
  | some j => (match j.todo with
    | i :: _ => convWord c i
    | [] => false)
  | none => false

/-- Between two conversions the converter's trims change (R299). -/
def convSafe (c : Fin 2) (s : State) : State :=
  { s with cal := { s.cal with holds := s.cal.holds.filter (fun h => !convWord c h.index) } }

/-- A pass begins on its converter. -/
def beginPass (q : Fin 8) (c : Fin 2) (s : State) : State :=
  setReg (seqReg q 0x1C) (timeLo (now s)) (modConv c (fun v => { v with pass := some q })
    (modSeq q (fun x => { x with inPass := true, waiting := false, entry := 0 }) (convSafe c s)))

/-- An idle converter takes the lowest-numbered waiting pass. -/
def nextPass (c : Fin 2) (s : State) : State :=
  if converting s c || calHolds s c then s
  else match (fins 8).find? (fun q => match s.adc.seqs[q] with
      | some x => x.waiting && seqConv x = c
      | none => false) with
    | some q => beginPass q c s
    | none => s

/-- A cut has ended, or the converter is free for one: the oldest in its queue runs. -/
def nextCut (c : Fin 2) (s : State) : State :=
  if calHolds s c || s.adc.convs[c].cut.isSome then s
  else modConv c (fun v => { v with cut := v.queue.head?, queue := v.queue.drop 1 }) (convSafe c s)

/-- Work that has waited for the converter: cuts before passes (R267). -/
def nextWork (c : Fin 2) (s : State) : State := nextPass c (nextCut c s)

/-- A pass is asked for. -/
def askPass (q : Fin 8) (s : State) : State :=
  match s.adc.seqs[q] with
  | none => s
  | some x => nextPass (seqConv x) (modSeq q (fun y => { y with waiting := true }) s)

/-- Whether the sequence's own source gives it a trigger now, and its books after that (R263): its period has passed since
the start or the last one; its lane switches and this edge of it is the DIV-th; an edge of its comparator is on its way. -/
def takeTrigger (s : State) (x : Seq) : Bool × Seq :=
  match seqTrig x.w8 with
  | 0 => if laterT x.at_ (now s) then (false, x) else (true, { x with at_ := x.at_ + BitVec.ofNat 48 (fld x.w9 19 0) })
  | 1 =>
    if !laneRun (nth s.lanes (fld x.w9 5 0) Lane.reset) then (false, x)
    else if x.laneEdges + 1 < orElse0 (fld x.w9 23 16) 1 then (false, { x with laneEdges := x.laneEdges + 1 })
    else (true, { x with laneEdges := 0 })
  | 2 => if x.due = 0 then (false, x) else (true, { x with due := x.due - 1 })
  | _ => (false, x)

/-- A trigger arrives. -/
def adcTrigger (q : Fin 8) (s : State) : State :=
  match s.adc.seqs[q] with
  | none => s
  | some x =>
    if !x.running then s
    else
      let t := takeTrigger s x
      let s1 := modSeq q (fun _ => t.2) s
      if !t.1 then s1
      else if x.inPass || x.waiting then countReg (seqReg q 0x18) 31 16 1 s1
      else askPass q s1

/-- The last entry of a pass has been converted. -/
def passEnds (q : Fin 8) (c : Fin 2) (s : State) : State :=
  let s1 := modConv c (fun v => { v with pass := none })
    (modSeq q (fun x => { x with inPass := false, entry := 0, passes := x.passes + 1 }) s)
  match s1.adc.seqs[q] with
  | none => s1
  | some x =>
    let s2 := if x.stopWhy ≠ 0 then seqStopNow q x.stopWhy s1
      else if x.limit ≠ 0 && x.limit ≤ x.passes then seqStopNow q 2 s1
      else if seqTrig x.w8 = 3 then modSeq q (fun y => { y with waiting := true }) s1 else s1
    nextPass c s2

/-- Entry `i` of the sequence has been converted with the input at `nano`; the record. -/
def converted (c : Fin 2) (q : Fin 8) (x : Seq) (i : Nat) (cut : Bool) (nano : Int) (s : State) : Word × State :=
  let e := entryAt x i
  let v := convCode c e.word e.gain nano s
  sample c q i cut v.1 (convSafe c v.2)

/-- A conversion ends on converter `c`; a cut goes before the pass it interrupted. -/
def conversionDone (c : Fin 2) (nano : Int) (s : State) : State :=
  let v := s.adc.convs[c]
  match v.cut with
  | some k =>
    match s.adc.seqs[k.seq] with
    | none => nextWork c (modConv c (fun w => { w with cut := none }) s)
    | some x =>
      let r := converted c k.seq x k.entry true nano s
      let s1 := setReg (0x69C0 + c.val * 0x20 + 0xC) r.1 (modConv c (fun w => { w with cut := none }) r.2)
      nextWork c (completeOpt k.item .done 0 (r.1.setWidth 64) s1)
  | none =>
    match v.pass with
    | none => s
    | some q =>
      match s.adc.seqs[q] with
      | none => s
      | some x =>
        let r := converted c q x x.entry false nano s
        if x.entry + 1 < x.entries.length then modSeq q (fun y => { y with entry := y.entry + 1 }) r.2 else passEnds q c r.2

/-! ### Cuts (R267, R268) -/

/-- The SHIELDED sequence whose pass runs on the converter. -/
def cutShield (s : State) (c : Fin 2) : Option (Fin 8) :=
  s.adc.convs[c].pass.filter (fun q => match s.adc.seqs[q] with
    | some x => shielded x
    | none => false)

/-- A cut that reaches the converter now joins its queue, behind another cut or CAL_RUN (R267, R304). -/
def cutQueues (s : State) (c : Fin 2) : Bool := s.adc.convs[c].cut.isSome || calHolds s c

/-- A cut that reaches the converter now is dropped. -/
def cutDrops (s : State) (c : Fin 2) : Bool :=
  if cutQueues s c then 4 ≤ s.adc.convs[c].queue.length else (cutShield s c).isSome

/-- A cut reaches its converter. -/
def cutArrives (c : Fin 2) (k : Cut) (s : State) : State :=
  if cutQueues s c then
    if cutDrops s c then completeOpt k.item .refusedState 0x11 0 (countReg (0x69C0 + c.val * 0x20 + 8) 15 0 1 s)
    else modConv c (fun w => { w with queue := w.queue ++ [k] }) s
  else match cutShield s c with
    | some q => completeOpt k.item .refusedState 0x10 (BitVec.ofNat 64 q.val) (countReg (seqReg q 0x18) 15 0 1 s)
    | none => modConv c (fun w => { w with cut := some k }) (convSafe c s)

/-- The oldest comparator edge on its way reaches the converter: a cut for each sequence that asks for one. -/
def adcCut (c : Fin 2) (s : State) : State :=
  match s.adc.convs[c].edges with
  | [] => s
  | e :: rest =>
    (fins 8).foldl (fun t q => match t.adc.seqs[q] with
      | some x => if cutAsks x c e then cutArrives c { seq := q, entry := fld x.w10 20 16, item := none } t else t
      | none => t) (modConv c (fun v => { v with edges := rest }) s)

/-! ### Items -/

def onSeq (op : Nat) (a : Word) (k : Item → Fin 8 → Seq → State → State) (s : State) : State :=
  beginWork op a (fun it t => match fin? 8 (hSlot it.handle) with
    | some q => (match t.adc.seqs[q] with
      | some x => k it q x t
      | none => t)
    | none => t) s

/-- ADC_SEQ_START (R264). -/
def adcSeqStart (a : Word) (s : State) : State :=
  onSeq 0x30 a (fun it q x t =>
    if x.running then complete a .done 0x10 0 t
    else
      let desc := seqTrig x.w8 = 3
      let n := orElse0 (fld (opv it 4) 15 0) (fld x.w8 31 16)
      let t1 := modSeq q (fun y => { y with
        entries := y.entries.map (fun e => freshEntry e.word), gainEdge := false, running := true, stopWhy := 0, passes := 0,
        records := 0, dropped := 0, entry := 0, limit := if desc then orElse0 n 1 else n, item := if desc then some a else none,
        at_ := now t + BitVec.ofNat 48 (fld x.w9 19 0), laneEdges := 0, due := 0 }) (commitStart it t)
      if desc then askPass q t1 else complete a .done 0 0 t1) s

/-- ADC_SEQ_STOP (R265). -/
def adcSeqStop (a : Word) (s : State) : State :=
  onSeq 0x31 a (fun it q x t =>
    if !x.running then complete a .done 0x10 0 t
    else seqStop q 1 (modSeq q (fun y => { y with stopItem := some a }) (commitStart it t))) s

/-- ADC_URGENT (R268). -/
def adcUrgent (a : Word) (s : State) : State :=
  onSeq 0x32 a (fun it q x t =>
    let i := fld (opv it 4) 4 0
    if x.entries.length ≤ i then refuseOperand a t
    else cutArrives (seqConv x) { seq := q, entry := i, item := some a } (if cutDrops t (seqConv x) then t else commitStart it t)) s

/-- The leash has narrowed: an entry whose gain has just left the allowed set takes the nearest allowed gain below, or
the lowest (R368). -/
def regain (s0 s : State) : State :=
  (fins 8).foldl (fun t q => modSeq q (fun x =>
    let c := seqConv x
    { x with entries := x.entries.map (fun e =>
        if entAuto e.word && gainAllowed s0 c e.gain.val && !gainAllowed s c e.gain.val then
          { e with gain := (gainBelow s c e.gain).getD (((fins 4).find? (fun g => gainAllowed s c g.val)).getD e.gain), rstep := true }
        else e) }) t) s

/-! ### Commands -/

def execAdcSeqStart (a : Word) (s : State) : Out := .next (adcSeqStart a s)
def execAdcSeqStop (a : Word) (s : State) : Out := .next (adcSeqStop a s)
def execAdcUrgent (a : Word) (s : State) : Out := .next (adcUrgent a s)
def execAdcTrigger (q : Fin 8) (s : State) : Out := .next (adcTrigger q s)
def execAdcConversionDone (c : Fin 2) (nano : Int) (s : State) : Out := .next (conversionDone c nano s)
def execAdcCut (c : Fin 2) (s : State) : Out := .next (adcCut c s)
def execStreamFlush (k : Fin 4) (s : State) : Out := .next (streamFlush k s)
def execIrqGapEnd (s : State) : Out := .next (irqGapEnd s)

end Sys2Proof.Machine
end

