-- ==== Sys2Proof/Machine/Comparators.lean ====
section
/-! DEFINITION. Fast comparators, blanking, mains sense (R275 to R283) and Badger (R284 to R286). -/

namespace Sys2Proof.Machine

def modFc (i : Fin 16) (f : Fc → Fc) (s : State) : State := { s with cmp := { s.cmp with fcs := upd s.cmp.fcs i f } }
def modTamper (i : Fin 8) (f : TamperIn → TamperIn) (s : State) : State :=
  { s with cmp := { s.cmp with tampers := upd s.cmp.tampers i f } }

/-! ### Badger -/

def tmpIndex (i : Fin 8) : Fin 16 := ⟨i.val, by omega⟩
def tmpSrc (i : Fin 8) : Fin 192 := ⟨178 + i.val, by omega⟩

def fcMode (s : State) (i : Fin 16) : Nat := rfld s (0x7680 + i.val * 0x10) 1 0

/-- SIDE of an active edge: 1 above HI, 2 below LO in WINDOW mode, 3 in ABOVE or BELOW mode (R284). -/
def sideOf (s : State) (i : Fin 16) (lv : CompLevel) : Nat :=
  if fcMode s i ≠ 2 then 3 else if lv.above then 1 else 2

/-- Live ACTIVE levels of TMP0 to TMP7. -/
def tmpLive (s : State) : Nat := bitsOf 8 (fun i => (nth s.cmp.fcs i Fc.reset).active)

def tamperRec (s : State) (i side count pst : Nat) (lost : Bool) (t : Time) : List Word :=
  hubRec 0x10 [at_ 0 i ||| at_ 8 side ||| flag 12 lost ||| at_ 16 pst, at_ 0 (min count 0xFFFF), timeLo t, timeHi t,
               at_ 0 (tmpLive s)]

/-- A TAMPER record finds a bank and a slot. -/
def tamperRoom (s : State) : Bool := !dead s && free s ≠ 0

/-- A TAMPER slot fires where a record has committed (R140). -/
def tamperFires (s0 : State) (i : Fin 8) (s : State) : State := if tamperRoom s0 then fireTamper i.val s else s

/-- A TAMPER record commits; one that finds no slot is counted in JNL_LOST (R139). -/
def tamperCommit (i side count pst : Nat) (lost : Bool) (t : Time) (s : State) : State :=
  if dead s then s
  else if free s = 0 then countReg 0x082C 15 0 1 s
  else setReg (0x7790 + 4 * i) (timeLo (now s))
    (countReg 0x778C 15 0 1 (commit (tamperRec s i side count pst lost t) s))

/-- A record of a live edge, with all that follows it (R284, R285): REC_GAP starts. -/
def tamperReport (i : Fin 8) (side pst : Nat) (t : Time) (s : State) : State :=
  let s1 := modTamper i (fun x => { x with gap := true, count := 0 }) (tamperCommit i.val side 1 pst false t s)
  let seq := if tamperRoom s then s1.jnl.head else 0
  tamperFires s i (sendVector 20 (event 0x0B01 0 i.val side (seq.setWidth 64) (raise (178 + i.val) side s1)))

/-- The cause of an input is present again: a counted edge, and its source still holds it (R285). -/
def tamperAgain (i : Fin 8) (s : State) : State := modSrc (tmpSrc i) (fun x => { x with present := x.latched }) s

/-- An input of MASK becomes active (R284, R286). -/
def tamperEdge (i : Fin 8) (side : Nat) (raw : Time) (s : State) : State :=
  if !rbit s 0x7780 i.val then s
  else
    let x := s.cmp.tampers[i]
    if !s.jnl.scanned then
      if x.heldEdge.isSome then s
      else modTamper i (fun y => { y with heldEdge := some raw, side := BitVec.ofNat 2 side, pst := s.pwr.pstate }) s
    else if x.gap then
      tamperAgain i (modTamper i (fun y => if y.count = 0 then
          { y with count := 1, first := raw, side := BitVec.ofNat 2 side, pst := s.pwr.pstate }
        else { y with count := y.count + 1 }) s)
    else tamperReport i side s.pwr.pstate.code raw s

/-- The cause ends once the input is inactive and no count is pending (R285). -/
def tamperRests (i : Fin 8) (s : State) : State :=
  if s.cmp.fcs[tmpIndex i].active || s.cmp.tampers[i].count ≠ 0 || s.cmp.tampers[i].heldEdge.isSome then s
  else modSrc (tmpSrc i) (fun x => { x with present := 0 }) s

/-- An input returns to inactive: TAMPER_CLEAR, no record. -/
def tamperReturns (i : Fin 8) (s : State) : State :=
  tamperRests i (if rbit s 0x7780 i.val then event 0x0B02 0 i.val 0 0 s else s)

/-- REC_GAP ends: with a count above zero one further record, and another gap (R284). -/
def recGapEnd (i : Fin 8) (s : State) : State :=
  let x := s.cmp.tampers[i]
  if !x.gap then s
  else if x.count = 0 then modTamper i (fun y => { y with gap := false }) s
  else
    let s1 := modTamper i (fun y => { y with count := 0 }) (tamperCommit i.val x.side.toNat x.count x.pst.code false x.first s)
    tamperFires s i (tamperRests i s1)

/-- After the journal scan (R286): one LOST_AT_FAIL record for each latched input, of which SIDE and PSTATE are not
known, then the edges held meanwhile. -/
def tamperAfterScan (s : State) : State :=
  let s1 := (fins 8).foldl (fun t i =>
    if s.pwr.latch.tamper.getLsbD i.val then
      let a := drawNat t
      let b := drawNat a.2
      tamperCommit i.val (a.1 % 4) 1 (b.1 % 4) true 0 b.2
    else t) s
  let s2 := modPwr (fun p => { p with latch := { p.latch with tamper := 0 } }) s1
  (fins 8).foldl (fun t i => match t.cmp.tampers[i].heldEdge with
    | some raw =>
      tamperRests i (tamperReport i t.cmp.tampers[i].side.toNat t.cmp.tampers[i].pst.code raw
        (modTamper i (fun y => { y with heldEdge := none }) t))
    | none => t) s2

/-! ### Fast comparators -/

def fcActiveAt (mode : Nat) (lv : CompLevel) : Bool :=
  match mode with
  | 0 => lv.above
  | 1 => lv.below
  | 2 => lv.above || lv.below
  | _ => false

/-- The level of a fast comparator with its pin at `mv`: LO and HI in 4 mV steps, the hysteresis of the comparator divided
by 1.611 (R275, R279). In µV of the comparator's own scale of 2.048 V, 1,611 for a millivolt of the pin. -/
def fcJudge (s : State) (i : Fin 16) (mv : Nat) : CompLevel :=
  let o := 0x7680 + i.val * 0x10
  let dac := fun (x : Nat) => trimmedDac s (128 + i.val) 1000 (1611 * 4 * x : Nat)
  judgeTrimmed s.cmp.fcs[i].active (dac (rfld s (o + 4) 9 0)) (dac (rfld s (o + 4) 25 16))
    (1000 * hystMv (rfld s o 3 2) : Nat) ((1611 * mv : Nat), 1)

/-- FC_EDGE of FC14 and FC15 with EVT (R281). -/
def fcEvent (i : Fin 16) (active : Bool) (s : State) : State :=
  if 14 ≤ i.val && rbit s (0x7680 + i.val * 0x10) 16 && gapOver s s.cmp.fcs[i].lastPost then
    event 0x0B11 0 i.val (if active then 1 else 2) 0 (modFc i (fun x => { x with lastPost := some (now s) }) s)
  else s

/-- What an output change of a tamper input brings about. -/
def tmpChange (i : Fin 16) (act : Bool) (side : Nat) (raw : Time) (s : State) : State :=
  match fin? 8 i.val with
  | some t => if act then tamperEdge t side raw (countReg (0x77B0 + 4 * t.val) 15 0 1 s) else tamperReturns t s
  | none => s

/-- LOSS_T in µs (R282). -/
def lossTime (s : State) : Nat := 1000 * orElse0 (rfld s 0x700C 7 0) 1

/-- What the mains judgement notes of a level change at FC12 or FC13: FC12's runs of active intervals, each no more than LOSS_T
after the one before, and when FC13 changed (R282, R283). -/
def mainsNotes (i : Fin 16) (act : Bool) (s : State) : State :=
  let m := s.cmp.mains
  let t := now s
  let goes := decide (0 < m.rises) && decide (sinceT t m.rise ≤ lossTime s)
  { s with cmp := { s.cmp with mains :=
      if i = 12 then
        if act then { m with rise := t, rises := if goes then m.rises + 1 else 1, first := if goes then m.first else t }
        else { m with fall := t }
      else if i = 13 then { m with change1 := t }
      else m } }

/-- What takes an output edge of a fast comparator. -/
def fcTakes (i : Fin 16) (act : Bool) (side : Nat) (raw : Time) (s : State) : State :=
  tmpChange i act side raw (fcEvent i act (compEdge { comp := .fc i, active := act } (mainsNotes i act s)))

/-- The output of a fast comparator becomes `lv` (R279). `raw`: DEN_TIME at which the new level began. -/
def fcSet (i : Fin 16) (lv : CompLevel) (raw : Time) (s : State) : State :=
  let x := s.cmp.fcs[i]
  let act := fcActiveAt (fcMode s i) lv
  let s1 := modFc i (fun y => { y with
    below := lv.below, above := lv.above, active := act,
    count := if act && !y.active then BitVec.ofNat 16 (satAdd 16 y.count.toNat 1) else y.count }) s
  if act = x.active then s1 else fcTakes i act (sideOf s i lv) raw s1

/-- A fast comparator samples its pin, and no change of a trim holds its output. -/
def fcRuns (i : Fin 16) (s : State) : Bool := s.den.up && decide (fcMode s i ≠ 3) && !trimHolds s (128 + i.val)

/-- A blanking window of the comparator is open (R280). -/
def fcBlanked (i : Fin 16) (s : State) : Bool :=
  shownBlank s (0x768C + i.val * 0x10) (reg s (0x7688 + i.val * 0x10)) s.cmp.fcs[i].blanked

/-- The level of a fast comparator that samples and is not blanked. -/
def fcLevel (i : Fin 16) (lv : CompLevel) (raw : Time) (s : State) : State :=
  if fcRuns i s && !fcBlanked i s then fcSet i lv raw s else s

/-- MODE has been written: disabled reads inactive, and another mode judges the levels anew (R279). -/
def fcRemode (i : Fin 16) (s : State) : State :=
  let x := s.cmp.fcs[i]
  if fcMode s i = 3 then
    let s1 := modFc i (fun y => { y with below := false, above := false, active := false }) s
    if x.active then fcTakes i false 0 (now s) s1 else s1
  else fcLevel i { below := x.below, above := x.above } (now s) s

/-- FILT in µs lies between the raw edge and the output's. -/
def fcRaw (i : Fin 16) (s : State) : Time := now s - BitVec.ofNat 48 (rfld s (0x7680 + i.val * 0x10) 15 8)

/-- A monitor's input has stood at `code` for FILT; a rail that holds it follows (R178, R179). -/
def wmEdge (k : Fin 64) (code : BitVec 16) (s : State) : State := railEdge k (wmInput k code s)

/-- A pin has stood at `mv` for FILT since `raw`. -/
def fcInput (i : Fin 16) (mv : Nat) (raw : Time) (s : State) : State := fcLevel i (fcJudge s i mv) raw s

/-- A window of a comparator with blanking word `w` can end now: a relay's that is open, or one of a source that blanks at
every period. -/
def windowStands (held : Bool) (w : Word) : Bool := held || (decide (fld w 1 0 = 1 ∨ fld w 1 0 = 3) && decide (fld w 17 10 ≠ 0))

/-- A blanking window ends: with FILT 0 the output takes the level that the input has now; with another FILT it takes it once
the input has stood so long from here on, by an edge of its own (R280; that FILT counts from the window's end is DEDUCED
from 'input changes inside the window are not seen'). -/
def blankEnd (c : Comparator) (input : BitVec 16) (s : State) : State :=
  match c with
  | .wm k =>
    let s1 := modWm k (fun x => { x with blanked := false }) s
    if windowStands s.cmp.wms[k].blanked (reg s (wmReg k 8)) && wmRuns k s1 && rfld s (wmReg k 0) 23 16 = 0 then
      railEdge k (wmSet k (wmJudge s1 k input) s1)
    else s1
  | .fc i =>
    let s1 := modFc i (fun x => { x with blanked := false }) s
    if windowStands s.cmp.fcs[i].blanked (reg s (0x7688 + i.val * 0x10)) && fcRuns i s1 && rfld s (0x7680 + i.val * 0x10) 15 8 = 0 then
      fcSet i (fcJudge s1 i input.toNat) (now s) s1
    else s1

/-! ### Mains sense (R282, R283) -/

/-- Mains presence as the inputs in use show it. -/
def bothSns (s : State) : Bool := match rfld s 0x700C 25 24 with
  | 0 => s.cmp.sns0
  | 1 => s.cmp.sns0 && s.cmp.sns1
  | _ => s.cmp.sns0 || s.cmp.sns1

/-- COMBINE makes the mains-present fact of the two inputs; a change is timed, counted and judged under R29. -/
def combine (s : State) : State :=
  if bothSns s = s.pwr.mains then s
  else
    let s1 := setReg 0x7014 (timeLo (now s)) (modPwr (fun p => { p with mains := bothSns s }) s)
    judge 0 (if bothSns s then countReg 0x7018 31 16 1 s1 else countReg 0x7018 15 0 1 s1)

def setSns0 (b : Bool) (s : State) : State :=
  if s.cmp.sns0 = b then s else combine { s with cmp := { s.cmp with sns0 := b } }

/-- Loss on MAINS_SNS0, where mains is present: FC12 has stayed inactive for LOSS_T, disabled or not (R282). -/
def mainsLoss (s : State) : State :=
  if s.den.up && s.cmp.sns0 && !s.cmp.fcs[12].active && lossTime s ≤ sinceT (now s) s.cmp.mains.fall then
    setSns0 false { s with cmp := { s.cmp with mains := { s.cmp.mains with lost := true, rises := 0 } } }
  else s

/-- FC12 has become active without a break until now. -/
def mainsGoes (s : State) : Bool := decide (0 < s.cmp.mains.rises) && decide (sinceT (now s) s.cmp.mains.rise ≤ lossTime s)

/-- Presence on MAINS_SNS0: after a loss that qualified since VDEN rose, RESTORE_T without a break; at a cold start three active
intervals (R282). -/
def mainsPresence (s : State) : State :=
  let m := s.cmp.mains
  if s.den.up && mainsGoes s && (if m.lost then 100000 * rfld s 0x700C 15 8 ≤ sinceT (now s) m.first else 3 ≤ m.rises) then
    setSns0 true s
  else s

/-- Presence, as POL1 reads the pin. -/
def sns1Present (s : State) (high : Bool) : Bool := high != rbit s 0x700C 26

/-- The level of MAINS_SNS1 as FC13 shows it: above its threshold, or not below it in BELOW mode. -/
def sns1High (s : State) : Bool := if fcMode s 13 = 1 then !s.cmp.fcs[13].below else s.cmp.fcs[13].above

/-- FC13 samples, has shown the level for SNS1_FILT, and takes part in COMBINE (R283). -/
def setSns1 (high : Bool) (s : State) : State :=
  if !s.den.up || fcMode s 13 = 3 || sns1High s ≠ high || sinceT (now s) s.cmp.mains.change1 < 1000 * rfld s 0x700C 23 16 ||
      rfld s 0x700C 25 24 = 0 || s.cmp.sns1 = sns1Present s high then s
  else combine { s with cmp := { s.cmp with sns1 := sns1Present s high } }

/-- TAMPER and TAMPER_CLEAR name the input's output edge; they stand where it is one of MASK, and becomes active. -/
def tamperBegins (i : Fin 8) (mv : Nat) (raw : Time) (s : State) : State :=
  if rbit s 0x7780 i.val && !s.cmp.fcs[tmpIndex i].active && fcActiveAt (fcMode s (tmpIndex i)) (fcJudge s (tmpIndex i) mv)
  then fcInput (tmpIndex i) mv raw s else s

/-- Inputs that become active in one DEN cycle are recorded in ascending order, whatever the order they are named in (R284). -/
def tamperCycle (es : List TamperEdge) (s : State) : State :=
  (fins 8).foldl (fun t i => match es.find? (fun e => e.input = i) with
    | some e => tamperBegins i e.mv e.raw t
    | none => t) s

def tamperClears (i : Fin 8) (mv : Nat) (s : State) : State :=
  if s.cmp.fcs[tmpIndex i].active && !fcActiveAt (fcMode s (tmpIndex i)) (fcJudge s (tmpIndex i) mv)
  then fcInput (tmpIndex i) mv (now s) s else s

/-! ### Commands -/

def execWmEdge (k : Fin 64) (code : BitVec 16) (s : State) : Out := .next (wmEdge k code s)
def execFcEdge (i : Fin 16) (mv : Nat) (s : State) : Out := .next (fcInput i mv (fcRaw i s) s)
def execBlankWindowEnd (c : Comparator) (input : BitVec 16) (s : State) : Out := .next (blankEnd c input s)
def execTamper (es : List TamperEdge) (s : State) : Out := .next (tamperCycle es s)
def execRecGapEnd (i : Fin 8) (s : State) : Out := .next (recGapEnd i s)
def execTamperClear (i : Fin 8) (mv : Nat) (s : State) : Out := .next (tamperClears i mv s)
def execMainsLoss (s : State) : Out := .next (mainsLoss s)
def execMainsPresence (s : State) : Out := .next (mainsPresence s)
def execSns1Qualify (high : Bool) (s : State) : Out := .next (setSns1 high s)

end Sys2Proof.Machine
end

