-- ==== Sys2Proof/Machine/Serve.lean ====
section
/-! DEFINITION. The arbiter at work (10): the walk serves a waiting request (R191), a DEFER limit passes (R193),
BUDGET_SET (R201), and a tier is restored (R199). -/

namespace Sys2Proof.Machine

/-! ### A waiting request is served -/

/-- What an item does once its request is granted. -/
def itemServed (a : Word) (d : Demand) (vmeas : Nat) (s : State) : State :=
  match findItem s a, d with
  | some it, .rail r => (match fin? 48 r with
    | some r => if it.opcode = 0x14 then limitsServed a r s else settle (railServed a r vmeas s)
    | none => s)
  | some _, .relay n => (match fin? 48 n with
    | some n => relayServed a n s
    | none => s)
  | some _, .motor m => (match fin? 2 m with
    | some m => motorServed a m s
    | none => s)
  | some _, .fan f => (match fin? 4 f with
    | some f => fanServed a f s
    | none => s)
  | some _, .lend => lendServed a s
  | some _, .lift => liftServed a s
  | _, _ => s

def onRelay (n : Nat) (k : Fin 48 → State → State) (s : State) : State := match fin? 48 n with
  | some n => k n s
  | none => s

/-- The fan's own request is granted: it goes to the target that is in force now. -/
def fanOwnServed (f : Fin 4) (s : State) : State := match s.fans[f] with
  | some x =>
    if x.state = .faulted then release (.fan f.val) s
    else if x.state = .blind then forceGrant (.fan f.val) (fanTier x) (blindClaim x) s
    else if x.held then s
    else fanStart f (fanTarget s f x) s
  | none => s

def served (r : Req) (vmeas : Nat) (s : State) : State :=
  match r.who with
  | .item a => itemServed a r.demand vmeas s
  | .node g i => (match r.demand with
    | .rail k => (match fin? 48 k with
      | some k => settle (nodeServed g i k vmeas s)
      | none => s)
    | _ => s)
  | .fan f => (match fin? 4 f with
    | some f => fanOwnServed f s
    | none => s)
  | .reassert n => onRelay n relayPulse s
  | .retry n => onRelay n relayPulse s

/-- The request of an item whose START has to wait for room in the journal (R139). -/
def startWaits (s : State) (r : Req) : Bool := mustWait s && (match r.who with
  | .item a => itemAt s a (fun i => !i.startRec)
  | _ => false)

/-- The first request of the walk that can be served (R191). -/
def nextServed (s : State) : Option Req :=
  ((walkAll (now s) s).1.find? (fun x => x.2.isNone && !startWaits s x.1)).map (·.1)

def serveNext (vmeas : Nat) (s : State) : State :=
  match nextServed s with
  | some r => served r vmeas (serveReq (now s) r (rootWake s))
  | none => s

/-- The walk serves one request after another; what a rail's measurement finds is a free value (notes/assumptions/65.md). -/
def serveAllNext (fuel : Nat) (s : State) : State :=
  match fuel with
  | 0 => s
  | n + 1 =>
    if (nextServed s).isSome then
      let d := drawNat s
      serveAllNext n (serveNext (d.1 % 2 ^ 14) d.2)
    else s

/-! ### A DEFER limit passes -/

def deferLimit (s : State) (tier : Nat) : Nat := rfld s 0x5030 (8 * tier + 7) (8 * tier)

/-- The object whose request is refused shows that it waits no longer. -/
def unwait (d : Demand) (s : State) : State :=
  match d with
  | .rail r => railUnwait (.rail r) s
  | .relay n => onRelay n (fun n => modRelay n (fun x => if x.state = .waiting then { x with state := .idle } else x)) s
  | .motor m => (match fin? 2 m with
    | some m => modMotor m (fun x => if x.state = .pending then { x with state := .idle, item := none } else x) s
    | none => s)
  | _ => s

/-- By how much the request exceeds FREE. -/
def shortfall (s : State) (r : Req) : Nat := ((r.mw : Int) - (grantMw s r.demand : Nat) - freePower s).toNat

/-- REFUSED_BUDGET DEFER_TMO (R193); a refused node fails (R185); a refused retry ends with the last outcome. -/
def deferRefused (r : Req) (s : State) : State :=
  let short := shortfall s r
  let s1 := noteRefusal r.demand short (modBud (fun b => { b with waiting := b.waiting.filter (fun q => decide (q ≠ r)) }) s)
  let refuse := fun (a : Word) => complete a .refusedBudget 0x11 (BitVec.ofNat 64 short)
  match r.who with
  | .item a => settle (refuse a (unwait r.demand s1))
  | .node g i => (match fin? 16 g with
    | some k => settle (nodeFail k i (unwait r.demand s1))
    | none => s1)
  | .fan _ => s1
  | .retry n => onRelay n (fun n => relayVerdict n .idle) s1
  | .reassert n => onRelay n (fun n t =>
      let a := (t.relays[n]).bind (·.item)
      let t1 := modRelay n (fun x => { x with item := none }) (unwait r.demand t)
      match a with
      | some a => refuse a t1
      | none => t1) s1

/-- When the DEFER limit of a request has passed. -/
def deferEnd (s : State) (r : Req) : Time := r.since + BitVec.ofNat 48 (1000000 * deferLimit s r.tier)

/-- The request of `a` whose limit passes first is refused (R63); a limit of 0 never passes. -/
def deferTmo (a : Word) (s : State) : State :=
  match (sortBy (fun p q => !laterT (deferEnd s p) (deferEnd s q))
      (s.bud.waiting.filter (fun r => r.aseq = a && deferLimit s r.tier ≠ 0))).head? with
  | some r => deferRefused r (rootWake s)
  | none => s

/-! ### Tiers -/

/-- UNSHED_HOLD has passed with FREE covering the claims of the lowest tier shed under R196 (R199). -/
def unshed (s : State) : State :=
  match [1, 2, 3].find? (fun t => s.bud.shedCap.getLsbD t) with
  | some t =>
    if freePower s < (nth s.bud.shedSum t 0 : Nat) then s
    else restoreTier t (modBud (fun b => { b with shedCap := b.shedCap &&& ~~~(BitVec.ofNat 4 (2 ^ t)),
                                                  shedSum := b.shedSum.setIfInBounds t 0 }) s)
  | none => s

/-- A FORCE mask takes effect: cause 2 sheds, and what it no longer names is restored (R198, R199). -/
def setForce (mask : Nat) (s : State) : State :=
  let old := s.bud.shedForce
  shedChange (fun t => old.getLsbD t && !nbit mask t) 2 (fun t => nbit mask t && !old.getLsbD t)
    (modBud (fun b => { b with shedForce := BitVec.ofNat 4 mask }) s)

/-! ### BUDGET_SET (R201) -/

def budgetBad (it : Item) : Bool :=
  let g := opv it 4
  let slots := fld (opv it 11) 2 0
  (bit g 0 && 500000 < fld (opv it 5) 23 0) || (bit g 1 && 50000 < fld (opv it 6) 23 0) ||
    (bit g 5 && (slots = 0 || 6 < slots)) || (bit g 4 && bit (opv it 9) 0)

/-- The registers of the groups that word 4 names. -/
def budgetStore (it : Item) (s : State) : State :=
  let g := opv it 4
  let s1 := if bit g 0 then setReg 0x5008 (opv it 5 &&& 0xFFFFFF) s else s
  let s2 := if bit g 1 then setReg 0x500C (opv it 6 &&& 0xFFFFFF) s1 else s1
  let s3 := if bit g 2 then setReg 0x5030 (opv it 7) s2 else s2
  let s4 := if bit g 3 then setReg 0x5004 (opv it 8 &&& 1) s3 else s3
  if bit g 5 then setReg 0x502C (opv it 11 &&& 0xFF07) (setReg 0x5028 (opv it 10 &&& 0xFFFFFF) s4) else s4

def budgetSet (a : Word) (s : State) : State :=
  beginWork 0x48 a (fun it t =>
    if budgetBad it then complete a .refusedLeash 0 0 t
    else
      let t1 := budgetStore it (commitStart it t)
      let t2 := arbitrate (if bit (opv it 4) 4 then setForce (fld (opv it 9) 3 0) t1 else t1)
      let t3 := serveAllNext t2.bud.waiting.length t2
      complete a .done 0 (BitVec.ofNat 64 (capacity t3)) t3) s

/-! ### Commands -/

def execDeferredItemServed (vmeas : Nat) (s : State) : Out := .next (serveNext vmeas s)
def execDeferTmo (a : Word) (s : State) : Out := .next (deferTmo a s)
def execUnshedHoldExpiry (s : State) : Out := .next (unshed s)
def execBudgetSet (a : Word) (s : State) : Out := .next (budgetSet a s)

end Sys2Proof.Machine
end

