-- ==== Sys2Proof/Machine/Thermistor.lean ====
section
/-! DEFINITION. What a TX pin says (R287): OPEN, SHORT, or the temperature that the thermistor's equation gives. -/

namespace Sys2Proof.Machine

/-- Terms of 2·atanh(z), z in 10⁻¹²: (z^(2j+1)) / (2j+1). -/
def atanh2 (z : Int) : Int :=
  2 * ((List.range 20).foldl (fun (a : Int × Int) j => (a.1 + a.2 / (2 * j + 1 : Nat), a.2 * z / 1000000000000 * z / 1000000000000))
    (0, z)).1

/-- ln (n / d) in 10⁻¹²: the quotient brought between 1/2 and 2 by a power of two. -/
def lnPico (n d : Nat) : Int :=
  let p := Nat.log2 n
  let q := Nat.log2 d
  let a := n * 2 ^ q
  let b := d * 2 ^ p
  ((p : Int) - q) * 693147180560 + atanh2 (((a : Int) - b) * 1000000000000 / (a + b : Nat))

/-- The temperature in 10⁻³ K of a thermistor whose pin is at `uv` µV: T = 298.15 · BETA / (BETA + 298.15 · ln (Rt / RNOM)),
with Rt / RNOM = 10 kΩ · V / ((2.048 V − V) · RNOM); RNOM in 10 Ω. None where the equation gives none. -/
def thermistorMk (rnom beta uv : Nat) : Option Int :=
  if rnom = 0 || uv = 0 || 2048000 ≤ uv then none
  else
    let den := (beta : Int) * 100000000000000 + 29815 * lnPico (1000 * uv) ((2048000 - uv) * rnom)
    if beta = 0 || den ≤ 0 then none else some ((298150 : Int) * beta * 100000000000000 / den)

/-- A pin above 2.000 V is OPEN, one below 10 mV SHORT. -/
def pinFails (uv : Nat) : Bool := 2000000 < uv || uv < 10000

end Sys2Proof.Machine
end

