-- ==== Sys2Proof/Machine/Thermal.lean ====
section
/-! DEFINITION. The thermal manager (16): the cross-check (R287 to R291), rules and their actions (R292 to R294), the
die limit (R295). -/

namespace Sys2Proof.Machine

/-! ### The cross-check -/

/-- TD sensors stand in 4 rows of 6. -/
def dieNeighbours (i : Nat) : List Nat :=
  (List.range 24).filter fun j =>
    j ≠ i && ((j / 6 : Int) - (i / 6 : Nat)).natAbs ≤ 1 && ((j % 6 : Nat) - (i % 6 : Nat) : Int).natAbs ≤ 1

def neighbours (s : State) (i : Nat) : List Nat :=
  if i < 24 then dieNeighbours i
  else
    let w := reg s (0x7840 + 8 * i)
    (List.range (min 4 (fld w 31 28))).map (fun k => fld w (12 + 5 * k) (8 + 5 * k))

/-- Twice the median of some readings. -/
def median2 (l : List Int) : Option Int :=
  let m := sortBy (fun a b => decide (a ≤ b)) l
  let n := m.length
  if n = 0 then none else some (m.getD ((n - 1) / 2) 0 + m.getD (n / 2) 0)

def sensorAt (s : State) (i : Nat) : Sensor := nth s.thm.sensors i Sensor.reset
def unfit (x : Sensor) : Bool := x.suspect || x.failed

/-- The raw reading of TX`x` in 0.1 °C: either neighbour of what the equation gives, whose rounding is not stated
(notes/assumptions/18.md); a free value where the pin is OPEN or SHORT or the equation gives nothing. -/
def rawOf (x uv : Nat) (s : State) : Int × State :=
  let w := reg s (0x7820 + 4 * x)
  let d := drawNat s
  match if pinFails uv then none else thermistorMk (fld w 15 0) (fld w 31 16) uv with
  | some t => ((t - 273150) / 100 + (d.1 % 2 : Nat), d.2)
  | none => (signed 16 d.1, d.2)

/-- A TX pin's µV through the bias reference and the TX front end, to the nearest (R296). -/
def txSeen (s : State) (uv : Nat) : Nat := (nearest (trimChain s [(63, 0), (146, 50)] ((uv : Nat), 1))).toNat

/-- The raw readings of all sensors. -/
def rawsOf (die : Vector Int 24) (tx : Vector Nat 8) (s : State) : List Int × State :=
  (List.range 8).foldl (fun a x => let v := rawOf x (nth tx x 0) a.2; (a.1 ++ [v.1], v.2)) (die.toList, s)

/-- Twice the neighbour median of step 2: by the states of the previous sample. -/
def nearMedian (s : State) (raws : List Int) (i : Nat) : Option Int :=
  median2 (((neighbours s i).filter (fun j => !unfit (sensorAt s j))).map (fun j => raws.getD j 0))

def suspN (s : State) : Nat := orElse0 (rfld s 0x7800 23 16) 1

/-- Steps 1 to 3 of R289. -/
def crossCheck (s : State) (raws : List Int) (tx : Vector Nat 8) (i : Fin 32) : Sensor :=
  let x := s.thm.sensors[i]
  let raw := raws.getD i.val 0
  let failed := decide (24 ≤ i.val) && pinFails (nth tx (i.val - 24) 0)
  let y := { x with raw := raw, failed := failed }
  match nearMedian s raws i.val with
  | none => { y with count := 0 }
  | some m2 =>
    let off := decide (2 * (rfld s 0x7800 15 8 * 5) < (2 * raw - m2).natAbs)
    if failed || off = x.suspect then { y with count := 0 }
    else if suspN s ≤ x.count + 1 then { y with suspect := off, count := 0 }
    else { y with count := x.count + 1 }

/-- Step 4. -/
def isUnknown (s : State) (i : Nat) : Bool :=
  let ns := neighbours s i
  let bad := (ns.filter (fun j => unfit (sensorAt s j))).length
  if ns.isEmpty then (sensorAt s i).failed else decide (ns.length ≤ 2 * bad)

/-- Half of a doubled median; an odd one lies between two values (notes/assumptions/18.md). -/
def halved (m2 : Int) (s : State) : Int × State :=
  if m2 % 2 = 0 then (m2 / 2, s) else let d := drawNat s; (m2 / 2 + (d.1 % 2 : Nat), d.2)

/-- The temperature in use (R290); where the rule names none it is a free value. -/
def inUseOf (x : Sensor) (m : Option Int) (s : State) : Int × State :=
  if x.unknown then (2000, s)
  else if !unfit x then (x.raw, s)
  else match m with
    | some m2 => halved m2 s
    | none => let d := drawNat s; (signed 16 d.1, d.2)

def setSensor (i : Fin 32) (x : Sensor) (s : State) : State := modThm (fun t => { t with sensors := t.sensors.set i.val x i.isLt }) s

/-- DETAIL of THM_SENSOR. -/
def sensorCode (x : Sensor) : Nat := if x.unknown then 2 else if x.failed then 3 else if x.suspect then 1 else 0

/-- R291: the causes of each group follow its members. -/
def judgeGroups (s : State) : State :=
  (List.range 8).foldl (fun t g =>
    let held := t.thm.shutdown && (match t.thm.tripped with
      | some i => inGroup t g i.val
      | none => false)
    let member := fun (p : Sensor → Bool) => (fins 32).any (fun i => inGroup t g i.val && p t.thm.sensors[i])
    [(3, member (·.failed)), (1, member (·.suspect)), (2, member (·.unknown)), (4, held)].foldl
      (fun u (c : Nat × Bool) => if c.2 then raiseOnce (156 + g) c.1 u else endCause (156 + g) c.1 u) t) s

def greatest (l : List Int) : Int := match l with
  | [] => 0
  | t :: rest => rest.foldl max t

/-- Every sensor takes its new reading and state (R289, R290). -/
def sampleSensors (die : Vector Int 24) (pins : Vector Nat 8) (s0 : State) : State :=
  let tx := pins.map (txSeen s0)
  let r := rawsOf die tx s0
  let s := r.2
  let s1 := modThm (fun t => { t with sensors := Vector.ofFn (crossCheck s r.1 tx) }) s
  let s2 := modThm (fun t => { t with sensors := Vector.ofFn fun i => { s1.thm.sensors[i] with unknown := isUnknown s1 i.val } }) s1
  let s3 := (fins 32).foldl (fun t i =>
    let v := inUseOf t.thm.sensors[i] (nearMedian s r.1 i.val) t
    setSensor i { t.thm.sensors[i] with inUse := v.1 } v.2) s2
  let hi := greatest (r.1.take 24)
  let s4 := modThm (fun t => { t with dieMax := hi, dieMaxEver := max t.dieMaxEver hi }) s3
  let s5 := (fins 32).foldl (fun t i =>
    if sensorCode s0.thm.sensors[i] = sensorCode t.thm.sensors[i] then t
    else event 0x0C03 0 i.val (sensorCode t.thm.sensors[i]) 0 t) s4
  judgeGroups s5

/-! ### Rules: parameters (R292) -/

def ruleOf (w : Nat → Word) : Rule :=
  { w5 := w 5, w6 := w 6, w7 := w 7, w8 := w 8, state := .inactive, stale := false, dwell := 0 }

def ruleAction (x : Rule) : Nat := fld x.w5 11 8
def ruleEn (x : Rule) : Bool := bit x.w5 7
def ruleDwell (x : Rule) : Nat := orElse0 (fld x.w5 23 16) 1
def ruleHyst (x : Rule) : Nat := orElse0 (fld x.w5 31 24) 20
def ruleThresh (x : Rule) : Int := signed 16 (fld x.w6 15 0)

/-- The class of the objects an action acts on. -/
def targetClass (action : Nat) : Option Nat :=
  if action = 1 then some 1 else if action = 4 then some 4 else if action = 6 then some 9 else none

/-- The TARGET of a rule fails R105. -/
def targetFails (s : State) (x : Rule) : Bool :=
  match targetClass (ruleAction x) with
  | some c => (handleFault s x.w7 (fun k => k = c)).isSome
  | none => false

/-- A derate beyond what the target's lanes could stand; a target that names no rail is taken at the widest limits. -/
def derateOk (s : State) (x : Rule) : Bool :=
  targetOk (match railAt s (hSlot x.w7) with
    | some r => isCtl r.lead
    | none => true) (fld x.w8 13 0)

def ruleFault (s : State) (x : Rule) : Option Refuse :=
  let a := ruleAction x
  if (bit x.w5 5 && 7 < fld x.w5 4 0) || a < 1 || 6 < a then some (.refusedFormat, 0x07)
  else if (match targetClass a with
      | some c => decide (hClass x.w7 ≠ c)
      | none => false) then some (.refusedHandle, 4)
  else if (a = 1 && !derateOk s x) || (a = 2 && 1000 < fld x.w8 9 0) || (a = 5 && bit x.w8 0) ||
      (a = 4 && !(fanTargetOk false (fld x.w8 13 0) && fanTargetOk true (fld x.w8 31 16))) then some (.refusedLeash, 0)
  else none

/-! ### Rules: states (R293) -/

def subject (s : State) (x : Rule) : Int :=
  if bit x.w5 5 then groupVal s (fld x.w5 4 0) else (sensorAt s (fld x.w5 4 0)).inUse

def ruleMet (x : Rule) (v : Int) : Bool := if bit x.w5 6 then decide (v ≤ ruleThresh x) else decide (ruleThresh x ≤ v)
def ruleBeyond (x : Rule) (v : Int) : Bool :=
  if bit x.w5 6 then decide (ruleThresh x + (ruleHyst x : Int) < v) else decide (v < ruleThresh x - (ruleHyst x : Int))

/-- One sample of a rule. -/
def ruleStep (x : Rule) (v : Int) : Rule :=
  if !ruleEn x then x
  else match x.state with
    | .active =>
      if !ruleBeyond x v then { x with dwell := 0 }
      else if ruleDwell x ≤ x.dwell + 1 then { x with state := .inactive, dwell := 0, stale := false }
      else { x with dwell := x.dwell + 1 }
    | _ =>
      if !ruleMet x v then { x with state := .inactive, dwell := 0 }
      else if ruleDwell x ≤ x.dwell + 1 then { x with state := .active, dwell := 0 }
      else { x with state := .pending, dwell := x.dwell + 1 }

def setRule (r : Fin 32) (x : Option Rule) (s : State) : State := modThm (fun t => { t with rules := t.rules.set r.val x r.isLt }) s

def isActive (x : Option Rule) : Bool := match x with
  | some x => x.state = .active
  | none => false

/-- A rule takes its new state; a change to or from ACTIVE is posted and counted (THM_SDCNT calls what it counts activations,
the rule counts each change: notes/assumptions/93.md). -/
def ruleTakes (r : Fin 32) (x : Rule) (s : State) : State :=
  let was := isActive s.thm.rules[r]
  let s1 := setRule r (some x) s
  if was = (x.state = .active) then s1
  else event 0x0C02 (handleOf s 8 r.val) r.val (if was then 0 else 1) 0 (countReg 0x7818 31 16 1 s1)

/-! ### Rules: actions (R294) -/

/-- An action whose TARGET fails R105 is not taken. -/
def staleCheck (s : State) : State :=
  (fins 32).foldl (fun t r => match t.thm.rules[r] with
    | some x =>
      if x.state = .active && !x.stale && targetFails t x then
        event 0x0C04 (handleOf t 8 r.val) r.val 0 0 (setRule r (some { x with stale := true }) t)
      else t
    | none => t) s

/-- The derate's RAIL_SET_V that has not begun yet. -/
def derateQueued (s : State) (r : Fin 48) : Option Word :=
  (s.eng.items.find? (fun i => i.ring = 0x1F && i.opcode = 0x10 && i.phase = .queued && i.handle = railHandle s r)).map (·.aseq)

/-- A RAIL_SET_V of the hub's own joins the rail's queue (R103, R294). -/
def derateAsks (r : Fin 48) (target : Nat) (s : State) : State :=
  let s1 := makeWay 1 s
  let it := newItem (nextAseq s1) 0x1F 0x10 0 0 (railHandle s1 r) ((Vector.replicate 10 0).set 0 (at_ 0 target)) (now s1)
  modEng (fun e => { e with items := e.items ++ [it], line := e.line ++ [it.aseq] }) (commit (acceptRec it) s1)

/-- Derates change as RAIL_SET_V items of the hub's own; one is asked for, and one that has come to its turn begins, at each
sample and at each change of the rules (notes/assumptions/66.md). -/
def derate (r : Fin 48) (s : State) : State :=
  match s.rails[r] with
  | none => s
  | some x =>
    let d := derateOn s r.val
    let s1 := if d = x.derate || (derateQueued s r).isSome || mustWait s then s
      else derateAsks r { x with derate := d }.target s
    match derateQueued s1 r with
    | some a => railSetV a s1
    | none => s1

/-- SHUTDOWN rules that have become ACTIVE since `s0` run their graphs downward. -/
def ruleShutdowns (s0 s : State) : State :=
  (fins 32).foldl (fun t r => match t.thm.rules[r] with
    | some x =>
      if isActive t.thm.rules[r] && !isActive s0.thm.rules[r] && !x.stale && ruleAction x = 6 then
        (match ruleGraph t x with
        | some k => hubRun k true .hub t
        | none => t)
      else t
    | none => t) s

/-- What a change of the rules since `s0` brings about. -/
def ruleEffects (s0 s : State) : State :=
  let s1 := staleCheck s
  let s2 := arbitrate (chgUpdate ((fins 48).foldl (fun t r => derate r t) s1))
  let s3 := (fins 4).foldl (fun t f => match t.fans[f] with
    | some x => if x.state = .faulted || fanFloor s0 f.val x.speed = fanFloor t f.val x.speed then t else fanApply f t
    | none => t) s2
  let s4 := shedChange (fun t => shedByRule s0 t && !shedByRule s3 t) 4 (fun t => shedByRule s3 t && !shedByRule s0 t) s3
  settle (ruleShutdowns s0 s4)

/-- Every rule looks at its subject. -/
def sampleRules (s : State) : State :=
  let s1 := (fins 32).foldl (fun t r => match t.thm.rules[r] with
    | some x => ruleTakes r (ruleStep x (subject t x)) t
    | none => t) s
  if (fins 32).all (fun r => isActive s1.thm.rules[r] == isActive s.thm.rules[r]) then (fins 48).foldl (fun t r => derate r t) s1
  else ruleEffects s (if inHush s1 then rootWake s1 else s1)

def thermalSample (die : Vector Int 24) (tx : Vector Nat 8) (s : State) : State :=
  if s.den.up then sampleRules (sampleSensors die tx s) else s

/-! ### THERMAL_SET (R292) -/

/-- The rule that THERMAL_SET leaves. -/
def ruleSet (it : Item) (x : Rule) : Rule :=
  let en := bit (opv it 5) 7
  let y : Rule := if bit (opv it 4) 0 then { x with w5 := (x.w5 &&& ~~~(flag 7 true)) ||| flag 7 en }
    else { x with w5 := opv it 5, w6 := opv it 6, w7 := opv it 7, w8 := opv it 8, stale := false }
  let restart := decide ((y.w5 ^^^ x.w5) &&& 0xF7F ≠ 0)
  if restart || !en then { y with state := .inactive, dwell := 0, stale := false } else y

/-- A restart withdraws the action before the new one can act; DONE shows the state. -/
def thermalSet (a : Word) (s : State) : State :=
  beginWork 0x50 a (fun it t => match fin? 32 (hSlot it.handle) with
    | none => t
    | some r => match t.thm.rules[r] with
      | none => t
      | some x =>
        let y := ruleSet it x
        match (if bit (opv it 4) 0 then none else ruleFault t (ruleOf (fun w => opv it w))) with
        | some e => complete a e.1 e.2 0 t
        | none =>
          let t1 := ruleEffects t (ruleTakes r y (commitStart it t))
          complete a .done 0 (BitVec.ofNat 64 y.state.code) t1) s

/-! ### The die limit (R295) -/

def failWork (h : Word) (s : State) : State := (workOn s h).foldl (fun t a => complete a .failed 0x30 0 t) s

def failOp (op : Nat) (s : State) : State :=
  ((s.eng.items.filter (fun i => i.opcode.toNat = op && begun i)).map (·.aseq)).foldl (fun t a => complete a .failed 0x30 0 (withdraw a t)) s

/-- A rail's lanes turn OFF. -/
def railHot (r : Fin 48) (s : State) : State :=
  match s.rails[r] with
  | none => s
  | some x =>
    if x.state = .faulted then s
    else if x.state = .off then failNodes r (failWork (railHandle s r) (withdrawDemand (.rail r.val) s))
    else failNodes r (railDown r .off (failWork (railHandle s r) (withdrawDemand (.rail r.val) s)))

/-- A pulse is judged as CUT; what waits for a pulse waits no longer. -/
def relayHot (n : Fin 48) (s : State) : State :=
  match s.relays[n] with
  | none => s
  | some x =>
    let rest := fun (t : State) => failWork (relayHandle s n) (modRelay n (fun y => { y with state := .idle, item := none, left := 0 }) t)
    if x.state = .pulsing then
      let a := drawNat s
      let b := drawNat a.2
      raiseLatched (96 + n.val) 4 (rest (relayJudged n 5 a.1 b.1 b.2))
    else if x.state = .waiting || x.state = .retryGap then rest (withdrawDemand (.relay n.val) s)
    else s

def motorHot (m : Fin 2) (s : State) : State :=
  match s.motors[m] with
  | some x => motorFail m 0x30 (loses x) s
  | none => s

/-- LEND_STOP and LIFT_STOP name no detail for this cause: it is a free value. -/
def lendHot (s : State) : State :=
  failOp 0x41 (if s.chg.lend = .off then s else let d := drawNat s; lendOff (d.1 % 256) d.2)
def liftHot (s : State) : State :=
  failOp 0x42 (if s.chg.lift = .off then s else let d := drawNat s; liftOff (d.1 % 256) d.2)

/-- The fan goes to its blind voltage, as in R255 step 2. -/
def fanHot (f : Fin 4) (s : State) : State :=
  match s.fans[f] with
  | none => s
  | some x =>
    if x.state = .faulted || x.state = .blind then s
    else
      let mw := (fanClaimFull x * fanBlindMv x + 12999) / 13000
      forceGrant (.fan f.val) (fanTier x) mw (modFan f (fun y => { y with
        state := .blind, ramping := true, bandMoved := false, settled := 0, out := if y.out = 0 then fanStep y else y.out }) (withdrawFan f s))

def holdDie (b : Bool) (s : State) : State :=
  modPwr (fun p => { p with hrst := { p.hrst with die := b } }) s

/-- Step 1. -/
def dieStops (s : State) : State :=
  let s1 := (fins 48).foldl (fun t r => railHot r t) s
  let s2 := chgUpdate (liftHot (lendHot s1))
  let s3 := (fins 2).foldl (fun t m => motorHot m t) s2
  let s4 := (fins 48).foldl (fun t n => relayHot n t) s3
  (fins 4).foldl (fun t f => fanHot f t) s4

/-- The readings trip the die shutdown: a sensor with a neighbour, or the mean of the GOOD die sensors. -/
def dieTrips (s : State) (i : Option (Fin 24)) (die : Vector Int 24) : Bool :=
  match i with
  | some i => 1500 ≤ die[i] && (dieNeighbours i.val).any (fun j => decide (1350 ≤ nth die j 0))
  | none =>
    let good := (List.range 24).filter (fun j => !unfit (sensorAt s j) && !(sensorAt s j).unknown)
    !good.isEmpty && decide ((1500 : Int) * good.length ≤ (good.map (fun j => nth die j 0)).sum)

def dieShutdown (i : Option (Fin 24)) (die : Vector Int 24) (s : State) : State :=
  if !s.den.up || hot s || !dieTrips s i die then s
  else
    let s1 := modThm (fun t => { t with shutdown := true, cooling := true, tripped := i }) (countReg 0x7818 15 0 1 s)
    let s2 := modPwr (fun p => { p with hrstDue := false }) (holdDie true s1)
    let s3 := arbitrate (settle (dieStops s2))
    let s4 := modPwr (fun p => { p with hostUp := false }) s3
    hostFell (event 0x0C01 0 0 0 0 (judgeGroups s4))

/-- A fan that only the shutdown held at BLIND takes up its target again. -/
def fanCool (f : Fin 4) (s : State) : State :=
  match s.fans[f] with
  | some x =>
    if x.state ≠ .blind || x.held then s
    else if fanIsShed s x then fanShed f s
    else fanApply f (modFan f (fun y => { y with state := .run, demand := y.out / 10 }) s)
  | none => s

/-- The hold ends: the host graph runs upward. With no host graph nothing runs, and HRST_N follows at once. -/
def dieCooled (hottest : Int) (s : State) : State :=
  if !hot s || 1250 ≤ hottest then s
  else
    let s1 := modThm (fun t => { t with shutdown := false, cooling := false, tripped := none }) s
    let s2 := judgeGroups s1
    let s3 := (fins 4).foldl (fun t f => fanCool f t) (chgUpdate s2)
    let s4 := if (nth s.graphs (hostGraph s) none).isNone then modPwr (fun p => { p with hrstDue := true }) s3
      else settle (hostRun false .cooled s3)
    event 0x0C05 0 0 0 0 (arbitrate (owlReload 0 s4))

/-! ### Commands -/

def execThermalSample (die : Vector Int 24) (tx : Vector Nat 8) (s : State) : Out := .next (thermalSample die tx s)
def execThermalSet (a : Word) (s : State) : Out := .next (thermalSet a s)
def execDieShutdown (i : Option (Fin 24)) (die : Vector Int 24) (s : State) : Out := .next (dieShutdown i die s)
def execDieCooled (hottest : Int) (s : State) : Out := .next (dieCooled hottest s)

end Sys2Proof.Machine
end

