-- ==== Sys2Proof/Machine/LeashCmds.lean ====
section
/-! DEFINITION. LEASH_SET (22: R367, R368). -/

namespace Sys2Proof.Machine

/-- Groups of word 4 that an operand check concerns. -/
def leashOperand (it : Item) : Bool :=
  let c := opv it 4
  (bit c 0 && signed 11 (fld (opv it 5) 26 16) < signed 11 (fld (opv it 5) 10 0)) ||
  (bit c 1 && (fld (opv it 6) 3 0 = 0 || fld (opv it 6) 11 8 = 0)) ||
  (bit c 3 && (fld (opv it 10) 13 8 < fld (opv it 10) 5 0 || 47 < fld (opv it 10) 13 8))

def leashBeyond (it : Item) : Bool :=
  let c := opv it 4
  let lanes := fld (opv it 10) 19 16
  (bit c 2 && 1000 < fld (opv it 7) 9 0) || (bit c 3 && (lanes < 1 || 8 < lanes)) || (bit c 5 && bit (opv it 9) 0)

/-- LSH_LANEMIN of the rail slots FIRST to LAST. -/
def setFloors (w : Word) (s : State) : State :=
  ((List.range 48).filter (fun r => decide (fld w 5 0 ≤ r ∧ r ≤ fld w 13 8))).foldl
    (fun t r => modReg (0x9620 + 4 * (r / 8)) (fun v => setFld v (4 * (r % 8) + 3) (4 * (r % 8)) (fld w 19 16)) t) s

def leashStore (it : Item) (s : State) : State :=
  let c := opv it 4
  let s1 := if bit c 0 then setReg 0x9604 (opv it 5 &&& 0x07FF07FF) s else s
  let s2 := if bit c 1 then setReg 0x9608 (opv it 6 &&& 0xF0F) s1 else s1
  let s3 := if bit c 2 then setReg 0x960C (opv it 7 &&& 0x3FF) s2 else s2
  let s4 := if bit c 3 then setFloors (opv it 10) s3 else s3
  let s5 := if bit c 4 then setReg 0x9610 (opv it 8 &&& 0xFFFF) s4 else s4
  if bit c 5 then setReg 0x9614 (opv it 9 &&& 0xF) s5 else s5

/-- A member that AUTO_SHED holds out rejoins while fewer lanes run than the floor asks for. -/
def rejoin (r : Fin 48) (s : State) : State :=
  match s.rails[r] with
  | some x => if (kept s x).length < laneFloor s r then railRejoin r x s else s
  | none => s

/-- Quantities that stand outside a narrowed leash take their step back (R368). -/
def leashReturn (c : Word) (s0 s : State) : State :=
  let s1 := if bit c 1 then regain s0 s else s
  let s2 := if bit c 3 then (fins 48).foldl (fun t r => (List.range 8).foldl (fun u _ => rejoin r u) t) s1 else s1
  let s3 := if bit c 4 then fansApply s2 else s2
  if bit c 2 || bit c 5 then arbitrate s3 else s3

def leashSet (a : Word) (s : State) : State :=
  beginWork 0x49 a (fun it t =>
    if leashOperand it then refuseOperand a t
    else if leashBeyond it then complete a .refusedLeash 0 0 t
    else
      let t0 := commitStart it t
      let t1 := leashReturn (opv it 4) t0 (leashStore it t0)
      complete a .done 0 ((lshStatus t1).setWidth 64) t1) s

def execLeashSet (a : Word) (s : State) : Out := .next (leashSet a s)

end Sys2Proof.Machine
end

