-- ==== Sys2Proof/Machine/Calibration.lean ====
section
/-! DEFINITION. Calibration (17): CAL_RUN (R300 to R304), the image, CAL_SNAPSHOT and CAL_RESTORE (R305 to R309). -/

namespace Sys2Proof.Machine

def modCal (f : Cal → Cal) (s : State) : State := { s with cal := f s.cal }

/-- The books of a change of trim word `i`: the word that stands at its circuit stands until the safe point (R299). -/
def holdTrim (i : Nat) (old : Word) (s : State) : State :=
  let h : TrimHold := { index := i, word := old, since := now s }
  modCal (fun c => { c with holds := (if trimWaits s h then [h] else []) ++ c.holds.filter (fun k => k.index ≠ i && trimWaits s k) }) s

/-- Trim word `i` takes a value. -/
def storeTrim (i : Nat) (w : Word) (s : State) : State := holdTrim i (trimWord s i) (setReg (calReg i) w s)

/-- TRIMMED sets: the UNTRIMMED cause ends (R298). -/
def setTrimmed (s : State) : State := endCause 177 1 (modCal (fun c => { c with trimmed := true }) s)

/-- RUN entry with TRIMMED clear (R298). -/
def calRunEntry (s : State) : State := if s.cal.trimmed then s else raiseOnce 177 1 s

/-- CLAMPED stays present while any word has the bit (R303). -/
def clampedEnds (s : State) : State :=
  if (List.range 170).any (fun i => rbit s (calReg i) 26) then s else endCause 177 3 s

/-! ### CAL_RUN -/

/-- The order in which the words of a range are treated (R301). -/
def calOrder (first last : Nat) : List Nat :=
  (((List.range 64).filter (fun i => 58 ≤ i)) ++ [56, 57] ++ ((List.range 56).filter (fun i => 48 ≤ i)) ++
    ((List.range 170).filter (fun i => i < 48 || 64 ≤ i))).filter (fun i => decide (first ≤ i ∧ i ≤ last))

/-- No sequence is RUNNING on converter `c`. -/
def convFree (s : State) (c : Nat) : Bool := s.adc.seqs.toList.all fun x => match x with
  | some x => !x.running || decide ((seqConv x).val ≠ c)
  | none => true

/-- The charger's bridge switches, or Lend runs it the other way. -/
def chgSwitches (s : State) : Bool := [.startup, .precharge, .cc, .cv, .lend].contains s.chg.state

/-- The condition of R300 on determining OFF, and on determining GAIN. -/
def calMay (s : State) (i : Nat) : Bool × Bool :=
  let both := fun (b : Bool) => (b, b)
  if i < 48 then (true, decide ((nth s.lanes i Lane.reset).state = .off))
  else if i < 58 then both (convFree s (if i < 56 then (i - 48) / 4 else i - 56))
  else if i < 64 then (false, true)
  else if i < 128 then both (!rbit s (0x7080 + 0x18 * (i - 64)) 10)
  else if i < 144 then both (decide (rfld s (0x7680 + 0x10 * (i - 128)) 1 0 = 3) && !(decide (i < 136) && rbit s 0x7780 (i - 128)))
  else if i = 144 then (true, s.chg.rest)
  else if i = 145 then both (!chgSwitches s)
  else if i = 146 then both true
  else if i < 149 then both (match nth s.motors (i - 147) none with
    | some m => m.state = .idle
    | none => true)
  else if i < 153 then both (match nth s.fans (i - 149) none with
    | some f => f.state = .off
    | none => true)
  else if i < 169 then both (s.rails.toList.all fun x => match x with
    | some x => !x.rsEn || decide (x.rsPair ≠ i - 153) || decide (x.state = .off)
    | none => true)
  else both (s.chg.lift = .off)

/-- A correction as its field takes it. -/
def corr12 (v : Int) : Nat := unsigned 12 (clampI (-2047) 2047 v)
def beyond (v : Int) : Bool := decide (2047 < v.natAbs)
/-- A field at a limit that a clamped correction left there. -/
def atLimit (w : Word) (hi lo : Nat) : Bool := bit w 26 && decide ((signed 12 (fld w hi lo)).natAbs = 2047)

/-- The word with OFF and GAIN determined, and whether a correction was clamped. -/
def calWord (w : Word) (off gain : Option Int) : Word × Bool :=
  let a := match off with
    | some v => setFld w 11 0 (corr12 v) ||| flag 24 true
    | none => w
  let b := match gain with
    | some v => setFld a 23 12 (corr12 v) ||| flag 25 true
    | none => a
  let now := (match off with | some v => beyond v | none => false) || (match gain with | some v => beyond v | none => false)
  let stays := (off.isNone && atLimit w 11 0) || (gain.isNone && atLimit w 23 12)
  (setFld b 26 26 (if now || stays then 1 else 0), now)

/-- Two readings of CALREF that differ by more than 0.05 % of the first (R302). -/
def refShifts (first other : Nat) : Bool := decide (first < 2000 * ((first : Int) - other).natAbs)

/-- The circuits that a reading for word `i` passes besides its own: a lane's sense amplifier and the rest of the converters'
inputs are read by circuits of their own (the choice of these is DESIGN CHOICE, notes/assumptions/95.md). -/
def calPath (i : Nat) : List (Nat × Int) :=
  if 48 ≤ i ∧ i < 52 then [(56, 1), (59, 0)] else if 52 ≤ i ∧ i < 56 then [(57, 1), (60, 0)]
  else if i = 56 then [(59, 0)] else if i = 57 then [(60, 0)]
  else if 64 ≤ i ∧ i < 144 then [(61, 0)] else if i = 146 then [(63, 0)] else []

/-- How many readings of a zero word `i` takes: the median of 64 samples of a lane, the mean of 256 conversions, one sweep or
one chopped short (R300). -/
def zeroCount (i : Nat) : Nat := if i < 48 then 64 else if i < 58 then 256 else 1

/-- The zero that word `i` finds, in OFF steps: the median of a lane's samples (of an even number, the mean of the two in the
middle), the mean of the others; none where there are too few. -/
def zeroOf (i : Nat) (zs : List Int) : Option (Int × Nat) :=
  if zs.length < zeroCount i ∨ (58 ≤ i ∧ i < 64) then none
  else if i < 48 then (median2 zs).map (fun m => (m, 32))
  else some ((zs.take (zeroCount i)).foldl (· + ·) 0, 16 * zeroCount i)

/-- The nearest step that takes the zero away, seen through circuits already trimmed in this run (R301; the rounding is a
DESIGN CHOICE, notes/assumptions/95.md). -/
def offFound (s : State) (i : Nat) (zs : List Int) : Option Int :=
  (zeroOf i zs).map fun z => let y := trimChain s (calPath i) z; nearest (-y.1, y.2)

/-- What a reading of CALREF should be, in the unit of its path's OFF steps: in quarter codes of 62.5 µV where converters read
it (R259), else OFF steps of the path do not enter. -/
def refUnit (i mv : Nat) : Nat := if 48 ≤ i ∧ i < 58 then 64 * mv else 1

/-- The nearest gain correction that takes a reading of `ppm` of what it should be there (R300: the corrected reading is the
raw one × (1 + GAIN × 0.000 05)); a reading of nothing is beyond any. -/
def gainFound (s : State) (i mv ppm : Nat) : Int :=
  let y := trimChain s (calPath i) ((ppm * refUnit i mv : Nat), 1000000)
  if y.1 ≤ 0 then 2048 else nearest (20000 * (((refUnit i mv * y.2 : Nat) : Int) - y.1), y.1.toNat)

def setRun (j : CalJob) (s : State) : State := modCal (fun c => { c with run := some j }) s

/-- Word `i` with what it reads. A shift of CALREF found before its gain ends the run, and the word keeps its value. -/
def calWordDone (calref : Bool) (c : CalWord) (j : CalJob) (i : Nat) (rest : List Nat) (s : State) : State :=
  let may := calMay s i
  let off := if may.1 then offFound s i c.zeros else none
  let gain := if calref && may.2 then some (gainFound s i s.cal.lastRef c.seen) else none
  if gain.isSome && refShifts j.first c.ref then setRun { j with noisy := true } s
  else if off.isNone && gain.isNone then setRun { j with todo := rest, skipped := j.skipped + 1 } s
  else
    let w := calWord (reg s (calReg i)) off gain
    let s1 := setRun { j with todo := rest, determined := j.determined + 1 } (storeTrim i w.1 s)
    if w.2 then event 0x0D03 0 i 0 0 (raise 177 3 s1) else s1

/-- The first of the words that the run has left. -/
def calOne (calref : Bool) (c : CalWord) (s : State) : State :=
  match s.cal.run with
  | some j => (match j.todo with
    | i :: rest => if j.noisy then s else calWordDone calref c j i rest s
    | [] => s)
  | none => s

/-- The first reading of CALREF is more than 3 % from what the item says. -/
def refMismatch (mv first : Nat) : Bool := decide (3 * (1000 * mv) < 100 * ((first : Int) - (1000 * mv : Nat)).natAbs)

/-- A run that CALREF ends (R302). -/
def calFails (a : Word) (detail : Nat) (s : State) : State := complete a .failed detail 0 (raiseLatched 177 2 s)

/-- A converter that the run holds no longer takes up what has waited for it (R304). -/
def calRelease (s : State) : State := nextWork 1 (nextWork 0 s)

/-- The run is over: what it determined stands (R298, R303, R304). -/
def calOver (j : CalJob) (s : State) : State :=
  let s1 := modCal (fun c => { c with run := none }) s
  let s2 := calRelease (clampedEnds (if 0 < j.determined then setTrimmed s1 else s1))
  if j.noisy then calFails j.item 0x12 s2
  else
    let res : DWord := BitVec.ofNat 64 (j.determined + 65536 * j.skipped)
    complete j.item .done (if 0 < j.skipped then 0x10 else 0) res (event 0x0D02 0 0 0 res s2)

/-- The run goes on with the words that are reached now, and is over with the last. -/
def calGoes (calref : Bool) (ws : List CalWord) (s : State) : State :=
  let s1 := ws.foldl (fun t c => calOne calref c t) s
  match s1.cal.run with
  | some j => if j.noisy || j.todo.isEmpty then calOver j s1 else calRelease s1
  | none => s1

/-- CAL_RUN (R301): it begins with two readings of CALREF, or goes on where the run under way stands. -/
def calRun (a : Word) (first second : Nat) (words : List CalWord) (s : State) : State :=
  match s.cal.run with
  | some j =>
    if j.item = a then calGoes (itemAt s a (fun it => bit (opv it 5) 0)) words s else s
  | none =>
    beginWork 0x5A a (fun it t =>
      let lo := fld (opv it 4) 8 0
      let hi := fld (opv it 4) 24 16
      let calref := bit (opv it 5) 0
      let mv := fld (opv it 6) 12 0
      if 169 < hi || hi < lo then refuseOperand a t
      else if calref && (mv < 1000 || 4096 < mv) then complete a .refusedLeash 0 0 t
      else
        let t1 := modCal (fun c => { c with lastRef := if calref then mv else c.lastRef }) (commitStart it t)
        if calref && refMismatch mv first then calFails a 0x11 t1
        else if calref && refShifts first second then calFails a 0x12 t1
        else calGoes calref words
          (setRun { item := a, todo := calOrder lo hi, determined := 0, skipped := 0, first := first, noisy := false } t1)) s

/-! ### The image (R305) -/

/-- The 520 words of an image with the CRC field taken as zero. -/
def calImage (s : State) : List Word :=
  [0x4E434131, 1, loW serialNumber, hiW serialNumber, timeLo (now s), timeHi (now s), at_ 0 s.cal.lastRef, 0] ++
    (List.range 512).map (fun i => readReg s (calReg i))

def withCrc (ws : List Word) : List Word := ws.set 7 (crc32 (ws.set 7 0))

def calBuffer (it : Item) : Bool := !aligned (addrOf (opv it 4) (opv it 5)) 64 || (opv it 6).toNat < 2080

/-- TRIM_LOCKED: CODE goes into CAL_EMBER. -/
def keepEmber (s : State) : State :=
  if s.clk.trimLocked then setReg 0x87F8 (at_ 0 (unsigned 11 s.clk.code) ||| flag 16 true) s else s

def setCalCrc (c : Word) (s : State) : State := modCal (fun k => { k with crc := c.setWidth 16 }) s

/-- CAL_SNAPSHOT (R306). -/
def calSnapshot (a : Word) (s : State) : State :=
  beginWork 0x58 a (fun it t =>
    if calBuffer it then complete a .refusedFormat 0x10 0 t
    else if !t.cal.trimmed && !bit (opv it 7) 0 then complete a .refusedState 0x10 0 t
    else
      let t1 := keepEmber t
      if !dmaOk t1 then failDma a 3 5 t1
      else
        let img := withCrc (calImage t1)
        let c := img.getD 7 0
        complete a .done 0 (c.setWidth 64)
          (setCalCrc c (memWords (addrOf (opv it 4) (opv it 5)) img (commitStart it t1)))) s

/-- CODE takes the seed only while the trim holds and is not locked (R308). -/
def seedEmber (s : State) : State :=
  if s.clk.src = .holding && !s.clk.trimLocked then
    modClk (fun c => { c with code := signed 11 (rfld s 0x87F8 10 0) }) s
  else s

/-- Words 0 to 510 of an image load. -/
def calLoad (ws : List Word) (s : State) : State :=
  setReg 0x87F8 (ws.getD 518 0 &&& 0x000107FF)
    ((List.range 170).foldl (fun t i => storeTrim i (ws.getD (8 + i) 0 &&& 0x07FFFFFF) t) s)

/-- CAL_RESTORE (R307, R308). -/
def calRestore (a : Word) (image : ItemRead) (s : State) : State :=
  beginWork 0x59 a (fun it t =>
    if calBuffer it then complete a .refusedFormat 0x10 0 t
    else itemRead a 3 (addrOf (opv it 4) (opv it 5)) 2080 image (fun all u =>
      let ws := all.take 520
      let c := ws.getD 7 0
      if ws.getD 0 0 ≠ 0x4E434131 || ws.getD 1 0 ≠ 1 then complete a .refusedFormat 0x11 0 u
      else if ws.length ≠ 520 || c ≠ crc32 (ws.set 7 0) then complete a .refusedFormat 0x12 0 u
      else if dword (ws.getD 2 0) (ws.getD 3 0) ≠ serialNumber then complete a .refusedState 0x12 0 u
      else
        let u1 := clampedEnds (seedEmber (calLoad ws (commitStart it u)))
        let u2 := modCal (fun k => { k with fromImage := true }) (setTrimmed (setCalCrc c u1))
        complete a .done 0 (c.setWidth 64) (event 0x0D01 0 0 0 0 u2)) t) s

/-! ### Commands -/

def execCalSnapshot (a : Word) (s : State) : Out := .next (calSnapshot a s)
def execCalRestore (a : Word) (image : ItemRead) (s : State) : Out := .next (calRestore a image s)
def execCalRun (a : Word) (first second : Nat) (words : List CalWord) (s : State) : Out := .next (calRun a first second words s)

end Sys2Proof.Machine
end

