-- ==== Sys2Proof/Machine/TwoWire.lean ====
section
/-! DEFINITION. Two-wire ports and partners (18): the choice of operations (R312), transfers, their failure and retries
(R314 to R319), recovery (R320), alerts (R321, R322), the census (R323 to R325). -/

namespace Sys2Proof.Machine

def portSrc (p : Fin 4) : Nat := 164 + p.val

/-- EN clear, or isolated (R326). -/
def portOff (s : State) (p : Fin 4) : Bool := !rbit s (twbReg p 0) 0 || isolated s (portSrc p)
def stuck (s : State) (p : Fin 4) : Bool := s.twb.ports[p].stuckSda || s.twb.ports[p].stuckScl
def addrOk (a : Nat) : Bool := 0x08 ≤ a && a ≤ 0x77 && a ≠ 0x0C
def partnerSlot (p : Fin 4) (a : Nat) : Nat := p.val * 112 + (a - 8)

/-! ### Partners (R311, R323) -/

/-- MISS_MAX of the port; 0 is taken as 3. -/
def portMissMax (s : State) (p : Fin 4) : Nat := orElse0 (min 7 (rfld s (twbReg p 0) 11 8)) 3

def setPartner (k : Nat) (x : Option Partner) (s : State) : State :=
  { s with twb := { s.twb with partners := spSet (fun _ => none) s.twb.partners k x } }

def modPartner (k : Nat) (f : Partner → Partner) (s : State) : State := setPartner k ((partnerAt s k).map f) s

def newPartner (o : PartnerOrigin) (pec pinned : Bool) (missMax : Nat) : Partner :=
  { origin := o, pec := pec, pinned := pinned, misses := 0, missMax := missMax, transfers := 0, alerts := 0, lastAck := 0 }

/-- Records of a partner that the hub creates or destroys by itself, RING 0x1F (R324). -/
def partnerRecs (op : Nat) (h w4 w5 w6 : Word) (s : State) : Word × State :=
  hubRecs op h (((Vector.replicate 10 0).set 0 w4).set 1 w5 |>.set 2 w6) s

/-- A census or an alert finds a partner: PARTNER_NEW. -/
def findPartner (p : Fin 4) (a : Nat) (o : PartnerOrigin) (s : State) : State :=
  let k := partnerSlot p a
  let h := handleOf s 6 k
  let s1 := setPartner k (some { newPartner o false false (portMissMax s p) with lastAck := timeLo (now s) }) s
  let r := partnerRecs 0x08 h (at_ 0 6 ||| at_ 16 k) (at_ 0 p.val ||| at_ 8 a) 0 s1
  event 0x0E02 h p.val o.code 0 (noteObject 6 k r.1 r.2)

/-- An item stands queued or in progress on a handle. -/
def onQueue (s : State) (h : Word) : Bool := s.eng.items.any (fun i => i.handle = h && !dormant i)

/-- Nothing keeps the partner at the end of a round (R324). -/
def goes (s : State) (k : Nat) (x : Partner) : Bool :=
  x.missMax ≤ x.misses && !x.pinned && !s.eng.items.any (fun i => decide (i.handle = handleOf s 6 k))

def losePartner (p : Fin 4) (k : Nat) (s : State) : State :=
  let h := handleOf s 6 k
  event 0x0E03 h p.val 0 0 (endObject 6 k (partnerRecs 0x09 h 0 0 0 (setPartner k none s)).2)

def noteSeen (k : Nat) (s : State) : State := modPartner k (fun x => { x with lastAck := timeLo (now s) }) s

/-! ### The choice of the next operation (R312, R313) -/

/-- The port an item of the two-wire opcodes runs on. -/
def portOf (it : Item) : Fin 4 :=
  if it.opcode = 0x38 && it.handle ≠ 0 then ⟨hSlot it.handle / 112 % 4, by omega⟩ else ⟨fld (opv it 4) 1 0 % 4, by omega⟩

/-- The item whose census round is under way on the port. -/
def censusItem (s : State) (p : Fin 4) : Option Word := s.twb.ports[p].census.bind (·.item)

/-- The first item in ASEQ order that may begin work on a port, or whose census is under way there. -/
def readyOn (s : State) (p : Fin 4) : Option Word :=
  (s.eng.items.find? (fun i => (i.opcode = 0x38 || i.opcode = 0x39) && decide (portOf i = p) &&
    (canBegin s i || decide (censusItem s p = some i.aseq)))).map (·.aseq)

/-- An alert sweep may run. -/
def mayWatch (s : State) (p : Fin 4) : Bool := rbit s (twbReg p 0) 4 && !s.twb.ports[p].alertHold && !inHush s
def sweepYields (s : State) (p : Fin 4) : Bool := s.twb.ports[p].lastSweep && (readyOn s p).isSome

/-- An operation may start: the port is in use and not held, its pins work, and the bus is free (R31, R313, R326). -/
def mayOperate (s : State) (p : Fin 4) : Bool :=
  s.den.up && !outputsReset s && !portOff s p && !held s (portSrc p) && s.twb.ports[p].bus = .free && !stuck s p

/-- An idle port may choose. -/
def mayRun (s : State) (p : Fin 4) : Bool := mayOperate s p && s.twb.ports[p].op = .idle

/-- The periodic round that is due, in FULL and OUTAGE only (R325). -/
def roundDue (s : State) (p : Fin 4) : Option Word :=
  if (s.pwr.pstate = .full || s.pwr.pstate = .outage) && rfld s (twbReg p 4) 15 0 ≠ 0 then s.twb.ports[p].due else none

inductive NextOp where
  | recover | sweep | item (a : Word) | round | none
  deriving DecidableEq, Repr

/-- A round ranks just after the items accepted before it was due. -/
def nextOp (s : State) (p : Fin 4) : NextOp :=
  let x := s.twb.ports[p]
  if x.needRecovery then .recover
  else if x.alertLow && mayWatch s p && !sweepYields s p then .sweep
  else match readyOn s p, roundDue s p with
    | some a, some d => if later32 a d then .round else .item a
    | some a, Option.none => .item a
    | Option.none, some _ => .round
    | Option.none, Option.none => .none

/-- An idle port chooses its next operation. -/
def chooseNext (p : Fin 4) (s : State) : State :=
  if !mayRun s p then s
  else match nextOp s p with
    | .recover => modPort p (fun x => { x with op := .recover }) s
    | .sweep => modPort p (fun x => { x with op := .sweep }) s
    | .item a =>
      let op : PortOp := if itemAt s a (fun i => i.opcode = 0x38) then .xfer else .census
      modPort p (fun x => { x with op := op, item := some a, attempts := 0, lastSweep := false }) s
    | .round => modPort p (fun x => { x with op := .census, item := none, lastSweep := false }) s
    | .none => s

/-- The port has chosen the item, and its operation may start; on a port that is off it begins at once. -/
def itsTurn (s : State) (a : Word) : Bool :=
  match findItem s a with
  | some it =>
    let p := portOf it
    let x := s.twb.ports[p]
    portOff s p || (x.item = some a && x.attempts = 0 && mayOperate s p)
  | none => false

/-! ### The census (R323, R324, R325) -/

def probeAddrs (first last : Nat) : List Nat := (List.range 0x78).filter (fun a => decide (first ≤ a) && decide (a ≤ last) && addrOk a)

/-- One probe: its bus action, and what its answer means. -/
def probe (p : Fin 4) (acc : State × Census) (e : Nat × ProbeAnswer) : State × Census :=
  let k := partnerSlot p e.1
  let s := emit (.bus p.val (BitVec.ofNat 7 e.1) [] (.bytes (if acc.2.write then 0 else 1)) false) acc.1
  let c := { acc.2 with next := e.1 + 1 }
  match e.2, partnerAt s k with
  | .ack, some _ => (noteSeen k (modPartner k (fun x => { x with misses := 0 }) s), { c with acked := c.acked + 1 })
  | .ack, none => (findPartner p e.1 .census s, { c with acked := c.acked + 1, created := c.created + 1 })
  | .nack, some _ => (modPartner k (fun x => { x with misses := min 7 (x.misses + 1) }) s, c)
  | _, _ => (s, c)

/-- The partners that have missed too often. -/
def roundLost (p : Fin 4) (c : Census) (s : State) : List Nat :=
  ((probeAddrs c.first c.last).map (partnerSlot p)).filter (fun k => match partnerAt s k with
    | some x => goes s k x
    | none => false)

/-- RESULT of a census. -/
def roundResult (c : Census) (lost : List Nat) : DWord :=
  BitVec.ofNat 64 (c.acked % 256 + 256 * (c.created % 256) + 65536 * (lost.length % 256))

/-- A whole round has been probed: partners that have missed too often go, CENSUS_DONE, and the item completes. -/
def roundEnd (p : Fin 4) (c : Census) (s : State) : State :=
  let lost := roundLost p c s
  let s1 := lost.foldl (fun t k => losePartner p k t) s
  let res := roundResult c lost
  let s2 := event 0x0E04 0 p.val 0 res (setReg (twbReg p 0x24) (timeLo (now s1)) s1)
  let s3 := portIdle p (completeOpt c.item .done 0 res s2)
  modPort p (fun x => { x with census := none, due := if c.item.isNone then none else x.due }) s3

/-- The probes of round `c` that run now: each is one operation, and what is left of the round is chosen again (R312). -/
def roundRuns (p : Fin 4) (c : Census) (answers : List ProbeAnswer) (s : State) : State :=
  let left := probeAddrs c.next c.last
  let r := (left.zip answers).foldl (probe p) (rootWake s, c)
  if left.length ≤ answers.length then roundEnd p r.2 r.1
  else modPort p (fun x => { x with op := .idle, item := none, census := some r.2 }) r.1

/-! ### Transfers (R314 to R317) -/

def xBuf (it : Item) : Bool := bit (opv it 4) 18
def xBlock (it : Item) : Bool := bit (opv it 4) 23
def xTo (it : Item) : DWord := addrOf (opv it 6) (opv it 7)

def xBad (it : Item) : Bool :=
  let w := xWlen it
  let r := xRlen it
  (w = 0 && r = 0) || (!xBuf it && (32 < w || 8 < r)) || 256 < w || 256 < r || !addrOk (xAddr it) || (xBlock it && r < 2)

def xBuffer (it : Item) : Bool := xBuf it && (!aligned (xTo it) 4 || (opv it 8).toNat < xWlen it + xRlen it)

def bytesOf (ws : List Word) : List Byte := ws.flatMap wordBytes

/-- The bytes of the write phase: data, and the PEC of a write-only transfer. -/
def xWrite (s : State) (it : Item) (data : List Byte) : List Byte :=
  let d := data.take (xWlen it)
  if xPec s it && xRlen it = 0 then d ++ [pec (BitVec.ofNat 8 (2 * xAddr it) :: d)] else d

/-- What the read phase asks for: a PEC after it, and of a block what its count says. -/
def xRead (s : State) (it : Item) : BusRead :=
  if xRlen it = 0 then .bytes 0
  else if xBlock it then .block (xRlen it) (xPec s it)
  else .bytes (xRlen it + (if xPec s it then 1 else 0))

/-- An attempt starts. -/
def attempt (p : Fin 4) (s : State) : State :=
  let x := s.twb.ports[p]
  match x.item.bind (findItem s) with
  | some it =>
    emit (.bus p.val (BitVec.ofNat 7 (xAddr it)) (xWrite s it x.wdata) (xRead s it) (bit (opv it 4) 22))
      (modPort p (fun y => { y with op := .xfer, attempts := y.attempts + 1, acked := 0, addrAck := false, again := false }) (rootWake s))
  | none => s

/-- Bytes as a number, the first lowest. -/
def littleBytes (l : List Byte) : Nat := l.reverse.foldl (fun a b => a * 256 + b.toNat) 0

/-- The bytes that count of what was read: RLEN, or the block count and its bytes. -/
def xTaken (it : Item) (read : List Byte) : List Byte :=
  read.take (if xBlock it then min (xRlen it) ((read.headD 0).toNat + 1) else xRlen it)

/-- A transfer succeeds (R315); its read data goes to the buffer. Where that fails the target has acknowledged its address
(R316). -/
def xDone (p : Fin 4) (read : List Byte) (s : State) : State :=
  let x := s.twb.ports[p]
  match x.item.bind (findItem s) with
  | some it =>
    let got := xTaken it read
    let k := partnerSlot p (xAddr it)
    let s0 := modPort p (fun y => { y with acked := xWrites s it, addrAck := true, bus := .free }) (noteSeen k s)
    if xBuf it && !got.isEmpty && !dmaOk s then xFail p 0x10 false (noteDmaErr 6 5 0 s0)
    else
      let s1 := if xBuf it then memWrite (xTo it + BitVec.ofNat 64 (xWlen it)) got s0 else s0
      let s2 := modPartner k (fun y => { y with transfers := BitVec.ofNat 16 (satAdd 16 y.transfers.toNat 1) })
        (countReg (twbReg p 0x10) 15 0 1 s1)
      portIdle p (complete it.aseq .done 0 (if xBuf it then BitVec.ofNat 64 (got.length + 65536 * xWrites s it)
        else BitVec.ofNat 64 (littleBytes got)) s2)
  | none => s

/-- A retry: after the recovery that must come first, and once the bus is free. -/
def nextAttempt (p : Fin 4) (s : State) : State :=
  let x := s.twb.ports[p]
  if x.needRecovery then modPort p (fun y => { y with op := .recover }) s
  else if x.bus ≠ .free then modPort p (fun y => { y with again := true }) s
  else attempt p s

/-- The bus after an attempt that fails with cause `d`: the controller that wins an arbitration has it until its STOP, a target
may still hold SCL low, else the hub's own STOP has freed it (R313, R317, R319). -/
def busAfter (d : Nat) : BusState := if d = 0x14 || d = 0x15 then .busy else if d = 0x18 then .unknown else .free

/-- An attempt fails with cause `d`, `n` write bytes acknowledged: a retry, or the end (R317). -/
def xRetry (p : Fin 4) (d n : Nat) (addr : Bool) (s : State) : State :=
  let s1 := modPort p (fun y => { y with acked := n, addrAck := addr, bus := busAfter d }) s
  let x := s1.twb.ports[p]
  match x.item.bind (findItem s1) with
  | none => s
  | some it =>
    let s2 := if addr then noteSeen (partnerSlot p (xAddr it)) s1 else s1
    if d = 0x14 then
      (if x.arbLosses < 3 then nextAttempt p (modPort p (fun y => { y with arbLosses := y.arbLosses + 1 }) (countReg (twbReg p 0x14) 15 0 1 s2))
       else xFail p d false s2)
    else if d = 0x15 then xFail p d true (countReg (twbReg p 0x14) 31 16 1 s2)
    else if (!(addr || 0 < n) || bit (opv it 4) 17) && x.retries < fld (opv it 4) 21 20 then
      nextAttempt p (modPort p (fun y => { y with retries := y.retries + 1 }) s2)
    else xFail p d false s2

/-- The block count leaves more bytes than RLEN (R314). -/
def blockTooLong (it : Item) (read : List Byte) : Bool := xBlock it && decide (xRlen it < (read.headD 0).toNat + 1)

/-- Bytes that an attempt reads in all: of a block N + 1, or RLEN where the count is too great; then the PEC. -/
def bytesDue (s : State) (it : Item) (read : List Byte) : Nat :=
  let pec := if xPec s it then 1 else 0
  if xRlen it = 0 then 0
  else if blockTooLong it read then xRlen it
  else if xBlock it then (read.headD 0).toNat + 1 + pec
  else xRlen it + pec

/-- What an attempt of `it` can end with: neither more bytes than it has, nor fewer than a success takes. -/
def endFits (s : State) (it : Item) (e : AttemptEnd) : Bool :=
  let w := xWrites s it
  match e with
  | .done read => read.length = bytesDue s it read
  | .addrNack none => true
  | .addrNack (some n) => n = w && 0 < w && xRlen it ≠ 0
  | .dataNack n => n < w
  | .arbLost n addr => n ≤ w && (addr || n = 0)
  | .arbLostCtrl n => n ≤ w

/-- The PEC byte after a read phase does not match: over every byte, addresses included (R310). -/
def pecWrong (s : State) (p : Fin 4) (it : Item) (read : List Byte) : Bool :=
  let a := 2 * xAddr it
  let sent := if xWlen it = 0 then [] else BitVec.ofNat 8 a :: s.twb.ports[p].wdata.take (xWlen it)
  let got := xTaken it read
  xPec s it && xRlen it ≠ 0 && read.getD got.length 0 ≠ pec (sent ++ BitVec.ofNat 8 (a + 1) :: got)

/-- The bytes of an attempt have all been moved: the checks on what was read. -/
def attemptRead (p : Fin 4) (it : Item) (read : List Byte) (s : State) : State :=
  if blockTooLong it read then xRetry p 0x19 (xWrites s it) true s
  else if pecWrong s p it read then xRetry p 0x16 (xWrites s it) true s
  else xDone p read s

def attemptEnd (p : Fin 4) (e : AttemptEnd) (s : State) : State :=
  match s.twb.ports[p].item.bind (findItem s) with
  | none => s
  | some it =>
    if !underWay s.twb.ports[p] || !endFits s it e then s
    else match e with
      | .done read => attemptRead p it read s
      | .addrNack n => xRetry p 0x12 (n.getD 0) n.isSome s
      | .dataNack n => xRetry p 0x13 n true s
      | .arbLost n addr => xRetry p 0x14 n addr s
      | .arbLostCtrl n => xRetry p 0x15 n true s

/-- The bus as it stands after what the port has seen: free after a STOP, or after both lines have been high for 50 µs; after
another controller's START busy until the next STOP (R313). -/
def busSeen (b : BusSight) (x : BusState) : BusState :=
  match b with
  | .start => .busy
  | .stop => .free
  | .high us => if x = .unknown && 50 ≤ us then .free else x

def alertSeen (p : Fin 4) (low : Bool) (s : State) : State :=
  let s1 := modPort p (fun x => { x with alertLow := low }) s
  if low then s1 else endCause (portSrc p) 3 s1

/-- What a port that runs no attempt sees of its bus and of ALERT_N, which it ignores in an alert hold and in HUSH. A sweep
that may not go on has ended. -/
def portSees (p : Fin 4) (b : BusSight) (alertLow : Bool) (s : State) : State :=
  let s1 := modPort p (fun x => { x with bus := busSeen b x.bus }) s
  let s2 := if s.twb.ports[p].alertHold || inHush s then s1 else alertSeen p alertLow s1
  if s.twb.ports[p].op = .sweep && !mayWatch s p then modPort p (fun x => { x with op := .idle, rounds := 0 }) s2 else s2

/-- With the bus free a retry or the next operation starts (R312, R313). -/
def operationStart (p : Fin 4) (b : BusSight) (alertLow : Bool) (s : State) : State :=
  if !s.den.up || underWay s.twb.ports[p] then s
  else
    let s1 := portSees p b alertLow s
    if s1.twb.ports[p].bus ≠ .free then s1
    else if s1.twb.ports[p].again then nextAttempt p s1
    else chooseNext p s1

/-- SCL held low for TIMEOUT: recovery is needed (R319). -/
def twbTimeout (p : Fin 4) (acked : Nat) (addr : Bool) (s : State) : State :=
  match s.twb.ports[p].item.bind (findItem s) with
  | none => s
  | some it =>
    if !underWay s.twb.ports[p] || !rbit s (twbReg p 0) 3 || xWrites s it < acked || (!addr && acked ≠ 0) then s
    else xRetry p 0x18 acked addr (modPort p (fun x => { x with needRecovery := true }) (countReg (twbReg p 0x1C) 31 16 1 s))

/-- The port learns that its item has ended or begun. -/
def afterBegin (p : Fin 4) (a : Word) (s : State) : State :=
  if (findItem s a).isNone && s.twb.ports[p].item = some a then portIdle p s else s

/-- TWB_XFER begins work. -/
def twbXfer (a : Word) (buf : ItemRead) (s : State) : State :=
  match findItem s a with
  | none => s
  | some it0 =>
    let p := portOf it0
    if it0.opcode ≠ 0x38 || !itsTurn s a then s
    else afterBegin p a (beginWork 0x38 a (fun it t =>
      if xBad it then refuseOperand a t
      else if portOff t p then complete a .refusedState 0x10 0 t
      else if xBuffer it then complete a .refusedFormat 0x10 0 t
      else
        let go := fun (data : List Byte) (u : State) =>
          attempt p (modPort p (fun x => { x with item := some a, attempts := 0, arbLosses := 0, retries := 0, wdata := data.take (xWlen it),
                                                  lastSweep := false }) (commitStart it u))
        if !xBuf it then go (bytesOf (it.ops.toList.drop 2)) t
        else if xWlen it = 0 then go [] t
        else itemRead a 6 (xTo it) (xWlen it) buf (fun ws u => go (bytesOf ws) u) t) s)

/-- The round that a TWB_CENSUS asks for; FIRST and LAST both 0 mean every address. -/
def roundOf (a : Word) (it : Item) : Census :=
  let f := fld (opv it 5) 6 0
  let l := fld (opv it 5) 14 8
  let whole := f = 0 && l = 0
  let first := if whole then 0x08 else f
  { item := some a, write := bit (opv it 4) 8, first := first, last := if whole then 0x77 else l, next := first, acked := 0, created := 0 }

/-- TWB_CENSUS begins work, or goes on with its round. -/
def twbCensus (a : Word) (answers : List ProbeAnswer) (s : State) : State :=
  match findItem s a with
  | none => s
  | some it0 =>
    let p := portOf it0
    if it0.opcode ≠ 0x39 || !itsTurn s a then s
    else match s.twb.ports[p].census.filter (fun c => decide (c.item = some a)) with
      | some c => roundRuns p c answers s
      | none => afterBegin p a (beginWork 0x39 a (fun it t =>
        let c := roundOf a it
        if c.last < c.first || c.first < 0x08 || 0x77 < c.last then refuseOperand a t
        else if portOff t p then complete a .refusedState 0x10 0 t
        else roundRuns p c answers (modPort p (fun x => { x with lastSweep := false }) (commitStart it t))) s)

/-- The port has chosen the periodic round. -/
def roundChosen (s : State) (p : Fin 4) : Bool :=
  mayOperate s p && s.twb.ports[p].op = .census && s.twb.ports[p].item.isNone && (roundDue s p).isSome

/-- The periodic round: what is left of it, or a new one in CMODE over 0x08 to 0x77. -/
def periodicRound (s : State) (p : Fin 4) : Census :=
  (s.twb.ports[p].census.filter (fun c => c.item.isNone)).getD
    { item := none, write := rbit s (twbReg p 4) 16, first := 0x08, last := 0x77, next := 0x08, acked := 0, created := 0 }

/-- CENSUS_PER has passed: a round is due, in FULL and OUTAGE only; once the port has chosen it, it runs (R312, R325). -/
def periodicCensus (p : Fin 4) (answers : List ProbeAnswer) (s : State) : State :=
  if roundChosen s p then roundRuns p (periodicRound s p) answers s
  else if s.den.up && !portOff s p && !outputsReset s && (s.pwr.pstate = .full || s.pwr.pstate = .outage) &&
      rfld s (twbReg p 4) 15 0 ≠ 0 && s.twb.ports[p].due.isNone then
    modPort p (fun x => { x with due := some s.jnl.head }) s
  else s

/-! ### Recovery (R320) -/

/-- The port runs recovery: not over another controller's traffic, and on a port that is stuck also while it is held or
isolated, for nothing else ends the cause (R320, R326; DEDUCED, notes/assumptions/78.md). -/
def mayRecover (s : State) (p : Fin 4) : Bool :=
  let x := s.twb.ports[p]
  s.den.up && !outputsReset s && rbit s (twbReg p 0) 0 && x.bus ≠ .busy && (x.op = .idle || x.op = .recover) &&
    (stuck s p || (!portOff s p && !held s (portSrc p)))

/-- A recovery has run; SDA and SCL as they stand after it. -/
def recovery (p : Fin 4) (sclHigh sdaHigh : Bool) (s : State) : State :=
  let x := s.twb.ports[p]
  if !mayRecover s p then s
  else
    let s1 := countReg (twbReg p 0x1C) 15 0 1 (rootWake s)
    if !sclHigh then raiseOnce (portSrc p) 2 (modPort p (fun y => { y with op := .recover, stuckScl := true, needRecovery := true }) s1)
    else
      let s2 := emit (.recovery p.val) s1
      if !sdaHigh then raiseOnce (portSrc p) 1 (modPort p (fun y => { y with op := .recover, stuckSda := true, needRecovery := true }) s2)
      else
        let s3 := endCause (portSrc p) 1 (endCause (portSrc p) 2
          (modPort p (fun y => { y with op := .idle, stuckSda := false, stuckScl := false, needRecovery := false, bus := .free }) s2))
        let s4 := event 0x0E05 0 p.val 0 0 s3
        if x.item.isSome && 0 < x.attempts then attempt p s4 else modPort p (fun y => { y with item := none }) s4

/-- An item has waited 1 s while the port is stuck. -/
def busStuck (p : Fin 4) (s : State) : State :=
  if !stuck s p then s
  else match s.twb.ports[p].item.or (readyOn s p) with
    | none => s
    | some a =>
      if censusItem s p = some a then
        complete a .failed 0x17 0 (modPort p (fun x => { x with census := none, item := none }) s)
      else xFail p 0x17 false (modPort p (fun x => { x with item := some a }) s)

/-! ### Alerts (R321, R322) -/

/-- Address `a` has answered with an alert. -/
def alertFrom (p : Fin 4) (a : Nat) (s : State) : State :=
  let k := partnerSlot p a
  match partnerAt s k with
  | some _ =>
    event 0x0E01 (handleOf s 6 k) p.val a 0 (modPartner k (fun x => { x with alerts := BitVec.ofNat 16 (satAdd 16 x.alerts.toNat 1) }) s)
  | none =>
    let s1 := event 0x0E01 0 p.val a 0 s
    if rbit s (twbReg p 0) 6 then modPartner k (fun x => { x with alerts := 1 }) (findPartner p a .alert s1) else s1

/-- One round. -/
def alertRound (p : Fin 4) (s0 : State) (r : AlertRound) : State :=
  let s := countReg (twbReg p 0x18) 15 0 1 s0
  match r with
  | .nack => s
  | .read b c =>
    if (rbit s (twbReg p 0) 5 && c ≠ pec [0x19, b]) || !addrOk (b.toNat / 2) then s else alertFrom p (b.toNat / 2) s

/-- Rounds up to the first that 0x0C does not acknowledge, `most` at most. -/
def roundsRun (most : Nat) (l : List AlertRound) : List AlertRound :=
  match (l.take most).span (fun r => r ≠ .nack) with
  | (a, b) => a ++ b.take 1

/-- ALERT_N is low: rounds of a sweep, which the port has chosen or which is next on the idle port. ALERT_N high, a NACK or the
16th round ends it, the last two with ALERT_N still low in an alert hold; else it goes on. -/
def alertSweep (p : Fin 4) (rounds : List AlertRound) (stillLow : Bool) (s : State) : State :=
  let x := s.twb.ports[p]
  let mine := x.op = .sweep || (x.op = .idle && !x.needRecovery && !sweepYields s p)
  if !mayOperate s p || !mayWatch s p || !mine then s
  else
    let l := roundsRun (16 - x.rounds) rounds
    let ends := !stillLow || l.contains .nack || decide (16 ≤ x.rounds + l.length)
    let s1 := l.foldl (alertRound p) (l.foldl (fun t _ =>
      emit (.bus p.val 0x0C [] (.bytes (if rbit t (twbReg p 0) 5 then 2 else 1)) false) t) s)
    let s2 := alertSeen p stillLow (modPort p (fun y => { y with
      op := if ends then .idle else .sweep, rounds := if ends then 0 else x.rounds + l.length, lastSweep := true }) s1)
    if ends && stillLow then
      raiseOnce (portSrc p) 3 (countReg (twbReg p 0x18) 31 16 1 (modPort p (fun y => { y with alertHold := true }) s2))
    else s2

/-- ALERT_HOLD has passed. -/
def alertHoldEnd (p : Fin 4) (stillLow : Bool) (s : State) : State :=
  if !s.twb.ports[p].alertHold then s
  else
    let s1 := modPort p (fun x => { x with alertHold := false }) s
    if inHush s then s1 else alertSeen p stillLow s1

/-! ### Commands -/

def execTwbXfer (a : Word) (buf : ItemRead) (s : State) : Out := .next (twbXfer a buf s)
def execTwbCensus (a : Word) (answers : List ProbeAnswer) (s : State) : Out := .next (twbCensus a answers s)
def execTwbOperationStart (p : Fin 4) (sees : BusSight) (alertLow : Bool) (s : State) : Out :=
  .next (operationStart p sees alertLow s)
def execTwbAttemptEnd (p : Fin 4) (e : AttemptEnd) (s : State) : Out := .next (attemptEnd p e s)
def execTwbTimeout (p : Fin 4) (acked : Nat) (addr : Bool) (s : State) : Out := .next (twbTimeout p acked addr s)
def execTwbRecovery (p : Fin 4) (scl sda : Bool) (s : State) : Out := .next (recovery p scl sda s)
def execTwbBusStuck (p : Fin 4) (s : State) : Out := .next (busStuck p s)
def execAlertSweep (p : Fin 4) (rounds : List AlertRound) (low : Bool) (s : State) : Out := .next (alertSweep p rounds low s)
def execAlertHoldEnd (p : Fin 4) (low : Bool) (s : State) : Out := .next (alertHoldEnd p low s)
def execPeriodicCensus (p : Fin 4) (answers : List ProbeAnswer) (s : State) : Out := .next (periodicCensus p answers s)

end Sys2Proof.Machine
end

