-- ==== Sys2Proof/Machine/FaultCmds.lean ====
section
/-! DEFINITION. Software and the fault sources (21): FAULT_CLEAR (R359, R360), FAULT_REACTION_SET and FLT_REACT (R361),
the collectors' W1C bits (R358), and the end of causes that outside conditions hold (R349). -/

namespace Sys2Proof.Machine

/-! ### FAULT_CLEAR -/

/-- The pull-up is connected while VBUS stands, EN is set and nothing holds the port off (R327, R352, 19); not in Reset, where
the port stands detached (R18). -/
def usbMay (s : State) : Bool := !inReset s && s.usb.vbus && rbit s 0x9000 0 && !isolated s 176 && !isPresent s 176 1

def usbReattach (s : State) : State :=
  if s.usb.attached || !usbMay s then s else event 0x0F01 0 0 1 0 (modUsb (fun u => { u with attached := true }) s)

/-- A rail leaves FAULTED for OFF; remote sense comes back, and with it the windows (R176, R179). -/
def railCleared (r : Fin 48) (s : State) : State :=
  let s0 := match s.rails[r] with
    | some x => if x.state = .faulted then release (.rail r.val) s else s
    | none => s
  let s1 := modRail r (fun x => { x with
    state := if x.state = .faulted then .off else x.state,
    senseLost := false, senseFrozen := false, frozen := false, corrHist := if x.frozen then [x.corr] else x.corrHist,
    rsActive := if x.senseLost || x.senseFrozen then x.rsEn && decide (x.state = .on) else x.rsActive }) s0
  s1

/-- A fan FAULTED restarts through SPINUP; one held by TACH_LOST resumes toward its target (R255, R256). -/
def fanCleared (f : Fin 4) (s : State) : State :=
  match s.fans[f] with
  | none => s
  | some x =>
    if x.state = .faulted then fanApply f (modFan f (fun y => { y with state := .off, tachLost := false }) s)
    else if x.state = .blind || x.tachLost then
      fanApply f (modFan f (fun y => { y with
        tachLost := false, held := false, state := if y.state = .blind && !hot s then .run else y.state,
        demand := if y.runSpeed then y.out / 10 else y.demand }) s)
    else s

/-- What an accepted FAULT_CLEAR does to the object of source `n` (R157, R176, R179, R234, R241, R255, R256). -/
def objectCleared (n vmeas : Nat) (s : State) : State :=
  match fin? 48 n, fin? 48 (n - 48), fin? 48 (n - 96), fin? 2 (n - 144), fin? 4 (n - 146) with
  | some l, _, _, _, _ =>
    if s.lanes[l].state = .stopped then settle (lostEndsOf l (laneReturn l vmeas s)) else s
  | none, some r, _, _, _ => railCleared r s
  | none, none, some k, _, _ => modRelay k (fun x => { x with state := if x.state = .faulted then .idle else x.state }) s
  | none, none, none, some m, _ => modMotor m (fun x => { x with
      state := if x.state = .faulted then .idle else x.state, brake := if x.brake = .faulted then .stopped else x.brake }) s
  | none, none, none, none, some f => fanCleared f s
  | none, none, none, none, none =>
    if n = 151 then arbitrate <| chgUpdate (modChg (fun c => { c with stopped := false }) s)
    else if n = 176 then usbReattach s
    else s

/-- R360: the source is CLEAR, its reactions are withdrawn, its object is told, FAULT_CLEARED. -/
def clearSource (n : Fin 192) (vmeas : Nat) (s : State) : State :=
  let s1 := shedFollow s (modSrc n (fun x => { x with faulted := false, latched := 0 }) s)
  event 0x1102 0 n.val 0 0 (objectCleared n.val vmeas s1)

/-- RESULT of FAULT_CLEAR: causes present and causes latched before the item. -/
def causesResult (s : State) (n : Nat) : DWord :=
  dword ((causesOf s n).present.setWidth 32 ||| ((causesOf s n).latched.setWidth 32 <<< 16)) 0

/-- UV of Lift ends with FAULT_CLEAR, though ACC may still be low, and so does PRE_TMO (R230). -/
def clearEnds (n : Nat) (s : State) : State := if n = 154 then endCause 154 3 s else if n = 151 then endCause 151 1 s else s

/-- FAULT_CLEAR (0x68). -/
def faultClear (a : Word) (vmeas : Nat) (s : State) : State :=
  beginWork 0x68 a (fun it t =>
    let n := fld (opv it 4) 7 0
    match fin? 192 n with
    | none => refuseOperand a t
    | some k =>
      let res := causesResult t n
      if 185 < n then refuseOperand a t
      else if !faulted t n then complete a .done 0x11 res (clearSource k vmeas (commitStart it t))
      else if (clearEnds n t).flt.src[k].present ≠ 0 then complete a .refusedState 0x10 res t
      else complete a .done 0 res (clearSource k vmeas (clearEnds n (commitStart it t)))) s

/-! ### FAULT_REACTION_SET -/

def sourcesFrom (first last : Nat) : List (Fin 192) := (fins 192).filter (fun n => first ≤ n.val && n.val ≤ last)

/-- FAULT_REACTION_SET (0x69). -/
def faultReactionSet (a : Word) (s : State) : State :=
  beginWork 0x69 a (fun it t =>
    let first := fld (opv it 4) 7 0
    let last := fld (opv it 4) 15 8
    let mask := opv it 5 &&& 0x7F
    let ns := sourcesFrom first last
    if last < first || 185 < last then refuseOperand a t
    else if bit mask 1 && ns.any (fun n => !offersIsolate n.val) then complete a .refusedFormat 0x10 0 t
    else if bit mask 4 && ns.any (fun n => !offersHold n.val) then complete a .refusedFormat 0x11 0 t
    else if bit mask 2 && fld mask 6 5 = 0 then complete a .refusedLeash 0 0 t
    else
      let changed := (ns.filter (fun n => (reactOf t n.val &&& 0x7F) ≠ mask)).length
      complete a .done 0 (BitVec.ofNat 64 changed) (ns.foldl (fun u n => setReact n mask u) (commitStart it t))) s

/-- A write to FLT_REACT: in SETUP it is journaled and acts as the item does, and is never refused (R361). Elsewhere
it changes nothing and counts as a locked write (R39). -/
def fltReactStore (n : Fin 192) (m v : Word) (s : State) : State :=
  let o := 0x0C00 + 4 * n.val
  if setupWrites s then setReact n (merged s o (m &&& 0x7F) v) (setupRecord o v s)
  else if countsLocked s o { accRO with rws := 0x7F } v then lockCount o s
  else s

/-! ### The collectors (R358) -/

/-- Writing 1 to HEAD_VALID removes the head; in FIRST mode that re-arms the collector. -/
def headClear (c : Fin 2) (s : State) : State := modColl c (fun x => { x with entries := x.entries.drop 1 }) s

def overflowEnds (c : Fin 2) (s : State) : State := modColl c (fun x => { x with overflow := false }) s

/-! ### Ends of causes (R349) -/

/-- Causes that a condition outside the hub holds, and that end when it ends: source and detail. -/
def outsideCause (n d : Nat) : Bool :=
  (n < 48 && (d = 1 || d = 2 || d = 3 || d = 5 || d = 6)) || (48 ≤ n && n < 96 && (1 ≤ d && d ≤ 4)) ||
  ((n = 144 || n = 145) && d = 1) || (146 ≤ n && n < 150 && d = 3) || (n = 150 && (d = 1 || d = 2)) || (n = 151 && d = 3) || (n = 152 && d = 3) ||
  (n = 154 && d = 3) || (n = 155 && (d = 1 || d = 2)) || (n = 171 && d = 3) ||
  (164 ≤ n && n < 168 && d = 3) || (n = 168 && d = 2) || (n = 172 && (d = 1 || d = 2)) || (n = 176 && d = 1)

/-- ALERT_N of the port with source `n` is not looked at: in an alert hold and in HUSH (R18, R322). -/
def alertUnseen (s : State) (n : Nat) : Bool := match fin? 4 (n - 164) with
  | some p => 164 ≤ n && (s.twb.ports[p].alertHold || inHush s)
  | none => false

/-- A full CHAT_WIN has not passed yet without a counted change (R241). -/
def stillChatters (s : State) (n : Nat) : Bool := 144 ≤ n && match nth s.motors (n - 144) none with
  | some x => !(x.recentEdges (now s) x.homeEdges).isEmpty || !(x.recentEdges (now s) x.farEdges).isEmpty
  | none => false

/-- The condition of cause `detail + 1` has ended; ember is judged against a qualified XCLK (R66, R86, R155, R181, R230, R241, R342). -/
def causeEnds (n : Fin 192) (i : Fin 16) (s : State) : State :=
  let d := i.val + 1
  if !outsideCause n.val d || !isPresent s n.val d || (n.val = 171 && !s.clk.xPresent) || alertUnseen s n.val || stillChatters s n.val then s
  else
    let s1 := endCause n.val d s
    if n.val = 152 then modChg (fun c => { c with senseRange := false }) s1
    else if n.val = 168 then modLink (fun l => { l with aer := 0 }) s1 -- the host has cleared every bit of the AER status
    else if n.val = 172 then { s1 with owl := if d = 1 then { s1.owl with wdtStopped := false } else { s1.owl with emberStopped := false } }
    else if n.val = 171 then refSelect s1
    else if 164 ≤ n.val && n.val < 168 then (match fin? 4 (n.val - 164) with
      | some p => modPort p (fun x => { x with alertLow := false }) s1
      | none => s1)
    else if n.val = 176 then usbReattach s1
    else s1

/-! ### Commands -/

def execFaultClear (a : Word) (vmeas : Nat) (s : State) : Out := .next (faultClear a vmeas s)
def execFaultReactionSet (a : Word) (s : State) : Out := .next (faultReactionSet a s)
/-- A write of FLT_CACK, journaled in a granted SETUP (R40). -/
def ackRecord (c : Fin 2) (v : Word) (s : State) : State := setupRecord (0x0F08 + 0x40 * c.val) v s

def execHeadValidClear (c : Fin 2) (s : State) : Out := .next (headClear c (ackRecord c 1 s))
def execOverflowClear (c : Fin 2) (s : State) : Out := .next (overflowEnds c (ackRecord c 2 s))
def execFltReactWrite (n : Fin 192) (v : Word) (s : State) : Out := .next (fltReactStore n 0xFFFFFFFF v s)
def execFaultCauseEnd (n : Fin 192) (i : Fin 16) (s : State) : Out := .next (causeEnds n i s)

end Sys2Proof.Machine
end

