-- ==== Sys2Proof/Machine/House.lean ====
section
/-! DEFINITION. NOP and FENCE (R107), and the objects: HANDLE_CREATE (R115) and HANDLE_DESTROY (R116) over the parameter
checks of each class's chapter. -/

namespace Sys2Proof.Machine

def nop (a : Word) (s : State) : State := beginWork 0x00 a (fun _ t => complete a .done 0 0 t) s
def fence (a : Word) (s : State) : State := beginWork 0x01 a (fun _ t => complete a .done 0 0 t) s

/-! ### Placing an object -/

/-- The counts and times of an object's block begin with the object. -/
def clearRegs (os : List Nat) (s : State) : State := os.foldl (fun t o => setReg o 0 t) s

def placeObject (c slot : Nat) (w : Nat → Word) (s : State) : State :=
  match c, fin? 48 slot, fin? 2 slot, fin? 4 slot, fin? 32 slot with
  | 1, some r, _, _, _ => placeRail r (railOf w false) (clearRegs [0x4038 + 0x40 * slot, 0x403C + 0x40 * slot] s)
  | 2, some n, _, _, _ => setRelay n (some (relayOf w)) (clearRegs [0x5850 + 0x18 * slot, 0x5854 + 0x18 * slot] s)
  | 3, _, some m, _, _ => setMotor m (some (motorOf w)) (clearRegs [0x5CFC + 0x80 * slot] s)
  | 4, _, _, some f, _ => setFan f (some (fanOf w)) (clearRegs [0x607C + 0x70 * slot, 0x6080 + 0x70 * slot] s)
  | 8, _, _, _, some r => setRule r (some (ruleOf w)) s
  | _, _, _, _, _ => s

def setSeq (q : Fin 8) (x : Option Seq) (s : State) : State :=
  { s with adc := { s.adc with seqs := s.adc.seqs.set q.val x q.isLt } }

/-! ### HANDLE_CREATE (R115) -/

/-- Word `n` of the descriptor. -/
def createWord (it : Item) (n : Nat) : Word := opv it n

/-- The slot a creation takes: the one asked for, or the lowest that is free. -/
def createSlot (s : State) (c want : Nat) : Except Refuse Nat :=
  if want = 0xFFFF then
    match (List.range (classSlots c)).find? (fun k => !objThere s (classBase c + k)) with
    | some k => .ok k
    | none => .error (.refusedState, 0x01)
  else if classSlots c ≤ want then .error (.refusedHandle, 1)
  else if objThere s (classBase c + want) then .error (.refusedState, 0x01)
  else .ok want

/-- The object is there: DONE, with its handle in HANDLE and RESULT. -/
def created (a : Word) (c slot : Nat) (s : State) : State :=
  let s1 := noteObject c slot a s
  completeH a .done 0 ((handleOf s1 c slot).setWidth 64) (some (handleOf s1 c slot)) s1

/-- Parameters that the chapter of class `c` refuses, for the classes whose parameters all stand in the descriptor. -/
def paramFault (s : State) (c slot : Nat) (w : Nat → Word) : Option Refuse :=
  match c, fin? 48 slot with
  | 1, some r => railFault s r (railOf w false)
  | 2, _ => if relayFault w then some (.refusedFormat, 7) else none
  | 3, _ => if motorFault w then some (.refusedFormat, 7) else none
  | 4, _ => fanFaultOf (fanOf w)
  | 8, _ => ruleFault s (ruleOf w)
  | _, _ => none

/-- The table that made an object stays with it. -/
def keepTable (a : Word) (ws : List Word) (s : State) : State :=
  modJnl (fun j => { j with tables := j.tables ++ [(a, ws)] }) s

/-- PARTNER (R311): port and address fix the slot. A SLOT of 448 or above is refused OPERAND as any other wrong SLOT is, where R115
would give RANGE (DESIGN CHOICE between the two, notes/assumptions/91.md). -/
def createPartner (a : Word) (it : Item) (s : State) : State :=
  let w5 := opv it 5
  let addr := fld w5 14 8
  let p : Fin 4 := ⟨fld w5 1 0 % 4, by omega⟩
  let k := partnerSlot p addr
  let want := fld (opv it 4) 31 16
  if !addrOk addr || (want ≠ 0xFFFF && want ≠ k) then refuseOperand a s
  else if objThere s (classBase 6 + k) then complete a .refusedState 0x01 0 s
  else created a 6 k (setPartner k (some (newPartner .created (bit w5 16) (bit w5 17)
    (orElse0 (fld (opv it 6) 2 0) (portMissMax s p)))) s)

/-- A graph table whose length or NODES is wrong has no offending node to name: RESULT is free. -/
def graphHeadBad (ws : List Word) (len : Nat) : Bool :=
  let n := fld (ws.getD 0 0) 5 0
  n < 1 || 32 < n || len ≠ 16 + 16 * n

def freeResult (a : Word) (detail : Nat) (s : State) : State :=
  let d := drawNat s
  complete a .refusedFormat detail (BitVec.ofNat 64 (d.1 % 256)) d.2

/-- GRAPH (R182). -/
def createGraph (a : Word) (it : Item) (slot : Nat) (table : ItemRead) (s : State) : State :=
  itemRead a 4 (addrOf (opv it 5) (opv it 6)) (opv it 7).toNat table (fun ws t =>
    let w := fun i => ws.getD i 0
    let len := (opv it 7).toNat
    if graphHeadBad ws len then freeResult a 0x19 t
    else match tableFault w false len, fin? 16 slot with
      | some i, _ => complete a .refusedFormat 0x19 (BitVec.ofNat 64 i) t
      | none, some g => created a 9 slot (setGraph g (some (graphOf w false)) (keepTable a ws t))
      | none, none => t) s

/-- ADCSEQ (R260): the table, then the trigger and cut fields, then a failed read. -/
def createSeq (a : Word) (it : Item) (slot : Nat) (table : ItemRead) (s : State) : State :=
  let len := fld (opv it 7) 7 0
  let n := len / 4
  let operand := seqOperand (opv it 8) (opv it 9) (opv it 10) n
  let readable := dmaOk s && (match table with | .data _ => true | _ => false)
  if len % 4 ≠ 0 || len < 4 || 128 < len then freeResult a 0x10 s
  else if operand && !readable then refuseOperand a s
  else itemRead a 5 (addrOf (opv it 5) (opv it 6)) len table (fun all t =>
    let ws := (List.range n).map (fun i => all.getD i 0)
    match ws.findIdx? entryBad, fin? 8 slot with
    | some i, _ => complete a .refusedFormat 0x10 (BitVec.ofNat 64 i) t
    | none, some q => if operand then refuseOperand a t
        else created a 5 slot (setSeq q (some (seqOf (opv it 8) (opv it 9) (opv it 10) ws)) (keepTable a ws t))
    | none, none => t) s

/-- HANDLE_CREATE (0x08). -/
def handleCreate (a : Word) (table : ItemRead) (s : State) : State :=
  beginWork 0x08 a (fun it t =>
    let c := fld (opv it 4) 3 0
    if c < 1 || 9 < c || c = 7 then refuseOperand a t
    else if c = 6 then createPartner a it t
    else match createSlot t c (fld (opv it 4) 31 16) with
      | .error e => complete a e.1 e.2 0 t
      | .ok slot =>
        if c = 9 then createGraph a it slot table t
        else if c = 5 then createSeq a it slot table t
        else match paramFault t c slot (opv it) with
          | some e => complete a e.1 e.2 0 t
          | none => created a c slot (placeObject c slot (opv it) t)) s

/-! ### HANDLE_DESTROY (R116) -/

/-- An armed BODY item names the handle. -/
def bodyNames (s : State) (h : Word) : Bool := s.eng.items.any (fun i => dormant i && i.handle = h)

/-- Another item stands queued or in progress on the handle. -/
def othersOn (s : State) (h a : Word) : Bool :=
  s.eng.items.any (fun i => decide (i.handle = h) && decide (i.aseq ≠ a) && !dormant i && inLine s i.aseq)

def namedByGraph (s : State) (r : Fin 48) : Bool := s.graphs.toList.any fun g => match g with
  | some g => (railsOf s g).contains r
  | none => false

def cutWaits (s : State) (q : Fin 8) : Bool := s.adc.convs.toList.any fun v =>
  v.queue.any (fun c => c.seq = q) || (match v.cut with | some c => c.seq = q | none => false)

/-- The object is not in a state that its chapter allows for destruction (R188, R237, R249, R325, 13, 14). -/
def destroyFault (s : State) (a h : Word) : Option Nat :=
  let k := hSlot h
  match hClass h with
  | 1 => (match fin? 48 k with
    | some r => (match s.rails[r] with
      | some x => if x.state ≠ .off && x.state ≠ .faulted then some 0x10 else if namedByGraph s r then some 0x11 else none
      | none => none)
    | none => none)
  | 2 => (match fin? 48 k with
    | some n => (match s.relays[n] with
      | some x => if x.state = .pulsing || x.state = .retryGap || x.state = .waiting || othersOn s h a then some 0x10 else none
      | none => none)
    | none => none)
  | 3 => (match nth s.motors k none with
    | some x => if x.state ≠ .idle && x.state ≠ .faulted then some 0x10 else none
    | none => none)
  | 4 => (match nth s.fans k none with
    | some x => if x.state ≠ .off && x.state ≠ .faulted then some 0x10 else none
    | none => none)
  | 5 => (match fin? 8 k with
    | some q => (match s.adc.seqs[q] with
      | some x => if x.running || cutWaits s q then some 0x10 else none
      | none => none)
    | none => none)
  | 6 => if othersOn s h a then some 0x10 else none
  | 9 => (match nth s.graphs k none with
    | some g => if isRunning g then some 0x12 else none
    | none => none)
  | _ => none

/-- The object leaves its slot and releases what it held; a rule's action is withdrawn (R294). -/
def removeObject (c k : Nat) (s : State) : State :=
  match c, fin? 48 k, fin? 2 k, fin? 4 k, fin? 8 k, fin? 16 k, fin? 32 k with
  | 1, some r, _, _, _, _, _ => removeRail r s
  | 2, some n, _, _, _, _, _ => setRelay n none (release (.relay k) (withdrawDemand (.relay k) s))
  | 3, _, some m, _, _, _, _ => setMotor m none (release (.motor k) (withdrawDemand (.motor k) s))
  | 4, _, _, some f, _, _, _ => setFan f none (release (.fan k) (withdrawDemand (.fan k) (withdrawFan f s)))
  | 5, _, _, _, some q, _, _ => setSeq q none s
  | 6, _, _, _, _, _, _ => setPartner k none s
  | 8, _, _, _, _, _, some r => setRule r none s
  | 9, _, _, _, _, some g, _ => setGraph g none (modPwr (fun p => { p with upOrder := p.upOrder.filter (· ≠ k) }) s)
  | _, _, _, _, _, _, _ => s

/-- HANDLE_DESTROY (0x09). -/
def handleDestroy (a : Word) (s : State) : State :=
  beginWork 0x09 a (fun it t =>
    let h := it.handle
    if bodyNames t h then complete a .refusedState 0x03 0 t
    else match destroyFault t a h with
      | some d => complete a .refusedState d 0 t
      | none => ruleEffects t (completeBehind a .done 0 0 (endObject (hClass h) (hSlot h) (removeObject (hClass h) (hSlot h) t)))) s

/-! ### Commands -/

def execNop (a : Word) (s : State) : Out := .next (nop a s)
def execFence (a : Word) (s : State) : Out := .next (fence a s)
def execHandleCreate (a : Word) (table : ItemRead) (s : State) : Out := .next (handleCreate a table s)
def execHandleDestroy (a : Word) (s : State) : Out := .next (handleDestroy a s)

end Sys2Proof.Machine
end

