-- ==== Sys2Proof/Machine/Armed.lean ====
section
/-! DEFINITION. ARM and DISARM (R140, R142, R143), TIME triggers (R63, R140), the end of a DELAY. -/

namespace Sys2Proof.Machine

/-! ### ARM -/

/-- All its BODY items have come, or one that was due did not (R142). -/
def armReady (it : Item) : Bool := armCount it ≤ it.bodySeen || it.bodyFail = 1 || it.bodyFail = 3

/-- The slot that watches for an ARM's trigger. -/
def slotOf (it : Item) (h : Word) : ArmedSlot :=
  { aseq := it.aseq, trigger := BitVec.ofNat 4 (fld (opv it 4) 3 0), cond := opv it 5,
    time := (dword (opv it 6) (opv it 7)).setWidth 48, delay := fld (opv it 8) 15 0, handle := h, due := none, fired := false }

/-- The operands that R142 refuses. An EDGE of 0b00 with TRIGGER COMPARATOR, which R140 does not list and R142 does not name, is
refused with them (DESIGN CHOICE, notes/assumptions/57.md). -/
def armOperand (it : Item) : Bool :=
  let trig := fld (opv it 4) 3 0
  trig < 1 || 6 < trig || armCount it < 1 || 8 < armCount it ||
    (trig = 3 && fld (opv it 5) 7 0 = 0) || (trig = 5 && fld (opv it 5) 9 8 = 0)

/-- BODY items whose ARM or slot is gone complete CANCELLED. -/
def cancelBodies (arm : Word) (detail : Nat) (s : State) : State :=
  (bodiesOf s arm).foldl (fun t b => complete b .cancelled detail 0 t) s

def armRefused (a : Word) (v : Verdict) (detail : Nat) (s : State) : State := cancelBodies a 0 (complete a v detail 0 s)

/-- A TIME already past fires at once. -/
def timePast (s : State) (x : ArmedSlot) : Bool := x.trigger = 4 && !laterT x.time (now s)

/-- The lowest free slot takes the ARM. -/
def armTakes (a : Word) (it : Item) (k : Fin 64) (s : State) : State :=
  let x := slotOf it (handleOf s 7 k.val)
  let s1 := created a 7 k.val (setArmed k (some x) s)
  if timePast s1 x then fireSlot k (now s1) s1 else s1

/-- ARM (0x60). R142 gives no order among its outcomes: the model judges the operands before the BODY items (DESIGN CHOICE,
notes/assumptions/58.md). -/
def arm (a : Word) (s : State) : State :=
  if !itemAt s a armReady then s
  else beginWork 0x60 a (fun it t =>
    if armOperand it then armRefused a .refusedFormat 7 t
    else if it.bodyFail = 1 then armRefused a .refusedFormat 6 t
    else if 2 ≤ it.bodyFail then armRefused a .refusedState 0x10 t
    else match (fins 64).find? (fun k => (t.eng.armed[k]).isNone) with
      | none => armRefused a .refusedState 0x01 t
      | some k =>
        if 128 < armedBodies t + (bodiesOf t a).length then armRefused a .refusedState 0x11 t
        else armTakes a it k t) s

/-! ### DISARM (R143) -/

/-- The slot ends, if the end of its last BODY item has not ended it. -/
def slotGone (k : Fin 64) (s : State) : State :=
  if (s.eng.armed[k]).isSome && !ending s (classBase 7 + k.val) then endObject 7 k.val s else s

/-- DISARM (0x61). -/
def disarm (a : Word) (s : State) : State :=
  beginWork 0x61 a (fun it t => match fin? 64 (hSlot it.handle) with
    | none => t
    | some k => match t.eng.armed[k] with
      | none => t
      | some x =>
        if x.fired then complete a .refusedState 0x12 0 t
        else completeBehind a .done 0 0 (slotGone k (cancelBodies x.aseq 0 t))) s

/-! ### Triggers and delays -/

/-- DEN_TIME has reached the TIME of armed slots. -/
def timeTrigger (s : State) : State := fireAll (fun x => timePast s x) (now s) s

/-- DELAY after the trigger has passed: the BODY items enter their queues. -/
def armDelayExpiry (k : Fin 64) (s : State) : State :=
  match s.eng.armed[k] with
  | some x => if x.fired && x.due.isSome && s.den.up then startAll (releaseBodies k x (rootWake s)) else s
  | none => s

/-! ### Commands -/

def execArm (a : Word) (s : State) : Out := .next (arm a s)
def execDisarm (a : Word) (s : State) : Out := .next (disarm a s)
def execTimeTrigger (s : State) : Out := .next (timeTrigger s)
def execArmDelayExpiry (k : Fin 64) (s : State) : Out := .next (armDelayExpiry k s)

end Sys2Proof.Machine
end

