-- ==== Sys2Proof/Machine/JournalCmds.lean ====
section
/-! DEFINITION. Reading the journal and writing the boot image (R144 to R146), reinstatement of a bank (R136). -/

namespace Sys2Proof.Machine

/-! ### JOURNAL_READ (R144) -/

/-- Records of one bank, oldest first. -/
def bankRecs (s : State) (b : Fin 2) : List (List Word) :=
  sortBy (fun x y => decide ((s.jnl.head - recSeq y).toNat ≤ (s.jnl.head - recSeq x).toNat))
    ((if b = 0 then s.jnl.bankA else s.jnl.bankB).slots.map (·.2))

/-- The records that a reading from `first` gives, at most `n`. -/
def recordsFrom (s : State) (b : Fin 2) (first : Word) (n : Nat) : List (List Word) :=
  ((bankRecs s b).filter (fun w => !later32 first (recSeq w))).take n

/-- The RECSEQ from which a following read continues. -/
def nextRec (s : State) (ws : List (List Word)) : Word := match ws.getLast? with
  | some w => recSeq w + 1
  | none => s.jnl.head + 1

/-- JOURNAL_READ (0x72). -/
def journalRead (a : Word) (s : State) : State :=
  beginWork 0x72 a (fun it t =>
    let what := fld (opv it 4) 1 0
    let count := (opv it 6).toNat
    let buf := addrOf (opv it 7) (opv it 8)
    let len := (opv it 9).toNat
    let b : Fin 2 := if bit (opv it 4) 8 then 1 else 0
    if what = 3 || (what = 0 && (count < 1 || 2048 < count)) then refuseOperand a t
    else if !aligned buf 64 || len < (if what = 0 then 64 else 8192) then complete a .refusedFormat 0x10 0 t
    else if what = 0 && !bankIn t b then complete a .refusedState 0x10 0 t
    else
      let t1 := commitStart it t
      let rs := if what = 0 then recordsFrom t1 b (opv it 5) (min count (len / 64)) else []
      let ws := if what = 0 then rs.flatten else imgWords t1 (what - 1)
      if !ws.isEmpty && !dmaOk t1 then failDma a 2 5 t1
      else
        let t2 := memWords buf ws t1
        complete a .done 0 (if what = 0 then dword (BitVec.ofNat 32 rs.length) (nextRec t1 rs) else 8192) t2) s

/-! ### The checks of an image (R145) -/

def imageSeq (ws : List Word) : Word := wd ws 1
def imageLayout (ws : List Word) : Bool := wd ws 0 = 0x4E424931 && wd ws 2 = 1
def imageCrc (ws : List Word) : Bool := wd ws 3 = crc32 (ws.drop 4)

/-- The image MAC under a key: over all words with the CRC word taken as zero. -/
def imageMac (k : KeySlot) (ws : List Word) : DWord := mac64 (keyBytes k) ((ws.set 3 0).flatMap wordBytes)

/-- IMGSEQ exceeds that of every good copy. -/
def imageNewer (s : State) (ws : List Word) : Bool :=
  [0, 1].all (fun c => !goodImage (imgWords s c) || decide (imgWord s c 1 < imageSeq ws))

/-- The fused key of a slot fits the MAC. -/
def macFits (s : State) (k : Fin 4) (ws : List Word) (mac : DWord) : Bool :=
  let x := s.eng.keys[k]
  x.fused && !x.fusing && decide (imageMac x ws = mac)

/-! ### Writing both copies -/

/-- The words of a copy as the state holds them. -/
def imageContent (ws : List Word) : Sparse Word :=
  ((List.range 2048).map (fun k => (k, wd ws k))).filter (fun e => e.2 ≠ 0)

def setImage (c : Nat) (m : Sparse Word) (s : State) : State :=
  modJnl (fun j => if c = 0 then { j with image0 := m } else { j with image1 := m }) s

/-- A copy whose write failed: its words are open. -/
def spoilImage (c : Nat) (s : State) : State :=
  setImage c (imageContent ((List.range 2048).map (fun k => Config.freeWord (s.freeIx + k)))) { s with freeIx := s.freeIx + 2048 }

/-- The copy that is written first: the one not in use. -/
def firstCopy (s : State) : Nat := match s.jnl.inUse with
  | some c => 1 - c.val
  | none => 0

/-- Both copies take the image; or one write fails, the second one only after the first has succeeded. Which of the two
failed is open. -/
def writeCopies (ws : List Word) (ok : Bool) (s : State) : State :=
  let c := firstCopy s
  if ok then setImage (1 - c) (imageContent ws) (setImage c (imageContent ws) s)
  else
    let d := drawNat s
    if d.1 % 2 = 0 then spoilImage c d.2 else spoilImage (1 - c) (setImage c (imageContent ws) d.2)

/-- The 2,048 words of an image (R145). -/
def imageWords (all : List Word) : List Word := (List.range 2048).map (wd all)

/-- BOOT_IMAGE_WRITE (0x71). R145 gives no verdict for an address that is not 64-byte aligned: the model reads the image from it
as it stands (DESIGN CHOICE, notes/assumptions/84.md). -/
def bootImageWrite (a : Word) (image : ItemRead) (verified : Bool) (s : State) : State :=
  beginWork 0x71 a (fun it t => itemRead a 7 (addrOf (opv it 4) (opv it 5)) 8192 image (fun all u =>
    let ws := imageWords all
    if !imageLayout ws then complete a .refusedFormat 0x11 0 u
    else if !imageCrc ws then complete a .refusedFormat 0x10 0 u
    else if !macFits u (keySlot it.flags) ws (dword (opv it 6) (opv it 7)) then complete a .refusedAuth 0x10 0 u
    else if !imageNewer u ws then complete a .refusedFormat 0x12 0 u
    else
      let u1 := writeCopies ws verified (commitStart it u)
      if verified then complete a .done 0 ((imageSeq ws).setWidth 64) u1 else complete a .failed 0x13 0 u1) t) s

/-! ### The register form (R146) -/

/-- A write that the interface state does not let take effect: counted as R39 says. -/
def lockedWrite (o : Nat) (v : Word) (s : State) : State :=
  if countsLocked s o ((regAccess o).getD accRO) v then lockCount o s else s

def biResult (r : BiResult) (s : State) : State := modJnl (fun j => { j with biResult := r }) s

/-- COMMIT: a short image, then the checks in the order of R145; where all pass, the writing starts. R146 gives the short image no
place in that order (DESIGN CHOICE, notes/assumptions/85.md). -/
def biCommitNow (k : Fin 4) (s : State) : State :=
  let ws := (List.range 2048).map (fun i => spGet (fun _ => 0) s.jnl.biWords i)
  let anyFused := s.eng.keys.toList.any (·.fused)
  if s.jnl.biPtr < 2048 then biResult .short s
  else if !imageLayout ws then biResult .layout s
  else if !imageCrc ws then biResult .crc s
  else if anyFused && !macFits s k ws s.jnl.biMac then biResult .mac s
  else if !imageNewer s ws then biResult .old s
  else modJnl (fun j => { j with biBusy := true, biResult := .none }) s

/-- The key slot that JNL_BICTL names. -/
def biKey (s : State) : Fin 4 := ⟨rfld s 0x0840 5 4 % 4, by omega⟩

/-- A write of the WO and RWS fields `m` of JNL_BICTL. While BUSY the register form takes no write (R146 names no such lock:
DESIGN CHOICE, notes/assumptions/85.md). -/
def biCtlStore (m v : Word) (s : State) : State :=
  if s.jnl.biBusy then s
  else
    let s1 := storeFields 0x0840 (m &&& 0x30) v s
    match fld (v &&& m) 1 0 with
    | 1 => modJnl (fun j => { j with biPtr := 0, biWords := [], biResult := .none }) s1
    | 2 => biCommitNow (biKey s1) s1
    | _ => s1

/-- A write to JNL_BIDATA: words beyond 2,048 are ignored. -/
def biDataStore (v : Word) (s : State) : State :=
  if s.jnl.biBusy || 2048 ≤ s.jnl.biPtr then s
  else modJnl (fun j => { j with biWords := spSet (fun _ => 0) j.biWords j.biPtr v, biPtr := j.biPtr + 1 }) s

def biMacStore (hi : Bool) (v : Word) (s : State) : State :=
  if s.jnl.biBusy then s
  else modJnl (fun j => { j with biMac := if hi then dword (loW j.biMac) v else dword v (hiW j.biMac) }) s

/-- A register write that takes effect in SETUP, journaled while it is a granted one; otherwise it is a locked write. -/
def inSetup (o : Nat) (v : Word) (f : State → State) (s : State) : State :=
  if setupWrites s then f (setupRecord o v s) else lockedWrite o v s

/-- A JNL_BICTL write with CMD `c`. -/
def biCtl (c : Nat) (v : Word) (s : State) : State :=
  if fld v 1 0 = c then inSetup 0x0840 v (biCtlStore 0xFFFFFFFF v) s else s

/-! ### Reinstatement (R136) -/

/-- JNL_CTL: REINSTATE of a bank out of service; a second one follows the first. -/
def reinstate (b : Fin 2) (s : State) : State :=
  if bankIn s b || s.jnl.reinstating.contains b then s else modJnl (fun j => { j with reinstating := j.reinstating ++ [b] }) s

def jnlCtlStore (v : Word) (s : State) : State :=
  let s1 := if bit v 0 then reinstate 0 s else s
  if bit v 1 then reinstate 1 s1 else s1

def reinstateBit (b : Fin 2) (s : State) : State :=
  inSetup 0x0804 (flag b.val true) (jnlCtlStore (flag b.val true)) s

/-- The copy has been verified, or not. -/
def reinstateDone (ok : Bool) (s : State) : State :=
  match s.jnl.reinstating with
  | [] => s
  | b :: rest =>
    let s1 := modJnl (fun j => { j with reinstating := rest }) s
    if !ok then raise (169 + b.val) 3 s1
    else
      let log := recs s1
      let s2 := modBank b (fun _ => { inService := true, slots := log }) s1
      let s3 := [1, 2, 3].foldl (fun t d => endCause (169 + b.val) d t) s2
      event 0x0405 0 b.val 0 0 (commit (bankRec s3) s3)

/-! ### Commands -/

def execJournalRead (a : Word) (s : State) : Out := .next (journalRead a s)
def execBootImageWrite (a : Word) (image : ItemRead) (verified : Bool) (s : State) : Out :=
  .next (bootImageWrite a image verified s)
def execBiOpen (v : Word) (s : State) : Out := .next (biCtl 1 v s)
def execBiDataWrite (v : Word) (s : State) : Out := .next (inSetup 0x0844 v (biDataStore v) s)
def execBiCommit (v : Word) (s : State) : Out := .next (biCtl 2 v s)
def execReinstateA (s : State) : Out := .next (reinstateBit 0 s)
def execReinstateB (s : State) : Out := .next (reinstateBit 1 s)
def execReinstateDone (ok : Bool) (s : State) : Out := .next (reinstateDone ok s)

end Sys2Proof.Machine
end

