-- ==== Sys2Proof/Machine/Grants.lean ====
section
/-! DEFINITION. Service grants: SERVICE_GRANT (R333), how a grant ends (R334, R40), the acknowledgement of service
completions (R336). -/

namespace Sys2Proof.Machine

/-- CLASS of SVC_GRANT: 0 REVOKE, 1 RING, 2 SETUP. -/
def GrantClass.code : GrantClass → Nat
  | .ring => 1
  | .setup => 2

/-- Descriptors of the service ring that are not accepted are discarded, and those that an ARM still waited for. -/
def dropServiceJobs (s : State) : State :=
  armLoses s.usb.due (modJnl (fun j => { j with queue := j.queue.filter (fun x => decide (jobRing x ≠ 16)) }) s)

/-- Service completions that no tool has acknowledged count as acknowledged. -/
def dropSending (s : State) : State :=
  let as := s.usb.sending.map (·.aseq)
  modJnl (fun j => { j with acked := j.acked ++ as })
    (modEng (fun e => { e with comps := e.comps.filter (fun c => decide (c.cq ≠ 16)) })
      (modUsb (fun u => { u with sending := [] }) s))

/-- A SETUP grant's end returns the hub to RUN, and an LTR message tells of it (R76); for the Host Owl it is an entry to RUN
(R338). -/
def leaveGranted (s : State) : State :=
  if s.pwr.iface = .granted then sendLtr (owlRunEntry (modPwr (fun p => { p with iface := .run }) s)) else s

/-- The grant ends with a cause: 1 EXPIRED, 2 REVOKED, 3 DETACHED, 4 REPLACED, 5 RESET. -/
def endGrant (cause : Nat) (s : State) : State :=
  match s.usb.grant with
  | none => s
  | some _ =>
    let lost := s.usb.sending.length
    let s1 := dropSending (dropServiceJobs (leaveGranted s))
    event 0x0F03 0 0 cause (BitVec.ofNat 64 lost)
      (modUsb (fun u => { u with grant := none, ringPos := 0, due := { arm := none, left := 0, refused := false } }) s1)

/-- The new grant. -/
def newGrant (it : Item) (cls : GrantClass) (ends : Time) (s : State) : State :=
  let s1 := modUsb (fun u => { u with grant := some { cls := cls, ends := ends, opmask := opv it 6, from_ := s.jnl.head },
                                      ringPos := 0, due := { arm := none, left := 0, refused := false } }) s
  if cls = .setup then modPwr (fun p => { p with iface := .granted }) s1 else s1

/-- SERVICE_GRANT (0x78). -/
def serviceGrant (a : Word) (s : State) : State :=
  beginWork 0x78 a (fun it t =>
    let c := fld (opv it 4) 1 0
    let d := fld (opv it 5) 15 0
    let ends : Time := it.began + BitVec.ofNat 48 (d * 1000000)
    if c = 3 || (c ≠ 0 && (d < 1 || 28800 < d)) then refuseOperand a t
    else if !rbit t 0x9000 0 then complete a .refusedState 0x10 0 t
    else
      let t1 := endGrant (if c = 0 then 2 else 4) t
      let t2 := if c = 0 then t1 else newGrant it (if c = 1 then .ring else .setup) ends t1
      let res : DWord := if c = 0 then 0 else ends.setWidth 64
      event 0x0F02 0 0 c res (complete a .done 0 res t2)) s

/-- A grant ends at its expiry, or once VBUS has been absent for 5 s. -/
def grantEnds (s : State) : State :=
  match s.usb.grant with
  | none => s
  | some g => if !laterT g.ends (now s) then endGrant 1 s else if !s.usb.vbus then endGrant 3 s else s

/-- The USB host has acknowledged the IN packet of the oldest completion: its ACK is journaled with CQ 0x10. The index in
that record counts the packets (notes/assumptions/39.md). -/
def serviceAck (s : State) : State :=
  match s.usb.sending with
  | [] => s
  | c :: rest =>
    let s1 := modUsb (fun u => { u with sending := rest }) s
    let s2 := modEng (fun e => { e with comps := e.comps.filter (fun x => x ≠ c) }) s1
    let s3 := if c.verdict = .deferred then s2 else modJnl (fun j => { j with acked := j.acked ++ [c.aseq] }) s2
    roomAgain (commitAck 16 (nth s.jnl.acks 16 0 + 1) s3)

/-! ### Commands -/

def execServiceGrant (a : Word) (s : State) : Out := .next (serviceGrant a s)
def execGrantEnd (s : State) : Out := .next (grantEnds s)
def execServiceCompletionAck (s : State) : Out := .next (serviceAck s)

end Sys2Proof.Machine
end

