-- ==== Sys2Proof/Machine/Replay.lean ====
section
/-! DEFINITION. The journal across resets (R134, R135): the scan of the banks, what their records say, the objects that
return, and replay. -/

namespace Sys2Proof.Machine

/-! ### The scan (R134 step 1, R136, 07 When things go wrong) -/

def validRecs (b : Bank) : Sparse (List Word) := b.slots.filter (fun e => validSlot e.1 e.2)

/-- The latest of some record numbers. -/
def latestOf (l : List Word) : Option Word := l.foldl (fun h r => match h with
  | some a => if later32 r a then some r else some a
  | none => some r) none

/-- The newest record of the banks in service. -/
def newestRecSeq (s : State) : Option Word :=
  let of := fun (b : Bank) => if b.inService then (validRecs b).map (fun e => recSeq e.2) else []
  latestOf (of s.jnl.bankA ++ of s.jnl.bankB)

/-- JNL_HEAD, 0 where no bank holds a record. -/
def scanHead (s : State) : State := modJnl (fun j => { j with head := (newestRecSeq s).getD 0 }) s

/-- The bank holds the record with number `r`. -/
def holdsRec (r : Word) (b : Bank) : Bool := match b.at_ (r.toNat % 2048) with
  | some w => validSlot (r.toNat % 2048) w && decide (recSeq w = r)
  | none => false

/-- The record under `h` leaves the bank that holds it. -/
def voidIn (h : Word) (b : Bank) : Bank := if holdsRec h b then eraseRec (h.toNat % 2048) b else b

/-- A newest record that only one of two banks holds was never accepted: it is voided where it stands. -/
def voidTorn (s : State) : State :=
  let j := s.jnl
  if !(j.bankA.inService && j.bankB.inService) || (newestRecSeq s).isNone || (holdsRec j.head j.bankA && holdsRec j.head j.bankB) then s
  else
    event 0x0406 0 0 0 0 (setReg 0x0818 1 (modJnl (fun x => { x with
      bankA := voidIn x.head x.bankA, bankB := voidIn x.head x.bankB, head := x.head - 1 }) s))

/-- Records of `good` that `bad` does not hold: its slot holds none, or an older one. -/
def missing (good bad : Bank) : Sparse (List Word) :=
  (validRecs good).filter (fun e => match bad.at_ e.1 with
    | some w => !validSlot e.1 w || later32 (recSeq e.2) (recSeq w)
    | none => true)

/-- A bank that the scan retires. Its BANK record comes once the scan knows which records are needed. -/
def scanRetires (b : Fin 2) (d : Nat) (s : State) : State :=
  if bankIn s b then retireTold b d (modBank b (fun x => { x with inService := false }) s) else s

/-- Bank `b` takes from the other what it lacks; more than eight repairs retire it. -/
def repairBank (b : Fin 2) (s : State) : State :=
  let good := if b = 0 then s.jnl.bankB else s.jnl.bankA
  let bad := if b = 0 then s.jnl.bankA else s.jnl.bankB
  if !(good.inService && bad.inService) then s
  else
    let ms := missing good bad
    if ms.isEmpty then s
    else
      let s1 := countReg 0x0814 (if b = 0 then 15 else 31) (if b = 0 then 0 else 16) ms.length
        (modBank b (fun x => ms.foldl (fun y e => { y with slots := spInsert y.slots e.1 e.2 }) x) s)
      if 8 < ms.length then scanRetires b 2 s1 else s1

/-- A bank whose reading failed is out of service while the head is looked for. -/
def readable (readA readB : Bool) (s : State) : State :=
  modJnl (fun j => { j with bankA := { j.bankA with inService := j.bankA.inService && readA },
                            bankB := { j.bankB with inService := j.bankB.inService && readB } }) s

/-- Both banks are read in full; a bank that cannot be read is retired (R136). -/
def scanBanks (readA readB : Bool) (s : State) : State :=
  let s1 := modJnl (fun j => { j with head := (scanHead (readable readA readB s)).jnl.head }) s
  let s2 := if readA then s1 else scanRetires 0 1 s1
  let s3 := if readB then s2 else scanRetires 1 1 s2
  repairBank 1 (repairBank 0 (voidTorn s3))

/-! ### What the records say -/

/-- ASEQs of some records, oldest first, each once. -/
def aseqsOf (s : State) (p : List Word → Bool) : List Word :=
  sortBy (fun a b => decide ((s.jnl.head - b).toNat ≤ (s.jnl.head - a).toNat))
    (((recs s).filter (fun e => p e.2)).map (fun e => recAseq e.2)).eraseDups

/-- The newest record that satisfies `p`. -/
def newestRec (s : State) (p : List Word → Bool) : Option (List Word) := (recsInOrder s).reverse.find? p

def isFinal (w : List Word) : Bool := recType w = 4 || recType w = 5
def finalOf (s : State) (a : Word) : Option (List Word) := newestRec s (fun w => isFinal w && recAseq w = a)
def acceptOf (s : State) (a : Word) : Option (List Word) := newestRec s (fun w => recType w = 1 && recAseq w = a)
def startedRec (s : State) (a : Word) : Bool := (recs s).any (fun e => recType e.2 = 3 && recAseq e.2 = a)

def recOpcode (w : List Word) : Nat := fld (wd w 0) 15 8
def recFlags (w : List Word) : Byte := BitVec.ofNat 8 (fld (wd w 0) 23 16)
def recRing (w : List Word) : BitVec 5 := BitVec.ofNat 5 (fld (wd w 0) 28 24)
def recHandle (w : List Word) : Word := wd w 4
def recVerdict (w : List Word) : Nat := fld (wd w 6) 7 0

/-- Words 4 to 13 of the descriptor of item `a`. -/
def recOps (s : State) (w : List Word) : Vector Word 10 :=
  let x := newestRec s (fun v => recType v = 2 && recAseq v = recAseq w)
  Vector.ofFn (fun (i : Fin 10) => if i.val < 8 then wd w (6 + i.val) else match x with
    | some v => wd v (6 + (i.val - 8))
    | none => 0)

/-- An accepted item as its records give it. -/
def itemFrom (s : State) (w : List Word) : Item :=
  let it := newItem (recAseq w) (recRing w) (recOpcode w) (recFlags w) (recTag w) (recHandle w) (recOps s w) 0
  let started := startedRec s it.aseq
  { it with startRec := started, redriven := started || it.opcode = 0x02 }

/-- The ARM whose BODY item ASEQ `a` of a ring is: the last ARM before it. -/
def armBefore (s : State) (ring : BitVec 5) (a : Word) : Option Word :=
  (aseqsOf s (fun w => recType w = 1 && recOpcode w = 0x60 && recRing w = ring && later32 a (recAseq w))).getLast?

/-- The descriptors of a ring accepted after an ARM, oldest first: BODY-flagged, and refused at the door other than for
the ARM's sake. -/
def behindArm (s : State) (ring : BitVec 5) (arm : Word) : List (Bool × Bool) :=
  (aseqsOf s (fun w => (recType w = 1 || recType w = 5) && recRing w = ring && later32 (recAseq w) arm)).filterMap (fun a =>
    (newestRec s (fun w => (recType w = 1 || recType w = 5) && recAseq w = a)).map (fun w =>
      ((recFlags w).getLsbD 0, recType w = 5 && recVerdict w ≠ 3)))

/-- An open ARM: what it has seen of its BODY items, and whether one was missing or refused. One that had not come by the cold
start comes no more, since its ring restarts (R134 keeps the count of those due over a Core reset alone; DESIGN CHOICE,
notes/assumptions/55.md). -/
def armSeen (s : State) (it : Item) : Item :=
  let bodies := ((behindArm s it.ring it.aseq).takeWhile (·.1)).take (armCount it)
  { it with bodySeen := bodies.length,
            bodyFail := bodyFault (if bodies.any (·.2) then 2 else 0) (if bodies.length < armCount it then 1 else 0) }

/-- A completion as its record gives it. -/
def compFrom (w : List Word) : Comp :=
  { aseq := recAseq w, ring := recRing w, opcode := BitVec.ofNat 8 (recOpcode w), tag := recTag w, handle := recHandle w,
    verdict := verdictOf (recVerdict w), detail := BitVec.ofNat 8 (fld (wd w 6) 15 8), armed := bit (wd w 6) 18,
    flags := recFlags w, time := (dword (wd w 9) (wd w 10)).setWidth 48, result := dword (wd w 7) (wd w 8),
    replayed := true, shown := if wd w 11 = 0xFFFFFFFF then none else some (fld (wd w 12) 4 0, wd w 11), cq := (recRing w).toNat, pos := none }

/-- The generations of the 21 slots from `21 * grp` on, as the newest GENPACK of that group gives them. -/
def genGroup (s : State) (grp : Nat) : Sparse (BitVec 12) :=
  match newestRec s (fun w => recType w = 9 && (recAseq w).toNat = grp) with
  | none => []
  | some w =>
    let v := (List.range 8).foldl (fun a i => a + (wd w (6 + i)).toNat * 2 ^ (32 * i)) 0
    ((List.range 21).map (fun i => (21 * grp + i, BitVec.ofNat 12 (v / 2 ^ (12 * i))))).filter
      (fun e => e.1 < 670 && e.2 ≠ 1)

/-- The generations that the newest GENPACK of each group holds. -/
def gensFrom (s : State) : Sparse (BitVec 12) := (List.range 32).flatMap (genGroup s)

/-- The anti-replay TAGs that the newest AUTH holds (R118). -/
def tagsFrom (s : State) : Vector DWord 4 :=
  match newestRec s (fun w => recType w = 0x0A) with
  | some w => Vector.ofFn (fun k => dword (wd w (6 + 2 * k.val)) (wd w (7 + 2 * k.val)))
  | none => Vector.replicate 4 0

/-- TAGs of the log that may be of the 1,024 descriptors accepted last (R133): those of the 1,024 newest with a record of their
own, and those of the TAGSETs, which show no order. -/
def olderFrom (s : State) : List DWord :=
  let own := (aseqsOf s (fun w => (recType w = 1 || isFinal w) && recTag w ≠ 0)).reverse.filterMap (fun a =>
    (newestRec s (fun w => (recType w = 1 || isFinal w) && recAseq w = a)).map recTag)
  let sets := ((recsInOrder s).filter (fun w => recType w = 8)).flatMap recTags
  (own.take 1024 ++ sets).eraseDups

/-- Class of a global handle index. -/
def classOf (g : Nat) : Nat :=
  ((List.range 10).find? (fun c => classBase c ≤ g && g < classBase c + classSlots c)).getD 0

/-- The objects whose creation is DONE and that have not been destroyed since: global index and creator. -/
def objsFrom (s : State) : List (Nat × Word) :=
  (aseqsOf s (fun w => isFinal w && (recOpcode w = 0x08 || recOpcode w = 0x60))).filterMap (fun a =>
    match finalOf s a with
    | some w =>
      let h := recHandle w
      let g := classBase (hClass h) + hSlot h
      if recVerdict w = 0 && 1 ≤ hClass h && hClass h ≤ 9 && hSlot h < classSlots (hClass h) && (genOf s g).toNat = hGen h
      then some (g, a) else none
    | none => none)

/-- The ARMED slots of the ARMs that hold one. -/
def armedFrom (s : State) : Vector (Option ArmedSlot) 64 :=
  Vector.ofFn (fun (k : Fin 64) =>
    match (s.eng.objs.find? (fun o => o.1 = classBase 7 + k.val)).bind (fun o => acceptOf s o.2) with
    | some w =>
      let h := handleOf s 7 k.val
      some { slotOf (itemFrom s w) h with fired := (recs s).any (fun e => recType e.2 = 7 && recHandle e.2 = h) }
    | none => none)

/-- Open items: accepted, with no final record. A BODY item waits with its slot, or has been released by FIRE: what was left of
its DELAY is over then, since DEN_TIME has restarted (R141 does not say; DESIGN CHOICE, notes/assumptions/87.md). -/
def itemsFrom (s : State) : List Item :=
  (aseqsOf s (fun w => recType w = 1)).filterMap (fun a =>
    match acceptOf s a, finalOf s a with
    | some w, none =>
      let it := itemFrom s w
      if itemBody it then
        let arm := armBefore s it.ring a
        let fired : Bool := match arm.bind (armedSlotOf s) with
          | some k => (match s.eng.armed[k] with
            | some x => x.fired
            | none => false)
          | none => false
        some { it with armOf := arm, armed := fired, phase := if fired then .queued else .body }
      else some (if it.opcode = 0x60 then armSeen s it else it)
    | _, _ => none)

/-- Every unfired TIME slot ends, for DEN_TIME restarts (R141 rule 7). -/
def endTimeSlots (s : State) : State :=
  (fins 64).foldl (fun t k => match t.eng.armed[k] with
    | some x => if x.trigger = 4 && !x.fired then endObject 7 k.val t else t
    | none => t) s

/-- Fired slots whose BODY items all have a final verdict end; the GENPACK of their end had not been written (R141 rule 5). -/
def endFiredSlots (s : State) : State :=
  (fins 64).foldl (fun t k => match t.eng.armed[k] with
    | some x => if x.fired then endSlot (some x.aseq) t else t
    | none => t) s

/-- A grant that stood when the Den domain fell has ended by the cold start: SVC_GRANT_END tells of it (R334). The grant itself
does not outlast the fall; that one stood is what the model lets outlast it (DESIGN CHOICE, notes/assumptions/88.md). -/
def grantReset (lost : Nat) (s : State) : State :=
  if s.usb.lostGrant then event 0x0F03 0 0 5 (BitVec.ofNat 64 lost) (modUsb (fun u => { u with lostGrant := false }) s) else s

/-- What the journal scan makes known: generations, TAGs, objects, slots, open items, completions that no committed ACK
covers. Every service completion counts as acknowledged, for the start has ended its grant (R334). -/
def project (s : State) : State :=
  let tags := tagsFrom s
  let s1 := modEng (fun e => { e with gens := gensFrom s, keys := Vector.ofFn (fun k => { e.keys[k] with lastTag := tags[k] }) }) s
  let s2 := modEng (fun e => { e with objs := objsFrom s1 }) s1
  let s3 := modEng (fun e => { e with armed := armedFrom s2 }) s2
  let finals := aseqsOf s3 isFinal
  let service := finals.filter (fun a => match finalOf s3 a with
    | some w => 16 ≤ (recRing w).toNat && !s3.jnl.acked.contains a
    | none => false)
  let s4 := modJnl (fun j => { j with scanned := true, acked := j.acked ++ service, recent := [], older := olderFrom s3 }) s3
  let comps := (finals.filter (fun a => !s4.jnl.acked.contains a)).filterMap (fun a => (finalOf s4 a).map compFrom)
  let s5 := modEng (fun e => { e with items := itemsFrom s4, comps := comps }) s4
  grantReset service.length (endFiredSlots (endTimeSlots s5))

/-! ### Objects return (R134 step 2, R187) -/

/-- The journaled target of a relay whose object has handle `h` and was made by `a` (R134 step 3). -/
def targetFrom (s : State) (n : Fin 48) (h a : Word) : Option (Bool × Bool × Word × Bool) :=
  let starts := aseqsOf s (fun w => recType w = 3 && recOpcode w = 0x20 && recHandle w = h && later32 (recAseq w) a)
  let relays := (recsInOrder s).filter (fun w => recType w = 0x0B && (wd w 5).toNat = n.val && later32 (wd w 7) a)
  match latestOf (starts ++ relays.map (fun w => wd w 7)) with
  | none => none
  | some last => match relays.reverse.find? (fun w => wd w 7 = last), acceptOf s last with
    | some w, _ => some (bit (wd w 6) 0, bit (wd w 6) 1, last, false)
    | none, some w => some (bit (wd w 6) 0, false, last, true)
    | none, none => none

def relayReturns (n : Fin 48) (a : Word) (s : State) : State :=
  match targetFrom s n (relayHandle s n) a with
  | some (dir, conf, last, byStart) =>
    modRelay n (fun x => { x with target := some dir, confirmed := conf, targetAseq := last, byStart := byStart,
                                  pos := if conf then (if dir then .closed else .open_) else .unknown }) s
  | none => s

/-- A boot object stands in the slot, or the lanes, the pair or the monitor of a returning rail are a boot rail's. -/
def slotHeld (s : State) (c slot : Nat) (w : Nat → Word) : Bool :=
  match c, fin? 48 slot, fin? 16 slot with
  | 1, some r, _ =>
    let x := railOf w false
    (s.rails[r]).isSome || x.members.any (fun n => (s.lanes[n].rail).isSome) || (x.rsEn && pairTaken s x.rsPair) ||
      (x.wmEn && (nth s.cmp.wms x.wmon Wm.reset).owner ≠ .free)
  | 9, _, some g => (s.graphs[g]).isSome
  | _, _, _ => false

def tableOf (s : State) (a : Word) : List Word := ((s.jnl.tables.find? (fun e => e.1 = a)).map (·.2)).getD []

/-- One object returns with its parameters, in its reset state; a PARTNER does not, and its generation advances. -/
def objectReturns (o : Nat × Word) (s : State) : State :=
  let c := classOf o.1
  let slot := o.1 - classBase c
  if c = 6 then endObject 6 slot s
  else if o.2 = 0 || c = 7 then s
  else match acceptOf s o.2 with
    | none => s
    | some rec =>
      let w := fun n => opv (itemFrom s rec) n
      if slotHeld s c slot w then s
      else
        let s1 := placeObject c slot w s
        match fin? 48 slot, fin? 8 slot, fin? 16 slot with
        | some n, q, g =>
          if c = 2 then relayReturns n o.2 s1
          else match q, g with
            | some q, _ => if c = 5 then setSeq q (some (seqOf (w 8) (w 9) (w 10) (tableOf s o.2))) s1
                           else if c = 9 then (match g with
                             | some g => setGraph g (some (graphOf (fun i => (tableOf s o.2).getD i 0) false)) s1
                             | none => s1)
                           else s1
            | none, some g => if c = 9 then setGraph g (some (graphOf (fun i => (tableOf s o.2).getD i 0) false)) s1 else s1
            | none, none => s1
        | none, _, _ => s1

def returnObjects (s : State) : State := s.eng.objs.foldl (fun t o => objectReturns o t) s

/-! ### Replay (R134 steps 3 to 7) -/

def inService (s : State) (a : Word) : State := modEng (fun e => { e with line := e.line.filter (· ≠ a) ++ [a] }) s

/-- Step 3: UNCONFIRMED targets are pulsed again, in ascending relay index (R14, R236). A relay that is FAULTED is passed
over: nothing says whether its target is asserted again before its fault is cleared (DESIGN CHOICE,
notes/assumptions/56.md). -/
def reassert (s : State) : State :=
  let ord := s.jnl.head + 1
  (fins 48).foldl (fun t n => match t.relays[n] with
    | some x =>
      if x.state = .idle && x.target.isSome && !x.confirmed then
        match findItem t x.targetAseq with
        | some it => if it.startRec && it.phase = .queued then relayReassert n (some it.aseq) ord (inService t it.aseq)
                     else if it.phase = .queued then relayReassert n none ord t else t
        | none => relayReassert n none ord t
      else t
    | none => t) s

/-- Items that a reset does not drive again (R135, R309, R318). -/
def notDriven (cold : Bool) (it : Item) : Option (Verdict × Nat) :=
  let op := it.opcode.toNat
  if !it.startRec || it.phase ≠ .queued then none
  else if op = 0x38 then
    (if xWlen it ≠ 0 then some (.failedIndeterminate, 0x11) else if cold && xBuf it then some (.failed, 0x11) else none)
  else if cold && (op = 0x58 || op = 0x59 || op = 0x71 || op = 0x72) then some (.failed, 0x11)
  else none

/-- BODY items of a slot that has ended (R141 rule 7). -/
def timeLost (s : State) (it : Item) : Bool :=
  it.phase = .body && match it.armOf with
    | some a => !openItem s a && (match armedSlotOf s a with
      | some k => ending s (classBase 7 + k.val)
      | none => true)
    | none => true

/-- The CQ that an SQ names now, CQ00 where the SQ is not enabled. -/
def runCq (s : State) (ring : BitVec 5) : Nat := if ringOn (sqCfg s ring.toNat) then cqOf s ring else 0

/-- The completions of the items that replay queues go by the same rule as those it posts (step 6). -/
def fixCqs (s : State) : State :=
  modEng (fun e => { e with items := e.items.map (fun it =>
    if it.ring.toNat < 16 then { it with toCq := fin? 16 (runCq s it.ring) } else it) }) s

/-- Step 6: every completion of an SQ item that is not acknowledged is due again, in ASEQ order (R111). -/
def repostAll (s : State) : State :=
  let again := fun (c : Comp) =>
    if (c.verdict = .deferred && c.pos.isNone) || 16 ≤ c.ring.toNat then c
    else { c with replayed := true, pos := none, cq := runCq s c.ring }
  let order := fun (a b : Comp) => decide ((s.jnl.head - b.aseq).toNat ≤ (s.jnl.head - a.aseq).toNat)
  let s1 := modEng (fun e => { e with comps := sortBy order (e.comps.map again) }) s
  (List.range 16).foldl (fun t q => postAllHeld 4096 q t) s1

/-- Service completions are sent again within their grant (R336). -/
def resend (s : State) : State :=
  let cs := s.usb.sending.map (fun c => { c with replayed := true })
  cs.foldl (fun t c => sendService c t) (modUsb (fun u => { u with sending := cs }) s)

/-- Step 5's exceptions complete, and BODY items whose slot is gone. -/
def settleItems (cold : Bool) (s : State) : State :=
  s.eng.items.foldl (fun t it => match notDriven cold it with
    | some v => complete it.aseq v.1 v.2 0 t
    | none => if timeLost t it then complete it.aseq .cancelled 0x10 0 t else t) s

/-- The hub polls at once, and the interval starts at POLL_MIN after that poll (R73, R134). -/
def pollNow (s : State) : State := modLink (fun l => { l with pollDue := true }) (resetInterval s)

/-- Replay; `cold`: the first entry to RUN since a cold start or Shake. -/
def replay (cold : Bool) (s : State) : State :=
  let s1 := if cold then returnObjects s else s
  let posted := (s1.eng.comps.filter (fun c => c.verdict ≠ .deferred && decide (c.ring.toNat < 16))).length
  let s2 := resend (repostAll (fixCqs (reassert s1)))
  let driven := (s2.eng.items.filter (fun it => it.startRec && (notDriven cold it).isNone && it.opcode ≠ 0x02)).length
  let s3 := startAll (settleItems cold s2)
  let s4 := modReg 0x0818 (fun w => setFld w 31 16 (min 0xFFFF driven)) s3
  let s5 := pollNow (event 0x0403 0 0 0 (BitVec.ofNat 64 (driven % 65536 + 65536 * (posted % 65536))) s4)
  if cold && s5.pwr.restoreDue then modPwr (fun p => { p with restoreDue := false }) (fireRestore s5) else s5

/-! ### Core reset (R47, R61) -/

/-- The drive of the item goes on by itself: a relay's pulse, Lend and Lift starting, what the hub originated, of which it
begins runs anew itself; or its verdict waits for room alone. -/
def drivesOn (s : State) (it : Item) : Bool :=
  it.ring = 0x1F || it.phase = .working && [0x41, 0x42].contains it.opcode.toNat || verdictWaits s it.aseq ||
    s.relays.toList.any (fun x => match x with
      | some x => x.item = some it.aseq && x.state ≠ .idle && x.state ≠ .faulted && it.startRec
      | none => false)

/-- The two-wire ports stop where they are. -/
def dropPorts (s : State) : State :=
  { s with twb := { s.twb with ports := s.twb.ports.map (fun p => { p with
      item := none, op := .idle, attempts := 0, arbLosses := 0, retries := 0, wdata := [], acked := 0, addrAck := false, again := false,
      rounds := 0, census := p.census.filter (fun c => c.item.isNone) }) } }

/-- A START that is driven again starts afresh, an urgent cut converts afresh, a STOP asks again: what they had set going stops
(R273, R135). -/
def dropSeqs (lost : List Word) (x : Adc) : Adc :=
  let gone := fun (a : Option Word) => match a with
    | some a => lost.contains a
    | none => false
  let cut := fun (k : Cut) => gone k.item
  let afresh := fun (q : Fin 8) => match x.seqs[q] with
    | some y => gone y.item
    | none => false
  { x with
    seqs := Vector.ofFn (fun q => (x.seqs[q]).map (fun y =>
      let z := if gone y.stopItem then { y with stopItem := none } else y
      if afresh q then { z with running := false, inPass := false, waiting := false, stopWhy := 0, entry := 0, item := none } else z)),
    convs := x.convs.map (fun v => { v with
      pass := v.pass.filter (fun q => !afresh q), cut := v.cut.filter (fun k => !cut k), queue := v.queue.filter (fun k => !cut k) }) }

/-- What the descriptor engine drops: work of its items begins anew, and what had not begun is asked for again. -/
def coreDrop (s : State) : State :=
  let goes := fun (it : Item) => !dormant it && !drivesOn s it
  let lost := (s.eng.items.filter goes).map (·.aseq)
  let mine := fun (a : Option Word) => match a with
    | some a => if lost.contains a then none else some a
    | none => none
  let s1 := modEng (fun e => { e with
    items := e.items.map (fun it => if goes it then { it with phase := .queued, redriven := it.startRec || it.opcode = 0x02 }
      else { it with redriven := it.redriven || it.opcode = 0x02 }),
    line := e.line.filter (fun a => !lost.contains a) }) s
  let s2 := withdrawThose (fun r => match r.who with
    | .item a => lost.contains a
    | _ => false) s1
  let asked := fun (d : Demand) => s2.bud.waiting.any (fun r => decide (r.demand = d))
  let s3 := dropPorts s2
  { s3 with
    rails := Vector.ofFn (fun r => (s2.rails[r]).map (fun x =>
      if x.state = .pending && !asked (.rail r.val) then { x with state := .off } else x)),
    graphs := s2.graphs.map (fun g => g.map (fun g => { g with item := mine g.item })),
    relays := Vector.ofFn (fun n => (s2.relays[n]).map (fun x =>
      if x.state = .waiting && !asked (.relay n.val) then { x with state := .idle, item := none } else x)),
    motors := s2.motors.map (fun x => x.map (fun x => { x with item := mine x.item, state := if x.state = .pending then .idle else x.state })),
    fans := s2.fans.map (fun x => x.map (fun x => { x with item := mine x.item })),
    adc := dropSeqs lost s3.adc,
    cal := { s3.cal with run := s3.cal.run.filter (fun j => !lost.contains j.item) } }

/-- The record in hand completes; descriptors behind it are read again. -/
def finishRecord (s : State) : State :=
  if s.jnl.queue.isEmpty then s
  else
    let s1 := modJnl (fun x => { x with queue := [] }) s
    heldWhenDone (refetch (match inHand s with
      | some j => commitJob j s1
      | none => s1))

/-- The runs that the hub originated begin again (R135, R186). -/
def runsAgain (s : State) : State :=
  settle ((fins 16).foldl (fun t k => match t.graphs[k] with
    | some g =>
      if isRunning g && g.by_ ≠ .item && g.item.isSome then startRun k (g.state = .runDown && !g.unwinding) g.by_ g.item t else t
    | none => t) s)

/-- The descriptor engine restarts and replays at once. -/
def coreReset (s : State) : State :=
  let s1 := runsAgain (coreDrop (finishRecord s))
  if s1.pwr.firstRun then s1 else replay false s1

end Sys2Proof.Machine
end

