-- ==== Sys2Proof/Machine/Stores.lean ====
section
/-! DEFINITION. What storing a value into an RWS, RWD or RW register brings about in the block that owns it. The
boot image's default list (R127) and register writes share it. -/

namespace Sys2Proof.Machine

/-! ### Codes that no list names leave their field (R376) -/

/-- EDGE of WM_BLANK and FC_BLANK has its own codes for each CLASS. -/
def edgeListed (w : Word) : Bool :=
  match fld w 1 0, fld w 9 8 with
  | 1, e => e = 1 || e = 2
  | 2, e => e ≠ 0
  | _, _ => true

/-- Field [hi:lo] of `w` where `ok`, else of `a`. -/
def keepUnless (ok : Bool) (hi lo : Nat) (a w : Word) : Word := if ok then w else setFld w hi lo (fld a hi lo)

/-- The register at `o` held `a`; what a write of `w` to it leaves. -/
def keepUnlisted (o : Nat) (a w : Word) : Word :=
  if o = 0x700C then keepUnless (fld w 25 24 ≠ 3) 25 24 a w
  else if 0x7080 ≤ o && o < 0x7680 then
    (if (o - 0x7080) % 0x18 = 0 then keepUnless (fld w 7 0 < 160) 7 0 a w
     else if (o - 0x7080) % 0x18 = 8 then keepUnless (edgeListed w) 9 8 a w else w)
  else if 0x7680 ≤ o && o < 0x7780 && o % 0x10 = 8 then keepUnless (edgeListed w) 9 8 a w
  else w

/-- The fields `m` of a register take `v`, each brought into its range. -/
def storeListed (o : Nat) (m v : Word) (s : State) : State := setReg o (keepUnlisted o (reg s o) (merged s o m v)) s

/-! ### Lanes (R147, R148, R159) -/

def setLimited (n : Fin 48) (b : Bool) (s : State) : State := modLane n (fun l => { l with limited := b }) s

/-- A member of a rail that is not its lead. -/
def followsLead (s : State) (n : Fin 48) : Bool := leadOf s n ≠ n

/-- The lanes of the bank of controller lane `n`. -/
def ctlBank (n : Fin 48) : List (Fin 48) := (fins 48).filter (fun m => 32 ≤ m.val && m.val / 4 = n.val / 4)

def laneRests (l : Lane) : Bool := l.state = .off || l.state = .absent || l.state = .stopped

/-- USE as LANE_CFG now has it, with the bank check of the cold start. -/
def applyUse (n : Fin 48) (s : State) : State :=
  let gone := n.val < 32 && s.pwr.bankAbsent.getLsbD (n.val / 4)
  if !bit (laneReg s n 4) 0 then modLane n (fun l => { laneQuiet l with state := .absent }) (laneStops n s)
  else if s.lanes[n].state = .absent && !gone then modLane n (fun l => { l with state := .off }) s
  else s

/-- LANE_CFG takes `w`: MODE 0b11 is taken as 0b01; SUPPLY changes a whole bank, and only while it rests. -/
def storeLaneCfg (n : Fin 48) (w : Word) (s : State) : State :=
  let a := laneReg s n 4
  let moves := 32 ≤ n.val && bit w 3 ≠ bit a 3
  let busy := moves && (ctlBank n).any (fun m => !laneRests s.lanes[m])
  let w1 := if fld w 2 1 = 3 then setFld w 2 1 1 else w
  let w2 := if busy then setFld w1 3 3 (fld a 3 3) else w1
  let s1 := setReg (0x1004 + n.val * 0x100) w2 s
  let s2 := if moves && !busy then
      (ctlBank n).foldl (fun t m => modReg (0x1004 + m.val * 0x100) (fun x => setFld x 3 3 (fld w 3 3)) t) s1
    else s1
  setLimited n (decide (fld w 2 1 = 3) || busy) (applyUse n s2)

/-- A change of RSENSE brings the current limits inside what it allows. -/
def reclamp (n : Fin 48) (s : State) : State :=
  [0x14, 0x18].foldl (fun t r => let o := 0x1000 + n.val * 0x100 + r; setReg o (clampReg (liIon t) (rsenseAt t o) o (reg t o)) t) s

def storeLane (n : Fin 48) (r : Nat) (m v : Word) (s : State) : State :=
  let o := 0x1000 + n.val * 0x100 + r
  let w := (reg s o &&& ~~~m) ||| (v &&& m)
  if fieldless o || (followsLead s n && (r = 0x08 || r = 0x0C || r = 0x10)) then setLimited n true s
  else if r = 4 then storeLaneCfg n w s
  else
    let x := merged s o m v
    let s1 := setLimited n (decide (x ≠ w) || (r = 0x0C && decide (fld x 13 0 < 500))) (setReg o x s)
    if r = 0x1C then reclamp n s1 else s1

/-! ### Comparators (R277, R279) -/

/-- EN of a monitor that no rail holds makes it the host's, or frees it. -/
def applyWmEn (k : Fin 64) (s : State) : State :=
  if rbit s (wmReg k 0) 10 then modWm k (fun x => { x with owner := .host }) s
  else modWm k (fun x => { x with owner := .free, below := false, above := false, blanked := false }) s

/-- A rail that holds the monitor keeps SRC, EN and the thresholds: a write that reaches one of them is ignored there and sets
LIMITED; any other write to the monitor clears it (R277; the end of LIMITED is DEDUCED from that of a lane's). -/
def storeWm (k : Fin 64) (r : Nat) (m v : Word) (s : State) : State :=
  let o := wmReg k r
  let byRail : Bool := match s.cmp.wms[k].owner with
    | .rail _ => true
    | _ => false
  let mine : Word := if !byRail then 0 else if r = 0 then 0x4FF else if r = 4 then 0xFFFFFFFF else 0
  let s1 := modWm k (fun x => { x with limited := decide ((m &&& mine) ≠ 0) }) (storeListed o (m &&& ~~~mine) v s)
  if r = 0 && !byRail then applyWmEn k s1 else s1

def storeFc (i : Fin 16) (r : Nat) (m v : Word) (s : State) : State :=
  let s1 := storeListed (0x7680 + i.val * 0x10 + r) m v s
  if r = 0 && fcMode s i ≠ fcMode s1 i then fcRemode i s1 else s1

/-! ### Other blocks -/

/-- The host is up when the graph that HOST_GRAPH names is (R29). -/
def rehost (s0 s : State) : State :=
  if hostGraph s0 = hostGraph s then s
  else judge 0 (modPwr (fun p => { p with hostUp := p.upOrder.contains (hostGraph s) }) s)

def leashQ (o : Nat) : Word :=
  if o = 0x9604 then 1 else if o = 0x9608 then 2 else if o = 0x960C then 4 else if o = 0x9610 then 0x10
  else if o = 0x9614 then 0x20 else 0x08

/-- What follows the store at `o` of a register without state of its own beside it. -/
def afterStore (o : Nat) (s0 s : State) : State :=
  if o = 0x001C then rehost s0 s
  else if o = 0x0104 then refSelect (if rbit s 0x0104 1 then s else sofStops s)
  else if 0x5000 ≤ o && o < 0x5400 then arbitrate (chgUpdate s)
  else if 0x5400 ≤ o && o < 0x5800 then (if battless s then s else judgeLow (arbitrate (chgUpdate s)))
  else if o = 0x700C then combine s
  else if 0x7840 ≤ o && o < 0x7940 then judgeGroups s
  else if 0x8000 ≤ o && o < 0x82A8 then
    let i := (o - 0x8000) / 4
    let s1 := clampedEnds (holdTrim i (trimWord s0 i) s)
    if bit (reg s o) 24 || bit (reg s o) 25 then setTrimmed s1 else s1
  else if o = 0x87F8 then seedEmber s
  else if o = 0x9000 then (if rbit s 0x9000 0 then usbReattach s else usbRelease s)
  else if 0x9604 ≤ o && o < 0x9638 then leashReturn (leashQ o) s0 s
  else s

/-- A two-wire port's registers: EN clear stops the port. -/
def storeTwb (o : Nat) (m v : Word) (s : State) : State :=
  let s1 := storeListed o m v s
  match inst 0x8840 0x40 4 o with
  | some (p, r) => if r = 0 && rbit s o 0 && !rbit s1 o 0 then (match fin? 4 p with
      | some p => portStop p s1
      | none => s1) else s1
  | none => s1

def storeOwl (o : Nat) (m v : Word) (s : State) : State :=
  let s1 := storeListed o m v s
  if o = 0x9410 then owlApply 0 s1 else if o = 0x9430 then owlApply 1 s1 else s1

/-- The fields `m` of the register at `o` take `v`, and the block acts on it. -/
def store (o : Nat) (m v : Word) (s : State) : State :=
  if 0x1000 ≤ o && o < 0x4000 then (match fin? 48 ((o - 0x1000) / 0x100) with
    | some n => settle (storeLane n (o % 0x100) m v s)
    | none => s)
  else if 0x0C00 ≤ o && o < 0x0F00 then (match fin? 192 ((o - 0x0C00) / 4) with
    | some n => setReact n (merged s o m v) s
    | none => s)
  else if 0x0160 ≤ o && o < 0x0280 then (match fin? 9 ((o - 0x0160) / 0x20) with
    | some d => setDsel d (merged s o m v) s
    | none => s)
  else if 0x7080 ≤ o && o < 0x7680 then (match fin? 64 ((o - 0x7080) / 0x18) with
    | some k => storeWm k ((o - 0x7080) % 0x18) m v s
    | none => s)
  else if 0x7680 ≤ o && o < 0x7780 then (match fin? 16 ((o - 0x7680) / 0x10) with
    | some i => storeFc i (o % 0x10) m v s
    | none => s)
  else if 0x8800 ≤ o && o < 0x8B00 then storeTwb o m v s
  else if 0x9400 ≤ o && o < 0x9480 then storeOwl o m v s
  else afterStore o s (storeListed o m v s)

end Sys2Proof.Machine
end

