-- ==== Sys2Proof/Machine/Start.lean ====
section
/-! DEFINITION. The cold start (03: R31 to R36; 02: R20 to R22; 07: R32, R126, R127; 09: R187; 23: R377): straps, battery
check, boot image, journal scan, boot rails and graphs, and the holds that stand before the boot graph. -/

namespace Sys2Proof.Machine

/-! ### Straps (R20 to R22) -/

def strapCode : StrapLevel → Nat
  | .open_ => 0 | .k47 => 1 | .k10 => 2 | .r0 => 3

/-- STRAP0 and STRAP3: 0 Ω is reserved and decodes as open. -/
def strapOf3 (l : StrapLevel) : Nat := if l = .r0 then 0 else strapCode l
/-- STRAP1: only 47 kΩ is another level than the default's. -/
def strapExit (l : StrapLevel) : Nat := if l = .k47 then 1 else 0

def strapBad (w : StartWorld) : Bool := w.strap0 = .r0 || w.strap1 = .k10 || w.strap1 = .r0 || w.strap3 = .r0

/-- GLB_STRAP. -/
def strapWord (w : StartWorld) : Word :=
  at_ 0 (strapOf3 w.strap0) ||| at_ 4 (strapExit w.strap1) ||| at_ 8 (strapCode w.strap2) ||| at_ 12 (strapOf3 w.strap3) |||
    flag 16 (strapBad w) ||| at_ 24 (strapCode w.strap0) ||| at_ 26 (strapCode w.strap1) ||| at_ 28 (strapCode w.strap2) |||
    at_ 30 (strapCode w.strap3)

def holdStraps (w : StartWorld) (l : BurrowLatch) : BurrowLatch :=
  { l with strap1 := BitVec.ofNat 1 (strapExit w.strap1), strap2 := BitVec.ofNat 2 (strapCode w.strap2) }

/-- STRAP0 leaves the chemistry to the boot image; STRAP3 asks for a blank boot. -/
def chemDeferred (s : State) : Bool := fld s.pwr.strap 1 0 = 2
def blankBuild (s : State) : Bool := fld s.pwr.strap 13 12 = 2

/-! ### Chemistry (R202) -/

def setChem (li : Bool) (s : State) : State :=
  modReg 0x5454 (fun w => setFld w 11 0 (if li then 3300 else 2800)) (setReg 0x540C (if li then 4200 else 3600)
    (modChg (fun c => { c with chem := if li then 2 else 1 }) s))

/-- The low and the high limit of the battery check, in mV. `known`: the boot image has been read. -/
def lowMv (s : State) : Nat := if battless s then 9000 else max 9000 (uvMv s)
def highMv (known : Bool) (s : State) : Nat :=
  if battless s then 14600 else if known || !chemDeferred s then ovMv s else 14800

/-! ### VDEN rises -/

/-- GLB_RSTCAUSE; `why`: how BURROW was left. -/
def startCauses (why : Word) (l : BurrowLatch) : Word :=
  why ||| flag 0 (!l.memory) ||| flag 1 l.shake ||| flag 2 l.shakeTorn ||| flag 5 l.uv ||| flag 6 l.denLoss

/-- What the latch keeps once its causes have been shown. -/
def latchAfter (w : StartWorld) (l : BurrowLatch) : BurrowLatch :=
  holdStraps w { l with inBurrow := false, uv := false, shake := false, shakeTorn := false, denLoss := false, memory := true,
                        acinLost := false }

/-- Steps 1 to 4: every register at its reset value, DEN_TIME 0, the straps, ACIN. -/
def wake (why : Word) (w : StartWorld) (s : State) : State :=
  let l := s.pwr.latch
  let s1 := denFall s
  let s2 := { s1 with
    den := { Den.reset with up := true },
    pwr := { s1.pwr with
      strap := strapWord w, acinValid := w.acinValid, acgate := w.acinValid, latch := latchAfter w l,
      restoreDue := l.denLoss || bit why 4 } }
  let s3 := setReg 0x0018 (startCauses why l) (setChem (fld (strapWord w) 1 0 = 1) s2)
  let s4 := modChg (fun c => { c with batsns := w.batsns, state := if battless s2 then .disabled else .off }) s3
  owlApply 0 (owlApply 1 (factState s4))

/-- Step 5: with ACIN valid the charger's start-up stage raises VSYS (R31, R203). -/
def chargerStartup (s : State) : State := if battless s || !s.pwr.acinValid then s else setChg .startup s

/-- The battery check failed without ACIN: BURROW, as after an undervoltage entry (R33). -/
def toBurrow (s : State) : State :=
  denFall (modPwr (fun p => { p with latch := { p.latch with
    inBurrow := true, uv := true, gaugeZero := true, acinLost := true, memory := true } }) s)

def backToBurrow (w : StartWorld) (s : State) : State :=
  toBurrow (modPwr (fun p => { p with latch := holdStraps w p.latch }) s)

/-! ### Holds (R33) -/

def hold (h : BootHold) (st : Stage) (s : State) : State := modPwr (fun p => { p with bootHold := h, stage := st }) s

/-- The hold that the battery asks for. -/
def battHold (known : Bool) (s : State) : BootHold :=
  let b := s.chg.batsns
  if b < 2000 && !battless s then .noBattery
  else if b < lowMv s && s.pwr.acinValid then .precharge
  else if highMv known s < b then .battHigh else .none

/-- BATSNS is below the low limit and ACIN is not valid: the hub does not start (R33). -/
def battTooLow (s : State) : Bool := s.chg.batsns < lowMv s && !s.pwr.acinValid

/-- A hold before BATSW closes. PRECHARGE closes it in a battery build (R204); a battery-less build runs none (R34). -/
def holdsOpen (h : BootHold) (s : State) : Bool := h = .noBattery || h = .battHigh || (h = .precharge && battless s)

/-! ### Steps 5 to 8 -/

/-- Each PV bank below 2.0 V marks its four lanes ABSENT (R159). -/
def markAbsent (low : BitVec 8) (s : State) : State :=
  (List.range 8).foldl (fun t b =>
    if low.getLsbD b && !t.pwr.bankAbsent.getLsbD b then
      event 0x0502 0 b 0 0 (modLanes ((fins 48).filter (fun n => n.val / 4 = b)) (fun l => { laneQuiet l with state := .absent })
        (modPwr (fun p => { p with bankAbsent := p.bankAbsent ||| BitVec.ofNat 8 (2 ^ b) }) t))
    else t) s

/-- At each cold start once, with BATSW closed and VSYS at 9.0 V or more. -/
def judgeBanks (w : StartWorld) (s : State) : State :=
  if s.pwr.banksJudged || !s.pwr.batsw || w.batsns < 9000 then s
  else markAbsent w.pvLow (modPwr (fun p => { p with banksJudged := true }) s)

/-- The charger leaves STARTUP; QACC has become 0 before, where the latch says so (R203, R215). -/
def chargerStarts (s : State) : State :=
  if battless s then s
  else
    let s1 := if s.pwr.latch.gaugeZero then
        rebase 0 (modPwr (fun p => { p with latch := { p.latch with gaugeZero := false } }) s) else s
    setChg (chgNow (modChg (fun c => { c with state := .off }) s1)) s1

/-- BATSW closes; the root locks on XCLK, or on ember without it. -/
def closeBattery (w : StartWorld) (s : State) : State :=
  let s1 := modClk (fun c => { c with rootRun := true, locked := true, xPresent := w.xclk, refEmber := !w.xclk,
                                      src := if w.xclk then .xclk else .holding }) (modPwr (fun p => { p with batsw := true }) s)
  let s2 := modLink (fun l => { l with perst := w.perst }) (if battless s then s1 else gaugeVolts w.batsns s1)
  let s3 := chargerStarts (capBattUpdate w.batsns s2)
  judgeBanks w s3

/-! ### Step 9: the boot image (R32, R126, R127) -/

/-- The copy to be used. -/
def chooseImage (s : State) : Option (Fin 2) :=
  let a := imgWords s 0
  let b := imgWords s 1
  match goodImage a, goodImage b with
  | true, true => if (imageSeq a).toNat < (imageSeq b).toNat then some 1 else some 0
  | true, false => some 0
  | false, true => some 1
  | false, false => none

/-- A default-list pair. -/
def applyPair (o : Nat) (v : Word) (s : State) : State :=
  let m : Word := match regAccess o with
    | some a => a.locked
    | none => 0
  if m = 0 || o = 0x0010 || o = 0x0804 then countReg 0x0824 15 0 1 s else store o m v s

def applyPairs (c : Fin 2) : Nat → Nat → State → State
  | 0, _, s => s
  | n + 1, k, s =>
    let o := imgWord s c (16 + 2 * k)
    if o = 0xFFFFFFFF then s else applyPairs c n (k + 1) (applyPair o.toNat (imgWord s c (17 + 2 * k)) s)

/-- Shake off-time in 100 ms steps. -/
def offTime (v : Nat) : Nat := if v = 0 then 4 else min v 10

/-- The fixed fields, then the default list. -/
def applyImage (c : Fin 2) (s : State) : State :=
  let w := imgWord s c
  let s1 := modJnl (fun j => { j with inUse := some c }) s
  let s2 := if chemDeferred s then setChem (fld (w 4) 1 0 = 2) s1 else s1
  let s3 := modPwr (fun p => { p with latch := { p.latch with shakeOff := offTime (fld (w 5) 3 0) } }) s2
  let s4 := setReg 0x001C (w 6 &&& 0x00FFFF1F) s3
  let s5 := refSelect (modReg 0x0104 (fun r => setFld r 2 2 (fld (w 7) 0 0)) s4)
  let s6 := modReg 0x0404 (fun r => setFld r 4 4 (fld (w 7) 4 4)) s5
  applyPairs c 248 0 s6

/-- A blank boot, or one without a good copy, applies none. -/
def imageStep (s : State) : State :=
  let s1 := modPwr (fun p => { p with latch := { p.latch with shakeOff := 4 } }) s
  if blankBuild s then s1
  else match chooseImage s with
    | some c => applyImage c s1
    | none => s1

/-! ### The power state at the end of Reset (R29, R35) -/

def setInputs (w : StartWorld) (s : State) : State :=
  let t := now s
  let in1 := decide (fcMode s 13 ≠ 3)
  let m : MainsWatch :=
    { rise := t, fall := t, rises := if w.sns0 then 3 else 0, first := t, lost := false, change1 := t }
  let s1 := if in1 then modFc 13 (fun x => { x with
      above := w.sns1, below := !w.sns1, active := fcActiveAt (fcMode s 13) { below := !w.sns1, above := w.sns1 } }) s else s
  combine { s1 with cmp := { s1.cmp with
    mains := m, sns0 := w.sns0, sns1 := in1 && sns1Present s w.sns1 && decide (rfld s 0x700C 25 24 ≠ 0) } }

def enterState (s : State) : State :=
  if facts s then owlsSettle <| arbitrate (chgUpdate (modPwr (fun p => { p with pstate := .full, acgate := true }) s))
  else
    let s1 := chgUpdate (modPwr (fun p => { p with pstate := if battless s then .outage else .hush, acgate := false }) s)
    owlsSettle (arbitrate (if battless s then s1 else hushClock s1))

/-! ### Step 10 -/

/-- A bank that was retired before is retired still: which of its causes holds is not recorded (R136). -/
def stillRetired (s : State) : State :=
  (fins 2).foldl (fun t b =>
    if bankIn t b || [1, 2, 3].any (fun d => isPresent t (169 + b.val) d) then t
    else let d := drawNat t; raise (169 + b.val) (1 + d.1 % 3) d.2) s

/-- The BANK record of what the scan has retired, once the log's contents are known (R136, R138). -/
def bankTold (s0 s : State) : State :=
  if bankIn s0 0 = bankIn s 0 && bankIn s0 1 = bankIn s 1 then s else commit (bankRec s) s

def scanStep (w : StartWorld) (s : State) : State :=
  tamperAfterScan (bankTold s (project (stillRetired (scanBanks w.readA w.readB s))))

/-! ### Step 11: boot rails and graphs (R187) -/

def imageSkip (s : State) : State := countReg 0x0824 31 16 1 s

/-- A slot that the journal's object held keeps that object's handle. -/
def noteBoot (c slot : Nat) (s : State) : State := if objThere s (classBase c + slot) then s else noteObject c slot 0 s

def bootRail (c : Fin 2) (e : Nat) (s : State) : State :=
  let w := fun n => imgWord s c (512 + 16 * e + n)
  if !bit (w 0) 15 then s
  else match fin? 48 (fld (w 0) 5 0) with
    | none => imageSkip s
    | some r =>
      let x := railOf (fun n => w (n - 4)) true
      if (s.rails[r]).isSome then endCause (48 + r.val) 9 (raise (48 + r.val) 9 (imageSkip s))
      else if (railFault s r x).isSome then raise (48 + r.val) 9 (imageSkip s)
      else noteBoot 1 r.val (placeRail r x s)

def bootGraphSlot (s : State) (c : Fin 2) (i : Nat) : Nat := fld (imgWord s c (1028 + 132 * i)) 19 16

/-- A boot graph entry whose table passes, and whose slot no earlier entry names. -/
def bootGraphOk (s : State) (c : Fin 2) (i : Nat) : Bool :=
  let w := fun n => imgWord s c (1028 + 132 * i + n)
  (tableFault w true (16 + 16 * fld (w 0) 5 0)).isNone &&
    (List.range i).all (fun j => decide (bootGraphSlot s c j ≠ bootGraphSlot s c i))

def bootGraph (c : Fin 2) (i : Nat) (s : State) : State :=
  match fin? 16 (bootGraphSlot s c i) with
  | none => s
  | some g => if bootGraphOk s c i then
      noteBoot 9 g.val (setGraph g (some (graphOf (fun n => imgWord s c (1028 + 132 * i + n)) true)) s)
    else imageSkip s

/-- Without a boot graph to run, it counts as ended. -/
def bootEnded (s : State) : State := modPwr (fun p => { p with hrstDue := true }) s

def bootRun (c : Fin 2) (s : State) : State :=
  let h := imgWord s c 1024
  let i := fld h 10 8
  if bit h 15 && i < fld h 2 0 && bootGraphOk s c i then
    (match fin? 16 (bootGraphSlot s c i) with
     | some g => settle (startRun g false .boot none s)
     | none => bootEnded s)
  else bootEnded s

def bootObjects (c : Fin 2) (s : State) : State :=
  let s1 := hold .none .started s
  let s2 := (List.range 32).foldl (fun t e => bootRail c e t) s1
  bootRun c ((List.range (fld (imgWord s c 1024) 2 0)).foldl (fun t i => bootGraph c i t) s2)

/-- Step 11, or the hold that stands before it. Where more than one condition of R33 stands, BOOT_HOLD shows the battery's,
then BLANK, then IMAGE_BAD (the table of R33 gives no order: DESIGN CHOICE, notes/assumptions/74.md). -/
def proceed (s : State) : State :=
  let h := battHold true s
  if battTooLow s && !battless s then toBurrow s
  else if h ≠ .none then hold h .heldImage s
  else if blankBuild s then hold .blank .blank s
  else match s.jnl.inUse with
    | some c => bootObjects c s
    | none => hold .imageBad .heldImage s

/-! ### The whole start -/

def runStart (w : StartWorld) (s : State) : State :=
  usbReattach (proceed (scanStep w (enterState (setInputs w (imageStep (closeBattery w (hold .none .heldBattery s)))))))

/-- VDEN has risen. A battery-less build without its source does not start. -/
def startUp (why : Word) (w : StartWorld) (s : State) : State :=
  let s1 := wake why w s
  let h := battHold false s1
  if battTooLow s1 then (if battless s1 then s else backToBurrow w s)
  else if holdsOpen h s1 then hold h .heldBattery (chargerStartup s1)
  else runStart w (chargerStartup s1)

/-- A hold of the battery is looked at again. -/
def holdAgain (w : StartWorld) (s : State) : State :=
  let s1 := sawBatsns w.batsns s
  match s.pwr.stage with
  | .heldBattery =>
    let h := battHold false s1
    if battTooLow s1 then (if battless s1 then hold h .heldBattery s1 else toBurrow s1)
    else if holdsOpen h s1 then hold h .heldBattery s1 else runStart w s1
  | .heldImage =>
    let s2 := judgeBanks w s1
    if s.pwr.bootHold = .imageBad || !s.pwr.batsw then s2 else proceed s2
  | _ => s

end Sys2Proof.Machine
end

