-- ==== Sys2Proof/Machine/Power.lean ====
section
/-! DEFINITION. The commands of the power states (03): starts and their holds, ACIN, power fail, BURROW, Shake, HRST_N,
HOST_AUTO. -/

namespace Sys2Proof.Machine

/-! ### Starts -/

/-- VDEN rises: first power, or a return after power fail. -/
def coldStart (w : StartWorld) (s : State) : State :=
  if s.den.up || s.pwr.latch.inBurrow || s.pwr.stage = .shakeOff then s else startUp 0 w s

/-- The STRAP1 press; ignored after an undervoltage entry (R45). -/
def exitBtn (w : StartWorld) (s : State) : State :=
  if s.den.up || !s.pwr.latch.inBurrow || s.pwr.latch.uv then s else startUp 8 w s

/-- ACIN becomes valid after having been not valid during BURROW. -/
def exitAcin (w : StartWorld) (s : State) : State :=
  if s.den.up || !s.pwr.latch.inBurrow || !s.pwr.latch.acinLost then s else startUp 16 w s

def offTimeEnd (w : StartWorld) (s : State) : State := if s.pwr.stage = .shakeOff then startUp 0 w s else s

def bootHoldClear (w : StartWorld) (s : State) : State := if s.den.up then holdAgain w s else s

/-! ### The register form of the boot image ends (R146) -/

def biEnd (ok : Bool) (s : State) : State :=
  if !s.jnl.biBusy then s
  else
    let ws := (List.range 2048).map (fun i => spGet (fun _ => 0) s.jnl.biWords i)
    let s1 := modJnl (fun j => { j with biBusy := false, biResult := if ok then .done else .write }) (writeCopies ws ok s)
    if ok && s.pwr.bootHold = .imageBad then proceed (imageStep s1) else s1

/-! ### ACIN (03, Shape) -/

def acinEdge (b : Bool) (s : State) : State :=
  orReg 0x54C0 1 (modPwr (fun p => { p with acinValid := b }) s)

/-- PRECHARGE that ended on PRE_TMO begins anew: BATSW closes and that cause ends; it stays latched (R205, R230, R349). -/
def prechargeAgain (s : State) : State :=
  if s.pwr.bootHold = .precharge && !s.pwr.batsw then endCause 151 1 (modPwr (fun p => { p with batsw := true }) s) else s

def acinValid (mv : Nat) (s : State) : State :=
  if !s.den.up || s.pwr.acinValid || mv < 17500 || 37000 < mv then s
  else
    let s1 := prechargeAgain (acinEdge true s)
    if s.pwr.stage = .heldBattery then
      let s2 := modPwr (fun p => { p with acgate := true }) (judge 0 s1)
      chargerStartup (hold (battHold false s2) .heldBattery s2)
    else chgUpdate (judge 0 s1)

/-- ACIN has gone while the hub waits before BATSW: a battery below the low limit sends it back to BURROW (R33). -/
def acinGoneHeld (s0 : State) : State :=
  let s := judge 0 s0
  if battless s then hold (battHold false s) .heldBattery s
  else if battTooLow s then toBurrow s else setChg .off s

/-- The OUTAGE event's detail ACIN_LOST has no number in the spec: an open one, not that of mains loss. -/
def acinInvalid (mv : Nat) (s : State) : State :=
  if 16500 ≤ mv && mv ≤ 38000 then s
  else if !s.den.up then
    (if s.pwr.latch.inBurrow then modPwr (fun p => { p with latch := { p.latch with acinLost := true } }) s else s)
  else if !s.pwr.acinValid then s
  else
    let s0 := modChg (fun c => { c with stopped := isolated s 151 }) s -- R203
    let d := drawNat (modPwr (fun p => { p with acgate := false }) (acinEdge false s0))
    if s.pwr.stage = .heldBattery then acinGoneHeld d.2
    else
      let s1 := chgUpdate (judge (if s.pwr.mains then 1 + d.1 % 65535 else 0) d.2)
      if battless s then s1 else judgeGauge s1

/-- HOST_AUTO: AUTO_DELAY after entry to FULL the host graph is still down (R42). -/
def hostAuto (s : State) : State :=
  if s.den.up && s.pwr.stage = .started && s.pwr.pstate = .full && rbit s 0x001C 4 && !s.pwr.hostUp && !hostRuns s then
    (match fin? 16 (hostGraph s) with
     | some g => if keptDown s g || hot s then s else settle (hubRun g false .hub s)
     | none => s)
  else s

/-! ### Power fail (R30) -/

/-- A record whose bank A write has begun is completed in both banks, no other begins, and the Den domain falls; no DMA is
made. How many records of the first descriptor waiting have been written by then is a free choice (log entry 24). `edges`:
tamper inputs that qualify after the declaration (R286). -/
def powerFail (edges : BitVec 8) (s : State) : State :=
  if !s.den.up || s.pwr.acinValid then s
  else
    let d := drawNat (modLink (fun l => { l with held := true }) s)
    let s1 := match inHand s with
      | some j => writeFirst (d.1 % ((jobWrites j d.2).length + 1)) j d.2
      | none => s
    let seen := edges &&& BitVec.ofNat 8 (rfld s 0x7780 7 0)
    denFall (modPwr (fun p => { p with latch := { p.latch with denLoss := true, tamper := p.latch.tamper ||| seen } }) s1)

/-! ### BURROW (R43 to R45) -/

/-- BATSNS below the undervoltage level: it prevails over a BURROW_ENTER that is under way. -/
def uvBurrow (batsns : Nat) (s : State) : State :=
  if !s.den.up || battless s || s.pwr.acinValid || s.pwr.stage = .shaking || uvMv s ≤ batsns then s
  else
    let s1 := modPwr (fun p => { p with latch := { p.latch with uv := true, gaugeZero := true } }) s
    if s.pwr.burrowing then s1
    else if s.pwr.stage = .heldBattery then
      denFall (modPwr (fun p => { p with latch := { p.latch with inBurrow := true, acinLost := true } }) s1)
    else burrowStart s1

/-- BURROW_ENTER (0x70). -/
def burrowEnter (a : Word) (s : State) : State :=
  beginWork 0x70 a (fun it t =>
    if battless t || t.pwr.acinValid then complete a .refusedState 0 0 t
    else
      let t1 := complete a .done 0 0 (commitStart it t)
      if t1.pwr.burrowing then t1 else settle (burrowStart t1)) s

/-! ### Shake (R46) -/

/-- Step 1. -/
def shake (s : State) : State :=
  if !s.den.up || s.pwr.stage = .shaking then s
  else event 0x0103 0 0 0 0 (modPwr (fun p => { p with stage := .shaking }) s)

/-- Step 2 without quiescence: of the records of the descriptor in hand, `n` are written, and the next stands in bank A alone,
or in neither. -/
def tornRecord (n : Nat) (onlyA : Bool) (j : Job) (s : State) : State :=
  let s1 := writeFirst n j s
  match onlyA, (jobWrites j s)[n]? with
  | true, some w => writeTorn w s1
  | _, _ => s1

/-- Steps 2 and 3: quiescence, or 2 ms; then everything falls. Whether the records in hand are completed in time is open;
the motors' items end FAILED 0x19 before (R240). -/
def shakeOff (s : State) : State :=
  if s.pwr.stage ≠ .shaking then s
  else
    let s0 := motorsSystem (endGrant 5 s)
    let d := drawNat s0
    let e := drawNat d.2
    let both := s.jnl.bankA.inService && s.jnl.bankB.inService
    let r : State × Bool := match inHand s0 with
      | none => (s0, false)
      | some j => match d.1 % 3 with
        | 0 => (commitJob j d.2, false)
        | 1 => (tornRecord (e.1 % (jobWrites j e.2).length) both j e.2, true)
        | _ => (tornRecord (e.1 % (jobWrites j e.2).length) false j e.2, true)
    let s1 := denFall (lendOff 7 (liftOffFree r.1))
    modPwr (fun p => { p with stage := .shakeOff, latch := { p.latch with shake := true, shakeTorn := r.2 } }) s1

/-! ### HRST_N (R31 step 12, R185, R187, R295) -/

/-- 1 ms after a run: in HUSH the host stays in reset. -/
def hrstRelease (s : State) : State :=
  if s.den.up && s.pwr.hrstDue && !inHush s && s.pwr.stage = .started then
    modPwr (fun p => { p with hrstDue := false, hrst := { p.hrst with start := false, die := false } }) s
  else s

/-! ### Commands -/

def execColdStart (w : StartWorld) (s : State) : Out := .next (coldStart w s)
def execBootHoldClear (w : StartWorld) (s : State) : Out := .next (bootHoldClear w s)
def execBiCommitDone (ok : Bool) (s : State) : Out := .next (biEnd ok s)
def execAcinValid (mv : Nat) (s : State) : Out := .next (acinValid mv s)
def execAcinInvalid (mv : Nat) (s : State) : Out := .next (acinInvalid mv s)
def execHostAutoRun (s : State) : Out := .next (hostAuto s)
def execPowerFail (edges : BitVec 8) (s : State) : Out := .next (powerFail edges s)
def execUvBurrow (batsns : Nat) (s : State) : Out := .next (uvBurrow batsns s)
def execBurrowEnter (a : Word) (s : State) : Out := .next (burrowEnter a s)
def execBurrowExitBtn (w : StartWorld) (s : State) : Out := .next (exitBtn w s)
def execBurrowExitAcin (w : StartWorld) (s : State) : Out := .next (exitAcin w s)
def execShake (s : State) : Out := .next (shake s)
def execShakePowerOff (s : State) : Out := .next (shakeOff s)
def execShakeOffTimeEnd (w : StartWorld) (s : State) : Out := .next (offTimeEnd w s)
def execHrstRelease (s : State) : Out := .next (hrstRelease s)

end Sys2Proof.Machine
end

