-- ==== Sys2Proof/Machine/Resets.lean ====
section
/-! DEFINITION. Resets of part of the hub: the stuck timer's domain resets (R60, R61), the expiry of an Owl with the Core
reset of the Core Owl (R344, R47), a stopped Owl clock (R342). -/

namespace Sys2Proof.Machine

/-! ### Expiry (R341 to R344) -/

/-- Rung 0; a Core Owl resets the core. -/
def owlGoes (o : Fin 2) (c : OwlCause) (s : State) : State :=
  if o = 1 then orReg 0x0018 0x80 (coreReset (owlRung0 1 c s)) else owlRung0 o c s

def owlExpires (o : Fin 2) (c : OwlCause) (s : State) : State := if owlCounts s o then owlGoes o c s else s

/-- The count has run out; what the Host Owl's own feed brings is early (R341). -/
def owlRunsOut (o : Fin 2) (feed : Bool) (s : State) : State :=
  if feed then (if o = 0 && owlEarly s then hostFeed s else s)
  else if s.owl.owls[o].left ≠ 0 then s
  else owlExpires o .timeout s

/-- Owls on a clock that has stopped go over to the other one. -/
def owlMoves (c : OwlClock) (s : State) : State :=
  (fins 2).foldl (fun t o => if t.owl.owls[o].clock = c then
    countReg 0x9400 31 16 1 (modOwl o (fun x => { x with clock := if c = .wdt then .ember else .wdt }) t) else t) s

/-- The Owls that count on a clock that stops expire (R342). -/
def expireOn (c : OwlClock) (s0 s : State) : State :=
  (fins 2).foldl (fun t o => if owlCounts s0 o && decide (s0.owl.owls[o].clock = c) then owlExpires o .clkStop t else t) s

/-- A reset of the WDT domain expires every Owl in use whose ACTIVE_CLK it is, counting or not; one in GAVE_UP is left by a
feed or a start alone (R342, R346). -/
def expireWdt (s : State) : State :=
  (fins 2).foldl (fun t o =>
    let x := s.owl.owls[o]
    if x.clock = .wdt && x.state ≠ .off && x.state ≠ .gaveUp then owlGoes o .domainReset t else t) s

def owlClockStop (c : OwlClock) (s : State) : State :=
  let b := c = .wdt
  if !s.den.up || (if b then s.owl.wdtStopped else s.owl.emberStopped) then s
  else
    let s1 := { s with owl := if b then { s.owl with wdtStopped := true } else { s.owl with emberStopped := true } }
    let s2 := raiseOnce 172 (if b then 1 else 2) s1
    owlMoves c (expireOn c s s2)

/-! ### The stuck timer (R60, R61) -/

/-- A relay pulse in progress starts anew with its full width. -/
def pulsesAgain (s : State) : State :=
  (fins 48).foldl (fun t n => match t.relays[n] with
    | some x => if x.state = .pulsing then modBud (fun b => { b with grants := b.grants.map (fun g =>
        if g.demand = .relay n.val then { g with ends := some (now s + BitVec.ofNat 48 (x.width * 1000)) } else g) }) t else t
    | none => t) s

/-- The conversion in progress is lost, and every running sequence begins at entry 0. -/
def adcReset (s : State) : State :=
  (fins 8).foldl (fun t q => modSeq q (fun x => if x.running then { x with entry := 0 } else x) t) s

/-- A transfer in progress is lost; how far it had come is open. Between two attempts it ends by what the last one saw
acknowledged. Its detail is that of RESET (R61 gives the verdict alone: DESIGN CHOICE, notes/assumptions/33.md). A recovery
follows. -/
def busReset (s : State) : State :=
  (fins 4).foldl (fun t p => modPort p (fun x => { x with
      op := .idle, item := none, again := false, rounds := 0, bus := .unknown, needRecovery := !portOff s p }) (endTransfer p 0x11 t)) s

/-- The port detaches, and attaches again. -/
def usbReset (s : State) : State := usbReattach (usbRelease s)

/-- What the domain loses. The record in hand of JNL is written again, so nothing is lost there. -/
def domainReset (d : Fin 9) (s : State) : State :=
  match d.val with
  | 0 => coreReset s
  | 1 =>
    let s1 := modLink (fun l => { l with rewrite := true }) (linkLost s)
    if mayTrain s1 && !s1.link.perst then train s1 else s1
  | 2 => pulsesAgain s
  | 3 => adcReset s
  | 4 => usbReset s
  | 5 => busReset s
  | 8 => expireWdt s
  | _ => s

/-- A switch has not completed after 64 cycles: the domain's logic is reset, then the hub counts, marks and tells of it
(R60). DEN has no multiplexer. -/
def stuckTimer (d : Fin 9) (s : State) : State :=
  if !s.den.up || d = domDen then s
  else event 0x0201 0 d.val 0 0 (orReg 0x011C (flag d.val true) (countReg (0x0168 + 0x20 * d.val) 15 0 1 (domainReset d s)))

/-! ### Commands -/

def execOwlExpiry (o : Fin 2) (feed : Bool) (s : State) : Out := .next (owlRunsOut o feed s)
def execOwlClockStop (c : OwlClock) (s : State) : Out := .next (owlClockStop c s)
def execStuckTimer (d : Fin 9) (s : State) : Out := .next (stuckTimer d s)

end Sys2Proof.Machine
end

