-- ==== Sys2Proof/Machine/Access.lean ====
section
/-! DEFINITION. Accesses to BAR0 (23: R370 to R374, R379; 00: R7; 03: R39, R40): RUN entry (R37, R38), key slots (R119),
the epoch (R65), reads that latch, and the one write operation that host writes and service-port writes share. -/

namespace Sys2Proof.Machine

/-! ### RUN entry (R37, R38) -/

/-- A 64-bit address whose low word counts under `m` is not zero. -/
def addrSet (s : State) (o : Nat) (m : Word) : Bool := decide (reg s o &&& m ≠ 0) || decide (reg s (o + 4) ≠ 0)

/-- REFUSE: the lowest code among the conditions that fail, 0 where none does. -/
def runRefusal (s : State) (v : Word) : BitVec 3 :=
  if !(addrSet s 0x0640 0xFFFFF000 && addrSet s 0x0648 0xFFFFF000) then 1
  else if !(ringOn (sqCfg s 0) && addrSet s 0x0440 0xFFFFFFC0 && ringOn (cqCfg s 0) && addrSet s 0x0540 0xFFFFFFC0) then 2
  else if !s.link.bme then 3
  else if dead s then 4
  else if fld v 15 8 ≠ 0xA5 then 5 else 0

/-- The first entry since a cold start or Shake replays the journal. -/
def firstEntry (s : State) : State :=
  let s1 := modPwr (fun p => { p with iface := .run, firstRun := false }) s
  judgeRings (sendLtr (calRunEntry (replay true (owlRunEntry s1))))

/-- A write to GLB_MODE in SETUP or a granted SETUP. A granted SETUP ends early; its grant goes on. An entry to RUN clears
REFUSE, which tells why the last request was refused (R37 does not say whether it stays: DESIGN CHOICE,
notes/assumptions/61.md). -/
def modeStore (v : Word) (s : State) : State :=
  if fld v 1 0 ≠ 1 || !s.jnl.scanned then s
  else if runRefusal s v ≠ 0 then modPwr (fun p => { p with refuse := runRefusal s v }) s
  else
    let s1 := modPwr (fun p => { p with refuse := 0 }) (setupRecord 0x0010 v s)
    if s.pwr.firstRun || s.pwr.iface = .setup then firstEntry s1 else leaveGranted s1

def glbMode (v : Word) (s : State) : State := if setupWrites s then modeStore v s else lockedWrite 0x0010 v s

/-! ### Key slots (R119) -/

/-- The slot's words are locked for good. -/
def keyLocked (s : State) (k : Fin 4) : Bool := s.eng.keys[k].fused || s.eng.keys[k].fusing

def modKey (k : Fin 4) (f : KeySlot → KeySlot) (s : State) : State := modEng (fun e => { e with keys := upd e.keys k f }) s

/-- Word `w` of slot `k`. R40 asks for the value in the journal, R119 that a key is never readable: what the record of a
granted SETUP shows is open. -/
def keyStore (k w : Fin 4) (v : Word) (s : State) : State :=
  let o := 0x0040 + 16 * k.val + 4 * w.val
  if keyLocked s k || !setupWrites s then lockCount o s
  else
    let s1 := if s.pwr.iface = .granted then let d := drawWord s; setupRecord o d.1 d.2 else s
    modKey k (fun x => if x.fused then x
      else { x with loaded := x.loaded ||| BitVec.ofNat 4 (2 ^ w.val), words := upd x.words w (fun _ => v) }) s1

def keyWrite (o : Nat) (v : Word) (s : State) : State := match fin? 4 ((o - 0x40) / 16), fin? 4 (o % 16 / 4) with
  | some k, some w => keyStore k w v s
  | _, _ => s

/-- GLB_KEYFUSE: a slot that is not loaded, or locked already, is left alone. -/
def fuseStart (v : Word) (s : State) : State :=
  let k : Fin 4 := ⟨fld v 1 0 % 4, by omega⟩
  if fld v 15 8 ≠ 0x5A || s.eng.keys[k].loaded ≠ 0xF || keyLocked s k then s else modKey k (fun x => { x with fusing := true }) s

/-- Fusing ends. -/
def fuseDone (s : State) : State :=
  modEng (fun e => { e with keys := e.keys.map (fun x => if x.fusing then { x with fusing := false, fused := true } else x) }) s

/-! ### The epoch (R65, R379) -/

def epochHi (v : Word) (s : State) : State :=
  let s1 := setupRecord 0x0034 v s
  { s1 with den := { s1.den with epochHeld := some v } }

def epochLo (v : Word) (s : State) : State :=
  let s1 := setupRecord 0x0030 v s
  let hi := s1.den.epochHeld.getD (reg s1 0x0034)
  let s2 := setReg 0x0030 v (setReg 0x0034 hi { s1 with den := { s1.den with epochHeld := none } })
  commitNew (hubRec 0x11 [timeLo (now s2), timeHi (now s2), v, hi]) s2

/-! ### Registers with parts of their own -/

/-- LINK_CTL: CLKMODE, DMA_FAIL, then HOLD (R39, R80, R86). -/
def linkCtl (v : Word) (s : State) : State :=
  let a : Acc := { accRO with rw := 1, w1c := 2, rws := 0x10 }
  let s0 := setupRecord 0x0404 v s
  let s1 := if setupWrites s then storeFields 0x0404 0x10 v s0 else if countsLocked s 0x0404 a v then lockCount 0x0404 s0 else s0
  let s2 := if bit v 1 then endCause 168 1 (modLink (fun l => { l with dmaFail := false }) s1) else s1
  if bit v 0 then holdNow s2 else writeRelease s2

/-- FLT_CACK. -/
def ackWrite (c : Fin 2) (v : Word) (s : State) : State :=
  let s1 := setupRecord (0x0F08 + 0x40 * c.val) v s
  let s2 := if bit v 0 then headClear c s1 else s1
  if bit v 1 then overflowEnds c s2 else s2

def w1cWrite (o : Nat) (v : Word) (s : State) : State :=
  if o = 0x0F08 then ackWrite 0 v s else if o = 0x0F48 then ackWrite 1 v s else clearBits o v (setupRecord o v s)

/-- Ignored and counted: no register stands there (R370). -/
def reservedWrite (s : State) : State := countReg 0x003C 31 16 1 s
/-- Ignored and counted: not every byte enable is set (R371). -/
def partialWrite (s : State) : State := countReg 0x003C 15 0 1 s

/-! ### One write -/

/-- A whole-word write to a defined register, by its access codes and the interface state. -/
def writeDefined (o : Nat) (a : Acc) (v : Word) (s : State) : State :=
  if o = 0x0010 then glbMode v s
  else if 0x0040 ≤ o && o < 0x0080 then keyWrite o v s
  else if o = 0x0080 then inSetup o v (fuseStart v) s
  else if o = 0x0030 then epochLo v s
  else if o = 0x0034 then epochHi v s
  else if o = 0x0038 then setReg o v s
  else if o = 0x0404 then linkCtl v s
  else if o = 0x040C then linkPollWrite v s
  else if isRingReg o then ringWrite o v s
  else if o = 0x0804 then inSetup o v (jnlCtlStore v) s
  else if o = 0x0840 then inSetup o v (biCtlStore 0xFFFFFFFF v) s
  else if o = 0x0844 then inSetup o v (biDataStore v) s
  else if o = 0x0848 then inSetup o v (biMacStore false v) s
  else if o = 0x084C then inSetup o v (biMacStore true v) s
  else if a.w1c ≠ 0 then w1cWrite o v s
  else if a.rw ≠ 0 then setupRecord o v (storeListed o a.rw v s)
  else if a.locked ≠ 0 || fieldless o then inSetup o v (store o a.locked v) s
  else s

/-- A write of `v` with byte enables `be` to offset `o`. -/
def writeAt (o : Nat) (be : BitVec 4) (v : Word) (s : State) : State := match regAccess o with
  | none => reservedWrite s
  | some a => if be = 0xF then writeDefined o a v s else partialWrite s

/-! ### Reads that latch (R64, R372) -/

def latchOf (src : Source) (s : State) : ReadLatch := match src with
  | .link => s.den.latLink
  | .port => s.den.latPort

def modLatch (src : Source) (f : ReadLatch → ReadLatch) (s : State) : State := match src with
  | .link => { s with den := { s.den with latLink := f s.den.latLink } }
  | .port => { s with den := { s.den with latPort := f s.den.latPort } }

def latchDen (src : Source) (s : State) : State := modLatch src (fun l => { l with denHi := timeHi (now s) }) s
def latchAuth (src : Source) (k : Fin 4) (s : State) : State :=
  modLatch src (fun l => { l with authHi := upd l.authHi k (fun _ => hiW s.eng.keys[k].lastTag) }) s
def latchHbeat (src : Source) (s : State) : State := modLatch src (fun l => { l with hbeatHi := hiW s.owl.hbeat }) s

/-- What a read of `o` by `src` brings about. -/
def readEffect (src : Source) (o : Nat) (s : State) : State :=
  if o = 0x0110 then latchDen src s
  else if o = 0x9404 then latchHbeat src s
  else if 0x0088 ≤ o && o < 0x00A8 && o % 8 = 0 then (match fin? 4 ((o - 0x88) / 8) with
    | some k => latchAuth src k s
    | none => s)
  else s

/-- What a read of `o` by `src` returns: the high register of a pair as its own latch holds it. -/
def readBy (src : Source) (s : State) (o : Nat) : Word :=
  let l := latchOf src s
  if o = 0x0114 then l.denHi
  else if o = 0x9408 then l.hbeatHi
  else if 0x0088 ≤ o && o < 0x00A8 && o % 8 = 4 then nth l.authHi ((o - 0x88) / 8) 0
  else readReg s o

/-! ### Writes over the service port (R332) -/

/-- GLB_KEY, GLB_KEYFUSE and the LINK block: no port write reaches them. -/
def portLocked (o : Nat) : Bool := (0x0040 ≤ o && o < 0x0084) || (0x0400 ≤ o && o < 0x0680)

/-- The registers of the boot image's register form, which a repair may reach. -/
def repairReg (o : Nat) : Bool := o = 0x0840 || o = 0x0844 || o = 0x0848 || o = 0x084C

def inRepair (s : State) : Bool := s.pwr.bootHold = .imageBad || s.pwr.bootHold = .blank

/-- A grant of class SETUP stands. It does so also after an early return to RUN (R40), which ends no grant (R334). -/
def setupGrant (s : State) : Bool := s.pwr.iface = .granted || match s.usb.grant with
  | some g => g.cls = .setup
  | none => false

/-- A port write may take effect somewhere. -/
def portMayWrite (s : State) : Bool := setupGrant s || inRepair s

/-- A write as in a granted SETUP, whatever the host has returned to (R332). -/
def writeGranted (o : Nat) (v : Word) (s : State) : State :=
  if s.pwr.iface = .run then modPwr (fun p => { p with iface := .run }) (writeAt o 0xF v (modPwr (fun p => { p with iface := .granted }) s))
  else writeAt o 0xF v s

/-- One word of a port write. -/
def portWord (o : Nat) (v : Word) (s : State) : State :=
  if portLocked o then s
  else if setupGrant s then writeGranted o v s
  else if inRepair s && repairReg o then writeAt o 0xF v s else s

/-! ### Commands -/

def registerWrite (src : Source) (o : Nat) (be : BitVec 4) (v : Word) (s : State) : State :=
  if !s.den.up then s
  else match src with
    | .link => if s.link.dlUp then writeAt o be v s else s
    | .port => portWord o v s

/-- A write over the link. -/
def hostWrite (o : Nat) (v : Word) (s : State) : State := registerWrite .link o 0xF v s

def readIf (f : State → State) (src : Source) (s : State) : State :=
  if s.den.up && (src = .port || s.link.dlUp) then f s else s

def execGlbModeWrite (v : Word) (s : State) : Out := .next (hostWrite 0x0010 v s)
def execRegisterWrite (src : Source) (addr : BitVec 16) (be : BitVec 4) (v : Word) (s : State) : Out :=
  .next (registerWrite src addr.toNat be v s)
def execDentimeLoRead (src : Source) (s : State) : Out := .next (readIf (latchDen src) src s)
def execAuthtagLoRead (src : Source) (k : Fin 4) (s : State) : Out := .next (readIf (latchAuth src k) src s)
def execHbeatLoRead (src : Source) (s : State) : Out := .next (readIf (latchHbeat src) src s)
def execGlbEpochHiWrite (v : Word) (s : State) : Out := .next (hostWrite 0x0034 v s)
def execGlbEpochLoWrite (v : Word) (s : State) : Out := .next (hostWrite 0x0030 v s)
def execGlbKeyfuseWrite (v : Word) (s : State) : Out := .next (hostWrite 0x0080 v s)
def execKeyfuseDone (s : State) : Out := .next (if s.den.up then fuseDone s else s)
def execClkDselWrite (d : Fin 9) (v : Word) (s : State) : Out := .next (hostWrite (0x0160 + 0x20 * d.val) v s)
def execLinkPollWrite (v : Word) (s : State) : Out := .next (hostWrite 0x040C v s)
/-- LINK_IPEND: INTA follows the bits that stay (R72). -/
def execLinkIpendWrite (v : Word) (s : State) : Out := .next (hostWrite 0x0410 v s)
/-- A BASE or CFG register of a ring or page; another offset is no such write. -/
def execRingCfgWrite (addr : BitVec 16) (v : Word) (s : State) : Out :=
  .next (if isRingReg addr.toNat then hostWrite addr.toNat v s else s)
def execChgIntsrcWrite (v : Word) (s : State) : Out := .next (hostWrite 0x54C0 v s)

end Sys2Proof.Machine
end

