-- ==== Sys2Proof/Machine/Service.lean ====
section
/-! DEFINITION. The USB service port (19): attach and detach, the commands of R330, the service ring (R335, R336). -/

namespace Sys2Proof.Machine

/-! ### The port on its bus (R327) -/

/-- USB_VBSNS is above 4.0 V; with EN set the pull-up connects. In HUSH the port has the root run (R57). -/
def usbAttach (mv : Nat) (s : State) : State :=
  if !s.den.up || mv ≤ 4000 then s else usbReattach (rootWake (modUsb (fun u => { u with vbus := true }) s))

def usbDetach (mv : Nat) (s : State) : State :=
  if !s.den.up || 4000 < mv then s else modUsb (fun u => { u with vbus := false }) (usbRelease s)

/-- The endpoints beside EP0 work. -/
def portWorks (s : State) : Bool := s.den.up && s.usb.attached && s.usb.configured && !s.usb.suspended

/-- The bulk endpoints (R327). -/
def bulkEps : List Nat := [0x01, 0x81, 0x02, 0x82]

/-- A standard request on EP0 (R327). Its codes and data are those of USB 2.0, chapter 9, to which R327 refers (PRESUMED,
notes/assumptions/89.md). -/
def standardRequest (r : UsbRequest) (s : State) : State :=
  if !s.den.up || !s.usb.attached then s
  else
    let set := fun (b : Bool) => modUsb (fun u => { u with configured := b, halted := [], reply := none }) s
    let epOk := fun (ep : Nat) => s.usb.configured && bulkEps.contains ep
    match r with
    | .setConfiguration n =>
      if n = 0 then sofStops (set false) else if n = 1 then set true else emit .usbStall s
    | .getDevice => emit (.usbDevice 0x1A7E 0x0048 (revisionOf Config.stepping)) s
    | .getConfiguration => emit (.usbConfig 0xFF 0x4E 0x01 0 true (bulkEps.map (fun ep => (ep, 64)))) s
    | .getSerial => emit (.usbSerial ((List.range 16).map (fun i => serialNumber.toNat / 16 ^ (15 - i) % 16))) s
    | .getLanguages => let d := drawNat s; emit (.usbData [4, 3, d.1 % 256, d.1 / 256 % 256]) d.2
    | .setAddress n => if s.usb.configured || 127 < n then emit .usbStall s else modUsb (fun u => { u with address := n }) s
    | .currentConfiguration => emit (.usbData [if s.usb.configured then 1 else 0]) s
    | .deviceStatus => emit (.usbData [1, 0]) s -- self-powered, no remote wakeup
    | .interfaceStatus => if s.usb.configured then emit (.usbData [0, 0]) s else emit .usbStall s
    | .endpointStatus ep =>
      if epOk ep then emit (.usbData [if s.usb.halted.contains ep then 1 else 0, 0]) s else emit .usbStall s
    | .setHalt ep =>
      if epOk ep then modUsb (fun u => { u with halted := u.halted.filter (· ≠ ep) ++ [ep] }) s else emit .usbStall s
    | .clearHalt ep => if epOk ep then modUsb (fun u => { u with halted := u.halted.filter (· ≠ ep) }) s else emit .usbStall s
    | .getInterface => if s.usb.configured then emit (.usbData [0]) s else emit .usbStall s
    | .setInterface n =>
      if s.usb.configured && n = 0 then modUsb (fun u => { u with halted := [] }) s else emit .usbStall s
    | .busReset =>
      sofStops (modUsb (fun u => { u with address := 0, configured := false, halted := [], suspended := false, reply := none }) s)
    | .other => emit .usbStall s

def usbSuspend (b : Bool) (s : State) : State :=
  if !s.den.up || !s.usb.attached then s else modUsb (fun u => { u with suspended := b }) (if b then sofStops s else s)

/-- VBUS above 5.5 V for 1 ms. -/
def vbusOv (mv : Nat) (s : State) : State :=
  if !s.den.up || mv ≤ 5500 || !s.usb.vbus || isPresent s 176 1 then s else usbRelease (raise 176 1 s)

/-- More than 1,000 refusals in 1 s; the cause ends with the pull-up's release. The port attaches again by USB_ATTACH. -/
def usbFlood (refused : Nat) (s : State) : State :=
  if !s.den.up || !s.usb.attached || refused ≤ 1000 then s else usbRelease (raiseLatched 176 2 s)

/-! ### Requests and replies (R329, R330) -/

/-- EP1 OUT takes a request: no reply is unread. -/
def portTakes (s : State) : Bool := portWorks s && !s.usb.halted.contains 0x01 && s.usb.reply.isNone

/-- The words of a reply. -/
def replyWords (cmd : Nat) (st : Nat) (seq : BitVec 16) (addr : Word) (data : List Word) (s : State) : List Word :=
  [at_ 0 cmd ||| at_ 8 st ||| at_ 16 seq.toNat, addr, BitVec.ofNat 32 (4 * data.length), timeLo (now s)] ++ data

/-- The command has ended with STATUS `st`. -/
def reply (cmd st : Nat) (seq : BitVec 16) (addr : Word) (data : List Word) (s : State) : State :=
  let s1 := modUsb (fun u => { u with reply := some (replyWords cmd st seq addr data s) }) s
  let s2 := countReg 0x9014 15 0 1 (setReg 0x901C (at_ 0 cmd ||| at_ 8 st) s1)
  if st = 0 then s2 else countReg 0x9014 31 16 1 s2

/-- The STATUS among those that the request has earned: where it is more than one, which one is open. -/
def statusOf (l : List Nat) (s : State) : Nat × State := match l with
  | [] => (0, s)
  | [x] => (x, s)
  | x :: rest => let d := drawNat s; ((x :: rest).getD (d.1 % (rest.length + 1)) x, d.2)

/-- Runs the command where nothing speaks against it. -/
def judged (cmd : Nat) (seq : BitVec 16) (addr : Word) (faults : List Nat) (k : State → State) (s : State) : State :=
  let st := statusOf faults s
  if st.1 = 0 then k st.2 else reply cmd st.1 seq addr [] st.2

/-- A COUNT outside its range is BAD_LENGTH or RANGE. -/
def countFaults (count : Word) (most : Nat) : List Nat := if count.toNat < 1 || most < count.toNat then [2, 3] else []

/-- `count` registers from `addr` on lie within 0x0000 to 0x97FC. -/
def addrFaults (addr count : Word) : List Nat :=
  if addr.toNat % 4 ≠ 0 || 0x97FC < addr.toNat || (count.toNat ≤ 256 && 0x9800 < addr.toNat + 4 * count.toNat) then [3] else []

/-! ### INFO, REG_READ -/

def infoWords (s : State) : List Word :=
  [readReg s 0x0000, loW serialNumber, hiW serialNumber, readReg s 0x0014, readReg s 0x0010, readReg s 0x9004, readReg s 0x9008,
   timeLo (now s), timeHi (now s)]

def infoCmd (seq : BitVec 16) (addr : Word) (s : State) : State :=
  if portTakes s then reply 1 0 seq addr (infoWords s) s else s

/-- What the port reads at `o`; the partner registers by the slot in ARG. -/
def portRead (slot : Word) (s : State) (o : Nat) : Word :=
  readBy .port (if o = 0x8808 || o = 0x880C || o = 0x8810 then setReg 0x8804 (slot &&& 0x1FF) s else s) o

def readRun (slot : Word) : Nat → Nat → List Word × State → List Word × State
  | 0, _, x => x
  | n + 1, o, x => readRun slot n (o + 4) (x.1 ++ [portRead slot x.2 o], readEffect .port o x.2)

def regReadCmd (seq : BitVec 16) (addr count arg : Word) (s : State) : State :=
  if !portTakes s then s
  else judged 2 seq addr (countFaults count 256 ++ addrFaults addr count) (fun t =>
    let r := readRun arg count.toNat addr.toNat ([], t)
    reply 2 0 seq addr r.1 r.2) s

/-! ### REG_WRITE (R332) -/

def wordsAt (addr : Word) (payload : List Word) : List (Nat × Word) :=
  payload.zipIdx.map (fun e => (addr.toNat + 4 * e.2, e.1))

/-- What the words of a well-formed request earn. -/
def writeFaults (s : State) (ws : List (Nat × Word)) : List Nat :=
  if !portMayWrite s then 4 :: (if ws.any (fun e => portLocked e.1) then [5] else [])
  else (if ws.any (fun e => portLocked e.1) then [5] else []) ++
    (if !setupGrant s && ws.any (fun e => !portLocked e.1 && !repairReg e.1) then [4] else [])

def regWriteCmd (seq : BitVec 16) (addr count : Word) (payload : List Word) (s : State) : State :=
  if !portTakes s then s
  else judged 3 seq addr (countFaults count 256 ++ (if payload.length ≠ count.toNat then [2] else []) ++ addrFaults addr count) (fun t =>
    let ws := wordsAt addr payload
    let st := statusOf (writeFaults t ws) t
    reply 3 st.1 seq addr [] (ws.foldl (fun u e => portWord e.1 e.2 u) st.2)) s

/-! ### JNL_READ, CAL_READ -/

def jnlReadCmd (seq : BitVec 16) (first count arg : Word) (s : State) : State :=
  if !portTakes s then s
  else
    let what := fld arg 1 0
    let b : Fin 2 := if bit arg 8 then 1 else 0
    let faults := if what = 3 then [3] else if what = 0 then countFaults count 64 ++ (if bankIn s b then [] else [6]) else []
    judged 4 seq first faults (fun t =>
      reply 4 0 seq first (if what = 0 then (recordsFrom t b first count.toNat).flatten else imgWords t (what - 1)) t) s

def calReadCmd (seq : BitVec 16) (addr : Word) (s : State) : State :=
  if portTakes s then reply 5 0 seq addr (withCrc (calImage s)) s else s

/-! ### The service ring (R335, R336) -/

/-- The bit of OPMASK that opens an opcode. -/
def opmaskBit (op : Nat) : Option Nat :=
  if 0x10 ≤ op && op ≤ 0x15 then some 0 else if op = 0x20 then some 1 else if 0x21 ≤ op && op ≤ 0x23 then some 2
  else if op = 0x28 then some 3 else if 0x30 ≤ op && op ≤ 0x32 then some 4 else if op = 0x38 || op = 0x39 then some 5
  else if 0x40 ≤ op && op ≤ 0x43 then some 6 else if op = 0x5A then some 7 else if op = 0x68 || op = 0x69 then some 8
  else if op = 0x08 || op = 0x09 then some 9 else if op = 0x60 || op = 0x61 then some 10 else none

/-- An opcode that the grant opens and that needs no host memory. -/
def serviceListed (mask : Word) (d : Descriptor) : Bool := match opmaskBit (descOp d) with
  | some b => bit mask b && opListed (descOp d) && !(descOp d = 0x08 && (fld d[4] 3 0 = 5 || fld d[4] 3 0 = 9))
  | none => false

/-- Service items that lack a final verdict, those on their way to the banks included. -/
def serviceOpen (s : State) : Nat :=
  (s.eng.items.filter (fun i => i.ring = 16)).length + (s.jnl.queue.filter (fun j => jobRing j = 16)).length

def ringGrant (s : State) : Option SvcGrant := match s.usb.grant with
  | some g => if g.cls = .ring then some g else none
  | none => none

def serviceDesc (d : Descriptor) (s : State) : State := match ringGrant s with
  | none => s
  | some g =>
    if !portWorks s || s.usb.halted.contains 0x02 || dead s || 8 ≤ serviceOpen s || !journalAllows s then s
    else
      let it := descItem s 16 d
      let j := if fld d[0] 31 16 ≠ s.usb.ringPos.toNat % 65536 then .door it .refusedFormat 1 0
               else doorJob s d it (serviceListed g.opmask d)
      queueJob j (modUsb (fun u => { u with ringPos := u.ringPos + 1 }) s)

/-! ### Commands -/

def execUsbAttach (mv : Nat) (s : State) : Out := .next (usbAttach mv s)
def execUsbDetach (mv : Nat) (s : State) : Out := .next (usbDetach mv s)
def execUsbSuspend (b : Bool) (s : State) : Out := .next (usbSuspend b s)
def execUsbStandardRequest (r : UsbRequest) (s : State) : Out := .next (standardRequest r s)
def execUsbVbusOv (mv : Nat) (s : State) : Out := .next (vbusOv mv s)
def execUsbFlood (refused : Nat) (s : State) : Out := .next (usbFlood refused s)
def execUsbReplyRead (s : State) : Out := .next (if portWorks s && !s.usb.halted.contains 0x81 then modUsb (fun u => { u with reply := none }) s else s)
def execInfo (seq : BitVec 16) (addr : Word) (s : State) : Out := .next (infoCmd seq addr s)
def execRegRead (seq : BitVec 16) (addr count arg : Word) (s : State) : Out := .next (regReadCmd seq addr count arg s)
def execRegWrite (seq : BitVec 16) (addr count : Word) (payload : List Word) (s : State) : Out :=
  .next (regWriteCmd seq addr count payload s)
def execJnlRead (seq : BitVec 16) (first count arg : Word) (s : State) : Out := .next (jnlReadCmd seq first count arg s)
def execCalRead (seq : BitVec 16) (addr : Word) (s : State) : Out := .next (calReadCmd seq addr s)
def execServiceDescriptor (d : Descriptor) (s : State) : Out := .next (serviceDesc d s)
/-- An unlisted CMD: STATUS BAD_CMD. -/
def execBadCmd (seq : BitVec 16) (cmd : Byte) (addr : Word) (s : State) : Out :=
  .next (if portTakes s then reply cmd.toNat 1 seq addr [] s else s)

end Sys2Proof.Machine
end

