-- ==== Sys2Proof/Machine/Dispatch.lean ====
section
/-! DEFINITION. One arm per command: each calls its meaning. -/

namespace Sys2Proof.Machine

open Sys2Proof

def exec (i : Instr) (s : State) : Host.Outcome State Fault Refusal :=
  match i with
  | .coldStart w => Sys2Proof.Machine.execColdStart w s
  | .bootHoldClear w => Sys2Proof.Machine.execBootHoldClear w s
  | .acinValid mv => Sys2Proof.Machine.execAcinValid mv s
  | .acinInvalid mv => Sys2Proof.Machine.execAcinInvalid mv s
  | .mainsLoss => Sys2Proof.Machine.execMainsLoss s
  | .mainsPresence => Sys2Proof.Machine.execMainsPresence s
  | .sns1Qualify high => Sys2Proof.Machine.execSns1Qualify high s
  | .hostAutoRun => Sys2Proof.Machine.execHostAutoRun s
  | .rootStop => Sys2Proof.Machine.execRootStop s
  | .powerFail edges => Sys2Proof.Machine.execPowerFail edges s
  | .uvBurrow batsns => Sys2Proof.Machine.execUvBurrow batsns s
  | .burrowExitBtn w => Sys2Proof.Machine.execBurrowExitBtn w s
  | .burrowExitAcin w => Sys2Proof.Machine.execBurrowExitAcin w s
  | .shake => Sys2Proof.Machine.execShake s
  | .shakePowerOff => Sys2Proof.Machine.execShakePowerOff s
  | .shakeOffTimeEnd w => Sys2Proof.Machine.execShakeOffTimeEnd w s
  | .hrstRelease => Sys2Proof.Machine.execHrstRelease s
  | .glbModeWrite v => Sys2Proof.Machine.execGlbModeWrite v s
  | .registerWrite src addr be v => Sys2Proof.Machine.execRegisterWrite src addr be v s
  | .dentimeLoRead src => Sys2Proof.Machine.execDentimeLoRead src s
  | .authtagLoRead src k => Sys2Proof.Machine.execAuthtagLoRead src k s
  | .hbeatLoRead src => Sys2Proof.Machine.execHbeatLoRead src s
  | .glbEpochHiWrite v => Sys2Proof.Machine.execGlbEpochHiWrite v s
  | .glbEpochLoWrite v => Sys2Proof.Machine.execGlbEpochLoWrite v s
  | .glbKeyfuseWrite v => Sys2Proof.Machine.execGlbKeyfuseWrite v s
  | .keyfuseDone => Sys2Proof.Machine.execKeyfuseDone s
  | .clkDselWrite d v => Sys2Proof.Machine.execClkDselWrite d v s
  | .linkIpendWrite v => Sys2Proof.Machine.execLinkIpendWrite v s
  | .chgIntsrcWrite v => Sys2Proof.Machine.execChgIntsrcWrite v s
  | .ringCfgWrite addr v => Sys2Proof.Machine.execRingCfgWrite addr v s
  | .linkPollWrite v => Sys2Proof.Machine.execLinkPollWrite v s
  | .holdSet => Sys2Proof.Machine.execHoldSet s
  | .holdRelease => Sys2Proof.Machine.execHoldRelease s
  | .holdReleaseWait => Sys2Proof.Machine.execHoldReleaseWait s
  | .bmeSet cfg ack => Sys2Proof.Machine.execBmeSet cfg ack s
  | .bmeClear cfg ack => Sys2Proof.Machine.execBmeClear cfg ack s
  | .perstAssert => Sys2Proof.Machine.execPerstAssert s
  | .functionLevelReset => Sys2Proof.Machine.execFunctionLevelReset s
  | .linkTrainingStart => Sys2Proof.Machine.execLinkTrainingStart s
  | .linkDown => Sys2Proof.Machine.execLinkDown s
  | .linkRetrain => Sys2Proof.Machine.execLinkRetrain s
  | .l1Entry sub => Sys2Proof.Machine.execL1Entry sub s
  | .l1Exit byPoll => Sys2Proof.Machine.execL1Exit byPoll s
  | .vectorUnmask v => Sys2Proof.Machine.execVectorUnmask v s
  | .doorbellPoll page => Sys2Proof.Machine.execDoorbellPoll page s
  | .dmaReadFail what e => Sys2Proof.Machine.execDmaReadFail what e s
  | .aerUncorrectable status correctable => Sys2Proof.Machine.execAerUncorrectable status correctable s
  | .descriptorArrival q d => Sys2Proof.Machine.execDescriptorArrival q d s
  | .journalWriteDone okA okB => Sys2Proof.Machine.execJournalWriteDone okA okB s
  | .journalCompaction => Sys2Proof.Machine.execJournalCompaction s
  | .completionPost cq => Sys2Proof.Machine.execCompletionPost cq s
  | .reinstateA => Sys2Proof.Machine.execReinstateA s
  | .reinstateB => Sys2Proof.Machine.execReinstateB s
  | .reinstateDone ok => Sys2Proof.Machine.execReinstateDone ok s
  | .biOpen v => Sys2Proof.Machine.execBiOpen v s
  | .biDataWrite v => Sys2Proof.Machine.execBiDataWrite v s
  | .biCommit v => Sys2Proof.Machine.execBiCommit v s
  | .biCommitDone ok => Sys2Proof.Machine.execBiCommitDone ok s
  | .nop aseq => Sys2Proof.Machine.execNop aseq s
  | .fence aseq => Sys2Proof.Machine.execFence aseq s
  | .owlFeed aseq => Sys2Proof.Machine.execOwlFeed aseq s
  | .handleCreate aseq table => Sys2Proof.Machine.execHandleCreate aseq table s
  | .handleDestroy aseq => Sys2Proof.Machine.execHandleDestroy aseq s
  | .railSetV aseq => Sys2Proof.Machine.execRailSetV aseq s
  | .railEnable aseq vmeas => Sys2Proof.Machine.execRailEnable aseq vmeas s
  | .railDisable aseq => Sys2Proof.Machine.execRailDisable aseq s
  | .railGang aseq => Sys2Proof.Machine.execRailGang aseq s
  | .railLimits aseq => Sys2Proof.Machine.execRailLimits aseq s
  | .seqGraphRun aseq => Sys2Proof.Machine.execSeqGraphRun aseq s
  | .relaySet aseq => Sys2Proof.Machine.execRelaySet aseq s
  | .motorHome aseq => Sys2Proof.Machine.execMotorHome aseq s
  | .motorMove aseq => Sys2Proof.Machine.execMotorMove aseq s
  | .motorStop aseq => Sys2Proof.Machine.execMotorStop aseq s
  | .fanSet aseq => Sys2Proof.Machine.execFanSet aseq s
  | .adcSeqStart aseq => Sys2Proof.Machine.execAdcSeqStart aseq s
  | .adcSeqStop aseq => Sys2Proof.Machine.execAdcSeqStop aseq s
  | .adcUrgent aseq => Sys2Proof.Machine.execAdcUrgent aseq s
  | .twbXfer aseq buf => Sys2Proof.Machine.execTwbXfer aseq buf s
  | .twbCensus aseq answers => Sys2Proof.Machine.execTwbCensus aseq answers s
  | .chgSet aseq => Sys2Proof.Machine.execChgSet aseq s
  | .lendSet aseq => Sys2Proof.Machine.execLendSet aseq s
  | .liftSet aseq => Sys2Proof.Machine.execLiftSet aseq s
  | .gaugeRebase aseq => Sys2Proof.Machine.execGaugeRebase aseq s
  | .budgetSet aseq => Sys2Proof.Machine.execBudgetSet aseq s
  | .leashSet aseq => Sys2Proof.Machine.execLeashSet aseq s
  | .thermalSet aseq => Sys2Proof.Machine.execThermalSet aseq s
  | .calSnapshot aseq => Sys2Proof.Machine.execCalSnapshot aseq s
  | .calRestore aseq image => Sys2Proof.Machine.execCalRestore aseq image s
  | .calRun aseq first second words => Sys2Proof.Machine.execCalRun aseq first second words s
  | .arm aseq => Sys2Proof.Machine.execArm aseq s
  | .disarm aseq => Sys2Proof.Machine.execDisarm aseq s
  | .faultClear aseq vmeas => Sys2Proof.Machine.execFaultClear aseq vmeas s
  | .faultReactionSet aseq => Sys2Proof.Machine.execFaultReactionSet aseq s
  | .burrowEnter aseq => Sys2Proof.Machine.execBurrowEnter aseq s
  | .bootImageWrite aseq image verified => Sys2Proof.Machine.execBootImageWrite aseq image verified s
  | .journalRead aseq => Sys2Proof.Machine.execJournalRead aseq s
  | .serviceGrant aseq => Sys2Proof.Machine.execServiceGrant aseq s
  | .deferredItemServed vmeas => Sys2Proof.Machine.execDeferredItemServed vmeas s
  | .deferTmo aseq => Sys2Proof.Machine.execDeferTmo aseq s
  | .unshedHoldExpiry => Sys2Proof.Machine.execUnshedHoldExpiry s
  | .capBattUpdate batsns => Sys2Proof.Machine.execCapBattUpdate batsns s
  | .timeTrigger => Sys2Proof.Machine.execTimeTrigger s
  | .armDelayExpiry slot => Sys2Proof.Machine.execArmDelayExpiry slot s
  | .xclkLoss => Sys2Proof.Machine.execXclkLoss s
  | .rootLock => Sys2Proof.Machine.execRootLock s
  | .lockFailRetry => Sys2Proof.Machine.execLockFailRetry s
  | .xclkQualified => Sys2Proof.Machine.execXclkQualified s
  | .emberBad => Sys2Proof.Machine.execEmberBad s
  | .trimWindow cycles => Sys2Proof.Machine.execTrimWindow cycles s
  | .sofMark cycles => Sys2Proof.Machine.execSofMark cycles s
  | .stuckTimer d => Sys2Proof.Machine.execStuckTimer d s
  | .laneRemeasure n mv => Sys2Proof.Machine.execLaneRemeasure n mv s
  | .laneSlewDone n => Sys2Proof.Machine.execLaneSlewDone n s
  | .laneFault n c => Sys2Proof.Machine.execLaneFault n c s
  | .laneSupplyRecover n mv => Sys2Proof.Machine.execLaneSupplyRecover n mv s
  | .laneDropout n on => Sys2Proof.Machine.execLaneDropout n on s
  | .railPgAssert r mv => Sys2Proof.Machine.execRailPgAssert r mv s
  | .pgTmo r => Sys2Proof.Machine.execPgTmo r s
  | .prebiasTmo r => Sys2Proof.Machine.execPrebiasTmo r s
  | .gangDone r => Sys2Proof.Machine.execGangDone r s
  | .autoShed r current => Sys2Proof.Machine.execAutoShed r current s
  | .rsCorrection r remote => Sys2Proof.Machine.execRsCorrection r remote s
  | .senseLost r remote local_ => Sys2Proof.Machine.execSenseLost r remote local_ s
  | .senseFrozen r amplitude => Sys2Proof.Machine.execSenseFrozen r amplitude s
  | .windowUv r mv => Sys2Proof.Machine.execWindowUv r mv s
  | .windowOv r mv => Sys2Proof.Machine.execWindowOv r mv s
  | .graphNodeStart g ix vmeas => Sys2Proof.Machine.execGraphNodeStart g ix vmeas s
  | .graphNodeDone g ix => Sys2Proof.Machine.execGraphNodeDone g ix s
  | .graphNodeTmo g ix => Sys2Proof.Machine.execGraphNodeTmo g ix s
  | .chgStateChange batsns => Sys2Proof.Machine.execChgStateChange batsns s
  | .chgTerminate => Sys2Proof.Machine.execChgTerminate s
  | .chgRecharge batsns => Sys2Proof.Machine.execChgRecharge batsns s
  | .preTmo => Sys2Proof.Machine.execPreTmo s
  | .safetyTmo => Sys2Proof.Machine.execSafetyTmo s
  | .inputAdapt vin => Sys2Proof.Machine.execInputAdapt vin s
  | .chgFault c => Sys2Proof.Machine.execChgFault c s
  | .batswOpenFail diff => Sys2Proof.Machine.execBatswOpenFail diff s
  | .gaugeSample ma batsns => Sys2Proof.Machine.execGaugeSample ma batsns s
  | .senseRange => Sys2Proof.Machine.execSenseRange s
  | .batteryRest batsns => Sys2Proof.Machine.execBatteryRest batsns s
  | .cutoffPend batsns => Sys2Proof.Machine.execCutoffPend batsns s
  | .cutoff batsns => Sys2Proof.Machine.execCutoff batsns s
  | .dsgOc ma => Sys2Proof.Machine.execDsgOc ma s
  | .lendVinReached => Sys2Proof.Machine.execLendVinReached s
  | .lendStartDone mv => Sys2Proof.Machine.execLendStartDone mv s
  | .lendStop c => Sys2Proof.Machine.execLendStop c s
  | .lendFault c => Sys2Proof.Machine.execLendFault c s
  | .liftReached mv => Sys2Proof.Machine.execLiftReached mv s
  | .liftFault c => Sys2Proof.Machine.execLiftFault c s
  | .relayPulseEnd n dip peak => Sys2Proof.Machine.execRelayPulseEnd n dip peak s
  | .relayPulseAbort n why peak => Sys2Proof.Machine.execRelayPulseAbort n why peak s
  | .relayRetry n => Sys2Proof.Machine.execRelayRetry n s
  | .motorBridgeOc m => Sys2Proof.Machine.execMotorBridgeOc m s
  | .motorBrakeEnd m pos => Sys2Proof.Machine.execMotorBrakeEnd m pos s
  | .motorStall m => Sys2Proof.Machine.execMotorStall m s
  | .motorSupplyLost m => Sys2Proof.Machine.execMotorSupplyLost m s
  | .limitQualified m l active count first => Sys2Proof.Machine.execLimitQualified m l active count first s
  | .limitChatter m l ages => Sys2Proof.Machine.execLimitChatter m l ages s
  | .motorTargetReached m => Sys2Proof.Machine.execMotorTargetReached m s
  | .moveTmo m => Sys2Proof.Machine.execMoveTmo m s
  | .encoderError m count => Sys2Proof.Machine.execEncoderError m count s
  | .fanUpdate f rd => Sys2Proof.Machine.execFanUpdate f rd s
  | .fanTachLost f silent => Sys2Proof.Machine.execFanTachLost f silent s
  | .fanBlind f => Sys2Proof.Machine.execFanBlind f s
  | .fanTachBack f => Sys2Proof.Machine.execFanTachBack f s
  | .fanFault f c => Sys2Proof.Machine.execFanFault f c s
  | .fanSpinupEnd f => Sys2Proof.Machine.execFanSpinupEnd f s
  | .fanNotSettled f => Sys2Proof.Machine.execFanNotSettled f s
  | .adcTrigger q => Sys2Proof.Machine.execAdcTrigger q s
  | .adcConversionDone c nano => Sys2Proof.Machine.execAdcConversionDone c nano s
  | .adcCut c => Sys2Proof.Machine.execAdcCut c s
  | .streamFlush st => Sys2Proof.Machine.execStreamFlush st s
  | .irqGapEnd => Sys2Proof.Machine.execIrqGapEnd s
  | .wmEdge k code => Sys2Proof.Machine.execWmEdge k code s
  | .fcEdge ix mv => Sys2Proof.Machine.execFcEdge ix mv s
  | .blankWindowEnd c input => Sys2Proof.Machine.execBlankWindowEnd c input s
  | .tamper es => Sys2Proof.Machine.execTamper es s
  | .recGapEnd ix => Sys2Proof.Machine.execRecGapEnd ix s
  | .tamperClear ix mv => Sys2Proof.Machine.execTamperClear ix mv s
  | .thermalSample die tx => Sys2Proof.Machine.execThermalSample die tx s
  | .dieShutdown sensor die => Sys2Proof.Machine.execDieShutdown sensor die s
  | .dieCooled hottest => Sys2Proof.Machine.execDieCooled hottest s
  | .twbOperationStart p sees alertLow => Sys2Proof.Machine.execTwbOperationStart p sees alertLow s
  | .twbAttemptEnd p e => Sys2Proof.Machine.execTwbAttemptEnd p e s
  | .twbTimeout p acked addr => Sys2Proof.Machine.execTwbTimeout p acked addr s
  | .twbRecovery p sclHigh sdaHigh => Sys2Proof.Machine.execTwbRecovery p sclHigh sdaHigh s
  | .twbBusStuck p => Sys2Proof.Machine.execTwbBusStuck p s
  | .alertSweep p rounds stillLow => Sys2Proof.Machine.execAlertSweep p rounds stillLow s
  | .alertHoldEnd p stillLow => Sys2Proof.Machine.execAlertHoldEnd p stillLow s
  | .periodicCensus p answers => Sys2Proof.Machine.execPeriodicCensus p answers s
  | .usbAttach mv => Sys2Proof.Machine.execUsbAttach mv s
  | .usbStandardRequest r => Sys2Proof.Machine.execUsbStandardRequest r s
  | .info seq addr => Sys2Proof.Machine.execInfo seq addr s
  | .regRead seq addr count arg => Sys2Proof.Machine.execRegRead seq addr count arg s
  | .regWrite seq addr count payload => Sys2Proof.Machine.execRegWrite seq addr count payload s
  | .jnlRead seq first count arg => Sys2Proof.Machine.execJnlRead seq first count arg s
  | .calRead seq addr => Sys2Proof.Machine.execCalRead seq addr s
  | .serviceDescriptor d => Sys2Proof.Machine.execServiceDescriptor d s
  | .serviceCompletionAck => Sys2Proof.Machine.execServiceCompletionAck s
  | .grantEnd => Sys2Proof.Machine.execGrantEnd s
  | .usbVbusOv mv => Sys2Proof.Machine.execUsbVbusOv mv s
  | .usbFlood refused => Sys2Proof.Machine.execUsbFlood refused s
  | .owlExpiry o feed => Sys2Proof.Machine.execOwlExpiry o feed s
  | .owlRung1 o => Sys2Proof.Machine.execOwlRung1 o s
  | .owlRung2 o => Sys2Proof.Machine.execOwlRung2 o s
  | .owlClockStop c => Sys2Proof.Machine.execOwlClockStop c s
  | .hostrstEnd => Sys2Proof.Machine.execHostrstEnd s
  | .headValidClear c => Sys2Proof.Machine.execHeadValidClear c s
  | .overflowClear c => Sys2Proof.Machine.execOverflowClear c s
  | .fltReactWrite n v => Sys2Proof.Machine.execFltReactWrite n v s
  | .linkUp gen2 => Sys2Proof.Machine.execLinkUp gen2 s
  | .usbDetach mv => Sys2Proof.Machine.execUsbDetach mv s
  | .usbSuspend suspended => Sys2Proof.Machine.execUsbSuspend suspended s
  | .usbReplyRead => Sys2Proof.Machine.execUsbReplyRead s
  | .badCmd seq cmd addr => Sys2Proof.Machine.execBadCmd seq cmd addr s
  | .faultCauseEnd src detail => Sys2Proof.Machine.execFaultCauseEnd src detail s
  | .softStopDone r => Sys2Proof.Machine.execSoftStopDone r s

end Sys2Proof.Machine
end

