-- ==== Sys2Proof/Machine/Tick.lean ====
section
/-! DEFINITION. What one microsecond brings about by itself (notes/assumptions/6.md): measurements end (R154), references
slew (R150 to R152), shares and phases move (R170), the charger's timers count (R206) and the Owls count (R338). -/

namespace Sys2Proof.Machine

/-- Switching periods of lane `n` that end in the microsecond before now. -/
def periods (s : State) (n : Fin 48) : Nat :=
  let per := perIn s n
  let t := (now s).toNat
  if per = 0 then 0 else 400 * t / per - 400 * (t - 1) / per

/-- `a` moves toward `b` by at most `k`. -/
def toward (a b k : Nat) : Nat := if a < b then min b (a + k) else max b (a - k)

/-- Lanes whose measurement is over. -/
def measuresEnd (s : State) : State :=
  (fins 48).foldl (fun t n => match t.lanes[n].meas with
    | some (_, due) => if laterT due (now t) then t else measured n t
    | none => t) s

/-- Whether a running lane's last period ended at the cycle limit: a live reading (notes/assumptions/9.md). -/
def limitSeen (s : State) (n : Fin 48) : Bool := laneRun s.lanes[n] && bit (live s (0x1040 + n.val * 0x100)) 5

/-- The reference of a rail is held: a lane stands at its limit, or did within one period (R150). -/
def slewHolds (s : State) (x : Rail) : Bool :=
  (runningOf s x).any (limitSeen s) || match x.limitAt with
    | some t => decide (400 * sinceT (now s) t < perIn s x.lead)
    | none => false

/-- The slew of the rail in 0.01 mV per µs (R148, R167). -/
def slewStep (s : State) (x : Rail) : Nat := 10 * (if x.slew = 0 then fld (laneReg s x.lead 0x10) 9 0 else x.slew)

/-- One microsecond of a running lane: reference, share and phase. -/
def laneTick (r : Rail) (held : Bool) (n : Fin 48) (s : State) : State :=
  let k := periods s n
  let lim := limitSeen s n
  let step := slewStep s r
  let place := phaseOf s n s.lanes[n].pos (nLanes r)
  let most := k * perIn s n / 64
  modLane n (fun l => { l with
    limiting := lim, slewHeld := held,
    ref := if held then l.ref else toward l.ref r.goal step,
    fall := if r.goal < l.ref then 16 else l.fall - k,
    share := if l.state = .join then min 64 (l.share + k) else if l.state = .shed then l.share - k else l.share,
    moving := l.moving.bind (fun p => if toward p place most = place then none else some (toward p place most)) }) s

/-- One microsecond of a rail; its windows follow a reference that slews (R178). -/
def railTick (r : Fin 48) (s : State) : State :=
  match s.rails[r] with
  | none => s
  | some x =>
    -- with the lanes that leave the member set, until their SHED has ended (R170)
    let ns := (boundTo s r).filter (fun n => laneRun s.lanes[n])
    if ns.isEmpty then s
    else
      let held := slewHolds s x
      let s1 := modRail r (fun y => { y with
        limitAt := if ns.any (limitSeen s) then some (now s) else if held then y.limitAt else none }) s
      ns.foldl (fun t n => laneTick x held n t) s1

/-- Battery current in mA, as CHG_IBAT shows it. -/
def batteryMa (s : State) : Int := signed 16 (fld (live s 0x5420) 15 0)

/-- The charger's timers: the safety timer at full rate from half of ICHG on, at half rate below (R206). -/
def chgTick (s : State) : State :=
  let k := if rfld s 0x5408 9 0 * 5 ≤ batteryMa s then 2 else 1
  modChg (fun c => { c with
    safety := if c.state = .cc || c.state = .cv then c.safety + k else c.safety,
    preTime := if c.state = .precharge then c.preTime + 1 else c.preTime }) s

/-- What an Owl counts at 100 kHz: TMO in WATCH, the wait for the next rung, OFF_T (R338, R344). -/
def owlTick (o : Fin 2) (s : State) : State :=
  let st := s.owl.owls[o].state
  let runs := owlCounts s o || st = .expired || st = .resetting
  modOwl o (fun x => { x with left := if runs then x.left - 1 else x.left, off := x.off.map (· - 1) }) s

/-- Whether a pass of the Core domain's scheduling has completed in these 10 µs is open; each is a feed of the Core Owl
(R338, R345, notes/assumptions/68.md). -/
def corePass (s : State) : State :=
  if !owlEn s 1 || (s.clk.domains[0]).parked then s
  else let d := drawNat s; if d.1 % 2 = 0 then owlFed 1 d.2 else d.2

/-- One microsecond of DEN_TIME, already counted. -/
def tick (s : State) : State :=
  let s1 := (fins 48).foldl (fun t r => railTick r t) (measuresEnd (chgTick s))
  if (now s).toNat % 10 = 0 then corePass (owlTick 1 (owlTick 0 s1)) else s1

end Sys2Proof.Machine
end

