-- ==== Sys2Proof/Machine/Step.lean ====
section
/-! DEFINITION. One step: the command at the front of the queue; with none waiting, one microsecond of DEN_TIME. -/

namespace Sys2Proof.Machine

open Sys2Proof

/-- No command waits: DEN_TIME counts one microsecond while the Den domain is up, and what goes by time goes on (R62;
notes/assumptions/6.md). -/
def idle (s : State) : State := if s.den.up then tick { s with den := { s.den with time := s.den.time + 1 } } else s

def step (s : State) : Host.Outcome State Fault Refusal :=
  match s.pending with
  | [] => .next (idle s)
  | c :: rest => exec c { s with pending := rest }

/-- The command that a word spells, put at the front of the queue; `s` where it spells none. -/
def State.withFetchWord (s : State) (nbits w : Nat) : State :=
  match decodeTableWord nbits w with
  | some c => { s with pending := c :: s.pending }
  | none => s

end Sys2Proof.Machine
end

