-- ==== Sys2Proof/Safety.lean ====
section
/-! DEFINITION. What a claim may call a good state of the hub, and the parts of the state that frames speak of. -/

namespace Sys2Proof.Machine

open Sys2Proof

/-- Keys strictly rising: the form of a journal bank's slots. -/
def rising {α : Type} (m : Sparse α) : Bool :=
  match m with
  | [] => true
  | (k, _) :: rest => rest.all (fun e => decide (k < e.1)) && rising rest

/-- The bounds and the forms that the hub keeps: every sparse store is in its one form; at most 64 events are held
(R113), each collector's FIFO holds at most 32 entries (R356), the deduplication window at most 1,024 TAGs (R133), the
boot image buffer at most 2,048 words (R146). -/
structure State.Good (s : State) : Prop where
  regs : spWf regReset s.regs = true
  gens : spWf genReset s.eng.gens = true
  partners : spWf (fun _ => none) s.twb.partners = true
  window : spWf (fun _ => 0) s.jnl.biWords = true
  image0 : spWf (fun _ => 0) s.jnl.image0 = true
  image1 : spWf (fun _ => 0) s.jnl.image1 = true
  bankA : rising s.jnl.bankA.slots = true
  bankB : rising s.jnl.bankB.slots = true
  events : heldEvents s ≤ 64
  faults : ∀ c : Fin 2, s.flt.coll[c].entries.length ≤ 32
  recent : s.jnl.recent.length ≤ 1024
  pointer : s.jnl.biPtr ≤ 2048

/-- The parts of the state. `pwr`, `link`, `eng`, `jnl` and `flt` are whole blocks; the names after each on its line
are pieces of it. -/
inductive Part where
  | out | regs
  | pwr | iface | pstate | strap | inputs
  | den | clk
  | link | cfg | hold | train | sqs | cqs | eq | sts
  | eng | items | comps | events | objects | line | armed
  | jnl | log | images | copies | window | queue
  | flt | causes
  | lanes | rails | graphs | bud | chg | relays | motors | fans | adc | cmp | thm | cal | twb | usb | owl
  deriving DecidableEq, Repr

def Power.inputPart (p : Power) : Bool × Bool := (p.acinValid, p.mains)
def Link.holdPart (l : Link) : Bool × Bool × Bool × Bool := (l.held, l.hold, l.bmeWait, l.dmaFail)
def Link.trainPart (l : Link) : Bool × Bool × LState × Bool × Bool × Bool :=
  (l.dlUp, l.gen2, l.lstate, l.perst, l.training, l.bme)
def Engine.eventPart (e : Engine) : List Event × Nat := (e.events, e.eventsLost)
def Engine.objectPart (e : Engine) : List (Nat × Word) × Sparse (BitVec 12) := (e.objs, e.gens)
def Journal.logPart (j : Journal) : Bank × Bank × Word := (j.bankA, j.bankB, j.head)
def Journal.imagePart (j : Journal) : Sparse Word × Sparse Word × Option (Fin 2) := (j.image0, j.image1, j.inUse)
def Journal.copyPart (j : Journal) : Sparse Word × Sparse Word := (j.image0, j.image1)
def Journal.windowPart (j : Journal) : Sparse Word × Nat × DWord × Bool × BiResult :=
  (j.biWords, j.biPtr, j.biMac, j.biBusy, j.biResult)

/-- Every cause that `g` has latched is latched in `f`, and every source FAULTED in `g` is FAULTED in `f`. -/
def Faults.Holds (f g : Faults) : Prop := ∀ n : Fin 192,
  (∀ d, g.src[n].latched.getLsbD d = true → f.src[n].latched.getLsbD d = true) ∧
    (g.src[n].faulted = true → f.src[n].faulted = true)

/-- Part `p` stands in `t` as it stands in `s`; of the part `causes`, none is lost. -/
def Part.same (p : Part) (s t : State) : Prop :=
  match p with
  | .out => t.out = s.out
  | .regs => t.regs = s.regs
  | .pwr => t.pwr = s.pwr
  | .iface => t.pwr.iface = s.pwr.iface
  | .pstate => t.pwr.pstate = s.pwr.pstate
  | .strap => t.pwr.strap = s.pwr.strap
  | .inputs => t.pwr.inputPart = s.pwr.inputPart
  | .den => t.den = s.den
  | .clk => t.clk = s.clk
  | .link => t.link = s.link
  | .cfg => t.link.cfg = s.link.cfg
  | .hold => t.link.holdPart = s.link.holdPart
  | .train => t.link.trainPart = s.link.trainPart
  | .sqs => t.link.sqs = s.link.sqs
  | .cqs => t.link.cqs = s.link.cqs
  | .eq => t.link.eq = s.link.eq
  | .sts => t.link.sts = s.link.sts
  | .eng => t.eng = s.eng
  | .items => t.eng.items = s.eng.items
  | .comps => t.eng.comps = s.eng.comps
  | .events => t.eng.eventPart = s.eng.eventPart
  | .objects => t.eng.objectPart = s.eng.objectPart
  | .line => t.eng.line = s.eng.line
  | .armed => t.eng.armed = s.eng.armed
  | .jnl => t.jnl = s.jnl
  | .log => t.jnl.logPart = s.jnl.logPart
  | .images => t.jnl.imagePart = s.jnl.imagePart
  | .copies => t.jnl.copyPart = s.jnl.copyPart
  | .window => t.jnl.windowPart = s.jnl.windowPart
  | .queue => t.jnl.queue = s.jnl.queue
  | .flt => t.flt = s.flt
  | .causes => t.flt.Holds s.flt
  | .lanes => t.lanes = s.lanes
  | .rails => t.rails = s.rails
  | .graphs => t.graphs = s.graphs
  | .bud => t.bud = s.bud
  | .chg => t.chg = s.chg
  | .relays => t.relays = s.relays
  | .motors => t.motors = s.motors
  | .fans => t.fans = s.fans
  | .adc => t.adc = s.adc
  | .cmp => t.cmp = s.cmp
  | .thm => t.thm = s.thm
  | .cal => t.cal = s.cal
  | .twb => t.twb = s.twb
  | .usb => t.usb = s.usb
  | .owl => t.owl = s.owl

/-- `t` is as `s` outside the parts named: the frame of a command. The queue, which no command touches, and the count
of free values drawn are no part. -/
def Frame (ps : List Part) (s t : State) : Prop := ∀ p, p ∉ ps → p.same s t

/-! ### What each command may change -/

/-- A record goes to the banks; with the first the root may start again (R57). -/
def records : List Part :=
  [.clk, .jnl, .log]

/-- An event is posted, its vector sent. -/
def posts : List Part :=
  [.out, .regs, .link, .eq, .eng, .events]

/-- An item gets its final verdict. -/
def finishes : List Part :=
  [.out, .regs, .clk, .link, .cqs, .eng, .items, .comps, .objects, .line, .armed, .jnl, .log, .usb]

/-- An item begins work: what it supersedes ends. -/
def begins : List Part :=
  [.out, .regs, .clk, .link, .cqs, .eng, .items, .comps, .objects, .line, .armed, .jnl, .log, .rails, .bud, .relays,
    .motors, .fans, .usb]

/-- The arbiter serves, lowers or sheds what its grants allow (R196). -/
def serves : List Part :=
  [.out, .regs, .pwr, .clk, .link, .cqs, .eq, .eng, .items, .comps, .events, .objects, .line, .armed, .jnl, .log,
    .lanes, .rails, .graphs, .bud, .chg, .relays, .motors, .fans, .usb]

/-- Runs of graphs are looked at, and what hangs on their end follows. -/
def runsEnd : List Part :=
  [.out, .regs, .pwr, .pstate, .clk, .link, .train, .cqs, .eq, .eng, .items, .comps, .events, .objects, .line, .armed,
    .jnl, .log, .lanes, .rails, .graphs, .bud, .chg, .relays, .motors, .fans, .adc, .usb, .owl]

/-- A fault is raised: its reactions follow, and runs that they end. -/
def raises : List Part :=
  [.out, .regs, .pwr, .pstate, .clk, .link, .train, .cqs, .eq, .eng, .items, .comps, .events, .objects, .line, .armed,
    .jnl, .log, .flt, .lanes, .rails, .graphs, .bud, .chg, .relays, .motors, .fans, .adc, .cmp, .twb, .usb, .owl]

/-- Every part. -/
def everything : List Part :=
  [.out, .regs, .pwr, .iface, .pstate, .den, .clk, .link, .cfg, .hold, .train, .sqs, .cqs, .eq, .sts, .eng, .items,
    .comps, .events, .objects, .line, .armed, .jnl, .log, .images, .window, .queue, .flt, .lanes, .rails, .graphs,
    .bud, .chg, .relays, .motors, .fans, .adc, .cmp, .thm, .cal, .twb, .usb, .owl, .copies, .strap, .causes, .inputs]

/-- The parts that command `c` may change, but for the end of a shutdown toward BURROW (`mayEndRun`). -/
def touches (c : Instr) : List Part :=
  match c with
  | .hrstRelease .. => [.pwr]
  | .dentimeLoRead .. | .authtagLoRead .. | .hbeatLoRead .. => [.den]
  | .rootStop .. | .xclkLoss .. => [.clk]
  | .keyfuseDone .. => [.eng]
  | .fanSpinupEnd .. => [.fans]
  | .usbReplyRead .. => [.usb]
  | .linkTrainingStart .. | .linkRetrain .. | .l1Entry .. | .l1Exit .. => [.link, .train]
  | .laneSupplyRecover .. => [.flt, .lanes]
  | .lendVinReached .. => [.pwr, .chg]
  | .alertHoldEnd .. => [.flt, .twb]
  | .info .. | .jnlRead .. | .calRead .. | .badCmd .. => [.regs, .usb]
  | .usbSuspend .. => [.clk, .usb]
  | .hostrstEnd .. => [.pwr, .owl]
  | .vectorUnmask .. => [.out, .link, .cfg]
  | .adcTrigger .. => [.regs, .adc, .cal]
  | .regRead .. => [.regs, .den, .usb]
  | .usbStandardRequest .. => [.out, .clk, .usb]
  | .serviceDescriptor .. => [.jnl, .queue, .usb]
  | .reinstateA .. | .reinstateB .. => records ++ [.regs]
  | .linkUp .. => [.out, .link, .train, .flt]
  | .headValidClear .. | .overflowClear .. => records ++ [.flt]
  | .laneRemeasure .. => [.regs, .flt, .lanes, .rails]
  | .irqGapEnd .. => [.out, .regs, .link, .adc]
  | .twbOperationStart .. => [.out, .clk, .flt, .twb]
  | .armDelayExpiry .. => [.clk, .eng, .items, .line, .armed]
  | .biOpen .. | .biDataWrite .. | .biCommit .. => records ++ [.regs, .window]
  | .shake .. => posts ++ [.pwr]
  | .trimWindow .. | .sofMark .. => posts ++ [.clk]
  | .laneDropout .. => posts ++ [.lanes]
  | .inputAdapt .. | .cutoffPend .. => posts ++ [.chg]
  | .fanTachBack .. => posts ++ [.flt, .fans]
  | .streamFlush .. => posts ++ [.sts, .adc]
  | .usbAttach .. | .usbDetach .. => posts ++ [.clk, .usb]
  | .owlRung1 .. => posts ++ [.pwr, .owl]
  | .completionPost .. => records ++ [.out, .regs, .link, .cqs, .eng, .comps]
  | .descriptorArrival .. => posts ++ [.sqs, .jnl, .queue]
  | .autoShed .. => posts ++ [.flt, .lanes, .rails]
  | .holdSet .. => records ++ [.out, .link, .hold, .sqs, .queue, .owl]
  | .bmeClear .. => [.out, .link, .cfg, .hold, .train, .sqs, .jnl, .queue, .flt, .owl]
  | .perstAssert .. | .functionLevelReset .. =>
    [.out, .regs, .link, .cfg, .hold, .train, .sqs, .jnl, .queue, .flt, .owl]
  | .timeTrigger .. => records ++ posts ++ [.items, .line, .armed]
  | .holdRelease .. | .holdReleaseWait .. => records ++ [.out, .link, .hold, .cqs, .eq, .sts, .eng, .comps, .owl]
  | .bmeSet .. => [.out, .link, .cfg, .hold, .train, .cqs, .eq, .sts, .eng, .comps, .flt, .owl]
  | .recGapEnd .. => records ++ posts ++ [.items, .line, .armed, .flt, .cmp]
  | .grantEnd .. => posts ++ [.pwr, .iface, .items, .comps, .jnl, .queue, .usb, .owl]
  | .lendStartDone .. | .liftReached .. => finishes ++ [.chg]
  | .fanNotSettled .. => finishes ++ [.fans]
  | .twbAttemptEnd .. | .twbTimeout .. | .twbBusStuck .. => finishes ++ [.twb]
  | .adcCut .. => finishes ++ [.adc, .cal]
  | .fanUpdate .. => posts ++ finishes ++ [.fans]
  | .periodicCensus .. => posts ++ finishes ++ [.twb]
  | .gangDone .. => posts ++ finishes ++ [.flt, .lanes, .rails]
  | .nop .. | .fence .. | .disarm .. | .journalRead .. => begins
  | .adcConversionDone .. => posts ++ finishes ++ [.sts, .adc, .cal]
  | .railGang .. => begins ++ [.lanes]
  | .railLimits .. | .motorHome .. | .motorMove .. | .motorStop .. | .motorTargetReached .. | .moveTmo .. =>
    begins ++ [.chg]
  | .calSnapshot .. => begins ++ [.cal]
  | .twbXfer .. => begins ++ [.twb]
  | .arm .. => posts ++ begins
  | .adcSeqStart .. | .adcUrgent .. => begins ++ [.adc, .cal]
  | .bootImageWrite .. => begins ++ [.images, .copies]
  | .fanSet .. | .liftSet .. | .motorBrakeEnd .. => posts ++ begins ++ [.chg]
  | .railEnable .. => begins ++ [.flt, .lanes, .chg]
  | .adcSeqStop .. => posts ++ begins ++ [.adc]
  | .twbCensus .. => posts ++ begins ++ [.twb]
  | .calRestore .. => posts ++ begins ++ [.flt, .cal]
  | .journalCompaction .. | .serviceCompletionAck .. => posts ++ begins ++ [.pwr, .graphs, .owl]
  | .chgSet .. | .lendSet .. | .unshedHoldExpiry .. | .capBattUpdate .. | .chgStateChange .. | .chgRecharge ..
    | .lendStop .. | .fanBlind .. => serves
  | .serviceGrant .. => posts ++ begins ++ [.pwr, .iface, .queue, .owl]
  | .handleCreate .. => begins ++ [.flt, .lanes, .graphs, .adc, .cmp, .thm, .twb]
  | .leashSet .. => serves ++ [.flt, .adc]
  | .hostAutoRun .. | .railSetV .. | .railDisable .. | .seqGraphRun .. | .deferTmo .. | .graphNodeDone ..
    | .graphNodeTmo .. | .owlRung2 .. | .softStopDone .. => runsEnd
  | .laneSlewDone .. | .graphNodeStart .. => runsEnd ++ [.flt]
  | .thermalSet .. => runsEnd ++ [.thm]
  | .railPgAssert .. => runsEnd ++ [.flt, .cmp]
  | .faultClear .. => runsEnd ++ [.flt, .causes]
  | .mainsLoss .. | .mainsPresence .. | .sns1Qualify .. => runsEnd ++ [.cmp, .inputs]
  | .linkDown .. | .aerUncorrectable .. | .reinstateDone .. | .owlFeed .. | .relaySet .. | .gaugeRebase ..
    | .budgetSet .. | .faultReactionSet .. | .deferredItemServed .. | .rootLock .. | .lockFailRetry ..
    | .xclkQualified .. | .emberBad .. | .laneFault .. | .pgTmo .. | .prebiasTmo .. | .rsCorrection ..
    | .senseLost .. | .senseFrozen .. | .windowUv .. | .windowOv .. | .chgTerminate .. | .preTmo .. | .safetyTmo ..
    | .chgFault .. | .batswOpenFail .. | .gaugeSample .. | .senseRange .. | .batteryRest .. | .dsgOc ..
    | .lendFault .. | .liftFault .. | .relayPulseEnd .. | .relayPulseAbort .. | .relayRetry .. | .motorBridgeOc ..
    | .motorStall .. | .motorSupplyLost .. | .limitQualified .. | .limitChatter .. | .encoderError ..
    | .fanTachLost .. | .fanFault .. | .wmEdge .. | .fcEdge .. | .blankWindowEnd .. | .tamper .. | .tamperClear ..
    | .twbRecovery .. | .alertSweep .. | .usbVbusOv .. | .usbFlood .. | .fltReactWrite .. | .faultCauseEnd .. =>
    raises
  | .handleDestroy .. => runsEnd ++ [.cmp, .thm, .twb]
  | .acinValid .. => runsEnd ++ [.flt, .causes, .inputs]
  | .thermalSample .. | .dieShutdown .. | .dieCooled .. => raises ++ [.thm]
  | .calRun .. => raises ++ [.cal]
  | .doorbellPoll .. => raises ++ [.sqs, .sts]
  | .dmaReadFail .. | .journalWriteDone .. => raises ++ [.hold, .sqs, .queue]
  | .stuckTimer .. | .owlExpiry .. | .owlClockStop .. => raises ++ [.hold, .sqs, .queue, .thm, .cal]
  | .glbModeWrite .. | .registerWrite .. | .glbEpochHiWrite .. | .glbEpochLoWrite .. | .glbKeyfuseWrite ..
    | .clkDselWrite .. | .linkIpendWrite .. | .chgIntsrcWrite .. | .ringCfgWrite .. | .linkPollWrite ..
    | .regWrite .. => raises ++ [.iface, .den, .hold, .sqs, .sts, .window, .queue, .thm, .cal, .inputs]
  | .coldStart .. | .bootHoldClear .. | .acinInvalid .. | .powerFail .. | .uvBurrow .. | .burrowExitBtn ..
    | .burrowExitAcin .. | .shakePowerOff .. | .shakeOffTimeEnd .. | .biCommitDone .. | .burrowEnter .. | .cutoff .. =>
    everything

/-- The commands that may end a run of a graph, whose end finishes a shutdown toward BURROW that is running downward
  (R43). -/
def mayEndRun (c : Instr) : Bool :=
  match c with
  | .hostAutoRun .. | .glbModeWrite .. | .registerWrite .. | .glbEpochHiWrite .. | .glbEpochLoWrite ..
    | .glbKeyfuseWrite .. | .clkDselWrite .. | .linkIpendWrite .. | .chgIntsrcWrite .. | .ringCfgWrite ..
    | .linkPollWrite .. | .linkDown .. | .doorbellPoll .. | .dmaReadFail .. | .aerUncorrectable ..
    | .journalWriteDone .. | .reinstateDone .. | .owlFeed .. | .handleDestroy .. | .railSetV .. | .railDisable ..
    | .seqGraphRun .. | .relaySet .. | .gaugeRebase .. | .budgetSet .. | .thermalSet .. | .calRun ..
    | .faultClear .. | .faultReactionSet .. | .deferredItemServed .. | .deferTmo .. | .rootLock ..
    | .lockFailRetry .. | .xclkQualified .. | .emberBad .. | .stuckTimer .. | .laneSlewDone .. | .laneFault ..
    | .railPgAssert .. | .pgTmo .. | .prebiasTmo .. | .rsCorrection .. | .senseLost .. | .senseFrozen ..
    | .windowUv .. | .windowOv .. | .graphNodeStart .. | .graphNodeDone .. | .graphNodeTmo .. | .chgTerminate ..
    | .preTmo .. | .safetyTmo .. | .chgFault .. | .batswOpenFail .. | .gaugeSample .. | .senseRange ..
    | .batteryRest .. | .dsgOc .. | .lendFault .. | .liftFault .. | .relayPulseEnd .. | .relayPulseAbort ..
    | .relayRetry .. | .motorBridgeOc .. | .motorStall .. | .motorSupplyLost .. | .limitQualified ..
    | .limitChatter .. | .encoderError .. | .fanTachLost .. | .fanFault .. | .wmEdge .. | .fcEdge ..
    | .blankWindowEnd .. | .tamper .. | .tamperClear .. | .thermalSample .. | .dieShutdown .. | .dieCooled ..
    | .twbRecovery .. | .alertSweep .. | .regWrite .. | .usbVbusOv .. | .usbFlood .. | .owlExpiry .. | .owlRung2 ..
    | .owlClockStop .. | .fltReactWrite .. | .faultCauseEnd .. | .softStopDone .. => true
  | .coldStart .. | .bootHoldClear .. | .acinValid .. | .acinInvalid .. | .mainsLoss .. | .mainsPresence ..
    | .sns1Qualify .. | .rootStop .. | .powerFail .. | .uvBurrow .. | .burrowExitBtn .. | .burrowExitAcin ..
    | .shake .. | .shakePowerOff .. | .shakeOffTimeEnd .. | .hrstRelease .. | .dentimeLoRead .. | .authtagLoRead ..
    | .hbeatLoRead .. | .keyfuseDone .. | .holdSet .. | .holdRelease .. | .holdReleaseWait .. | .bmeSet ..
    | .bmeClear .. | .perstAssert .. | .functionLevelReset .. | .linkTrainingStart .. | .linkRetrain ..
    | .l1Entry .. | .l1Exit .. | .vectorUnmask .. | .descriptorArrival .. | .journalCompaction ..
    | .completionPost .. | .reinstateA .. | .reinstateB .. | .biOpen .. | .biDataWrite .. | .biCommit ..
    | .biCommitDone .. | .nop .. | .fence .. | .handleCreate .. | .railEnable .. | .railGang .. | .railLimits ..
    | .motorHome .. | .motorMove .. | .motorStop .. | .fanSet .. | .adcSeqStart .. | .adcSeqStop .. | .adcUrgent ..
    | .twbXfer .. | .twbCensus .. | .chgSet .. | .lendSet .. | .liftSet .. | .leashSet .. | .calSnapshot ..
    | .calRestore .. | .arm .. | .disarm .. | .burrowEnter .. | .bootImageWrite .. | .journalRead ..
    | .serviceGrant .. | .unshedHoldExpiry .. | .capBattUpdate .. | .timeTrigger .. | .armDelayExpiry ..
    | .xclkLoss .. | .trimWindow .. | .sofMark .. | .laneRemeasure .. | .laneSupplyRecover .. | .laneDropout ..
    | .gangDone .. | .autoShed .. | .chgStateChange .. | .chgRecharge .. | .inputAdapt .. | .cutoffPend ..
    | .cutoff .. | .lendVinReached .. | .lendStartDone .. | .lendStop .. | .liftReached .. | .motorBrakeEnd ..
    | .motorTargetReached .. | .moveTmo .. | .fanUpdate .. | .fanBlind .. | .fanTachBack .. | .fanSpinupEnd ..
    | .fanNotSettled .. | .adcTrigger .. | .adcConversionDone .. | .adcCut .. | .streamFlush .. | .irqGapEnd ..
    | .recGapEnd .. | .twbOperationStart .. | .twbAttemptEnd .. | .twbTimeout .. | .twbBusStuck ..
    | .alertHoldEnd .. | .periodicCensus .. | .usbAttach .. | .usbStandardRequest .. | .info .. | .regRead ..
    | .jnlRead .. | .calRead .. | .serviceDescriptor .. | .serviceCompletionAck .. | .grantEnd .. | .owlRung1 ..
    | .hostrstEnd .. | .headValidClear .. | .overflowClear .. | .linkUp .. | .usbDetach .. | .usbSuspend ..
    | .usbReplyRead .. | .badCmd .. => false

/-- Command `c` answers a next state in `s`, of which `P` holds. -/
def Runs (c : Instr) (s : State) (P : State → Prop) : Prop := ∃ t, exec c s = .next t ∧ P t

/-! ### Items at work -/

/-- The root runs for the item, and what it supersedes has completed (R57, R106). -/
def cleared (it : Item) (s : State) : State := supersede it (rootWake s)

/-- Item `it` may begin work under opcode `op`: it heads its queue, or it supersedes what stands before it (R103, R106), and
the log has room for its records still (R139). -/
def Turn (op : Nat) (a : Word) (it : Item) (s : State) : Prop :=
  findItem s a = some it ∧ it.opcode.toNat = op ∧ canBegin s it = true ∧ mustWait (cleared it s) = false

/-- The state in which the work of `it` begins. -/
def takenUp (it : Item) (s : State) : State :=
  modItem it.aseq (fun i => { i with phase := .working, began := now s }) (cleared it s)

/-- The turn of `it` has come, and its handle stands (R105); `u` is the state in which its work begins. -/
def Works (op : Nat) (a : Word) (it : Item) (s u : State) : Prop :=
  Turn op a it s ∧ u = takenUp it s ∧ handleErr u op it.handle = none

/-- Cause `d` of source `n` is latched already: its episode lasts until FAULT_CLEAR (R230). -/
def inEpisode (s : State) (n d : Nat) : Bool := (causesOf s n).latched.getLsbD (d - 1)

/-- `it` has its final verdict: it stands in no queue, and the completion of an item of an SQ stands until the host
acknowledges it (R109, R132). -/
def Answered (it : Item) (v : Verdict) (detail : Nat) (result : DWord) (t : State) : Prop :=
  findItem t it.aseq = none ∧ (it.ring.toNat < 16 → ∃ c ∈ t.eng.comps,
    c.aseq = it.aseq ∧ c.verdict = v ∧ c.detail = BitVec.ofNat 8 detail ∧ c.result = result)

/-- Source `n` is FAULTED, and cause `d` is latched there (R348, R350). -/
def Latched (s : State) (n d : Nat) : Prop :=
  faulted s n = true ∧ (causesOf s n).latched.getLsbD (d - 1) = true

/-- The hub has started (R31): VDEN is up, DEN_TIME counts from 0, the straps are those read. -/
def Started (w : StartWorld) (t : State) : Prop :=
  t.den = { Den.reset with up := true } ∧ t.pwr.strap = strapWord w

/-- `c` gives `it` its final verdict, the work of it done in `u`. -/
def Finishes (c : Instr) (s : State) (it : Item) (v : Verdict) (detail : Nat) (result : DWord) (u : State) : Prop :=
  Runs c s (fun t => t = complete it.aseq v detail result u ∧ Answered it v detail result t)

/-- `c` puts the request `q` of `it` to the budget: served it goes on with `k`, refused it has its verdict, else it
waits with an interim completion (R110, R191, R192). -/
def AsksBudget (c : Instr) (s : State) (it : Item) (q : Req) (k : State → State) (u : State) : Prop :=
  Runs c s (fun t => t = itemAsks it.aseq q k u ∧
    ∀ n, ask u q = .refused n → Answered it .refusedBudget 0x10 (BitVec.ofNat 64 n) t)

/-- The turn of `it` has come on rail slot `r`, which holds the rail `x` then. -/
def OnRail (op : Nat) (a : Word) (it : Item) (r : Fin 48) (x : Rail) (s u : State) : Prop :=
  Works op a it s u ∧ hSlot it.handle = r.val ∧ u.rails[r] = some x

end Sys2Proof.Machine
end

