-- ==== Sys2Proof/Certificates/Slice0/Obligations.lean ====
section
/-! DEFINITION. The statements for the provers. A statement about commands gives, for every state and operands that meet
its hypotheses, the next state that the command answers or what that state holds; what it leaves is said for all of them
together by `FramesStand`. -/

open Sys2Proof Sys2Proof.Machine

/-! ### The queue and the state at large -/

/-- A step takes the command at the front of the queue and runs it on the state with the queue's rest. -/
def Obligations.StepRunsFront : Prop :=
  ∀ (c : Instr) (rest : List Instr) (s : State), s.pending = c :: rest → step s = exec c { s with pending := rest }

/-- With no command waiting, one microsecond passes while the Den domain has supply: DEN_TIME counts (R62), the charger's
timers count in their states alone (R205, R206), and nothing outside the registers, the faults, the lanes, the rails, the
charger and the Owls changes. That the idle step is this microsecond is the model's choice (notes/assumptions/6.md). -/
def Obligations.StepIdles : Prop := ∀ s : State, s.pending = [] →
  (s.den.up = false → step s = .next s) ∧
  (s.den.up = true → ∃ t, step s = .next t ∧ t.den = { s.den with time := s.den.time + 1 } ∧
    Frame [.regs, .den, .flt, .lanes, .rails, .chg, .owl] s t ∧ t.chg.state = s.chg.state ∧
    (s.chg.state ≠ .cc → s.chg.state ≠ .cv → t.chg.safety = s.chg.safety) ∧
    (s.chg.state = .cc ∨ s.chg.state = .cv → t.chg.safety = s.chg.safety + 1 ∨ t.chg.safety = s.chg.safety + 2) ∧
    t.chg.preTime = (if s.chg.state = .precharge then s.chg.preTime + 1 else s.chg.preTime))

/-- Every step answers a next state: it leaves the rest of the queue as it stands and takes back nothing that was sent. That
no command stops is the model's own finding (notes/assumptions/8.md). -/
def Obligations.EveryStepAnswers : Prop :=
  ∀ s : State, ∃ t, step s = .next t ∧ t.pending = s.pending.tail ∧ s.out <:+ t.out

/-- The bounds and forms of `State.Good` hold after every step from a state where they hold. -/
def Obligations.GoodKept : Prop := ∀ s t : State, s.Good → step s = .next t → t.Good

/-- The state before the first start meets `State.Good` and has what the register chapters give: no supply on VDEN, HUSH,
SETUP, no command waiting, and numeric reset values, read as the registers read. That State.reset is the moment before
the first start is the model's choice (notes/assumptions/4.md). -/
def Obligations.ResetHolds : Prop :=
  State.reset.Good ∧
  State.reset.den.up = false ∧ State.reset.pwr.pstate = .hush ∧ State.reset.pwr.iface = .setup ∧
  State.reset.pending = [] ∧ State.reset.out = [] ∧ State.reset.regs = [] ∧
  readReg State.reset 0x002C = 0x48504E53 ∧ readReg State.reset 0x5008 = 0 ∧ readReg State.reset 0x7800 = 0x00141E01

/-- A key slot that is fused stays fused with its words, whatever step the hub takes, losses of supply included. -/
def Obligations.FusedKeysStand : Prop :=
  ∀ (s t : State) (k : Fin 4), s.eng.keys[k].fused = true → step s = .next t →
    t.eng.keys[k].fused = true ∧ t.eng.keys[k].words = s.eng.keys[k].words

/-- What a command leaves: every part of the state outside `touches c`. Where a shutdown toward BURROW runs down its
graphs, the commands of `mayEndRun` can end its last run, with which the Den domain falls; they are stated for the rest
of the time. -/
def Obligations.FramesStand : Prop :=
  ∀ (c : Instr) (s t : State), (mayEndRun c = false ∨ s.pwr.burrowing = false) → exec c s = .next t →
    Frame (touches c) s t

/-! ### Power states and start (spec/03) -/

/-- What starts the hub: first power or a return of supply, the STRAP1 press, ACIN after an absence, the end of a Shake's
off-time; each runs the cold start (R31, R45, R46). DEN_TIME counts from 0 (R62) and the straps are those read (R20). -/
def Obligations.StartsStart : Prop := ∀ (w : StartWorld) (s : State),
  s.den.up = false → (w.strap3 = .k47 → 9000 ≤ w.batsns) → (10000 ≤ w.batsns ∨ w.acinValid = true) →
    (s.pwr.latch.inBurrow = false → s.pwr.stage ≠ .shakeOff → Runs (.coldStart w) s (Started w)) ∧
    (s.pwr.latch.inBurrow = true → s.pwr.latch.uv = false → Runs (.burrowExitBtn w) s (Started w)) ∧
    (s.pwr.latch.inBurrow = true → s.pwr.latch.acinLost = true → Runs (.burrowExitAcin w) s (Started w)) ∧
    (s.pwr.stage = .shakeOff → Runs (.shakeOffTimeEnd w) s (Started w))

/-- Every cold start, and the end of a Shake, leaves the hub in SETUP, where it neither polls nor takes a descriptor. -/
def Obligations.EveryStartLeavesSetup : Prop := ∀ (w : StartWorld) (p : DoorbellPage) (q : Fin 16) (d : Descriptor)
    (s : State),
  (s.den.up = false →
    (s.pwr.latch.inBurrow = false → s.pwr.stage ≠ .shakeOff → Runs (.coldStart w) s (fun t => t.pwr.iface = .setup)) ∧
    (s.pwr.latch.inBurrow = true → s.pwr.latch.uv = false →
      Runs (.burrowExitBtn w) s (fun t => t.pwr.iface = .setup)) ∧
    (s.pwr.latch.inBurrow = true → s.pwr.latch.acinLost = true →
      Runs (.burrowExitAcin w) s (fun t => t.pwr.iface = .setup)) ∧
    (s.pwr.stage = .shakeOff → Runs (.shakeOffTimeEnd w) s (fun t => t.pwr.iface = .setup))) ∧
  (s.pwr.iface = .setup → exec (.doorbellPoll p) s = .next s ∧ exec (.descriptorArrival q d) s = .next s)

/-- The battery check of the start (R31, R33): no battery holds it before BATSW closes; too low a battery without ACIN goes
back to BURROW; a hold that ends lets the start go on. That a low battery without ACIN ends in BURROW as an
undervoltage entry is the model's reading (notes/assumptions/20.md). -/
def Obligations.BatteryCheckDecides : Prop := ∀ (w : StartWorld) (s : State),
  (s.den.up = false → s.pwr.latch.inBurrow = false → s.pwr.stage ≠ .shakeOff → w.strap3 ≠ .k47 →
    (w.batsns < 2000 → w.acinValid = true → Runs (.coldStart w) s (fun t =>
      t.den.up = true ∧ t.pwr.bootHold = .noBattery ∧ t.pwr.batsw = false)) ∧
    (w.batsns < 9000 → w.acinValid = false → Runs (.coldStart w) s (fun t =>
      t.den.up = false ∧ t.pwr.latch.inBurrow = true ∧ t.pwr.latch.uv = true))) ∧
  (s.den.up = true → s.pwr.stage = .heldBattery → ∀ t, t = sawBatsns w.batsns s →
    (battTooLow t = false → holdsOpen (battHold false t) t = false → exec (.bootHoldClear w) s = .next (runStart w t)) ∧
    (battTooLow t = true → battless t = false → exec (.bootHoldClear w) s = .next (toBurrow t)))

/-- What ends the hub's supply: power fail (R30), the undervoltage entry to BURROW (R43, R44), a Shake (R46); and BURROW_ENTER
(R43), whose item has its DONE before the shutdown toward BURROW begins. -/
def Obligations.SupplyEnds : Prop :=
  (∀ (e : BitVec 8) (mv : Nat) (s : State), s.den.up = true →
  (s.pwr.acinValid = false → Runs (.powerFail e) s (fun t =>
    t.den.up = false ∧ t.pwr.stage = .down ∧ t.pwr.latch.denLoss = true ∧ t.jnl.queue = [])) ∧
  (s.pwr.stage ≠ .shaking → Runs .shake s (fun t => t.pwr.stage = .shaking ∧
    t = event 0x0103 0 0 0 0 (modPwr (fun p => { p with stage := .shaking }) s))) ∧
  (s.pwr.stage = .shaking → Runs .shakePowerOff s (fun t =>
    t.den.up = false ∧ t.pwr.stage = .shakeOff ∧ t.pwr.latch.shake = true)) ∧
  (battless s = false → s.pwr.acinValid = false → s.pwr.stage ≠ .shaking →
    mv < uvMv s →
    (s.pwr.burrowing = false → s.pwr.stage = .heldBattery → Runs (.uvBurrow mv) s (fun t =>
      t.den.up = false ∧ t.pwr.latch.inBurrow = true ∧ t.pwr.latch.uv = true ∧ t.pwr.latch.gaugeZero = true)) ∧
    (s.pwr.burrowing = false → s.pwr.stage ≠ .heldBattery → exec (.uvBurrow mv) s = .next (burrowStart
      (modPwr (fun p => { p with latch := { p.latch with uv := true, gaugeZero := true } }) s))) ∧
    (s.pwr.burrowing = true → exec (.uvBurrow mv) s = .next
      (modPwr (fun p => { p with latch := { p.latch with uv := true, gaugeZero := true } }) s)))) ∧
  (∀ (a : Word) (it : Item) (s u : State), Works 0x70 a it s u →
  (battless u = false → u.pwr.acinValid = false → Answered it .done 0 0 (complete a .done 0 0 (commitStart it u)) ∧
    ((complete a .done 0 0 (commitStart it u)).pwr.burrowing = false → exec (.burrowEnter a) s = .next
      (settle (burrowStart (complete a .done 0 0 (commitStart it u)))))) ∧
  (battless u = true ∨ u.pwr.acinValid = true → Runs (.burrowEnter a) s (Answered it .refusedState 0 0)))

/-- ACIN, the mains-present fact and COMBINE (R29, R282, R283): the facts of the power state follow their inputs. HOST_AUTO
runs the host graph upward (R42), and 1 ms after a run HRST_N lets go (R187, R295). What an interval of FC12 is, is the model's
reading (notes/assumptions/97.md). -/
def Obligations.InputFactsFollow : Prop :=
  (∀ (mv : Nat) (b : Bool) (s : State), s.den.up = true →
  (17500 ≤ mv → mv ≤ 37000 → s.pwr.acinValid = false → Runs (.acinValid mv) s (fun t =>
    t.pwr.acinValid = true ∧ t.pwr.mains = s.pwr.mains)) ∧
  (mv < 16500 ∨ 38000 < mv → s.pwr.acinValid = true → s.pwr.burrowing = false → s.pwr.stage ≠ .heldBattery →
    Runs (.acinInvalid mv) s (fun t =>
    t.pwr.acinValid = false ∧ t.pwr.mains = s.pwr.mains)) ∧
  (s.cmp.sns0 = true → s.cmp.fcs[12].active = false → lossTime s ≤ sinceT (now s) s.cmp.mains.fall →
    Runs .mainsLoss s (fun t => t.cmp.sns0 = false ∧ t.pwr.mains =
      (if rfld s 0x700C 25 24 = 0 then false else if rfld s 0x700C 25 24 = 1 then false else s.cmp.sns1))) ∧
  (s.cmp.sns0 = false → 0 < s.cmp.mains.rises → sinceT (now s) s.cmp.mains.rise ≤ lossTime s →
    (s.cmp.mains.lost = true → 100000 * rfld s 0x700C 15 8 ≤ sinceT (now s) s.cmp.mains.first) →
    (s.cmp.mains.lost = false → 3 ≤ s.cmp.mains.rises) → Runs .mainsPresence s (fun t => t.cmp.sns0 = true ∧ t.pwr.mains =
      (if rfld s 0x700C 25 24 = 0 then true else if rfld s 0x700C 25 24 = 1 then s.cmp.sns1 else true))) ∧
  (∀ high, high = (b != rbit s 0x700C 26) → s.cmp.sns1 ≠ b → rfld s 0x700C 25 24 ≠ 0 → fcMode s 13 ≠ 3 → sns1High s = high →
    1000 * rfld s 0x700C 23 16 ≤ sinceT (now s) s.cmp.mains.change1 → Runs (.sns1Qualify high) s (fun t =>
      t.cmp.sns1 = b ∧ t.pwr.mains = (if rfld s 0x700C 25 24 = 1 then s.cmp.sns0 && b else s.cmp.sns0 || b)))) ∧
  (∀ (g : Fin 16) (s : State), s.den.up = true → s.pwr.stage = .started →
  (s.pwr.pstate = .full → rbit s 0x001C 4 = true → s.pwr.hostUp = false → hostRuns s = false → hostGraph s = g.val →
    keptDown s g = false → hot s = false → exec .hostAutoRun s = .next (settle (hubRun g false .hub s))) ∧
  (s.pwr.hrstDue = true → s.pwr.pstate ≠ .hush → exec .hrstRelease s = .next { s with
    pwr := { s.pwr with hrstDue := false, hrst := { s.pwr.hrst with start := false, die := false } } }))

/-! ### Clocks (spec/04) -/

/-- The reference (R53, R54, R56, R66): XCLK lost and qualified, the root's lock, a failed lock, a bad ember. The root stops
in HUSH (R57), and a stuck multiplexer resets its domain, which is then told (R60, R61). -/
def Obligations.ReferenceMoves : Prop :=
  (∀ s : State, s.den.up = true → s.pwr.burrowing = false →
  (s.pwr.pstate ≠ .hush → s.clk.xPresent = true → Runs .xclkLoss s (fun t =>
    t.clk.refEmber = true ∧ t.clk.xPresent = false ∧ t.clk.losses = now s :: recentLosses s s.clk.losses ∧
    (s.clk.refEmber = false → t.clk.locked = false ∧ t.clk.coasting = true ∧ t.clk.lossPending = true))) ∧
  (s.clk.rootRun = true → s.clk.locked = false →
    (s.clk.lossPending = false → Runs .rootLock s (fun t =>
      t.clk.locked = true ∧ t.clk.coasting = false ∧ isPresent t 173 1 = false)) ∧
    (s.clk.lossPending = true → Runs .rootLock s (fun t => Latched t 171 1)) ∧
    (isPresent s 173 1 = false → Runs .lockFailRetry s (fun t => Latched t 173 1)) ∧
    (isPresent s 173 1 = true → exec .lockFailRetry s = .next (countReg 0x0118 23 16 1 s))) ∧
  (s.pwr.pstate ≠ .hush →
    (s.clk.refEmber = false → Runs .xclkQualified s (fun t =>
      t.clk.xPresent = true ∧ t.clk.src = .xclk ∧ isPresent t 171 1 = false)) ∧
    (s.clk.refEmber = true → s.clk.rootRun = true → rbit s 0x0104 0 = true → rbit s 0x0104 2 = false →
      (s.clk.xPresent = true ∨ (recentLosses s s.clk.losses).length < 4) →
        Runs .xclkQualified s (fun t => Latched t 171 2))) ∧
  (s.clk.xPresent = true → isPresent s 171 3 = false → Runs .emberBad s (fun t => Latched t 171 3)) ∧
  (s.clk.xPresent = false → exec .emberBad s = .next s)) ∧
  (∀ (d : Fin 9) (s : State),
  (adcBusy s = false → portsBusy s = false → s.pwr.pstate = .hush → s.usb.vbus = false → journalBusy s = false →
    s.clk.rootRun = true →
    Runs .rootStop s (fun t => t.clk.rootRun = false ∧ t.clk.locked = false ∧
      (d ≠ 7 → t.clk.domains[d].ember = true ∧ t.clk.domains[d].parked = parks d) ∧
      t.clk.domains[7] = s.clk.domains[7])) ∧
  (s.den.up = true → d ≠ 7 → exec (.stuckTimer d) s = .next (event 0x0201 0 d.val 0 0
    (orReg 0x011C (flag d.val true) (countReg (0x0168 + 0x20 * d.val) 15 0 1 (domainReset d s))))))

/-- The ember trim moves CODE by at most 64 steps a window, whatever the error (R49, R50, R51, R365). -/
def Obligations.TrimMovesWithinItsStep : Prop := ∀ (n : Nat) (s : State), s.den.up = true →
  -1024 ≤ s.clk.code → s.clk.code ≤ 1023 →
    (s.clk.xPresent = true → s.pwr.pstate ≠ .hush → Runs (.trimWindow n) s (fun t => t.clk.src = .xclk ∧
      s.clk.code - 64 ≤ t.clk.code ∧ t.clk.code ≤ s.clk.code + 64 ∧ -1024 ≤ t.clk.code ∧ t.clk.code ≤ 1023)) ∧
    (s.usb.attached = true → s.usb.suspended = false → s.usb.configured = true → rbit s 0x0104 1 = true →
      s.clk.xPresent = false → Runs (.sofMark n) s (fun t =>
      t.clk.src = .sof ∧ s.clk.code - 64 ≤ t.clk.code ∧ t.clk.code ≤ s.clk.code + 64))

/-- A start-of-frame interval outside 8,000 ± 80 ember cycles is discarded: neither CODE nor the count toward
TRIM_LOCKED moves. USB_SOFCNT counts it, and each mark that the attached port sees (R328). -/
def Obligations.SofIntervalsAreDiscarded : Prop := ∀ (n : Nat) (s : State), 8080 < n ∨ n < 7920 →
  (s.den.up = true → s.usb.attached = true → s.usb.suspended = false →
    (s.usb.configured = true → rbit s 0x0104 1 = true → s.clk.xPresent = false → ∀ u, u = countReg 0x9010 15 0 1 s →
      exec (.sofMark n) s = .next (countReg 0x9010 31 16 1 { u with clk := { u.clk with src := .sof } })) ∧
    (s.usb.configured = false ∨ rbit s 0x0104 1 = false ∨ s.clk.xPresent = true →
      exec (.sofMark n) s = .next (countReg 0x9010 15 0 1 s))) ∧
  (s.den.up = false ∨ s.usb.attached = false ∨ s.usb.suspended = true → exec (.sofMark n) s = .next s)

/-! ### Registers (spec/23) -/

/-- A write to GLB_MODE (R37, R38): RUN entry where every condition holds, REFUSE where one fails, in RUN only a count. -/
def Obligations.RunIsEntered : Prop := ∀ (v : Word) (s : State), s.den.up = true → s.link.dlUp = true →
  (setupWrites s = true → s.jnl.scanned = true → fld v 1 0 = 1 →
    (runRefusal s v ≠ 0 → Runs (.glbModeWrite v) s (fun t => t.pwr.refuse = runRefusal s v ∧ t.pwr.iface = s.pwr.iface)) ∧
    (runRefusal s v = 0 → s.pwr.burrowing = false → Runs (.glbModeWrite v) s (fun t => t.pwr.iface = .run))) ∧
  (setupWrites s = false → exec (.glbModeWrite v) s = .next (lockedWrite 0x0010 v s))

/-- One register write (R371, R332): no access without supply or link, a partial write is only counted, a port write takes
effect in a granted SETUP; a plain register takes the word. -/
def Obligations.WritesReachTheirRegister : Prop := ∀ (o : BitVec 16) (be : BitVec 4) (v : Word) (a : Acc) (s : State),
  (s.den.up = false ∨ s.link.dlUp = false → exec (.registerWrite .link o be v) s = .next s) ∧
  (s.den.up = true → s.link.dlUp = true →
    (regAccess o.toNat = some a → be ≠ 0xF → exec (.registerWrite .link o be v) s = .next (countReg 0x003C 15 0 1 s)) ∧
    (regAccess o.toNat = some a → be = 0xF →
      exec (.registerWrite .link o be v) s = .next (writeDefined o.toNat a v s)) ∧
    (s.Good → Runs (.registerWrite .link 0x0038 0xF v) s (fun t => readReg t 0x0038 = v))) ∧
  (s.den.up = true → portLocked o.toNat = true ∨ portMayWrite s = false →
    exec (.registerWrite .port o be v) s = .next s) ∧
  (s.den.up = true → portLocked o.toNat = false → s.pwr.iface = .granted →
    exec (.registerWrite .port o be v) s = .next (writeAt o.toNat 0xF v s))

/-- Reserved space of BAR0 reads zero, and a write to it is counted in ACC_RSVD alone. -/
def Obligations.ReservedSpaceIsCounted : Prop := ∀ (src : Source) (o : BitVec 16) (be : BitVec 4) (v : Word) (s : State),
  (0x9800 ≤ o.toNat → regAccess o.toNat = none) ∧
  (regAccess o.toNat = none → readBy src s o.toNat = 0 ∧
    (s.den.up = true →
      (s.link.dlUp = true → exec (.registerWrite .link o be v) s = .next (countReg 0x003C 31 16 1 s)) ∧
      (s.pwr.iface = .granted → portLocked o.toNat = false →
        exec (.registerWrite .port o be v) s = .next (countReg 0x003C 31 16 1 s))))

/-- Reads of the low half of a pair latch the high half for that reader alone (R64, R372). The epoch (R65, R379), the fusing
of a key (R119), W1C bits and the poll times (R72, R76, R228), by writes over the link. CLK_DSEL selects a domain's source in
SETUP, and in RUN the write is only counted (R59). -/
def Obligations.SpecialRegistersAct : Prop :=
  (∀ (src : Source) (k : Fin 4) (s : State), s.den.up = true →
  (src = .port ∨ s.link.dlUp = true) →
    Runs (.dentimeLoRead src) s (fun t => readBy src t 0x0114 = timeHi (now s)) ∧
    Runs (.authtagLoRead src k) s (fun t => readBy src t (0x008C + 8 * k.val) = hiW s.eng.keys[k].lastTag) ∧
    Runs (.hbeatLoRead src) s (fun t => readBy src t 0x9408 = hiW s.owl.hbeat)) ∧
  (∀ (v : Word) (k : Fin 4) (s : State), s.Good → s.den.up = true →
  s.link.dlUp = true → s.pwr.iface ≠ .granted →
    Runs (.glbEpochHiWrite v) s (fun t => t.den.epochHeld = some v) ∧
    Runs (.glbEpochLoWrite v) s (fun t => reg t 0x0030 = v ∧ reg t 0x0034 = s.den.epochHeld.getD (reg s 0x0034) ∧
      t.den.epochHeld = none) ∧
    (setupWrites s = true → fld v 15 8 = 0x5A → fld v 1 0 = k.val → s.eng.keys[k].loaded = 0xF → keyLocked s k = false →
      Runs (.glbKeyfuseWrite v) s (fun t => t.eng.keys[k].fusing = true ∧ t.eng.keys[k].words = s.eng.keys[k].words)) ∧
    (s.eng.keys[k].fusing = true → Runs .keyfuseDone s (fun t =>
      t.eng.keys[k].fused = true ∧ t.eng.keys[k].fusing = false ∧ t.eng.keys[k].words = s.eng.keys[k].words)) ∧
    Runs (.chgIntsrcWrite v) s (fun t => reg t 0x54C0 = reg s 0x54C0 &&& ~~~v) ∧
    Runs (.linkIpendWrite v) s (fun t => reg t 0x0410 = reg s 0x0410 &&& ~~~v) ∧
    (s.pwr.iface = .run → ∀ u, u = storeFields 0x040C 0x03FF03FF v s → Runs (.linkPollWrite v) s (fun t =>
      if s.link.cfg.ltrEn = true ∧ rfld s 0x040C 25 16 ≠ rfld u 0x040C 25 16 then
        t = emit (.ltr (pollMax u)) { u with link := { u.link with ltrTold := pollMax u } } else t = u))) ∧
  (∀ (v : Word) (d : Fin 9) (s : State), s.den.up = true → s.link.dlUp = true → d ≠ 7 →
    (setupWrites s = true → s.clk.rootRun = true → Runs (.clkDselWrite d v) s (fun t =>
      t.clk.domains[d].ember = bit v 0)) ∧
    (setupWrites s = false → exec (.clkDselWrite d v) s = .next (lockedWrite (0x0160 + 0x20 * d.val) v s)))

/-- A write to a ring or page register takes effect in SETUP and while HELD is set; else it is only counted (R79). -/
def Obligations.RingWritesNeedTheHold : Prop := ∀ (v : Word) (o : BitVec 16) (acc : Acc) (s : State),
  s.den.up = true → s.link.dlUp = true → regAccess o.toNat = some acc → acc.rw ≠ 0 → isRingReg o.toNat = true →
    (setupWrites s = true ∨ s.link.held = true → ∀ u, u = setupRecord o.toNat v (storeFields o.toNat acc.rw v s) →
      exec (.ringCfgWrite o v) s = .next (judgeRings (restartRings o.toNat (reg s o.toNat) (reg u o.toNat) u))) ∧
    (s.pwr.iface = .run → s.link.held = false → exec (.ringCfgWrite o v) s = .next (setReg 0x0024 (at_ 0 o.toNat)
      (countReg 0x0020 31 0 1 s)))

/-! ### The link and the rings (spec/05, spec/06) -/

/-- The ring hold (R77 to R80, R114); PERST_N and a Function Level Reset (R78) put the configuration space back and, in RUN,
set the hold. -/
def Obligations.HoldsAndResets : Prop :=
  (∀ (c : LinkCfg) (k : AerAck) (s : State),
  (s.den.up = true → Runs .holdSet s (fun t => t.link.hold = true ∧ t.link.bmeWait = false ∧
    (s.link.hold = false → s.jnl.queue = [] → t.link.held = true))) ∧
  (s.den.up = true → s.link.hold = true → s.link.bme = true → Runs .holdRelease s (fun t =>
    t.link.hold = false ∧ t.link.held = false ∧ t.link.eq.adopt = eqOn s)) ∧
  (s.den.up = true → s.link.hold = true → s.link.bme = false → Runs .holdReleaseWait s (fun t =>
    t.link.hold = true ∧ t.link.bmeWait = true)) ∧
  (s.link.dlUp = true → Runs (.bmeSet c k) s (fun t => t.link.bme = true ∧ t.link.cfg = c ∧
    t.link.aer = s.link.aer &&& ~~~k.uncorr ∧ t.link.hold = (s.link.hold && !s.link.bmeWait)) ∧
    Runs (.bmeClear c k) s (fun t => t.link.bme = false ∧ t.link.cfg = c ∧ t.link.aer = s.link.aer &&& ~~~k.uncorr ∧
      (s.link.bme = true → inRun s = true → t.link.hold = true)))) ∧
  (∀ s : State,
  (s.den.up = true → s.pwr.pstate ≠ .hush → Runs .perstAssert s (fun t => t.link.perst = true ∧ t.link.dlUp = false ∧
    t.link.bme = false ∧ t.link.cfg = linkCfgReset ∧ (inRun s = true → t.link.hold = true))) ∧
  (s.link.dlUp = true → Runs .functionLevelReset s (fun t => t.link.dlUp = false ∧ t.link.lstate = .down ∧
    t.link.gen2 = false ∧ t.link.bme = false ∧ t.link.cfg = linkCfgReset ∧ (mayTrain s = true → t.link.training = true) ∧
    (inRun s = true → t.link.hold = true))))

/-- Training, speed, loss and power states of the link (R74, R75, R84 to R86, R396), and the lifting of a mask (R72). -/
def Obligations.LinkComesAndGoes : Prop := ∀ (g b : Bool) (sub : Fin 3) (v : Fin 32) (s : State), s.den.up = true →
  (s.pwr.pstate ≠ .hush → s.pwr.stage = .heldImage ∨ s.pwr.stage = .blank ∨ s.pwr.stage = .started →
    s.link.dlUp = false →
      Runs .linkTrainingStart s (fun t => t.link.training = true ∧ t.link.perst = false ∧ t.link.sris = rbit s 0x0404 4) ∧
      (s.link.perst = false → s.clk.refEmber = true → Runs .linkRetrain s (fun t => t.link.training = true)) ∧
      (s.link.perst = false → s.link.training = true → Runs (.linkUp g) s (fun t => t.link.dlUp = true ∧
        t.link.training = false ∧ t.link.lstate = .l0 ∧ isPresent t 168 3 = false ∧
        t.link.gen2 = (g && !s.clk.refEmber && s.link.cfg.target5)))) ∧
  (inRun s = true → s.link.hold = false → s.pwr.pstate ≠ .hush → isPresent s 168 3 = false →
    s.pwr.burrowing = false → Runs .linkDown s (fun t => Latched t 168 3)) ∧
  (s.link.dlUp = true →
    (inRun s = false ∨ s.link.hold = true → Runs .linkDown s (fun t => t.link.dlUp = false ∧ t.link.lstate = .down)) ∧
    (s.link.lstate = .l0 → s.link.cfg.aspmL1 = true → Runs (.l1Entry sub) s (fun t => t.link.lstate =
      (if sub = 2 ∧ s.link.cfg.l12 = true then .l12 else if sub = 1 ∧ s.link.cfg.l11 = true then .l11 else .l1))) ∧
    (s.link.lstate ≠ .l0 → s.link.lstate ≠ .down → Runs (.l1Exit b) s (fun t => t.link.lstate = .l0 ∧
      (b = false → t.link.pollDue = true))) ∧
    Runs (.vectorUnmask v) s (fun t =>
      (if s.link.cfg.msix then bit t.link.cfg.msixMask v.val else bit t.link.cfg.msiMask v.val) = false ∧
      (bit s.link.masked v.val = true → dmaOk s = true → s.link.cfg.msix = true → s.link.cfg.msixAll = false →
        messageOut s.link.cfg v.val ∈ t.out ∧ bit t.link.masked v.val = false)))

/-- A doorbell poll (R89, R92): the producer index of each SQ in use is taken, and one beyond the ring is bad. Failed reads and
uncorrectable errors (R81, R82, R86): the third failed read in a row is a fault; one before it is noted. -/
def Obligations.PollsAndFailures : Prop :=
  (∀ (p : DoorbellPage) (q : Fin 16) (s : State), inRun s = true →
  dmaOk s = true → s.link.hold = false → s.pwr.burrowing = false → sqOn s q = true → Runs (.doorbellPoll p) s (fun t =>
    ((p.sqProd[q] - s.link.sqs[q].cons).toNat ≤ ringSize (sqCfg s q.val) →
      t.link.sqs[q].prod = p.sqProd[q] ∧ t.link.sqs[q].bad = false) ∧
    (ringSize (sqCfg s q.val) < (p.sqProd[q] - s.link.sqs[q].cons).toNat →
      t.link.sqs[q].prod = s.link.sqs[q].prod ∧ t.link.sqs[q].bad = true))) ∧
  (∀ (q : Fin 16) (e : ReadError) (st co : Word) (s : State),
  s.pwr.burrowing = false →
    (inRun s = true → dmaOk s = true → s.link.hold = false →
      (s.link.dbFails = 2 → isPresent s 168 1 = false →
        Runs (.dmaReadFail .doorbell e) s (fun t => Latched t 168 1)) ∧
      (s.link.sqFails[q] = 2 → isPresent s 168 1 = false →
        Runs (.dmaReadFail (.sq q) e) s (fun t => Latched t 168 1)) ∧
      (s.link.dbFails < 2 → exec (.dmaReadFail .doorbell e) s = .next
        (modLink (fun l => { l with dbFails := l.dbFails + 1 }) (noteDmaErr 0 (readErrCode e) 0 s))) ∧
      (s.link.sqFails[q] < 2 → exec (.dmaReadFail (.sq q) e) s = .next
        (modLink (fun l => { l with sqFails := upd l.sqFails q (· + 1),
                                    sqs := upd l.sqs q (fun r => { r with stalled := true }) })
          (noteDmaErr 1 (readErrCode e) q.val s)))) ∧
    (s.link.dlUp = true →
      (s.link.aer ||| st ≠ 0 → isPresent s 168 2 = false → Runs (.aerUncorrectable st co) s (fun t => Latched t 168 2)) ∧
      (s.link.aer = 0 → exec (.aerUncorrectable 0 co) s = .next (countReg 0x0418 15 0 (ones co)
        (modLink (fun l => { l with aerCorr := l.aerCorr ||| co }) s)))))

/-- The door (R99 to R101, R117): the descriptor whose turn it is goes to the banks as what the checks make of it; one
whose RSEQ does not fit is read again, and refused at the third time. -/
def Obligations.DescriptorsAreTaken : Prop := ∀ (q : Fin 16) (d : Descriptor) (s : State), inRun s = true →
  dmaOk s = true → s.link.hold = false → dead s = false →
    (dueSq s = some q → fld d[0] 31 16 = s.link.sqs[q].fetch.toNat % 65536 → Runs (.descriptorArrival q d) s (fun t =>
      t.jnl.queue = s.jnl.queue ++ [doorJob s d (descItem s (BitVec.ofNat 5 q.val) d) (opListed (descOp d))] ∧
      t.link.sqs[q].fetch = s.link.sqs[q].fetch + 1)) ∧
    (dueSq s = some q → fld d[0] 31 16 ≠ s.link.sqs[q].fetch.toNat % 65536 → Runs (.descriptorArrival q d) s (fun t =>
      if 2 ≤ s.link.sqs[q].rseqFails then
        t.jnl.queue = s.jnl.queue ++ [.door (descItem s (BitVec.ofNat 5 q.val) d) .refusedFormat 1 0]
      else t.jnl.queue = s.jnl.queue ∧ t.link.sqs[q].rseqFails = s.link.sqs[q].rseqFails + 1)) ∧
    (dueSq s ≠ some q → exec (.descriptorArrival q d) s = .next (judgeFull s))

/-! ### The journal (spec/07) -/

/-- The banks (R102, R131, R132, R136): when both banks hold the record in hand, what it stands for has happened: an accepted
item is taken in, a refused descriptor has its completion; a bank that fails is retired, and can be reinstated. A held
completion is posted when its ring has room (R109), and the journal copies forward a record that is needed before its
slot comes round, before the record in hand where it has come round (R138). -/
def Obligations.RecordsCommit : Prop :=
  (∀ (it : Item) (v : Verdict) (d : Byte) (r : DWord) (rest : List Job) (s : State),
  s.den.up = true → dead s = false → mustWait s = false →
    (s.jnl.queue ≠ [] → ∀ w, copyInHand s = some w →
      exec (.journalWriteDone true true) s = .next (judgeFull (putForced w s))) ∧
    (copyInHand s = none → s.jnl.queue = .accept it :: rest → itemBody it = false →
      Runs (.journalWriteDone true true) s (fun t =>
        t.jnl.queue = rest ∧ ∃ i ∈ t.eng.items, i.tag = it.tag ∧ i.opcode = it.opcode ∧ i.ops = it.ops)) ∧
    (copyInHand s = none → s.jnl.queue = .door it v d r :: rest → it.ring.toNat < 16 →
      Runs (.journalWriteDone true true) s (fun t =>
      t.jnl.queue = rest ∧ ∃ c ∈ t.eng.comps, c.tag = it.tag ∧ c.verdict = v ∧ c.detail = d ∧ c.result = r)) ∧
    (s.jnl.bankA.inService = true → s.jnl.bankB.inService = true → s.pwr.burrowing = false →
      Runs (.journalWriteDone false true) s (fun t => Latched t 169 1) ∧
      Runs (.journalWriteDone true false) s (fun t => Latched t 170 1))) ∧
  (∀ (q : Fin 16) (c : Comp) (rest : List Comp) (w : List Word) (s : State),
  (heldOn s q.val = c :: rest → cqRoom s q.val = true → 32 ≤ s.link.cfg.mps → Runs (.completionPost q) s (fun t =>
    t.link.cqs[q].prod = s.link.cqs[q].prod + 1 ∧
    .memWrite (entryAddr s (0x0540 + 0x10 * q.val) s.link.cqs[q].prod (ringSize (cqCfg s q.val)) 32)
      ((compWords c s.link.cqs[q].prod).flatMap wordBytes) ∈ t.out)) ∧
  (s.den.up = true → dead s = false → s.jnl.queue = [] → s.jnl.owed = [] →
    forced s ((s.jnl.head.toNat + 1) % 2048) = some w → exec .journalCompaction s = .next (retryFires (putForced w s)))) ∧
  (∀ (b : Fin 2) (s : State),
  (setupWrites s = true →
    (s.jnl.bankA.inService = false → 0 ∉ s.jnl.reinstating → Runs .reinstateA s (fun t =>
      t.jnl.reinstating = s.jnl.reinstating ++ [0])) ∧
    (s.jnl.bankB.inService = false → 1 ∉ s.jnl.reinstating → Runs .reinstateB s (fun t =>
      t.jnl.reinstating = s.jnl.reinstating ++ [1]))) ∧
  (∀ more, s.jnl.reinstating = b :: more → s.pwr.burrowing = false →
    Runs (.reinstateDone false) s (fun t => t.jnl.reinstating = more ∧ Latched t (169 + b.val) 3) ∧
    Runs (.reinstateDone true) s (fun t => t.jnl.reinstating = more ∧ bankIn t b = true ∧
      ∀ d, 1 ≤ d → d ≤ 3 → isPresent t (169 + b.val) d = false)))

/-- JOURNAL_READ (R144): records of a bank, or a copy of the boot image, go to the item's buffer. -/
def Obligations.JournalReadGives : Prop := ∀ (a : Word) (it : Item) (s u : State), Works 0x72 a it s u →
  aligned (addrOf (opv it 7) (opv it 8)) 64 = true → dmaOk (commitStart it u) = true →
    (fld (opv it 4) 1 0 = 0 → 1 ≤ (opv it 6).toNat → (opv it 6).toNat ≤ 2048 → 64 ≤ (opv it 9).toNat →
      bankIn u (if bit (opv it 4) 8 then 1 else 0) = true → ∀ rs, rs = recordsFrom (commitStart it u)
        (if bit (opv it 4) 8 then 1 else 0) (opv it 5) (min (opv it 6).toNat ((opv it 9).toNat / 64)) →
          Finishes (.journalRead a) s it .done 0
            (dword (BitVec.ofNat 32 rs.length) (nextRec (commitStart it u) rs))
            (memWords (addrOf (opv it 7) (opv it 8)) rs.flatten (commitStart it u))) ∧
    (fld (opv it 4) 1 0 = 1 ∨ fld (opv it 4) 1 0 = 2 → 8192 ≤ (opv it 9).toNat →
      Finishes (.journalRead a) s it .done 0 8192 (memWords (addrOf (opv it 7) (opv it 8))
        (imgWords (commitStart it u) (fld (opv it 4) 1 0 - 1)) (commitStart it u)))

/-- BOOT_IMAGE_WRITE (R145): both copies take an image that passes every check; each check has its refusal. The register form
(R146) writes where the interface state lets it. -/
def Obligations.BootImageIsWritten : Prop :=
  (∀ (a : Word) (all : List Word) (ok : Bool) (it : Item) (s u : State),
  Works 0x71 a it s u → ∀ ws, ws = imageWords all → ∀ key, key = keySlot it.flags → ∀ mac : DWord,
    mac = dword (opv it 6) (opv it 7) →
  (dmaOk u = false → exec (.bootImageWrite a (.data all) ok) s = .next (failDma a 7 5 u)) ∧
  (dmaOk u = true → ∀ t, t = memRead (addrOf (opv it 4) (opv it 5)) 8192 u →
    (imageLayout ws = false → Finishes (.bootImageWrite a (.data all) ok) s it .refusedFormat 0x11 0 t) ∧
    (imageLayout ws = true → imageCrc ws = false →
      Finishes (.bootImageWrite a (.data all) ok) s it .refusedFormat 0x10 0 t) ∧
    (imageLayout ws = true → imageCrc ws = true → macFits u key ws mac = false →
      Finishes (.bootImageWrite a (.data all) ok) s it .refusedAuth 0x10 0 t) ∧
    (imageLayout ws = true → imageCrc ws = true → macFits u key ws mac = true → imageNewer u ws = false →
      Finishes (.bootImageWrite a (.data all) ok) s it .refusedFormat 0x12 0 t) ∧
    (imageLayout ws = true → imageCrc ws = true → macFits u key ws mac = true → imageNewer u ws = true →
      Finishes (.bootImageWrite a (.data all) true) s it .done 0 ((imageSeq ws).setWidth 64)
        (writeCopies ws true (commitStart it t)) ∧
      Runs (.bootImageWrite a (.data all) true) s (fun z =>
        z.jnl.image0 = imageContent ws ∧ z.jnl.image1 = imageContent ws) ∧
      Finishes (.bootImageWrite a (.data all) false) s it .failed 0x13 0 (writeCopies ws false (commitStart it t))))) ∧
  (∀ (v : Word) (ok : Bool) (s : State),
  (setupWrites s = true → s.jnl.biBusy = false →
    (fld v 1 0 = 1 → Runs (.biOpen v) s (fun t => t.jnl.biPtr = 0 ∧ t.jnl.biWords = [] ∧ t.jnl.biResult = .none)) ∧
    (s.jnl.biPtr < 2048 → Runs (.biDataWrite v) s (fun t => t.jnl.biPtr = s.jnl.biPtr + 1 ∧
      t.jnl.biWords = spSet (fun _ => 0) s.jnl.biWords s.jnl.biPtr v)) ∧
    (fld v 1 0 = 2 → s.jnl.biPtr < 2048 → Runs (.biCommit v) s (fun t =>
      t.jnl.biResult = .short ∧ t.jnl.biBusy = false)) ∧
    (fld v 1 0 = 2 → 2048 ≤ s.jnl.biPtr → ∀ ws, ws = (List.range 2048).map (fun i => spGet (fun _ => 0) s.jnl.biWords i) →
      (imageLayout ws = false → Runs (.biCommit v) s (fun t => t.jnl.biResult = .layout ∧ t.jnl.biBusy = false)) ∧
      (imageLayout ws = true → imageCrc ws = false → Runs (.biCommit v) s (fun t =>
        t.jnl.biResult = .crc ∧ t.jnl.biBusy = false)) ∧
      (imageLayout ws = true → imageCrc ws = true → s.eng.keys.toList.any (·.fused) = false → imageNewer s ws = true →
        Runs (.biCommit v) s (fun t => t.jnl.biBusy = true ∧ t.jnl.biResult = .none)))) ∧
  (s.jnl.biBusy = true → s.pwr.burrowing = false → Runs (.biCommitDone ok) s (fun t =>
    t.jnl.biBusy = false ∧ t.jnl.biResult = (if ok then .done else .write))))

/-- ARM and DISARM (R140, R142, R143); a TIME trigger fires its slot (R140, R141), and after the DELAY its BODY items enter
their queues. A handle that fails its check is refused with the fault's number (R105). -/
def Obligations.ArmedWorkRuns : Prop :=
  (∀ (a : Word) (it : Item) (s u : State) (k : Fin 64) (x : ArmedSlot),
  (Works 0x60 a it s u → armReady it = true →
    (armOperand it = true → exec (.arm a) s = .next (armRefused a .refusedFormat 7 u)) ∧
    (armOperand it = false → it.bodyFail = 1 → exec (.arm a) s = .next (armRefused a .refusedFormat 6 u)) ∧
    (armOperand it = false → 2 ≤ it.bodyFail → exec (.arm a) s = .next (armRefused a .refusedState 0x10 u)) ∧
    (armOperand it = false → it.bodyFail = 0 → (fins 64).find? (fun j => (u.eng.armed[j]).isNone) = none →
      exec (.arm a) s = .next (armRefused a .refusedState 0x01 u)) ∧
    (armOperand it = false → it.bodyFail = 0 → (fins 64).find? (fun j => (u.eng.armed[j]).isNone) = some k →
      128 < armedBodies u + (bodiesOf u a).length → exec (.arm a) s = .next (armRefused a .refusedState 0x11 u)) ∧
    (armOperand it = false → it.bodyFail = 0 → (fins 64).find? (fun j => (u.eng.armed[j]).isNone) = some k →
      armedBodies u + (bodiesOf u a).length ≤ 128 → Runs (.arm a) s (fun t => t = armTakes a it k u ∧
        (timePast u (slotOf it (handleOf u 7 k.val)) = false →
          Answered it .done 0 ((handleOf u 7 k.val).setWidth 64) t)))) ∧
  (Works 0x61 a it s u → hSlot it.handle = k.val → u.eng.armed[k] = some x →
    (x.fired = true → Finishes (.disarm a) s it .refusedState 0x12 0 u) ∧
    (x.fired = false →
      exec (.disarm a) s = .next (completeBehind a .done 0 0 (slotGone k (cancelBodies x.aseq 0 u)))))) ∧
  (∀ (k : Fin 64) (x : ArmedSlot) (s : State), s.eng.armed[k] = some x →
  (watched s = true → x.fired = false → x.due = none → timePast s x = true → slotsInOrder s = [k] →
    reserveLow s = false → Runs .timeTrigger s (fun t => ∃ y, t.eng.armed[k] = some y ∧ y.fired = true ∧ y.aseq = x.aseq)) ∧
  (x.fired = true → x.due ≠ none → s.den.up = true → Runs (.armDelayExpiry k) s (fun t =>
    t = startAll (releaseBodies k x (rootWake s)) ∧ t.eng.armed[k] = some { x with due := none }))) ∧
  (∀ (a : Word) (it : Item) (d : Nat) (s : State), Turn 0x61 a it s →
  handleErr (takenUp it s) 0x61 it.handle = some d → Finishes (.disarm a) s it .refusedHandle d 0 (takenUp it s))

/-! ### Items of the house (spec/06, spec/20) -/

/-- NOP completes DONE as soon as it begins work. FENCE takes handle 0, starts only when every earlier item of its SQ has its
final verdict (armed BODY items that wait do not count), and completes DONE (R107). OWL_FEED (R340) reloads the Host Owl and
completes with the count that was left; one of a redriven item and one without an Owl do not feed. An early feed is R341's. -/
def Obligations.NopFenceAndFeedAnswer : Prop := ∀ (a : Word) (it : Item) (s u : State),
  (Works 0x00 a it s u → Finishes (.nop a) s it .done 0 0 u) ∧
  (Works 0x01 a it s u → Finishes (.fence a) s it .done 0 0 u) ∧
  (Turn 0x01 a it s → it.handle ≠ 0 → Finishes (.fence a) s it .refusedHandle 1 0 (takenUp it s)) ∧
  (it.opcode = 0x01 → canStart s it = true → ∀ j ∈ earlier s it, j.ring = it.ring → dormant j = true) ∧
  (Works 0x02 a it s u →
    (it.redriven = true → Finishes (.owlFeed a) s it .done 0x11 0 u) ∧
    (it.redriven = false → owlEn u 0 = false → Finishes (.owlFeed a) s it .refusedState 0x10 0 u) ∧
    (it.redriven = false → owlEn u 0 = true → owlEarly u = false ∨ inRun u = false →
      Finishes (.owlFeed a) s it .done 0 (BitVec.ofNat 64 u.owl.owls[(0 : Fin 2)].left) (hostFeed u)) ∧
    (it.redriven = false → owlEn u 0 = true → owlEarly u = true → inRun u = true → exec (.owlFeed a) s = .next
      (complete a .done 0x12 (BitVec.ofNat 64 u.owl.owls[(0 : Fin 2)].left) (hostFeed u)))) ∧
  (Turn 0x02 a it s → it.handle ≠ 0 → Finishes (.owlFeed a) s it .refusedHandle 1 0 (takenUp it s))

/-- HANDLE_CREATE (R115): the object comes into the slot that its class and the descriptor give it, or the creation is refused
as its class's chapter says. HANDLE_DESTROY (R116): the object leaves its slot, whose generation advances (R97), unless an
armed item names it or its own chapter holds it. -/
def Obligations.HandlesAreMadeAndEnded : Prop :=
  (∀ (a : Word) (tb : ItemRead) (it : Item) (s u : State) (c slot : Nat),
  Works 0x08 a it s u → fld (opv it 4) 3 0 = c →
    (c = 1 ∨ c = 2 ∨ c = 3 ∨ c = 4 ∨ c = 8 → createSlot u c (fld (opv it 4) 31 16) = .ok slot →
      (paramFault u c slot (opv it) = none →
        exec (.handleCreate a tb) s = .next (created a c slot (placeObject c slot (opv it) u))) ∧
      (∀ e, paramFault u c slot (opv it) = some e → Finishes (.handleCreate a tb) s it e.1 e.2 0 u)) ∧
    (c = 6 → exec (.handleCreate a tb) s = .next (createPartner a it u)) ∧
    (c = 9 → createSlot u c (fld (opv it 4) 31 16) = .ok slot →
      exec (.handleCreate a tb) s = .next (createGraph a it slot tb u)) ∧
    (c = 5 → createSlot u c (fld (opv it 4) 31 16) = .ok slot →
      exec (.handleCreate a tb) s = .next (createSeq a it slot tb u)) ∧
    (c ≠ 6 → c ≠ 7 → 1 ≤ c → c ≤ 9 → ∀ e, createSlot u c (fld (opv it 4) 31 16) = .error e →
      Finishes (.handleCreate a tb) s it e.1 e.2 0 u) ∧
    (c = 0 ∨ c = 7 ∨ 9 < c → Finishes (.handleCreate a tb) s it .refusedFormat 7 0 u)) ∧
  (∀ (a : Word) (it : Item) (s u : State), Works 0x09 a it s u →
  (bodyNames u it.handle = true → Finishes (.handleDestroy a) s it .refusedState 0x03 0 u) ∧
  (bodyNames u it.handle = false → ∀ d, destroyFault u a it.handle = some d →
    Finishes (.handleDestroy a) s it .refusedState d 0 u) ∧
  (bodyNames u it.handle = false → destroyFault u a it.handle = none → exec (.handleDestroy a) s = .next (ruleEffects u
    (completeBehind a .done 0 0 (endObject (hClass it.handle) (hSlot it.handle)
      (removeObject (hClass it.handle) (hSlot it.handle) u))))))

/-- The Owls' expiry and ladder (R341, R342, R344, R346, R355). An Owl that rests when its ladder ends is paused (R338,
R343). -/
def Obligations.OwlsExpire : Prop := ∀ (o : Fin 2) (c : OwlClock) (s : State), s.pwr.burrowing = false →
  (owlCounts s o = true → s.owl.owls[o].left = 0 → Runs (.owlExpiry o false) s (fun t => Latched t (174 + o.val) 1)) ∧
  (owlEn s 0 = true → inRun s = true → owlEarly s = true → Runs (.owlExpiry 0 true) s (fun t => Latched t 174 1)) ∧
  (rungDue s o 1 = true → ∀ u, u = modOwl o (fun x => { x with rung := 2, left := owlDly2 s o }) s →
    (inHush s = false → owlRung1En s o = true →
      Runs (.owlRung1 o) s (fun t => t.owl.owls[o].state = .resetting ∧ t.pwr.hrst.pulse = true)) ∧
    (inHush s = true ∨ owlRung1En s o = false → owlRung2En s o = true → exec (.owlRung1 o) s = .next u) ∧
    (inHush s = true ∨ owlRung1En s o = false → owlRung2En s o = false → exec (.owlRung1 o) s = .next (owlEndLadder o u))) ∧
  (s.owl.owls[o].off = none → rungDue s o 2 = true →
    (owlRung2En s o = false → exec (.owlRung2 o) s = .next (owlEndLadder o s)) ∧
    (owlRung2En s o = true →
    (nth s.graphs (hostGraph s) none = none → Runs (.owlRung2 o) s (fun t => t.owl.owls[o].state =
      (if owlMaxCycles s o ≤ s.owl.owls[o].cycles then .gaveUp else if owlRests s o then .paused else .watch))) ∧
    (nth s.graphs (hostGraph s) none ≠ none → ∀ u, u = event 0x1002 0 o.val 2 0 (modOwl o (fun x => { x with state := .cycling }) s) →
      (owlMaxCycles s o ≤ s.owl.owls[o].cycles →
        exec (.owlRung2 o) s = .next (settle (hostRun true (.owlDown o false) u))) ∧
      (s.owl.owls[o].cycles < owlMaxCycles s o → inHush s = true →
        exec (.owlRung2 o) s = .next (settle (hostRun false (.owlUp o) (rootWake u)))) ∧
      (s.owl.owls[o].cycles < owlMaxCycles s o → inHush s = false →
        exec (.owlRung2 o) s = .next (settle (hostRun true (.owlDown o true) u)))))) ∧
  (s.owl.owls[o].off = some 0 → exec (.owlRung2 o) s = .next
    (settle (hostRun false (.owlUp o) (rootWake (modOwl o (fun x => { x with off := none }) s))))) ∧
  Runs .hostrstEnd s (fun t => t.pwr.hrst.pulse = false ∧ (s.owl.owls[o].state = .resetting →
    t.owl.owls[o].state = (if owlRung2En s o then .expired else if owlRests s o then .paused else .watch))) ∧
  (s.den.up = true → (c = .wdt → s.owl.wdtStopped = false ∧ isPresent s 172 1 = false) →
    (c = .ember → s.owl.emberStopped = false ∧ isPresent s 172 2 = false) → Runs (.owlClockStop c) s (fun t =>
      Latched t 172 (if c = .wdt then 1 else 2)))

/-! ### Lanes, rails and graphs (spec/08, spec/09) -/

/-- Starting lanes (R154, R164 to R166): one that waits for its output to fall starts from the measured voltage; the reference
that reaches the target brings a lane into regulation and, at the deciding member, the rail to ON. The supply of a lane
comes back (R156), and dropout is told on entry (R158). -/
def Obligations.LanesComeUp : Prop :=
  (∀ (n r : Fin 48) (x : Rail) (mv : Nat) (s : State),
  s.lanes[n].rail = some r → s.rails[r] = some x →
    (s.lanes[n].state = .waitDown → x.target < mv → exec (.laneRemeasure n mv) s = .next (setVmeas [n] mv s)) ∧
    (s.lanes[n].state = .waitDown → mv ≤ x.target → n ∈ x.members → x.state ≠ .waitDown ∨ decider s x = n →
      Runs (.laneRemeasure n mv) s (fun t => t.lanes[n].state = .start ∧ t.lanes[n].ref = 100 * mv)) ∧
    (s.lanes[n].state = .start → slewStands s n x = false → x.state = .starting ∨ x.state = .sinking →
      (decider s x ≠ n → Runs (.laneSlewDone n) s (fun t => t.lanes[n].state = .reg ∧ t.lanes[n].ref = 100 * x.target)) ∧
      (decider s x = n → Runs (.laneSlewDone n) s (fun t => t = lostEnds r (railOn r s) ∧
        ∃ y, t.rails[r] = some y ∧ y.state = .on))) ∧
    (s.lanes[n].state = .start → slewStands s n x = false → x.state = .on → Runs (.laneSlewDone n) s (fun t =>
      t.lanes[n].state = .reg ∧ t.lanes[n].ref = 100 * x.target)) ∧
    (slewStands s n x = true → s.lanes[n].state ≠ .measure → exec (.laneSlewDone n) s = .next s)) ∧
  (∀ (n : Fin 48) (mv : Nat) (on : Bool) (s : State),
  Runs (.laneSupplyRecover n mv) s (fun t => isPresent t n.val 4 = false) ∧
  (s.lanes[n].state = .supplyWait → rail2 s n = none → Runs (.laneSupplyRecover n mv) s (fun t =>
    t.lanes[n].state = .stopped)) ∧
  (s.lanes[n].state = .supplyWait → held s n.val = false → isolated s n.val = false →
    ∀ x, rail2 s n = some x → railRuns x = true → Runs (.laneSupplyRecover n mv) s (fun t =>
      t.lanes[n].state = .measure ∧ t.lanes[n].meas = some (mv, now s + 2))) ∧
  (laneRun s.lanes[n] = true → s.lanes[n].dropout ≠ on → Runs (.laneDropout n on) s (fun t =>
    t.lanes[n].dropout = on ∧ t = (if on then event 0x0501 0 n.val 0 0 (modLane n (fun l => { l with dropout := on }) s)
      else modLane n (fun l => { l with dropout := on }) s))))

/-- The lanes' faults (R155), each latched on the lane's own source with the detail of its row, and the watches of a running
rail (R164, R165, R175, R176, R178, R179): each time-out, loss and window is latched on the rail's source. The readings of
the remote pair pass its amplifier's trim (R296; how it acts is the model's, notes/assumptions/95.md). -/
def Obligations.LaneAndRailFaultsLatch : Prop :=
  (∀ (n : Fin 48) (s : State), s.den.up = true → s.pwr.burrowing = false →
  s.lanes[n].state ≠ .absent →
    (s.lanes[n].state = .reg → isPresent s n.val 1 = false →
      Runs (.laneFault n .ocSustained) s (fun t => Latched t n.val 1)) ∧
    (laneRun s.lanes[n] = true → isPresent s n.val 2 = false →
      Runs (.laneFault n .bootUv) s (fun t => Latched t n.val 2)) ∧
    (n.val < 32 → isPresent s n.val 3 = false → Runs (.laneFault n .stageOt) s (fun t => Latched t n.val 3)) ∧
    (laneActive s.lanes[n] = true → isPresent s n.val 4 = false →
      Runs (.laneFault n .supplyUv) s (fun t => Latched t n.val 4)) ∧
    (isPresent s n.val 5 = false → Runs (.laneFault n .ovAbs) s (fun t => Latched t n.val 5)) ∧
    (s.lanes[n].state = .reg → manyLanes s n = true → isPresent s n.val 6 = false →
      Runs (.laneFault n .share) s (fun t => Latched t n.val 6)) ∧
    (s.lanes[n].state = .start → Runs (.laneFault n .startFail) s (fun t => Latched t n.val 7)) ∧
    (laneActive s.lanes[n] = true → Runs (.laneFault n .swFail) s (fun t => Latched t n.val 8))) ∧
  (∀ (r : Fin 48) (x : Rail) (k : Fin 64) (lv : CompLevel) (mv : Nat) (rem loc : Int) (s : State),
  s.pwr.burrowing = false → s.rails[r] = some x →
    (railRuns x = true → x.pg = false → isPresent s (48 + r.val) 8 = false →
      Runs (.pgTmo r) s (fun t => Latched t (48 + r.val) 8)) ∧
    (x.state = .waitDown → fld x.w12 7 0 ≠ 0 → Runs (.prebiasTmo r) s (fun t => Latched t (48 + r.val) 5)) ∧
    (x.rsEn = true → 300 < (remoteSeen s x rem - loc).natAbs → isPresent s (48 + r.val) 3 = false →
      Runs (.senseLost r rem loc) s (fun t => Latched t (48 + r.val) 3)) ∧
    (x.state = .on → x.rsEn = true → x.ditherEn = true → mv * trimGain (trimWord s (153 + x.rsPair)) < 200000 →
      isPresent s (48 + r.val) 4 = false → Runs (.senseFrozen r mv) s (fun t => Latched t (48 + r.val) 4)) ∧
    (x.wmEn = true → x.wmon = k.val → wmRuns k s = true → wmBlanked k s = false →
      lv = wmJudge s k (BitVec.ofNat 16 (codeAt (watchedInput x) (1000 * mv))) →
        (lv.below = true → x.state = .on → x.members.any (fun n => s.lanes[n].slewHeld) = false →
          isPresent s (48 + r.val) 1 = false → Runs (.windowUv r mv) s (fun t => Latched t (48 + r.val) 1)) ∧
        (lv.above = true → railRuns x = true ∨ x.state = .stopping → isPresent s (48 + r.val) 2 = false →
          Runs (.windowOv r mv) s (fun t => Latched t (48 + r.val) 2))) ∧
    (x.state = .on → x.rsActive = true → x.slewing = false → ∀ c,
      c = clampI (-x.corrMax) x.corrMax (x.corr + clampI (-1) 1 ((x.target : Int) - remoteSeen s x rem)) →
        (c ≠ x.corrMax → c ≠ -x.corrMax → Runs (.rsCorrection r rem) s (fun t =>
          isPresent t (48 + r.val) 6 = false ∧ ∃ y, t.rails[r] = some y ∧ y.corr = c)) ∧
        (c = x.corrMax ∨ c = -x.corrMax → isPresent s (48 + r.val) 6 = false →
          Runs (.rsCorrection r rem) s (fun t => Latched t (48 + r.val) 6))))

/-- RAIL_ENABLE (R164): the refusals, the rail that is ON already, and the request to the budget. -/
def Obligations.RailEnableAnswers : Prop := ∀ (a : Word) (vm : Nat) (it : Item) (r : Fin 48) (x : Rail) (s u : State),
  OnRail 0x11 a it r x s u →
    (held u (48 + r.val) = true → Finishes (.railEnable a vm) s it .refusedState 0x31 0 u) ∧
    (held u (48 + r.val) = false → hot u = true → Finishes (.railEnable a vm) s it .refusedState 0x30 0 u) ∧
    (held u (48 + r.val) = false → hot u = false →
      (x.state = .faulted → Finishes (.railEnable a vm) s it .refusedState 0x17 0 u) ∧
      (x.state = .on →
        Finishes (.railEnable a vm) s it .done 0 (enableResult u x (fld (railVout u r) 13 0)) u) ∧
      (x.state ≠ .on → x.state ≠ .faulted → ∀ q, q = railReq u r x (.item a) a x.claim →
        ((∀ n, ask u q ≠ .waits n) → AsksBudget (.railEnable a vm) s it q (railServed a r vm) u) ∧
        (∀ n, ask u q = .waits n → Runs (.railEnable a vm) s (fun t => ∃ y, t.rails[r] = some y ∧
          y.state = (if x.state = .off then .pending else x.state)))))

/-- RAIL_SET_V and RAIL_DISABLE (R167, R168). A RAIL_SET_V of a derate, the hub's own, leaves VSET (R294;
notes/assumptions/66.md). -/
def Obligations.RailTargetsAndStops : Prop := ∀ (a : Word) (it : Item) (r : Fin 48) (x : Rail) (s u : State),
  (OnRail 0x10 a it r x s u → it.ring = 0x1F → exec (.railSetV a) s = .next (derateBegins it r x u)) ∧
  (OnRail 0x10 a it r x s u → it.ring ≠ 0x1F → ∀ v sl, v = fld (opv it 4) 13 0 → sl = fld (opv it 5) 9 0 →
    (held u (48 + r.val) = true → x.vset < v → Finishes (.railSetV a) s it .refusedState 0x31 0 u) ∧
    (held u (48 + r.val) = false ∨ v ≤ x.vset →
      (targetOk (isCtl x.lead) v = false ∨ 500 < sl → Finishes (.railSetV a) s it .refusedLeash 0 0 u) ∧
      (targetOk (isCtl x.lead) v = true → sl ≤ 500 →
        ∀ set, set = (fun y => { setVset v y with slew := if sl = 0 then (setVset v y).slew else sl }) →
        ∀ w, w = failOthers r x v (commitStart it u) →
          (x.state = .on → x.slewing = true ∨ (set x).target ≠ x.target →
            exec (.railSetV a) s = .next (settle (retargetRail r set w))) ∧
          (x.state = .starting ∨ x.state = .waitDown ∨ x.state = .sinking →
            exec (.railSetV a) s = .next (settle (modRail r set w))) ∧
          (x.state = .off ∨ x.state = .pending ∨ x.state = .faulted ∨ x.state = .stopping ∨
              (x.state = .on ∧ x.slewing = false ∧ (set x).target = x.target) →
            exec (.railSetV a) s = .next (settle
              (complete a .done 0 (voutResult (modRail r set w) r) (modRail r set w))))))) ∧
  (OnRail 0x12 a it r x s u → ∀ w, w = withdrawStarts r (commitStart it u) →
    (x.state = .off ∨ x.state = .faulted →
      exec (.railDisable a) s = .next (settle (complete a .done 0 0 (failNodes r w)))) ∧
    (x.state ≠ .off → x.state ≠ .faulted →
      (bit (opv it 4) 0 = true → softly u x = true →
        exec (.railDisable a) s = .next (settle (failNodes r (setPg r false
          (modRail r (fun y => { y with state := .stopping, slewing := true, rsActive := false }) w))))) ∧
      (bit (opv it 4) 0 = true → x.state = .stopping → exec (.railDisable a) s = .next w) ∧
      (bit (opv it 4) 0 = false ∨ (softly u x = false ∧ x.state ≠ .stopping) →
        exec (.railDisable a) s = .next (settle (failNodes r (railDown r .off w))))))

/-- RAIL_GANG and RAIL_LIMITS (R169, R170, R180). -/
def Obligations.RailGangAndLimitsAnswer : Prop := ∀ (a : Word) (it : Item) (r : Fin 48) (x : Rail) (s u : State),
  (OnRail 0x13 a it r x s u → ∀ new ms, new = lanesOf (opv it 5) (opv it 6) → ms = membersOf new →
    (held u (48 + r.val) = true → Finishes (.railGang a) s it .refusedState 0x31 0 u) ∧
    (held u (48 + r.val) = false →
      (∀ e, lanesFault ms = some e → Finishes (.railGang a) s it e.1 e.2 0 u) ∧
      (lanesFault ms = none → membersFault u r ms = none →
        (ms.head? ≠ some x.lead → Finishes (.railGang a) s it .refusedState 0x15 0 u) ∧
        (ms.head? = some x.lead → imaxLimit u ms < x.imax → Finishes (.railGang a) s it .refusedState 0x16 0 u) ∧
        (ms.head? = some x.lead → x.imax ≤ imaxLimit u ms →
          (x.state = .starting ∨ x.state = .waitDown ∨ x.state = .sinking ∨ x.state = .stopping ∨ x.state = .pending →
            Finishes (.railGang a) s it .refusedState 0x18 0 u) ∧
          (∀ w y, w = countReg (0x4000 + r.val * 0x40 + 0x38) 31 16 1 (commitStart it u) →
            y = { x with lanes := new, shedMask := x.shedMask &&& new } →
            (x.state = .on →
              exec (.railGang a) s = .next (gangLanes r x new (setRail r (some { y with ganging := true }) w))) ∧
            (x.state = .off ∨ x.state = .faulted → Finishes (.railGang a) s it .done 0 0 (placeLanes r ms (modLanes
              (x.members.filter (fun n => !new.getLsbD n.val)) laneFree (setRail r (some y) w))))))))) ∧
  (OnRail 0x14 a it r x s u →
    (imaxLimit u x.members < (setLimits it x).imax → Finishes (.railLimits a) s it .refusedLeash 0 0 u) ∧
    ((setLimits it x).imax ≤ imaxLimit u x.members →
      (grantOf u (.rail r.val) = none → x.state ≠ .pending ∨ (setLimits it x).claim ≤ x.claim →
        Runs (.railLimits a) s (Answered it .done 0 0)) ∧
      (grantOf u (.rail r.val) ≠ none → grantMw u (.rail r.val) < (setLimits it x).claim →
        AsksBudget (.railLimits a) s it (railReq u r (setLimits it x) (.item a) a (setLimits it x).claim)
          (limitsServed a r) u) ∧
      (grantOf u (.rail r.val) ≠ none → (setLimits it x).claim ≤ grantMw u (.rail r.val) →
        exec (.railLimits a) s = .next
          (limitsServed a r (lowerGrant (.rail r.val) (setLimits it x).tier (setLimits it x).claim u))) ∧
      (grantOf u (.rail r.val) = none → x.state = .pending → x.claim < (setLimits it x).claim →
        AsksBudget (.railLimits a) s it (railReq u r (setLimits it x) (.item a) a (setLimits it x).claim)
          (limitsServed a r) u)))

/-- Power-good, the end of a SOFT stop, ganging and AUTO_SHED on a running rail (R164, R168, R170, R172, R178). -/
def Obligations.RailsRun : Prop := ∀ (r n : Fin 48) (x : Rail) (k : Fin 64) (mv : Nat) (ma : Int) (s : State),
  s.rails[r] = some x →
  (x.state = .on → x.pg = false → s.pwr.burrowing = false → x.wmEn = false ∨ (x.wmon = k.val ∧ wmRuns k s = true ∧
      wmBlanked k s = false ∧
      wmJudge s k (BitVec.ofNat 16 (codeAt (watchedInput x) (1000 * mv))) = { below := false, above := false }) →
    Runs (.railPgAssert r mv) s (fun t => isPresent t (48 + r.val) 1 = false ∧ isPresent t (48 + r.val) 8 = false)) ∧
  (x.state = .stopping → exec (.softStopDone r) s = .next (settle (railDown r .off s))) ∧
  ((boundTo s r).all (inPlace s) = false → exec (.gangDone r) s = .next s) ∧
  (x.state = .on → (boundTo s r).all (inPlace s) = true → Runs (.gangDone r) s (fun t =>
    (∃ y, t.rails[r] = some y ∧ y.ganging = false) ∧ (s.lanes[n].rail = some r → s.lanes[n].state = .join → s.lanes[n].leaving = false →
      t.lanes[n].state = .reg ∧ t.lanes[n].share = 64))) ∧
  (x.state = .on → x.autoShed = true →
    (lightLoad s x ma = true → max x.minLanes (laneFloor s r) < (kept s x).length →
      ((kept s x).filter (fun m => m ≠ x.lead)).getLast? = some n →
        Runs (.autoShed r ma) s (fun t => t.lanes[n].state = .shed)) ∧
    (lightLoad s x ma = false → heavyLoad s x ma = true →
      (x.members.filter (fun m => x.shedMask.getLsbD m.val && mayStart s m)).head? = some n →
        Runs (.autoShed r ma) s (fun t => t.lanes[n].state = .join ∧ t.lanes[n].share = 0 ∧ t.lanes[n].ref =
          (if laneRun s.lanes[decider s x] then s.lanes[decider s x].ref else x.goal))) ∧
    (lightLoad s x ma = false → heavyLoad s x ma = false → exec (.autoShed r ma) s = .next s))

/-- Sequence graphs (R182 to R185): a run begins or is refused; a node starts, is done, or runs out of time. -/
def Obligations.GraphsRun : Prop := ∀ (a : Word) (it : Item) (k : Fin 16) (i : Fin 32) (g : Graph) (vm : Nat) (s u : State),
  (Works 0x15 a it s u → hSlot it.handle = k.val → u.graphs[k] = some g →
    (bit (opv it 4) 0 = false → hot u = true ∨ keptDown u k = true →
      Finishes (.seqGraphRun a) s it .refusedState 0x30 0 u) ∧
    (bit (opv it 4) 0 = true ∨ (hot u = false ∧ keptDown u k = false) →
      exec (.seqGraphRun a) s = .next (settle (startRun k (bit (opv it 4) 0) .item (some a) (commitStart it u))))) ∧
  (s.graphs[k] = some g → isRunning g = true →
    (nodeReady g i.val = true → ∀ w, w = modGraph k (fun x => { x with active := x.active ||| at_ i.val 1 }) (rootWake s) →
      ((nodeAt g i.val).wait = true → exec (.graphNodeStart k i vm) s = .next (settle (nodeDone k i.val w))) ∧
      ((nodeAt g i.val).wait = false → g.state = .runUp → exec (.graphNodeStart k i vm) s = .next
        (settle (nodeUp k i.val g.item (nodeAt g i.val) vm
          (modGraph k (fun x => { x with active := x.active ||| at_ i.val 1 }) (stopEnds (nodeAt g i.val) (rootWake s)))))) ∧
      ((nodeAt g i.val).wait = false → g.state = .runDown → exec (.graphNodeStart k i vm) s = .next
        (settle (nodeDown k i.val (nodeAt g i.val) w)))) ∧
    (bit g.active i.val = true →
      (g.state = .runDown → exec (.graphNodeDone k i) s = .next (settle (nodeDone k i.val s))) ∧
      (∀ r x, g.state = .runUp → nodeRail s (nodeAt g i.val) = some r → s.rails[r] = some x → railStands x = true →
        exec (.graphNodeDone k i) s = .next (settle (nodeDone k i.val s))) ∧
      (nodeWaits s k i.val = false → exec (.graphNodeTmo k i) s = .next
        (settle (if g.state = .runUp then nodeFail k i.val s else nodeDone k i.val s)))))

/-! ### The budget and the leash (spec/10, spec/22) -/

/-- The walk serves the first request that can be served (R191); a DEFER limit refuses (R193); UNSHED_HOLD restores the lowest
tier (R199). CAP_BATT (R221) is the battery's voltage times the discharge limit in force, halved while derated, to either
neighbour where it is no whole number (the rounding is open, notes/assumptions/18.md). -/
def Obligations.BudgetWalks : Prop :=
  (∀ (vm : Nat) (a : Word) (r : Req) (n : Option Nat) (tier : Nat) (s : State),
  ((walkAll (now s) s).1.find? (fun x => x.2.isNone && !startWaits s x.1) = some (r, n) →
    exec (.deferredItemServed vm) s = .next (served r vm (serveReq (now s) r (rootWake s)))) ∧
  (s.bud.waiting.filter (fun q => q.aseq = a && deferLimit s q.tier ≠ 0) = [r] →
    exec (.deferTmo a) s = .next (deferRefused r (rootWake s))) ∧
  ([1, 2, 3].find? (fun t => s.bud.shedCap.getLsbD t) = some tier → ((nth s.bud.shedSum tier 0 : Nat) : Int) ≤ freePower s →
    exec .unshedHoldExpiry s = .next (restoreTier tier (modBud (fun b => { b with
      shedCap := b.shedCap &&& ~~~(BitVec.ofNat 4 (2 ^ tier)), shedSum := b.shedSum.setIfInBounds tier 0 }) s)))) ∧
  (∀ (b : Nat) (s u : State), s.den.up = true → u = judgeDerate (sawBatsns b s) →
  Runs (.capBattUpdate b) s (fun t => ∃ cap k : Nat,
    t = arbitrate (modBud (fun x => { x with capBatt := cap }) { u with freeIx := k }) ∧
    cap * (if u.chg.derated then 200 else 100) < b * dsgLimit u + (if u.chg.derated then 200 else 100) ∧
    b * dsgLimit u < cap * (if u.chg.derated then 200 else 100) + (if u.chg.derated then 200 else 100)))

/-- BUDGET_SET (R201) and LEASH_SET (R367, R368). -/
def Obligations.BudgetAndLeashAreSet : Prop := ∀ (a : Word) (it : Item) (s u : State),
  (Works 0x48 a it s u →
    (budgetBad it = true → Finishes (.budgetSet a) s it .refusedLeash 0 0 u) ∧
    (budgetBad it = false → ∀ w t, w = arbitrate (if bit (opv it 4) 4 then setForce (fld (opv it 9) 3 0)
        (budgetStore it (commitStart it u)) else budgetStore it (commitStart it u)) →
      t = serveAllNext w.bud.waiting.length w →
        exec (.budgetSet a) s = .next (complete a .done 0 (BitVec.ofNat 64 (capacity t)) t))) ∧
  (Works 0x49 a it s u →
    (leashOperand it = true → Finishes (.leashSet a) s it .refusedFormat 7 0 u) ∧
    (leashOperand it = false → leashBeyond it = true → Finishes (.leashSet a) s it .refusedLeash 0 0 u) ∧
    (leashOperand it = false → leashBeyond it = false →
      ∀ t, t = leashReturn (opv it 4) (commitStart it u) (leashStore it (commitStart it u)) →
        exec (.leashSet a) s = .next (complete a .done 0 ((lshStatus t).setWidth 64) t)))

/-! ### Charger, battery, Lend and Lift (spec/11) -/

/-- The charger's states by voltage and time (R203 to R205, R207), with the arbiter after each (R196). Input adaptation (R209):
the current steps down while VIN is low and up while it is high, never below the leash's minimum; by how much it steps
down is open, up to 100 mA (notes/assumptions/30.md). -/
def Obligations.ChargerMoves : Prop :=
  (∀ (b : Nat) (s : State),
  (s.chg.state = .precharge → pack s (preV s) ≤ b →
    exec (.chgStateChange b) s = .next (arbitrate (setChg .cc (sawBatsns b s)))) ∧
  (s.chg.state = .cc → pack s (preV s) ≤ b → pack s (rfld s 0x540C 12 0) ≤ b →
    exec (.chgStateChange b) s = .next (arbitrate (setChg .cv (sawBatsns b s)))) ∧
  (s.chg.state = .cc ∨ s.chg.state = .cv → b < pack s (preV s) →
    exec (.chgStateChange b) s = .next (arbitrate (setChg .precharge (sawBatsns b s)))) ∧
  (s.chg.state = .cv → exec .chgTerminate s = .next (judgeGauge (setChg .done (rebase (qfull s : Int) s)))) ∧
  (s.chg.state = .done → b < pack s (rfld s 0x540C 12 0 - 5 * rfld s 0x5410 15 8) → exec (.chgRecharge b) s = .next
    (arbitrate (setChg (if b < pack s (preV s) then .precharge else .cc) (sawBatsns b s))))) ∧
  (∀ (vin base cur : Nat) (s : State), charging s = true → base = baseMa s →
  cur = min base (s.chg.adapted.getD base) → chgMin s ≤ cur →
    (vin < rfld s 0x5418 8 0 * 100 → chgMin s < base → Runs (.inputAdapt vin) s (fun t => ∃ d, d ≤ 100 ∧
      t = adaptTo (max (chgMin s) (cur - d)) { s with freeIx := s.freeIx + 1 })) ∧
    (rfld s 0x5418 8 0 * 100 + 200 < vin → exec (.inputAdapt vin) s = .next (adaptTo (cur + 1) s)) ∧
    (rfld s 0x5418 8 0 * 100 ≤ vin → vin ≤ rfld s 0x5418 8 0 * 100 + 200 → exec (.inputAdapt vin) s = .next s))

/-- The supply side's faults (R205, R206, R211, R221, R230), each by its threshold, with its cause on its source; one that
FAULT_CLEAR alone ends is raised once until then. -/
def Obligations.ChargerFaultsLatch : Prop := ∀ (ma diff : Int) (mv acin : Nat) (s : State), s.den.up = true →
  s.pwr.burrowing = false →
  (s.chg.state = .precharge → 60000000 * rfld s 0x5414 15 8 < s.chg.preTime → isPresent s 151 1 = false →
    Runs .preTmo s (fun t => Latched t 151 1)) ∧
  (charging s = true →
    (3600000000 * orElse0 (rfld s 0x5414 23 16) 24 ≤ s.chg.safety →
      (inEpisode s 151 2 = false → Runs .safetyTmo s (fun t => Latched t 151 2)) ∧
      (inEpisode s 151 2 = true → exec .safetyTmo s = .next (setChg .fault s))) ∧
    ((10 * s.chg.target + 1000 : Int) < ma → inEpisode s 151 4 = false →
      Runs (.chgFault (.chgOc ma)) s (fun t => Latched t 151 4)) ∧
    (inEpisode s 151 5 = false → Runs (.chgFault .swFail) s (fun t => Latched t 151 5))) ∧
  (38000 < mv → isPresent s 150 1 = false → Runs (.chgFault (.acinOv mv)) s (fun t => Latched t 150 1)) ∧
  (s.pwr.acgate = true → 1000 < ((mv : Int) - acin).natAbs → isPresent s 150 2 = false →
    Runs (.chgFault (.acgateFail mv acin)) s (fun t => Latched t 150 2)) ∧
  (s.chg.state ≠ .disabled → ovMv s < mv → isPresent s 151 3 = false →
    Runs (.chgFault (.battOv mv)) s (fun t => Latched t 151 3)) ∧
  (s.pwr.batsw = true → 300 < diff.natAbs → isPresent s 155 1 = false →
    Runs (.batswOpenFail diff) s (fun t => Latched t 155 1)) ∧
  (1250 * rfld s 0x5450 15 0 < 100 * mv → isPresent s 155 2 = false → Runs (.dsgOc mv) s (fun t => Latched t 155 2)) ∧
  (gaugeRuns s = true → isPresent s 152 3 = false → Runs .senseRange s (fun t => Latched t 152 3))

/-- The gauge (R212 to R215) counts a sample as its converter's trim gives it (R296, notes/assumptions/95.md), learns at rest,
and CUT_PEND and CUTOFF follow the voltage (R217 to R220). -/
def Obligations.GaugeCounts : Prop := ∀ (ma : Int) (b : Nat) (s : State),
  (gaugeRuns s = false → exec (.gaugeSample ma b) s = .next (sawBatsns b s)) ∧
  (gaugeRuns s = true →
    (∀ n, n = gaugeParts s ma → exec (.gaugeSample ma b) s = .next (judgeGauge (witness s (gaugeVolts b (modChg (fun c => { c with
      qacc := satQ (c.qacc + (c.qrem + n).tdiv qUnit), qrem := (c.qrem + n).tmod qUnit, batsns := b,
      rest := c.rest && !(rfld s 0x5458 7 0 * 10 * 160000 < n.natAbs),
      cutPend := c.cutPend && b ≤ pack s (cutoffMv s + 50) }) s))))) ∧
    (exec (.batteryRest b) s = .next (judgeGauge (witness s (gaugeVolts b
      (modChg (fun c => { c with rest := true, batsns := b }) s))))) ∧
    (s.pwr.acinValid = false → s.chg.cutPend = false → b ≤ pack s (cutoffMv s) → Runs (.cutoffPend b) s (fun t =>
      t.chg.cutPend = true ∧ t.chg.batsns = b)) ∧
    (s.pwr.acinValid = false → s.chg.cutPend = true → s.pwr.burrowing = false → b ≤ pack s (cutoffMv s + 50) →
      s.chg.qacc ≤ 0 ∨ s.chg.qvalid = false → exec (.cutoff b) s = .next (burrowStart
        (modPwr (fun p => { p with latch := { p.latch with gaugeZero := true, uv := true } })
          (disputeEnd (event 0x0704 0 0 0 (BitVec.ofInt 64 s.chg.qacc) (sawBatsns b s)))))))

/-- GAUGE_REBASE and CHG_SET (R210, R216): each refusal, and the item that is carried out and answered. -/
def Obligations.GaugeAndChargerAreSet : Prop := ∀ (a : Word) (it : Item) (s u : State),
  (Works 0x43 a it s u →
    (battless u = true → Finishes (.gaugeRebase a) s it .refusedState 0x12 0 u) ∧
    (battless u = false → fld (opv it 4) 1 0 = 3 → u.chg.vvalid = false →
      Finishes (.gaugeRebase a) s it .refusedState 0x14 0 u) ∧
    (battless u = false → fld (opv it 4) 1 0 ≠ 3 ∨ u.chg.vvalid = true → ∀ q : Int,
      q = (if fld (opv it 4) 1 0 = 0 then 0 else if fld (opv it 4) 1 0 = 1 then (qfull u : Int)
        else if fld (opv it 4) 1 0 = 2 then (opv it 5).toInt else ((u.chg.socV * qfull u / 1000 : Nat) : Int)) →
      Finishes (.gaugeRebase a) s it .done 0 (dword (BitVec.ofInt 32 u.chg.qacc) (BitVec.ofInt 32 (satQ q)))
          (judgeGauge (disputeEnd (rebase q u))) ∧
        Runs (.gaugeRebase a) s (fun t => t.chg.qacc = satQ q ∧ t.chg.qvalid = true))) ∧
  (Works 0x40 a it s u → ∀ sets, sets = (chgs it 0 && bit (opv it 5) 0) →
    (sets = true → held u 151 = true → Finishes (.chgSet a) s it .refusedState 0x31 0 u) ∧
    (sets = false ∨ held u 151 = false →
      (battless u = true → Finishes (.chgSet a) s it .refusedState 0x12 0 u) ∧
      (battless u = false → chgOperand it = true → Finishes (.chgSet a) s it .refusedFormat 7 0 u) ∧
      (battless u = false → chgOperand it = false →
        (chgRange u it = true → Finishes (.chgSet a) s it .refusedLeash 0 0 u) ∧
        (chgRange u it = false → sets = true → hot u = true → Finishes (.chgSet a) s it .refusedState 0x30 0 u) ∧
        (chgRange u it = false → sets = false ∨ hot u = false →
          ∀ t, t = judgeLow (arbitrate (chgUpdate (chgStore it (commitStart it u)))) →
            Finishes (.chgSet a) s it .done 0 (BitVec.ofNat 64 t.chg.target) t))))

/-- LEND_SET and LIFT_SET (R222, R223, R226): off, the refusals, and the request to the budget; Lend and Lift on their way, and
what stops them (R223, R224, R226, R227). -/
def Obligations.LendAndLiftAct : Prop :=
  (∀ (a : Word) (it : Item) (s u : State),
  (Works 0x41 a it s u →
    (bit (opv it 4) 0 = false → lendRange it = false → u.chg.lend = .off → Finishes (.lendSet a) s it .done 0 0 u) ∧
    (bit (opv it 4) 0 = false → lendRange it = false → u.chg.lend ≠ .off →
      exec (.lendSet a) s = .next (complete a .done 0 0 (arbitrate (lendOff 1 (commitStart it u))))) ∧
    (bit (opv it 4) 0 = true → held u 153 = true → Finishes (.lendSet a) s it .refusedState 0x31 0 u) ∧
    (bit (opv it 4) 0 = false ∨ held u 153 = false → lendRange it = true →
      Finishes (.lendSet a) s it .refusedLeash 0 0 u) ∧
    (bit (opv it 4) 0 = true → held u 153 = false → lendRange it = false → hot u = false → vinBank u = false →
      battless u = false →
        (u.chg.cutPend = true → Finishes (.lendSet a) s it .refusedState 0x11 0 u) ∧
        (u.chg.cutPend = false → (fld (opv it 7) 7 0 * 10 : Nat) ≤ socUse u →
          (latchedIn u 153 = true → Finishes (.lendSet a) s it .refusedState 0x13 0 u) ∧
          (latchedIn u 153 = false → u.chg.lend = .off ∨ grantMw u .lend < lendMw it →
            AsksBudget (.lendSet a) s it (lendReq u a (lendMw it)) (lendServed a) u)))) ∧
  (Works 0x42 a it s u →
    (bit (opv it 4) 0 = false → liftRange it = false → u.chg.lift = .off → Finishes (.liftSet a) s it .done 0 0 u) ∧
    (bit (opv it 4) 0 = false → liftRange it = false → u.chg.lift ≠ .off →
      exec (.liftSet a) s = .next (complete a .done 0 0 (liftOffFree (commitStart it u)))) ∧
    (bit (opv it 4) 0 = true → held u 154 = true → Finishes (.liftSet a) s it .refusedState 0x31 0 u) ∧
    (bit (opv it 4) 0 = false ∨ held u 154 = false → liftRange it = true →
      Finishes (.liftSet a) s it .refusedLeash 0 0 u) ∧
    (bit (opv it 4) 0 = true → held u 154 = false → liftRange it = false → hot u = false →
      (latchedIn u 154 = true → Finishes (.liftSet a) s it .refusedState 0x13 0 u) ∧
      (latchedIn u 154 = false → u.chg.lift = .off ∨ grantMw u .lift < fld (opv it 7) 23 0 →
        AsksBudget (.liftSet a) s it (liftReq u a (fld (opv it 7) 23 0)) (liftServed a) u)))) ∧
  (∀ (mv : Nat) (c : LendCause) (s : State),
  (s.chg.lend = .slewing → Runs .lendVinReached s (fun t => t.chg.lend = .closing ∧ t.pwr.ptng = true)) ∧
  (s.chg.lend = .closing → Runs (.lendStartDone mv) s (fun t => t.chg.lend = .running)) ∧
  (s.chg.lend ≠ .off → c ≠ .sub ∨ capLend s < grantMw s .lend →
    exec (.lendStop c) s = .next (arbitrate (lendAbort (lendCode c) s))) ∧
  (s.pwr.burrowing = false →
    (s.chg.lend = .running → mv < 8 * s.chg.vlend → inEpisode s 153 1 = false →
      Runs (.lendFault (.short mv)) s (fun t => Latched t 153 1)) ∧
    (s.chg.lend ≠ .off → 10 * s.chg.vlend + 1000 < mv → inEpisode s 153 2 = false →
      Runs (.lendFault (.backfeed mv)) s (fun t => Latched t 153 2))) ∧
  (s.chg.lift ≠ .off →
    (((mv : Int) - 100 * s.chg.vacc).natAbs ≤ 3 * s.chg.vacc → Runs (.liftReached mv) s (fun t => t.chg.lift = .running)) ∧
    (3 * s.chg.vacc < ((mv : Int) - 100 * s.chg.vacc).natAbs → exec (.liftReached mv) s = .next s)) ∧
  (s.chg.lift ≠ .off → s.pwr.burrowing = false →
    (inEpisode s 154 1 = false → Runs (.liftFault .short) s (fun t => Latched t 154 1)) ∧
    (100 * s.chg.vacc + 2000 < mv → inEpisode s 154 2 = false → Runs (.liftFault (.ov mv)) s (fun t => Latched t 154 2)) ∧
    (mv < 90 * s.chg.vacc → isPresent s 154 3 = false → Runs (.liftFault (.uv mv)) s (fun t => Latched t 154 3))))

/-! ### Relays, motors and fans (spec/12, spec/13) -/

/-- RELAY_SET (R233): the refusals, the relay that stands where it is asked for, and the request for a pulse; the slot that is
granted starts it, unless the relay is isolated (R352). The end of a pulse (R233 to R236): a landing inside its window
confirms the relay, any other end is judged, and a retry asks for a slot anew. -/
def Obligations.RelaysPulse : Prop :=
  (∀ (a : Word) (it : Item) (n : Fin 48) (x : Relay) (s u : State),
  Works 0x20 a it s u → relayBusy s it.handle = false → hSlot it.handle = n.val → u.relays[n] = some x →
  ∀ (dir : Bool) (pw : Nat), dir = bit (opv it 4) 0 → pw = fld (opv it 4) 23 16 →
    (held u (96 + n.val) = true → Finishes (.relaySet a) s it .refusedState 0x31 0 u) ∧
    (held u (96 + n.val) = false →
      (pwOk pw = false → Finishes (.relaySet a) s it .refusedFormat 7 0 u) ∧
      (pwOk pw = true → x.state = .faulted → Finishes (.relaySet a) s it .refusedState 0x17 0 u) ∧
      (pwOk pw = true → x.state ≠ .faulted → hot u = true → Finishes (.relaySet a) s it .refusedState 0x30 0 u) ∧
      (pwOk pw = true → x.state ≠ .faulted → hot u = false →
        (x.target = some dir → x.confirmed = true → bit (opv it 4) 8 = false → exec (.relaySet a) s = .next
          (complete a .done 0x10 0 (commitRelay n (modRelay n (fun y => { y with targetAseq := a }) u)))) ∧
        (x.target ≠ some dir ∨ x.confirmed = false ∨ bit (opv it 4) 8 = true →
          ∀ q, q = relayReq u n x (.item a) a (pulseWidth x dir pw) →
            (∀ k, ask u q = .refused k → Runs (.relaySet a) s (Answered it .refusedBudget 0x10 (BitVec.ofNat 64 k))) ∧
            (∀ c, ask u q = .waits c → exec (.relaySet a) s = .next (modRelay n (fun y => { y with state := .waiting })
              (itemAsks a q (relayServed a n) u))) ∧
            (ask u q = .served → isolated (place q .served u) (96 + n.val) = false →
              exec (.relaySet a) s = .next (relayServed a n (place q .served u))) ∧
            (ask u q = .served → isolated (place q .served u) (96 + n.val) = true → u.pwr.burrowing = false →
              Runs (.relaySet a) s (fun t => Latched t (96 + n.val) 4)))))) ∧
  (∀ (n : Fin 48) (x : Relay) (e : Dip) (dip : Option Dip) (peak : Nat) (s : State),
  s.relays[n] = some x →
  (x.state = .pulsing →
    (dipMin x ≤ e.depth → twinMin x ≤ e.ms → e.ms ≤ twinMax x x.width → exec (.relayPulseEnd n (some e) peak) s = .next
      (relayEnd n 0 e.ms peak (relayConfirm n s))) ∧
    (x.held = true → dip.filter (lands x) = none → Runs (.relayPulseEnd n dip peak) s (fun t => ∃ k l,
      t = relayEnd n 1 l peak (relayConfirm n { s with freeIx := k }))) ∧
    (s.pwr.burrowing = false →
      (x.held = false → dip.filter (lands x) = none →
        Runs (.relayPulseEnd n dip peak) s (fun t => Latched t (96 + n.val) 3)) ∧
      Runs (.relayPulseAbort n .coilOpen peak) s (fun t => Latched t (96 + n.val) 1) ∧
      Runs (.relayPulseAbort n .coilShort peak) s (fun t => Latched t (96 + n.val) 2) ∧
      Runs (.relayPulseAbort n .bankUv peak) s (fun t => Latched t (96 + n.val) 4))) ∧
  (x.state = .retryGap → ∀ q, q = relayReq s n x (.retry n.val) (x.item.getD (nextAseq s)) x.width →
    (∀ k, ask s q = .refused k → exec (.relayRetry n) s = .next (relayVerdict n .idle (place q (.refused k) s))) ∧
    (ask s q = .served → exec (.relayRetry n) s = .next (relayPulse n (place q .served s))) ∧
    (∀ c, ask s q = .waits c → Runs (.relayRetry n) s (fun t => ∃ y, t.relays[n] = some y ∧ y.state = .waiting))))

/-- MOTOR_HOME, MOTOR_MOVE and MOTOR_STOP (R239, R243, R245, R246). -/
def Obligations.MotorItemsAnswer : Prop := ∀ (a : Word) (it : Item) (m : Fin 2) (x : Motor) (s u : State),
  hSlot it.handle = m.val → u.motors[m] = some x → ∀ q, q = motorReq u m x a →
  (Works 0x21 a it s u → motorBraking s it.handle = false →
    (held u (144 + m.val) = true → Finishes (.motorHome a) s it .refusedState 0x31 0 u) ∧
    (held u (144 + m.val) = false → x.state = .faulted → Finishes (.motorHome a) s it .refusedState 0x17 0 u) ∧
    (held u (144 + m.val) = false → x.state ≠ .faulted → hot u = true →
      Finishes (.motorHome a) s it .refusedState 0x30 0 u) ∧
    (held u (144 + m.val) = false → x.state ≠ .faulted → hot u = false →
      ((∀ c, ask u q ≠ .waits c) → AsksBudget (.motorHome a) s it q (motorServed a m) u) ∧
      (∀ c, ask u q = .waits c → exec (.motorHome a) s = .next
        (modMotor m (fun y => { y with state := .pending, item := some a }) (itemAsks a q (motorServed a m) u))))) ∧
  (Works 0x22 a it s u → motorBraking s it.handle = false →
    (held u (144 + m.val) = true → Finishes (.motorMove a) s it .refusedState 0x31 0 u) ∧
    (held u (144 + m.val) = false →
      (inOr0 (fld (opv it 5) 7 0) 5 100 = false → Finishes (.motorMove a) s it .refusedFormat 7 0 u) ∧
      (inOr0 (fld (opv it 5) 7 0) 5 100 = true → x.posValid = false → it.redriven = true →
        Finishes (.motorMove a) s it .failed 0x1F 0 u) ∧
      (inOr0 (fld (opv it 5) 7 0) 5 100 = true → x.posValid = false → it.redriven = false →
        Finishes (.motorMove a) s it .refusedState 0x11 0 u) ∧
      (inOr0 (fld (opv it 5) 7 0) 5 100 = true → x.posValid = true →
        (motEnc x = false → Finishes (.motorMove a) s it .refusedState 0x12 0 u) ∧
        (motEnc x = true → x.state = .faulted → Finishes (.motorMove a) s it .refusedState 0x17 0 u) ∧
        (motEnc x = true → x.state ≠ .faulted → hot u = true → Finishes (.motorMove a) s it .refusedState 0x30 0 u) ∧
        (motEnc x = true → x.state ≠ .faulted → hot u = false →
          ((∀ c, ask u q ≠ .waits c) → AsksBudget (.motorMove a) s it q (motorServed a m) u) ∧
          (∀ c, ask u q = .waits c → exec (.motorMove a) s = .next
            (modMotor m (fun y => { y with state := .pending, item := some a }) (itemAsks a q (motorServed a m) u))))))) ∧
  (Works 0x23 a it s u →
    (motorDrives x = true ∨ x.state = .braking →
      (bit (opv it 4) 0 = true → Runs (.motorStop a) s (fun t => ∃ r, Answered it .done 0 r t)) ∧
      (bit (opv it 4) 0 = false → exec (.motorStop a) s = .next
        (modMotor m (fun y => { y with item := some a }) (motorStopNow m false (commitStart it u))))) ∧
    (motorDrives x = false → x.state ≠ .braking → Runs (.motorStop a) s (fun t =>
      t = complete a .done 0 (posResult x) (motorStopNow m (bit (opv it 4) 0) (commitStart it u)) ∧
      Answered it .done 0 (posResult x) t)))

/-- A driving channel (R238 to R249): its faults are latched, limits and targets brake it, and where it has stopped the
next step follows. Counted changes of a limit beyond CHAT_N within CHAT_WIN are chatter (R241); a limit's qualified change
acts on what they leave. The order of chatter's steps, and a FAR trip within a brake, are the model's (notes/assumptions/92.md,
101.md). -/
def Obligations.MotorsMove : Prop := ∀ (m : Fin 2) (x : Motor) (l : Limit) (active : Bool) (count first : Int) (k : Nat)
    (ages : List Nat) (s : State),
  s.motors[m] = some x →
  (s.pwr.burrowing = false →
    (motorDrives x = true → Runs (.motorBridgeOc m) s (fun t => Latched t (144 + m.val) 3) ∧
      Runs (.motorStall m) s (fun t => Latched t (144 + m.val) 2) ∧
      (motAcc x = true → s.chg.lift = .off → Runs (.motorSupplyLost m) s (fun t => Latched t (144 + m.val) 5))) ∧
    (motorWorks x = true → motEnc x = true → motorSensed s x = true → 16 < x.badSteps + k →
      Runs (.encoderError m k) s (fun t => Latched t (144 + m.val) 4))) ∧
  (motorSensed s x = true → inHush s = false ∨ motorDrives x = true →
    ∀ n y, n = noteEdges m l (ages.map (fun a => now s - BitVec.ofNat 48 a)) s → n.motors[m] = some y →
      (isPresent s (144 + m.val) 1 = false → chatters y (y.edges l) = true → s.pwr.burrowing = false →
        Runs (.limitChatter m l ages) s (fun t => Latched t (144 + m.val) 1)) ∧
      (isPresent s (144 + m.val) 1 = true ∨ chatters y (y.edges l) = false →
        exec (.limitChatter m l ages) s = .next n)) ∧
  (motorWorks x = true → motEnc x = true → motorSensed s x = true → x.badSteps + k ≤ 16 →
    Runs (.encoderError m k) s (fun t => t.motors[m] = some { x with badSteps := x.badSteps + k })) ∧
  (motorWorks x = true → motTmo x ≠ 0 → exec (.moveTmo m) s = .next (motorEnds m x 0x1E (loses x) s)) ∧
  (motorSensed s x = true → ∀ u y, u = countedChanges m l [now s - BitVec.ofNat 48 x.qualUs] (modMotor m (fun z => match l with
      | .home => { z with homeActive := active }
      | .far => { z with farActive := active }) s) → u.motors[m] = some y →
    (y.state ≠ .homing → y.state ≠ .moving ∨ active = false ∨ ahead_ l y = false →
      y.state ≠ .braking ∨ l = .home ∨ active = false ∨ loses y = false →
        exec (.limitQualified m l active count first) s = .next u) ∧
    (y.state = .moving → active = true → ahead_ l y = true → Runs (.limitQualified m l active count first) s (fun t => ∃ z,
      t.motors[m] = some z ∧ z.state = .braking ∧ z.brake = .stopped ∧ z.pos = count - y.zero ∧ z.item = none)) ∧
    (y.state = .braking → loses y = true → l = .far → active = true →
      exec (.limitQualified m l active count first) s = .next (farBraking m y u)) ∧
    (y.state = .homing →
      (l = .home → active = true →
        (y.step = .approach → Runs (.limitQualified m l active count first) s (fun t => ∃ z, t.motors[m] = some z ∧
          z.state = .braking ∧ z.brake = .homeStep .backoff ∧ z.homeActive = true)) ∧
        (y.step = .final → Runs (.limitQualified m l active count first) s (fun t => ∃ z, t.motors[m] = some z ∧
          z.state = .braking ∧ z.brake = .homed ∧ z.zero = first))) ∧
      (l = .home → active = false → y.step = .release → Runs (.limitQualified m l active count first) s (fun t => ∃ z,
        t.motors[m] = some z ∧ z.state = .braking ∧ z.brake = .homeStep .approach)) ∧
      (l = .far → active = true → y.farTrips = 0 → Runs (.limitQualified m l active count first) s (fun t => ∃ z,
        t.motors[m] = some z ∧ z.state = .homing ∧ z.step = .approach ∧ z.farTrips = 1)))) ∧
  (x.state = .homing →
    (x.step = .backoff → Runs (.motorTargetReached m) s (fun t => ∃ y, t.motors[m] = some y ∧
      y.state = .braking ∧ y.brake = .homeStep .final)) ∧
    (x.step = .approach ∨ x.step = .final → exec (.motorTargetReached m) s = .next (motorEnds m x 0x1B true s)) ∧
    (x.step = .release → exec (.motorTargetReached m) s = .next (motorEnds m x 0x1A true s))) ∧
  (x.state = .moving → Runs (.motorTargetReached m) s (fun t => ∃ y, t.motors[m] = some y ∧
    y.state = .braking ∧ y.brake = .arrived)) ∧
  (x.state = .braking → ∀ pos, pos = count - x.zero →
    (∀ n, x.brake = .homeStep n → Runs (.motorBrakeEnd m count) s (fun t => ∃ y, t.motors[m] = some y ∧
      y.state = .homing ∧ y.step = n)) ∧
    (x.brake = .homed → Runs (.motorBrakeEnd m count) s (fun t => ∃ y, t.motors[m] = some y ∧
      y.state = .idle ∧ y.posValid = true ∧ y.homed = true ∧ y.pos = pos)) ∧
    (x.brake = .faulted → Runs (.motorBrakeEnd m count) s (fun t => ∃ y, t.motors[m] = some y ∧ y.state = .faulted)) ∧
    (∀ a it, x.brake = .arrived → x.item = some a → findItem s a = some it → Runs (.motorBrakeEnd m count) s
      (Answered it .done (if 8 < (pos - x.target).natAbs then 0x10 else 0) ((BitVec.ofInt 32 pos).setWidth 64))))

/-- FAN_SET (R250, R251, R254, R255, R257). A running fan (R252 to R257): its readings and its ramp at an update, the loss and
the return of its tach, its faults, and the end of an item that has not settled. Its readings pass its trim
(notes/assumptions/95.md). -/
def Obligations.FansAreSetAndRun : Prop :=
  (∀ (a : Word) (it : Item) (f : Fin 4) (x y : Fan) (s u : State),
  Works 0x28 a it s u → hSlot it.handle = f.val → u.fans[f] = some x → y = fanTakes it x →
    (held u (146 + f.val) = true → Finishes (.fanSet a) s it .refusedState 0x18 0 u) ∧
    (held u (146 + f.val) = false →
      (∀ e, bit (opv it 4) 8 = true → fanFaultOf y = some e → Finishes (.fanSet a) s it e.1 e.2 0 u) ∧
      (bit (opv it 4) 8 = false ∨ fanFaultOf y = none →
        (fanTargetOk y.speed (opv it 5).toNat = false → Finishes (.fanSet a) s it .refusedLeash 0 0 u) ∧
        (fanTargetOk y.speed (opv it 5).toNat = true →
          (y.speed = true → fanTach y = false → Finishes (.fanSet a) s it .refusedState 0x10 0 u) ∧
          (y.speed = false ∨ fanTach y = true →
            (x.state = .faulted → Finishes (.fanSet a) s it .refusedState 0x17 0 u) ∧
            (x.state ≠ .faulted → blindHeld x = true → Finishes (.fanSet a) s it .done 0x11 (fanResult x)
              (setFan f (some { fanWith it x with item := none }) u)) ∧
            (x.state ≠ .faulted → blindHeld x = false → ∀ mw, mw = fanClaim u f y (fanTarget u f y) →
              (fanTarget u f y = 0 ∨ (mw ≤ grantMw u (.fan f.val) ∧ fanIsShed u y = false) →
                exec (.fanSet a) s = .next (fanServed a f u)) ∧
              (fanTarget u f y ≠ 0 → grantMw u (.fan f.val) < mw ∨ fanIsShed u y = true →
                AsksBudget (.fanSet a) s it (fanReq u f y (.item a) a mw) (fanServed a f) u))))))) ∧
  (∀ (f : Fin 4) (x : Fan) (rd : FanReading) (mv : Nat) (s : State), s.fans[f] = some x →
  (Runs (.fanUpdate f rd) s (fun t => ∃ y, t.fans[f] = some y ∧ y.fanpv = rd.fanpv ∧ y.state = x.state ∧
    (∀ us, rd.tach = some us → fanTach x = true → y.rpm = rpmOf x us) ∧
    (rd.tach = none ∨ fanTach x = false → y.rpm = x.rpm))) ∧
  (fanMoves x = true → x.state ≠ .blind → x.held = false → x.runSpeed = false → enabledBands x = [] →
    ∀ top, top = fanTop { x with fanpv := rd.fanpv } → ∀ goal, goal = 10 * min x.run top →
    ∀ out, out = min x.out (10 * top) → Runs (.fanUpdate f rd) s (fun t => ∃ y, t.fans[f] = some y ∧
      y.out = (if out < goal then min goal (out + fanRamp x) else max goal (out - fanRamp x)) ∧
      y.dropout = decide (top < x.run))) ∧
  (s.pwr.burrowing = false →
    (fanTach x = true → x.state = .run ∨ x.state = .blind → 4 * expectedTach x ≤ mv →
      isPresent s (146 + f.val) 1 = false → Runs (.fanTachLost f mv) s (fun t => Latched t (146 + f.val) 1)) ∧
    (fanMoves x = true → 20 * fanSeen s f mv < x.out → Runs (.fanFault f (.short mv)) s (fun t => Latched t (146 + f.val) 2)) ∧
    (x.out + 10000 < 10 * fanSeen s f mv → isPresent s (146 + f.val) 3 = false →
      Runs (.fanFault f (.ov mv)) s (fun t => Latched t (146 + f.val) 3))) ∧
  (x.held = true → x.state = .run → exec (.fanBlind f) s = .next (arbitrate (forceGrant
    (.fan f.val) (fanTier x) (blindClaim x)
    (modFan f (fun y => { y with state := .blind, ramping := true, bandMoved := false }) (withdrawFan f s))))) ∧
  (isPresent s (146 + f.val) 1 = true → Runs (.fanTachBack f) s (fun t => isPresent t (146 + f.val) 1 = false)) ∧
  (x.state = .spinup → Runs (.fanSpinupEnd f) s (fun t => t.fans[f] = some { x with state := .run })) ∧
  (∀ a it, x.runSpeed = true → x.item = some a → findItem s a = some it → it.phase = .working →
    30000000 ≤ sinceT (now s) it.began → Runs (.fanNotSettled f) s (Answered it .done 0x12 (fanResult x))))

/-! ### Measurement and comparators (spec/14, spec/15) -/

/-- ADC_SEQ_START, ADC_SEQ_STOP and ADC_URGENT (R264, R265, R268); passes, conversions and cuts (R262 to R268), and the delivery
of what they give (R269 to R272). -/
def Obligations.AdcConverts : Prop :=
  (∀ (a : Word) (it : Item) (q : Fin 8) (x : Seq) (s u : State),
  hSlot it.handle = q.val → u.adc.seqs[q] = some x →
  (Works 0x30 a it s u →
    (x.running = true → Finishes (.adcSeqStart a) s it .done 0x10 0 u) ∧
    (x.running = false → seqTrig x.w8 ≠ 3 → Runs (.adcSeqStart a) s (fun t => Answered it .done 0 0 t ∧
      ∃ y, t.adc.seqs[q] = some y ∧ y.running = true ∧ y.passes = 0 ∧ y.records = 0 ∧
        y.limit = orElse0 (fld (opv it 4) 15 0) (fld x.w8 31 16))) ∧
    (x.running = false → seqTrig x.w8 = 3 → Runs (.adcSeqStart a) s (fun t =>
      ∃ y, t.adc.seqs[q] = some y ∧ y.running = true ∧ y.item = some a ∧ (y.inPass = true ∨ y.waiting = true) ∧
        y.limit = orElse0 (orElse0 (fld (opv it 4) 15 0) (fld x.w8 31 16)) 1))) ∧
  (Works 0x31 a it s u →
    (x.running = false → Finishes (.adcSeqStop a) s it .done 0x10 0 u) ∧
    (x.running = true → x.inPass = true ∨ x.waiting = true → Runs (.adcSeqStop a) s (fun t =>
      t.adc.seqs[q] = some { x with stopItem := some a, stopWhy := 1 })) ∧
    (x.running = true → x.inPass = false → x.waiting = false → x.item = none → Runs (.adcSeqStop a) s (fun t =>
      Answered it .done 0 (BitVec.ofNat 64 x.passes) t ∧ ∃ y, t.adc.seqs[q] = some y ∧ y.running = false))) ∧
  (Works 0x32 a it s u → ∀ i c, i = fld (opv it 4) 4 0 → c = seqConv x →
    (x.entries.length ≤ i → Finishes (.adcUrgent a) s it .refusedFormat 7 0 u) ∧
    (i < x.entries.length → cutQueues u c = false → u.adc.convs[c].pass = none → Runs (.adcUrgent a) s (fun t =>
      t.adc.convs[c].cut = some { seq := q, entry := i, item := some a })) ∧
    (i < x.entries.length → cutQueues u c = false → ∀ q' y, u.adc.convs[c].pass = some q' →
      u.adc.seqs[q'] = some y → shielded y = true →
        Runs (.adcUrgent a) s (Answered it .refusedState 0x10 (BitVec.ofNat 64 q'.val))) ∧
    (i < x.entries.length → cutQueues u c = true → 4 ≤ u.adc.convs[c].queue.length →
      Runs (.adcUrgent a) s (Answered it .refusedState 0x11 0)))) ∧
  (∀ (q : Fin 8) (c : Fin 2) (k : Fin 4) (nano : Int) (x : Seq) (s : State),
  (s.adc.seqs[q] = some x →
  (x.running = true → ∀ w, w = modSeq q (fun _ => (takeTrigger s x).2) s →
    ((takeTrigger s x).1 = false → exec (.adcTrigger q) s = .next w) ∧
    ((takeTrigger s x).1 = true → x.inPass = true ∨ x.waiting = true →
      exec (.adcTrigger q) s = .next (countReg (seqReg q 0x18) 31 16 1 w)) ∧
    ((takeTrigger s x).1 = true → x.inPass = false → x.waiting = false → Runs (.adcTrigger q) s (fun t =>
      ∃ y, t.adc.seqs[q] = some y ∧ (y.inPass = true ∨ y.waiting = true)))) ∧
  (s.adc.convs[c].cut = none → s.adc.convs[c].pass = some q →
    (x.entry + 1 < x.entries.length → Runs (.adcConversionDone c nano) s (fun t => ∃ y, t.adc.seqs[q] = some y ∧
      y.entry = x.entry + 1 ∧ y.records = x.records + 1)) ∧
    (x.entries.length ≤ x.entry + 1 → Runs (.adcConversionDone c nano) s (fun t => ∃ y, t.adc.seqs[q] = some y ∧
      y.passes = x.passes + 1 ∧ y.records = x.records + 1 ∧ (x.stopWhy ≠ 0 → y.running = false)))) ∧
  (calHolds s c = false → ∀ cut a it e, s.adc.convs[c].cut = some cut → cut.seq = q → cut.item = some a →
    findItem s a = some it → e = entryAt x cut.entry →
      Runs (.adcConversionDone c nano) s (fun t => t.adc.convs[c].cut = s.adc.convs[c].queue.head? ∧ Answered it .done 0
        ((recordOf q cut.entry c e true (convCode c e.word e.gain nano s).1).setWidth 64) t)) ∧
  ((∀ q' : Fin 8, q' ≠ q → s.adc.seqs[q'] = none) → cutQueues s c = false → s.adc.convs[c].pass = none →
    ∀ e more, s.adc.convs[c].edges = e :: more →
      (cutAsks x c e = true → Runs (.adcCut c) s (fun t => t.adc.convs[c].edges = more ∧
        t.adc.convs[c].cut = some { seq := q, entry := fld x.w10 20 16, item := none })) ∧
      (cutAsks x c e = false → exec (.adcCut c) s = .next (modConv c (fun v => { v with edges := more }) s)))) ∧
  (s.adc.convs[c].edges = [] → exec (.adcCut c) s = .next s) ∧
  (∀ r more, s.adc.streams[k].pend = r :: more → flushDue k s = true → 4 ≤ s.link.cfg.mps →
    ringRoom s (stOn s k.val) (stSize s k.val) s.link.sts[k] = true → Runs (.streamFlush k) s (fun t =>
      .memWrite (entryAddr s (0x0660 + 8 * k.val) s.link.sts[k].prod (stSize s k.val) 4) (wordBytes r.1) ∈ t.out ∧
      t.adc.streams[k].pend.length < s.adc.streams[k].pend.length)) ∧
  (flushDue k s = false → exec (.streamFlush k) s = .next s) ∧
  (s.adc.irqDue = false → exec .irqGapEnd s = .next { s with adc := { s.adc with irqGap := false } }) ∧
  (s.adc.irqDue = true → Runs .irqGapEnd s (fun t => t.adc.irqDue = false ∧
    t.adc.irqGap = decide (rfld s 0x6404 31 24 ≠ 0))))

/-- The comparators' outputs (R275, R276, R279, R280): an input that has stood at a value for FILT is judged against the
thresholds and their hysteresis, a change of level shows at once, and the end of a blanking window takes the level of
that moment where FILT is 0. Badger (R284, R285): an edge of a watched input is a fault with the side as its cause; within REC_GAP edges
are counted, and one further record tells of them; the return to inactive is seen. In which order the inputs of one DEN cycle
are named makes no difference. That FILT counts from a window's end is the model's reading (notes/assumptions/96.md). -/
def Obligations.ComparatorsFollow : Prop :=
  (∀ (k : Fin 64) (r : Fin 48) (i : Fin 16) (code : BitVec 16) (mv : Nat) (lv : CompLevel) (s : State),
  (wmRuns k s = true → lv = wmJudge s k code →
    (s.cmp.wms[k].owner = .host ∨ s.cmp.wms[k].owner = .free →
      (wmBlanked k s = false → Runs (.wmEdge k code) s (fun t =>
        t.cmp.wms[k].below = lv.below ∧ t.cmp.wms[k].above = lv.above)) ∧
      (windowStands s.cmp.wms[k].blanked (reg s (wmReg k 8)) = true → rfld s (wmReg k 0) 23 16 = 0 →
        Runs (.blankWindowEnd (.wm k) code) s (fun t =>
          t.cmp.wms[k].blanked = false ∧ t.cmp.wms[k].below = lv.below ∧ t.cmp.wms[k].above = lv.above))) ∧
    (rfld s (wmReg k 0) 23 16 ≠ 0 → exec (.blankWindowEnd (.wm k) code) s = .next
      (modWm k (fun x => { x with blanked := false }) s)) ∧
    (∀ x, s.cmp.wms[k].owner = .rail r → wmBlanked k s = false → s.rails[r] = some x → s.pwr.burrowing = false →
      (lv.above = true → railRuns x = true ∨ x.state = .stopping → isPresent s (48 + r.val) 2 = false →
        Runs (.wmEdge k code) s (fun t => Latched t (48 + r.val) 2)) ∧
      (lv.above = false → lv.below = true → x.state = .on → x.members.any (fun n => s.lanes[n].slewHeld) = false →
        isPresent s (48 + r.val) 1 = false → Runs (.wmEdge k code) s (fun t => Latched t (48 + r.val) 1)))) ∧
  (fcRuns i s = true → 8 ≤ i.val → lv = fcJudge s i mv →
    (fcBlanked i s = false → Runs (.fcEdge i mv) s (fun t => t.cmp.fcs[i].below = lv.below ∧
      t.cmp.fcs[i].above = lv.above ∧ t.cmp.fcs[i].active = fcActiveAt (fcMode s i) lv)) ∧
    (lv = fcJudge s i code.toNat → windowStands s.cmp.fcs[i].blanked (reg s (0x7688 + i.val * 0x10)) = true →
      rfld s (0x7680 + i.val * 0x10) 15 8 = 0 → Runs (.blankWindowEnd (.fc i) code) s (fun t =>
      t.cmp.fcs[i].blanked = false ∧ t.cmp.fcs[i].active = fcActiveAt (fcMode s i) lv)))) ∧
  (∀ (i j : Fin 8) (mv mw : Nat) (lv : CompLevel) (raw rax : Time) (s : State),
  (i ≠ j → exec (.tamper [{ input := j, mv := mw, raw := rax }, { input := i, mv := mv, raw := raw }]) s =
    exec (.tamper [{ input := i, mv := mv, raw := raw }, { input := j, mv := mw, raw := rax }]) s) ∧
  (s.pwr.burrowing = false → fcRuns (tmpIndex i) s = true → fcBlanked (tmpIndex i) s = false →
  lv = fcJudge s (tmpIndex i) mv →
    (rbit s 0x7780 i.val = true → s.cmp.fcs[tmpIndex i].active = false →
      fcActiveAt (fcMode s (tmpIndex i)) lv = true → s.jnl.scanned = true → s.cmp.tampers[i].gap = false →
        Runs (.tamper [{ input := i, mv := mv, raw := raw }]) s (fun t => Latched t (178 + i.val) (sideOf s (tmpIndex i) lv)) ∧
        Runs (.fcEdge (tmpIndex i) mv) s (fun t => Latched t (178 + i.val) (sideOf s (tmpIndex i) lv))) ∧
    (s.cmp.tampers[i].gap = true → Runs (.recGapEnd i) s (fun t => t.cmp.tampers[i].count = 0 ∧
      (t.cmp.tampers[i].gap = true ↔ s.cmp.tampers[i].count ≠ 0))) ∧
    (s.cmp.fcs[tmpIndex i].active = true → fcActiveAt (fcMode s (tmpIndex i)) lv = false →
      Runs (.tamperClear i mv) s (fun t => t.cmp.fcs[tmpIndex i].active = false))))

/-! ### Temperature, calibration and the two-wire ports (spec/16 to spec/18) -/

/-- The thermal manager (R287 to R295): THERMAL_SET, a sample's readings, the dwell of a rule, the die limit and its end. A
TX reading, as its front end's trims give it (R296, notes/assumptions/95.md), is the thermistor equation's temperature, to
either neighbour (notes/assumptions/18.md). -/
def Obligations.TemperatureIsWatched : Prop := ∀ (a : Word) (it : Item) (r : Fin 32) (j : Fin 8) (d : Fin 24)
    (trip : Option (Fin 24)) (x : Rule) (v hottest : Int) (die : Vector Int 24) (tx : Vector Nat 8) (s u : State),
  (Works 0x50 a it s u → hSlot it.handle = r.val → u.thm.rules[r] = some x →
    (∀ e, bit (opv it 4) 0 = false → ruleFault u (ruleOf (fun w => opv it w)) = some e →
      Finishes (.thermalSet a) s it e.1 e.2 0 u) ∧
    (bit (opv it 4) 0 = true ∨ ruleFault u (ruleOf (fun w => opv it w)) = none → exec (.thermalSet a) s = .next
      (complete a .done 0 (BitVec.ofNat 64 (ruleSet it x).state.code)
        (ruleEffects u (ruleTakes r (ruleSet it x) (commitStart it u)))))) ∧
  (s.den.up = true → exec (.thermalSample die tx) s = .next (sampleRules (sampleSensors die tx s)) ∧
    (∀ i : Fin 32, i.val = d.val → (sampleSensors die tx s).thm.sensors[i].raw = die[d] ∧
      (sampleSensors die tx s).thm.sensors[i].failed = false) ∧
    (∀ i : Fin 32, i.val = 24 + j.val → (sampleSensors die tx s).thm.sensors[i].failed = pinFails (txSeen s tx[j]) ∧
      (pinFails (txSeen s tx[j]) = false → ∀ w mk, w = reg s (0x7820 + 4 * j.val) →
        thermistorMk (fld w 15 0) (fld w 31 16) (txSeen s tx[j]) = some mk → ∃ e : Int, (e = 0 ∨ e = 1) ∧
          (sampleSensors die tx s).thm.sensors[i].raw = (mk - 273150) / 100 + e))) ∧
  (ruleEn x = true → x.state ≠ .active → ruleMet x v = true →
    (ruleDwell x ≤ x.dwell + 1 → (ruleStep x v).state = .active) ∧
    (x.dwell + 1 < ruleDwell x → (ruleStep x v).state = .pending ∧ (ruleStep x v).dwell = x.dwell + 1)) ∧
  (s.den.up = true → s.pwr.burrowing = false → hot s = false → dieTrips s trip die = true →
    Runs (.dieShutdown trip die) s (fun t =>
      t.thm.shutdown = true ∧ t.thm.cooling = true ∧ t.thm.tripped = trip ∧ t.thm.rules = s.thm.rules)) ∧
  (hot s = true → s.pwr.burrowing = false → hottest < 1250 → Runs (.dieCooled hottest) s (fun t =>
    t.thm.shutdown = false ∧ t.thm.cooling = false ∧ ∀ g, g < 8 → isPresent t (156 + g) 4 = false))

/-- Calibration (R300 to R308): CAL_RUN with its operands, the words that one command brings it, its end and its failures;
CAL_SNAPSHOT gives the image; CAL_RESTORE takes one that passes every check. How a word is determined from its readings is the
model's in part (notes/assumptions/95.md). -/
def Obligations.CalibrationItemsAnswer : Prop := ∀ (a : Word) (c1 c2 : Nat) (words : List CalWord) (all : List Word)
    (it : Item) (s u : State),
  (∀ j, s.cal.run = some j → j.item = a → exec (.calRun a c1 c2 words) s = .next
    (calGoes (itemAt s a (fun i => bit (opv i 5) 0)) words s)) ∧
  (Works 0x5A a it s u → s.cal.run = none → ∀ first last ref mv, first = fld (opv it 4) 8 0 → last = fld (opv it 4) 24 16 →
    ref = bit (opv it 5) 0 → mv = fld (opv it 6) 12 0 →
    (169 < last ∨ last < first → Finishes (.calRun a c1 c2 words) s it .refusedFormat 7 0 u) ∧
    (last ≤ 169 → first ≤ last → ref = true → mv < 1000 ∨ 4096 < mv →
      Finishes (.calRun a c1 c2 words) s it .refusedLeash 0 0 u) ∧
    (last ≤ 169 → first ≤ last → ref = false ∨ (1000 ≤ mv ∧ mv ≤ 4096) →
      ∀ w, w = modCal (fun c => { c with lastRef := if ref then mv else c.lastRef }) (commitStart it u) →
      (ref = true → refMismatch mv c1 = true ∨ refShifts c1 c2 = true → u.pwr.burrowing = false →
        Runs (.calRun a c1 c2 words) s (fun t => Latched t 177 2 ∧
          t = calFails a (if refMismatch mv c1 then 0x11 else 0x12) w)) ∧
      (ref = false ∨ (refMismatch mv c1 = false ∧ refShifts c1 c2 = false) →
        ∀ v, v = words.foldl (fun t c => calOne ref c t) (setRun ⟨a, calOrder first last, 0, 0, c1, false⟩ w) →
        ∀ j, v.cal.run = some j →
          (j.noisy = false → j.todo ≠ [] → exec (.calRun a c1 c2 words) s = .next (calRelease v)) ∧
          (j.noisy = false → j.todo = [] → ∀ x, x = modCal (fun c => { c with run := none }) v →
            ∀ res : DWord, res = BitVec.ofNat 64 (j.determined + 65536 * j.skipped) →
              Finishes (.calRun a c1 c2 words) s it .done (if 0 < j.skipped then 0x10 else 0) res
                (event 0x0D02 0 0 0 res (calRelease (clampedEnds (if 0 < j.determined then setTrimmed x else x))))) ∧
          (j.noisy = true → u.pwr.burrowing = false → Runs (.calRun a c1 c2 words) s (fun t => Latched t 177 2))))) ∧
  (Works 0x58 a it s u →
    (calBuffer it = true → Finishes (.calSnapshot a) s it .refusedFormat 0x10 0 u) ∧
    (calBuffer it = false → u.cal.trimmed = false → bit (opv it 7) 0 = false →
      Finishes (.calSnapshot a) s it .refusedState 0x10 0 u) ∧
    (calBuffer it = false → u.cal.trimmed = true ∨ bit (opv it 7) 0 = true → dmaOk u = true →
      ∀ img, img = withCrc (calImage (keepEmber u)) →
        Finishes (.calSnapshot a) s it .done 0 ((img.getD 7 0).setWidth 64) (setCalCrc (img.getD 7 0)
          (memWords (addrOf (opv it 4) (opv it 5)) img (commitStart it (keepEmber u)))))) ∧
  (Works 0x59 a it s u → calBuffer it = false → dmaOk u = true → ∀ ws w, ws = all.take 520 →
    w = memRead (addrOf (opv it 4) (opv it 5)) 2080 u →
    (ws.getD 0 0 ≠ 0x4E434131 ∨ ws.getD 1 0 ≠ 1 →
      Finishes (.calRestore a (.data all)) s it .refusedFormat 0x11 0 w) ∧
    (ws.getD 0 0 = 0x4E434131 → ws.getD 1 0 = 1 →
      (ws.length ≠ 520 ∨ ws.getD 7 0 ≠ crc32 (ws.set 7 0) →
        Finishes (.calRestore a (.data all)) s it .refusedFormat 0x12 0 w) ∧
      (ws.length = 520 → ws.getD 7 0 = crc32 (ws.set 7 0) →
        (dword (ws.getD 2 0) (ws.getD 3 0) ≠ serialNumber →
          Finishes (.calRestore a (.data all)) s it .refusedState 0x12 0 w) ∧
        (dword (ws.getD 2 0) (ws.getD 3 0) = serialNumber → Runs (.calRestore a (.data all)) s (fun t =>
          t.cal.trimmed = true ∧ t.cal.fromImage = true ∧ isPresent t 177 1 = false ∧
          Answered it .done 0 ((ws.getD 7 0).setWidth 64) t)))))

/-- TWB_XFER and TWB_CENSUS (R313 to R315, R323), and the choice of the next operation of an idle port on a free bus (R312,
R313). How an attempt ends (R310, R314 to R319): DONE with what was read, a retry, or a failure whose verdict says whether
the device may have taken anything. -/
def Obligations.TwoWireTransfersRun : Prop :=
  (∀ (a : Word) (data : List Word) (answers : List ProbeAnswer) (p : Fin 4) (b : BusSight) (low : Bool)
    (it : Item) (s w u : State),
  (s.den.up = true → underWay s.twb.ports[p] = false → w = portSees p b low s →
    (w.twb.ports[p].bus ≠ .free ∨ (w.twb.ports[p].again = false ∧ mayRun w p = false) →
      exec (.twbOperationStart p b low) s = .next w) ∧
    (w.twb.ports[p].bus = .free → w.twb.ports[p].again = true → w.twb.ports[p].needRecovery = false →
      w.twb.ports[p].item = some a → findItem w a = some it → Runs (.twbOperationStart p b low) s (fun t =>
        t.twb.ports[p].attempts = w.twb.ports[p].attempts + 1 ∧ t.twb.ports[p].again = false)) ∧
    (w.twb.ports[p].again = false → mayRun w p = true →
      (nextOp w p = .recover → Runs (.twbOperationStart p b low) s (fun t => t.twb.ports[p].op = .recover)) ∧
      (nextOp w p = .sweep → Runs (.twbOperationStart p b low) s (fun t => t.twb.ports[p].op = .sweep)) ∧
      (nextOp w p = .round → Runs (.twbOperationStart p b low) s (fun t =>
        t.twb.ports[p].op = .census ∧ t.twb.ports[p].item = none)) ∧
      (nextOp w p = .none → exec (.twbOperationStart p b low) s = .next w) ∧
      (nextOp w p = .item a → findItem w a = some it → Runs (.twbOperationStart p b low) s (fun t =>
        t.twb.ports[p].op = (if it.opcode = 0x38 then .xfer else .census) ∧ t.twb.ports[p].item = some a)))) ∧
  (Works 0x38 a it s u → itsTurn s a = true → p = portOf it →
    (xBad it = true → Runs (.twbXfer a (.data data)) s (Answered it .refusedFormat 7 0)) ∧
    (xBad it = false → portOff u p = true → Runs (.twbXfer a (.data data)) s (Answered it .refusedState 0x10 0)) ∧
    (xBad it = false → portOff u p = false → xBuffer it = true →
      Runs (.twbXfer a (.data data)) s (Answered it .refusedFormat 0x10 0)) ∧
    (xBad it = false → portOff u p = false → xBuffer it = false → xBuf it = false ∨ xWlen it = 0 ∨ dmaOk u = true →
      ∀ bytes, bytes = (if xBuf it then (if xWlen it = 0 then [] else bytesOf data) else bytesOf (it.ops.toList.drop 2)) →
        Runs (.twbXfer a (.data data)) s (fun t => t.twb.ports[p].op = .xfer ∧ t.twb.ports[p].item = some a ∧
          t.twb.ports[p].attempts = 1 ∧ t.twb.ports[p].wdata = bytes.take (xWlen it) ∧
          .bus p.val (BitVec.ofNat 7 (xAddr it)) (xWrite u it (bytes.take (xWlen it))) (xRead u it) (bit (opv it 4) 22)
            ∈ t.out))) ∧
  (Works 0x39 a it s u → itsTurn s a = true → p = portOf it →
    (∀ c, s.twb.ports[p].census = some c → c.item ≠ some a) → ∀ c r, c = roundOf a it →
    r = ((probeAddrs c.first c.last).zip answers).foldl (probe p)
      (rootWake (modPort p (fun x => { x with lastSweep := false }) (commitStart it u)), c) →
    (c.last < c.first ∨ c.first < 0x08 ∨ 0x77 < c.last → Runs (.twbCensus a answers) s (Answered it .refusedFormat 7 0)) ∧
    (c.first ≤ c.last → 0x08 ≤ c.first → c.last ≤ 0x77 →
      (portOff u p = true → Runs (.twbCensus a answers) s (Answered it .refusedState 0x10 0)) ∧
      (portOff u p = false → (probeAddrs c.first c.last).length ≤ answers.length → Runs (.twbCensus a answers) s
        (Answered it .done 0 (roundResult r.2 (roundLost p r.2 r.1)))) ∧
      (portOff u p = false → answers.length < (probeAddrs c.first c.last).length → Runs (.twbCensus a answers) s (fun t =>
        t.twb.ports[p].op = .idle ∧ t.twb.ports[p].item = none ∧ t.twb.ports[p].census = some r.2)))) ∧
  (findItem s a = some it → it.opcode = 0x39 → itsTurn s a = true → p = portOf it →
    ∀ c, s.twb.ports[p].census = some c → c.item = some a → exec (.twbCensus a answers) s = .next (roundRuns p c answers s))) ∧
  (∀ (p : Fin 4) (x : Port) (a : Word) (it : Item) (read : List Byte) (n : Nat)
    (addr : Bool) (s : State),
  underWay s.twb.ports[p] = true → x = s.twb.ports[p] → x.item = some a → findItem s a = some it →
  ∀ ends : Prop, (ends ↔ (bit (opv it 4) 17 = false ∨ fld (opv it 4) 21 20 ≤ x.retries)) →
  (endFits s it (.done read) = true → blockTooLong it read = false → pecWrong s p it read = false →
    (xBuf it = false → Runs (.twbAttemptEnd p (.done read)) s (Answered it .done 0
      (BitVec.ofNat 64 (littleBytes (xTaken it read))))) ∧
    (xBuf it = true → dmaOk s = true ∨ xTaken it read = [] → Runs (.twbAttemptEnd p (.done read)) s (Answered it .done 0
      (BitVec.ofNat 64 ((xTaken it read).length + 65536 * xWrites s it)))) ∧
    (xBuf it = true → dmaOk s = false → xTaken it read ≠ [] → Runs (.twbAttemptEnd p (.done read)) s
      (Answered it .failedIndeterminate 0x10 (xFailed { x with acked := xWrites s it, addrAck := true })))) ∧
  (ends →
    (endFits s it (.done read) = true → blockTooLong it read = true → Runs (.twbAttemptEnd p (.done read)) s
      (Answered it .failedIndeterminate 0x19 (xFailed { x with acked := xWrites s it, addrAck := true }))) ∧
    (endFits s it (.done read) = true → blockTooLong it read = false → pecWrong s p it read = true →
      Runs (.twbAttemptEnd p (.done read)) s
        (Answered it .failedIndeterminate 0x16 (xFailed { x with acked := xWrites s it, addrAck := true }))) ∧
    (endFits s it (.addrNack (some n)) = true → Runs (.twbAttemptEnd p (.addrNack (some n))) s
      (Answered it .failedIndeterminate 0x12 (xFailed { x with acked := n, addrAck := true }))) ∧
    (endFits s it (.dataNack n) = true → Runs (.twbAttemptEnd p (.dataNack n)) s
      (Answered it .failedIndeterminate 0x13 (xFailed { x with acked := n, addrAck := true }))) ∧
    (rbit s (twbReg p 0) 3 = true → n ≤ xWrites s it → Runs (.twbTimeout p n true) s
      (Answered it .failedIndeterminate 0x18 (xFailed { x with acked := n, addrAck := true })))) ∧
  (¬ ends → rbit s (twbReg p 0) 3 = true → n ≤ xWrites s it → Runs (.twbTimeout p n true) s (fun t =>
    t.twb.ports[p].op = .recover ∧ t.twb.ports[p].needRecovery = true ∧ t.twb.ports[p].retries = x.retries + 1)) ∧
  (fld (opv it 4) 21 20 ≤ x.retries → Runs (.twbAttemptEnd p (.addrNack none)) s (Answered it .failed 0x12
    (xFailed { x with acked := 0, addrAck := false }))) ∧
  (x.needRecovery = false →
    (x.retries < fld (opv it 4) 21 20 → Runs (.twbAttemptEnd p (.addrNack none)) s (fun t =>
      t.twb.ports[p].retries = x.retries + 1 ∧ t.twb.ports[p].attempts = x.attempts + 1)) ∧
    (x.arbLosses < 3 → endFits s it (.arbLost n addr) = true → Runs (.twbAttemptEnd p (.arbLost n addr)) s (fun t =>
      t.twb.ports[p].arbLosses = x.arbLosses + 1 ∧ t.twb.ports[p].again = true ∧ t.twb.ports[p].bus = .busy))) ∧
  (3 ≤ x.arbLosses → endFits s it (.arbLost n addr) = true → Runs (.twbAttemptEnd p (.arbLost n addr)) s (Answered it
    (if addr = true ∨ 0 < n then .failedIndeterminate else .failed) 0x14
    (xFailed { x with acked := n, addrAck := addr }))) ∧
  (endFits s it (.arbLostCtrl n) = true → Runs (.twbAttemptEnd p (.arbLostCtrl n)) s (Answered it .failedIndeterminate 0x15
    (xFailed { x with acked := n, addrAck := true }))))

/-- Recovery, the stuck bus, alerts and the periodic census (R319 to R322, R325). That recovery of a stuck port goes on while
it is held or isolated is the model's (notes/assumptions/78.md). -/
def Obligations.TwoWirePortsRecover : Prop := ∀ (p : Fin 4) (x : Port) (a : Word) (it : Item) (sda low : Bool)
    (rounds l : List AlertRound) (answers : List ProbeAnswer) (s : State), x = s.twb.ports[p] →
  (mayRecover s p = true → s.pwr.burrowing = false →
      (isPresent s (164 + p.val) 2 = false → Runs (.twbRecovery p false sda) s (fun t => Latched t (164 + p.val) 2)) ∧
      (isPresent s (164 + p.val) 1 = false → Runs (.twbRecovery p true false) s (fun t => Latched t (164 + p.val) 1)) ∧
      Runs (.twbRecovery p true true) s (fun t => stuck t p = false ∧ t.twb.ports[p].needRecovery = false ∧
        t.twb.ports[p].bus = .free ∧ .recovery p.val ∈ t.out ∧
        isPresent t (164 + p.val) 1 = false ∧ isPresent t (164 + p.val) 2 = false)) ∧
  (stuck s p = true → x.item.or (readyOn s p) = some a → findItem s a = some it →
    (censusItem s p ≠ some a → Runs (.twbBusStuck p) s (Answered it
      (if x.addrAck = true ∨ 0 < x.acked then .failedIndeterminate else .failed) 0x17 (xFailed x))) ∧
    (censusItem s p = some a → Runs (.twbBusStuck p) s (Answered it .failed 0x17 0))) ∧
  (mayOperate s p = true → mayWatch s p = true →
    x.op = .sweep ∨ (x.op = .idle ∧ x.needRecovery = false ∧ sweepYields s p = false) → l = roundsRun (16 - x.rounds) rounds →
    Runs (.alertSweep p rounds false) s (fun t => t.twb.ports[p].op = .idle ∧ t.twb.ports[p].lastSweep = true ∧
      t.twb.ports[p].rounds = 0 ∧ t.twb.ports[p].alertLow = false ∧ isPresent t (164 + p.val) 3 = false) ∧
    (l.contains .nack = false → x.rounds + l.length < 16 → Runs (.alertSweep p rounds true) s (fun t =>
      t.twb.ports[p].op = .sweep ∧ t.twb.ports[p].rounds = x.rounds + l.length ∧ t.twb.ports[p].alertLow = true)) ∧
    (s.pwr.burrowing = false → isPresent s (164 + p.val) 3 = false → l.contains .nack = true ∨ 16 ≤ x.rounds + l.length →
      Runs (.alertSweep p rounds true) s (fun t => Latched t (164 + p.val) 3))) ∧
  (x.alertHold = true → Runs (.alertHoldEnd p low) s (fun t => t.twb.ports[p].alertHold = false ∧
    (inHush s = true → t.twb.ports[p].alertLow = x.alertLow) ∧
    (inHush s = false → t.twb.ports[p].alertLow = low ∧ (low = false → isPresent t (164 + p.val) 3 = false)))) ∧
  (roundChosen s p = true → exec (.periodicCensus p answers) s = .next (roundRuns p (periodicRound s p) answers s)) ∧
  (roundChosen s p = false → s.den.up = true → portOff s p = false → outputsReset s = false →
    s.pwr.pstate = .full ∨ s.pwr.pstate = .outage → rfld s (twbReg p 4) 15 0 ≠ 0 → x.due = none →
      Runs (.periodicCensus p answers) s (fun t => t.twb.ports[p].due = some s.jnl.head))

/-! ### The service port (spec/19) -/

/-- SERVICE_GRANT (R333): a class's grant replaces what stood; REVOKE ends it. A grant ends (R334, R40), and the
acknowledgement of a service completion is taken (R336). -/
def Obligations.ServiceGrantAnswers : Prop :=
  (∀ (a : Word) (it : Item) (s u : State), Works 0x78 a it s u →
  (fld (opv it 4) 1 0 = 3 → Finishes (.serviceGrant a) s it .refusedFormat 7 0 u) ∧
  (fld (opv it 4) 1 0 ≠ 3 → (fld (opv it 4) 1 0 ≠ 0 → 1 ≤ fld (opv it 5) 15 0 ∧ fld (opv it 5) 15 0 ≤ 28800) →
    (rbit u 0x9000 0 = false → Finishes (.serviceGrant a) s it .refusedState 0x10 0 u) ∧
    (rbit u 0x9000 0 = true → fld (opv it 4) 1 0 = 0 →
      exec (.serviceGrant a) s = .next (event 0x0F02 0 0 0 0 (complete a .done 0 0 (endGrant 2 u)))) ∧
    (rbit u 0x9000 0 = true → fld (opv it 4) 1 0 = 1 ∨ fld (opv it 4) 1 0 = 2 →
      ∀ e : Time, e = it.began + BitVec.ofNat 48 (fld (opv it 5) 15 0 * 1000000) →
        exec (.serviceGrant a) s = .next (event 0x0F02 0 0 (fld (opv it 4) 1 0) (e.setWidth 64)
          (complete a .done 0 (e.setWidth 64)
            (newGrant it (if fld (opv it 4) 1 0 = 1 then .ring else .setup) e (endGrant 4 u))))))) ∧
  (∀ (g : SvcGrant) (c : Comp) (rest : List Comp) (s : State),
  (s.usb.grant = some g → laterT g.ends (now s) = false ∨ s.usb.vbus = false → Runs .grantEnd s (fun t =>
    t.usb.grant = none ∧ t.usb.sending = [] ∧ (s.pwr.iface = .granted → t.pwr.iface = .run))) ∧
  (s.usb.sending = c :: rest → s.jnl.owed = [] → (∀ k : Fin 64, s.eng.armed[k] = none) →
    Runs .serviceCompletionAck s (fun t => t.usb.sending = rest ∧
      t.eng.comps = s.eng.comps.filter (fun x => x ≠ c))))

/-- The service port on its bus (R327): attach and detach, suspend, standard requests, and its faults (R337). The data of
standard requests that R327 does not give are those of USB 2.0 (notes/assumptions/89.md). -/
def Obligations.PortLivesOnItsBus : Prop := ∀ (mv n ep : Nat) (b : Bool) (s : State), s.den.up = true →
  (4000 < mv → Runs (.usbAttach mv) s (fun t => t.usb.vbus = true ∧ (inReset s = false → rbit s 0x9000 0 = true →
    isolated s 176 = false → isPresent s 176 1 = false → t.usb.attached = true))) ∧
  (mv ≤ 4000 → Runs (.usbDetach mv) s (fun t => t.usb.vbus = false ∧ t.usb.attached = false ∧
    (s.usb.attached = true → t.usb.configured = false ∧ t.usb.reply = none))) ∧
  (s.usb.attached = true →
    Runs (.usbStandardRequest (.setConfiguration n)) s (fun t =>
      (n ≤ 1 → t.usb.configured = decide (n = 1) ∧ t.usb.reply = none ∧ t.usb.halted = []) ∧
      (1 < n → t.usb = s.usb ∧ t.out = .usbStall :: s.out)) ∧
    Runs (.usbStandardRequest .busReset) s (fun t => t.usb.configured = false ∧ t.usb.suspended = false ∧
      t.usb.address = 0 ∧ t.usb.reply = none) ∧
    Runs (.usbStandardRequest .getDevice) s (fun t => t.out = .usbDevice 0x1A7E 0x0048 (revisionOf Config.stepping) :: s.out) ∧
    Runs (.usbStandardRequest .getConfiguration) s (fun t =>
      t.out = .usbConfig 0xFF 0x4E 0x01 0 true [(0x01, 64), (0x81, 64), (0x02, 64), (0x82, 64)] :: s.out) ∧
    Runs (.usbStandardRequest .getSerial) s (fun t =>
      t.out = .usbSerial ((List.range 16).map (fun i => serialNumber.toNat / 16 ^ (15 - i) % 16)) :: s.out) ∧
    Runs (.usbStandardRequest .getLanguages) s (fun t => ∃ lo hi, t.out = .usbData [4, 3, lo, hi] :: s.out) ∧
    (s.usb.configured = false → n ≤ 127 → Runs (.usbStandardRequest (.setAddress n)) s (fun t => t.usb.address = n)) ∧
    Runs (.usbStandardRequest .currentConfiguration) s (fun t =>
      t.out = .usbData [if s.usb.configured then 1 else 0] :: s.out) ∧
    Runs (.usbStandardRequest .deviceStatus) s (fun t => t.out = .usbData [1, 0] :: s.out) ∧
    (s.usb.configured = true → ep ∈ bulkEps →
      Runs (.usbStandardRequest (.setHalt ep)) s (fun t => ep ∈ t.usb.halted) ∧
      Runs (.usbStandardRequest (.clearHalt ep)) s (fun t => ep ∉ t.usb.halted) ∧
      Runs (.usbStandardRequest (.endpointStatus ep)) s (fun t =>
        t.out = .usbData [if s.usb.halted.contains ep then 1 else 0, 0] :: s.out)) ∧
    (s.usb.configured = true →
      Runs (.usbStandardRequest .interfaceStatus) s (fun t => t.out = .usbData [0, 0] :: s.out) ∧
      Runs (.usbStandardRequest .getInterface) s (fun t => t.out = .usbData [0] :: s.out) ∧
      Runs (.usbStandardRequest (.setInterface 0)) s (fun t => t.usb.halted = [])) ∧
    Runs (.usbStandardRequest .other) s (fun t => t.usb = s.usb ∧ t.out = .usbStall :: s.out) ∧
    Runs (.usbSuspend b) s (fun t => t.usb.suspended = b ∧ (b = true → t.clk.src ≠ .sof)) ∧
    (1000 < mv → s.pwr.burrowing = false → Runs (.usbFlood mv) s (fun t => Latched t 176 2 ∧ t.usb.attached = false))) ∧
  (5500 < mv → s.usb.vbus = true → isPresent s 176 1 = false → s.pwr.burrowing = false → Runs (.usbVbusOv mv) s (fun t =>
    Latched t 176 1 ∧ t.usb.attached = false))

/-- INFO, CAL_READ, an unlisted CMD and the reading of a reply (R329 to R331); and a descriptor on the service ring of a RING
grant, which the port checks and queues for the banks (R335, R336). -/
def Obligations.PortAnswersAndTakesDescriptors : Prop := ∀ (seq : BitVec 16) (cmd : Byte) (addr : Word) (d : Descriptor)
    (g : SvcGrant) (s : State), portWorks s = true →
  (s.usb.halted.contains 0x01 = false → s.usb.reply = none →
    Runs (.info seq addr) s (fun t => t.usb.reply = some (replyWords 1 0 seq addr (infoWords s) s)) ∧
    Runs (.calRead seq addr) s (fun t => t.usb.reply = some (replyWords 5 0 seq addr (withCrc (calImage s)) s)) ∧
    Runs (.badCmd seq cmd addr) s (fun t => t.usb.reply = some (replyWords cmd.toNat 1 seq addr [] s))) ∧
  (s.usb.halted.contains 0x81 = false → Runs .usbReplyRead s (fun t => t.usb.reply = none)) ∧
  (s.usb.halted.contains 0x02 = false → s.usb.grant = some g → g.cls = .ring → dead s = false → serviceOpen s < 8 →
    journalAllows s = true → Runs (.serviceDescriptor d) s (fun t => t.usb.ringPos = s.usb.ringPos + 1 ∧
      t.jnl.queue = s.jnl.queue ++ [if fld d[0] 31 16 ≠ s.usb.ringPos.toNat % 65536 then .door (descItem s 16 d) .refusedFormat 1 0
       else doorJob s d (descItem s 16 d) (serviceListed g.opmask d)]))

/-- REG_READ, REG_WRITE and JNL_READ (R329 to R332): each has the reply of its CMD, with the STATUS that it has earned where
it has earned one alone; where it has earned two, which of them shows is open (notes/assumptions/40.md). A write takes effect
in a SETUP grant, and for the boot image's registers in a repair. -/
def Obligations.PortReadsAndWrites : Prop := ∀ (seq : BitVec 16) (addr count arg : Word)
    (payload : List Word) (s : State), portTakes s = true →
  ∀ ws, ws = wordsAt addr payload →
  (1 ≤ count.toNat → count.toNat ≤ 256 → addr.toNat % 4 = 0 → addr.toNat + 4 * count.toNat ≤ 0x9800 →
    (∀ r, r = readRun arg count.toNat addr.toNat ([], s) → Runs (.regRead seq addr count arg) s (fun t =>
      t.usb.reply = some (replyWords 2 0 seq addr r.1 r.2))) ∧
    (payload.length = count.toNat → portMayWrite s = false →
      (ws.any (fun e => portLocked e.1) = false → Runs (.regWrite seq addr count payload) s (fun t =>
        t.usb.reply = some (replyWords 3 4 seq addr [] s))) ∧
      (ws.any (fun e => portLocked e.1) = true → Runs (.regWrite seq addr count payload) s (fun t =>
        t.usb.reply = some (replyWords 3 4 seq addr [] s) ∨ t.usb.reply = some (replyWords 3 5 seq addr [] s)))) ∧
    (payload.length = count.toNat → setupGrant s = true →
      Runs (.regWrite seq addr count payload) s (fun t =>
        t = reply 3 (if ws.any (fun e => portLocked e.1) then 5 else 0) seq addr []
          (ws.foldl (fun t e => portWord e.1 e.2 t) s))) ∧
    (payload.length = count.toNat → setupGrant s = false → inRepair s = true → ws.all (fun e => repairReg e.1) = true →
      Runs (.regWrite seq addr count payload) s (fun t =>
        t = reply 3 0 seq addr [] (ws.foldl (fun t e => portWord e.1 e.2 t) s))) ∧
    (payload.length ≠ count.toNat → Runs (.regWrite seq addr count payload) s (fun t =>
      t.usb.reply = some (replyWords 3 2 seq addr [] s)))) ∧
  (addr.toNat % 4 ≠ 0 → 1 ≤ count.toNat → count.toNat ≤ 256 → Runs (.regRead seq addr count arg) s (fun t =>
    t.usb.reply = some (replyWords 2 3 seq addr [] s))) ∧
  (addr.toNat % 4 = 0 → addr.toNat ≤ 0x97FC → count.toNat = 0 ∨ 256 < count.toNat →
    Runs (.regRead seq addr count arg) s (fun t =>
      t.usb.reply = some (replyWords 2 2 seq addr [] s) ∨ t.usb.reply = some (replyWords 2 3 seq addr [] s))) ∧
  (∀ b : Fin 2, b = (if bit arg 8 then 1 else 0) →
    (fld arg 1 0 = 0 → 1 ≤ count.toNat → count.toNat ≤ 64 → bankIn s b = true →
      Runs (.jnlRead seq addr count arg) s (fun t =>
        t.usb.reply = some (replyWords 4 0 seq addr (recordsFrom s b addr count.toNat).flatten s))) ∧
    (fld arg 1 0 = 0 → 1 ≤ count.toNat → count.toNat ≤ 64 → bankIn s b = false →
      Runs (.jnlRead seq addr count arg) s (fun t => t.usb.reply = some (replyWords 4 6 seq addr [] s))) ∧
    (fld arg 1 0 = 0 → count.toNat = 0 ∨ 64 < count.toNat → bankIn s b = true →
      Runs (.jnlRead seq addr count arg) s (fun t =>
        t.usb.reply = some (replyWords 4 2 seq addr [] s) ∨ t.usb.reply = some (replyWords 4 3 seq addr [] s))) ∧
    (fld arg 1 0 = 1 ∨ fld arg 1 0 = 2 → Runs (.jnlRead seq addr count arg) s (fun t =>
      t.usb.reply = some (replyWords 4 0 seq addr (imgWords s (fld arg 1 0 - 1)) s))) ∧
    (fld arg 1 0 = 3 → Runs (.jnlRead seq addr count arg) s (fun t =>
      t.usb.reply = some (replyWords 4 3 seq addr [] s))))

/-! ### Faults (spec/21) -/

/-- FAULT_CLEAR (R359, R360): a FAULTED source none of whose causes is present becomes CLEAR; one that is CLEAR already
answers DONE 0x11; one with a cause present is refused. Reaction masks (R361): FAULT_REACTION_SET over a range of sources,
and the same by a write of FLT_REACT where SETUP allows it; in RUN the write changes nothing and counts (R39). The
collectors' W1C bits (R358), and a cause that ends with its outside condition (R349). -/
def Obligations.FaultItemsAnswer : Prop :=
  (∀ (a : Word) (vm : Nat) (it : Item) (s u : State) (n : Fin 192),
  Works 0x68 a it s u → fld (opv it 4) 7 0 = n.val →
    (n.val ≤ 185 → faulted u n.val = true → anyPresent (clearEnds n.val u) n.val = false →
      exec (.faultClear a vm) s = .next
        (complete a .done 0 (causesResult u n.val) (clearSource n vm (clearEnds n.val (commitStart it u))))) ∧
    (n.val ≤ 185 → faulted u n.val = false → exec (.faultClear a vm) s = .next
      (complete a .done 0x11 (causesResult u n.val) (clearSource n vm (commitStart it u)))) ∧
    (n.val ≤ 185 → faulted u n.val = true → anyPresent (clearEnds n.val u) n.val = true →
      Finishes (.faultClear a vm) s it .refusedState 0x10 (causesResult u n.val) u) ∧
    (185 < n.val → Finishes (.faultClear a vm) s it .refusedFormat 7 0 u)) ∧
  (∀ (a : Word) (it : Item) (s u : State) (n : Fin 192) (v : Word),
  (Works 0x69 a it s u → fld (opv it 4) 7 0 ≤ fld (opv it 4) 15 8 → fld (opv it 4) 15 8 ≤ 185 →
    (bit (opv it 5) 1 = true → ∀ m ∈ sourcesFrom (fld (opv it 4) 7 0) (fld (opv it 4) 15 8), offersIsolate m.val = true) →
    (bit (opv it 5) 4 = true → ∀ m ∈ sourcesFrom (fld (opv it 4) 7 0) (fld (opv it 4) 15 8), offersHold m.val = true) →
    (bit (opv it 5) 2 = true → fld (opv it 5) 6 5 ≠ 0) →
    exec (.faultReactionSet a) s = .next (complete a .done 0
      (BitVec.ofNat 64 ((sourcesFrom (fld (opv it 4) 7 0) (fld (opv it 4) 15 8)).filter
        (fun m => (reactOf u m.val &&& 0x7F) ≠ opv it 5 &&& 0x7F)).length)
      ((sourcesFrom (fld (opv it 4) 7 0) (fld (opv it 4) 15 8)).foldl (fun x m => setReact m (opv it 5 &&& 0x7F) x)
        (commitStart it u)))) ∧
  (s.Good → setupWrites s = true → faulted s n.val = false → Runs (.fltReactWrite n v) s (fun t =>
    reactOf t n.val = v &&& 0x7F)) ∧
  (setupWrites s = false → countsLocked s (0x0C00 + 4 * n.val) { accRO with rws := 0x7F } v = true →
    exec (.fltReactWrite n v) s = .next (lockCount (0x0C00 + 4 * n.val) s))) ∧
  (∀ (c : Fin 2) (n : Fin 192) (i : Fin 16) (s : State),
  Runs (.headValidClear c) s (fun t => t.flt.coll[c].entries = s.flt.coll[c].entries.drop 1) ∧
  Runs (.overflowClear c) s (fun t => t.flt.coll[c].overflow = false ∧ t.flt.coll[c].entries = s.flt.coll[c].entries) ∧
  (outsideCause n.val (i.val + 1) = true → isPresent s n.val (i.val + 1) = true →
    n.val ≠ 171 ∨ (s.clk.xPresent = true ∧ s.pwr.burrowing = false) → alertUnseen s n.val = false → stillChatters s n.val = false →
    Runs (.faultCauseEnd n i) s (fun t => isPresent t n.val (i.val + 1) = false ∧
      ∀ e, (causesOf s n.val).latched.getLsbD e = true → (causesOf t n.val).latched.getLsbD e = true)))
end

