-- ==== Sys2Proof/Laws/State.lean ====
section
/-! SUPPORT. What each plain updater does to each field of the state: one lemma for each pair, true by rfl. -/

namespace Sys2Proof.Machine

variable (s : State)

/-! ### setReg -/

@[simp] theorem setReg_pending (o : Nat) (w : Word) : (setReg o w s).pending = s.pending := rfl
@[simp] theorem setReg_out (o : Nat) (w : Word) : (setReg o w s).out = s.out := rfl
@[simp] theorem setReg_freeIx (o : Nat) (w : Word) : (setReg o w s).freeIx = s.freeIx := rfl
@[simp] theorem setReg_regs (o : Nat) (w : Word) : (setReg o w s).regs = spSet regReset s.regs o w := rfl
@[simp] theorem setReg_pwr (o : Nat) (w : Word) : (setReg o w s).pwr = s.pwr := rfl
@[simp] theorem setReg_den (o : Nat) (w : Word) : (setReg o w s).den = s.den := rfl
@[simp] theorem setReg_clk (o : Nat) (w : Word) : (setReg o w s).clk = s.clk := rfl
@[simp] theorem setReg_link (o : Nat) (w : Word) : (setReg o w s).link = s.link := rfl
@[simp] theorem setReg_eng (o : Nat) (w : Word) : (setReg o w s).eng = s.eng := rfl
@[simp] theorem setReg_jnl (o : Nat) (w : Word) : (setReg o w s).jnl = s.jnl := rfl
@[simp] theorem setReg_flt (o : Nat) (w : Word) : (setReg o w s).flt = s.flt := rfl
@[simp] theorem setReg_lanes (o : Nat) (w : Word) : (setReg o w s).lanes = s.lanes := rfl
@[simp] theorem setReg_rails (o : Nat) (w : Word) : (setReg o w s).rails = s.rails := rfl
@[simp] theorem setReg_graphs (o : Nat) (w : Word) : (setReg o w s).graphs = s.graphs := rfl
@[simp] theorem setReg_bud (o : Nat) (w : Word) : (setReg o w s).bud = s.bud := rfl
@[simp] theorem setReg_chg (o : Nat) (w : Word) : (setReg o w s).chg = s.chg := rfl
@[simp] theorem setReg_relays (o : Nat) (w : Word) : (setReg o w s).relays = s.relays := rfl
@[simp] theorem setReg_motors (o : Nat) (w : Word) : (setReg o w s).motors = s.motors := rfl
@[simp] theorem setReg_fans (o : Nat) (w : Word) : (setReg o w s).fans = s.fans := rfl
@[simp] theorem setReg_adc (o : Nat) (w : Word) : (setReg o w s).adc = s.adc := rfl
@[simp] theorem setReg_cmp (o : Nat) (w : Word) : (setReg o w s).cmp = s.cmp := rfl
@[simp] theorem setReg_thm (o : Nat) (w : Word) : (setReg o w s).thm = s.thm := rfl
@[simp] theorem setReg_cal (o : Nat) (w : Word) : (setReg o w s).cal = s.cal := rfl
@[simp] theorem setReg_twb (o : Nat) (w : Word) : (setReg o w s).twb = s.twb := rfl
@[simp] theorem setReg_usb (o : Nat) (w : Word) : (setReg o w s).usb = s.usb := rfl
@[simp] theorem setReg_owl (o : Nat) (w : Word) : (setReg o w s).owl = s.owl := rfl

/-! ### emit -/

@[simp] theorem emit_pending (o : Output) : (emit o s).pending = s.pending := rfl
@[simp] theorem emit_out (o : Output) : (emit o s).out = o :: s.out := rfl
@[simp] theorem emit_freeIx (o : Output) : (emit o s).freeIx = s.freeIx := rfl
@[simp] theorem emit_regs (o : Output) : (emit o s).regs = s.regs := rfl
@[simp] theorem emit_pwr (o : Output) : (emit o s).pwr = s.pwr := rfl
@[simp] theorem emit_den (o : Output) : (emit o s).den = s.den := rfl
@[simp] theorem emit_clk (o : Output) : (emit o s).clk = s.clk := rfl
@[simp] theorem emit_link (o : Output) : (emit o s).link = s.link := rfl
@[simp] theorem emit_eng (o : Output) : (emit o s).eng = s.eng := rfl
@[simp] theorem emit_jnl (o : Output) : (emit o s).jnl = s.jnl := rfl
@[simp] theorem emit_flt (o : Output) : (emit o s).flt = s.flt := rfl
@[simp] theorem emit_lanes (o : Output) : (emit o s).lanes = s.lanes := rfl
@[simp] theorem emit_rails (o : Output) : (emit o s).rails = s.rails := rfl
@[simp] theorem emit_graphs (o : Output) : (emit o s).graphs = s.graphs := rfl
@[simp] theorem emit_bud (o : Output) : (emit o s).bud = s.bud := rfl
@[simp] theorem emit_chg (o : Output) : (emit o s).chg = s.chg := rfl
@[simp] theorem emit_relays (o : Output) : (emit o s).relays = s.relays := rfl
@[simp] theorem emit_motors (o : Output) : (emit o s).motors = s.motors := rfl
@[simp] theorem emit_fans (o : Output) : (emit o s).fans = s.fans := rfl
@[simp] theorem emit_adc (o : Output) : (emit o s).adc = s.adc := rfl
@[simp] theorem emit_cmp (o : Output) : (emit o s).cmp = s.cmp := rfl
@[simp] theorem emit_thm (o : Output) : (emit o s).thm = s.thm := rfl
@[simp] theorem emit_cal (o : Output) : (emit o s).cal = s.cal := rfl
@[simp] theorem emit_twb (o : Output) : (emit o s).twb = s.twb := rfl
@[simp] theorem emit_usb (o : Output) : (emit o s).usb = s.usb := rfl
@[simp] theorem emit_owl (o : Output) : (emit o s).owl = s.owl := rfl

/-! ### drawWord -/

@[simp] theorem drawWord_pending : (drawWord s).2.pending = s.pending := rfl
@[simp] theorem drawWord_out : (drawWord s).2.out = s.out := rfl
@[simp] theorem drawWord_freeIx : (drawWord s).2.freeIx = s.freeIx + 1 := rfl
@[simp] theorem drawWord_regs : (drawWord s).2.regs = s.regs := rfl
@[simp] theorem drawWord_pwr : (drawWord s).2.pwr = s.pwr := rfl
@[simp] theorem drawWord_den : (drawWord s).2.den = s.den := rfl
@[simp] theorem drawWord_clk : (drawWord s).2.clk = s.clk := rfl
@[simp] theorem drawWord_link : (drawWord s).2.link = s.link := rfl
@[simp] theorem drawWord_eng : (drawWord s).2.eng = s.eng := rfl
@[simp] theorem drawWord_jnl : (drawWord s).2.jnl = s.jnl := rfl
@[simp] theorem drawWord_flt : (drawWord s).2.flt = s.flt := rfl
@[simp] theorem drawWord_lanes : (drawWord s).2.lanes = s.lanes := rfl
@[simp] theorem drawWord_rails : (drawWord s).2.rails = s.rails := rfl
@[simp] theorem drawWord_graphs : (drawWord s).2.graphs = s.graphs := rfl
@[simp] theorem drawWord_bud : (drawWord s).2.bud = s.bud := rfl
@[simp] theorem drawWord_chg : (drawWord s).2.chg = s.chg := rfl
@[simp] theorem drawWord_relays : (drawWord s).2.relays = s.relays := rfl
@[simp] theorem drawWord_motors : (drawWord s).2.motors = s.motors := rfl
@[simp] theorem drawWord_fans : (drawWord s).2.fans = s.fans := rfl
@[simp] theorem drawWord_adc : (drawWord s).2.adc = s.adc := rfl
@[simp] theorem drawWord_cmp : (drawWord s).2.cmp = s.cmp := rfl
@[simp] theorem drawWord_thm : (drawWord s).2.thm = s.thm := rfl
@[simp] theorem drawWord_cal : (drawWord s).2.cal = s.cal := rfl
@[simp] theorem drawWord_twb : (drawWord s).2.twb = s.twb := rfl
@[simp] theorem drawWord_usb : (drawWord s).2.usb = s.usb := rfl
@[simp] theorem drawWord_owl : (drawWord s).2.owl = s.owl := rfl

/-! ### drawNat -/

@[simp] theorem drawNat_pending : (drawNat s).2.pending = s.pending := rfl
@[simp] theorem drawNat_out : (drawNat s).2.out = s.out := rfl
@[simp] theorem drawNat_freeIx : (drawNat s).2.freeIx = s.freeIx + 1 := rfl
@[simp] theorem drawNat_regs : (drawNat s).2.regs = s.regs := rfl
@[simp] theorem drawNat_pwr : (drawNat s).2.pwr = s.pwr := rfl
@[simp] theorem drawNat_den : (drawNat s).2.den = s.den := rfl
@[simp] theorem drawNat_clk : (drawNat s).2.clk = s.clk := rfl
@[simp] theorem drawNat_link : (drawNat s).2.link = s.link := rfl
@[simp] theorem drawNat_eng : (drawNat s).2.eng = s.eng := rfl
@[simp] theorem drawNat_jnl : (drawNat s).2.jnl = s.jnl := rfl
@[simp] theorem drawNat_flt : (drawNat s).2.flt = s.flt := rfl
@[simp] theorem drawNat_lanes : (drawNat s).2.lanes = s.lanes := rfl
@[simp] theorem drawNat_rails : (drawNat s).2.rails = s.rails := rfl
@[simp] theorem drawNat_graphs : (drawNat s).2.graphs = s.graphs := rfl
@[simp] theorem drawNat_bud : (drawNat s).2.bud = s.bud := rfl
@[simp] theorem drawNat_chg : (drawNat s).2.chg = s.chg := rfl
@[simp] theorem drawNat_relays : (drawNat s).2.relays = s.relays := rfl
@[simp] theorem drawNat_motors : (drawNat s).2.motors = s.motors := rfl
@[simp] theorem drawNat_fans : (drawNat s).2.fans = s.fans := rfl
@[simp] theorem drawNat_adc : (drawNat s).2.adc = s.adc := rfl
@[simp] theorem drawNat_cmp : (drawNat s).2.cmp = s.cmp := rfl
@[simp] theorem drawNat_thm : (drawNat s).2.thm = s.thm := rfl
@[simp] theorem drawNat_cal : (drawNat s).2.cal = s.cal := rfl
@[simp] theorem drawNat_twb : (drawNat s).2.twb = s.twb := rfl
@[simp] theorem drawNat_usb : (drawNat s).2.usb = s.usb := rfl
@[simp] theorem drawNat_owl : (drawNat s).2.owl = s.owl := rfl

/-! ### modLink -/

@[simp] theorem modLink_pending (f : Link → Link) : (modLink f s).pending = s.pending := rfl
@[simp] theorem modLink_out (f : Link → Link) : (modLink f s).out = s.out := rfl
@[simp] theorem modLink_freeIx (f : Link → Link) : (modLink f s).freeIx = s.freeIx := rfl
@[simp] theorem modLink_regs (f : Link → Link) : (modLink f s).regs = s.regs := rfl
@[simp] theorem modLink_pwr (f : Link → Link) : (modLink f s).pwr = s.pwr := rfl
@[simp] theorem modLink_den (f : Link → Link) : (modLink f s).den = s.den := rfl
@[simp] theorem modLink_clk (f : Link → Link) : (modLink f s).clk = s.clk := rfl
@[simp] theorem modLink_link (f : Link → Link) : (modLink f s).link = f s.link := rfl
@[simp] theorem modLink_eng (f : Link → Link) : (modLink f s).eng = s.eng := rfl
@[simp] theorem modLink_jnl (f : Link → Link) : (modLink f s).jnl = s.jnl := rfl
@[simp] theorem modLink_flt (f : Link → Link) : (modLink f s).flt = s.flt := rfl
@[simp] theorem modLink_lanes (f : Link → Link) : (modLink f s).lanes = s.lanes := rfl
@[simp] theorem modLink_rails (f : Link → Link) : (modLink f s).rails = s.rails := rfl
@[simp] theorem modLink_graphs (f : Link → Link) : (modLink f s).graphs = s.graphs := rfl
@[simp] theorem modLink_bud (f : Link → Link) : (modLink f s).bud = s.bud := rfl
@[simp] theorem modLink_chg (f : Link → Link) : (modLink f s).chg = s.chg := rfl
@[simp] theorem modLink_relays (f : Link → Link) : (modLink f s).relays = s.relays := rfl
@[simp] theorem modLink_motors (f : Link → Link) : (modLink f s).motors = s.motors := rfl
@[simp] theorem modLink_fans (f : Link → Link) : (modLink f s).fans = s.fans := rfl
@[simp] theorem modLink_adc (f : Link → Link) : (modLink f s).adc = s.adc := rfl
@[simp] theorem modLink_cmp (f : Link → Link) : (modLink f s).cmp = s.cmp := rfl
@[simp] theorem modLink_thm (f : Link → Link) : (modLink f s).thm = s.thm := rfl
@[simp] theorem modLink_cal (f : Link → Link) : (modLink f s).cal = s.cal := rfl
@[simp] theorem modLink_twb (f : Link → Link) : (modLink f s).twb = s.twb := rfl
@[simp] theorem modLink_usb (f : Link → Link) : (modLink f s).usb = s.usb := rfl
@[simp] theorem modLink_owl (f : Link → Link) : (modLink f s).owl = s.owl := rfl

/-! ### modEng -/

@[simp] theorem modEng_pending (f : Engine → Engine) : (modEng f s).pending = s.pending := rfl
@[simp] theorem modEng_out (f : Engine → Engine) : (modEng f s).out = s.out := rfl
@[simp] theorem modEng_freeIx (f : Engine → Engine) : (modEng f s).freeIx = s.freeIx := rfl
@[simp] theorem modEng_regs (f : Engine → Engine) : (modEng f s).regs = s.regs := rfl
@[simp] theorem modEng_pwr (f : Engine → Engine) : (modEng f s).pwr = s.pwr := rfl
@[simp] theorem modEng_den (f : Engine → Engine) : (modEng f s).den = s.den := rfl
@[simp] theorem modEng_clk (f : Engine → Engine) : (modEng f s).clk = s.clk := rfl
@[simp] theorem modEng_link (f : Engine → Engine) : (modEng f s).link = s.link := rfl
@[simp] theorem modEng_eng (f : Engine → Engine) : (modEng f s).eng = f s.eng := rfl
@[simp] theorem modEng_jnl (f : Engine → Engine) : (modEng f s).jnl = s.jnl := rfl
@[simp] theorem modEng_flt (f : Engine → Engine) : (modEng f s).flt = s.flt := rfl
@[simp] theorem modEng_lanes (f : Engine → Engine) : (modEng f s).lanes = s.lanes := rfl
@[simp] theorem modEng_rails (f : Engine → Engine) : (modEng f s).rails = s.rails := rfl
@[simp] theorem modEng_graphs (f : Engine → Engine) : (modEng f s).graphs = s.graphs := rfl
@[simp] theorem modEng_bud (f : Engine → Engine) : (modEng f s).bud = s.bud := rfl
@[simp] theorem modEng_chg (f : Engine → Engine) : (modEng f s).chg = s.chg := rfl
@[simp] theorem modEng_relays (f : Engine → Engine) : (modEng f s).relays = s.relays := rfl
@[simp] theorem modEng_motors (f : Engine → Engine) : (modEng f s).motors = s.motors := rfl
@[simp] theorem modEng_fans (f : Engine → Engine) : (modEng f s).fans = s.fans := rfl
@[simp] theorem modEng_adc (f : Engine → Engine) : (modEng f s).adc = s.adc := rfl
@[simp] theorem modEng_cmp (f : Engine → Engine) : (modEng f s).cmp = s.cmp := rfl
@[simp] theorem modEng_thm (f : Engine → Engine) : (modEng f s).thm = s.thm := rfl
@[simp] theorem modEng_cal (f : Engine → Engine) : (modEng f s).cal = s.cal := rfl
@[simp] theorem modEng_twb (f : Engine → Engine) : (modEng f s).twb = s.twb := rfl
@[simp] theorem modEng_usb (f : Engine → Engine) : (modEng f s).usb = s.usb := rfl
@[simp] theorem modEng_owl (f : Engine → Engine) : (modEng f s).owl = s.owl := rfl

/-! ### modPwr -/

@[simp] theorem modPwr_pending (f : Power → Power) : (modPwr f s).pending = s.pending := rfl
@[simp] theorem modPwr_out (f : Power → Power) : (modPwr f s).out = s.out := rfl
@[simp] theorem modPwr_freeIx (f : Power → Power) : (modPwr f s).freeIx = s.freeIx := rfl
@[simp] theorem modPwr_regs (f : Power → Power) : (modPwr f s).regs = s.regs := rfl
@[simp] theorem modPwr_pwr (f : Power → Power) : (modPwr f s).pwr = f s.pwr := rfl
@[simp] theorem modPwr_den (f : Power → Power) : (modPwr f s).den = s.den := rfl
@[simp] theorem modPwr_clk (f : Power → Power) : (modPwr f s).clk = s.clk := rfl
@[simp] theorem modPwr_link (f : Power → Power) : (modPwr f s).link = s.link := rfl
@[simp] theorem modPwr_eng (f : Power → Power) : (modPwr f s).eng = s.eng := rfl
@[simp] theorem modPwr_jnl (f : Power → Power) : (modPwr f s).jnl = s.jnl := rfl
@[simp] theorem modPwr_flt (f : Power → Power) : (modPwr f s).flt = s.flt := rfl
@[simp] theorem modPwr_lanes (f : Power → Power) : (modPwr f s).lanes = s.lanes := rfl
@[simp] theorem modPwr_rails (f : Power → Power) : (modPwr f s).rails = s.rails := rfl
@[simp] theorem modPwr_graphs (f : Power → Power) : (modPwr f s).graphs = s.graphs := rfl
@[simp] theorem modPwr_bud (f : Power → Power) : (modPwr f s).bud = s.bud := rfl
@[simp] theorem modPwr_chg (f : Power → Power) : (modPwr f s).chg = s.chg := rfl
@[simp] theorem modPwr_relays (f : Power → Power) : (modPwr f s).relays = s.relays := rfl
@[simp] theorem modPwr_motors (f : Power → Power) : (modPwr f s).motors = s.motors := rfl
@[simp] theorem modPwr_fans (f : Power → Power) : (modPwr f s).fans = s.fans := rfl
@[simp] theorem modPwr_adc (f : Power → Power) : (modPwr f s).adc = s.adc := rfl
@[simp] theorem modPwr_cmp (f : Power → Power) : (modPwr f s).cmp = s.cmp := rfl
@[simp] theorem modPwr_thm (f : Power → Power) : (modPwr f s).thm = s.thm := rfl
@[simp] theorem modPwr_cal (f : Power → Power) : (modPwr f s).cal = s.cal := rfl
@[simp] theorem modPwr_twb (f : Power → Power) : (modPwr f s).twb = s.twb := rfl
@[simp] theorem modPwr_usb (f : Power → Power) : (modPwr f s).usb = s.usb := rfl
@[simp] theorem modPwr_owl (f : Power → Power) : (modPwr f s).owl = s.owl := rfl

/-! ### modClk -/

@[simp] theorem modClk_pending (f : Clk → Clk) : (modClk f s).pending = s.pending := rfl
@[simp] theorem modClk_out (f : Clk → Clk) : (modClk f s).out = s.out := rfl
@[simp] theorem modClk_freeIx (f : Clk → Clk) : (modClk f s).freeIx = s.freeIx := rfl
@[simp] theorem modClk_regs (f : Clk → Clk) : (modClk f s).regs = s.regs := rfl
@[simp] theorem modClk_pwr (f : Clk → Clk) : (modClk f s).pwr = s.pwr := rfl
@[simp] theorem modClk_den (f : Clk → Clk) : (modClk f s).den = s.den := rfl
@[simp] theorem modClk_clk (f : Clk → Clk) : (modClk f s).clk = f s.clk := rfl
@[simp] theorem modClk_link (f : Clk → Clk) : (modClk f s).link = s.link := rfl
@[simp] theorem modClk_eng (f : Clk → Clk) : (modClk f s).eng = s.eng := rfl
@[simp] theorem modClk_jnl (f : Clk → Clk) : (modClk f s).jnl = s.jnl := rfl
@[simp] theorem modClk_flt (f : Clk → Clk) : (modClk f s).flt = s.flt := rfl
@[simp] theorem modClk_lanes (f : Clk → Clk) : (modClk f s).lanes = s.lanes := rfl
@[simp] theorem modClk_rails (f : Clk → Clk) : (modClk f s).rails = s.rails := rfl
@[simp] theorem modClk_graphs (f : Clk → Clk) : (modClk f s).graphs = s.graphs := rfl
@[simp] theorem modClk_bud (f : Clk → Clk) : (modClk f s).bud = s.bud := rfl
@[simp] theorem modClk_chg (f : Clk → Clk) : (modClk f s).chg = s.chg := rfl
@[simp] theorem modClk_relays (f : Clk → Clk) : (modClk f s).relays = s.relays := rfl
@[simp] theorem modClk_motors (f : Clk → Clk) : (modClk f s).motors = s.motors := rfl
@[simp] theorem modClk_fans (f : Clk → Clk) : (modClk f s).fans = s.fans := rfl
@[simp] theorem modClk_adc (f : Clk → Clk) : (modClk f s).adc = s.adc := rfl
@[simp] theorem modClk_cmp (f : Clk → Clk) : (modClk f s).cmp = s.cmp := rfl
@[simp] theorem modClk_thm (f : Clk → Clk) : (modClk f s).thm = s.thm := rfl
@[simp] theorem modClk_cal (f : Clk → Clk) : (modClk f s).cal = s.cal := rfl
@[simp] theorem modClk_twb (f : Clk → Clk) : (modClk f s).twb = s.twb := rfl
@[simp] theorem modClk_usb (f : Clk → Clk) : (modClk f s).usb = s.usb := rfl
@[simp] theorem modClk_owl (f : Clk → Clk) : (modClk f s).owl = s.owl := rfl

/-! ### modJnl -/

@[simp] theorem modJnl_pending (f : Journal → Journal) : (modJnl f s).pending = s.pending := rfl
@[simp] theorem modJnl_out (f : Journal → Journal) : (modJnl f s).out = s.out := rfl
@[simp] theorem modJnl_freeIx (f : Journal → Journal) : (modJnl f s).freeIx = s.freeIx := rfl
@[simp] theorem modJnl_regs (f : Journal → Journal) : (modJnl f s).regs = s.regs := rfl
@[simp] theorem modJnl_pwr (f : Journal → Journal) : (modJnl f s).pwr = s.pwr := rfl
@[simp] theorem modJnl_den (f : Journal → Journal) : (modJnl f s).den = s.den := rfl
@[simp] theorem modJnl_clk (f : Journal → Journal) : (modJnl f s).clk = s.clk := rfl
@[simp] theorem modJnl_link (f : Journal → Journal) : (modJnl f s).link = s.link := rfl
@[simp] theorem modJnl_eng (f : Journal → Journal) : (modJnl f s).eng = s.eng := rfl
@[simp] theorem modJnl_jnl (f : Journal → Journal) : (modJnl f s).jnl = f s.jnl := rfl
@[simp] theorem modJnl_flt (f : Journal → Journal) : (modJnl f s).flt = s.flt := rfl
@[simp] theorem modJnl_lanes (f : Journal → Journal) : (modJnl f s).lanes = s.lanes := rfl
@[simp] theorem modJnl_rails (f : Journal → Journal) : (modJnl f s).rails = s.rails := rfl
@[simp] theorem modJnl_graphs (f : Journal → Journal) : (modJnl f s).graphs = s.graphs := rfl
@[simp] theorem modJnl_bud (f : Journal → Journal) : (modJnl f s).bud = s.bud := rfl
@[simp] theorem modJnl_chg (f : Journal → Journal) : (modJnl f s).chg = s.chg := rfl
@[simp] theorem modJnl_relays (f : Journal → Journal) : (modJnl f s).relays = s.relays := rfl
@[simp] theorem modJnl_motors (f : Journal → Journal) : (modJnl f s).motors = s.motors := rfl
@[simp] theorem modJnl_fans (f : Journal → Journal) : (modJnl f s).fans = s.fans := rfl
@[simp] theorem modJnl_adc (f : Journal → Journal) : (modJnl f s).adc = s.adc := rfl
@[simp] theorem modJnl_cmp (f : Journal → Journal) : (modJnl f s).cmp = s.cmp := rfl
@[simp] theorem modJnl_thm (f : Journal → Journal) : (modJnl f s).thm = s.thm := rfl
@[simp] theorem modJnl_cal (f : Journal → Journal) : (modJnl f s).cal = s.cal := rfl
@[simp] theorem modJnl_twb (f : Journal → Journal) : (modJnl f s).twb = s.twb := rfl
@[simp] theorem modJnl_usb (f : Journal → Journal) : (modJnl f s).usb = s.usb := rfl
@[simp] theorem modJnl_owl (f : Journal → Journal) : (modJnl f s).owl = s.owl := rfl

/-! ### modBud -/

@[simp] theorem modBud_pending (f : Budget → Budget) : (modBud f s).pending = s.pending := rfl
@[simp] theorem modBud_out (f : Budget → Budget) : (modBud f s).out = s.out := rfl
@[simp] theorem modBud_freeIx (f : Budget → Budget) : (modBud f s).freeIx = s.freeIx := rfl
@[simp] theorem modBud_regs (f : Budget → Budget) : (modBud f s).regs = s.regs := rfl
@[simp] theorem modBud_pwr (f : Budget → Budget) : (modBud f s).pwr = s.pwr := rfl
@[simp] theorem modBud_den (f : Budget → Budget) : (modBud f s).den = s.den := rfl
@[simp] theorem modBud_clk (f : Budget → Budget) : (modBud f s).clk = s.clk := rfl
@[simp] theorem modBud_link (f : Budget → Budget) : (modBud f s).link = s.link := rfl
@[simp] theorem modBud_eng (f : Budget → Budget) : (modBud f s).eng = s.eng := rfl
@[simp] theorem modBud_jnl (f : Budget → Budget) : (modBud f s).jnl = s.jnl := rfl
@[simp] theorem modBud_flt (f : Budget → Budget) : (modBud f s).flt = s.flt := rfl
@[simp] theorem modBud_lanes (f : Budget → Budget) : (modBud f s).lanes = s.lanes := rfl
@[simp] theorem modBud_rails (f : Budget → Budget) : (modBud f s).rails = s.rails := rfl
@[simp] theorem modBud_graphs (f : Budget → Budget) : (modBud f s).graphs = s.graphs := rfl
@[simp] theorem modBud_bud (f : Budget → Budget) : (modBud f s).bud = f s.bud := rfl
@[simp] theorem modBud_chg (f : Budget → Budget) : (modBud f s).chg = s.chg := rfl
@[simp] theorem modBud_relays (f : Budget → Budget) : (modBud f s).relays = s.relays := rfl
@[simp] theorem modBud_motors (f : Budget → Budget) : (modBud f s).motors = s.motors := rfl
@[simp] theorem modBud_fans (f : Budget → Budget) : (modBud f s).fans = s.fans := rfl
@[simp] theorem modBud_adc (f : Budget → Budget) : (modBud f s).adc = s.adc := rfl
@[simp] theorem modBud_cmp (f : Budget → Budget) : (modBud f s).cmp = s.cmp := rfl
@[simp] theorem modBud_thm (f : Budget → Budget) : (modBud f s).thm = s.thm := rfl
@[simp] theorem modBud_cal (f : Budget → Budget) : (modBud f s).cal = s.cal := rfl
@[simp] theorem modBud_twb (f : Budget → Budget) : (modBud f s).twb = s.twb := rfl
@[simp] theorem modBud_usb (f : Budget → Budget) : (modBud f s).usb = s.usb := rfl
@[simp] theorem modBud_owl (f : Budget → Budget) : (modBud f s).owl = s.owl := rfl

/-! ### modChg -/

@[simp] theorem modChg_pending (f : Charger → Charger) : (modChg f s).pending = s.pending := rfl
@[simp] theorem modChg_out (f : Charger → Charger) : (modChg f s).out = s.out := rfl
@[simp] theorem modChg_freeIx (f : Charger → Charger) : (modChg f s).freeIx = s.freeIx := rfl
@[simp] theorem modChg_regs (f : Charger → Charger) : (modChg f s).regs = s.regs := rfl
@[simp] theorem modChg_pwr (f : Charger → Charger) : (modChg f s).pwr = s.pwr := rfl
@[simp] theorem modChg_den (f : Charger → Charger) : (modChg f s).den = s.den := rfl
@[simp] theorem modChg_clk (f : Charger → Charger) : (modChg f s).clk = s.clk := rfl
@[simp] theorem modChg_link (f : Charger → Charger) : (modChg f s).link = s.link := rfl
@[simp] theorem modChg_eng (f : Charger → Charger) : (modChg f s).eng = s.eng := rfl
@[simp] theorem modChg_jnl (f : Charger → Charger) : (modChg f s).jnl = s.jnl := rfl
@[simp] theorem modChg_flt (f : Charger → Charger) : (modChg f s).flt = s.flt := rfl
@[simp] theorem modChg_lanes (f : Charger → Charger) : (modChg f s).lanes = s.lanes := rfl
@[simp] theorem modChg_rails (f : Charger → Charger) : (modChg f s).rails = s.rails := rfl
@[simp] theorem modChg_graphs (f : Charger → Charger) : (modChg f s).graphs = s.graphs := rfl
@[simp] theorem modChg_bud (f : Charger → Charger) : (modChg f s).bud = s.bud := rfl
@[simp] theorem modChg_chg (f : Charger → Charger) : (modChg f s).chg = f s.chg := rfl
@[simp] theorem modChg_relays (f : Charger → Charger) : (modChg f s).relays = s.relays := rfl
@[simp] theorem modChg_motors (f : Charger → Charger) : (modChg f s).motors = s.motors := rfl
@[simp] theorem modChg_fans (f : Charger → Charger) : (modChg f s).fans = s.fans := rfl
@[simp] theorem modChg_adc (f : Charger → Charger) : (modChg f s).adc = s.adc := rfl
@[simp] theorem modChg_cmp (f : Charger → Charger) : (modChg f s).cmp = s.cmp := rfl
@[simp] theorem modChg_thm (f : Charger → Charger) : (modChg f s).thm = s.thm := rfl
@[simp] theorem modChg_cal (f : Charger → Charger) : (modChg f s).cal = s.cal := rfl
@[simp] theorem modChg_twb (f : Charger → Charger) : (modChg f s).twb = s.twb := rfl
@[simp] theorem modChg_usb (f : Charger → Charger) : (modChg f s).usb = s.usb := rfl
@[simp] theorem modChg_owl (f : Charger → Charger) : (modChg f s).owl = s.owl := rfl

/-! ### modUsb -/

@[simp] theorem modUsb_pending (f : Usb → Usb) : (modUsb f s).pending = s.pending := rfl
@[simp] theorem modUsb_out (f : Usb → Usb) : (modUsb f s).out = s.out := rfl
@[simp] theorem modUsb_freeIx (f : Usb → Usb) : (modUsb f s).freeIx = s.freeIx := rfl
@[simp] theorem modUsb_regs (f : Usb → Usb) : (modUsb f s).regs = s.regs := rfl
@[simp] theorem modUsb_pwr (f : Usb → Usb) : (modUsb f s).pwr = s.pwr := rfl
@[simp] theorem modUsb_den (f : Usb → Usb) : (modUsb f s).den = s.den := rfl
@[simp] theorem modUsb_clk (f : Usb → Usb) : (modUsb f s).clk = s.clk := rfl
@[simp] theorem modUsb_link (f : Usb → Usb) : (modUsb f s).link = s.link := rfl
@[simp] theorem modUsb_eng (f : Usb → Usb) : (modUsb f s).eng = s.eng := rfl
@[simp] theorem modUsb_jnl (f : Usb → Usb) : (modUsb f s).jnl = s.jnl := rfl
@[simp] theorem modUsb_flt (f : Usb → Usb) : (modUsb f s).flt = s.flt := rfl
@[simp] theorem modUsb_lanes (f : Usb → Usb) : (modUsb f s).lanes = s.lanes := rfl
@[simp] theorem modUsb_rails (f : Usb → Usb) : (modUsb f s).rails = s.rails := rfl
@[simp] theorem modUsb_graphs (f : Usb → Usb) : (modUsb f s).graphs = s.graphs := rfl
@[simp] theorem modUsb_bud (f : Usb → Usb) : (modUsb f s).bud = s.bud := rfl
@[simp] theorem modUsb_chg (f : Usb → Usb) : (modUsb f s).chg = s.chg := rfl
@[simp] theorem modUsb_relays (f : Usb → Usb) : (modUsb f s).relays = s.relays := rfl
@[simp] theorem modUsb_motors (f : Usb → Usb) : (modUsb f s).motors = s.motors := rfl
@[simp] theorem modUsb_fans (f : Usb → Usb) : (modUsb f s).fans = s.fans := rfl
@[simp] theorem modUsb_adc (f : Usb → Usb) : (modUsb f s).adc = s.adc := rfl
@[simp] theorem modUsb_cmp (f : Usb → Usb) : (modUsb f s).cmp = s.cmp := rfl
@[simp] theorem modUsb_thm (f : Usb → Usb) : (modUsb f s).thm = s.thm := rfl
@[simp] theorem modUsb_cal (f : Usb → Usb) : (modUsb f s).cal = s.cal := rfl
@[simp] theorem modUsb_twb (f : Usb → Usb) : (modUsb f s).twb = s.twb := rfl
@[simp] theorem modUsb_usb (f : Usb → Usb) : (modUsb f s).usb = f s.usb := rfl
@[simp] theorem modUsb_owl (f : Usb → Usb) : (modUsb f s).owl = s.owl := rfl

/-! ### modThm -/

@[simp] theorem modThm_pending (f : Thermal → Thermal) : (modThm f s).pending = s.pending := rfl
@[simp] theorem modThm_out (f : Thermal → Thermal) : (modThm f s).out = s.out := rfl
@[simp] theorem modThm_freeIx (f : Thermal → Thermal) : (modThm f s).freeIx = s.freeIx := rfl
@[simp] theorem modThm_regs (f : Thermal → Thermal) : (modThm f s).regs = s.regs := rfl
@[simp] theorem modThm_pwr (f : Thermal → Thermal) : (modThm f s).pwr = s.pwr := rfl
@[simp] theorem modThm_den (f : Thermal → Thermal) : (modThm f s).den = s.den := rfl
@[simp] theorem modThm_clk (f : Thermal → Thermal) : (modThm f s).clk = s.clk := rfl
@[simp] theorem modThm_link (f : Thermal → Thermal) : (modThm f s).link = s.link := rfl
@[simp] theorem modThm_eng (f : Thermal → Thermal) : (modThm f s).eng = s.eng := rfl
@[simp] theorem modThm_jnl (f : Thermal → Thermal) : (modThm f s).jnl = s.jnl := rfl
@[simp] theorem modThm_flt (f : Thermal → Thermal) : (modThm f s).flt = s.flt := rfl
@[simp] theorem modThm_lanes (f : Thermal → Thermal) : (modThm f s).lanes = s.lanes := rfl
@[simp] theorem modThm_rails (f : Thermal → Thermal) : (modThm f s).rails = s.rails := rfl
@[simp] theorem modThm_graphs (f : Thermal → Thermal) : (modThm f s).graphs = s.graphs := rfl
@[simp] theorem modThm_bud (f : Thermal → Thermal) : (modThm f s).bud = s.bud := rfl
@[simp] theorem modThm_chg (f : Thermal → Thermal) : (modThm f s).chg = s.chg := rfl
@[simp] theorem modThm_relays (f : Thermal → Thermal) : (modThm f s).relays = s.relays := rfl
@[simp] theorem modThm_motors (f : Thermal → Thermal) : (modThm f s).motors = s.motors := rfl
@[simp] theorem modThm_fans (f : Thermal → Thermal) : (modThm f s).fans = s.fans := rfl
@[simp] theorem modThm_adc (f : Thermal → Thermal) : (modThm f s).adc = s.adc := rfl
@[simp] theorem modThm_cmp (f : Thermal → Thermal) : (modThm f s).cmp = s.cmp := rfl
@[simp] theorem modThm_thm (f : Thermal → Thermal) : (modThm f s).thm = f s.thm := rfl
@[simp] theorem modThm_cal (f : Thermal → Thermal) : (modThm f s).cal = s.cal := rfl
@[simp] theorem modThm_twb (f : Thermal → Thermal) : (modThm f s).twb = s.twb := rfl
@[simp] theorem modThm_usb (f : Thermal → Thermal) : (modThm f s).usb = s.usb := rfl
@[simp] theorem modThm_owl (f : Thermal → Thermal) : (modThm f s).owl = s.owl := rfl

/-! ### modLane -/

@[simp] theorem modLane_pending (n : Fin 48) (f : Lane → Lane) : (modLane n f s).pending = s.pending := rfl
@[simp] theorem modLane_out (n : Fin 48) (f : Lane → Lane) : (modLane n f s).out = s.out := rfl
@[simp] theorem modLane_freeIx (n : Fin 48) (f : Lane → Lane) : (modLane n f s).freeIx = s.freeIx := rfl
@[simp] theorem modLane_regs (n : Fin 48) (f : Lane → Lane) : (modLane n f s).regs = s.regs := rfl
@[simp] theorem modLane_pwr (n : Fin 48) (f : Lane → Lane) : (modLane n f s).pwr = s.pwr := rfl
@[simp] theorem modLane_den (n : Fin 48) (f : Lane → Lane) : (modLane n f s).den = s.den := rfl
@[simp] theorem modLane_clk (n : Fin 48) (f : Lane → Lane) : (modLane n f s).clk = s.clk := rfl
@[simp] theorem modLane_link (n : Fin 48) (f : Lane → Lane) : (modLane n f s).link = s.link := rfl
@[simp] theorem modLane_eng (n : Fin 48) (f : Lane → Lane) : (modLane n f s).eng = s.eng := rfl
@[simp] theorem modLane_jnl (n : Fin 48) (f : Lane → Lane) : (modLane n f s).jnl = s.jnl := rfl
@[simp] theorem modLane_flt (n : Fin 48) (f : Lane → Lane) : (modLane n f s).flt = s.flt := rfl
@[simp] theorem modLane_lanes (n : Fin 48) (f : Lane → Lane) : (modLane n f s).lanes = upd s.lanes n f := rfl
@[simp] theorem modLane_rails (n : Fin 48) (f : Lane → Lane) : (modLane n f s).rails = s.rails := rfl
@[simp] theorem modLane_graphs (n : Fin 48) (f : Lane → Lane) : (modLane n f s).graphs = s.graphs := rfl
@[simp] theorem modLane_bud (n : Fin 48) (f : Lane → Lane) : (modLane n f s).bud = s.bud := rfl
@[simp] theorem modLane_chg (n : Fin 48) (f : Lane → Lane) : (modLane n f s).chg = s.chg := rfl
@[simp] theorem modLane_relays (n : Fin 48) (f : Lane → Lane) : (modLane n f s).relays = s.relays := rfl
@[simp] theorem modLane_motors (n : Fin 48) (f : Lane → Lane) : (modLane n f s).motors = s.motors := rfl
@[simp] theorem modLane_fans (n : Fin 48) (f : Lane → Lane) : (modLane n f s).fans = s.fans := rfl
@[simp] theorem modLane_adc (n : Fin 48) (f : Lane → Lane) : (modLane n f s).adc = s.adc := rfl
@[simp] theorem modLane_cmp (n : Fin 48) (f : Lane → Lane) : (modLane n f s).cmp = s.cmp := rfl
@[simp] theorem modLane_thm (n : Fin 48) (f : Lane → Lane) : (modLane n f s).thm = s.thm := rfl
@[simp] theorem modLane_cal (n : Fin 48) (f : Lane → Lane) : (modLane n f s).cal = s.cal := rfl
@[simp] theorem modLane_twb (n : Fin 48) (f : Lane → Lane) : (modLane n f s).twb = s.twb := rfl
@[simp] theorem modLane_usb (n : Fin 48) (f : Lane → Lane) : (modLane n f s).usb = s.usb := rfl
@[simp] theorem modLane_owl (n : Fin 48) (f : Lane → Lane) : (modLane n f s).owl = s.owl := rfl

/-! ### setRail -/

@[simp] theorem setRail_pending (r : Fin 48) (x : Option Rail) : (setRail r x s).pending = s.pending := rfl
@[simp] theorem setRail_out (r : Fin 48) (x : Option Rail) : (setRail r x s).out = s.out := rfl
@[simp] theorem setRail_freeIx (r : Fin 48) (x : Option Rail) : (setRail r x s).freeIx = s.freeIx := rfl
@[simp] theorem setRail_regs (r : Fin 48) (x : Option Rail) : (setRail r x s).regs = s.regs := rfl
@[simp] theorem setRail_pwr (r : Fin 48) (x : Option Rail) : (setRail r x s).pwr = s.pwr := rfl
@[simp] theorem setRail_den (r : Fin 48) (x : Option Rail) : (setRail r x s).den = s.den := rfl
@[simp] theorem setRail_clk (r : Fin 48) (x : Option Rail) : (setRail r x s).clk = s.clk := rfl
@[simp] theorem setRail_link (r : Fin 48) (x : Option Rail) : (setRail r x s).link = s.link := rfl
@[simp] theorem setRail_eng (r : Fin 48) (x : Option Rail) : (setRail r x s).eng = s.eng := rfl
@[simp] theorem setRail_jnl (r : Fin 48) (x : Option Rail) : (setRail r x s).jnl = s.jnl := rfl
@[simp] theorem setRail_flt (r : Fin 48) (x : Option Rail) : (setRail r x s).flt = s.flt := rfl
@[simp] theorem setRail_lanes (r : Fin 48) (x : Option Rail) : (setRail r x s).lanes = s.lanes := rfl
@[simp] theorem setRail_rails (r : Fin 48) (x : Option Rail) : (setRail r x s).rails = s.rails.set r.val x r.isLt := rfl
@[simp] theorem setRail_graphs (r : Fin 48) (x : Option Rail) : (setRail r x s).graphs = s.graphs := rfl
@[simp] theorem setRail_bud (r : Fin 48) (x : Option Rail) : (setRail r x s).bud = s.bud := rfl
@[simp] theorem setRail_chg (r : Fin 48) (x : Option Rail) : (setRail r x s).chg = s.chg := rfl
@[simp] theorem setRail_relays (r : Fin 48) (x : Option Rail) : (setRail r x s).relays = s.relays := rfl
@[simp] theorem setRail_motors (r : Fin 48) (x : Option Rail) : (setRail r x s).motors = s.motors := rfl
@[simp] theorem setRail_fans (r : Fin 48) (x : Option Rail) : (setRail r x s).fans = s.fans := rfl
@[simp] theorem setRail_adc (r : Fin 48) (x : Option Rail) : (setRail r x s).adc = s.adc := rfl
@[simp] theorem setRail_cmp (r : Fin 48) (x : Option Rail) : (setRail r x s).cmp = s.cmp := rfl
@[simp] theorem setRail_thm (r : Fin 48) (x : Option Rail) : (setRail r x s).thm = s.thm := rfl
@[simp] theorem setRail_cal (r : Fin 48) (x : Option Rail) : (setRail r x s).cal = s.cal := rfl
@[simp] theorem setRail_twb (r : Fin 48) (x : Option Rail) : (setRail r x s).twb = s.twb := rfl
@[simp] theorem setRail_usb (r : Fin 48) (x : Option Rail) : (setRail r x s).usb = s.usb := rfl
@[simp] theorem setRail_owl (r : Fin 48) (x : Option Rail) : (setRail r x s).owl = s.owl := rfl

/-! ### setGraph -/

@[simp] theorem setGraph_pending (g : Fin 16) (x : Option Graph) : (setGraph g x s).pending = s.pending := rfl
@[simp] theorem setGraph_out (g : Fin 16) (x : Option Graph) : (setGraph g x s).out = s.out := rfl
@[simp] theorem setGraph_freeIx (g : Fin 16) (x : Option Graph) : (setGraph g x s).freeIx = s.freeIx := rfl
@[simp] theorem setGraph_regs (g : Fin 16) (x : Option Graph) : (setGraph g x s).regs = s.regs := rfl
@[simp] theorem setGraph_pwr (g : Fin 16) (x : Option Graph) : (setGraph g x s).pwr = s.pwr := rfl
@[simp] theorem setGraph_den (g : Fin 16) (x : Option Graph) : (setGraph g x s).den = s.den := rfl
@[simp] theorem setGraph_clk (g : Fin 16) (x : Option Graph) : (setGraph g x s).clk = s.clk := rfl
@[simp] theorem setGraph_link (g : Fin 16) (x : Option Graph) : (setGraph g x s).link = s.link := rfl
@[simp] theorem setGraph_eng (g : Fin 16) (x : Option Graph) : (setGraph g x s).eng = s.eng := rfl
@[simp] theorem setGraph_jnl (g : Fin 16) (x : Option Graph) : (setGraph g x s).jnl = s.jnl := rfl
@[simp] theorem setGraph_flt (g : Fin 16) (x : Option Graph) : (setGraph g x s).flt = s.flt := rfl
@[simp] theorem setGraph_lanes (g : Fin 16) (x : Option Graph) : (setGraph g x s).lanes = s.lanes := rfl
@[simp] theorem setGraph_rails (g : Fin 16) (x : Option Graph) : (setGraph g x s).rails = s.rails := rfl
@[simp] theorem setGraph_graphs (g : Fin 16) (x : Option Graph) : (setGraph g x s).graphs = s.graphs.set g.val x g.isLt := rfl
@[simp] theorem setGraph_bud (g : Fin 16) (x : Option Graph) : (setGraph g x s).bud = s.bud := rfl
@[simp] theorem setGraph_chg (g : Fin 16) (x : Option Graph) : (setGraph g x s).chg = s.chg := rfl
@[simp] theorem setGraph_relays (g : Fin 16) (x : Option Graph) : (setGraph g x s).relays = s.relays := rfl
@[simp] theorem setGraph_motors (g : Fin 16) (x : Option Graph) : (setGraph g x s).motors = s.motors := rfl
@[simp] theorem setGraph_fans (g : Fin 16) (x : Option Graph) : (setGraph g x s).fans = s.fans := rfl
@[simp] theorem setGraph_adc (g : Fin 16) (x : Option Graph) : (setGraph g x s).adc = s.adc := rfl
@[simp] theorem setGraph_cmp (g : Fin 16) (x : Option Graph) : (setGraph g x s).cmp = s.cmp := rfl
@[simp] theorem setGraph_thm (g : Fin 16) (x : Option Graph) : (setGraph g x s).thm = s.thm := rfl
@[simp] theorem setGraph_cal (g : Fin 16) (x : Option Graph) : (setGraph g x s).cal = s.cal := rfl
@[simp] theorem setGraph_twb (g : Fin 16) (x : Option Graph) : (setGraph g x s).twb = s.twb := rfl
@[simp] theorem setGraph_usb (g : Fin 16) (x : Option Graph) : (setGraph g x s).usb = s.usb := rfl
@[simp] theorem setGraph_owl (g : Fin 16) (x : Option Graph) : (setGraph g x s).owl = s.owl := rfl

/-! ### setRelay -/

@[simp] theorem setRelay_pending (n : Fin 48) (x : Option Relay) : (setRelay n x s).pending = s.pending := rfl
@[simp] theorem setRelay_out (n : Fin 48) (x : Option Relay) : (setRelay n x s).out = s.out := rfl
@[simp] theorem setRelay_freeIx (n : Fin 48) (x : Option Relay) : (setRelay n x s).freeIx = s.freeIx := rfl
@[simp] theorem setRelay_regs (n : Fin 48) (x : Option Relay) : (setRelay n x s).regs = s.regs := rfl
@[simp] theorem setRelay_pwr (n : Fin 48) (x : Option Relay) : (setRelay n x s).pwr = s.pwr := rfl
@[simp] theorem setRelay_den (n : Fin 48) (x : Option Relay) : (setRelay n x s).den = s.den := rfl
@[simp] theorem setRelay_clk (n : Fin 48) (x : Option Relay) : (setRelay n x s).clk = s.clk := rfl
@[simp] theorem setRelay_link (n : Fin 48) (x : Option Relay) : (setRelay n x s).link = s.link := rfl
@[simp] theorem setRelay_eng (n : Fin 48) (x : Option Relay) : (setRelay n x s).eng = s.eng := rfl
@[simp] theorem setRelay_jnl (n : Fin 48) (x : Option Relay) : (setRelay n x s).jnl = s.jnl := rfl
@[simp] theorem setRelay_flt (n : Fin 48) (x : Option Relay) : (setRelay n x s).flt = s.flt := rfl
@[simp] theorem setRelay_lanes (n : Fin 48) (x : Option Relay) : (setRelay n x s).lanes = s.lanes := rfl
@[simp] theorem setRelay_rails (n : Fin 48) (x : Option Relay) : (setRelay n x s).rails = s.rails := rfl
@[simp] theorem setRelay_graphs (n : Fin 48) (x : Option Relay) : (setRelay n x s).graphs = s.graphs := rfl
@[simp] theorem setRelay_bud (n : Fin 48) (x : Option Relay) : (setRelay n x s).bud = s.bud := rfl
@[simp] theorem setRelay_chg (n : Fin 48) (x : Option Relay) : (setRelay n x s).chg = s.chg := rfl
@[simp] theorem setRelay_relays (n : Fin 48) (x : Option Relay) : (setRelay n x s).relays = s.relays.set n.val x n.isLt := rfl
@[simp] theorem setRelay_motors (n : Fin 48) (x : Option Relay) : (setRelay n x s).motors = s.motors := rfl
@[simp] theorem setRelay_fans (n : Fin 48) (x : Option Relay) : (setRelay n x s).fans = s.fans := rfl
@[simp] theorem setRelay_adc (n : Fin 48) (x : Option Relay) : (setRelay n x s).adc = s.adc := rfl
@[simp] theorem setRelay_cmp (n : Fin 48) (x : Option Relay) : (setRelay n x s).cmp = s.cmp := rfl
@[simp] theorem setRelay_thm (n : Fin 48) (x : Option Relay) : (setRelay n x s).thm = s.thm := rfl
@[simp] theorem setRelay_cal (n : Fin 48) (x : Option Relay) : (setRelay n x s).cal = s.cal := rfl
@[simp] theorem setRelay_twb (n : Fin 48) (x : Option Relay) : (setRelay n x s).twb = s.twb := rfl
@[simp] theorem setRelay_usb (n : Fin 48) (x : Option Relay) : (setRelay n x s).usb = s.usb := rfl
@[simp] theorem setRelay_owl (n : Fin 48) (x : Option Relay) : (setRelay n x s).owl = s.owl := rfl

/-! ### setMotor -/

@[simp] theorem setMotor_pending (m : Fin 2) (x : Option Motor) : (setMotor m x s).pending = s.pending := rfl
@[simp] theorem setMotor_out (m : Fin 2) (x : Option Motor) : (setMotor m x s).out = s.out := rfl
@[simp] theorem setMotor_freeIx (m : Fin 2) (x : Option Motor) : (setMotor m x s).freeIx = s.freeIx := rfl
@[simp] theorem setMotor_regs (m : Fin 2) (x : Option Motor) : (setMotor m x s).regs = s.regs := rfl
@[simp] theorem setMotor_pwr (m : Fin 2) (x : Option Motor) : (setMotor m x s).pwr = s.pwr := rfl
@[simp] theorem setMotor_den (m : Fin 2) (x : Option Motor) : (setMotor m x s).den = s.den := rfl
@[simp] theorem setMotor_clk (m : Fin 2) (x : Option Motor) : (setMotor m x s).clk = s.clk := rfl
@[simp] theorem setMotor_link (m : Fin 2) (x : Option Motor) : (setMotor m x s).link = s.link := rfl
@[simp] theorem setMotor_eng (m : Fin 2) (x : Option Motor) : (setMotor m x s).eng = s.eng := rfl
@[simp] theorem setMotor_jnl (m : Fin 2) (x : Option Motor) : (setMotor m x s).jnl = s.jnl := rfl
@[simp] theorem setMotor_flt (m : Fin 2) (x : Option Motor) : (setMotor m x s).flt = s.flt := rfl
@[simp] theorem setMotor_lanes (m : Fin 2) (x : Option Motor) : (setMotor m x s).lanes = s.lanes := rfl
@[simp] theorem setMotor_rails (m : Fin 2) (x : Option Motor) : (setMotor m x s).rails = s.rails := rfl
@[simp] theorem setMotor_graphs (m : Fin 2) (x : Option Motor) : (setMotor m x s).graphs = s.graphs := rfl
@[simp] theorem setMotor_bud (m : Fin 2) (x : Option Motor) : (setMotor m x s).bud = s.bud := rfl
@[simp] theorem setMotor_chg (m : Fin 2) (x : Option Motor) : (setMotor m x s).chg = s.chg := rfl
@[simp] theorem setMotor_relays (m : Fin 2) (x : Option Motor) : (setMotor m x s).relays = s.relays := rfl
@[simp] theorem setMotor_motors (m : Fin 2) (x : Option Motor) : (setMotor m x s).motors = s.motors.set m.val x m.isLt := rfl
@[simp] theorem setMotor_fans (m : Fin 2) (x : Option Motor) : (setMotor m x s).fans = s.fans := rfl
@[simp] theorem setMotor_adc (m : Fin 2) (x : Option Motor) : (setMotor m x s).adc = s.adc := rfl
@[simp] theorem setMotor_cmp (m : Fin 2) (x : Option Motor) : (setMotor m x s).cmp = s.cmp := rfl
@[simp] theorem setMotor_thm (m : Fin 2) (x : Option Motor) : (setMotor m x s).thm = s.thm := rfl
@[simp] theorem setMotor_cal (m : Fin 2) (x : Option Motor) : (setMotor m x s).cal = s.cal := rfl
@[simp] theorem setMotor_twb (m : Fin 2) (x : Option Motor) : (setMotor m x s).twb = s.twb := rfl
@[simp] theorem setMotor_usb (m : Fin 2) (x : Option Motor) : (setMotor m x s).usb = s.usb := rfl
@[simp] theorem setMotor_owl (m : Fin 2) (x : Option Motor) : (setMotor m x s).owl = s.owl := rfl

/-! ### setFan -/

@[simp] theorem setFan_pending (k : Fin 4) (x : Option Fan) : (setFan k x s).pending = s.pending := rfl
@[simp] theorem setFan_out (k : Fin 4) (x : Option Fan) : (setFan k x s).out = s.out := rfl
@[simp] theorem setFan_freeIx (k : Fin 4) (x : Option Fan) : (setFan k x s).freeIx = s.freeIx := rfl
@[simp] theorem setFan_regs (k : Fin 4) (x : Option Fan) : (setFan k x s).regs = s.regs := rfl
@[simp] theorem setFan_pwr (k : Fin 4) (x : Option Fan) : (setFan k x s).pwr = s.pwr := rfl
@[simp] theorem setFan_den (k : Fin 4) (x : Option Fan) : (setFan k x s).den = s.den := rfl
@[simp] theorem setFan_clk (k : Fin 4) (x : Option Fan) : (setFan k x s).clk = s.clk := rfl
@[simp] theorem setFan_link (k : Fin 4) (x : Option Fan) : (setFan k x s).link = s.link := rfl
@[simp] theorem setFan_eng (k : Fin 4) (x : Option Fan) : (setFan k x s).eng = s.eng := rfl
@[simp] theorem setFan_jnl (k : Fin 4) (x : Option Fan) : (setFan k x s).jnl = s.jnl := rfl
@[simp] theorem setFan_flt (k : Fin 4) (x : Option Fan) : (setFan k x s).flt = s.flt := rfl
@[simp] theorem setFan_lanes (k : Fin 4) (x : Option Fan) : (setFan k x s).lanes = s.lanes := rfl
@[simp] theorem setFan_rails (k : Fin 4) (x : Option Fan) : (setFan k x s).rails = s.rails := rfl
@[simp] theorem setFan_graphs (k : Fin 4) (x : Option Fan) : (setFan k x s).graphs = s.graphs := rfl
@[simp] theorem setFan_bud (k : Fin 4) (x : Option Fan) : (setFan k x s).bud = s.bud := rfl
@[simp] theorem setFan_chg (k : Fin 4) (x : Option Fan) : (setFan k x s).chg = s.chg := rfl
@[simp] theorem setFan_relays (k : Fin 4) (x : Option Fan) : (setFan k x s).relays = s.relays := rfl
@[simp] theorem setFan_motors (k : Fin 4) (x : Option Fan) : (setFan k x s).motors = s.motors := rfl
@[simp] theorem setFan_fans (k : Fin 4) (x : Option Fan) : (setFan k x s).fans = s.fans.set k.val x k.isLt := rfl
@[simp] theorem setFan_adc (k : Fin 4) (x : Option Fan) : (setFan k x s).adc = s.adc := rfl
@[simp] theorem setFan_cmp (k : Fin 4) (x : Option Fan) : (setFan k x s).cmp = s.cmp := rfl
@[simp] theorem setFan_thm (k : Fin 4) (x : Option Fan) : (setFan k x s).thm = s.thm := rfl
@[simp] theorem setFan_cal (k : Fin 4) (x : Option Fan) : (setFan k x s).cal = s.cal := rfl
@[simp] theorem setFan_twb (k : Fin 4) (x : Option Fan) : (setFan k x s).twb = s.twb := rfl
@[simp] theorem setFan_usb (k : Fin 4) (x : Option Fan) : (setFan k x s).usb = s.usb := rfl
@[simp] theorem setFan_owl (k : Fin 4) (x : Option Fan) : (setFan k x s).owl = s.owl := rfl

/-! ### modRail -/

@[simp] theorem modRail_pending (r : Fin 48) (f : Rail → Rail) : (modRail r f s).pending = s.pending := rfl
@[simp] theorem modRail_out (r : Fin 48) (f : Rail → Rail) : (modRail r f s).out = s.out := rfl
@[simp] theorem modRail_freeIx (r : Fin 48) (f : Rail → Rail) : (modRail r f s).freeIx = s.freeIx := rfl
@[simp] theorem modRail_regs (r : Fin 48) (f : Rail → Rail) : (modRail r f s).regs = s.regs := rfl
@[simp] theorem modRail_pwr (r : Fin 48) (f : Rail → Rail) : (modRail r f s).pwr = s.pwr := rfl
@[simp] theorem modRail_den (r : Fin 48) (f : Rail → Rail) : (modRail r f s).den = s.den := rfl
@[simp] theorem modRail_clk (r : Fin 48) (f : Rail → Rail) : (modRail r f s).clk = s.clk := rfl
@[simp] theorem modRail_link (r : Fin 48) (f : Rail → Rail) : (modRail r f s).link = s.link := rfl
@[simp] theorem modRail_eng (r : Fin 48) (f : Rail → Rail) : (modRail r f s).eng = s.eng := rfl
@[simp] theorem modRail_jnl (r : Fin 48) (f : Rail → Rail) : (modRail r f s).jnl = s.jnl := rfl
@[simp] theorem modRail_flt (r : Fin 48) (f : Rail → Rail) : (modRail r f s).flt = s.flt := rfl
@[simp] theorem modRail_lanes (r : Fin 48) (f : Rail → Rail) : (modRail r f s).lanes = s.lanes := rfl
@[simp] theorem modRail_rails (r : Fin 48) (f : Rail → Rail) : (modRail r f s).rails = s.rails.set r.val (s.rails[r].map f) r.isLt := rfl
@[simp] theorem modRail_graphs (r : Fin 48) (f : Rail → Rail) : (modRail r f s).graphs = s.graphs := rfl
@[simp] theorem modRail_bud (r : Fin 48) (f : Rail → Rail) : (modRail r f s).bud = s.bud := rfl
@[simp] theorem modRail_chg (r : Fin 48) (f : Rail → Rail) : (modRail r f s).chg = s.chg := rfl
@[simp] theorem modRail_relays (r : Fin 48) (f : Rail → Rail) : (modRail r f s).relays = s.relays := rfl
@[simp] theorem modRail_motors (r : Fin 48) (f : Rail → Rail) : (modRail r f s).motors = s.motors := rfl
@[simp] theorem modRail_fans (r : Fin 48) (f : Rail → Rail) : (modRail r f s).fans = s.fans := rfl
@[simp] theorem modRail_adc (r : Fin 48) (f : Rail → Rail) : (modRail r f s).adc = s.adc := rfl
@[simp] theorem modRail_cmp (r : Fin 48) (f : Rail → Rail) : (modRail r f s).cmp = s.cmp := rfl
@[simp] theorem modRail_thm (r : Fin 48) (f : Rail → Rail) : (modRail r f s).thm = s.thm := rfl
@[simp] theorem modRail_cal (r : Fin 48) (f : Rail → Rail) : (modRail r f s).cal = s.cal := rfl
@[simp] theorem modRail_twb (r : Fin 48) (f : Rail → Rail) : (modRail r f s).twb = s.twb := rfl
@[simp] theorem modRail_usb (r : Fin 48) (f : Rail → Rail) : (modRail r f s).usb = s.usb := rfl
@[simp] theorem modRail_owl (r : Fin 48) (f : Rail → Rail) : (modRail r f s).owl = s.owl := rfl

/-! ### modGraph -/

@[simp] theorem modGraph_pending (g : Fin 16) (f : Graph → Graph) : (modGraph g f s).pending = s.pending := rfl
@[simp] theorem modGraph_out (g : Fin 16) (f : Graph → Graph) : (modGraph g f s).out = s.out := rfl
@[simp] theorem modGraph_freeIx (g : Fin 16) (f : Graph → Graph) : (modGraph g f s).freeIx = s.freeIx := rfl
@[simp] theorem modGraph_regs (g : Fin 16) (f : Graph → Graph) : (modGraph g f s).regs = s.regs := rfl
@[simp] theorem modGraph_pwr (g : Fin 16) (f : Graph → Graph) : (modGraph g f s).pwr = s.pwr := rfl
@[simp] theorem modGraph_den (g : Fin 16) (f : Graph → Graph) : (modGraph g f s).den = s.den := rfl
@[simp] theorem modGraph_clk (g : Fin 16) (f : Graph → Graph) : (modGraph g f s).clk = s.clk := rfl
@[simp] theorem modGraph_link (g : Fin 16) (f : Graph → Graph) : (modGraph g f s).link = s.link := rfl
@[simp] theorem modGraph_eng (g : Fin 16) (f : Graph → Graph) : (modGraph g f s).eng = s.eng := rfl
@[simp] theorem modGraph_jnl (g : Fin 16) (f : Graph → Graph) : (modGraph g f s).jnl = s.jnl := rfl
@[simp] theorem modGraph_flt (g : Fin 16) (f : Graph → Graph) : (modGraph g f s).flt = s.flt := rfl
@[simp] theorem modGraph_lanes (g : Fin 16) (f : Graph → Graph) : (modGraph g f s).lanes = s.lanes := rfl
@[simp] theorem modGraph_rails (g : Fin 16) (f : Graph → Graph) : (modGraph g f s).rails = s.rails := rfl
@[simp] theorem modGraph_graphs (g : Fin 16) (f : Graph → Graph) : (modGraph g f s).graphs = s.graphs.set g.val (s.graphs[g].map f) g.isLt := rfl
@[simp] theorem modGraph_bud (g : Fin 16) (f : Graph → Graph) : (modGraph g f s).bud = s.bud := rfl
@[simp] theorem modGraph_chg (g : Fin 16) (f : Graph → Graph) : (modGraph g f s).chg = s.chg := rfl
@[simp] theorem modGraph_relays (g : Fin 16) (f : Graph → Graph) : (modGraph g f s).relays = s.relays := rfl
@[simp] theorem modGraph_motors (g : Fin 16) (f : Graph → Graph) : (modGraph g f s).motors = s.motors := rfl
@[simp] theorem modGraph_fans (g : Fin 16) (f : Graph → Graph) : (modGraph g f s).fans = s.fans := rfl
@[simp] theorem modGraph_adc (g : Fin 16) (f : Graph → Graph) : (modGraph g f s).adc = s.adc := rfl
@[simp] theorem modGraph_cmp (g : Fin 16) (f : Graph → Graph) : (modGraph g f s).cmp = s.cmp := rfl
@[simp] theorem modGraph_thm (g : Fin 16) (f : Graph → Graph) : (modGraph g f s).thm = s.thm := rfl
@[simp] theorem modGraph_cal (g : Fin 16) (f : Graph → Graph) : (modGraph g f s).cal = s.cal := rfl
@[simp] theorem modGraph_twb (g : Fin 16) (f : Graph → Graph) : (modGraph g f s).twb = s.twb := rfl
@[simp] theorem modGraph_usb (g : Fin 16) (f : Graph → Graph) : (modGraph g f s).usb = s.usb := rfl
@[simp] theorem modGraph_owl (g : Fin 16) (f : Graph → Graph) : (modGraph g f s).owl = s.owl := rfl

/-! ### modRelay -/

@[simp] theorem modRelay_pending (n : Fin 48) (f : Relay → Relay) : (modRelay n f s).pending = s.pending := rfl
@[simp] theorem modRelay_out (n : Fin 48) (f : Relay → Relay) : (modRelay n f s).out = s.out := rfl
@[simp] theorem modRelay_freeIx (n : Fin 48) (f : Relay → Relay) : (modRelay n f s).freeIx = s.freeIx := rfl
@[simp] theorem modRelay_regs (n : Fin 48) (f : Relay → Relay) : (modRelay n f s).regs = s.regs := rfl
@[simp] theorem modRelay_pwr (n : Fin 48) (f : Relay → Relay) : (modRelay n f s).pwr = s.pwr := rfl
@[simp] theorem modRelay_den (n : Fin 48) (f : Relay → Relay) : (modRelay n f s).den = s.den := rfl
@[simp] theorem modRelay_clk (n : Fin 48) (f : Relay → Relay) : (modRelay n f s).clk = s.clk := rfl
@[simp] theorem modRelay_link (n : Fin 48) (f : Relay → Relay) : (modRelay n f s).link = s.link := rfl
@[simp] theorem modRelay_eng (n : Fin 48) (f : Relay → Relay) : (modRelay n f s).eng = s.eng := rfl
@[simp] theorem modRelay_jnl (n : Fin 48) (f : Relay → Relay) : (modRelay n f s).jnl = s.jnl := rfl
@[simp] theorem modRelay_flt (n : Fin 48) (f : Relay → Relay) : (modRelay n f s).flt = s.flt := rfl
@[simp] theorem modRelay_lanes (n : Fin 48) (f : Relay → Relay) : (modRelay n f s).lanes = s.lanes := rfl
@[simp] theorem modRelay_rails (n : Fin 48) (f : Relay → Relay) : (modRelay n f s).rails = s.rails := rfl
@[simp] theorem modRelay_graphs (n : Fin 48) (f : Relay → Relay) : (modRelay n f s).graphs = s.graphs := rfl
@[simp] theorem modRelay_bud (n : Fin 48) (f : Relay → Relay) : (modRelay n f s).bud = s.bud := rfl
@[simp] theorem modRelay_chg (n : Fin 48) (f : Relay → Relay) : (modRelay n f s).chg = s.chg := rfl
@[simp] theorem modRelay_relays (n : Fin 48) (f : Relay → Relay) : (modRelay n f s).relays = s.relays.set n.val (s.relays[n].map f) n.isLt := rfl
@[simp] theorem modRelay_motors (n : Fin 48) (f : Relay → Relay) : (modRelay n f s).motors = s.motors := rfl
@[simp] theorem modRelay_fans (n : Fin 48) (f : Relay → Relay) : (modRelay n f s).fans = s.fans := rfl
@[simp] theorem modRelay_adc (n : Fin 48) (f : Relay → Relay) : (modRelay n f s).adc = s.adc := rfl
@[simp] theorem modRelay_cmp (n : Fin 48) (f : Relay → Relay) : (modRelay n f s).cmp = s.cmp := rfl
@[simp] theorem modRelay_thm (n : Fin 48) (f : Relay → Relay) : (modRelay n f s).thm = s.thm := rfl
@[simp] theorem modRelay_cal (n : Fin 48) (f : Relay → Relay) : (modRelay n f s).cal = s.cal := rfl
@[simp] theorem modRelay_twb (n : Fin 48) (f : Relay → Relay) : (modRelay n f s).twb = s.twb := rfl
@[simp] theorem modRelay_usb (n : Fin 48) (f : Relay → Relay) : (modRelay n f s).usb = s.usb := rfl
@[simp] theorem modRelay_owl (n : Fin 48) (f : Relay → Relay) : (modRelay n f s).owl = s.owl := rfl

/-! ### modMotor -/

@[simp] theorem modMotor_pending (m : Fin 2) (f : Motor → Motor) : (modMotor m f s).pending = s.pending := rfl
@[simp] theorem modMotor_out (m : Fin 2) (f : Motor → Motor) : (modMotor m f s).out = s.out := rfl
@[simp] theorem modMotor_freeIx (m : Fin 2) (f : Motor → Motor) : (modMotor m f s).freeIx = s.freeIx := rfl
@[simp] theorem modMotor_regs (m : Fin 2) (f : Motor → Motor) : (modMotor m f s).regs = s.regs := rfl
@[simp] theorem modMotor_pwr (m : Fin 2) (f : Motor → Motor) : (modMotor m f s).pwr = s.pwr := rfl
@[simp] theorem modMotor_den (m : Fin 2) (f : Motor → Motor) : (modMotor m f s).den = s.den := rfl
@[simp] theorem modMotor_clk (m : Fin 2) (f : Motor → Motor) : (modMotor m f s).clk = s.clk := rfl
@[simp] theorem modMotor_link (m : Fin 2) (f : Motor → Motor) : (modMotor m f s).link = s.link := rfl
@[simp] theorem modMotor_eng (m : Fin 2) (f : Motor → Motor) : (modMotor m f s).eng = s.eng := rfl
@[simp] theorem modMotor_jnl (m : Fin 2) (f : Motor → Motor) : (modMotor m f s).jnl = s.jnl := rfl
@[simp] theorem modMotor_flt (m : Fin 2) (f : Motor → Motor) : (modMotor m f s).flt = s.flt := rfl
@[simp] theorem modMotor_lanes (m : Fin 2) (f : Motor → Motor) : (modMotor m f s).lanes = s.lanes := rfl
@[simp] theorem modMotor_rails (m : Fin 2) (f : Motor → Motor) : (modMotor m f s).rails = s.rails := rfl
@[simp] theorem modMotor_graphs (m : Fin 2) (f : Motor → Motor) : (modMotor m f s).graphs = s.graphs := rfl
@[simp] theorem modMotor_bud (m : Fin 2) (f : Motor → Motor) : (modMotor m f s).bud = s.bud := rfl
@[simp] theorem modMotor_chg (m : Fin 2) (f : Motor → Motor) : (modMotor m f s).chg = s.chg := rfl
@[simp] theorem modMotor_relays (m : Fin 2) (f : Motor → Motor) : (modMotor m f s).relays = s.relays := rfl
@[simp] theorem modMotor_motors (m : Fin 2) (f : Motor → Motor) : (modMotor m f s).motors = s.motors.set m.val (s.motors[m].map f) m.isLt := rfl
@[simp] theorem modMotor_fans (m : Fin 2) (f : Motor → Motor) : (modMotor m f s).fans = s.fans := rfl
@[simp] theorem modMotor_adc (m : Fin 2) (f : Motor → Motor) : (modMotor m f s).adc = s.adc := rfl
@[simp] theorem modMotor_cmp (m : Fin 2) (f : Motor → Motor) : (modMotor m f s).cmp = s.cmp := rfl
@[simp] theorem modMotor_thm (m : Fin 2) (f : Motor → Motor) : (modMotor m f s).thm = s.thm := rfl
@[simp] theorem modMotor_cal (m : Fin 2) (f : Motor → Motor) : (modMotor m f s).cal = s.cal := rfl
@[simp] theorem modMotor_twb (m : Fin 2) (f : Motor → Motor) : (modMotor m f s).twb = s.twb := rfl
@[simp] theorem modMotor_usb (m : Fin 2) (f : Motor → Motor) : (modMotor m f s).usb = s.usb := rfl
@[simp] theorem modMotor_owl (m : Fin 2) (f : Motor → Motor) : (modMotor m f s).owl = s.owl := rfl

/-! ### modFan -/

@[simp] theorem modFan_pending (k : Fin 4) (f : Fan → Fan) : (modFan k f s).pending = s.pending := rfl
@[simp] theorem modFan_out (k : Fin 4) (f : Fan → Fan) : (modFan k f s).out = s.out := rfl
@[simp] theorem modFan_freeIx (k : Fin 4) (f : Fan → Fan) : (modFan k f s).freeIx = s.freeIx := rfl
@[simp] theorem modFan_regs (k : Fin 4) (f : Fan → Fan) : (modFan k f s).regs = s.regs := rfl
@[simp] theorem modFan_pwr (k : Fin 4) (f : Fan → Fan) : (modFan k f s).pwr = s.pwr := rfl
@[simp] theorem modFan_den (k : Fin 4) (f : Fan → Fan) : (modFan k f s).den = s.den := rfl
@[simp] theorem modFan_clk (k : Fin 4) (f : Fan → Fan) : (modFan k f s).clk = s.clk := rfl
@[simp] theorem modFan_link (k : Fin 4) (f : Fan → Fan) : (modFan k f s).link = s.link := rfl
@[simp] theorem modFan_eng (k : Fin 4) (f : Fan → Fan) : (modFan k f s).eng = s.eng := rfl
@[simp] theorem modFan_jnl (k : Fin 4) (f : Fan → Fan) : (modFan k f s).jnl = s.jnl := rfl
@[simp] theorem modFan_flt (k : Fin 4) (f : Fan → Fan) : (modFan k f s).flt = s.flt := rfl
@[simp] theorem modFan_lanes (k : Fin 4) (f : Fan → Fan) : (modFan k f s).lanes = s.lanes := rfl
@[simp] theorem modFan_rails (k : Fin 4) (f : Fan → Fan) : (modFan k f s).rails = s.rails := rfl
@[simp] theorem modFan_graphs (k : Fin 4) (f : Fan → Fan) : (modFan k f s).graphs = s.graphs := rfl
@[simp] theorem modFan_bud (k : Fin 4) (f : Fan → Fan) : (modFan k f s).bud = s.bud := rfl
@[simp] theorem modFan_chg (k : Fin 4) (f : Fan → Fan) : (modFan k f s).chg = s.chg := rfl
@[simp] theorem modFan_relays (k : Fin 4) (f : Fan → Fan) : (modFan k f s).relays = s.relays := rfl
@[simp] theorem modFan_motors (k : Fin 4) (f : Fan → Fan) : (modFan k f s).motors = s.motors := rfl
@[simp] theorem modFan_fans (k : Fin 4) (f : Fan → Fan) : (modFan k f s).fans = s.fans.set k.val (s.fans[k].map f) k.isLt := rfl
@[simp] theorem modFan_adc (k : Fin 4) (f : Fan → Fan) : (modFan k f s).adc = s.adc := rfl
@[simp] theorem modFan_cmp (k : Fin 4) (f : Fan → Fan) : (modFan k f s).cmp = s.cmp := rfl
@[simp] theorem modFan_thm (k : Fin 4) (f : Fan → Fan) : (modFan k f s).thm = s.thm := rfl
@[simp] theorem modFan_cal (k : Fin 4) (f : Fan → Fan) : (modFan k f s).cal = s.cal := rfl
@[simp] theorem modFan_twb (k : Fin 4) (f : Fan → Fan) : (modFan k f s).twb = s.twb := rfl
@[simp] theorem modFan_usb (k : Fin 4) (f : Fan → Fan) : (modFan k f s).usb = s.usb := rfl
@[simp] theorem modFan_owl (k : Fin 4) (f : Fan → Fan) : (modFan k f s).owl = s.owl := rfl

/-! ### modSeq -/

@[simp] theorem modSeq_pending (q : Fin 8) (f : Seq → Seq) : (modSeq q f s).pending = s.pending := rfl
@[simp] theorem modSeq_out (q : Fin 8) (f : Seq → Seq) : (modSeq q f s).out = s.out := rfl
@[simp] theorem modSeq_freeIx (q : Fin 8) (f : Seq → Seq) : (modSeq q f s).freeIx = s.freeIx := rfl
@[simp] theorem modSeq_regs (q : Fin 8) (f : Seq → Seq) : (modSeq q f s).regs = s.regs := rfl
@[simp] theorem modSeq_pwr (q : Fin 8) (f : Seq → Seq) : (modSeq q f s).pwr = s.pwr := rfl
@[simp] theorem modSeq_den (q : Fin 8) (f : Seq → Seq) : (modSeq q f s).den = s.den := rfl
@[simp] theorem modSeq_clk (q : Fin 8) (f : Seq → Seq) : (modSeq q f s).clk = s.clk := rfl
@[simp] theorem modSeq_link (q : Fin 8) (f : Seq → Seq) : (modSeq q f s).link = s.link := rfl
@[simp] theorem modSeq_eng (q : Fin 8) (f : Seq → Seq) : (modSeq q f s).eng = s.eng := rfl
@[simp] theorem modSeq_jnl (q : Fin 8) (f : Seq → Seq) : (modSeq q f s).jnl = s.jnl := rfl
@[simp] theorem modSeq_flt (q : Fin 8) (f : Seq → Seq) : (modSeq q f s).flt = s.flt := rfl
@[simp] theorem modSeq_lanes (q : Fin 8) (f : Seq → Seq) : (modSeq q f s).lanes = s.lanes := rfl
@[simp] theorem modSeq_rails (q : Fin 8) (f : Seq → Seq) : (modSeq q f s).rails = s.rails := rfl
@[simp] theorem modSeq_graphs (q : Fin 8) (f : Seq → Seq) : (modSeq q f s).graphs = s.graphs := rfl
@[simp] theorem modSeq_bud (q : Fin 8) (f : Seq → Seq) : (modSeq q f s).bud = s.bud := rfl
@[simp] theorem modSeq_chg (q : Fin 8) (f : Seq → Seq) : (modSeq q f s).chg = s.chg := rfl
@[simp] theorem modSeq_relays (q : Fin 8) (f : Seq → Seq) : (modSeq q f s).relays = s.relays := rfl
@[simp] theorem modSeq_motors (q : Fin 8) (f : Seq → Seq) : (modSeq q f s).motors = s.motors := rfl
@[simp] theorem modSeq_fans (q : Fin 8) (f : Seq → Seq) : (modSeq q f s).fans = s.fans := rfl
@[simp] theorem modSeq_adc (q : Fin 8) (f : Seq → Seq) : (modSeq q f s).adc = { s.adc with seqs := s.adc.seqs.set q.val (s.adc.seqs[q].map f) q.isLt } := rfl
@[simp] theorem modSeq_cmp (q : Fin 8) (f : Seq → Seq) : (modSeq q f s).cmp = s.cmp := rfl
@[simp] theorem modSeq_thm (q : Fin 8) (f : Seq → Seq) : (modSeq q f s).thm = s.thm := rfl
@[simp] theorem modSeq_cal (q : Fin 8) (f : Seq → Seq) : (modSeq q f s).cal = s.cal := rfl
@[simp] theorem modSeq_twb (q : Fin 8) (f : Seq → Seq) : (modSeq q f s).twb = s.twb := rfl
@[simp] theorem modSeq_usb (q : Fin 8) (f : Seq → Seq) : (modSeq q f s).usb = s.usb := rfl
@[simp] theorem modSeq_owl (q : Fin 8) (f : Seq → Seq) : (modSeq q f s).owl = s.owl := rfl

/-! ### modConv -/

@[simp] theorem modConv_pending (c : Fin 2) (f : Conv → Conv) : (modConv c f s).pending = s.pending := rfl
@[simp] theorem modConv_out (c : Fin 2) (f : Conv → Conv) : (modConv c f s).out = s.out := rfl
@[simp] theorem modConv_freeIx (c : Fin 2) (f : Conv → Conv) : (modConv c f s).freeIx = s.freeIx := rfl
@[simp] theorem modConv_regs (c : Fin 2) (f : Conv → Conv) : (modConv c f s).regs = s.regs := rfl
@[simp] theorem modConv_pwr (c : Fin 2) (f : Conv → Conv) : (modConv c f s).pwr = s.pwr := rfl
@[simp] theorem modConv_den (c : Fin 2) (f : Conv → Conv) : (modConv c f s).den = s.den := rfl
@[simp] theorem modConv_clk (c : Fin 2) (f : Conv → Conv) : (modConv c f s).clk = s.clk := rfl
@[simp] theorem modConv_link (c : Fin 2) (f : Conv → Conv) : (modConv c f s).link = s.link := rfl
@[simp] theorem modConv_eng (c : Fin 2) (f : Conv → Conv) : (modConv c f s).eng = s.eng := rfl
@[simp] theorem modConv_jnl (c : Fin 2) (f : Conv → Conv) : (modConv c f s).jnl = s.jnl := rfl
@[simp] theorem modConv_flt (c : Fin 2) (f : Conv → Conv) : (modConv c f s).flt = s.flt := rfl
@[simp] theorem modConv_lanes (c : Fin 2) (f : Conv → Conv) : (modConv c f s).lanes = s.lanes := rfl
@[simp] theorem modConv_rails (c : Fin 2) (f : Conv → Conv) : (modConv c f s).rails = s.rails := rfl
@[simp] theorem modConv_graphs (c : Fin 2) (f : Conv → Conv) : (modConv c f s).graphs = s.graphs := rfl
@[simp] theorem modConv_bud (c : Fin 2) (f : Conv → Conv) : (modConv c f s).bud = s.bud := rfl
@[simp] theorem modConv_chg (c : Fin 2) (f : Conv → Conv) : (modConv c f s).chg = s.chg := rfl
@[simp] theorem modConv_relays (c : Fin 2) (f : Conv → Conv) : (modConv c f s).relays = s.relays := rfl
@[simp] theorem modConv_motors (c : Fin 2) (f : Conv → Conv) : (modConv c f s).motors = s.motors := rfl
@[simp] theorem modConv_fans (c : Fin 2) (f : Conv → Conv) : (modConv c f s).fans = s.fans := rfl
@[simp] theorem modConv_adc (c : Fin 2) (f : Conv → Conv) : (modConv c f s).adc = { s.adc with convs := upd s.adc.convs c f } := rfl
@[simp] theorem modConv_cmp (c : Fin 2) (f : Conv → Conv) : (modConv c f s).cmp = s.cmp := rfl
@[simp] theorem modConv_thm (c : Fin 2) (f : Conv → Conv) : (modConv c f s).thm = s.thm := rfl
@[simp] theorem modConv_cal (c : Fin 2) (f : Conv → Conv) : (modConv c f s).cal = s.cal := rfl
@[simp] theorem modConv_twb (c : Fin 2) (f : Conv → Conv) : (modConv c f s).twb = s.twb := rfl
@[simp] theorem modConv_usb (c : Fin 2) (f : Conv → Conv) : (modConv c f s).usb = s.usb := rfl
@[simp] theorem modConv_owl (c : Fin 2) (f : Conv → Conv) : (modConv c f s).owl = s.owl := rfl

/-! ### modPort -/

@[simp] theorem modPort_pending (p : Fin 4) (f : Port → Port) : (modPort p f s).pending = s.pending := rfl
@[simp] theorem modPort_out (p : Fin 4) (f : Port → Port) : (modPort p f s).out = s.out := rfl
@[simp] theorem modPort_freeIx (p : Fin 4) (f : Port → Port) : (modPort p f s).freeIx = s.freeIx := rfl
@[simp] theorem modPort_regs (p : Fin 4) (f : Port → Port) : (modPort p f s).regs = s.regs := rfl
@[simp] theorem modPort_pwr (p : Fin 4) (f : Port → Port) : (modPort p f s).pwr = s.pwr := rfl
@[simp] theorem modPort_den (p : Fin 4) (f : Port → Port) : (modPort p f s).den = s.den := rfl
@[simp] theorem modPort_clk (p : Fin 4) (f : Port → Port) : (modPort p f s).clk = s.clk := rfl
@[simp] theorem modPort_link (p : Fin 4) (f : Port → Port) : (modPort p f s).link = s.link := rfl
@[simp] theorem modPort_eng (p : Fin 4) (f : Port → Port) : (modPort p f s).eng = s.eng := rfl
@[simp] theorem modPort_jnl (p : Fin 4) (f : Port → Port) : (modPort p f s).jnl = s.jnl := rfl
@[simp] theorem modPort_flt (p : Fin 4) (f : Port → Port) : (modPort p f s).flt = s.flt := rfl
@[simp] theorem modPort_lanes (p : Fin 4) (f : Port → Port) : (modPort p f s).lanes = s.lanes := rfl
@[simp] theorem modPort_rails (p : Fin 4) (f : Port → Port) : (modPort p f s).rails = s.rails := rfl
@[simp] theorem modPort_graphs (p : Fin 4) (f : Port → Port) : (modPort p f s).graphs = s.graphs := rfl
@[simp] theorem modPort_bud (p : Fin 4) (f : Port → Port) : (modPort p f s).bud = s.bud := rfl
@[simp] theorem modPort_chg (p : Fin 4) (f : Port → Port) : (modPort p f s).chg = s.chg := rfl
@[simp] theorem modPort_relays (p : Fin 4) (f : Port → Port) : (modPort p f s).relays = s.relays := rfl
@[simp] theorem modPort_motors (p : Fin 4) (f : Port → Port) : (modPort p f s).motors = s.motors := rfl
@[simp] theorem modPort_fans (p : Fin 4) (f : Port → Port) : (modPort p f s).fans = s.fans := rfl
@[simp] theorem modPort_adc (p : Fin 4) (f : Port → Port) : (modPort p f s).adc = s.adc := rfl
@[simp] theorem modPort_cmp (p : Fin 4) (f : Port → Port) : (modPort p f s).cmp = s.cmp := rfl
@[simp] theorem modPort_thm (p : Fin 4) (f : Port → Port) : (modPort p f s).thm = s.thm := rfl
@[simp] theorem modPort_cal (p : Fin 4) (f : Port → Port) : (modPort p f s).cal = s.cal := rfl
@[simp] theorem modPort_twb (p : Fin 4) (f : Port → Port) : (modPort p f s).twb = { s.twb with ports := upd s.twb.ports p f } := rfl
@[simp] theorem modPort_usb (p : Fin 4) (f : Port → Port) : (modPort p f s).usb = s.usb := rfl
@[simp] theorem modPort_owl (p : Fin 4) (f : Port → Port) : (modPort p f s).owl = s.owl := rfl

/-! ### modOwl -/

@[simp] theorem modOwl_pending (o : Fin 2) (f : Owl → Owl) : (modOwl o f s).pending = s.pending := rfl
@[simp] theorem modOwl_out (o : Fin 2) (f : Owl → Owl) : (modOwl o f s).out = s.out := rfl
@[simp] theorem modOwl_freeIx (o : Fin 2) (f : Owl → Owl) : (modOwl o f s).freeIx = s.freeIx := rfl
@[simp] theorem modOwl_regs (o : Fin 2) (f : Owl → Owl) : (modOwl o f s).regs = s.regs := rfl
@[simp] theorem modOwl_pwr (o : Fin 2) (f : Owl → Owl) : (modOwl o f s).pwr = s.pwr := rfl
@[simp] theorem modOwl_den (o : Fin 2) (f : Owl → Owl) : (modOwl o f s).den = s.den := rfl
@[simp] theorem modOwl_clk (o : Fin 2) (f : Owl → Owl) : (modOwl o f s).clk = s.clk := rfl
@[simp] theorem modOwl_link (o : Fin 2) (f : Owl → Owl) : (modOwl o f s).link = s.link := rfl
@[simp] theorem modOwl_eng (o : Fin 2) (f : Owl → Owl) : (modOwl o f s).eng = s.eng := rfl
@[simp] theorem modOwl_jnl (o : Fin 2) (f : Owl → Owl) : (modOwl o f s).jnl = s.jnl := rfl
@[simp] theorem modOwl_flt (o : Fin 2) (f : Owl → Owl) : (modOwl o f s).flt = s.flt := rfl
@[simp] theorem modOwl_lanes (o : Fin 2) (f : Owl → Owl) : (modOwl o f s).lanes = s.lanes := rfl
@[simp] theorem modOwl_rails (o : Fin 2) (f : Owl → Owl) : (modOwl o f s).rails = s.rails := rfl
@[simp] theorem modOwl_graphs (o : Fin 2) (f : Owl → Owl) : (modOwl o f s).graphs = s.graphs := rfl
@[simp] theorem modOwl_bud (o : Fin 2) (f : Owl → Owl) : (modOwl o f s).bud = s.bud := rfl
@[simp] theorem modOwl_chg (o : Fin 2) (f : Owl → Owl) : (modOwl o f s).chg = s.chg := rfl
@[simp] theorem modOwl_relays (o : Fin 2) (f : Owl → Owl) : (modOwl o f s).relays = s.relays := rfl
@[simp] theorem modOwl_motors (o : Fin 2) (f : Owl → Owl) : (modOwl o f s).motors = s.motors := rfl
@[simp] theorem modOwl_fans (o : Fin 2) (f : Owl → Owl) : (modOwl o f s).fans = s.fans := rfl
@[simp] theorem modOwl_adc (o : Fin 2) (f : Owl → Owl) : (modOwl o f s).adc = s.adc := rfl
@[simp] theorem modOwl_cmp (o : Fin 2) (f : Owl → Owl) : (modOwl o f s).cmp = s.cmp := rfl
@[simp] theorem modOwl_thm (o : Fin 2) (f : Owl → Owl) : (modOwl o f s).thm = s.thm := rfl
@[simp] theorem modOwl_cal (o : Fin 2) (f : Owl → Owl) : (modOwl o f s).cal = s.cal := rfl
@[simp] theorem modOwl_twb (o : Fin 2) (f : Owl → Owl) : (modOwl o f s).twb = s.twb := rfl
@[simp] theorem modOwl_usb (o : Fin 2) (f : Owl → Owl) : (modOwl o f s).usb = s.usb := rfl
@[simp] theorem modOwl_owl (o : Fin 2) (f : Owl → Owl) : (modOwl o f s).owl = { s.owl with owls := upd s.owl.owls o f } := rfl

/-! ### modSrc -/

@[simp] theorem modSrc_pending (n : Fin 192) (f : FaultSrc → FaultSrc) : (modSrc n f s).pending = s.pending := rfl
@[simp] theorem modSrc_out (n : Fin 192) (f : FaultSrc → FaultSrc) : (modSrc n f s).out = s.out := rfl
@[simp] theorem modSrc_freeIx (n : Fin 192) (f : FaultSrc → FaultSrc) : (modSrc n f s).freeIx = s.freeIx := rfl
@[simp] theorem modSrc_regs (n : Fin 192) (f : FaultSrc → FaultSrc) : (modSrc n f s).regs = s.regs := rfl
@[simp] theorem modSrc_pwr (n : Fin 192) (f : FaultSrc → FaultSrc) : (modSrc n f s).pwr = s.pwr := rfl
@[simp] theorem modSrc_den (n : Fin 192) (f : FaultSrc → FaultSrc) : (modSrc n f s).den = s.den := rfl
@[simp] theorem modSrc_clk (n : Fin 192) (f : FaultSrc → FaultSrc) : (modSrc n f s).clk = s.clk := rfl
@[simp] theorem modSrc_link (n : Fin 192) (f : FaultSrc → FaultSrc) : (modSrc n f s).link = s.link := rfl
@[simp] theorem modSrc_eng (n : Fin 192) (f : FaultSrc → FaultSrc) : (modSrc n f s).eng = s.eng := rfl
@[simp] theorem modSrc_jnl (n : Fin 192) (f : FaultSrc → FaultSrc) : (modSrc n f s).jnl = s.jnl := rfl
@[simp] theorem modSrc_flt (n : Fin 192) (f : FaultSrc → FaultSrc) : (modSrc n f s).flt = { s.flt with src := upd s.flt.src n f } := rfl
@[simp] theorem modSrc_lanes (n : Fin 192) (f : FaultSrc → FaultSrc) : (modSrc n f s).lanes = s.lanes := rfl
@[simp] theorem modSrc_rails (n : Fin 192) (f : FaultSrc → FaultSrc) : (modSrc n f s).rails = s.rails := rfl
@[simp] theorem modSrc_graphs (n : Fin 192) (f : FaultSrc → FaultSrc) : (modSrc n f s).graphs = s.graphs := rfl
@[simp] theorem modSrc_bud (n : Fin 192) (f : FaultSrc → FaultSrc) : (modSrc n f s).bud = s.bud := rfl
@[simp] theorem modSrc_chg (n : Fin 192) (f : FaultSrc → FaultSrc) : (modSrc n f s).chg = s.chg := rfl
@[simp] theorem modSrc_relays (n : Fin 192) (f : FaultSrc → FaultSrc) : (modSrc n f s).relays = s.relays := rfl
@[simp] theorem modSrc_motors (n : Fin 192) (f : FaultSrc → FaultSrc) : (modSrc n f s).motors = s.motors := rfl
@[simp] theorem modSrc_fans (n : Fin 192) (f : FaultSrc → FaultSrc) : (modSrc n f s).fans = s.fans := rfl
@[simp] theorem modSrc_adc (n : Fin 192) (f : FaultSrc → FaultSrc) : (modSrc n f s).adc = s.adc := rfl
@[simp] theorem modSrc_cmp (n : Fin 192) (f : FaultSrc → FaultSrc) : (modSrc n f s).cmp = s.cmp := rfl
@[simp] theorem modSrc_thm (n : Fin 192) (f : FaultSrc → FaultSrc) : (modSrc n f s).thm = s.thm := rfl
@[simp] theorem modSrc_cal (n : Fin 192) (f : FaultSrc → FaultSrc) : (modSrc n f s).cal = s.cal := rfl
@[simp] theorem modSrc_twb (n : Fin 192) (f : FaultSrc → FaultSrc) : (modSrc n f s).twb = s.twb := rfl
@[simp] theorem modSrc_usb (n : Fin 192) (f : FaultSrc → FaultSrc) : (modSrc n f s).usb = s.usb := rfl
@[simp] theorem modSrc_owl (n : Fin 192) (f : FaultSrc → FaultSrc) : (modSrc n f s).owl = s.owl := rfl

/-! ### modColl -/

@[simp] theorem modColl_pending (c : Fin 2) (f : Collector → Collector) : (modColl c f s).pending = s.pending := rfl
@[simp] theorem modColl_out (c : Fin 2) (f : Collector → Collector) : (modColl c f s).out = s.out := rfl
@[simp] theorem modColl_freeIx (c : Fin 2) (f : Collector → Collector) : (modColl c f s).freeIx = s.freeIx := rfl
@[simp] theorem modColl_regs (c : Fin 2) (f : Collector → Collector) : (modColl c f s).regs = s.regs := rfl
@[simp] theorem modColl_pwr (c : Fin 2) (f : Collector → Collector) : (modColl c f s).pwr = s.pwr := rfl
@[simp] theorem modColl_den (c : Fin 2) (f : Collector → Collector) : (modColl c f s).den = s.den := rfl
@[simp] theorem modColl_clk (c : Fin 2) (f : Collector → Collector) : (modColl c f s).clk = s.clk := rfl
@[simp] theorem modColl_link (c : Fin 2) (f : Collector → Collector) : (modColl c f s).link = s.link := rfl
@[simp] theorem modColl_eng (c : Fin 2) (f : Collector → Collector) : (modColl c f s).eng = s.eng := rfl
@[simp] theorem modColl_jnl (c : Fin 2) (f : Collector → Collector) : (modColl c f s).jnl = s.jnl := rfl
@[simp] theorem modColl_flt (c : Fin 2) (f : Collector → Collector) : (modColl c f s).flt = { s.flt with coll := upd s.flt.coll c f } := rfl
@[simp] theorem modColl_lanes (c : Fin 2) (f : Collector → Collector) : (modColl c f s).lanes = s.lanes := rfl
@[simp] theorem modColl_rails (c : Fin 2) (f : Collector → Collector) : (modColl c f s).rails = s.rails := rfl
@[simp] theorem modColl_graphs (c : Fin 2) (f : Collector → Collector) : (modColl c f s).graphs = s.graphs := rfl
@[simp] theorem modColl_bud (c : Fin 2) (f : Collector → Collector) : (modColl c f s).bud = s.bud := rfl
@[simp] theorem modColl_chg (c : Fin 2) (f : Collector → Collector) : (modColl c f s).chg = s.chg := rfl
@[simp] theorem modColl_relays (c : Fin 2) (f : Collector → Collector) : (modColl c f s).relays = s.relays := rfl
@[simp] theorem modColl_motors (c : Fin 2) (f : Collector → Collector) : (modColl c f s).motors = s.motors := rfl
@[simp] theorem modColl_fans (c : Fin 2) (f : Collector → Collector) : (modColl c f s).fans = s.fans := rfl
@[simp] theorem modColl_adc (c : Fin 2) (f : Collector → Collector) : (modColl c f s).adc = s.adc := rfl
@[simp] theorem modColl_cmp (c : Fin 2) (f : Collector → Collector) : (modColl c f s).cmp = s.cmp := rfl
@[simp] theorem modColl_thm (c : Fin 2) (f : Collector → Collector) : (modColl c f s).thm = s.thm := rfl
@[simp] theorem modColl_cal (c : Fin 2) (f : Collector → Collector) : (modColl c f s).cal = s.cal := rfl
@[simp] theorem modColl_twb (c : Fin 2) (f : Collector → Collector) : (modColl c f s).twb = s.twb := rfl
@[simp] theorem modColl_usb (c : Fin 2) (f : Collector → Collector) : (modColl c f s).usb = s.usb := rfl
@[simp] theorem modColl_owl (c : Fin 2) (f : Collector → Collector) : (modColl c f s).owl = s.owl := rfl

/-! ### The vectors' elements -/

theorem upd_self {α : Type} {n : Nat} (v : Vector α n) (i : Fin n) (f : α → α) : (upd v i f)[i] = f v[i] := by
  simp [upd]

theorem upd_ne {α : Type} {n : Nat} (v : Vector α n) {i j : Fin n} (f : α → α) (h : i ≠ j) : (upd v i f)[j] = v[j] := by
  have h' : i.val ≠ j.val := fun c => h (Fin.ext c)
  simp [upd, Vector.getElem_set_ne, h']

/-! ### The register file -/

theorem spGet_insert {α : Type} (d : Nat → α) (m : Sparse α) (k : Nat) (v : α) : spGet d (spInsert m k v) k = v := by
  induction m with
  | nil => simp [spInsert, spGet]
  | cons x rest ih =>
    unfold spInsert
    split
    · simp [spGet]
    · split
      · simp [spGet]
      · rename_i h1 h2
        simp only [spGet]
        rw [if_neg (fun e => h2 e.symm)]
        exact ih

theorem spGet_insert_ne {α : Type} (d : Nat → α) (m : Sparse α) {k j : Nat} (v : α) (h : k ≠ j) :
    spGet d (spInsert m k v) j = spGet d m j := by
  induction m with
  | nil => simp [spInsert, spGet, h]
  | cons x rest ih =>
    unfold spInsert
    split
    · simp [spGet, h]
    · split
      · rename_i h2; subst h2; simp [spGet, h]
      · simp only [spGet, ih]

theorem spGet_erase_ne {α : Type} (d : Nat → α) (m : Sparse α) {k j : Nat} (h : k ≠ j) :
    spGet d (spErase m k) j = spGet d m j := by
  induction m with
  | nil => rfl
  | cons x rest ih =>
    unfold spErase
    split
    · rename_i h2; subst h2; simp [spGet, h]
    · simp only [spGet, ih]

theorem spGet_above {α : Type} (d : Nat → α) (m : Sparse α) (k : Nat) (h : m.all (fun e => decide (k < e.1)) = true) :
    spGet d m k = d k := by
  induction m with
  | nil => rfl
  | cons x rest ih =>
    simp only [List.all_cons, Bool.and_eq_true, decide_eq_true_eq] at h
    simp only [spGet]
    rw [if_neg (by omega)]
    exact ih h.2

theorem spGet_erase {α : Type} [DecidableEq α] (d : Nat → α) (m : Sparse α) (k : Nat) (h : spWf d m = true) :
    spGet d (spErase m k) k = d k := by
  induction m with
  | nil => rfl
  | cons x rest ih =>
    simp only [spWf, Bool.and_eq_true] at h
    unfold spErase
    split
    · rename_i e; subst e; exact spGet_above d rest _ h.1.2
    · rename_i e
      simp only [spGet]
      rw [if_neg e]
      exact ih h.2

/-- Reading a sparse store back. -/
theorem spGet_set {α : Type} [DecidableEq α] (d : Nat → α) (m : Sparse α) (k : Nat) (v : α) (h : spWf d m = true) :
    spGet d (spSet d m k v) k = v := by
  unfold spSet
  split
  · rename_i e; rw [spGet_erase d m k h, e]
  · exact spGet_insert d m k v

theorem spGet_set_ne {α : Type} [DecidableEq α] (d : Nat → α) (m : Sparse α) {k j : Nat} (v : α) (h : k ≠ j) :
    spGet d (spSet d m k v) j = spGet d m j := by
  unfold spSet
  split
  · exact spGet_erase_ne d m h
  · exact spGet_insert_ne d m v h

theorem reg_setReg (o : Nat) (w : Word) (h : spWf regReset s.regs = true) : reg (setReg o w s) o = w := spGet_set _ _ _ _ h
theorem reg_setReg_ne {o j : Nat} (w : Word) (h : o ≠ j) : reg (setReg o w s) j = reg s j := spGet_set_ne _ _ _ h

end Sys2Proof.Machine
end

