-- ==== Sys2Proof/Laws/Updates.lean ====
section
/-! SUPPORT. What the updaters of single blocks do to each field of the state: one lemma for each pair, true by rfl. -/

namespace Sys2Proof.Machine

variable (s : State)

/-! ### modWm -/

@[simp] theorem modWm_pending (k : Fin 64) (f : Wm → Wm) : (modWm k f s).pending = s.pending := rfl
@[simp] theorem modWm_out (k : Fin 64) (f : Wm → Wm) : (modWm k f s).out = s.out := rfl
@[simp] theorem modWm_freeIx (k : Fin 64) (f : Wm → Wm) : (modWm k f s).freeIx = s.freeIx := rfl
@[simp] theorem modWm_regs (k : Fin 64) (f : Wm → Wm) : (modWm k f s).regs = s.regs := rfl
@[simp] theorem modWm_pwr (k : Fin 64) (f : Wm → Wm) : (modWm k f s).pwr = s.pwr := rfl
@[simp] theorem modWm_den (k : Fin 64) (f : Wm → Wm) : (modWm k f s).den = s.den := rfl
@[simp] theorem modWm_clk (k : Fin 64) (f : Wm → Wm) : (modWm k f s).clk = s.clk := rfl
@[simp] theorem modWm_link (k : Fin 64) (f : Wm → Wm) : (modWm k f s).link = s.link := rfl
@[simp] theorem modWm_eng (k : Fin 64) (f : Wm → Wm) : (modWm k f s).eng = s.eng := rfl
@[simp] theorem modWm_jnl (k : Fin 64) (f : Wm → Wm) : (modWm k f s).jnl = s.jnl := rfl
@[simp] theorem modWm_flt (k : Fin 64) (f : Wm → Wm) : (modWm k f s).flt = s.flt := rfl
@[simp] theorem modWm_lanes (k : Fin 64) (f : Wm → Wm) : (modWm k f s).lanes = s.lanes := rfl
@[simp] theorem modWm_rails (k : Fin 64) (f : Wm → Wm) : (modWm k f s).rails = s.rails := rfl
@[simp] theorem modWm_graphs (k : Fin 64) (f : Wm → Wm) : (modWm k f s).graphs = s.graphs := rfl
@[simp] theorem modWm_bud (k : Fin 64) (f : Wm → Wm) : (modWm k f s).bud = s.bud := rfl
@[simp] theorem modWm_chg (k : Fin 64) (f : Wm → Wm) : (modWm k f s).chg = s.chg := rfl
@[simp] theorem modWm_relays (k : Fin 64) (f : Wm → Wm) : (modWm k f s).relays = s.relays := rfl
@[simp] theorem modWm_motors (k : Fin 64) (f : Wm → Wm) : (modWm k f s).motors = s.motors := rfl
@[simp] theorem modWm_fans (k : Fin 64) (f : Wm → Wm) : (modWm k f s).fans = s.fans := rfl
@[simp] theorem modWm_adc (k : Fin 64) (f : Wm → Wm) : (modWm k f s).adc = s.adc := rfl
@[simp] theorem modWm_cmp (k : Fin 64) (f : Wm → Wm) : (modWm k f s).cmp = { s.cmp with wms := upd s.cmp.wms k f } := rfl
@[simp] theorem modWm_thm (k : Fin 64) (f : Wm → Wm) : (modWm k f s).thm = s.thm := rfl
@[simp] theorem modWm_cal (k : Fin 64) (f : Wm → Wm) : (modWm k f s).cal = s.cal := rfl
@[simp] theorem modWm_twb (k : Fin 64) (f : Wm → Wm) : (modWm k f s).twb = s.twb := rfl
@[simp] theorem modWm_usb (k : Fin 64) (f : Wm → Wm) : (modWm k f s).usb = s.usb := rfl
@[simp] theorem modWm_owl (k : Fin 64) (f : Wm → Wm) : (modWm k f s).owl = s.owl := rfl

/-! ### modFc -/

@[simp] theorem modFc_pending (i : Fin 16) (f : Fc → Fc) : (modFc i f s).pending = s.pending := rfl
@[simp] theorem modFc_out (i : Fin 16) (f : Fc → Fc) : (modFc i f s).out = s.out := rfl
@[simp] theorem modFc_freeIx (i : Fin 16) (f : Fc → Fc) : (modFc i f s).freeIx = s.freeIx := rfl
@[simp] theorem modFc_regs (i : Fin 16) (f : Fc → Fc) : (modFc i f s).regs = s.regs := rfl
@[simp] theorem modFc_pwr (i : Fin 16) (f : Fc → Fc) : (modFc i f s).pwr = s.pwr := rfl
@[simp] theorem modFc_den (i : Fin 16) (f : Fc → Fc) : (modFc i f s).den = s.den := rfl
@[simp] theorem modFc_clk (i : Fin 16) (f : Fc → Fc) : (modFc i f s).clk = s.clk := rfl
@[simp] theorem modFc_link (i : Fin 16) (f : Fc → Fc) : (modFc i f s).link = s.link := rfl
@[simp] theorem modFc_eng (i : Fin 16) (f : Fc → Fc) : (modFc i f s).eng = s.eng := rfl
@[simp] theorem modFc_jnl (i : Fin 16) (f : Fc → Fc) : (modFc i f s).jnl = s.jnl := rfl
@[simp] theorem modFc_flt (i : Fin 16) (f : Fc → Fc) : (modFc i f s).flt = s.flt := rfl
@[simp] theorem modFc_lanes (i : Fin 16) (f : Fc → Fc) : (modFc i f s).lanes = s.lanes := rfl
@[simp] theorem modFc_rails (i : Fin 16) (f : Fc → Fc) : (modFc i f s).rails = s.rails := rfl
@[simp] theorem modFc_graphs (i : Fin 16) (f : Fc → Fc) : (modFc i f s).graphs = s.graphs := rfl
@[simp] theorem modFc_bud (i : Fin 16) (f : Fc → Fc) : (modFc i f s).bud = s.bud := rfl
@[simp] theorem modFc_chg (i : Fin 16) (f : Fc → Fc) : (modFc i f s).chg = s.chg := rfl
@[simp] theorem modFc_relays (i : Fin 16) (f : Fc → Fc) : (modFc i f s).relays = s.relays := rfl
@[simp] theorem modFc_motors (i : Fin 16) (f : Fc → Fc) : (modFc i f s).motors = s.motors := rfl
@[simp] theorem modFc_fans (i : Fin 16) (f : Fc → Fc) : (modFc i f s).fans = s.fans := rfl
@[simp] theorem modFc_adc (i : Fin 16) (f : Fc → Fc) : (modFc i f s).adc = s.adc := rfl
@[simp] theorem modFc_cmp (i : Fin 16) (f : Fc → Fc) : (modFc i f s).cmp = { s.cmp with fcs := upd s.cmp.fcs i f } := rfl
@[simp] theorem modFc_thm (i : Fin 16) (f : Fc → Fc) : (modFc i f s).thm = s.thm := rfl
@[simp] theorem modFc_cal (i : Fin 16) (f : Fc → Fc) : (modFc i f s).cal = s.cal := rfl
@[simp] theorem modFc_twb (i : Fin 16) (f : Fc → Fc) : (modFc i f s).twb = s.twb := rfl
@[simp] theorem modFc_usb (i : Fin 16) (f : Fc → Fc) : (modFc i f s).usb = s.usb := rfl
@[simp] theorem modFc_owl (i : Fin 16) (f : Fc → Fc) : (modFc i f s).owl = s.owl := rfl

/-! ### modTamper -/

@[simp] theorem modTamper_pending (i : Fin 8) (f : TamperIn → TamperIn) : (modTamper i f s).pending = s.pending := rfl
@[simp] theorem modTamper_out (i : Fin 8) (f : TamperIn → TamperIn) : (modTamper i f s).out = s.out := rfl
@[simp] theorem modTamper_freeIx (i : Fin 8) (f : TamperIn → TamperIn) : (modTamper i f s).freeIx = s.freeIx := rfl
@[simp] theorem modTamper_regs (i : Fin 8) (f : TamperIn → TamperIn) : (modTamper i f s).regs = s.regs := rfl
@[simp] theorem modTamper_pwr (i : Fin 8) (f : TamperIn → TamperIn) : (modTamper i f s).pwr = s.pwr := rfl
@[simp] theorem modTamper_den (i : Fin 8) (f : TamperIn → TamperIn) : (modTamper i f s).den = s.den := rfl
@[simp] theorem modTamper_clk (i : Fin 8) (f : TamperIn → TamperIn) : (modTamper i f s).clk = s.clk := rfl
@[simp] theorem modTamper_link (i : Fin 8) (f : TamperIn → TamperIn) : (modTamper i f s).link = s.link := rfl
@[simp] theorem modTamper_eng (i : Fin 8) (f : TamperIn → TamperIn) : (modTamper i f s).eng = s.eng := rfl
@[simp] theorem modTamper_jnl (i : Fin 8) (f : TamperIn → TamperIn) : (modTamper i f s).jnl = s.jnl := rfl
@[simp] theorem modTamper_flt (i : Fin 8) (f : TamperIn → TamperIn) : (modTamper i f s).flt = s.flt := rfl
@[simp] theorem modTamper_lanes (i : Fin 8) (f : TamperIn → TamperIn) : (modTamper i f s).lanes = s.lanes := rfl
@[simp] theorem modTamper_rails (i : Fin 8) (f : TamperIn → TamperIn) : (modTamper i f s).rails = s.rails := rfl
@[simp] theorem modTamper_graphs (i : Fin 8) (f : TamperIn → TamperIn) : (modTamper i f s).graphs = s.graphs := rfl
@[simp] theorem modTamper_bud (i : Fin 8) (f : TamperIn → TamperIn) : (modTamper i f s).bud = s.bud := rfl
@[simp] theorem modTamper_chg (i : Fin 8) (f : TamperIn → TamperIn) : (modTamper i f s).chg = s.chg := rfl
@[simp] theorem modTamper_relays (i : Fin 8) (f : TamperIn → TamperIn) : (modTamper i f s).relays = s.relays := rfl
@[simp] theorem modTamper_motors (i : Fin 8) (f : TamperIn → TamperIn) : (modTamper i f s).motors = s.motors := rfl
@[simp] theorem modTamper_fans (i : Fin 8) (f : TamperIn → TamperIn) : (modTamper i f s).fans = s.fans := rfl
@[simp] theorem modTamper_adc (i : Fin 8) (f : TamperIn → TamperIn) : (modTamper i f s).adc = s.adc := rfl
@[simp] theorem modTamper_cmp (i : Fin 8) (f : TamperIn → TamperIn) : (modTamper i f s).cmp = { s.cmp with tampers := upd s.cmp.tampers i f } := rfl
@[simp] theorem modTamper_thm (i : Fin 8) (f : TamperIn → TamperIn) : (modTamper i f s).thm = s.thm := rfl
@[simp] theorem modTamper_cal (i : Fin 8) (f : TamperIn → TamperIn) : (modTamper i f s).cal = s.cal := rfl
@[simp] theorem modTamper_twb (i : Fin 8) (f : TamperIn → TamperIn) : (modTamper i f s).twb = s.twb := rfl
@[simp] theorem modTamper_usb (i : Fin 8) (f : TamperIn → TamperIn) : (modTamper i f s).usb = s.usb := rfl
@[simp] theorem modTamper_owl (i : Fin 8) (f : TamperIn → TamperIn) : (modTamper i f s).owl = s.owl := rfl

/-! ### modStream -/

@[simp] theorem modStream_pending (k : Fin 4) (f : Stream → Stream) : (modStream k f s).pending = s.pending := rfl
@[simp] theorem modStream_out (k : Fin 4) (f : Stream → Stream) : (modStream k f s).out = s.out := rfl
@[simp] theorem modStream_freeIx (k : Fin 4) (f : Stream → Stream) : (modStream k f s).freeIx = s.freeIx := rfl
@[simp] theorem modStream_regs (k : Fin 4) (f : Stream → Stream) : (modStream k f s).regs = s.regs := rfl
@[simp] theorem modStream_pwr (k : Fin 4) (f : Stream → Stream) : (modStream k f s).pwr = s.pwr := rfl
@[simp] theorem modStream_den (k : Fin 4) (f : Stream → Stream) : (modStream k f s).den = s.den := rfl
@[simp] theorem modStream_clk (k : Fin 4) (f : Stream → Stream) : (modStream k f s).clk = s.clk := rfl
@[simp] theorem modStream_link (k : Fin 4) (f : Stream → Stream) : (modStream k f s).link = s.link := rfl
@[simp] theorem modStream_eng (k : Fin 4) (f : Stream → Stream) : (modStream k f s).eng = s.eng := rfl
@[simp] theorem modStream_jnl (k : Fin 4) (f : Stream → Stream) : (modStream k f s).jnl = s.jnl := rfl
@[simp] theorem modStream_flt (k : Fin 4) (f : Stream → Stream) : (modStream k f s).flt = s.flt := rfl
@[simp] theorem modStream_lanes (k : Fin 4) (f : Stream → Stream) : (modStream k f s).lanes = s.lanes := rfl
@[simp] theorem modStream_rails (k : Fin 4) (f : Stream → Stream) : (modStream k f s).rails = s.rails := rfl
@[simp] theorem modStream_graphs (k : Fin 4) (f : Stream → Stream) : (modStream k f s).graphs = s.graphs := rfl
@[simp] theorem modStream_bud (k : Fin 4) (f : Stream → Stream) : (modStream k f s).bud = s.bud := rfl
@[simp] theorem modStream_chg (k : Fin 4) (f : Stream → Stream) : (modStream k f s).chg = s.chg := rfl
@[simp] theorem modStream_relays (k : Fin 4) (f : Stream → Stream) : (modStream k f s).relays = s.relays := rfl
@[simp] theorem modStream_motors (k : Fin 4) (f : Stream → Stream) : (modStream k f s).motors = s.motors := rfl
@[simp] theorem modStream_fans (k : Fin 4) (f : Stream → Stream) : (modStream k f s).fans = s.fans := rfl
@[simp] theorem modStream_adc (k : Fin 4) (f : Stream → Stream) : (modStream k f s).adc = { s.adc with streams := upd s.adc.streams k f } := rfl
@[simp] theorem modStream_cmp (k : Fin 4) (f : Stream → Stream) : (modStream k f s).cmp = s.cmp := rfl
@[simp] theorem modStream_thm (k : Fin 4) (f : Stream → Stream) : (modStream k f s).thm = s.thm := rfl
@[simp] theorem modStream_cal (k : Fin 4) (f : Stream → Stream) : (modStream k f s).cal = s.cal := rfl
@[simp] theorem modStream_twb (k : Fin 4) (f : Stream → Stream) : (modStream k f s).twb = s.twb := rfl
@[simp] theorem modStream_usb (k : Fin 4) (f : Stream → Stream) : (modStream k f s).usb = s.usb := rfl
@[simp] theorem modStream_owl (k : Fin 4) (f : Stream → Stream) : (modStream k f s).owl = s.owl := rfl

/-! ### modOutSt -/

@[simp] theorem modOutSt_pending (k : Fin 4) (f : OutRing → OutRing) : (modOutSt k f s).pending = s.pending := rfl
@[simp] theorem modOutSt_out (k : Fin 4) (f : OutRing → OutRing) : (modOutSt k f s).out = s.out := rfl
@[simp] theorem modOutSt_freeIx (k : Fin 4) (f : OutRing → OutRing) : (modOutSt k f s).freeIx = s.freeIx := rfl
@[simp] theorem modOutSt_regs (k : Fin 4) (f : OutRing → OutRing) : (modOutSt k f s).regs = s.regs := rfl
@[simp] theorem modOutSt_pwr (k : Fin 4) (f : OutRing → OutRing) : (modOutSt k f s).pwr = s.pwr := rfl
@[simp] theorem modOutSt_den (k : Fin 4) (f : OutRing → OutRing) : (modOutSt k f s).den = s.den := rfl
@[simp] theorem modOutSt_clk (k : Fin 4) (f : OutRing → OutRing) : (modOutSt k f s).clk = s.clk := rfl
@[simp] theorem modOutSt_link (k : Fin 4) (f : OutRing → OutRing) : (modOutSt k f s).link = { s.link with sts := upd s.link.sts k f } := rfl
@[simp] theorem modOutSt_eng (k : Fin 4) (f : OutRing → OutRing) : (modOutSt k f s).eng = s.eng := rfl
@[simp] theorem modOutSt_jnl (k : Fin 4) (f : OutRing → OutRing) : (modOutSt k f s).jnl = s.jnl := rfl
@[simp] theorem modOutSt_flt (k : Fin 4) (f : OutRing → OutRing) : (modOutSt k f s).flt = s.flt := rfl
@[simp] theorem modOutSt_lanes (k : Fin 4) (f : OutRing → OutRing) : (modOutSt k f s).lanes = s.lanes := rfl
@[simp] theorem modOutSt_rails (k : Fin 4) (f : OutRing → OutRing) : (modOutSt k f s).rails = s.rails := rfl
@[simp] theorem modOutSt_graphs (k : Fin 4) (f : OutRing → OutRing) : (modOutSt k f s).graphs = s.graphs := rfl
@[simp] theorem modOutSt_bud (k : Fin 4) (f : OutRing → OutRing) : (modOutSt k f s).bud = s.bud := rfl
@[simp] theorem modOutSt_chg (k : Fin 4) (f : OutRing → OutRing) : (modOutSt k f s).chg = s.chg := rfl
@[simp] theorem modOutSt_relays (k : Fin 4) (f : OutRing → OutRing) : (modOutSt k f s).relays = s.relays := rfl
@[simp] theorem modOutSt_motors (k : Fin 4) (f : OutRing → OutRing) : (modOutSt k f s).motors = s.motors := rfl
@[simp] theorem modOutSt_fans (k : Fin 4) (f : OutRing → OutRing) : (modOutSt k f s).fans = s.fans := rfl
@[simp] theorem modOutSt_adc (k : Fin 4) (f : OutRing → OutRing) : (modOutSt k f s).adc = s.adc := rfl
@[simp] theorem modOutSt_cmp (k : Fin 4) (f : OutRing → OutRing) : (modOutSt k f s).cmp = s.cmp := rfl
@[simp] theorem modOutSt_thm (k : Fin 4) (f : OutRing → OutRing) : (modOutSt k f s).thm = s.thm := rfl
@[simp] theorem modOutSt_cal (k : Fin 4) (f : OutRing → OutRing) : (modOutSt k f s).cal = s.cal := rfl
@[simp] theorem modOutSt_twb (k : Fin 4) (f : OutRing → OutRing) : (modOutSt k f s).twb = s.twb := rfl
@[simp] theorem modOutSt_usb (k : Fin 4) (f : OutRing → OutRing) : (modOutSt k f s).usb = s.usb := rfl
@[simp] theorem modOutSt_owl (k : Fin 4) (f : OutRing → OutRing) : (modOutSt k f s).owl = s.owl := rfl

/-! ### setSeq -/

@[simp] theorem setSeq_pending (q : Fin 8) (x : Option Seq) : (setSeq q x s).pending = s.pending := rfl
@[simp] theorem setSeq_out (q : Fin 8) (x : Option Seq) : (setSeq q x s).out = s.out := rfl
@[simp] theorem setSeq_freeIx (q : Fin 8) (x : Option Seq) : (setSeq q x s).freeIx = s.freeIx := rfl
@[simp] theorem setSeq_regs (q : Fin 8) (x : Option Seq) : (setSeq q x s).regs = s.regs := rfl
@[simp] theorem setSeq_pwr (q : Fin 8) (x : Option Seq) : (setSeq q x s).pwr = s.pwr := rfl
@[simp] theorem setSeq_den (q : Fin 8) (x : Option Seq) : (setSeq q x s).den = s.den := rfl
@[simp] theorem setSeq_clk (q : Fin 8) (x : Option Seq) : (setSeq q x s).clk = s.clk := rfl
@[simp] theorem setSeq_link (q : Fin 8) (x : Option Seq) : (setSeq q x s).link = s.link := rfl
@[simp] theorem setSeq_eng (q : Fin 8) (x : Option Seq) : (setSeq q x s).eng = s.eng := rfl
@[simp] theorem setSeq_jnl (q : Fin 8) (x : Option Seq) : (setSeq q x s).jnl = s.jnl := rfl
@[simp] theorem setSeq_flt (q : Fin 8) (x : Option Seq) : (setSeq q x s).flt = s.flt := rfl
@[simp] theorem setSeq_lanes (q : Fin 8) (x : Option Seq) : (setSeq q x s).lanes = s.lanes := rfl
@[simp] theorem setSeq_rails (q : Fin 8) (x : Option Seq) : (setSeq q x s).rails = s.rails := rfl
@[simp] theorem setSeq_graphs (q : Fin 8) (x : Option Seq) : (setSeq q x s).graphs = s.graphs := rfl
@[simp] theorem setSeq_bud (q : Fin 8) (x : Option Seq) : (setSeq q x s).bud = s.bud := rfl
@[simp] theorem setSeq_chg (q : Fin 8) (x : Option Seq) : (setSeq q x s).chg = s.chg := rfl
@[simp] theorem setSeq_relays (q : Fin 8) (x : Option Seq) : (setSeq q x s).relays = s.relays := rfl
@[simp] theorem setSeq_motors (q : Fin 8) (x : Option Seq) : (setSeq q x s).motors = s.motors := rfl
@[simp] theorem setSeq_fans (q : Fin 8) (x : Option Seq) : (setSeq q x s).fans = s.fans := rfl
@[simp] theorem setSeq_adc (q : Fin 8) (x : Option Seq) : (setSeq q x s).adc = { s.adc with seqs := s.adc.seqs.set q.val x q.isLt } := rfl
@[simp] theorem setSeq_cmp (q : Fin 8) (x : Option Seq) : (setSeq q x s).cmp = s.cmp := rfl
@[simp] theorem setSeq_thm (q : Fin 8) (x : Option Seq) : (setSeq q x s).thm = s.thm := rfl
@[simp] theorem setSeq_cal (q : Fin 8) (x : Option Seq) : (setSeq q x s).cal = s.cal := rfl
@[simp] theorem setSeq_twb (q : Fin 8) (x : Option Seq) : (setSeq q x s).twb = s.twb := rfl
@[simp] theorem setSeq_usb (q : Fin 8) (x : Option Seq) : (setSeq q x s).usb = s.usb := rfl
@[simp] theorem setSeq_owl (q : Fin 8) (x : Option Seq) : (setSeq q x s).owl = s.owl := rfl

/-! ### modCal -/

@[simp] theorem modCal_pending (f : Cal → Cal) : (modCal f s).pending = s.pending := rfl
@[simp] theorem modCal_out (f : Cal → Cal) : (modCal f s).out = s.out := rfl
@[simp] theorem modCal_freeIx (f : Cal → Cal) : (modCal f s).freeIx = s.freeIx := rfl
@[simp] theorem modCal_regs (f : Cal → Cal) : (modCal f s).regs = s.regs := rfl
@[simp] theorem modCal_pwr (f : Cal → Cal) : (modCal f s).pwr = s.pwr := rfl
@[simp] theorem modCal_den (f : Cal → Cal) : (modCal f s).den = s.den := rfl
@[simp] theorem modCal_clk (f : Cal → Cal) : (modCal f s).clk = s.clk := rfl
@[simp] theorem modCal_link (f : Cal → Cal) : (modCal f s).link = s.link := rfl
@[simp] theorem modCal_eng (f : Cal → Cal) : (modCal f s).eng = s.eng := rfl
@[simp] theorem modCal_jnl (f : Cal → Cal) : (modCal f s).jnl = s.jnl := rfl
@[simp] theorem modCal_flt (f : Cal → Cal) : (modCal f s).flt = s.flt := rfl
@[simp] theorem modCal_lanes (f : Cal → Cal) : (modCal f s).lanes = s.lanes := rfl
@[simp] theorem modCal_rails (f : Cal → Cal) : (modCal f s).rails = s.rails := rfl
@[simp] theorem modCal_graphs (f : Cal → Cal) : (modCal f s).graphs = s.graphs := rfl
@[simp] theorem modCal_bud (f : Cal → Cal) : (modCal f s).bud = s.bud := rfl
@[simp] theorem modCal_chg (f : Cal → Cal) : (modCal f s).chg = s.chg := rfl
@[simp] theorem modCal_relays (f : Cal → Cal) : (modCal f s).relays = s.relays := rfl
@[simp] theorem modCal_motors (f : Cal → Cal) : (modCal f s).motors = s.motors := rfl
@[simp] theorem modCal_fans (f : Cal → Cal) : (modCal f s).fans = s.fans := rfl
@[simp] theorem modCal_adc (f : Cal → Cal) : (modCal f s).adc = s.adc := rfl
@[simp] theorem modCal_cmp (f : Cal → Cal) : (modCal f s).cmp = s.cmp := rfl
@[simp] theorem modCal_thm (f : Cal → Cal) : (modCal f s).thm = s.thm := rfl
@[simp] theorem modCal_cal (f : Cal → Cal) : (modCal f s).cal = f s.cal := rfl
@[simp] theorem modCal_twb (f : Cal → Cal) : (modCal f s).twb = s.twb := rfl
@[simp] theorem modCal_usb (f : Cal → Cal) : (modCal f s).usb = s.usb := rfl
@[simp] theorem modCal_owl (f : Cal → Cal) : (modCal f s).owl = s.owl := rfl

/-! ### modDom -/

@[simp] theorem modDom_pending (d : Fin 9) (f : Domain → Domain) : (modDom d f s).pending = s.pending := rfl
@[simp] theorem modDom_out (d : Fin 9) (f : Domain → Domain) : (modDom d f s).out = s.out := rfl
@[simp] theorem modDom_freeIx (d : Fin 9) (f : Domain → Domain) : (modDom d f s).freeIx = s.freeIx := rfl
@[simp] theorem modDom_regs (d : Fin 9) (f : Domain → Domain) : (modDom d f s).regs = s.regs := rfl
@[simp] theorem modDom_pwr (d : Fin 9) (f : Domain → Domain) : (modDom d f s).pwr = s.pwr := rfl
@[simp] theorem modDom_den (d : Fin 9) (f : Domain → Domain) : (modDom d f s).den = s.den := rfl
@[simp] theorem modDom_clk (d : Fin 9) (f : Domain → Domain) : (modDom d f s).clk = { s.clk with domains := upd s.clk.domains d f } := rfl
@[simp] theorem modDom_link (d : Fin 9) (f : Domain → Domain) : (modDom d f s).link = s.link := rfl
@[simp] theorem modDom_eng (d : Fin 9) (f : Domain → Domain) : (modDom d f s).eng = s.eng := rfl
@[simp] theorem modDom_jnl (d : Fin 9) (f : Domain → Domain) : (modDom d f s).jnl = s.jnl := rfl
@[simp] theorem modDom_flt (d : Fin 9) (f : Domain → Domain) : (modDom d f s).flt = s.flt := rfl
@[simp] theorem modDom_lanes (d : Fin 9) (f : Domain → Domain) : (modDom d f s).lanes = s.lanes := rfl
@[simp] theorem modDom_rails (d : Fin 9) (f : Domain → Domain) : (modDom d f s).rails = s.rails := rfl
@[simp] theorem modDom_graphs (d : Fin 9) (f : Domain → Domain) : (modDom d f s).graphs = s.graphs := rfl
@[simp] theorem modDom_bud (d : Fin 9) (f : Domain → Domain) : (modDom d f s).bud = s.bud := rfl
@[simp] theorem modDom_chg (d : Fin 9) (f : Domain → Domain) : (modDom d f s).chg = s.chg := rfl
@[simp] theorem modDom_relays (d : Fin 9) (f : Domain → Domain) : (modDom d f s).relays = s.relays := rfl
@[simp] theorem modDom_motors (d : Fin 9) (f : Domain → Domain) : (modDom d f s).motors = s.motors := rfl
@[simp] theorem modDom_fans (d : Fin 9) (f : Domain → Domain) : (modDom d f s).fans = s.fans := rfl
@[simp] theorem modDom_adc (d : Fin 9) (f : Domain → Domain) : (modDom d f s).adc = s.adc := rfl
@[simp] theorem modDom_cmp (d : Fin 9) (f : Domain → Domain) : (modDom d f s).cmp = s.cmp := rfl
@[simp] theorem modDom_thm (d : Fin 9) (f : Domain → Domain) : (modDom d f s).thm = s.thm := rfl
@[simp] theorem modDom_cal (d : Fin 9) (f : Domain → Domain) : (modDom d f s).cal = s.cal := rfl
@[simp] theorem modDom_twb (d : Fin 9) (f : Domain → Domain) : (modDom d f s).twb = s.twb := rfl
@[simp] theorem modDom_usb (d : Fin 9) (f : Domain → Domain) : (modDom d f s).usb = s.usb := rfl
@[simp] theorem modDom_owl (d : Fin 9) (f : Domain → Domain) : (modDom d f s).owl = s.owl := rfl

/-! ### modSq -/

@[simp] theorem modSq_pending (q : Fin 16) (f : SqRing → SqRing) : (modSq q f s).pending = s.pending := rfl
@[simp] theorem modSq_out (q : Fin 16) (f : SqRing → SqRing) : (modSq q f s).out = s.out := rfl
@[simp] theorem modSq_freeIx (q : Fin 16) (f : SqRing → SqRing) : (modSq q f s).freeIx = s.freeIx := rfl
@[simp] theorem modSq_regs (q : Fin 16) (f : SqRing → SqRing) : (modSq q f s).regs = s.regs := rfl
@[simp] theorem modSq_pwr (q : Fin 16) (f : SqRing → SqRing) : (modSq q f s).pwr = s.pwr := rfl
@[simp] theorem modSq_den (q : Fin 16) (f : SqRing → SqRing) : (modSq q f s).den = s.den := rfl
@[simp] theorem modSq_clk (q : Fin 16) (f : SqRing → SqRing) : (modSq q f s).clk = s.clk := rfl
@[simp] theorem modSq_link (q : Fin 16) (f : SqRing → SqRing) : (modSq q f s).link = { s.link with sqs := upd s.link.sqs q f } := rfl
@[simp] theorem modSq_eng (q : Fin 16) (f : SqRing → SqRing) : (modSq q f s).eng = s.eng := rfl
@[simp] theorem modSq_jnl (q : Fin 16) (f : SqRing → SqRing) : (modSq q f s).jnl = s.jnl := rfl
@[simp] theorem modSq_flt (q : Fin 16) (f : SqRing → SqRing) : (modSq q f s).flt = s.flt := rfl
@[simp] theorem modSq_lanes (q : Fin 16) (f : SqRing → SqRing) : (modSq q f s).lanes = s.lanes := rfl
@[simp] theorem modSq_rails (q : Fin 16) (f : SqRing → SqRing) : (modSq q f s).rails = s.rails := rfl
@[simp] theorem modSq_graphs (q : Fin 16) (f : SqRing → SqRing) : (modSq q f s).graphs = s.graphs := rfl
@[simp] theorem modSq_bud (q : Fin 16) (f : SqRing → SqRing) : (modSq q f s).bud = s.bud := rfl
@[simp] theorem modSq_chg (q : Fin 16) (f : SqRing → SqRing) : (modSq q f s).chg = s.chg := rfl
@[simp] theorem modSq_relays (q : Fin 16) (f : SqRing → SqRing) : (modSq q f s).relays = s.relays := rfl
@[simp] theorem modSq_motors (q : Fin 16) (f : SqRing → SqRing) : (modSq q f s).motors = s.motors := rfl
@[simp] theorem modSq_fans (q : Fin 16) (f : SqRing → SqRing) : (modSq q f s).fans = s.fans := rfl
@[simp] theorem modSq_adc (q : Fin 16) (f : SqRing → SqRing) : (modSq q f s).adc = s.adc := rfl
@[simp] theorem modSq_cmp (q : Fin 16) (f : SqRing → SqRing) : (modSq q f s).cmp = s.cmp := rfl
@[simp] theorem modSq_thm (q : Fin 16) (f : SqRing → SqRing) : (modSq q f s).thm = s.thm := rfl
@[simp] theorem modSq_cal (q : Fin 16) (f : SqRing → SqRing) : (modSq q f s).cal = s.cal := rfl
@[simp] theorem modSq_twb (q : Fin 16) (f : SqRing → SqRing) : (modSq q f s).twb = s.twb := rfl
@[simp] theorem modSq_usb (q : Fin 16) (f : SqRing → SqRing) : (modSq q f s).usb = s.usb := rfl
@[simp] theorem modSq_owl (q : Fin 16) (f : SqRing → SqRing) : (modSq q f s).owl = s.owl := rfl

/-! ### modKey -/

@[simp] theorem modKey_pending (k : Fin 4) (f : KeySlot → KeySlot) : (modKey k f s).pending = s.pending := rfl
@[simp] theorem modKey_out (k : Fin 4) (f : KeySlot → KeySlot) : (modKey k f s).out = s.out := rfl
@[simp] theorem modKey_freeIx (k : Fin 4) (f : KeySlot → KeySlot) : (modKey k f s).freeIx = s.freeIx := rfl
@[simp] theorem modKey_regs (k : Fin 4) (f : KeySlot → KeySlot) : (modKey k f s).regs = s.regs := rfl
@[simp] theorem modKey_pwr (k : Fin 4) (f : KeySlot → KeySlot) : (modKey k f s).pwr = s.pwr := rfl
@[simp] theorem modKey_den (k : Fin 4) (f : KeySlot → KeySlot) : (modKey k f s).den = s.den := rfl
@[simp] theorem modKey_clk (k : Fin 4) (f : KeySlot → KeySlot) : (modKey k f s).clk = s.clk := rfl
@[simp] theorem modKey_link (k : Fin 4) (f : KeySlot → KeySlot) : (modKey k f s).link = s.link := rfl
@[simp] theorem modKey_eng (k : Fin 4) (f : KeySlot → KeySlot) : (modKey k f s).eng = { s.eng with keys := upd s.eng.keys k f } := rfl
@[simp] theorem modKey_jnl (k : Fin 4) (f : KeySlot → KeySlot) : (modKey k f s).jnl = s.jnl := rfl
@[simp] theorem modKey_flt (k : Fin 4) (f : KeySlot → KeySlot) : (modKey k f s).flt = s.flt := rfl
@[simp] theorem modKey_lanes (k : Fin 4) (f : KeySlot → KeySlot) : (modKey k f s).lanes = s.lanes := rfl
@[simp] theorem modKey_rails (k : Fin 4) (f : KeySlot → KeySlot) : (modKey k f s).rails = s.rails := rfl
@[simp] theorem modKey_graphs (k : Fin 4) (f : KeySlot → KeySlot) : (modKey k f s).graphs = s.graphs := rfl
@[simp] theorem modKey_bud (k : Fin 4) (f : KeySlot → KeySlot) : (modKey k f s).bud = s.bud := rfl
@[simp] theorem modKey_chg (k : Fin 4) (f : KeySlot → KeySlot) : (modKey k f s).chg = s.chg := rfl
@[simp] theorem modKey_relays (k : Fin 4) (f : KeySlot → KeySlot) : (modKey k f s).relays = s.relays := rfl
@[simp] theorem modKey_motors (k : Fin 4) (f : KeySlot → KeySlot) : (modKey k f s).motors = s.motors := rfl
@[simp] theorem modKey_fans (k : Fin 4) (f : KeySlot → KeySlot) : (modKey k f s).fans = s.fans := rfl
@[simp] theorem modKey_adc (k : Fin 4) (f : KeySlot → KeySlot) : (modKey k f s).adc = s.adc := rfl
@[simp] theorem modKey_cmp (k : Fin 4) (f : KeySlot → KeySlot) : (modKey k f s).cmp = s.cmp := rfl
@[simp] theorem modKey_thm (k : Fin 4) (f : KeySlot → KeySlot) : (modKey k f s).thm = s.thm := rfl
@[simp] theorem modKey_cal (k : Fin 4) (f : KeySlot → KeySlot) : (modKey k f s).cal = s.cal := rfl
@[simp] theorem modKey_twb (k : Fin 4) (f : KeySlot → KeySlot) : (modKey k f s).twb = s.twb := rfl
@[simp] theorem modKey_usb (k : Fin 4) (f : KeySlot → KeySlot) : (modKey k f s).usb = s.usb := rfl
@[simp] theorem modKey_owl (k : Fin 4) (f : KeySlot → KeySlot) : (modKey k f s).owl = s.owl := rfl

/-! ### modItem -/

@[simp] theorem modItem_pending (a : Word) (f : Item → Item) : (modItem a f s).pending = s.pending := rfl
@[simp] theorem modItem_out (a : Word) (f : Item → Item) : (modItem a f s).out = s.out := rfl
@[simp] theorem modItem_freeIx (a : Word) (f : Item → Item) : (modItem a f s).freeIx = s.freeIx := rfl
@[simp] theorem modItem_regs (a : Word) (f : Item → Item) : (modItem a f s).regs = s.regs := rfl
@[simp] theorem modItem_pwr (a : Word) (f : Item → Item) : (modItem a f s).pwr = s.pwr := rfl
@[simp] theorem modItem_den (a : Word) (f : Item → Item) : (modItem a f s).den = s.den := rfl
@[simp] theorem modItem_clk (a : Word) (f : Item → Item) : (modItem a f s).clk = s.clk := rfl
@[simp] theorem modItem_link (a : Word) (f : Item → Item) : (modItem a f s).link = s.link := rfl
@[simp] theorem modItem_eng (a : Word) (f : Item → Item) : (modItem a f s).eng = { s.eng with items := s.eng.items.map (fun i => if i.aseq = a then f i else i) } := rfl
@[simp] theorem modItem_jnl (a : Word) (f : Item → Item) : (modItem a f s).jnl = s.jnl := rfl
@[simp] theorem modItem_flt (a : Word) (f : Item → Item) : (modItem a f s).flt = s.flt := rfl
@[simp] theorem modItem_lanes (a : Word) (f : Item → Item) : (modItem a f s).lanes = s.lanes := rfl
@[simp] theorem modItem_rails (a : Word) (f : Item → Item) : (modItem a f s).rails = s.rails := rfl
@[simp] theorem modItem_graphs (a : Word) (f : Item → Item) : (modItem a f s).graphs = s.graphs := rfl
@[simp] theorem modItem_bud (a : Word) (f : Item → Item) : (modItem a f s).bud = s.bud := rfl
@[simp] theorem modItem_chg (a : Word) (f : Item → Item) : (modItem a f s).chg = s.chg := rfl
@[simp] theorem modItem_relays (a : Word) (f : Item → Item) : (modItem a f s).relays = s.relays := rfl
@[simp] theorem modItem_motors (a : Word) (f : Item → Item) : (modItem a f s).motors = s.motors := rfl
@[simp] theorem modItem_fans (a : Word) (f : Item → Item) : (modItem a f s).fans = s.fans := rfl
@[simp] theorem modItem_adc (a : Word) (f : Item → Item) : (modItem a f s).adc = s.adc := rfl
@[simp] theorem modItem_cmp (a : Word) (f : Item → Item) : (modItem a f s).cmp = s.cmp := rfl
@[simp] theorem modItem_thm (a : Word) (f : Item → Item) : (modItem a f s).thm = s.thm := rfl
@[simp] theorem modItem_cal (a : Word) (f : Item → Item) : (modItem a f s).cal = s.cal := rfl
@[simp] theorem modItem_twb (a : Word) (f : Item → Item) : (modItem a f s).twb = s.twb := rfl
@[simp] theorem modItem_usb (a : Word) (f : Item → Item) : (modItem a f s).usb = s.usb := rfl
@[simp] theorem modItem_owl (a : Word) (f : Item → Item) : (modItem a f s).owl = s.owl := rfl

/-! ### setArmed -/

@[simp] theorem setArmed_pending (k : Fin 64) (x : Option ArmedSlot) : (setArmed k x s).pending = s.pending := rfl
@[simp] theorem setArmed_out (k : Fin 64) (x : Option ArmedSlot) : (setArmed k x s).out = s.out := rfl
@[simp] theorem setArmed_freeIx (k : Fin 64) (x : Option ArmedSlot) : (setArmed k x s).freeIx = s.freeIx := rfl
@[simp] theorem setArmed_regs (k : Fin 64) (x : Option ArmedSlot) : (setArmed k x s).regs = s.regs := rfl
@[simp] theorem setArmed_pwr (k : Fin 64) (x : Option ArmedSlot) : (setArmed k x s).pwr = s.pwr := rfl
@[simp] theorem setArmed_den (k : Fin 64) (x : Option ArmedSlot) : (setArmed k x s).den = s.den := rfl
@[simp] theorem setArmed_clk (k : Fin 64) (x : Option ArmedSlot) : (setArmed k x s).clk = s.clk := rfl
@[simp] theorem setArmed_link (k : Fin 64) (x : Option ArmedSlot) : (setArmed k x s).link = s.link := rfl
@[simp] theorem setArmed_eng (k : Fin 64) (x : Option ArmedSlot) : (setArmed k x s).eng = { s.eng with armed := s.eng.armed.set k.val x k.isLt } := rfl
@[simp] theorem setArmed_jnl (k : Fin 64) (x : Option ArmedSlot) : (setArmed k x s).jnl = s.jnl := rfl
@[simp] theorem setArmed_flt (k : Fin 64) (x : Option ArmedSlot) : (setArmed k x s).flt = s.flt := rfl
@[simp] theorem setArmed_lanes (k : Fin 64) (x : Option ArmedSlot) : (setArmed k x s).lanes = s.lanes := rfl
@[simp] theorem setArmed_rails (k : Fin 64) (x : Option ArmedSlot) : (setArmed k x s).rails = s.rails := rfl
@[simp] theorem setArmed_graphs (k : Fin 64) (x : Option ArmedSlot) : (setArmed k x s).graphs = s.graphs := rfl
@[simp] theorem setArmed_bud (k : Fin 64) (x : Option ArmedSlot) : (setArmed k x s).bud = s.bud := rfl
@[simp] theorem setArmed_chg (k : Fin 64) (x : Option ArmedSlot) : (setArmed k x s).chg = s.chg := rfl
@[simp] theorem setArmed_relays (k : Fin 64) (x : Option ArmedSlot) : (setArmed k x s).relays = s.relays := rfl
@[simp] theorem setArmed_motors (k : Fin 64) (x : Option ArmedSlot) : (setArmed k x s).motors = s.motors := rfl
@[simp] theorem setArmed_fans (k : Fin 64) (x : Option ArmedSlot) : (setArmed k x s).fans = s.fans := rfl
@[simp] theorem setArmed_adc (k : Fin 64) (x : Option ArmedSlot) : (setArmed k x s).adc = s.adc := rfl
@[simp] theorem setArmed_cmp (k : Fin 64) (x : Option ArmedSlot) : (setArmed k x s).cmp = s.cmp := rfl
@[simp] theorem setArmed_thm (k : Fin 64) (x : Option ArmedSlot) : (setArmed k x s).thm = s.thm := rfl
@[simp] theorem setArmed_cal (k : Fin 64) (x : Option ArmedSlot) : (setArmed k x s).cal = s.cal := rfl
@[simp] theorem setArmed_twb (k : Fin 64) (x : Option ArmedSlot) : (setArmed k x s).twb = s.twb := rfl
@[simp] theorem setArmed_usb (k : Fin 64) (x : Option ArmedSlot) : (setArmed k x s).usb = s.usb := rfl
@[simp] theorem setArmed_owl (k : Fin 64) (x : Option ArmedSlot) : (setArmed k x s).owl = s.owl := rfl

/-! ### setPartner -/

@[simp] theorem setPartner_pending (k : Nat) (x : Option Partner) : (setPartner k x s).pending = s.pending := rfl
@[simp] theorem setPartner_out (k : Nat) (x : Option Partner) : (setPartner k x s).out = s.out := rfl
@[simp] theorem setPartner_freeIx (k : Nat) (x : Option Partner) : (setPartner k x s).freeIx = s.freeIx := rfl
@[simp] theorem setPartner_regs (k : Nat) (x : Option Partner) : (setPartner k x s).regs = s.regs := rfl
@[simp] theorem setPartner_pwr (k : Nat) (x : Option Partner) : (setPartner k x s).pwr = s.pwr := rfl
@[simp] theorem setPartner_den (k : Nat) (x : Option Partner) : (setPartner k x s).den = s.den := rfl
@[simp] theorem setPartner_clk (k : Nat) (x : Option Partner) : (setPartner k x s).clk = s.clk := rfl
@[simp] theorem setPartner_link (k : Nat) (x : Option Partner) : (setPartner k x s).link = s.link := rfl
@[simp] theorem setPartner_eng (k : Nat) (x : Option Partner) : (setPartner k x s).eng = s.eng := rfl
@[simp] theorem setPartner_jnl (k : Nat) (x : Option Partner) : (setPartner k x s).jnl = s.jnl := rfl
@[simp] theorem setPartner_flt (k : Nat) (x : Option Partner) : (setPartner k x s).flt = s.flt := rfl
@[simp] theorem setPartner_lanes (k : Nat) (x : Option Partner) : (setPartner k x s).lanes = s.lanes := rfl
@[simp] theorem setPartner_rails (k : Nat) (x : Option Partner) : (setPartner k x s).rails = s.rails := rfl
@[simp] theorem setPartner_graphs (k : Nat) (x : Option Partner) : (setPartner k x s).graphs = s.graphs := rfl
@[simp] theorem setPartner_bud (k : Nat) (x : Option Partner) : (setPartner k x s).bud = s.bud := rfl
@[simp] theorem setPartner_chg (k : Nat) (x : Option Partner) : (setPartner k x s).chg = s.chg := rfl
@[simp] theorem setPartner_relays (k : Nat) (x : Option Partner) : (setPartner k x s).relays = s.relays := rfl
@[simp] theorem setPartner_motors (k : Nat) (x : Option Partner) : (setPartner k x s).motors = s.motors := rfl
@[simp] theorem setPartner_fans (k : Nat) (x : Option Partner) : (setPartner k x s).fans = s.fans := rfl
@[simp] theorem setPartner_adc (k : Nat) (x : Option Partner) : (setPartner k x s).adc = s.adc := rfl
@[simp] theorem setPartner_cmp (k : Nat) (x : Option Partner) : (setPartner k x s).cmp = s.cmp := rfl
@[simp] theorem setPartner_thm (k : Nat) (x : Option Partner) : (setPartner k x s).thm = s.thm := rfl
@[simp] theorem setPartner_cal (k : Nat) (x : Option Partner) : (setPartner k x s).cal = s.cal := rfl
@[simp] theorem setPartner_twb (k : Nat) (x : Option Partner) : (setPartner k x s).twb = { s.twb with partners := spSet (fun _ => none) s.twb.partners k x } := rfl
@[simp] theorem setPartner_usb (k : Nat) (x : Option Partner) : (setPartner k x s).usb = s.usb := rfl
@[simp] theorem setPartner_owl (k : Nat) (x : Option Partner) : (setPartner k x s).owl = s.owl := rfl

/-! ### setRule -/

@[simp] theorem setRule_pending (r : Fin 32) (x : Option Rule) : (setRule r x s).pending = s.pending := rfl
@[simp] theorem setRule_out (r : Fin 32) (x : Option Rule) : (setRule r x s).out = s.out := rfl
@[simp] theorem setRule_freeIx (r : Fin 32) (x : Option Rule) : (setRule r x s).freeIx = s.freeIx := rfl
@[simp] theorem setRule_regs (r : Fin 32) (x : Option Rule) : (setRule r x s).regs = s.regs := rfl
@[simp] theorem setRule_pwr (r : Fin 32) (x : Option Rule) : (setRule r x s).pwr = s.pwr := rfl
@[simp] theorem setRule_den (r : Fin 32) (x : Option Rule) : (setRule r x s).den = s.den := rfl
@[simp] theorem setRule_clk (r : Fin 32) (x : Option Rule) : (setRule r x s).clk = s.clk := rfl
@[simp] theorem setRule_link (r : Fin 32) (x : Option Rule) : (setRule r x s).link = s.link := rfl
@[simp] theorem setRule_eng (r : Fin 32) (x : Option Rule) : (setRule r x s).eng = s.eng := rfl
@[simp] theorem setRule_jnl (r : Fin 32) (x : Option Rule) : (setRule r x s).jnl = s.jnl := rfl
@[simp] theorem setRule_flt (r : Fin 32) (x : Option Rule) : (setRule r x s).flt = s.flt := rfl
@[simp] theorem setRule_lanes (r : Fin 32) (x : Option Rule) : (setRule r x s).lanes = s.lanes := rfl
@[simp] theorem setRule_rails (r : Fin 32) (x : Option Rule) : (setRule r x s).rails = s.rails := rfl
@[simp] theorem setRule_graphs (r : Fin 32) (x : Option Rule) : (setRule r x s).graphs = s.graphs := rfl
@[simp] theorem setRule_bud (r : Fin 32) (x : Option Rule) : (setRule r x s).bud = s.bud := rfl
@[simp] theorem setRule_chg (r : Fin 32) (x : Option Rule) : (setRule r x s).chg = s.chg := rfl
@[simp] theorem setRule_relays (r : Fin 32) (x : Option Rule) : (setRule r x s).relays = s.relays := rfl
@[simp] theorem setRule_motors (r : Fin 32) (x : Option Rule) : (setRule r x s).motors = s.motors := rfl
@[simp] theorem setRule_fans (r : Fin 32) (x : Option Rule) : (setRule r x s).fans = s.fans := rfl
@[simp] theorem setRule_adc (r : Fin 32) (x : Option Rule) : (setRule r x s).adc = s.adc := rfl
@[simp] theorem setRule_cmp (r : Fin 32) (x : Option Rule) : (setRule r x s).cmp = s.cmp := rfl
@[simp] theorem setRule_thm (r : Fin 32) (x : Option Rule) : (setRule r x s).thm = { s.thm with rules := s.thm.rules.set r.val x r.isLt } := rfl
@[simp] theorem setRule_cal (r : Fin 32) (x : Option Rule) : (setRule r x s).cal = s.cal := rfl
@[simp] theorem setRule_twb (r : Fin 32) (x : Option Rule) : (setRule r x s).twb = s.twb := rfl
@[simp] theorem setRule_usb (r : Fin 32) (x : Option Rule) : (setRule r x s).usb = s.usb := rfl
@[simp] theorem setRule_owl (r : Fin 32) (x : Option Rule) : (setRule r x s).owl = s.owl := rfl

/-! ### setSensor -/

@[simp] theorem setSensor_pending (i : Fin 32) (x : Sensor) : (setSensor i x s).pending = s.pending := rfl
@[simp] theorem setSensor_out (i : Fin 32) (x : Sensor) : (setSensor i x s).out = s.out := rfl
@[simp] theorem setSensor_freeIx (i : Fin 32) (x : Sensor) : (setSensor i x s).freeIx = s.freeIx := rfl
@[simp] theorem setSensor_regs (i : Fin 32) (x : Sensor) : (setSensor i x s).regs = s.regs := rfl
@[simp] theorem setSensor_pwr (i : Fin 32) (x : Sensor) : (setSensor i x s).pwr = s.pwr := rfl
@[simp] theorem setSensor_den (i : Fin 32) (x : Sensor) : (setSensor i x s).den = s.den := rfl
@[simp] theorem setSensor_clk (i : Fin 32) (x : Sensor) : (setSensor i x s).clk = s.clk := rfl
@[simp] theorem setSensor_link (i : Fin 32) (x : Sensor) : (setSensor i x s).link = s.link := rfl
@[simp] theorem setSensor_eng (i : Fin 32) (x : Sensor) : (setSensor i x s).eng = s.eng := rfl
@[simp] theorem setSensor_jnl (i : Fin 32) (x : Sensor) : (setSensor i x s).jnl = s.jnl := rfl
@[simp] theorem setSensor_flt (i : Fin 32) (x : Sensor) : (setSensor i x s).flt = s.flt := rfl
@[simp] theorem setSensor_lanes (i : Fin 32) (x : Sensor) : (setSensor i x s).lanes = s.lanes := rfl
@[simp] theorem setSensor_rails (i : Fin 32) (x : Sensor) : (setSensor i x s).rails = s.rails := rfl
@[simp] theorem setSensor_graphs (i : Fin 32) (x : Sensor) : (setSensor i x s).graphs = s.graphs := rfl
@[simp] theorem setSensor_bud (i : Fin 32) (x : Sensor) : (setSensor i x s).bud = s.bud := rfl
@[simp] theorem setSensor_chg (i : Fin 32) (x : Sensor) : (setSensor i x s).chg = s.chg := rfl
@[simp] theorem setSensor_relays (i : Fin 32) (x : Sensor) : (setSensor i x s).relays = s.relays := rfl
@[simp] theorem setSensor_motors (i : Fin 32) (x : Sensor) : (setSensor i x s).motors = s.motors := rfl
@[simp] theorem setSensor_fans (i : Fin 32) (x : Sensor) : (setSensor i x s).fans = s.fans := rfl
@[simp] theorem setSensor_adc (i : Fin 32) (x : Sensor) : (setSensor i x s).adc = s.adc := rfl
@[simp] theorem setSensor_cmp (i : Fin 32) (x : Sensor) : (setSensor i x s).cmp = s.cmp := rfl
@[simp] theorem setSensor_thm (i : Fin 32) (x : Sensor) : (setSensor i x s).thm = { s.thm with sensors := s.thm.sensors.set i.val x i.isLt } := rfl
@[simp] theorem setSensor_cal (i : Fin 32) (x : Sensor) : (setSensor i x s).cal = s.cal := rfl
@[simp] theorem setSensor_twb (i : Fin 32) (x : Sensor) : (setSensor i x s).twb = s.twb := rfl
@[simp] theorem setSensor_usb (i : Fin 32) (x : Sensor) : (setSensor i x s).usb = s.usb := rfl
@[simp] theorem setSensor_owl (i : Fin 32) (x : Sensor) : (setSensor i x s).owl = s.owl := rfl

end Sys2Proof.Machine
end

