-- ==== Sys2Proof/Laws/Within.lean ====
section
/-! SUPPORT. What an operation of the hub may do to the state: the relation `Within`, and its lemma for each plain
updater. `Within L s t` says that `t` differs from `s` in the parts of mask `L` alone, that the queue stands, that fused
keys and sent outputs stand, and that `t` is good where `s` is. The lemma of an operation `f` is `f_within`: it takes
what stood before `f` and adds what `f` may change. -/

namespace Sys2Proof.Machine

/-! ### Sparse stores keep their form -/

theorem all_lt_trans {α : Type} {m : Sparse α} {j k : Nat} (h : j < k) (g : m.all (fun e => decide (k < e.1)) = true) :
    m.all (fun e => decide (j < e.1)) = true := by
  rw [List.all_eq_true] at *
  intro e he
  have := g e he
  simp only [decide_eq_true_eq] at *
  omega

theorem all_insert {α : Type} {m : Sparse α} {j k : Nat} {v : α} (h : j < k)
    (g : m.all (fun e => decide (j < e.1)) = true) : (spInsert m k v).all (fun e => decide (j < e.1)) = true := by
  induction m with
  | nil => simp [spInsert, h]
  | cons x rest ih =>
    simp only [List.all_cons, Bool.and_eq_true, decide_eq_true_eq] at g
    unfold spInsert
    split
    · simp only [List.all_cons, Bool.and_eq_true, decide_eq_true_eq]; exact ⟨h, g⟩
    · split
      · simp only [List.all_cons, Bool.and_eq_true, decide_eq_true_eq]; exact ⟨h, g.2⟩
      · simp only [List.all_cons, Bool.and_eq_true, decide_eq_true_eq]; exact ⟨g.1, ih g.2⟩

theorem all_erase {α : Type} {m : Sparse α} {p : Nat × α → Bool} {k : Nat} (g : m.all p = true) :
    (spErase m k).all p = true := by
  induction m with
  | nil => rfl
  | cons x rest ih =>
    simp only [List.all_cons, Bool.and_eq_true] at g
    unfold spErase
    split
    · exact g.2
    · simp only [List.all_cons, Bool.and_eq_true]; exact ⟨g.1, ih g.2⟩

theorem rising_insert {α : Type} {m : Sparse α} (k : Nat) (v : α) (h : rising m = true) :
    rising (spInsert m k v) = true := by
  induction m with
  | nil => rfl
  | cons x rest ih =>
    obtain ⟨j, u⟩ := x
    simp only [rising, Bool.and_eq_true] at h
    unfold spInsert
    split
    · rename_i hk
      simp only [rising, Bool.and_eq_true, List.all_cons, decide_eq_true_eq]
      exact ⟨⟨hk, all_lt_trans hk h.1⟩, h⟩
    · split
      · rename_i hk; subst hk
        simp only [rising, Bool.and_eq_true]; exact h
      · simp only [rising, Bool.and_eq_true]
        exact ⟨all_insert (by omega) h.1, ih h.2⟩

theorem rising_erase {α : Type} {m : Sparse α} (k : Nat) (h : rising m = true) : rising (spErase m k) = true := by
  induction m with
  | nil => rfl
  | cons x rest ih =>
    simp only [rising, Bool.and_eq_true] at h
    unfold spErase
    split
    · exact h.2
    · simp only [rising, Bool.and_eq_true]; exact ⟨all_erase h.1, ih h.2⟩

theorem spWf_iff {α : Type} [DecidableEq α] (d : Nat → α) (m : Sparse α) :
    spWf d m = true ↔ rising m = true ∧ m.all (fun e => decide (e.2 ≠ d e.1)) = true := by
  induction m with
  | nil => simp [spWf, rising]
  | cons x rest ih =>
    simp only [spWf, rising, Bool.and_eq_true, List.all_cons, ih]
    tauto

theorem spWf_set {α : Type} [DecidableEq α] (d : Nat → α) (m : Sparse α) (k : Nat) (v : α) (h : spWf d m = true) :
    spWf d (spSet d m k v) = true := by
  rw [spWf_iff] at *
  unfold spSet
  split
  · exact ⟨rising_erase k h.1, all_erase h.2⟩
  · rename_i hv
    refine ⟨rising_insert k v h.1, ?_⟩
    have h2 := h.2
    clear h
    induction m with
    | nil => simp [spInsert, hv]
    | cons x rest ih =>
      simp only [List.all_cons, Bool.and_eq_true] at h2
      unfold spInsert
      split
      · simp only [List.all_cons, Bool.and_eq_true, decide_eq_true_eq]; exact ⟨hv, by simpa using h2.1, by simpa using h2.2⟩
      · split
        · rename_i e; subst e
          simp only [List.all_cons, Bool.and_eq_true]; exact ⟨by simpa using hv, h2.2⟩
        · simp only [List.all_cons, Bool.and_eq_true]; exact ⟨h2.1, ih h2.2⟩

theorem rising_filter {α : Type} {m : Sparse α} (p : Nat × α → Bool) (h : rising m = true) : rising (m.filter p) = true := by
  induction m with
  | nil => rfl
  | cons x rest ih =>
    simp only [rising, Bool.and_eq_true] at h
    rw [List.filter_cons]
    split
    · simp only [rising, Bool.and_eq_true]
      refine ⟨?_, ih h.2⟩
      rw [List.all_eq_true] at *
      intro e he
      exact h.1 e (List.mem_filter.1 he).1
    · exact ih h.2

theorem rising_append {α : Type} {m n : Sparse α} (h : rising m = true) (g : rising n = true)
    (c : ∀ e ∈ m, ∀ f ∈ n, e.1 < f.1) : rising (m ++ n) = true := by
  induction m with
  | nil => exact g
  | cons x rest ih =>
    simp only [rising, Bool.and_eq_true, List.cons_append, List.all_append] at *
    refine ⟨⟨h.1, ?_⟩, ih h.2 (fun e he => c e (List.mem_cons_of_mem _ he))⟩
    rw [List.all_eq_true]
    intro f hf
    exact decide_eq_true (c x List.mem_cons_self f hf)

theorem rising_range_map {α : Type} (f : Nat → α) (b n : Nat) :
    rising ((List.range n).map (fun i => (b + i, f i))) = true := by
  induction n with
  | zero => rfl
  | succ n ih =>
    rw [List.range_succ, List.map_append]
    refine rising_append ih rfl ?_
    intro e he g hg
    simp only [List.mem_map, List.mem_range, List.map_cons, List.map_nil, List.mem_singleton] at he hg
    obtain ⟨i, hi, rfl⟩ := he
    subst hg
    simp only; omega

theorem imageContent_wf (ws : List Word) : spWf (fun _ => 0) (imageContent ws) = true := by
  rw [spWf_iff]
  unfold imageContent
  refine ⟨rising_filter _ ?_, ?_⟩
  · simpa using rising_range_map (fun k => wd ws k) 0 2048
  · rw [List.all_eq_true]
    intro e he
    simpa using (List.mem_filter.1 he).2

theorem rising_flatMap {α : Type} (f : Nat → Sparse α) (w : Nat) (h : ∀ n, rising (f n) = true)
    (b : ∀ n, ∀ e ∈ f n, w * n ≤ e.1 ∧ e.1 < w * n + w) (n : Nat) :
    rising ((List.range n).flatMap f) = true ∧ ∀ e ∈ (List.range n).flatMap f, e.1 < w * n := by
  induction n with
  | zero => exact ⟨rfl, fun e he => by simp at he⟩
  | succ n ih =>
    rw [List.range_succ, List.flatMap_append, List.flatMap_cons, List.flatMap_nil, List.append_nil]
    refine ⟨rising_append ih.1 (h n) (fun e he g hg => ?_), fun e he => ?_⟩
    · have := ih.2 e he; have := (b n g hg).1; omega
    · rw [Nat.mul_succ]
      rcases List.mem_append.1 he with c | c
      · have := ih.2 e c; omega
      · have := (b n e c).2; omega

theorem genGroup_bounds (s : State) (n : Nat) (e : Nat × BitVec 12) (he : e ∈ genGroup s n) :
    (21 * n ≤ e.1 ∧ e.1 < 21 * n + 21) ∧ e.2 ≠ 1 := by
  unfold genGroup at he
  split at he
  · simp at he
  · dsimp only at he
    rw [List.mem_filter, List.mem_map] at he
    obtain ⟨⟨i, hi, rfl⟩, h2⟩ := he
    rw [List.mem_range] at hi
    simp only [Bool.and_eq_true, decide_eq_true_eq] at h2
    exact ⟨⟨by simp only; omega, by simp only; omega⟩, h2.2⟩

theorem gensFrom_wf (s : State) : spWf genReset (gensFrom s) = true := by
  rw [spWf_iff]
  have rise : ∀ n, rising (genGroup s n) = true := by
    intro n
    unfold genGroup
    split
    · rfl
    · exact rising_filter _ (rising_range_map _ _ _)
  refine ⟨(rising_flatMap _ 21 rise (fun n e he => (genGroup_bounds s n e he).1) 32).1, ?_⟩
  rw [List.all_eq_true]
  intro e he
  obtain ⟨n, -, h⟩ := List.mem_flatMap.1 he
  exact decide_eq_true (genGroup_bounds s n e h).2

/-! ### The relation -/

/-- Bit of a part in a mask of parts. -/
def Part.bit : Part → Nat
  | .out => 0 | .regs => 1 | .pwr => 2 | .iface => 3 | .pstate => 4 | .den => 5 | .clk => 6 | .link => 7 | .cfg => 8
  | .hold => 9 | .train => 10 | .sqs => 11 | .cqs => 12 | .eq => 13 | .sts => 14 | .eng => 15 | .items => 16
  | .comps => 17 | .events => 18 | .objects => 19 | .line => 20 | .armed => 21 | .jnl => 22 | .log => 23 | .images => 24
  | .window => 25 | .queue => 26 | .flt => 27 | .lanes => 28 | .rails => 29 | .graphs => 30 | .bud => 31 | .chg => 32
  | .relays => 33 | .motors => 34 | .fans => 35 | .adc => 36 | .cmp => 37 | .thm => 38 | .cal => 39 | .twb => 40
  | .usb => 41 | .owl => 42 | .copies => 43 | .strap => 44 | .causes => 45 | .inputs => 46

def KeyKept (a b : KeySlot) : Prop := a.fused = true → b.fused = true ∧ b.words = a.words

/-- Mask `A` lies within mask `L`. -/
def Sub (A L : Nat) : Prop := A &&& L = A

theorem Sub.le {A B L : Nat} (h : A &&& B = A) (g : Sub B L) : Sub A L := by
  unfold Sub at *
  rw [← h, Nat.and_assoc, g]

/-- Mask `A`, or every part where a shutdown toward BURROW runs downward in `s` (R43): the end of its last run brings
the Den domain down. -/
def orAll (s : State) (A : Nat) : Nat := if s.pwr.burrowing then 0x7fffffffffff else A

theorem orAll_off {s : State} {A : Nat} (h : s.pwr.burrowing = false) : orAll s A = A := by
  unfold orAll
  rw [h]
  rfl

theorem Sub.of {A L : Nat} (h : A &&& L = A) : Sub A L := h

theorem Sub.calm {s : State} {A L : Nat} (hb : s.pwr.burrowing = false) (h : A &&& L = A) : Sub (orAll s A) L := by
  rw [orAll_off hb]
  exact h

theorem Sub.some {s : State} {A B L : Nat} (h : A &&& B = A) (k : A &&& 0x7fffffffffff = A) (g : Sub (orAll s B) L) : Sub A L := by
  unfold orAll at g
  split at g
  · exact Sub.le k g
  · exact Sub.le h g

theorem Sub.both {s : State} {A B L : Nat} (h : A &&& B = A) (g : Sub (orAll s B) L) : Sub (orAll s A) L := by
  cases e : s.pwr.burrowing
  · simp only [orAll, e, Bool.false_eq_true, if_false] at *
    exact Sub.le h g
  · simp only [orAll, e, if_true] at *
    exact g

theorem Sub.any {s : State} {A L : Nat} (h : A &&& 0x7fffffffffff = A) (g : Sub 0x7fffffffffff L) : Sub (orAll s A) L := by
  unfold orAll
  split
  · exact g
  · exact Sub.le h g

theorem Sub.bit {L : Nat} {i : Nat} (h : Sub (2 ^ i) L) : L.testBit i = true := by
  have := congrArg (fun x => Nat.testBit x i) h
  simpa [Nat.testBit_and, Nat.testBit_two_pow_self] using this

def partMask (l : List Part) : Nat := l.foldr (fun p m => 2 ^ p.bit ||| m) 0

def partList : List Part :=
  [.out, .regs, .pwr, .iface, .pstate, .den, .clk, .link, .cfg, .hold, .train, .sqs, .cqs, .eq, .sts, .eng, .items, .comps, .events, .objects, .line, .armed, .jnl, .log, .images, .window, .queue, .flt, .lanes, .rails, .graphs, .bud, .chg, .relays, .motors, .fans, .adc, .cmp, .thm, .cal, .twb, .usb, .owl, .copies, .strap, .causes, .inputs]

theorem Part.at_bit (p : Part) : partList[p.bit]? = some p := by cases p <;> rfl

theorem Part.bit_inj {p q : Part} (h : p.bit = q.bit) : p = q := by
  have e := p.at_bit
  rw [h, q.at_bit] at e
  exact (Option.some.inj e).symm

theorem partMask_append (a b : List Part) : partMask (a ++ b) = partMask a ||| partMask b := by
  induction a with
  | nil => exact (Nat.zero_or _).symm
  | cons p a ih =>
    show 2 ^ p.bit ||| partMask (a ++ b) = (2 ^ p.bit ||| partMask a) ||| partMask b
    rw [ih, Nat.or_assoc]

theorem partMask_records : partMask records = 0xc00040 := by decide
theorem partMask_posts : partMask posts = 0x4a083 := by decide
theorem partMask_finishes : partMask finishes = 0x20000fb90c3 := by decide
theorem partMask_begins : partMask begins = 0x20ea0fb90c3 := by decide
theorem partMask_serves : partMask serves = 0x20ff0ffb0c7 := by decide
theorem partMask_runsEnd : partMask runsEnd = 0x61ff0ffb4d7 := by decide
theorem partMask_raises : partMask raises = 0x73ff8ffb4d7 := by decide
theorem partMask_everything : partMask everything = 0x7fffffffffff := by decide

theorem partMask_off {p : Part} {l : List Part} (h : p ∉ l) : (partMask l).testBit p.bit = false := by
  induction l with
  | nil => exact Nat.zero_testBit _
  | cons q l ih =>
    simp only [List.mem_cons, not_or] at h
    show (2 ^ q.bit ||| partMask l).testBit p.bit = false
    rw [Nat.testBit_or, ih h.2, Nat.testBit_two_pow_of_ne (fun e => h.1 (Part.bit_inj e.symm))]
    rfl

/-- What the hub may do to a state: change the parts in mask `L` alone; leave the queue; draw free values and send
outputs, never take one back; keep the fused keys and the bounds. -/
structure Within (L : Nat) (s t : State) : Prop where
  pending : t.pending = s.pending
  freeIx : s.freeIx ≤ t.freeIx
  sent : s.out <:+ t.out
  keys : ∀ k : Fin 4, KeyKept s.eng.keys[k] t.eng.keys[k]
  good : s.Good → t.Good
  same : ∀ p : Part, L.testBit p.bit = false → p.same s t
  /-- Only what may change every part starts a shutdown toward BURROW. -/
  calm : s.pwr.burrowing = false → t.pwr.burrowing = true → Sub 0x7fffffffffff L

def WithinOut (L : Nat) (s : State) (o : Out) : Prop := ∃ t, o = .next t ∧ Within L s t

theorem WithinOut.frame {l : List Part} {s t : State} {o : Out} (h : WithinOut (partMask l) s o) (e : o = .next t) : Frame l s t := by
  obtain ⟨u, hu, w⟩ := h
  rw [e] at hu
  injection hu with hu
  subst hu
  exact fun p hp => w.same p (partMask_off hp)

theorem WithinOut.next {L : Nat} {s t : State} (h : Within L s t) : WithinOut L s (.next t) := ⟨t, rfl, h⟩

theorem Part.same_refl (p : Part) (s : State) : p.same s s := by
  cases p <;> first | rfl | exact fun _ => ⟨fun _ h => h, id⟩
theorem Part.same_trans {p : Part} {s t u : State} (h : p.same s t) (g : p.same t u) : p.same s u := by
  cases p <;> first
    | exact Eq.trans g h
    | exact fun n => ⟨fun d k => (g n).1 d ((h n).1 d k), fun k => (g n).2 ((h n).2 k)⟩

theorem causes_refl {f : Faults} : f.Holds f := fun _ => ⟨fun _ h => h, id⟩

theorem KeyKept.refl (a : KeySlot) : KeyKept a a := fun h => ⟨h, rfl⟩

theorem Within.refl (L : Nat) (s : State) : Within L s s :=
  ⟨rfl, le_refl _, List.suffix_refl _, fun _ => KeyKept.refl _, id, fun p _ => p.same_refl s,
    fun h g => by rw [h] at g; cases g⟩

theorem Within.trans {L : Nat} {s t u : State} (h : Within L s t) (g : Within L t u) : Within L s u where
  pending := g.pending.trans h.pending
  freeIx := h.freeIx.trans g.freeIx
  sent := h.sent.trans g.sent
  keys := fun k hk => ⟨(g.keys k (h.keys k hk).1).1, (g.keys k (h.keys k hk).1).2.trans (h.keys k hk).2⟩
  good := fun w => g.good (h.good w)
  same := fun p hp => Part.same_trans (h.same p hp) (g.same p hp)
  calm := fun a c => by
    cases d : t.pwr.burrowing
    · exact g.calm d c
    · exact h.calm a d

theorem calm_of {L : Nat} {s t : State} (e : t.pwr = s.pwr) : s.pwr.burrowing = false → t.pwr.burrowing = true → Sub 0x7fffffffffff L :=
  fun a c => by rw [e, a] at c; cases c

theorem full_of {L N : Nat} {s0 s : State} (hs : Within L s0 s) (hb : s.pwr.burrowing = true) (hl : Sub (orAll s0 N) L) :
    Sub 0x7fffffffffff L := by
  unfold orAll at hl
  split at hl
  · exact hl
  · rename_i h
    exact hs.calm (by simpa using h) hb

theorem Within.cut {p : Prop} {L : Nat} {s : State} (x : State) (h : Within L s x) (g : Within L s x → p) : p := g h
theorem Within.cutF {p : Prop} {L : Nat} {s : State} (x : State → State) (h : ∀ t, Within L s t → Within L s (x t))
    (g : (∀ t, Within L s t → Within L s (x t)) → p) : p := g h
theorem Within.cutG {α : Type} {p : Prop} {L : Nat} {s : State} (x : α → State → State)
    (h : ∀ a t, Within L s t → Within L s (x a t)) (g : (∀ a t, Within L s t → Within L s (x a t)) → p) : p := g h
theorem Within.cutH {α : Type} {p : Prop} {L : Nat} {s : State} (x : α → State) (h : ∀ a, Within L s (x a))
    (g : (∀ a, Within L s (x a)) → p) : p := g h

theorem Within.foldl {α : Type} {L : Nat} {s t : State} {f : State → α → State} {l : List α}
    (hf : ∀ u a, Within L s u → Within L s (f u a)) (h : Within L s t) : Within L s (l.foldl f t) := by
  induction l generalizing t with
  | nil => exact h
  | cons a l ih => exact ih (hf t a h)

theorem foldl_within_snd {α β : Type} {L : Nat} {s0 : State} {f : β × State → α → β × State} {l : List α} {x : β × State}
    (hf : ∀ u a, Within L s0 u.2 → Within L s0 (f u a).2) (h : Within L s0 x.2) : Within L s0 (l.foldl f x).2 := by
  induction l generalizing x with
  | nil => exact h
  | cons a l ih => exact ih (hf x a h)
theorem foldl_within_fst {α β : Type} {L : Nat} {s0 : State} {f : State × β → α → State × β} {l : List α} {x : State × β}
    (hf : ∀ u a, Within L s0 u.1 → Within L s0 (f u a).1) (h : Within L s0 x.1) : Within L s0 (l.foldl f x).1 := by
  induction l generalizing x with
  | nil => exact h
  | cons a l ih => exact ih (hf x a h)

theorem Within.ite {c : Prop} [Decidable c] {L : Nat} {s t u : State} (h : Within L s t) (g : Within L s u) :
    Within L s (if c then t else u) := by split <;> assumption

/-! ### One block changes -/

/-- A state that differs from `s` in nothing that `Good`, the keys, the queue or the outputs speak of. -/
structure Plain (s t : State) : Prop where
  pending : t.pending = s.pending
  freeIx : s.freeIx ≤ t.freeIx
  out : t.out = s.out
  keys : t.eng.keys = s.eng.keys
  regs : t.regs = s.regs
  gens : t.eng.gens = s.eng.gens
  partners : t.twb.partners = s.twb.partners
  biWords : t.jnl.biWords = s.jnl.biWords
  image0 : t.jnl.image0 = s.jnl.image0
  image1 : t.jnl.image1 = s.jnl.image1
  bankA : t.jnl.bankA = s.jnl.bankA
  bankB : t.jnl.bankB = s.jnl.bankB
  events : t.eng.events = s.eng.events
  coll : t.flt.coll = s.flt.coll
  recent : t.jnl.recent = s.jnl.recent
  biPtr : t.jnl.biPtr = s.jnl.biPtr
  burrowing : t.pwr.burrowing = s.pwr.burrowing

theorem Plain.good {s t : State} (h : Plain s t) (g : s.Good) : t.Good where
  regs := h.regs ▸ g.regs
  gens := h.gens ▸ g.gens
  partners := h.partners ▸ g.partners
  window := h.biWords ▸ g.window
  image0 := h.image0 ▸ g.image0
  image1 := h.image1 ▸ g.image1
  bankA := h.bankA ▸ g.bankA
  bankB := h.bankB ▸ g.bankB
  events := by unfold heldEvents; rw [h.events]; exact g.events
  faults := fun c => by rw [h.coll]; exact g.faults c
  recent := h.recent ▸ g.recent
  pointer := h.biPtr ▸ g.pointer

theorem Plain.within {L : Nat} {s0 s t : State} (h : Within L s0 s) (g : Plain s t)
    (hp : ∀ p : Part, L.testBit p.bit = false → p.same s t) : Within L s0 t :=
  h.trans ⟨g.pending, g.freeIx, g.out ▸ List.suffix_refl _, fun _ => g.keys ▸ KeyKept.refl _, g.good, hp, fun a c => by rw [g.burrowing, a] at c; cases c⟩

theorem off {L i : Nat} {q : Prop} (h : Sub (2 ^ i) L) (g : L.testBit i = false) : q := by
  rw [h.bit] at g; cases g

theorem off' {L i : Nat} {p q : Prop} (h : p ∨ Sub (2 ^ i) L) (g : L.testBit i = false) (d : p → q) : q :=
  h.elim d (fun h => off h g)

theorem modClk_within {L : Nat} {s0 s : State} (f : Clk → Clk) (hs : Within L s0 s) (hl : Sub 0x40 L) :
    Within L s0 (modClk f s) :=
  Plain.within hs ⟨rfl, le_refl _, rfl, rfl, rfl, rfl, rfl, rfl, rfl, rfl, rfl, rfl, rfl, rfl, rfl, rfl, rfl⟩
    (fun p hp => by cases p <;> first | rfl | exact causes_refl | exact off (i := 6) hl hp)

theorem modCal_within {L : Nat} {s0 s : State} (f : Cal → Cal) (hs : Within L s0 s) (hl : Sub 0x8000000000 L) :
    Within L s0 (modCal f s) :=
  Plain.within hs ⟨rfl, le_refl _, rfl, rfl, rfl, rfl, rfl, rfl, rfl, rfl, rfl, rfl, rfl, rfl, rfl, rfl, rfl⟩
    (fun p hp => by cases p <;> first | rfl | exact causes_refl | exact off (i := 39) hl hp)

theorem modBud_within {L : Nat} {s0 s : State} (f : Budget → Budget) (hs : Within L s0 s) (hl : Sub 0x80000000 L) :
    Within L s0 (modBud f s) :=
  Plain.within hs ⟨rfl, le_refl _, rfl, rfl, rfl, rfl, rfl, rfl, rfl, rfl, rfl, rfl, rfl, rfl, rfl, rfl, rfl⟩
    (fun p hp => by cases p <;> first | rfl | exact causes_refl | exact off (i := 31) hl hp)

theorem modChg_within {L : Nat} {s0 s : State} (f : Charger → Charger) (hs : Within L s0 s) (hl : Sub 0x100000000 L) :
    Within L s0 (modChg f s) :=
  Plain.within hs ⟨rfl, le_refl _, rfl, rfl, rfl, rfl, rfl, rfl, rfl, rfl, rfl, rfl, rfl, rfl, rfl, rfl, rfl⟩
    (fun p hp => by cases p <;> first | rfl | exact causes_refl | exact off (i := 32) hl hp)

theorem modUsb_within {L : Nat} {s0 s : State} (f : Usb → Usb) (hs : Within L s0 s) (hl : Sub 0x20000000000 L) :
    Within L s0 (modUsb f s) :=
  Plain.within hs ⟨rfl, le_refl _, rfl, rfl, rfl, rfl, rfl, rfl, rfl, rfl, rfl, rfl, rfl, rfl, rfl, rfl, rfl⟩
    (fun p hp => by cases p <;> first | rfl | exact causes_refl | exact off (i := 41) hl hp)

theorem modThm_within {L : Nat} {s0 s : State} (f : Thermal → Thermal) (hs : Within L s0 s) (hl : Sub 0x4000000000 L) :
    Within L s0 (modThm f s) :=
  Plain.within hs ⟨rfl, le_refl _, rfl, rfl, rfl, rfl, rfl, rfl, rfl, rfl, rfl, rfl, rfl, rfl, rfl, rfl, rfl⟩
    (fun p hp => by cases p <;> first | rfl | exact causes_refl | exact off (i := 38) hl hp)

theorem modLane_within {L : Nat} {s0 s : State} (n : Fin 48) (f : Lane → Lane) (hs : Within L s0 s) (hl : Sub 0x10000000 L) :
    Within L s0 (modLane n f s) :=
  Plain.within hs ⟨rfl, le_refl _, rfl, rfl, rfl, rfl, rfl, rfl, rfl, rfl, rfl, rfl, rfl, rfl, rfl, rfl, rfl⟩
    (fun p hp => by cases p <;> first | rfl | exact causes_refl | exact off (i := 28) hl hp)

theorem setRail_within {L : Nat} {s0 s : State} (r : Fin 48) (x : Option Rail) (hs : Within L s0 s) (hl : Sub 0x20000000 L) :
    Within L s0 (setRail r x s) :=
  Plain.within hs ⟨rfl, le_refl _, rfl, rfl, rfl, rfl, rfl, rfl, rfl, rfl, rfl, rfl, rfl, rfl, rfl, rfl, rfl⟩
    (fun p hp => by cases p <;> first | rfl | exact causes_refl | exact off (i := 29) hl hp)

theorem setGraph_within {L : Nat} {s0 s : State} (g : Fin 16) (x : Option Graph) (hs : Within L s0 s) (hl : Sub 0x40000000 L) :
    Within L s0 (setGraph g x s) :=
  Plain.within hs ⟨rfl, le_refl _, rfl, rfl, rfl, rfl, rfl, rfl, rfl, rfl, rfl, rfl, rfl, rfl, rfl, rfl, rfl⟩
    (fun p hp => by cases p <;> first | rfl | exact causes_refl | exact off (i := 30) hl hp)

theorem setRelay_within {L : Nat} {s0 s : State} (n : Fin 48) (x : Option Relay) (hs : Within L s0 s) (hl : Sub 0x200000000 L) :
    Within L s0 (setRelay n x s) :=
  Plain.within hs ⟨rfl, le_refl _, rfl, rfl, rfl, rfl, rfl, rfl, rfl, rfl, rfl, rfl, rfl, rfl, rfl, rfl, rfl⟩
    (fun p hp => by cases p <;> first | rfl | exact causes_refl | exact off (i := 33) hl hp)

theorem setMotor_within {L : Nat} {s0 s : State} (m : Fin 2) (x : Option Motor) (hs : Within L s0 s) (hl : Sub 0x400000000 L) :
    Within L s0 (setMotor m x s) :=
  Plain.within hs ⟨rfl, le_refl _, rfl, rfl, rfl, rfl, rfl, rfl, rfl, rfl, rfl, rfl, rfl, rfl, rfl, rfl, rfl⟩
    (fun p hp => by cases p <;> first | rfl | exact causes_refl | exact off (i := 34) hl hp)

theorem setFan_within {L : Nat} {s0 s : State} (k : Fin 4) (x : Option Fan) (hs : Within L s0 s) (hl : Sub 0x800000000 L) :
    Within L s0 (setFan k x s) :=
  Plain.within hs ⟨rfl, le_refl _, rfl, rfl, rfl, rfl, rfl, rfl, rfl, rfl, rfl, rfl, rfl, rfl, rfl, rfl, rfl⟩
    (fun p hp => by cases p <;> first | rfl | exact causes_refl | exact off (i := 35) hl hp)

theorem modSeq_within {L : Nat} {s0 s : State} (q : Fin 8) (f : Seq → Seq) (hs : Within L s0 s) (hl : Sub 0x1000000000 L) :
    Within L s0 (modSeq q f s) :=
  Plain.within hs ⟨rfl, le_refl _, rfl, rfl, rfl, rfl, rfl, rfl, rfl, rfl, rfl, rfl, rfl, rfl, rfl, rfl, rfl⟩
    (fun p hp => by cases p <;> first | rfl | exact causes_refl | exact off (i := 36) hl hp)

theorem modConv_within {L : Nat} {s0 s : State} (c : Fin 2) (f : Conv → Conv) (hs : Within L s0 s) (hl : Sub 0x1000000000 L) :
    Within L s0 (modConv c f s) :=
  Plain.within hs ⟨rfl, le_refl _, rfl, rfl, rfl, rfl, rfl, rfl, rfl, rfl, rfl, rfl, rfl, rfl, rfl, rfl, rfl⟩
    (fun p hp => by cases p <;> first | rfl | exact causes_refl | exact off (i := 36) hl hp)

theorem modPort_within {L : Nat} {s0 s : State} (p : Fin 4) (f : Port → Port) (hs : Within L s0 s) (hl : Sub 0x10000000000 L) :
    Within L s0 (modPort p f s) :=
  Plain.within hs ⟨rfl, le_refl _, rfl, rfl, rfl, rfl, rfl, rfl, rfl, rfl, rfl, rfl, rfl, rfl, rfl, rfl, rfl⟩
    (fun p hp => by cases p <;> first | rfl | exact causes_refl | exact off (i := 40) hl hp)

theorem modOwl_within {L : Nat} {s0 s : State} (o : Fin 2) (f : Owl → Owl) (hs : Within L s0 s) (hl : Sub 0x40000000000 L) :
    Within L s0 (modOwl o f s) :=
  Plain.within hs ⟨rfl, le_refl _, rfl, rfl, rfl, rfl, rfl, rfl, rfl, rfl, rfl, rfl, rfl, rfl, rfl, rfl, rfl⟩
    (fun p hp => by cases p <;> first | rfl | exact causes_refl | exact off (i := 42) hl hp)

theorem modSrc_within {L : Nat} {s0 s : State} (n : Fin 192) (f : FaultSrc → FaultSrc) (hs : Within L s0 s) (hl : Sub 0x8000000 L)
    (h45 : (∀ x, (∀ d, x.latched.getLsbD d = true → (f x).latched.getLsbD d = true) ∧ (x.faulted = true → (f x).faulted = true)) ∨
      Sub 0x200000000000 L) : Within L s0 (modSrc n f s) :=
  Plain.within hs ⟨rfl, le_refl _, rfl, rfl, rfl, rfl, rfl, rfl, rfl, rfl, rfl, rfl, rfl, rfl, rfl, rfl, rfl⟩
    (fun p hp => by
      cases p <;> first
        | rfl | exact off (i := 27) hl hp
        | (refine off' (i := 45) h45 hp (fun h m => ?_)
           show (∀ d, s.flt.src[m].latched.getLsbD d = true → (upd s.flt.src n f)[m].latched.getLsbD d = true) ∧
             (s.flt.src[m].faulted = true → (upd s.flt.src n f)[m].faulted = true)
           unfold upd
           by_cases e : n = m
           · subst e; simpa using h s.flt.src[n]
           · have e' : n.val ≠ m.val := fun c => e (Fin.ext c)
             simp [Vector.getElem_set_ne, e']))

theorem latched_of_eq {f : FaultSrc → FaultSrc} (hl : ∀ x, (f x).latched = x.latched) (hf : ∀ x, (f x).faulted = x.faulted) (x : FaultSrc) :
    (∀ d, x.latched.getLsbD d = true → (f x).latched.getLsbD d = true) ∧ (x.faulted = true → (f x).faulted = true) := by
  rw [hl, hf]; exact ⟨fun _ h => h, id⟩

theorem emit_within {L : Nat} {s0 s : State} (o : Output) (hs : Within L s0 s) (hl : Sub 0x1 L) : Within L s0 (emit o s) :=
  hs.trans ⟨rfl, le_refl _, List.suffix_cons _ _, fun _ => KeyKept.refl _,
    fun g => ⟨g.regs, g.gens, g.partners, g.window, g.image0, g.image1, g.bankA, g.bankB, g.events, g.faults, g.recent, g.pointer⟩,
    fun p hp => by cases p <;> first | rfl | exact causes_refl | exact off (i := 0) hl hp, calm_of rfl⟩

theorem setReg_within {L : Nat} {s0 s : State} (o : Nat) (w : Word) (hs : Within L s0 s) (hl : Sub 0x2 L) :
    Within L s0 (setReg o w s) :=
  hs.trans ⟨rfl, le_refl _, List.suffix_refl _, fun _ => KeyKept.refl _,
    fun g => ⟨spWf_set _ _ _ _ g.regs, g.gens, g.partners, g.window, g.image0, g.image1, g.bankA, g.bankB, g.events, g.faults, g.recent, g.pointer⟩,
    fun p hp => by cases p <;> first | rfl | exact causes_refl | exact off (i := 1) hl hp, calm_of rfl⟩

theorem drawNat_within {L : Nat} {s0 s : State} (hs : Within L s0 s) : Within L s0 (drawNat s).2 :=
  Plain.within hs ⟨rfl, Nat.le_succ _, rfl, rfl, rfl, rfl, rfl, rfl, rfl, rfl, rfl, rfl, rfl, rfl, rfl, rfl, rfl⟩ (fun p _ => by cases p <;> first | rfl | exact causes_refl)
theorem drawWord_within {L : Nat} {s0 s : State} (hs : Within L s0 s) : Within L s0 (drawWord s).2 :=
  Plain.within hs ⟨rfl, Nat.le_succ _, rfl, rfl, rfl, rfl, rfl, rfl, rfl, rfl, rfl, rfl, rfl, rfl, rfl, rfl, rfl⟩ (fun p _ => by cases p <;> first | rfl | exact causes_refl)

theorem modLink_within {L : Nat} {s0 s : State} (f : Link → Link) (hs : Within L s0 s) (hl : Sub 0x80 L)
    (h8 : (∀ l, (f l).cfg = l.cfg) ∨ Sub 0x100 L) (h9 : (∀ l, (f l).holdPart = l.holdPart) ∨ Sub 0x200 L)
    (h10 : (∀ l, (f l).trainPart = l.trainPart) ∨ Sub 0x400 L) (h11 : (∀ l, (f l).sqs = l.sqs) ∨ Sub 0x800 L)
    (h12 : (∀ l, (f l).cqs = l.cqs) ∨ Sub 0x1000 L) (h13 : (∀ l, (f l).eq = l.eq) ∨ Sub 0x2000 L)
    (h14 : (∀ l, (f l).sts = l.sts) ∨ Sub 0x4000 L) : Within L s0 (modLink f s) :=
  Plain.within hs ⟨rfl, le_refl _, rfl, rfl, rfl, rfl, rfl, rfl, rfl, rfl, rfl, rfl, rfl, rfl, rfl, rfl, rfl⟩
    (fun p hp => by
      cases p <;> first
        | rfl | exact causes_refl | exact off (i := 7) hl hp | exact off' (i := 8) h8 hp (fun h => h _) | exact off' (i := 9) h9 hp (fun h => h _)
        | exact off' (i := 10) h10 hp (fun h => h _) | exact off' (i := 11) h11 hp (fun h => h _)
        | exact off' (i := 12) h12 hp (fun h => h _) | exact off' (i := 13) h13 hp (fun h => h _)
        | exact off' (i := 14) h14 hp (fun h => h _))

theorem modPwr_within {L : Nat} {s0 s : State} (f : Power → Power) (hs : Within L s0 s) (hl : Sub 0x4 L)
    (h3 : (∀ l, (f l).iface = l.iface) ∨ Sub 0x8 L) (h4 : (∀ l, (f l).pstate = l.pstate) ∨ Sub 0x10 L)
    (h44 : (∀ l, (f l).strap = l.strap) ∨ Sub 0x100000000000 L)
    (h46 : (∀ l, (f l).inputPart = l.inputPart) ∨ Sub 0x400000000000 L)
    (hb : (∀ l, (f l).burrowing = l.burrowing) ∨ Sub 0x7fffffffffff L) : Within L s0 (modPwr f s) :=
  hs.trans ⟨rfl, le_refl _, List.suffix_refl _, fun _ => KeyKept.refl _,
    fun g => ⟨g.regs, g.gens, g.partners, g.window, g.image0, g.image1, g.bankA, g.bankB, g.events, g.faults, g.recent, g.pointer⟩,
    fun p hp => by
      cases p <;> first
        | rfl | exact causes_refl | exact off (i := 2) hl hp | exact off' (i := 3) h3 hp (fun h => h _) | exact off' (i := 4) h4 hp (fun h => h _)
        | exact off' (i := 44) h44 hp (fun h => h _) | exact off' (i := 46) h46 hp (fun h => h _),
    fun a c => hb.elim (fun h => by rw [show (modPwr f s).pwr.burrowing = s.pwr.burrowing from h _, a] at c; cases c) id⟩

/-- A change of the engine whose keys and bounds are looked after by hand. -/
theorem modEng_within' {L : Nat} {s0 s : State} (f : Engine → Engine) (hs : Within L s0 s) (hl : Sub 0x8000 L)
    (hk : ∀ k : Fin 4, KeyKept s.eng.keys[k] (f s.eng).keys[k]) (hg : s0.Good → s.Good → (modEng f s).Good)
    (h16 : (∀ e, (f e).items = e.items) ∨ Sub 0x10000 L) (h17 : (∀ e, (f e).comps = e.comps) ∨ Sub 0x20000 L)
    (h18 : (∀ e, (f e).eventPart = e.eventPart) ∨ Sub 0x40000 L) (h19 : (∀ e, (f e).objectPart = e.objectPart) ∨ Sub 0x80000 L)
    (h20 : (∀ e, (f e).line = e.line) ∨ Sub 0x100000 L) (h21 : (∀ e, (f e).armed = e.armed) ∨ Sub 0x200000 L) :
    Within L s0 (modEng f s) :=
  ⟨hs.pending, hs.freeIx, hs.sent, fun k h => ⟨(hk k (hs.keys k h).1).1, (hk k (hs.keys k h).1).2.trans (hs.keys k h).2⟩,
    fun g => hg g (hs.good g), fun p hp => Part.same_trans (hs.same p hp) (by
      cases p <;> first
        | rfl | exact causes_refl | exact off (i := 15) hl hp | exact off' (i := 16) h16 hp (fun h => h _) | exact off' (i := 17) h17 hp (fun h => h _)
        | exact off' (i := 18) h18 hp (fun h => h _) | exact off' (i := 19) h19 hp (fun h => h _)
        | exact off' (i := 20) h20 hp (fun h => h _) | exact off' (i := 21) h21 hp (fun h => h _)), hs.calm⟩

theorem Good.eng {s : State} {f : Engine → Engine} (hg : (f s.eng).gens = s.eng.gens) (he : (f s.eng).events = s.eng.events)
    (g : s.Good) : (modEng f s).Good :=
  ⟨g.regs, by show spWf genReset (f s.eng).gens = true; rw [hg]; exact g.gens, g.partners, g.window, g.image0, g.image1, g.bankA, g.bankB,
    by show heldEvents (modEng f s) ≤ 64; unfold heldEvents modEng; rw [he]; exact g.events, g.faults, g.recent, g.pointer⟩

theorem modEng_within {L : Nat} {s0 s : State} (f : Engine → Engine) (hs : Within L s0 s) (hl : Sub 0x8000 L)
    (hk : ∀ e, (f e).keys = e.keys) (hg : ∀ e, (f e).gens = e.gens) (he : ∀ e, (f e).events = e.events)
    (h16 : (∀ e, (f e).items = e.items) ∨ Sub 0x10000 L) (h17 : (∀ e, (f e).comps = e.comps) ∨ Sub 0x20000 L)
    (h18 : (∀ e, (f e).eventPart = e.eventPart) ∨ Sub 0x40000 L) (h19 : (∀ e, (f e).objectPart = e.objectPart) ∨ Sub 0x80000 L)
    (h20 : (∀ e, (f e).line = e.line) ∨ Sub 0x100000 L) (h21 : (∀ e, (f e).armed = e.armed) ∨ Sub 0x200000 L) :
    Within L s0 (modEng f s) :=
  modEng_within' f hs hl (fun k => by rw [hk]; exact KeyKept.refl _) (fun _ => Good.eng (hg _) (he _)) h16 h17 h18 h19 h20 h21

/-- A change of the journal whose bounds are looked after by hand. -/
theorem modJnl_within' {L : Nat} {s0 s : State} (f : Journal → Journal) (hs : Within L s0 s) (hl : Sub 0x400000 L)
    (hg : s0.Good → s.Good → (modJnl f s).Good)
    (h23 : (∀ j, (f j).logPart = j.logPart) ∨ Sub 0x800000 L) (h24 : (∀ j, (f j).imagePart = j.imagePart) ∨ Sub 0x1000000 L)
    (h25 : (∀ j, (f j).windowPart = j.windowPart) ∨ Sub 0x2000000 L) (h26 : (∀ j, (f j).queue = j.queue) ∨ Sub 0x4000000 L)
    (h43 : (∀ j, (f j).copyPart = j.copyPart) ∨ Sub 0x80000000000 L) : Within L s0 (modJnl f s) :=
  ⟨hs.pending, hs.freeIx, hs.sent, hs.keys,
    fun g => hg g (hs.good g), fun p hp => Part.same_trans (hs.same p hp) (by
      cases p <;> first
        | rfl | exact causes_refl | exact off (i := 22) hl hp | exact off' (i := 23) h23 hp (fun h => h _) | exact off' (i := 24) h24 hp (fun h => h _)
        | exact off' (i := 25) h25 hp (fun h => h _) | exact off' (i := 26) h26 hp (fun h => h _)
        | exact off' (i := 43) h43 hp (fun h => h _)), hs.calm⟩

/-- What `Good` says of the journal. -/
structure Journal.Kept (a b : Journal) : Prop where
  biWords : spWf (fun _ => 0) a.biWords = true → spWf (fun _ => 0) b.biWords = true
  image0 : spWf (fun _ => 0) a.image0 = true → spWf (fun _ => 0) b.image0 = true
  image1 : spWf (fun _ => 0) a.image1 = true → spWf (fun _ => 0) b.image1 = true
  bankA : rising a.bankA.slots = true → rising b.bankA.slots = true
  bankB : rising a.bankB.slots = true → rising b.bankB.slots = true
  recent : a.recent.length ≤ 1024 → b.recent.length ≤ 1024
  biPtr : a.biPtr ≤ 2048 → b.biPtr ≤ 2048

theorem Good.jnl {s : State} {f : Journal → Journal} (h : s.jnl.Kept (f s.jnl)) (g : s.Good) : (modJnl f s).Good :=
  ⟨g.regs, g.gens, g.partners, h.biWords g.window, h.image0 g.image0, h.image1 g.image1, h.bankA g.bankA, h.bankB g.bankB,
    g.events, g.faults, h.recent g.recent, h.biPtr g.pointer⟩

theorem modJnl_within {L : Nat} {s0 s : State} (f : Journal → Journal) (hs : Within L s0 s) (hl : Sub 0x400000 L)
    (ha : ∀ j, (f j).bankA = j.bankA) (hb : ∀ j, (f j).bankB = j.bankB) (h0 : ∀ j, (f j).image0 = j.image0) (h1 : ∀ j, (f j).image1 = j.image1)
    (hw : ∀ j, (f j).biWords = j.biWords) (hp : ∀ j, (f j).biPtr = j.biPtr) (hr : ∀ j, (f j).recent = j.recent)
    (h23 : (∀ j, (f j).logPart = j.logPart) ∨ Sub 0x800000 L) (h24 : (∀ j, (f j).imagePart = j.imagePart) ∨ Sub 0x1000000 L)
    (h25 : (∀ j, (f j).windowPart = j.windowPart) ∨ Sub 0x2000000 L) (h26 : (∀ j, (f j).queue = j.queue) ∨ Sub 0x4000000 L) :
    Within L s0 (modJnl f s) :=
  modJnl_within' f hs hl (fun _ => Good.jnl ⟨fun h => by rw [hw]; exact h, fun h => by rw [h0]; exact h, fun h => by rw [h1]; exact h,
    fun h => by rw [ha]; exact h, fun h => by rw [hb]; exact h, fun h => by rw [hr]; exact h, fun h => by rw [hp]; exact h⟩) h23 h24 h25 h26
    (.inl fun j => by unfold Journal.copyPart; rw [h0, h1])

theorem modColl_within {L : Nat} {s0 s : State} (c : Fin 2) (f : Collector → Collector) (hs : Within L s0 s) (hl : Sub 0x8000000 L)
    (hf : ∀ x, x.entries.length ≤ 32 → (f x).entries.length ≤ 32) : Within L s0 (modColl c f s) :=
  hs.trans ⟨rfl, le_refl _, List.suffix_refl _, fun _ => KeyKept.refl _,
    fun g => ⟨g.regs, g.gens, g.partners, g.window, g.image0, g.image1, g.bankA, g.bankB, g.events, fun d => by
      show (upd s.flt.coll c f)[d].entries.length ≤ 32
      unfold upd
      by_cases e : c = d
      · subst e; simpa using hf _ (g.faults c)
      · have e' : c.val ≠ d.val := fun h => e (Fin.ext h)
        simpa [Vector.getElem_set_ne, e'] using g.faults d, g.recent, g.pointer⟩,
    fun p hp => by cases p <;> first | rfl | exact causes_refl | exact off (i := 27) hl hp, calm_of rfl⟩

theorem setPartner_within {L : Nat} {s0 s : State} (k : Nat) (x : Option Partner) (hs : Within L s0 s) (hl : Sub 0x10000000000 L) :
    Within L s0 (setPartner k x s) :=
  hs.trans ⟨rfl, le_refl _, List.suffix_refl _, fun _ => KeyKept.refl _,
    fun g => ⟨g.regs, g.gens, spWf_set _ _ _ _ g.partners, g.window, g.image0, g.image1, g.bankA, g.bankB, g.events, g.faults, g.recent, g.pointer⟩,
    fun p hp => by cases p <;> first | rfl | exact causes_refl | exact off (i := 40) hl hp, calm_of rfl⟩

theorem modBank_within {L : Nat} {s0 s : State} (b : Fin 2) (f : Bank → Bank) (hs : Within L s0 s) (hl : Sub 0xc00000 L)
    (hf : s.Good → ∀ x, rising x.slots = true → rising (f x).slots = true) : Within L s0 (modBank b f s) := by
  unfold modBank
  refine modJnl_within' _ hs (Sub.le rfl hl) (fun _ g => ?_) (Or.inr (Sub.le rfl hl)) (Or.inl (fun j => ?_)) (Or.inl (fun j => ?_)) (Or.inl (fun j => ?_))
    (Or.inl (fun j => ?_))
  · refine Good.jnl ?_ g
    split
    · exact ⟨id, id, id, hf g _, id, id, id⟩
    · exact ⟨id, id, id, id, hf g _, id, id⟩
  all_goals split <;> rfl

/-! ### Keys -/

theorem upd_keysKept {v : Vector KeySlot 4} {k : Fin 4} {f : KeySlot → KeySlot} (hf : KeyKept v[k] (f v[k])) (j : Fin 4) :
    KeyKept v[j] (upd v k f)[j] := by
  unfold upd
  intro h
  by_cases e : k = j
  · subst e; simpa using hf (by simpa using h)
  · have e' : k.val ≠ j.val := fun c => e (Fin.ext c)
    simp [Vector.getElem_set_ne, e'] at *
    exact h

theorem modKey_within {L : Nat} {s0 s : State} (k : Fin 4) (f : KeySlot → KeySlot) (hs : Within L s0 s) (hl : Sub 0x8000 L)
    (hf : KeyKept s.eng.keys[k] (f s.eng.keys[k])) : Within L s0 (modKey k f s) := by
  refine modEng_within' _ hs hl (fun j hj => upd_keysKept hf j hj) (fun _ => Good.eng rfl rfl) ?_ ?_ ?_ ?_ ?_ ?_
  all_goals exact .inl fun _ => rfl

/-! ### Values of single fields -/

theorem putBank_rising (k : Nat) (w : List Word) {b : Bank} (h : rising b.slots = true) : rising (putBank k w b).slots = true := by
  unfold putBank
  split
  · exact rising_insert k w h
  · exact h

theorem foldl_insert_rising (ms : Sparse (List Word)) {b : Bank} (h : rising b.slots = true) :
    rising (ms.foldl (fun y e => { y with slots := spInsert y.slots e.1 e.2 }) b).slots = true := by
  induction ms generalizing b with
  | nil => exact h
  | cons e l ih => exact ih (rising_insert _ _ h)

theorem eraseRec_rising (k : Nat) {b : Bank} (h : rising b.slots = true) : rising (eraseRec k b).slots = true := rising_erase k h

theorem recs_rising {s : State} (g : s.Good) : rising (recs s) = true := by
  unfold recs readBank
  split
  · rfl
  · split
    · exact g.bankA
    · exact g.bankB

theorem captureIn_length (first : Bool) (e : FaultEntry) (snap : Vector Word 6) (st : Word) (x : Collector)
    (h : x.entries.length ≤ 32) : (captureIn first e snap st x).entries.length ≤ 32 := by
  unfold captureIn loseEntry
  dsimp only
  split
  · split
    · exact Nat.le_of_ble_eq_true rfl
    · exact h
  · split
    · simp only [List.length_append, List.length_singleton]; omega
    · simp only [List.length_append, List.length_drop, List.length_singleton]; omega

theorem pendVector_eng (v : Nat) (s : State) : (pendVector v s).eng = s.eng := by
  unfold pendVector
  dsimp only
  split <;> rfl

theorem eqLost_first {s : State} {n : Engine → Nat} {u : State} (g : s.Good) :
    (modEng (fun e => { e with events := eqLost (n e) u :: e.events, eventsLost := 0 }) s).Good :=
  ⟨g.regs, g.gens, g.partners, g.window, g.image0, g.image1, g.bankA, g.bankB, by
    have := g.events
    unfold heldEvents at *
    show (List.filter _ (eqLost _ u :: s.eng.events)).length ≤ 64
    rw [List.filter_cons, if_neg (by simp [eqLost])]
    exact this, g.faults, g.recent, g.pointer⟩

theorem id_within {L : Nat} {s0 s : State} (hs : Within L s0 s) : Within L s0 (id s) := hs

theorem Within.parts {L : Nat} {s0 s : State} {x_den : Den} {x_lanes : Vector Lane 48} {x_rails : Vector (Option Rail) 48} {x_graphs : Vector (Option Graph) 16} {x_relays : Vector (Option Relay) 48} {x_motors : Vector (Option Motor) 2} {x_fans : Vector (Option Fan) 4} {x_adc : Adc} {x_cmp : Cmp} {x_cal : Cal} {x_owl : Owls} {x_twb : Twb} (hs : Within L s0 s)
    (h5 : x_den = s.den ∨ Sub 0x20 L)
    (h28 : x_lanes = s.lanes ∨ Sub 0x10000000 L)
    (h29 : x_rails = s.rails ∨ Sub 0x20000000 L)
    (h30 : x_graphs = s.graphs ∨ Sub 0x40000000 L)
    (h33 : x_relays = s.relays ∨ Sub 0x200000000 L)
    (h34 : x_motors = s.motors ∨ Sub 0x400000000 L)
    (h35 : x_fans = s.fans ∨ Sub 0x800000000 L)
    (h36 : x_adc = s.adc ∨ Sub 0x1000000000 L)
    (h37 : x_cmp = s.cmp ∨ Sub 0x2000000000 L)
    (h39 : x_cal = s.cal ∨ Sub 0x8000000000 L)
    (h42 : x_owl = s.owl ∨ Sub 0x40000000000 L)
    (h40 : x_twb = s.twb ∨ Sub 0x10000000000 L) (hq : x_twb.partners = s.twb.partners) :
    Within L s0 (State.mk s.pending s.out s.freeIx s.regs s.pwr x_den s.clk s.link s.eng s.jnl s.flt x_lanes x_rails x_graphs s.bud s.chg x_relays x_motors x_fans x_adc x_cmp s.thm x_cal x_twb s.usb x_owl) :=
  Plain.within hs ⟨rfl, le_refl _, rfl, rfl, rfl, rfl, hq, rfl, rfl, rfl, rfl, rfl, rfl, rfl, rfl, rfl, rfl⟩
    (fun p hp => by cases p <;> first | rfl | exact causes_refl | exact off' (i := 5) h5 hp (fun h => h) | exact off' (i := 28) h28 hp (fun h => h) | exact off' (i := 29) h29 hp (fun h => h) | exact off' (i := 30) h30 hp (fun h => h) | exact off' (i := 33) h33 hp (fun h => h) | exact off' (i := 34) h34 hp (fun h => h) | exact off' (i := 35) h35 hp (fun h => h) | exact off' (i := 36) h36 hp (fun h => h) | exact off' (i := 37) h37 hp (fun h => h) | exact off' (i := 39) h39 hp (fun h => h) | exact off' (i := 42) h42 hp (fun h => h) | exact off' (i := 40) h40 hp (fun h => h))

end Sys2Proof.Machine
end

