-- ==== Sys2Proof/Laws/WithinShared.lean ====
section
/-! SUPPORT. `f_within` for the shared operations: events, records, items, the ledger, stops, runs, raises. -/

namespace Sys2Proof.Machine

/-! ### Machine/Ops.lean -/

theorem modReg_within {L : Nat} {s0 : State} (a0 : Nat) (a1 : Word → Word) {s : State} (hs : Within L s0 s) (hl : Sub
    0x2 L) : Within L s0 (modReg a0 a1 s) := by
  unfold modReg
  repeat' (first | with_reducible assumption | with_reducible apply setReg_within)

theorem orReg_within {L : Nat} {s0 : State} (a0 : Nat) (a1 : Word) {s : State} (hs : Within L s0 s) (hl : Sub 0x2 L) :
    Within L s0 (orReg a0 a1 s) := by
  unfold orReg
  repeat' (first | with_reducible assumption | with_reducible apply setReg_within)

theorem countReg_within {L : Nat} {s0 : State} (a0 : Nat) (a1 : Nat) (a2 : Nat) (a3 : Nat) {s : State} (hs : Within L
    s0 s) (hl : Sub 0x2 L) : Within L s0 (countReg a0 a1 a2 a3 s) := by
  unfold countReg
  repeat' (first | with_reducible assumption | with_reducible apply modReg_within)

theorem roundOpen_within {L : Nat} {s0 : State} (a0 : Nat) (a1 : Nat) {s : State} (hs : Within L s0 s) : Within L s0
    (roundOpen a0 a1 s).2 := by
  unfold roundOpen
  repeat' (first
    | with_reducible assumption
    | (intro x; refine Within.cut (L := L) (s := s0) x.2 ?_ ?_; rotate_left; intro hx; clear_value x; rotate_left; subst x)
    | lift_lets | with_reducible apply drawNat_within | split)

theorem writesOf_within {L : Nat} {s0 : State} (a0 : Nat) (a1 : Nat) (a2 : DWord) (a3 : List Byte) {s : State} (hs :
    Within L s0 s) (hl : Sub 0x1 L) : Within L s0 (writesOf a0 a1 a2 a3 s) := by
  induction a0 generalizing a1 a2 a3 s with
  | zero =>
    unfold writesOf
    repeat' (first | with_reducible assumption)
  | succ n ih =>
    unfold writesOf
    repeat' (first | with_reducible assumption | with_reducible apply emit_within | with_reducible apply ih | split)

theorem memWrite_within {L : Nat} {s0 : State} (a0 : DWord) (a1 : List Byte) {s : State} (hs : Within L s0 s) (hl :
    Sub 0x1 L) : Within L s0 (memWrite a0 a1 s) := by
  unfold memWrite
  repeat' (first | with_reducible assumption | with_reducible apply writesOf_within)

theorem memWords_within {L : Nat} {s0 : State} (a0 : DWord) (a1 : List Word) {s : State} (hs : Within L s0 s) (hl :
    Sub 0x1 L) : Within L s0 (memWords a0 a1 s) := by
  unfold memWords
  repeat' (first | with_reducible assumption | with_reducible apply memWrite_within)

theorem readsOf_within {L : Nat} {s0 : State} (a0 : Nat) (a1 : Nat) (a2 : DWord) (a3 : Nat) {s : State} (hs : Within L
    s0 s) (hl : Sub 0x1 L) : Within L s0 (readsOf a0 a1 a2 a3 s) := by
  induction a0 generalizing a1 a2 a3 s with
  | zero =>
    unfold readsOf
    repeat' (first | with_reducible assumption)
  | succ n ih =>
    unfold readsOf
    repeat' (first | with_reducible assumption | with_reducible apply emit_within | with_reducible apply ih | split)

theorem memRead_within {L : Nat} {s0 : State} (a0 : DWord) (a1 : Nat) {s : State} (hs : Within L s0 s) (hl : Sub 0x1
    L) : Within L s0 (memRead a0 a1 s) := by
  unfold memRead
  repeat' (first | with_reducible assumption | with_reducible apply readsOf_within)

theorem shadowLater_within {L : Nat} {s0 : State} (a0 : Nat) {s : State} (hs : Within L s0 s) (hl : Sub 0x80 L) :
    Within L s0 (shadowLater a0 s) := by
  unfold shadowLater
  repeat' (first
    | with_reducible assumption | ((with_reducible refine Sub.le ?_ hl); rfl)
    | ((with_reducible refine Or.inr (Sub.le ?_ hl)); rfl)
    | ((with_reducible refine Or.inl (fun _ => Eq.symm ?_)); rfl) | with_reducible apply modLink_within | split)

theorem shadowWrite_within {L : Nat} {s0 : State} (a0 : Nat) (a1 : DWord) {s : State} (hs : Within L s0 s) (hl : Sub
    0x81 L) : Within L s0 (shadowWrite a0 a1 s) := by
  unfold shadowWrite
  repeat' (first
    | with_reducible assumption | ((with_reducible refine Sub.le ?_ hl); rfl) | with_reducible apply memWords_within
    | with_reducible apply shadowLater_within | split)

theorem shadowPage_within {L : Nat} {s0 : State} {s : State} (hs : Within L s0 s) (hl : Sub 0x81 L) : Within L s0
    (shadowPage s) := by
  unfold shadowPage
  repeat' (first
    | with_reducible assumption | ((with_reducible refine Sub.le ?_ hl); rfl)
    | ((with_reducible refine Or.inr (Sub.le ?_ hl)); rfl)
    | ((with_reducible refine Or.inl (fun _ => Eq.symm ?_)); rfl) | with_reducible apply memWords_within
    | with_reducible apply modLink_within | split)

theorem shadowChanges_within {L : Nat} {s0 : State} {s : State} (hs : Within L s0 s) (hl : Sub 0x81 L) : Within L s0
    (shadowChanges s) := by
  unfold shadowChanges
  repeat' (first
    | with_reducible assumption | ((with_reducible refine Sub.le ?_ hl); rfl)
    | ((with_reducible refine Or.inr (Sub.le ?_ hl)); rfl)
    | ((with_reducible refine Or.inl (fun _ => Eq.symm ?_)); rfl) | intro _ | with_reducible apply shadowWrite_within
    | with_reducible apply modLink_within | with_reducible refine Within.foldl ?_ ?_)

theorem pendVector_within {L : Nat} {s0 : State} (a0 : Nat) {s : State} (hs : Within L s0 s) (hl : Sub 0x81 L) :
    Within L s0 (pendVector a0 s) := by
  unfold pendVector
  repeat' (first
    | with_reducible assumption | ((with_reducible refine Sub.le ?_ hl); rfl)
    | (intro x; refine Within.cut (L := L) (s := s0) x ?_ ?_; rotate_left; intro hx; clear_value x; rotate_left; subst x)
    | intro _ | ((with_reducible refine Or.inl (fun _ => Eq.symm ?_)); rfl) | lift_lets
    | with_reducible apply modLink_within | with_reducible apply emit_within | split)

theorem sendVector_within {L : Nat} {s0 : State} (a0 : Nat) {s : State} (hs : Within L s0 s) (hl : Sub 0x83 L) :
    Within L s0 (sendVector a0 s) := by
  unfold sendVector
  repeat' (first
    | with_reducible assumption | ((with_reducible refine Sub.le ?_ hl); rfl)
    | (intro x; refine Within.cut (L := L) (s := s0) x ?_ ?_; rotate_left; intro hx; clear_value x; rotate_left; subst x)
    | intro _ | ((with_reducible refine Or.inl (fun _ => Eq.symm ?_)); rfl) | lift_lets
    | with_reducible apply orReg_within | with_reducible apply pendVector_within | with_reducible apply modLink_within
    | with_reducible apply emit_within | split)

theorem sendUnmasked_within {L : Nat} {s0 : State} {s : State} (hs : Within L s0 s) (hl : Sub 0x81 L) : Within L s0
    (sendUnmasked s) := by
  unfold sendUnmasked
  repeat' (first
    | with_reducible assumption | ((with_reducible refine Sub.le ?_ hl); rfl)
    | ((with_reducible refine Or.inl (fun _ => Eq.symm ?_)); rfl) | intro _ | with_reducible apply emit_within
    | with_reducible apply modLink_within | with_reducible refine Within.foldl ?_ ?_ | split)

theorem writeEvent_within {L : Nat} {s0 : State} (a0 : Event) {s : State} (hs : Within L s0 s) (hl : Sub 0x2083 L) :
    Within L s0 (writeEvent a0 s) := by
  unfold writeEvent
  repeat' (first
    | with_reducible assumption | ((with_reducible refine Sub.le ?_ hl); rfl)
    | ((with_reducible refine Or.inr (Sub.le ?_ hl)); rfl)
    | (intro x; refine Within.cut (L := L) (s := s0) x ?_ ?_; rotate_left; intro hx; clear_value x; rotate_left; subst x)
    | (intro x; clear_value x) | ((with_reducible refine Or.inl (fun _ => Eq.symm ?_)); rfl) | lift_lets
    | with_reducible apply memWords_within | with_reducible apply modLink_within
    | with_reducible apply sendVector_within | with_reducible apply shadowWrite_within)

theorem flushEvents_within {L : Nat} {s0 : State} (a0 : Nat) {s : State} (hs : Within L s0 s) (hl : Sub 0x4a083 L) :
    Within L s0 (flushEvents a0 s) := by
  induction a0 generalizing s with
  | zero => exact hs
  | succ n ih =>
    unfold flushEvents
    split
    · split
      · rename_i e rest he
        refine ih (writeEvent_within _ (modEng_within' (fun g => { g with events := rest }) hs (Sub.le rfl hl)
          (fun _ => KeyKept.refl _) (fun _ g => ?_) ?_ ?_ ?_ ?_ ?_ ?_) (Sub.le rfl hl))
        · exact ⟨g.regs, g.gens, g.partners, g.window, g.image0, g.image1, g.bankA, g.bankB, by
            have := g.events
            unfold heldEvents at *
            rw [he, List.filter_cons] at this
            show (List.filter _ rest).length ≤ 64
            split at this
            · rw [List.length_cons] at this; omega
            · exact this, g.faults, g.recent, g.pointer⟩
        all_goals first | exact .inl fun _ => rfl | exact .inr (Sub.le rfl hl)
      · split
        · exact hs
        · refine ih (writeEvent_within _ (modEng_within (fun g => { g with eventsLost := 0 }) hs (Sub.le rfl hl) ?_ ?_ ?_
            ?_ ?_ ?_ ?_ ?_ ?_) (Sub.le rfl hl))
          all_goals first | exact fun _ => rfl | exact .inl fun _ => rfl | exact .inr (Sub.le rfl hl)
    · exact hs

theorem drainEvents_within {L : Nat} {s0 : State} {s : State} (hs : Within L s0 s) (hl : Sub 0x4a083 L) : Within L s0
    (drainEvents s) := by
  unfold drainEvents
  repeat' (first | with_reducible assumption | with_reducible apply flushEvents_within)

theorem postEvent_within {L : Nat} {s0 : State} (a0 : Event) {s : State} (hs : Within L s0 s) (hl : Sub 0x4a083 L) :
    Within L s0 (postEvent a0 s) := by
  have h1 := pendVector_within 23 hs (Sub.le rfl hl)
  unfold postEvent
  split
  · exact writeEvent_within _ hs (Sub.le rfl hl)
  · dsimp only
    split
    · rename_i hb
      refine modEng_within' _ h1 (Sub.le rfl hl) (fun _ => KeyKept.refl _) (fun _ g => ?_) ?_ ?_ ?_ ?_ ?_ ?_
      · exact ⟨g.regs, g.gens, g.partners, g.window, g.image0, g.image1, g.bankA, g.bankB, by
          have e : (pendVector 23 s).eng = s.eng := pendVector_eng 23 s
          unfold heldEvents at hb ⊢
          show (List.filter _ ((pendVector 23 s).eng.events ++ _)).length ≤ 64
          rw [e, List.filter_append, List.length_append]
          have k : (List.filter (fun e => decide (e.code ≠ 0x0301))
              (if s.eng.eventsLost = 0 then [a0] else [eqLost s.eng.eventsLost s, a0])).length ≤ 1 := by
            split
            · rw [List.filter_cons]; split <;> exact Nat.le_of_ble_eq_true rfl
            · rw [List.filter_cons, if_neg (by simp [eqLost]), List.filter_cons]; split <;> exact Nat.le_of_ble_eq_true rfl
          omega, g.faults, g.recent, g.pointer⟩
      all_goals first | exact .inl fun _ => rfl | exact .inr (Sub.le rfl hl)
    · refine modEng_within _ h1 (Sub.le rfl hl) ?_ ?_ ?_ ?_ ?_ ?_ ?_ ?_ ?_
      all_goals first | exact fun _ => rfl | exact .inl fun _ => rfl | exact .inr (Sub.le rfl hl)

theorem event_within {L : Nat} {s0 : State} (a0 : BitVec 16) (a1 : Word) (a2 : Nat) (a3 : Nat) (a4 : DWord) {s :
    State} (hs : Within L s0 s) (hl : Sub 0x4a083 L) : Within L s0 (event a0 a1 a2 a3 a4 s) := by
  unfold event
  repeat' (first | with_reducible assumption | with_reducible apply postEvent_within)

theorem rootWake_within {L : Nat} {s0 : State} {s : State} (hs : Within L s0 s) (hl : Sub 0x40 L) : Within L s0
    (rootWake s) := by
  unfold rootWake
  repeat' (first | with_reducible assumption | with_reducible apply modClk_within | split)

theorem sofStops_within {L : Nat} {s0 : State} {s : State} (hs : Within L s0 s) (hl : Sub 0x40 L) : Within L s0
    (sofStops s) := by
  unfold sofStops
  repeat' (first | with_reducible assumption | with_reducible apply modClk_within)

theorem modRail_within {L : Nat} {s0 : State} (a0 : Fin 48) (a1 : Rail → Rail) {s : State} (hs : Within L s0 s) (hl :
    Sub 0x20000000 L) : Within L s0 (modRail a0 a1 s) := by
  unfold modRail
  repeat' (first | with_reducible assumption | with_reducible apply setRail_within)

theorem modGraph_within {L : Nat} {s0 : State} (a0 : Fin 16) (a1 : Graph → Graph) {s : State} (hs : Within L s0 s) (hl
    : Sub 0x40000000 L) : Within L s0 (modGraph a0 a1 s) := by
  unfold modGraph
  repeat' (first | with_reducible assumption | with_reducible apply setGraph_within)

theorem modRelay_within {L : Nat} {s0 : State} (a0 : Fin 48) (a1 : Relay → Relay) {s : State} (hs : Within L s0 s) (hl
    : Sub 0x200000000 L) : Within L s0 (modRelay a0 a1 s) := by
  unfold modRelay
  repeat' (first | with_reducible assumption | with_reducible apply setRelay_within)

theorem modMotor_within {L : Nat} {s0 : State} (a0 : Fin 2) (a1 : Motor → Motor) {s : State} (hs : Within L s0 s) (hl
    : Sub 0x400000000 L) : Within L s0 (modMotor a0 a1 s) := by
  unfold modMotor
  repeat' (first | with_reducible assumption | with_reducible apply setMotor_within)

theorem modFan_within {L : Nat} {s0 : State} (a0 : Fin 4) (a1 : Fan → Fan) {s : State} (hs : Within L s0 s) (hl : Sub
    0x800000000 L) : Within L s0 (modFan a0 a1 s) := by
  unfold modFan
  repeat' (first | with_reducible assumption | with_reducible apply setFan_within)

/-! ### Machine/Journal.lean -/

theorem putRec_within {L : Nat} {s0 : State} (a0 : List Word) {s : State} (hs : Within L s0 s) (hl : Sub 0xc00000 L) :
    Within L s0 (putRec a0 s) := by
  unfold putRec
  repeat' (first
    | with_reducible assumption
    | (with_reducible refine modJnl_within' _ ?_ (Sub.le rfl hl) (fun _ => Good.jnl ⟨id, id, id, putBank_rising _ _, putBank_rising _ _, id, id⟩) ?_ ?_ ?_ ?_ ?_)
    | ((with_reducible refine Or.inr (Sub.le ?_ hl)); rfl) | intro _
    | ((with_reducible refine Or.inl (fun _ => Eq.symm ?_)); rfl))

theorem noteAck_within {L : Nat} {s0 : State} (a0 : Nat) (a1 : Word) {s : State} (hs : Within L s0 s) (hl : Sub
    0x400000 L) : Within L s0 (noteAck a0 a1 s) := by
  unfold noteAck
  repeat' (first
    | with_reducible assumption | ((with_reducible refine Or.inl (fun _ => Eq.symm ?_)); rfl)
    | (intro _; (with_reducible refine Eq.symm ?_); rfl) | with_reducible apply modJnl_within | split)

theorem putForced_within {L : Nat} {s0 : State} (a0 : List Word) {s : State} (hs : Within L s0 s) (hl : Sub 0xc00000
    L) : Within L s0 (putForced a0 s) := by
  unfold putForced
  repeat' (first
    | with_reducible assumption | ((with_reducible refine Sub.le ?_ hl); rfl) | with_reducible apply noteAck_within
    | with_reducible apply putRec_within | split)

theorem clearWay_within {L : Nat} {s0 : State} (a0 : Nat) (a1 : Nat) {s : State} (hs : Within L s0 s) (hl : Sub
    0xc00000 L) : Within L s0 (clearWay a0 a1 s) := by
  induction a0 generalizing a1 s with
  | zero =>
    unfold clearWay
    repeat' (first | with_reducible assumption)
  | succ n ih =>
    unfold clearWay
    repeat' (first
      | with_reducible assumption | with_reducible apply putForced_within | with_reducible apply ih | split)

theorem forget_within {L : Nat} {s0 : State} {s : State} (hs : Within L s0 s) (hl : Sub 0x400000 L) : Within L s0
    (forget s) := by
  unfold forget
  repeat' (first
    | with_reducible assumption | (intro x; clear_value x)
    | ((with_reducible refine Or.inl (fun _ => Eq.symm ?_)); rfl) | (intro _; (with_reducible refine Eq.symm ?_); rfl)
    | lift_lets | with_reducible apply modJnl_within | split)

theorem commit_within {L : Nat} {s0 : State} (a0 : List Word) {s : State} (hs : Within L s0 s) (hl : Sub 0xc00040 L) :
    Within L s0 (commit a0 s) := by
  unfold commit
  repeat' (first
    | with_reducible assumption | ((with_reducible refine Sub.le ?_ hl); rfl) | with_reducible apply rootWake_within
    | with_reducible apply putRec_within | with_reducible apply forget_within | with_reducible apply clearWay_within
    | split)

theorem owe_within {L : Nat} {s0 : State} (a0 : Owed) {s : State} (hs : Within L s0 s) (hl : Sub 0x400000 L) : Within
    L s0 (owe a0 s) := by
  unfold owe
  repeat' (first
    | with_reducible assumption | ((with_reducible refine Or.inl (fun _ => Eq.symm ?_)); rfl)
    | (intro _; (with_reducible refine Eq.symm ?_); rfl) | with_reducible apply modJnl_within)

theorem commitNew_within {L : Nat} {s0 : State} (a0 : List Word) {s : State} (hs : Within L s0 s) (hl : Sub 0xc00040
    L) : Within L s0 (commitNew a0 s) := by
  unfold commitNew
  repeat' (first
    | with_reducible assumption | ((with_reducible refine Sub.le ?_ hl); rfl) | with_reducible apply owe_within
    | with_reducible apply commit_within | split)

theorem makeWay_within {L : Nat} {s0 : State} (a0 : Nat) {s : State} (hs : Within L s0 s) (hl : Sub 0xc00040 L) :
    Within L s0 (makeWay a0 s) := by
  unfold makeWay
  repeat' (first
    | with_reducible assumption | ((with_reducible refine Sub.le ?_ hl); rfl) | with_reducible apply rootWake_within
    | with_reducible apply clearWay_within | split)

theorem commitAck_within {L : Nat} {s0 : State} (a0 : Nat) (a1 : Word) {s : State} (hs : Within L s0 s) (hl : Sub
    0xc00040 L) : Within L s0 (commitAck a0 a1 s) := by
  unfold commitAck
  repeat' (first
    | with_reducible assumption | ((with_reducible refine Sub.le ?_ hl); rfl) | with_reducible apply noteAck_within
    | with_reducible apply commit_within)

/-! ### Machine/Items.lean -/

theorem slotEnds_within {L : Nat} {s0 : State} (a0 : Nat) (a1 : Nat) {s : State} (hs : Within L s0 s) (hl : Sub
    0xe88040 L) : Within L s0 (slotEnds a0 a1 s) := by
  unfold slotEnds
  refine commit_within _ (modEng_within' _ (modJnl_within _ hs (Sub.le rfl hl) ?_ ?_ ?_ ?_ ?_ ?_ ?_ ?_ ?_ ?_ ?_)
    (Sub.le rfl hl) (fun _ => KeyKept.refl _)
    (fun _ g => ⟨g.regs, spWf_set _ _ _ _ g.gens, g.partners, g.window, g.image0, g.image1, g.bankA, g.bankB, g.events, g.faults, g.recent, g.pointer⟩)
    ?_ ?_ ?_ ?_ ?_ ?_) (Sub.le rfl hl)
  all_goals first | exact fun _ => rfl | exact .inl fun _ => rfl | exact .inr (Sub.le rfl hl)

theorem endObject_within {L : Nat} {s0 : State} (a0 : Nat) (a1 : Nat) {s : State} (hs : Within L s0 s) (hl : Sub
    0xe88040 L) : Within L s0 (endObject a0 a1 s) := by
  unfold endObject
  repeat' (first
    | with_reducible assumption | ((with_reducible refine Sub.le ?_ hl); rfl) | with_reducible apply owe_within
    | with_reducible apply slotEnds_within | split)

theorem noteObject_within {L : Nat} {s0 : State} (a0 : Nat) (a1 : Nat) (a2 : Word) {s : State} (hs : Within L s0 s)
    (hl : Sub 0x88000 L) : Within L s0 (noteObject a0 a1 a2 s) := by
  unfold noteObject
  repeat' (first
    | with_reducible assumption | ((with_reducible refine Sub.le ?_ hl); rfl)
    | ((with_reducible refine Or.inr (Sub.le ?_ hl)); rfl)
    | ((with_reducible refine Or.inl (fun _ => Eq.symm ?_)); rfl) | (intro _; (with_reducible refine Eq.symm ?_); rfl)
    | with_reducible apply modEng_within)

theorem modItem_within {L : Nat} {s0 : State} (a0 : Word) (a1 : Item → Item) {s : State} (hs : Within L s0 s) (hl :
    Sub 0x18000 L) : Within L s0 (modItem a0 a1 s) := by
  unfold modItem
  repeat' (first
    | with_reducible assumption | ((with_reducible refine Sub.le ?_ hl); rfl)
    | ((with_reducible refine Or.inr (Sub.le ?_ hl)); rfl)
    | ((with_reducible refine Or.inl (fun _ => Eq.symm ?_)); rfl) | (intro _; (with_reducible refine Eq.symm ?_); rfl)
    | with_reducible apply modEng_within)

theorem startOne_within {L : Nat} {s0 : State} {s : State} (a1 : Item) (hs : Within L s0 s) (hl : Sub 0x108000 L) :
    Within L s0 (startOne s a1) := by
  unfold startOne
  repeat' (first
    | with_reducible assumption | ((with_reducible refine Sub.le ?_ hl); rfl)
    | ((with_reducible refine Or.inr (Sub.le ?_ hl)); rfl)
    | ((with_reducible refine Or.inl (fun _ => Eq.symm ?_)); rfl) | (intro _; (with_reducible refine Eq.symm ?_); rfl)
    | with_reducible apply modEng_within | split)

theorem startAll_within {L : Nat} {s0 : State} {s : State} (hs : Within L s0 s) (hl : Sub 0x108000 L) : Within L s0
    (startAll s) := by
  unfold startAll
  repeat' (first
    | with_reducible assumption | intro _ | with_reducible apply startOne_within
    | with_reducible refine Within.foldl ?_ ?_)

theorem writeCompletion_within {L : Nat} {s0 : State} (a0 : Nat) (a1 : Comp) {s : State} (hs : Within L s0 s) (hl :
    Sub 0x1083 L) : Within L s0 (writeCompletion a0 a1 s) := by
  unfold writeCompletion
  repeat' (first
    | with_reducible assumption | ((with_reducible refine Sub.le ?_ hl); rfl)
    | ((with_reducible refine Or.inr (Sub.le ?_ hl)); rfl)
    | (intro x; refine Within.cut (L := L) (s := s0) x ?_ ?_; rotate_left; intro hx; clear_value x; rotate_left; subst x)
    | (intro x; clear_value x) | ((with_reducible refine Or.inl (fun _ => Eq.symm ?_)); rfl) | lift_lets
    | with_reducible apply memWords_within | with_reducible apply modLink_within
    | with_reducible apply shadowWrite_within | with_reducible apply sendVector_within | split)

theorem addComp_within {L : Nat} {s0 : State} (a0 : Comp) {s : State} (hs : Within L s0 s) (hl : Sub 0x28000 L) :
    Within L s0 (addComp a0 s) := by
  unfold addComp
  repeat' (first
    | with_reducible assumption | ((with_reducible refine Sub.le ?_ hl); rfl)
    | ((with_reducible refine Or.inr (Sub.le ?_ hl)); rfl)
    | ((with_reducible refine Or.inl (fun _ => Eq.symm ?_)); rfl) | (intro _; (with_reducible refine Eq.symm ?_); rfl)
    | with_reducible apply modEng_within)

theorem countClear_within {L : Nat} {s0 : State} (a0 : Comp) {s : State} (hs : Within L s0 s) (hl : Sub 0x2 L) :
    Within L s0 (countClear a0 s) := by
  unfold countClear
  repeat' (first | with_reducible assumption | with_reducible apply countReg_within | split)

theorem sendService_within {L : Nat} {s0 : State} (a0 : Comp) {s : State} (hs : Within L s0 s) (hl : Sub 0x1 L) :
    Within L s0 (sendService a0 s) := by
  unfold sendService
  repeat' (first
    | with_reducible assumption
    | (intro x; refine Within.cut (L := L) (s := s0) x.2 ?_ ?_; rotate_left; intro hx; clear_value x; rotate_left; subst x)
    | lift_lets | with_reducible apply drawWord_within | with_reducible apply emit_within)

theorem postService_within {L : Nat} {s0 : State} (a0 : Comp) {s : State} (hs : Within L s0 s) (hl : Sub 0x20000028001
    L) : Within L s0 (postService a0 s) := by
  unfold postService
  repeat' (first
    | with_reducible assumption | ((with_reducible refine Sub.le ?_ hl); rfl) | with_reducible apply modUsb_within
    | with_reducible apply addComp_within | with_reducible apply sendService_within)

theorem holdComp_within {L : Nat} {s0 : State} (a0 : Comp) {s : State} (hs : Within L s0 s) (hl : Sub 0x28081 L) :
    Within L s0 (holdComp a0 s) := by
  unfold holdComp
  repeat' (first
    | with_reducible assumption | ((with_reducible refine Sub.le ?_ hl); rfl) | with_reducible apply addComp_within
    | with_reducible apply pendVector_within | split)

theorem postFinal_within {L : Nat} {s0 : State} (a0 : Nat) (a1 : Comp) {s : State} (hs : Within L s0 s) (hl : Sub
    0x20000c290c3 L) : Within L s0 (postFinal a0 a1 s) := by
  unfold postFinal
  repeat' (first
    | with_reducible assumption | ((with_reducible refine Sub.le ?_ hl); rfl)
    | ((with_reducible refine Or.inr (Sub.le ?_ hl)); rfl)
    | (intro x; refine Within.cut (L := L) (s := s0) x ?_ ?_; rotate_left; intro hx; clear_value x; rotate_left; subst x)
    | (intro x; clear_value x) | ((with_reducible refine Or.inl (fun _ => Eq.symm ?_)); rfl)
    | (intro _; (with_reducible refine Eq.symm ?_); rfl) | lift_lets | with_reducible apply countClear_within
    | with_reducible apply writeCompletion_within | with_reducible apply addComp_within
    | with_reducible apply commit_within | with_reducible apply holdComp_within
    | with_reducible apply postService_within | with_reducible apply modJnl_within | split)

theorem endSlot_within {L : Nat} {s0 : State} (a0 : Option Word) {s : State} (hs : Within L s0 s) (hl : Sub 0xe88040
    L) : Within L s0 (endSlot a0 s) := by
  unfold endSlot
  repeat' (first | with_reducible assumption | with_reducible apply endObject_within | split)

theorem dropItem_within {L : Nat} {s0 : State} (a0 : Word) {s : State} (hs : Within L s0 s) (hl : Sub 0x118000 L) :
    Within L s0 (dropItem a0 s) := by
  unfold dropItem
  repeat' (first
    | with_reducible assumption | ((with_reducible refine Sub.le ?_ hl); rfl)
    | ((with_reducible refine Or.inr (Sub.le ?_ hl)); rfl)
    | ((with_reducible refine Or.inl (fun _ => Eq.symm ?_)); rfl) | (intro _; (with_reducible refine Eq.symm ?_); rfl)
    | with_reducible apply modEng_within)

theorem completeH_within {L : Nat} {s0 : State} (a0 : Word) (a1 : Verdict) (a2 : Nat) (a3 : DWord) (a4 : Option Word)
    {s : State} (hs : Within L s0 s) (hl : Sub 0x20000fb90c3 L) : Within L s0 (completeH a0 a1 a2 a3 a4 s) := by
  unfold completeH
  repeat' (first
    | with_reducible assumption | ((with_reducible refine Sub.le ?_ hl); rfl) | with_reducible apply startAll_within
    | with_reducible apply endSlot_within | with_reducible apply postFinal_within
    | with_reducible apply dropItem_within | split)

theorem complete_within {L : Nat} {s0 : State} (a0 : Word) (a1 : Verdict) (a2 : Nat) (a3 : DWord) {s : State} (hs :
    Within L s0 s) (hl : Sub 0x20000fb90c3 L) : Within L s0 (complete a0 a1 a2 a3 s) := by
  unfold complete
  repeat' (first | with_reducible assumption | with_reducible apply completeH_within)

theorem completeBehind_within {L : Nat} {s0 : State} (a0 : Word) (a1 : Verdict) (a2 : Nat) (a3 : DWord) {s : State}
    (hs : Within L s0 s) (hl : Sub 0x20000fb90c3 L) : Within L s0 (completeBehind a0 a1 a2 a3 s) := by
  unfold completeBehind
  repeat' (first
    | with_reducible assumption | ((with_reducible refine Sub.le ?_ hl); rfl) | with_reducible apply owe_within
    | with_reducible apply complete_within | split)

theorem completeOpt_within {L : Nat} {s0 : State} (a0 : Option Word) (a1 : Verdict) (a2 : Nat) (a3 : DWord) {s :
    State} (hs : Within L s0 s) (hl : Sub 0x20000fb90c3 L) : Within L s0 (completeOpt a0 a1 a2 a3 s) := by
  unfold completeOpt
  repeat' (first | with_reducible assumption | with_reducible apply complete_within | split)

theorem interim_within {L : Nat} {s0 : State} (a0 : Word) (a1 : Nat) (a2 : DWord) {s : State} (hs : Within L s0 s) (hl
    : Sub 0x20000039083 L) : Within L s0 (interim a0 a1 a2 s) := by
  unfold interim
  repeat' (first
    | with_reducible assumption | ((with_reducible refine Sub.le ?_ hl); rfl)
    | (intro x; refine Within.cut (L := L) (s := s0) x ?_ ?_; rotate_left; intro hx; clear_value x; rotate_left; subst x)
    | (intro x; clear_value x) | lift_lets | with_reducible apply modItem_within
    | with_reducible apply postService_within | with_reducible apply writeCompletion_within
    | with_reducible apply addComp_within | with_reducible apply holdComp_within | split)

theorem postHeld_within {L : Nat} {s0 : State} (a0 : Nat) {s : State} (hs : Within L s0 s) (hl : Sub 0xc290c3 L) :
    Within L s0 (postHeld a0 s) := by
  unfold postHeld; split
  repeat' (first
    | with_reducible assumption | ((with_reducible refine Sub.le ?_ hl); rfl)
    | ((with_reducible refine Or.inr (Sub.le ?_ hl)); rfl)
    | (intro x; refine Within.cut (L := L) (s := s0) x ?_ ?_; rotate_left; intro hx; clear_value x; rotate_left; subst x)
    | (intro x; clear_value x) | ((with_reducible refine Or.inl (fun _ => Eq.symm ?_)); rfl)
    | (intro _; (with_reducible refine Eq.symm ?_); rfl) | lift_lets | with_reducible apply modEng_within
    | with_reducible apply commit_within | with_reducible apply writeCompletion_within | split)

theorem postAllHeld_within {L : Nat} {s0 : State} (a0 : Nat) (a1 : Nat) {s : State} (hs : Within L s0 s) (hl : Sub
    0xc290c3 L) : Within L s0 (postAllHeld a0 a1 s) := by
  induction a0 generalizing a1 s with
  | zero =>
    unfold postAllHeld
    repeat' (first | with_reducible assumption)
  | succ n ih =>
    unfold postAllHeld
    repeat' (first
      | with_reducible assumption | with_reducible apply postHeld_within | with_reducible apply ih | split)

theorem commitStart_within {L : Nat} {s0 : State} (a0 : Item) {s : State} (hs : Within L s0 s) (hl : Sub 0xc18040 L) :
    Within L s0 (commitStart a0 s) := by
  unfold commitStart
  repeat' (first
    | with_reducible assumption | ((with_reducible refine Sub.le ?_ hl); rfl) | with_reducible apply modItem_within
    | with_reducible apply commit_within | split)

theorem setBud_within {L : Nat} {s0 : State} (a0 : Demand) (a1 : BudState) {s : State} (hs : Within L s0 s) (hl : Sub
    0xea0000000 L) : Within L s0 (setBud a0 a1 s) := by
  unfold setBud
  repeat' (first
    | with_reducible assumption | ((with_reducible refine Sub.le ?_ hl); rfl) | with_reducible apply modRail_within
    | with_reducible apply modRelay_within | with_reducible apply modMotor_within | with_reducible apply modFan_within
    | with_reducible apply modBud_within | split)

theorem budAfter_within {L : Nat} {s0 : State} (a0 : Demand) {s : State} (hs : Within L s0 s) (hl : Sub 0xea0000000 L)
    : Within L s0 (budAfter a0 s) := by
  unfold budAfter
  repeat' (first | with_reducible assumption | with_reducible apply setBud_within | split)

theorem withdrawThose_within {L : Nat} {s0 : State} (a0 : Req → Bool) {s : State} (hs : Within L s0 s) (hl : Sub
    0xea0000000 L) : Within L s0 (withdrawThose a0 s) := by
  unfold withdrawThose
  repeat' (first
    | with_reducible assumption | ((with_reducible refine Sub.le ?_ hl); rfl) | intro _
    | with_reducible apply budAfter_within | with_reducible apply modBud_within
    | with_reducible refine Within.foldl ?_ ?_)

theorem withdraw_within {L : Nat} {s0 : State} (a0 : Word) {s : State} (hs : Within L s0 s) (hl : Sub 0xea0000000 L) :
    Within L s0 (withdraw a0 s) := by
  unfold withdraw
  repeat' (first | with_reducible assumption | with_reducible apply withdrawThose_within)

theorem supersede_within {L : Nat} {s0 : State} (a0 : Item) {s : State} (hs : Within L s0 s) (hl : Sub 0x20ea0fb90c3
    L) : Within L s0 (supersede a0 s) := by
  unfold supersede
  repeat' (first
    | with_reducible assumption | ((with_reducible refine Sub.le ?_ hl); rfl) | intro _
    | with_reducible apply complete_within | with_reducible apply withdraw_within
    | with_reducible refine Within.foldl ?_ ?_)

theorem beginWork_within {L : Nat} {s0 : State} (a0 : Nat) (a1 : Word) (a2 : Item → State → State) {s : State} (ha2 :
    ∀ b0 t, Within L s0 t → Within L s0 (a2 b0 t)) (hs : Within L s0 s) (hl : Sub 0x20ea0fb90c3 L) : Within L s0
    (beginWork a0 a1 a2 s) := by
  unfold beginWork
  repeat' (first
    | with_reducible assumption | ((with_reducible refine Sub.le ?_ hl); rfl)
    | (intro x; refine Within.cut (L := L) (s := s0) x ?_ ?_; rotate_left; intro hx; clear_value x; rotate_left; subst x)
    | intro _ | lift_lets | with_reducible apply supersede_within | with_reducible apply rootWake_within
    | with_reducible apply modItem_within | with_reducible apply complete_within | with_reducible apply ha2 | split)

theorem refuseOperand_within {L : Nat} {s0 : State} (a0 : Word) {s : State} (hs : Within L s0 s) (hl : Sub
    0x20000fb90c3 L) : Within L s0 (refuseOperand a0 s) := by
  unfold refuseOperand
  repeat' (first | with_reducible assumption | with_reducible apply complete_within)

/-! ### Machine/Ledger.lean -/

theorem retarget_within {L : Nat} {s0 : State} {s : State} (hs : Within L s0 s) (hl : Sub 0x100000000 L) : Within L s0
    (retarget s) := by
  unfold retarget
  repeat' (first
    | with_reducible assumption | (intro x; clear_value x) | lift_lets | with_reducible apply modChg_within)

theorem overEnds_within {L : Nat} {s0 : State} {s : State} (hs : Within L s0 s) (hl : Sub 0x80000000 L) : Within L s0
    (overEnds s) := by
  unfold overEnds
  repeat' (first | with_reducible assumption | with_reducible apply modBud_within)

theorem fitCharger_within {L : Nat} {s0 : State} {s : State} (hs : Within L s0 s) (hl : Sub 0xfa0000000 L) : Within L
    s0 (fitCharger s) := by
  unfold fitCharger
  repeat' (first
    | with_reducible assumption | ((with_reducible refine Sub.le ?_ hl); rfl) | (intro x; clear_value x) | lift_lets
    | with_reducible apply retarget_within | with_reducible apply overEnds_within | with_reducible apply setBud_within
    | with_reducible apply modBud_within | split)

theorem takeSlot_within {L : Nat} {s0 : State} (a0 : Nat) (a1 : Time) {s : State} (hs : Within L s0 s) (hl : Sub
    0x80000000 L) : Within L s0 (takeSlot a0 a1 s) := by
  unfold takeSlot
  repeat' (first | with_reducible assumption | with_reducible apply modBud_within | split)

theorem serveReq_within {L : Nat} {s0 : State} (a0 : Time) (a1 : Req) {s : State} (hs : Within L s0 s) (hl : Sub
    0xfa0000000 L) : Within L s0 (serveReq a0 a1 s) := by
  unfold serveReq
  repeat' (first
    | with_reducible assumption | ((with_reducible refine Sub.le ?_ hl); rfl)
    | (intro x; refine Within.cut (L := L) (s := s0) x ?_ ?_; rotate_left; intro hx; clear_value x; rotate_left; subst x)
    | (intro x; clear_value x) | lift_lets | with_reducible apply modBud_within
    | with_reducible apply fitCharger_within | with_reducible apply setBud_within
    | with_reducible apply takeSlot_within | split)

theorem release_within {L : Nat} {s0 : State} (a0 : Demand) {s : State} (hs : Within L s0 s) (hl : Sub 0xfa0000000 L)
    : Within L s0 (release a0 s) := by
  unfold release
  repeat' (first
    | with_reducible assumption | ((with_reducible refine Sub.le ?_ hl); rfl) | with_reducible apply fitCharger_within
    | with_reducible apply setBud_within | with_reducible apply modBud_within)

theorem lowerGrant_within {L : Nat} {s0 : State} (a0 : Demand) (a1 : Nat) (a2 : Nat) {s : State} (hs : Within L s0 s)
    (hl : Sub 0xfa0000000 L) : Within L s0 (lowerGrant a0 a1 a2 s) := by
  unfold lowerGrant
  repeat' (first
    | with_reducible assumption | ((with_reducible refine Sub.le ?_ hl); rfl) | with_reducible apply fitCharger_within
    | with_reducible apply setBud_within | with_reducible apply modBud_within)

theorem forceGrant_within {L : Nat} {s0 : State} (a0 : Demand) (a1 : Nat) (a2 : Nat) {s : State} (hs : Within L s0 s)
    (hl : Sub 0xfa0000000 L) : Within L s0 (forceGrant a0 a1 a2 s) := by
  unfold forceGrant
  repeat' (first
    | with_reducible assumption | ((with_reducible refine Sub.le ?_ hl); rfl) | with_reducible apply fitCharger_within
    | with_reducible apply setBud_within | with_reducible apply modBud_within)

theorem withdrawDemand_within {L : Nat} {s0 : State} (a0 : Demand) {s : State} (hs : Within L s0 s) (hl : Sub
    0xea0000000 L) : Within L s0 (withdrawDemand a0 s) := by
  unfold withdrawDemand
  repeat' (first | with_reducible assumption | with_reducible apply withdrawThose_within)

theorem addReq_within {L : Nat} {s0 : State} (a0 : Req) {s : State} (hs : Within L s0 s) (hl : Sub 0x80000000 L) :
    Within L s0 (addReq a0 s) := by
  unfold addReq
  repeat' (first | with_reducible assumption | with_reducible apply modBud_within)

theorem noteRefusal_within {L : Nat} {s0 : State} (a0 : Demand) (a1 : Nat) {s : State} (hs : Within L s0 s) (hl : Sub
    0xea0000002 L) : Within L s0 (noteRefusal a0 a1 s) := by
  unfold noteRefusal
  repeat' (first
    | with_reducible assumption | ((with_reducible refine Sub.le ?_ hl); rfl) | with_reducible apply setBud_within
    | with_reducible apply setReg_within | with_reducible apply countReg_within)

theorem place_within {L : Nat} {s0 : State} (a0 : Req) (a1 : Asked) {s : State} (hs : Within L s0 s) (hl : Sub
    0xfa0000002 L) : Within L s0 (place a0 a1 s) := by
  unfold place
  repeat' (first
    | with_reducible assumption | ((with_reducible refine Sub.le ?_ hl); rfl)
    | with_reducible apply noteRefusal_within | with_reducible apply serveReq_within
    | with_reducible apply fitCharger_within | with_reducible apply setBud_within
    | with_reducible apply countReg_within | with_reducible apply addReq_within | split)

theorem expire_within {L : Nat} {s0 : State} (a0 : Time) {s : State} (hs : Within L s0 s) (hl : Sub 0xfa0000000 L) :
    Within L s0 (expire a0 s) := by
  unfold expire
  repeat' (first
    | with_reducible assumption | (intro x; clear_value x) | intro _ | lift_lets | with_reducible apply release_within
    | with_reducible refine Within.foldl ?_ ?_)

theorem serveAll_within {L : Nat} {s0 : State} (a0 : Time) {s : State} (hs : Within L s0 s) (hl : Sub 0xfa0000000 L) :
    Within L s0 (serveAll a0 s) := by
  unfold serveAll
  repeat' (first
    | with_reducible assumption | intro _ | with_reducible apply serveReq_within
    | with_reducible refine Within.foldl ?_ ?_)

theorem itemAsks_within {L : Nat} {s0 : State} (a0 : Word) (a1 : Req) (a2 : State → State) {s : State} (ha2 : ∀ t,
    Within L s0 t → Within L s0 (a2 t)) (hs : Within L s0 s) (hl : Sub 0x20fa0fb90c3 L) : Within L s0 (itemAsks a0 a1
    a2 s) := by
  unfold itemAsks
  repeat' (first
    | with_reducible assumption | ((with_reducible refine Sub.le ?_ hl); rfl)
    | (intro x; refine Within.cut (L := L) (s := s0) x ?_ ?_; rotate_left; intro hx; clear_value x; rotate_left; subst x)
    | (intro x; clear_value x) | lift_lets | with_reducible apply place_within | with_reducible apply complete_within
    | with_reducible apply interim_within | with_reducible apply modItem_within | with_reducible apply ha2 | split)

/-! ### Machine/Stops.lean -/

theorem setPresent_within {L : Nat} {s0 : State} (a0 : Nat) (a1 : Nat) (a2 : Bool) {s : State} (hs : Within L s0 s)
    (hl : Sub 0x8000000 L) : Within L s0 (setPresent a0 a1 a2 s) := by
  unfold setPresent
  repeat' (first
    | with_reducible assumption | ((with_reducible refine Or.inl (latched_of_eq (fun _ => ?_) (fun _ => ?_))) <;> rfl)
    | with_reducible apply modSrc_within | split)

theorem endCause_within {L : Nat} {s0 : State} (a0 : Nat) (a1 : Nat) {s : State} (hs : Within L s0 s) (hl : Sub
    0x8000000 L) : Within L s0 (endCause a0 a1 s) := by
  unfold endCause
  repeat' (first | with_reducible assumption | with_reducible apply setPresent_within)

theorem supersedeOn_within {L : Nat} {s0 : State} (a0 : Nat) (a1 : Word) {s : State} (hs : Within L s0 s) (hl : Sub
    0x20ea0fb90c3 L) : Within L s0 (supersedeOn a0 a1 s) := by
  unfold supersedeOn
  repeat' (first
    | with_reducible assumption | ((with_reducible refine Sub.le ?_ hl); rfl) | intro _
    | with_reducible apply complete_within | with_reducible apply withdraw_within
    | with_reducible refine Within.foldl ?_ ?_)

theorem hubStart_within {L : Nat} {s0 : State} (a0 : Item) {s : State} (hs : Within L s0 s) (hl : Sub 0xc00040 L) :
    Within L s0 (hubStart a0 s) := by
  unfold hubStart
  repeat' (first | with_reducible assumption | with_reducible apply commit_within)

theorem hubWritten_within {L : Nat} {s0 : State} (a0 : Item) (a1 : Comp) {s : State} (hs : Within L s0 s) (hl : Sub
    0xc00040 L) : Within L s0 (hubWritten a0 a1 s).2 := by
  unfold hubWritten
  repeat' (first
    | with_reducible assumption
    | (intro x; refine Within.cut (L := L) (s := s0) x ?_ ?_; rotate_left; intro hx; clear_value x; rotate_left; subst x)
    | (intro x; clear_value x) | lift_lets | with_reducible apply makeWay_within | with_reducible apply commit_within
    | with_reducible apply hubStart_within)

theorem hubRecs_within {L : Nat} {s0 : State} (a0 : Nat) (a1 : Word) (a2 : Vector Word 10) {s : State} (hs : Within L
    s0 s) (hl : Sub 0xc00040 L) : Within L s0 (hubRecs a0 a1 a2 s).2 := by
  unfold hubRecs
  repeat' (first
    | with_reducible assumption | ((with_reducible refine Sub.le ?_ hl); rfl) | (intro x; clear_value x) | lift_lets
    | with_reducible apply owe_within | with_reducible apply hubWritten_within | split)

theorem hubItem_within {L : Nat} {s0 : State} (a0 : Nat) (a1 : Word) (a2 : Word) {s : State} (hs : Within L s0 s) (hl
    : Sub 0x20ea0fb90c3 L) : Within L s0 (hubItem a0 a1 a2 s) := by
  unfold hubItem
  repeat' (first
    | with_reducible assumption | ((with_reducible refine Sub.le ?_ hl); rfl) | with_reducible apply hubRecs_within
    | with_reducible apply supersedeOn_within)

theorem writeRelay_within {L : Nat} {s0 : State} (a0 : Fin 48) {s : State} (hs : Within L s0 s) (hl : Sub 0x200c00040
    L) : Within L s0 (writeRelay a0 s) := by
  unfold writeRelay
  repeat' (first
    | with_reducible assumption | ((with_reducible refine Sub.le ?_ hl); rfl) | with_reducible apply modRelay_within
    | with_reducible apply commit_within | split)

theorem commitRelay_within {L : Nat} {s0 : State} (a0 : Fin 48) {s : State} (hs : Within L s0 s) (hl : Sub 0x200c00040
    L) : Within L s0 (commitRelay a0 s) := by
  unfold commitRelay
  repeat' (first
    | with_reducible assumption | ((with_reducible refine Sub.le ?_ hl); rfl) | with_reducible apply owe_within
    | with_reducible apply writeRelay_within | split)

theorem completeFree_within {L : Nat} {s0 : State} (a0 : Option Word) (a1 : Verdict) {s : State} (hs : Within L s0 s)
    (hl : Sub 0x20000fb90c3 L) : Within L s0 (completeFree a0 a1 s) := by
  unfold completeFree
  repeat' (first
    | with_reducible assumption
    | (intro x; refine Within.cut (L := L) (s := s0) x.2 ?_ ?_; rotate_left; intro hx; clear_value x; rotate_left; subst x)
    | lift_lets | with_reducible apply drawNat_within | with_reducible apply complete_within | split)

theorem setPg_within {L : Nat} {s0 : State} (a0 : Fin 48) (a1 : Bool) {s : State} (hs : Within L s0 s) (hl : Sub
    0x2004a083 L) : Within L s0 (setPg a0 a1 s) := by
  unfold setPg
  repeat' (first
    | with_reducible assumption | ((with_reducible refine Sub.le ?_ hl); rfl) | with_reducible apply event_within
    | with_reducible apply setReg_within | with_reducible apply modRail_within | split)

theorem modLanes_within {L : Nat} {s0 : State} (a0 : List (Fin 48)) (a1 : Lane → Lane) {s : State} (hs : Within L s0
    s) (hl : Sub 0x10000000 L) : Within L s0 (modLanes a0 a1 s) := by
  unfold modLanes
  repeat' (first
    | with_reducible assumption | intro _ | with_reducible apply modLane_within
    | with_reducible refine Within.foldl ?_ ?_)

theorem placeLanes_within {L : Nat} {s0 : State} (a0 : Fin 48) (a1 : List (Fin 48)) {s : State} (hs : Within L s0 s)
    (hl : Sub 0x10000000 L) : Within L s0 (placeLanes a0 a1 s) := by
  unfold placeLanes
  repeat' (first
    | with_reducible assumption | intro _ | with_reducible apply modLane_within
    | with_reducible refine Within.foldl ?_ ?_)

theorem failNodes_within {L : Nat} {s0 : State} (a0 : Fin 48) {s : State} (hs : Within L s0 s) (hl : Sub 0xee0000000
    L) : Within L s0 (failNodes a0 s) := by
  unfold failNodes
  repeat' (first
    | with_reducible assumption | ((with_reducible refine Sub.le ?_ hl); rfl) | (intro x; clear_value x) | intro _
    | lift_lets | with_reducible apply withdrawThose_within | with_reducible apply modGraph_within
    | with_reducible refine Within.foldl ?_ ?_ | split)

theorem settleRail_within {L : Nat} {s0 : State} (a0 : Fin 48) {s : State} (hs : Within L s0 s) (hl : Sub
    0x20020fb90c3 L) : Within L s0 (settleRail a0 s) := by
  unfold settleRail
  repeat' (first
    | with_reducible assumption | ((with_reducible refine Sub.le ?_ hl); rfl) | intro _
    | with_reducible apply complete_within | with_reducible apply modRail_within
    | with_reducible refine Within.foldl ?_ ?_ | split)

theorem railDown_within {L : Nat} {s0 : State} (a0 : Fin 48) (a1 : RailState) {s : State} (hs : Within L s0 s) (hl :
    Sub 0x20fb0ffb0c3 L) : Within L s0 (railDown a0 a1 s) := by
  unfold railDown
  repeat' (first
    | with_reducible assumption | ((with_reducible refine Sub.le ?_ hl); rfl)
    | (intro x; refine Within.cut (L := L) (s := s0) x ?_ ?_; rotate_left; intro hx; clear_value x; rotate_left; subst x)
    | intro _ | lift_lets | with_reducible apply modLanes_within | with_reducible apply placeLanes_within
    | with_reducible apply modRail_within | with_reducible apply setPg_within | with_reducible apply release_within
    | with_reducible apply settleRail_within | split)

theorem withdrawStarts_within {L : Nat} {s0 : State} (a0 : Fin 48) {s : State} (hs : Within L s0 s) (hl : Sub
    0xea0000000 L) : Within L s0 (withdrawStarts a0 s) := by
  unfold withdrawStarts
  repeat' (first | with_reducible assumption | with_reducible apply withdrawThose_within)

theorem railIsolate_within {L : Nat} {s0 : State} (a0 : Fin 48) {s : State} (hs : Within L s0 s) (hl : Sub
    0x20ff0ffb0c3 L) : Within L s0 (railIsolate a0 s) := by
  unfold railIsolate
  repeat' (first
    | with_reducible assumption | ((with_reducible refine Sub.le ?_ hl); rfl)
    | (intro x; refine Within.cut (L := L) (s := s0) x ?_ ?_; rotate_left; intro hx; clear_value x; rotate_left; subst x)
    | intro _ | lift_lets | with_reducible apply withdrawStarts_within | with_reducible apply hubItem_within
    | with_reducible apply failNodes_within | with_reducible apply railDown_within | split)

theorem railShed_within {L : Nat} {s0 : State} (a0 : Fin 48) {s : State} (hs : Within L s0 s) (hl : Sub 0x20ff0ffb0c3
    L) : Within L s0 (railShed a0 s) := by
  unfold railShed
  repeat' (first
    | with_reducible assumption | ((with_reducible refine Sub.le ?_ hl); rfl)
    | (intro x; refine Within.cut (L := L) (s := s0) x ?_ ?_; rotate_left; intro hx; clear_value x; rotate_left; subst x)
    | intro _ | lift_lets | with_reducible apply failNodes_within | with_reducible apply railDown_within
    | with_reducible apply hubItem_within | with_reducible apply setBud_within | split)

theorem setChg_within {L : Nat} {s0 : State} (a0 : ChgState) {s : State} (hs : Within L s0 s) (hl : Sub 0xfa004a083 L)
    : Within L s0 (setChg a0 s) := by
  unfold setChg
  repeat' (first
    | with_reducible assumption | ((with_reducible refine Sub.le ?_ hl); rfl)
    | (intro x; refine Within.cut (L := L) (s := s0) x ?_ ?_; rotate_left; intro hx; clear_value x; rotate_left; subst x)
    | (intro x; clear_value x) | lift_lets | with_reducible apply fitCharger_within
    | with_reducible apply modChg_within | with_reducible apply orReg_within | with_reducible apply setBud_within
    | with_reducible apply event_within | split)

theorem chgUpdate_within {L : Nat} {s0 : State} {s : State} (hs : Within L s0 s) (hl : Sub 0xfa004a083 L) : Within L
    s0 (chgUpdate s) := by
  unfold chgUpdate
  repeat' (first | with_reducible assumption | with_reducible apply setChg_within)

theorem lendOff_within {L : Nat} {s0 : State} (a0 : Nat) {s : State} (hs : Within L s0 s) (hl : Sub 0xfa004a087 L) :
    Within L s0 (lendOff a0 s) := by
  unfold lendOff
  repeat' (first
    | with_reducible assumption | ((with_reducible refine Sub.le ?_ hl); rfl)
    | (intro x; refine Within.cut (L := L) (s := s0) x ?_ ?_; rotate_left; intro hx; clear_value x; rotate_left; subst x)
    | intro _ | ((with_reducible refine Or.inl (fun _ => Eq.symm ?_)); rfl) | lift_lets
    | with_reducible apply modChg_within | with_reducible apply modPwr_within | with_reducible apply release_within
    | with_reducible apply chgUpdate_within | with_reducible apply event_within | with_reducible apply orReg_within
    | split)

theorem liftOff_within {L : Nat} {s0 : State} (a0 : Nat) {s : State} (hs : Within L s0 s) (hl : Sub 0xfa004a083 L) :
    Within L s0 (liftOff a0 s) := by
  unfold liftOff
  repeat' (first
    | with_reducible assumption | ((with_reducible refine Sub.le ?_ hl); rfl)
    | (intro x; refine Within.cut (L := L) (s := s0) x ?_ ?_; rotate_left; intro hx; clear_value x; rotate_left; subst x)
    | intro _ | lift_lets | with_reducible apply modChg_within | with_reducible apply event_within
    | with_reducible apply orReg_within | with_reducible apply release_within | split)

theorem lendAbort_within {L : Nat} {s0 : State} (a0 : Nat) {s : State} (hs : Within L s0 s) (hl : Sub 0x20fa0ffb0c7 L)
    : Within L s0 (lendAbort a0 s) := by
  unfold lendAbort
  repeat' (first
    | with_reducible assumption | ((with_reducible refine Sub.le ?_ hl); rfl) | with_reducible apply lendOff_within
    | with_reducible apply completeFree_within | with_reducible apply withdrawDemand_within | split)

theorem liftAbort_within {L : Nat} {s0 : State} (a0 : Nat) {s : State} (hs : Within L s0 s) (hl : Sub 0x20fa0ffb0c3 L)
    : Within L s0 (liftAbort a0 s) := by
  unfold liftAbort
  repeat' (first
    | with_reducible assumption | ((with_reducible refine Sub.le ?_ hl); rfl)
    | with_reducible apply completeFree_within | with_reducible apply liftOff_within
    | with_reducible apply withdrawDemand_within)

theorem liftOffFree_within {L : Nat} {s0 : State} {s : State} (hs : Within L s0 s) (hl : Sub 0xfa004a083 L) : Within L
    s0 (liftOffFree s) := by
  unfold liftOffFree
  repeat' (first
    | with_reducible assumption
    | (intro x; refine Within.cut (L := L) (s := s0) x.2 ?_ ?_; rotate_left; intro hx; clear_value x; rotate_left; subst x)
    | lift_lets | with_reducible apply drawNat_within | with_reducible apply liftOff_within | split)

theorem liftAbortFree_within {L : Nat} {s0 : State} {s : State} (hs : Within L s0 s) (hl : Sub 0x20fa0ffb0c3 L) :
    Within L s0 (liftAbortFree s) := by
  unfold liftAbortFree
  repeat' (first
    | with_reducible assumption
    | (intro x; refine Within.cut (L := L) (s := s0) x.2 ?_ ?_; rotate_left; intro hx; clear_value x; rotate_left; subst x)
    | lift_lets | with_reducible apply drawNat_within | with_reducible apply liftAbort_within | split)

theorem relayPresent_within {L : Nat} {s0 : State} (a0 : Fin 48) (a1 : Bool) {s : State} (hs : Within L s0 s) (hl :
    Sub 0x8000000 L) : Within L s0 (relayPresent a0 a1 s) := by
  unfold relayPresent
  repeat' (first
    | with_reducible assumption | ((with_reducible refine Or.inl (latched_of_eq (fun _ => ?_) (fun _ => ?_))) <;> rfl)
    | with_reducible apply modSrc_within)

theorem blankRelay_within {L : Nat} {s0 : State} (a0 : Nat) (a1 : Nat) {s : State} (hs : Within L s0 s) (hl : Sub
    0x2000000000 L) : Within L s0 (blankRelay a0 a1 s) := by
  unfold blankRelay
  repeat' (first
    | with_reducible assumption | ((with_reducible refine Or.inr (Sub.le ?_ hl)); rfl)
    | ((with_reducible refine Or.inl (Eq.symm ?_)); rfl) | ((with_reducible refine Eq.symm ?_); rfl)
    | fail_if_no_progress (with_reducible apply Within.parts))

theorem relayJudged_within {L : Nat} {s0 : State} (a0 : Fin 48) (a1 : Nat) (a2 : Nat) (a3 : Nat) {s : State} (hs :
    Within L s0 s) (hl : Sub 0x2fa804a083 L) : Within L s0 (relayJudged a0 a1 a2 a3 s) := by
  unfold relayJudged
  repeat' (first
    | with_reducible assumption | ((with_reducible refine Sub.le ?_ hl); rfl)
    | (intro x; refine Within.cut (L := L) (s := s0) x ?_ ?_; rotate_left; intro hx; clear_value x; rotate_left; subst x)
    | (intro x; clear_value x) | lift_lets | with_reducible apply setReg_within
    | with_reducible apply relayPresent_within | with_reducible apply blankRelay_within
    | with_reducible apply countReg_within | with_reducible apply event_within | with_reducible apply release_within
    | with_reducible apply modRelay_within | split)

theorem relayVerdict_within {L : Nat} {s0 : State} (a0 : Fin 48) (a1 : RelayState) {s : State} (hs : Within L s0 s)
    (hl : Sub 0x20200fb90c3 L) : Within L s0 (relayVerdict a0 a1 s) := by
  unfold relayVerdict
  repeat' (first
    | with_reducible assumption | ((with_reducible refine Sub.le ?_ hl); rfl)
    | (intro x; refine Within.cut (L := L) (s := s0) x ?_ ?_; rotate_left; intro hx; clear_value x; rotate_left; subst x)
    | (intro x; clear_value x) | lift_lets | with_reducible apply modRelay_within
    | with_reducible apply completeBehind_within | split)

theorem relayEnd_within {L : Nat} {s0 : State} (a0 : Fin 48) (a1 : Nat) (a2 : Nat) (a3 : Nat) {s : State} (hs : Within
    L s0 s) (hl : Sub 0x22fa8ffb0c3 L) : Within L s0 (relayEnd a0 a1 a2 a3 s) := by
  unfold relayEnd
  repeat' (first
    | with_reducible assumption | ((with_reducible refine Sub.le ?_ hl); rfl)
    | (intro x; refine Within.cut (L := L) (s := s0) x ?_ ?_; rotate_left; intro hx; clear_value x; rotate_left; subst x)
    | intro _ | lift_lets | with_reducible apply relayJudged_within | with_reducible apply modRelay_within
    | with_reducible apply relayVerdict_within | split)

theorem relayCut_within {L : Nat} {s0 : State} (a0 : Fin 48) {s : State} (hs : Within L s0 s) (hl : Sub 0x22fa8ffb0c3
    L) : Within L s0 (relayCut a0 s) := by
  unfold relayCut
  repeat' (first
    | with_reducible assumption
    | (intro x; refine Within.cut (L := L) (s := s0) x.2 ?_ ?_; rotate_left; intro hx; clear_value x; rotate_left; subst x)
    | lift_lets | with_reducible apply drawNat_within | with_reducible apply relayEnd_within)

theorem motorBrake_within {L : Nat} {s0 : State} (a0 : Fin 2) (a1 : BrakeEnd) {s : State} (hs : Within L s0 s) (hl :
    Sub 0x400000000 L) : Within L s0 (motorBrake a0 a1 s) := by
  unfold motorBrake
  repeat' (first | with_reducible assumption | with_reducible apply modMotor_within)

theorem motorRest_within {L : Nat} {s0 : State} (a0 : Fin 2) (a1 : MotorState) {s : State} (hs : Within L s0 s) (hl :
    Sub 0xfa0000000 L) : Within L s0 (motorRest a0 a1 s) := by
  unfold motorRest
  repeat' (first
    | with_reducible assumption | ((with_reducible refine Sub.le ?_ hl); rfl) | with_reducible apply release_within
    | with_reducible apply modMotor_within)

theorem motorFail_within {L : Nat} {s0 : State} (a0 : Fin 2) (a1 : Nat) (a2 : Bool) {s : State} (hs : Within L s0 s)
    (hl : Sub 0x20fa0fb90c3 L) : Within L s0 (motorFail a0 a1 a2 s) := by
  unfold motorFail
  repeat' (first
    | with_reducible assumption | ((with_reducible refine Sub.le ?_ hl); rfl)
    | (intro x; refine Within.cut (L := L) (s := s0) x ?_ ?_; rotate_left; intro hx; clear_value x; rotate_left; subst x)
    | intro _ | lift_lets | with_reducible apply withdrawDemand_within | with_reducible apply release_within
    | with_reducible apply motorBrake_within | with_reducible apply modMotor_within
    | with_reducible apply motorRest_within | with_reducible apply completeOpt_within | split)

theorem motorsSystem_within {L : Nat} {s0 : State} {s : State} (hs : Within L s0 s) (hl : Sub 0x20fa0fb90c3 L) :
    Within L s0 (motorsSystem s) := by
  unfold motorsSystem
  repeat' (first
    | with_reducible assumption | ((with_reducible refine Sub.le ?_ hl); rfl) | intro _
    | with_reducible apply motorRest_within | with_reducible apply motorFail_within
    | with_reducible refine Within.foldl ?_ ?_ | split)

theorem fanDown_within {L : Nat} {s0 : State} (a0 : Fin 4) (a1 : FanState) {s : State} (hs : Within L s0 s) (hl : Sub
    0xfa0000000 L) : Within L s0 (fanDown a0 a1 s) := by
  unfold fanDown
  repeat' (first
    | with_reducible assumption | ((with_reducible refine Sub.le ?_ hl); rfl) | with_reducible apply release_within
    | with_reducible apply modFan_within)

theorem fanFails_within {L : Nat} {s0 : State} (a0 : Fin 4) {s : State} (hs : Within L s0 s) (hl : Sub 0x20fa0fb90c3
    L) : Within L s0 (fanFails a0 s) := by
  unfold fanFails
  repeat' (first
    | with_reducible assumption | ((with_reducible refine Sub.le ?_ hl); rfl)
    | (intro x; refine Within.cut (L := L) (s := s0) x ?_ ?_; rotate_left; intro hx; clear_value x; rotate_left; subst x)
    | intro _ | lift_lets | with_reducible apply modFan_within | with_reducible apply fanDown_within
    | with_reducible apply completeFree_within | split)

theorem fanShed_within {L : Nat} {s0 : State} (a0 : Fin 4) {s : State} (hs : Within L s0 s) (hl : Sub 0xfa0000000 L) :
    Within L s0 (fanShed a0 s) := by
  unfold fanShed
  repeat' (first
    | with_reducible assumption | ((with_reducible refine Sub.le ?_ hl); rfl) | with_reducible apply setBud_within
    | with_reducible apply fanDown_within | split)

theorem laneStop_within {L : Nat} {s0 : State} (a0 : Fin 48) {s : State} (hs : Within L s0 s) (hl : Sub 0x10000000 L)
    : Within L s0 (laneStop a0 s) := by
  unfold laneStop
  repeat' (first | with_reducible assumption | with_reducible apply modLane_within)

theorem usbRelease_within {L : Nat} {s0 : State} {s : State} (hs : Within L s0 s) (hl : Sub 0x2000004a0c3 L) : Within
    L s0 (usbRelease s) := by
  unfold usbRelease
  repeat' (first
    | with_reducible assumption | ((with_reducible refine Sub.le ?_ hl); rfl) | with_reducible apply event_within
    | with_reducible apply sofStops_within | with_reducible apply modUsb_within | split)

/-! ### Machine/FanOps.lean -/

theorem leashEdge_within {L : Nat} {s0 : State} (a0 : Nat) (a1 : Word) (a2 : Nat) (a3 : DWord) {s : State} (hs :
    Within L s0 s) (hl : Sub 0x4a083 L) : Within L s0 (leashEdge a0 a1 a2 a3 s) := by
  unfold leashEdge
  repeat' (first
    | with_reducible assumption | ((with_reducible refine Sub.le ?_ hl); rfl) | with_reducible apply event_within
    | with_reducible apply countReg_within)

theorem fanLeash_within {L : Nat} {s0 : State} (a0 : Fin 4) {s : State} (hs : Within L s0 s) (hl : Sub 0x80004a083 L)
    : Within L s0 (fanLeash a0 s) := by
  unfold fanLeash
  repeat' (first
    | with_reducible assumption | ((with_reducible refine Sub.le ?_ hl); rfl) | (intro x; clear_value x) | lift_lets
    | with_reducible apply leashEdge_within | with_reducible apply modFan_within | split)

theorem fanStart_within {L : Nat} {s0 : State} (a0 : Fin 4) (a1 : Nat) {s : State} (hs : Within L s0 s) (hl : Sub
    0x80004a083 L) : Within L s0 (fanStart a0 a1 s) := by
  unfold fanStart
  repeat' (first
    | with_reducible assumption | ((with_reducible refine Sub.le ?_ hl); rfl) | with_reducible apply fanLeash_within
    | with_reducible apply modFan_within)

theorem withdrawFan_within {L : Nat} {s0 : State} (a0 : Fin 4) {s : State} (hs : Within L s0 s) (hl : Sub 0xea0000000
    L) : Within L s0 (withdrawFan a0 s) := by
  unfold withdrawFan
  repeat' (first | with_reducible assumption | with_reducible apply withdrawThose_within)

theorem fanItemDone_within {L : Nat} {s0 : State} (a0 : Fin 4) (a1 : Nat) {s : State} (hs : Within L s0 s) (hl : Sub
    0x20800fb90c3 L) : Within L s0 (fanItemDone a0 a1 s) := by
  unfold fanItemDone
  repeat' (first
    | with_reducible assumption | ((with_reducible refine Sub.le ?_ hl); rfl)
    | with_reducible apply completeOpt_within | with_reducible apply modFan_within | split)

theorem fanOff_within {L : Nat} {s0 : State} (a0 : Fin 4) {s : State} (hs : Within L s0 s) (hl : Sub 0x20fa0fb90c3 L)
    : Within L s0 (fanOff a0 s) := by
  unfold fanOff
  repeat' (first
    | with_reducible assumption | ((with_reducible refine Sub.le ?_ hl); rfl) | (intro x; clear_value x) | lift_lets
    | with_reducible apply fanItemDone_within | with_reducible apply fanDown_within
    | with_reducible apply withdrawFan_within | with_reducible apply modFan_within)

theorem fanApply_within {L : Nat} {s0 : State} (a0 : Fin 4) {s : State} (hs : Within L s0 s) (hl : Sub 0x20fa0ffb0c3
    L) : Within L s0 (fanApply a0 s) := by
  unfold fanApply
  repeat' (first
    | with_reducible assumption | ((with_reducible refine Sub.le ?_ hl); rfl)
    | (intro x; refine Within.cut (L := L) (s := s0) x ?_ ?_; rotate_left; intro hx; clear_value x; rotate_left; subst x)
    | (intro x; clear_value x) | lift_lets | with_reducible apply withdrawFan_within
    | with_reducible apply fanOff_within | with_reducible apply fanStart_within
    | with_reducible apply lowerGrant_within | with_reducible apply place_within | split)

theorem fansApply_within {L : Nat} {s0 : State} {s : State} (hs : Within L s0 s) (hl : Sub 0x20fa0ffb0c3 L) : Within L
    s0 (fansApply s) := by
  unfold fansApply
  repeat' (first
    | with_reducible assumption | intro _ | with_reducible apply fanApply_within
    | with_reducible refine Within.foldl ?_ ?_ | split)

/-! ### Machine/Shed.lean -/

theorem budEvent_within {L : Nat} {s0 : State} (a0 : BitVec 16) (a1 : Nat) (a2 : Nat) (a3 : DWord) {s : State} (hs :
    Within L s0 s) (hl : Sub 0x4a083 L) : Within L s0 (budEvent a0 a1 a2 a3 s) := by
  unfold budEvent
  repeat' (first
    | with_reducible assumption | ((with_reducible refine Sub.le ?_ hl); rfl) | with_reducible apply sendVector_within
    | with_reducible apply event_within)

theorem shedTier_within {L : Nat} {s0 : State} (a0 : Nat) (a1 : Nat) {s : State} (hs : Within L s0 s) (hl : Sub
    0x20ff0ffb0c7 L) : Within L s0 (shedTier a0 a1 s) := by
  unfold shedTier
  repeat' (first
    | with_reducible assumption | ((with_reducible refine Sub.le ?_ hl); rfl)
    | (intro x; refine Within.cut (L := L) (s := s0) x ?_ ?_; rotate_left; intro hx; clear_value x; rotate_left; subst x)
    | (intro x; clear_value x) | intro _ | lift_lets | with_reducible apply railShed_within
    | with_reducible apply chgUpdate_within | with_reducible apply setBud_within
    | with_reducible apply lendAbort_within | with_reducible apply fanShed_within
    | with_reducible apply budEvent_within | with_reducible apply countReg_within
    | with_reducible refine Within.foldl ?_ ?_ | split)

theorem arbitrateN_within {L : Nat} {s0 : State} (a0 : Nat) {s : State} (hs : Within L s0 s) (hl : Sub 0x20ff0ffb0c7
    L) : Within L s0 (arbitrateN a0 s) := by
  induction a0 generalizing s with
  | zero =>
    unfold arbitrateN
    repeat' (first
      | with_reducible assumption | ((with_reducible refine Sub.le ?_ hl); rfl)
      | (exact absurd ‹0 = Nat.succ _› (by omega))
      | (intro x; refine Within.cut (L := L) (s := s0) x ?_ ?_; rotate_left; intro hx; clear_value x; rotate_left; subst x)
      | (intro x; clear_value x) | lift_lets | with_reducible apply fitCharger_within
      | with_reducible apply modBud_within | with_reducible apply shedTier_within
      | with_reducible apply budEvent_within | with_reducible apply countReg_within | split)
  | succ n ih =>
    unfold arbitrateN
    repeat' (first
      | with_reducible assumption | ((with_reducible refine Sub.le ?_ hl); rfl)
      | (obtain rfl : n = _ := Nat.succ.inj ‹n + 1 = Nat.succ _›; with_reducible apply ih)
      | (intro x; refine Within.cut (L := L) (s := s0) x ?_ ?_; rotate_left; intro hx; clear_value x; rotate_left; subst x)
      | (intro x; clear_value x) | lift_lets | with_reducible apply fitCharger_within
      | with_reducible apply modBud_within | with_reducible apply shedTier_within
      | with_reducible apply budEvent_within | with_reducible apply countReg_within | with_reducible apply ih | split)

theorem arbitrate_within {L : Nat} {s0 : State} {s : State} (hs : Within L s0 s) (hl : Sub 0x20ff0ffb0c7 L) : Within L
    s0 (arbitrate s) := by
  unfold arbitrate
  repeat' (first | with_reducible assumption | with_reducible apply arbitrateN_within)

theorem restoreTier_within {L : Nat} {s0 : State} (a0 : Nat) {s : State} (hs : Within L s0 s) (hl : Sub 0x20ff0ffb0c7
    L) : Within L s0 (restoreTier a0 s) := by
  unfold restoreTier
  repeat' (first
    | with_reducible assumption | ((with_reducible refine Sub.le ?_ hl); rfl)
    | (intro x; refine Within.cut (L := L) (s := s0) x ?_ ?_; rotate_left; intro hx; clear_value x; rotate_left; subst x)
    | intro _ | lift_lets | with_reducible apply budEvent_within | with_reducible apply chgUpdate_within
    | with_reducible apply arbitrate_within | with_reducible apply fanApply_within
    | with_reducible refine Within.foldl ?_ ?_ | split)

theorem shedChange_within {L : Nat} {s0 : State} (a0 : Nat → Bool) (a1 : Nat) (a2 : Nat → Bool) {s : State} (hs :
    Within L s0 s) (hl : Sub 0x20ff0ffb0c7 L) : Within L s0 (shedChange a0 a1 a2 s) := by
  unfold shedChange
  repeat' (first
    | with_reducible assumption | intro _ | with_reducible apply shedTier_within
    | with_reducible apply restoreTier_within | with_reducible refine Within.foldl ?_ ?_ | split)

/-! ### Machine/Arms.lean -/

theorem enterTail_within {L : Nat} {s0 : State} (a0 : Word) {s : State} (hs : Within L s0 s) (hl : Sub 0x118000 L) :
    Within L s0 (enterTail a0 s) := by
  unfold enterTail
  repeat' (first
    | with_reducible assumption | ((with_reducible refine Sub.le ?_ hl); rfl)
    | ((with_reducible refine Or.inr (Sub.le ?_ hl)); rfl)
    | ((with_reducible refine Or.inl (fun _ => Eq.symm ?_)); rfl) | (intro _; (with_reducible refine Eq.symm ?_); rfl)
    | with_reducible apply modEng_within | with_reducible apply modItem_within)

theorem setArmed_within {L : Nat} {s0 : State} (a0 : Fin 64) (a1 : Option ArmedSlot) {s : State} (hs : Within L s0 s)
    (hl : Sub 0x208000 L) : Within L s0 (setArmed a0 a1 s) := by
  unfold setArmed
  repeat' (first
    | with_reducible assumption | ((with_reducible refine Sub.le ?_ hl); rfl)
    | ((with_reducible refine Or.inr (Sub.le ?_ hl)); rfl)
    | ((with_reducible refine Or.inl (fun _ => Eq.symm ?_)); rfl) | (intro _; (with_reducible refine Eq.symm ?_); rfl)
    | with_reducible apply modEng_within)

theorem releaseBodies_within {L : Nat} {s0 : State} (a0 : Fin 64) (a1 : ArmedSlot) {s : State} (hs : Within L s0 s)
    (hl : Sub 0x318000 L) : Within L s0 (releaseBodies a0 a1 s) := by
  unfold releaseBodies
  repeat' (first
    | with_reducible assumption | ((with_reducible refine Sub.le ?_ hl); rfl) | intro _
    | with_reducible apply enterTail_within | with_reducible apply setArmed_within
    | with_reducible refine Within.foldl ?_ ?_)

theorem fireSlot_within {L : Nat} {s0 : State} (a0 : Fin 64) (a1 : Time) {s : State} (hs : Within L s0 s) (hl : Sub
    0xf5a0c3 L) : Within L s0 (fireSlot a0 a1 s) := by
  unfold fireSlot
  repeat' (first
    | with_reducible assumption | ((with_reducible refine Sub.le ?_ hl); rfl)
    | (intro x; refine Within.cut (L := L) (s := s0) x ?_ ?_; rotate_left; intro hx; clear_value x; rotate_left; subst x)
    | (intro x; clear_value x) | intro _ | lift_lets | with_reducible apply setArmed_within
    | with_reducible apply event_within | with_reducible apply commit_within
    | with_reducible apply releaseBodies_within | with_reducible apply modItem_within
    | with_reducible refine Within.foldl ?_ ?_ | split)

theorem fireAll_within {L : Nat} {s0 : State} (a0 : ArmedSlot → Bool) (a1 : Time) {s : State} (hs : Within L s0 s) (hl
    : Sub 0xf5a0c3 L) : Within L s0 (fireAll a0 a1 s) := by
  unfold fireAll
  repeat' (first
    | with_reducible assumption | intro _ | with_reducible apply fireSlot_within
    | with_reducible refine Within.foldl ?_ ?_ | split)

theorem fireOutage_within {L : Nat} {s0 : State} {s : State} (hs : Within L s0 s) (hl : Sub 0xf5a0c3 L) : Within L s0
    (fireOutage s) := by
  unfold fireOutage
  repeat' (first | with_reducible assumption | with_reducible apply fireAll_within)

theorem fireRestore_within {L : Nat} {s0 : State} {s : State} (hs : Within L s0 s) (hl : Sub 0xf5a0c3 L) : Within L s0
    (fireRestore s) := by
  unfold fireRestore
  repeat' (first | with_reducible assumption | with_reducible apply fireAll_within)

theorem fireTamper_within {L : Nat} {s0 : State} (a0 : Nat) {s : State} (hs : Within L s0 s) (hl : Sub 0xf5a0c3 L) :
    Within L s0 (fireTamper a0 s) := by
  unfold fireTamper
  repeat' (first | with_reducible assumption | with_reducible apply fireAll_within)

theorem fireWindow_within {L : Nat} {s0 : State} (a0 : Nat) (a1 : Bool) {s : State} (hs : Within L s0 s) (hl : Sub
    0xf5a0c3 L) : Within L s0 (fireWindow a0 a1 s) := by
  unfold fireWindow
  repeat' (first | with_reducible assumption | with_reducible apply fireAll_within)

theorem fireOwl_within {L : Nat} {s0 : State} (a0 : Nat) {s : State} (hs : Within L s0 s) (hl : Sub 0xf5a0c3 L) :
    Within L s0 (fireOwl a0 s) := by
  unfold fireOwl
  repeat' (first | with_reducible assumption | with_reducible apply fireAll_within)

theorem retryFires_within {L : Nat} {s0 : State} {s : State} (hs : Within L s0 s) (hl : Sub 0xf5a0c3 L) : Within L s0
    (retryFires s) := by
  unfold retryFires
  repeat' (first
    | with_reducible assumption | ((with_reducible refine Sub.le ?_ hl); rfl) | intro _
    | with_reducible apply fireSlot_within | with_reducible apply setArmed_within
    | with_reducible refine Within.foldl ?_ ?_ | split)

/-! ### Machine/PowerOps.lean -/

theorem seqStopNow_within {L : Nat} {s0 : State} (a0 : Fin 8) (a1 : Nat) {s : State} (hs : Within L s0 s) (hl : Sub
    0x21000ffb0c3 L) : Within L s0 (seqStopNow a0 a1 s) := by
  unfold seqStopNow
  repeat' (first
    | with_reducible assumption | ((with_reducible refine Sub.le ?_ hl); rfl)
    | (intro x; refine Within.cut (L := L) (s := s0) x ?_ ?_; rotate_left; intro hx; clear_value x; rotate_left; subst x)
    | intro _ | lift_lets | with_reducible apply modSeq_within | with_reducible apply event_within
    | with_reducible apply completeOpt_within | split)

theorem seqStop_within {L : Nat} {s0 : State} (a0 : Fin 8) (a1 : Nat) {s : State} (hs : Within L s0 s) (hl : Sub
    0x21000ffb0c3 L) : Within L s0 (seqStop a0 a1 s) := by
  unfold seqStop
  repeat' (first
    | with_reducible assumption | ((with_reducible refine Sub.le ?_ hl); rfl) | with_reducible apply modSeq_within
    | with_reducible apply seqStopNow_within | split)

theorem hushSeqs_within {L : Nat} {s0 : State} {s : State} (hs : Within L s0 s) (hl : Sub 0x21000ffb0c3 L) : Within L
    s0 (hushSeqs s) := by
  unfold hushSeqs
  repeat' (first
    | with_reducible assumption | intro _ | with_reducible apply seqStop_within
    | with_reducible refine Within.foldl ?_ ?_ | split)

theorem linkLost_within {L : Nat} {s0 : State} {s : State} (hs : Within L s0 s) (hl : Sub 0x482 L) : Within L s0
    (linkLost s) := by
  unfold linkLost
  repeat' (first
    | with_reducible assumption | ((with_reducible refine Sub.le ?_ hl); rfl)
    | ((with_reducible refine Or.inr (Sub.le ?_ hl)); rfl)
    | ((with_reducible refine Or.inl (fun _ => Eq.symm ?_)); rfl) | with_reducible apply countReg_within
    | with_reducible apply modLink_within | split)

theorem owlReload_within {L : Nat} {s0 : State} (a0 : Fin 2) {s : State} (hs : Within L s0 s) (hl : Sub 0x40000000000
    L) : Within L s0 (owlReload a0 s) := by
  unfold owlReload
  repeat' (first | with_reducible assumption | with_reducible apply modOwl_within)

theorem owlSettle_within {L : Nat} {s0 : State} (a0 : Fin 2) {s : State} (hs : Within L s0 s) (hl : Sub 0x40000000000
    L) : Within L s0 (owlSettle a0 s) := by
  unfold owlSettle
  repeat' (first
    | with_reducible assumption | with_reducible apply modOwl_within | with_reducible apply owlReload_within | split)

theorem owlsSettle_within {L : Nat} {s0 : State} {s : State} (hs : Within L s0 s) (hl : Sub 0x40000000000 L) : Within
    L s0 (owlsSettle s) := by
  unfold owlsSettle
  repeat' (first | with_reducible assumption | with_reducible apply owlSettle_within)

theorem owlEndLadder_within {L : Nat} {s0 : State} (a0 : Fin 2) {s : State} (hs : Within L s0 s) (hl : Sub
    0x40000000000 L) : Within L s0 (owlEndLadder a0 s) := by
  unfold owlEndLadder
  repeat' (first
    | with_reducible assumption | with_reducible apply owlSettle_within | with_reducible apply owlReload_within
    | with_reducible apply modOwl_within)

theorem hushRails_within {L : Nat} {s0 : State} {s : State} (hs : Within L s0 s) (hl : Sub 0x20ff0ffb0c3 L) : Within L
    s0 (hushRails s) := by
  unfold hushRails
  repeat' (first
    | with_reducible assumption | intro _ | with_reducible apply railIsolate_within
    | with_reducible refine Within.foldl ?_ ?_ | split)

theorem hushClock_within {L : Nat} {s0 : State} {s : State} (hs : Within L s0 s) (hl : Sub 0x40 L) : Within L s0
    (hushClock s) := by
  unfold hushClock
  repeat' (first | with_reducible assumption | with_reducible apply modClk_within)

theorem hushFans_within {L : Nat} {s0 : State} {s : State} (hs : Within L s0 s) (hl : Sub 0x20fa0ffb0c3 L) : Within L
    s0 (hushFans s) := by
  unfold hushFans
  repeat' (first
    | with_reducible assumption | ((with_reducible refine Sub.le ?_ hl); rfl) | intro _
    | with_reducible apply fansApply_within | with_reducible apply modFan_within
    | with_reducible refine Within.foldl ?_ ?_)

theorem hostDown_within {L : Nat} {s0 : State} {s : State} (hs : Within L s0 s) (hl : Sub 0x486 L) : Within L s0
    (hostDown s) := by
  unfold hostDown
  repeat' (first
    | with_reducible assumption | ((with_reducible refine Sub.le ?_ hl); rfl)
    | ((with_reducible refine Or.inl (fun _ => Eq.symm ?_)); rfl) | with_reducible apply linkLost_within
    | with_reducible apply modPwr_within)

theorem enterHush_within {L : Nat} {s0 : State} {s : State} (hs : Within L s0 s) (hl : Sub 0x21ff0ffb4d7 L) : Within L
    s0 (enterHush s) := by
  unfold enterHush
  repeat' (first
    | with_reducible assumption | ((with_reducible refine Sub.le ?_ hl); rfl)
    | ((with_reducible refine Or.inr (Sub.le ?_ hl)); rfl)
    | ((with_reducible refine Or.inl (fun _ => Eq.symm ?_)); rfl) | with_reducible apply hushSeqs_within
    | with_reducible apply hushFans_within | with_reducible apply hushClock_within
    | with_reducible apply hostDown_within | with_reducible apply hushRails_within
    | with_reducible apply modPwr_within)

theorem enterOutage_within {L : Nat} {s0 : State} (a0 : Nat) {s : State} (hs : Within L s0 s) (hl : Sub 0x20ff0ffb0d7
    L) : Within L s0 (enterOutage a0 s) := by
  unfold enterOutage
  repeat' (first
    | with_reducible assumption | ((with_reducible refine Sub.le ?_ hl); rfl)
    | ((with_reducible refine Or.inr (Sub.le ?_ hl)); rfl)
    | (intro x; refine Within.cut (L := L) (s := s0) x ?_ ?_; rotate_left; intro hx; clear_value x; rotate_left; subst x)
    | intro _ | ((with_reducible refine Or.inl (fun _ => Eq.symm ?_)); rfl) | lift_lets
    | with_reducible apply modPwr_within | with_reducible apply event_within | with_reducible apply fireOutage_within
    | with_reducible apply arbitrate_within | with_reducible apply chgUpdate_within)

theorem enterFull_within {L : Nat} {s0 : State} {s : State} (hs : Within L s0 s) (hl : Sub 0x20ff0ffb0d7 L) : Within L
    s0 (enterFull s) := by
  unfold enterFull
  repeat' (first
    | with_reducible assumption | ((with_reducible refine Sub.le ?_ hl); rfl)
    | ((with_reducible refine Or.inr (Sub.le ?_ hl)); rfl)
    | (intro x; refine Within.cut (L := L) (s := s0) x ?_ ?_; rotate_left; intro hx; clear_value x; rotate_left; subst x)
    | intro _ | ((with_reducible refine Or.inl (fun _ => Eq.symm ?_)); rfl) | lift_lets
    | with_reducible apply rootWake_within | with_reducible apply modPwr_within | with_reducible apply event_within
    | with_reducible apply fireRestore_within | with_reducible apply arbitrate_within
    | with_reducible apply chgUpdate_within | split)

theorem hushless_within {L : Nat} {s0 : State} {s : State} (hs : Within L s0 s) (hl : Sub 0x486 L) : Within L s0
    (hushless s) := by
  unfold hushless
  repeat' (first | with_reducible assumption | with_reducible apply hostDown_within | split)

theorem factState_within {L : Nat} {s0 : State} {s : State} (hs : Within L s0 s) (hl : Sub 0x14 L) : Within L s0
    (factState s) := by
  unfold factState
  repeat' (first
    | with_reducible assumption | ((with_reducible refine Sub.le ?_ hl); rfl)
    | ((with_reducible refine Or.inr (Sub.le ?_ hl)); rfl)
    | ((with_reducible refine Or.inl (fun _ => Eq.symm ?_)); rfl) | with_reducible apply modPwr_within)

theorem judge_within {L : Nat} {s0 : State} (a0 : Nat) {s : State} (hs : Within L s0 s) (hl : Sub 0x61ff0ffb4d7 L) :
    Within L s0 (judge a0 s) := by
  unfold judge
  repeat' (first
    | with_reducible assumption | ((with_reducible refine Sub.le ?_ hl); rfl)
    | ((with_reducible refine Or.inr (Sub.le ?_ hl)); rfl)
    | (intro x; refine Within.cut (L := L) (s := s0) x ?_ ?_; rotate_left; intro hx; clear_value x; rotate_left; subst x)
    | intro _ | ((with_reducible refine Or.inl (fun _ => Eq.symm ?_)); rfl) | lift_lets
    | with_reducible apply owlsSettle_within | with_reducible apply factState_within
    | with_reducible apply hushless_within | with_reducible apply enterOutage_within
    | with_reducible apply enterFull_within | with_reducible apply rootWake_within
    | with_reducible apply modPwr_within | with_reducible apply enterHush_within | split)

theorem hostFell_within {L : Nat} {s0 : State} {s : State} (hs : Within L s0 s) (hl : Sub 0x61ff0ffb4d7 L) : Within L
    s0 (hostFell s) := by
  unfold hostFell
  repeat' (first
    | with_reducible assumption | ((with_reducible refine Sub.le ?_ hl); rfl)
    | (intro x; refine Within.cut (L := L) (s := s0) x ?_ ?_; rotate_left; intro hx; clear_value x; rotate_left; subst x)
    | intro _ | lift_lets | with_reducible apply judge_within | with_reducible apply hostDown_within | split)

/-! ### Machine/RailOps.lean -/

theorem setVmeas_within {L : Nat} {s0 : State} (a0 : List (Fin 48)) (a1 : Nat) {s : State} (hs : Within L s0 s) (hl :
    Sub 0x2 L) : Within L s0 (setVmeas a0 a1 s) := by
  unfold setVmeas
  repeat' (first
    | with_reducible assumption | intro _ | with_reducible apply setReg_within
    | with_reducible refine Within.foldl ?_ ?_)

theorem laneMeasure_within {L : Nat} {s0 : State} (a0 : Fin 48) (a1 : Nat) {s : State} (hs : Within L s0 s) (hl : Sub
    0x10000000 L) : Within L s0 (laneMeasure a0 a1 s) := by
  unfold laneMeasure
  repeat' (first
    | with_reducible assumption | (intro x; clear_value x) | lift_lets | with_reducible apply modLane_within)

theorem railStart_within {L : Nat} {s0 : State} (a0 : Fin 48) (a1 : Nat) {s : State} (hs : Within L s0 s) (hl : Sub
    0x38000000 L) : Within L s0 (railStart a0 a1 s) := by
  unfold railStart
  repeat' (first
    | with_reducible assumption | ((with_reducible refine Sub.le ?_ hl); rfl)
    | (intro x; refine Within.cut (L := L) (s := s0) x ?_ ?_; rotate_left; intro hx; clear_value x; rotate_left; subst x)
    | (intro x; clear_value x) | intro _ | lift_lets | with_reducible apply laneMeasure_within
    | with_reducible apply modRail_within | with_reducible apply endCause_within
    | with_reducible refine Within.foldl ?_ ?_ | split)

theorem lostEnds_within {L : Nat} {s0 : State} (a0 : Fin 48) {s : State} (hs : Within L s0 s) (hl : Sub 0x8000000 L) :
    Within L s0 (lostEnds a0 s) := by
  unfold lostEnds
  repeat' (first | with_reducible assumption | with_reducible apply endCause_within | split)

theorem measured_within {L : Nat} {s0 : State} (a0 : Fin 48) {s : State} (hs : Within L s0 s) (hl : Sub 0x38000002 L)
    : Within L s0 (measured a0 s) := by
  unfold measured
  repeat' (first
    | with_reducible assumption | ((with_reducible refine Sub.le ?_ hl); rfl)
    | (intro x; refine Within.cut (L := L) (s := s0) x ?_ ?_; rotate_left; intro hx; clear_value x; rotate_left; subst x)
    | (intro x; clear_value x) | lift_lets | with_reducible apply setVmeas_within
    | with_reducible apply modLane_within | with_reducible apply modRail_within | with_reducible apply lostEnds_within
    | split)

theorem measuredAll_within {L : Nat} {s0 : State} (a0 : Fin 48) {s : State} (hs : Within L s0 s) (hl : Sub 0x38000002
    L) : Within L s0 (measuredAll a0 s) := by
  unfold measuredAll
  repeat' (first
    | with_reducible assumption | intro _ | with_reducible apply measured_within
    | with_reducible refine Within.foldl ?_ ?_)

theorem pastMeasure_within {L : Nat} {s0 : State} (a0 : Fin 48) {s : State} (hs : Within L s0 s) (hl : Sub 0x38000002
    L) : Within L s0 (pastMeasure a0 s) := by
  unfold pastMeasure
  repeat' (first | with_reducible assumption | with_reducible apply measuredAll_within | split)

theorem railOn_within {L : Nat} {s0 : State} (a0 : Fin 48) {s : State} (hs : Within L s0 s) (hl : Sub 0x20030fb90c3 L)
    : Within L s0 (railOn a0 s) := by
  unfold railOn
  repeat' (first
    | with_reducible assumption | ((with_reducible refine Sub.le ?_ hl); rfl)
    | (intro x; refine Within.cut (L := L) (s := s0) x ?_ ?_; rotate_left; intro hx; clear_value x; rotate_left; subst x)
    | intro _ | lift_lets | with_reducible apply modLanes_within | with_reducible apply modRail_within
    | with_reducible apply completeOpt_within | split)

theorem retargetRail_within {L : Nat} {s0 : State} (a0 : Fin 48) (a1 : Rail → Rail) {s : State} (hs : Within L s0 s)
    (hl : Sub 0x20000000 L) : Within L s0 (retargetRail a0 a1 s) := by
  unfold retargetRail
  repeat' (first
    | with_reducible assumption
    | (intro x; refine Within.cut (L := L) (s := s0) x ?_ ?_; rotate_left; intro hx; clear_value x; rotate_left; subst x)
    | intro _ | lift_lets | with_reducible apply modRail_within | split)

theorem laneJoin_within {L : Nat} {s0 : State} (a0 : Fin 48) (a1 : Rail) {s : State} (hs : Within L s0 s) (hl : Sub
    0x10000000 L) : Within L s0 (laneJoin a0 a1 s) := by
  unfold laneJoin
  repeat' (first
    | with_reducible assumption | (intro x; clear_value x) | lift_lets | with_reducible apply modLane_within)

theorem laneReturn_within {L : Nat} {s0 : State} (a0 : Fin 48) (a1 : Nat) {s : State} (hs : Within L s0 s) (hl : Sub
    0x10000000 L) : Within L s0 (laneReturn a0 a1 s) := by
  unfold laneReturn
  repeat' (first
    | with_reducible assumption | (intro x; clear_value x) | lift_lets | with_reducible apply modLane_within
    | with_reducible apply laneJoin_within | with_reducible apply laneMeasure_within | split)

/-! ### Machine/Monitors.lean -/

theorem modWm_within {L : Nat} {s0 : State} (a0 : Fin 64) (a1 : Wm → Wm) {s : State} (hs : Within L s0 s) (hl : Sub
    0x2000000000 L) : Within L s0 (modWm a0 a1 s) := by
  unfold modWm
  repeat' (first
    | with_reducible assumption | ((with_reducible refine Or.inr (Sub.le ?_ hl)); rfl)
    | ((with_reducible refine Or.inl (Eq.symm ?_)); rfl) | ((with_reducible refine Eq.symm ?_); rfl)
    | fail_if_no_progress (with_reducible apply Within.parts))

theorem wmEvent_within {L : Nat} {s0 : State} (a0 : Fin 64) (a1 : Bool) {s : State} (hs : Within L s0 s) (hl : Sub
    0x200004a083 L) : Within L s0 (wmEvent a0 a1 s) := by
  unfold wmEvent
  repeat' (first
    | with_reducible assumption | ((with_reducible refine Sub.le ?_ hl); rfl) | (intro x; clear_value x) | lift_lets
    | with_reducible apply event_within | with_reducible apply modWm_within | split)

theorem compEdge_within {L : Nat} {s0 : State} (a0 : CutEdge) {s : State} (hs : Within L s0 s) (hl : Sub 0x1000000000
    L) : Within L s0 (compEdge a0 s) := by
  unfold compEdge
  repeat' (first
    | with_reducible assumption | ((with_reducible refine Or.inr (Sub.le ?_ hl)); rfl)
    | ((with_reducible refine Or.inl (Eq.symm ?_)); rfl) | ((with_reducible refine Eq.symm ?_); rfl)
    | fail_if_no_progress (with_reducible apply Within.parts))

theorem wmSet_within {L : Nat} {s0 : State} (a0 : Fin 64) (a1 : CompLevel) {s : State} (hs : Within L s0 s) (hl : Sub
    0x3000f5a0c3 L) : Within L s0 (wmSet a0 a1 s) := by
  unfold wmSet
  repeat' (first
    | with_reducible assumption | ((with_reducible refine Sub.le ?_ hl); rfl)
    | (intro x; refine Within.cut (L := L) (s := s0) x ?_ ?_; rotate_left; intro hx; clear_value x; rotate_left; subst x)
    | (intro x; clear_value x) | lift_lets | with_reducible apply setReg_within | with_reducible apply modWm_within
    | with_reducible apply fireWindow_within | with_reducible apply wmEvent_within
    | with_reducible apply compEdge_within | with_reducible apply countReg_within | split)

theorem wmLevel_within {L : Nat} {s0 : State} (a0 : Fin 64) (a1 : CompLevel) {s : State} (hs : Within L s0 s) (hl :
    Sub 0x3000f5a0c3 L) : Within L s0 (wmLevel a0 a1 s) := by
  unfold wmLevel
  repeat' (first | with_reducible assumption | with_reducible apply wmSet_within | split)

theorem wmInput_within {L : Nat} {s0 : State} (a0 : Fin 64) (a1 : BitVec 16) {s : State} (hs : Within L s0 s) (hl :
    Sub 0x3000f5a0c3 L) : Within L s0 (wmInput a0 a1 s) := by
  unfold wmInput
  repeat' (first | with_reducible assumption | with_reducible apply wmLevel_within)

theorem railSees_within {L : Nat} {s0 : State} (a0 : Rail) (a1 : Nat) {s : State} (hs : Within L s0 s) (hl : Sub
    0x3000f5a0c3 L) : Within L s0 (railSees a0 a1 s) := by
  unfold railSees
  repeat' (first | with_reducible assumption | with_reducible apply wmInput_within | split)

/-! ### Machine/GraphOps.lean -/

theorem denFall_within {L : Nat} {s0 : State} {s : State} (hs : Within L s0 s) (hl : Sub 0x7fffffffffff L) : Within L
    s0 (denFall s) := by
  unfold denFall
  refine hs.trans ⟨rfl, le_refl _, List.suffix_refl _, fun k hk => ?_,
    fun g => ⟨rfl, rfl, rfl, rfl, g.image0, g.image1, g.bankA, g.bankB, Nat.zero_le _,
      fun c => by simp [State.reset, Faults.reset, Collector.reset], Nat.zero_le _, Nat.zero_le _⟩,
    fun p hp => ?_, fun _ c => by simp [Power.reset] at c⟩
  · simp only [Fin.getElem_fin, Vector.getElem_map] at *
    rw [if_pos hk]
    exact ⟨hk, rfl⟩
  · cases p <;> first | rfl | exact causes_refl | (refine off (Sub.le ?_ hl) hp; rfl)

theorem burrowStops_within {L : Nat} {s0 : State} {s : State} (hs : Within L s0 s) (hl : Sub 0x20fa0ffb0c7 L) : Within
    L s0 (burrowStops s) := by
  unfold burrowStops
  repeat' (first
    | with_reducible assumption | ((with_reducible refine Sub.le ?_ hl); rfl)
    | (intro x; refine Within.cut (L := L) (s := s0) x ?_ ?_; rotate_left; intro hx; clear_value x; rotate_left; subst x)
    | intro _ | lift_lets | with_reducible apply motorsSystem_within | with_reducible apply fanOff_within
    | with_reducible apply lendAbort_within | with_reducible apply liftAbortFree_within
    | with_reducible apply setChg_within | with_reducible refine Within.foldl ?_ ?_ | split)

theorem burrowFinish_within {L : Nat} {s0 : State} {s : State} (hs : Within L s0 s) (hl : Sub 0x7fffffffffff L) :
    Within L s0 (burrowFinish s) := by
  unfold burrowFinish
  repeat' (first
    | with_reducible assumption | ((with_reducible refine Sub.le ?_ hl); rfl)
    | ((with_reducible refine Or.inr (Sub.le ?_ hl)); rfl)
    | (intro x; refine Within.cut (L := L) (s := s0) x ?_ ?_; rotate_left; intro hx; clear_value x; rotate_left; subst x)
    | intro _ | lift_lets | with_reducible apply burrowStops_within | with_reducible apply commit_within
    | with_reducible apply modPwr_within | with_reducible apply denFall_within | split)

theorem railUnwait_within {L : Nat} {s0 : State} (a0 : Demand) {s : State} (hs : Within L s0 s) (hl : Sub 0x20000000
    L) : Within L s0 (railUnwait a0 s) := by
  unfold railUnwait
  repeat' (first | with_reducible assumption | with_reducible apply modRail_within | split)

theorem withdrawReqs_within {L : Nat} {s0 : State} (a0 : Req → Bool) {s : State} (hs : Within L s0 s) (hl : Sub
    0xea0000000 L) : Within L s0 (withdrawReqs a0 s) := by
  unfold withdrawReqs
  repeat' (first
    | with_reducible assumption | ((with_reducible refine Sub.le ?_ hl); rfl) | intro _
    | with_reducible apply railUnwait_within | with_reducible apply withdrawThose_within
    | with_reducible refine Within.foldl ?_ ?_)

theorem withdrawNodes_within {L : Nat} {s0 : State} (a0 : Fin 16) {s : State} (hs : Within L s0 s) (hl : Sub
    0xea0000000 L) : Within L s0 (withdrawNodes a0 s) := by
  unfold withdrawNodes
  repeat' (first | with_reducible assumption | with_reducible apply withdrawReqs_within)

theorem owlCut_within {L : Nat} {s0 : State} (a0 : Fin 16) (a1 : RunBy) {s : State} (hs : Within L s0 s) (hl : Sub
    0x40000000000 L) : Within L s0 (owlCut a0 a1 s) := by
  unfold owlCut
  repeat' (first | with_reducible assumption | with_reducible apply owlEndLadder_within | split)

theorem startRun_within {L : Nat} {s0 : State} (a0 : Fin 16) (a1 : Bool) (a2 : RunBy) (a3 : Option Word) {s : State}
    (hs : Within L s0 s) (hl : Sub 0x40ee0000004 L) : Within L s0 (startRun a0 a1 a2 a3 s) := by
  unfold startRun
  repeat' (first
    | with_reducible assumption | ((with_reducible refine Sub.le ?_ hl); rfl)
    | (intro x; refine Within.cut (L := L) (s := s0) x ?_ ?_; rotate_left; intro hx; clear_value x; rotate_left; subst x)
    | intro _ | ((with_reducible refine Or.inl (fun _ => Eq.symm ?_)); rfl) | lift_lets
    | with_reducible apply owlCut_within | with_reducible apply modGraph_within
    | with_reducible apply withdrawNodes_within | with_reducible apply owlsSettle_within
    | with_reducible apply modPwr_within | split)

theorem hubRunNow_within {L : Nat} {s0 : State} (a0 : Fin 16) (a1 : Bool) (a2 : RunBy) {s : State} (hs : Within L s0
    s) (hl : Sub 0x60ee0fb90c7 L) : Within L s0 (hubRunNow a0 a1 a2 s) := by
  unfold hubRunNow
  repeat' (first
    | with_reducible assumption | ((with_reducible refine Sub.le ?_ hl); rfl)
    | ((with_reducible refine Or.inr (Sub.le ?_ hl)); rfl)
    | (intro x; refine Within.cut (L := L) (s := s0) x ?_ ?_; rotate_left; intro hx; clear_value x; rotate_left; subst x)
    | (intro x; clear_value x) | ((with_reducible refine Or.inl (fun _ => Eq.symm ?_)); rfl)
    | (intro _; (with_reducible refine Eq.symm ?_); rfl) | lift_lets | with_reducible apply owlEndLadder_within
    | with_reducible apply makeWay_within | with_reducible apply supersedeOn_within
    | with_reducible apply startRun_within | with_reducible apply modEng_within | with_reducible apply hubStart_within
    | split)

theorem hubRun_within {L : Nat} {s0 : State} (a0 : Fin 16) (a1 : Bool) (a2 : RunBy) {s : State} (hs : Within L s0 s)
    (hl : Sub 0x60ee0fb90c7 L) : Within L s0 (hubRun a0 a1 a2 s) := by
  unfold hubRun
  repeat' (first
    | with_reducible assumption | ((with_reducible refine Sub.le ?_ hl); rfl) | with_reducible apply owe_within
    | with_reducible apply hubRunNow_within | split)

theorem payOwed_within {L : Nat} {s0 : State} (a0 : Owed) {s : State} (hs : Within L s0 s) (hl : Sub 0x60ee0fb90c7 L)
    : Within L s0 (payOwed a0 s) := by
  unfold payOwed
  repeat' (first
    | with_reducible assumption | ((with_reducible refine Sub.le ?_ hl); rfl) | with_reducible apply commit_within
    | with_reducible apply writeRelay_within | with_reducible apply hubWritten_within
    | with_reducible apply hubRunNow_within | with_reducible apply slotEnds_within
    | with_reducible apply complete_within | split)

theorem flushOwed_within {L : Nat} {s0 : State} (a0 : Nat) {s : State} (hs : Within L s0 s) (hl : Sub 0x60ee0fb90c7 L)
    : Within L s0 (flushOwed a0 s) := by
  induction a0 generalizing s with
  | zero =>
    unfold flushOwed
    repeat' (first | with_reducible assumption)
  | succ n ih =>
    unfold flushOwed
    repeat' (first
      | with_reducible assumption | ((with_reducible refine Sub.le ?_ hl); rfl)
      | ((with_reducible refine Or.inr (Sub.le ?_ hl)); rfl)
      | ((with_reducible refine Or.inl (fun _ => Eq.symm ?_)); rfl)
      | (intro _; (with_reducible refine Eq.symm ?_); rfl) | with_reducible apply payOwed_within
      | with_reducible apply modJnl_within | with_reducible apply ih | split)

theorem hostRun_within {L : Nat} {s0 : State} (a0 : Bool) (a1 : RunBy) {s : State} (hs : Within L s0 s) (hl : Sub
    0x60ee0fb90c7 L) : Within L s0 (hostRun a0 a1 s) := by
  unfold hostRun
  repeat' (first | with_reducible assumption | with_reducible apply hubRun_within | split)

theorem burrowNext_within {L : Nat} {s0 : State} {s : State} (hs : Within L s0 s) (hl : Sub 0x7fffffffffff L) : Within
    L s0 (burrowNext s) := by
  unfold burrowNext
  repeat' (first
    | with_reducible assumption | ((with_reducible refine Sub.le ?_ hl); rfl) | (intro x; clear_value x) | lift_lets
    | with_reducible apply hubRun_within | with_reducible apply burrowFinish_within | split)

theorem burrowStart_within {L : Nat} {s0 : State} {s : State} (hs : Within L s0 s) (hl : Sub 0x7fffffffffff L) :
    Within L s0 (burrowStart s) := by
  unfold burrowStart
  repeat' (first
    | with_reducible assumption | ((with_reducible refine Sub.le ?_ hl); rfl)
    | ((with_reducible refine Or.inr (Sub.le ?_ hl)); rfl)
    | (intro x; refine Within.cut (L := L) (s := s0) x ?_ ?_; rotate_left; intro hx; clear_value x; rotate_left; subst x)
    | intro _ | lift_lets | with_reducible apply modPwr_within | with_reducible apply railDown_within
    | with_reducible apply burrowNext_within | with_reducible refine Within.foldl ?_ ?_ | split)

theorem nodeDone_within {L : Nat} {s0 : State} (a0 : Fin 16) (a1 : Nat) {s : State} (hs : Within L s0 s) (hl : Sub
    0x40000000 L) : Within L s0 (nodeDone a0 a1 s) := by
  unfold nodeDone
  repeat' (first | with_reducible assumption | with_reducible apply modGraph_within)

theorem nodeFail_within {L : Nat} {s0 : State} (a0 : Fin 16) (a1 : Nat) {s : State} (hs : Within L s0 s) (hl : Sub
    0xee0000000 L) : Within L s0 (nodeFail a0 a1 s) := by
  unfold nodeFail
  repeat' (first
    | with_reducible assumption | ((with_reducible refine Sub.le ?_ hl); rfl)
    | with_reducible apply withdrawReqs_within | with_reducible apply modGraph_within)

theorem afterRun_within {L : Nat} {s0 : State} (a0 : RunBy) {s : State} (hs : Within L s0 s) (hl : Sub (orAll s0
    0x4000004a087) L) : Within L s0 (afterRun a0 s) := by
  unfold afterRun
  repeat' (first
    | with_reducible assumption | ((with_reducible refine Sub.some ?_ ?_ hl) <;> rfl)
    | (with_reducible refine burrowNext_within ?_ (full_of hs ‹_› hl))
    | ((with_reducible refine Or.inl (fun _ => Eq.symm ?_)); rfl) | with_reducible apply modPwr_within
    | with_reducible apply modOwl_within | with_reducible apply event_within
    | with_reducible apply owlEndLadder_within | with_reducible apply burrowNext_within | split)

theorem endRun_within {L : Nat} {s0 : State} (a0 : Fin 16) (a1 : Graph) (a2 : Bool) {s : State} (hs : Within L s0 s)
    (hl : Sub (orAll s0 0x61ff0ffb4d7) L) : Within L s0 (endRun a0 a1 a2 s) := by
  unfold endRun
  repeat' (first
    | with_reducible assumption | ((with_reducible refine Sub.some ?_ ?_ hl) <;> rfl)
    | ((with_reducible refine Sub.both ?_ hl); rfl) | ((with_reducible refine Or.inr (Sub.some ?_ ?_ hl)) <;> rfl)
    | (intro x; clear_value x) | ((with_reducible refine Or.inl (fun _ => Eq.symm ?_)); rfl) | lift_lets
    | with_reducible apply modGraph_within | with_reducible apply modPwr_within | with_reducible apply event_within
    | with_reducible apply completeOpt_within | with_reducible apply afterRun_within
    | with_reducible apply hostFell_within | with_reducible apply judge_within | split)

theorem settleOne_within {L : Nat} {s0 : State} (a0 : Fin 16) {s : State} (hs : Within L s0 s) (hl : Sub (orAll s0
    0x61ff0ffb4d7) L) : Within L s0 (settleOne a0 s) := by
  unfold settleOne
  repeat' (first
    | with_reducible assumption | ((with_reducible refine Sub.some ?_ ?_ hl) <;> rfl)
    | ((with_reducible refine Or.inr (Sub.some ?_ ?_ hl)) <;> rfl)
    | (intro x; refine Within.cut (L := L) (s := s0) x ?_ ?_; rotate_left; intro hx; clear_value x; rotate_left; subst x)
    | intro _ | ((with_reducible refine Or.inl (fun _ => Eq.symm ?_)); rfl) | lift_lets
    | with_reducible apply endRun_within | with_reducible apply modGraph_within
    | with_reducible apply owlsSettle_within | with_reducible apply modPwr_within | split)

theorem settle_within {L : Nat} {s0 : State} {s : State} (hs : Within L s0 s) (hl : Sub (orAll s0 0x61ff0ffb4d7) L) :
    Within L s0 (settle s) := by
  unfold settle
  repeat' (first
    | with_reducible assumption
    | (intro x; refine Within.cut (L := L) (s := s0) x ?_ ?_; rotate_left; intro hx; clear_value x; rotate_left; subst x)
    | intro _ | lift_lets | with_reducible apply settleOne_within | with_reducible refine Within.foldl ?_ ?_)

theorem nodesOnPg_within {L : Nat} {s0 : State} (a0 : Fin 48) {s : State} (hs : Within L s0 s) (hl : Sub 0x40000000 L)
    : Within L s0 (nodesOnPg a0 s) := by
  unfold nodesOnPg
  repeat' (first
    | with_reducible assumption | intro _ | with_reducible apply nodeDone_within
    | with_reducible refine Within.foldl ?_ ?_ | split)

/-! ### Machine/Faults.lean -/

theorem capture_within {L : Nat} {s0 : State} (a0 : Nat) (a1 : Nat) {s : State} (hs : Within L s0 s) (hl : Sub
    0x8000000 L) : Within L s0 (capture a0 a1 s) := by
  unfold capture
  repeat' (first
    | with_reducible assumption
    | (with_reducible refine modColl_within _ _ ?_ (Sub.le rfl hl) (fun _ => captureIn_length _ _ _ _ _)))

theorem faultNotify_within {L : Nat} {s0 : State} (a0 : Fin 192) (a1 : Nat) {s : State} (hs : Within L s0 s) (hl : Sub
    0x804a083 L) : Within L s0 (faultNotify a0 a1 s) := by
  unfold faultNotify
  repeat' (first
    | with_reducible assumption | ((with_reducible refine Sub.le ?_ hl); rfl) | (intro x; clear_value x)
    | ((with_reducible refine Or.inl (latched_of_eq (fun _ => ?_) (fun _ => ?_))) <;> rfl) | lift_lets
    | with_reducible apply sendVector_within | with_reducible apply event_within | with_reducible apply modSrc_within
    | split)

theorem latch_within {L : Nat} {s0 : State} (a0 : Fin 192) (a1 : Nat) (a2 : Bool) {s : State} (hs : Within L s0 s) (hl
    : Sub 0x8000000 L) : Within L s0 (latch a0 a1 a2 s) := by
  exact modSrc_within _ _ hs hl (.inl fun x => ⟨fun d h => by simp [h], fun _ => rfl⟩)

theorem batterySource_within {L : Nat} {s0 : State} (a0 : Nat) {s : State} (hs : Within L s0 s) (hl : Sub 0x2 L) :
    Within L s0 (batterySource a0 s) := by
  unfold batterySource
  repeat' (first | with_reducible assumption | with_reducible apply orReg_within | split)

theorem latchCapture_within {L : Nat} {s0 : State} (a0 : Fin 192) (a1 : Nat) (a2 : Bool) {s : State} (hs : Within L s0
    s) (hl : Sub 0x8000002 L) : Within L s0 (latchCapture a0 a1 a2 s) := by
  unfold latchCapture
  repeat' (first
    | with_reducible assumption | ((with_reducible refine Sub.le ?_ hl); rfl) | with_reducible apply capture_within
    | with_reducible apply latch_within | with_reducible apply batterySource_within)

theorem raiseAgain_within {L : Nat} {s0 : State} (a0 : Fin 192) (a1 : Nat) (a2 : Bool) {s : State} (hs : Within L s0
    s) (hl : Sub 0x804a083 L) : Within L s0 (raiseAgain a0 a1 a2 s) := by
  unfold raiseAgain
  repeat' (first
    | with_reducible assumption | ((with_reducible refine Sub.le ?_ hl); rfl)
    | with_reducible apply faultNotify_within | with_reducible apply latchCapture_within)

theorem motorStopNow_within {L : Nat} {s0 : State} (a0 : Fin 2) (a1 : Bool) {s : State} (hs : Within L s0 s) (hl : Sub
    0xfa0000000 L) : Within L s0 (motorStopNow a0 a1 s) := by
  unfold motorStopNow
  repeat' (first
    | with_reducible assumption | ((with_reducible refine Sub.le ?_ hl); rfl)
    | (intro x; refine Within.cut (L := L) (s := s0) x ?_ ?_; rotate_left; intro hx; clear_value x; rotate_left; subst x)
    | (intro x; clear_value x) | lift_lets | with_reducible apply withdrawDemand_within
    | with_reducible apply modMotor_within | with_reducible apply release_within
    | with_reducible apply motorBrake_within | with_reducible apply motorRest_within | split)

theorem portIdle_within {L : Nat} {s0 : State} (a0 : Fin 4) {s : State} (hs : Within L s0 s) (hl : Sub 0x10000000000
    L) : Within L s0 (portIdle a0 s) := by
  unfold portIdle
  repeat' (first | with_reducible assumption | with_reducible apply modPort_within)

theorem xFailAs_within {L : Nat} {s0 : State} (a0 : Fin 4) (a1 : Nat) (a2 : Bool) {s : State} (hs : Within L s0 s) (hl
    : Sub 0x30000fb90c3 L) : Within L s0 (xFailAs a0 a1 a2 s) := by
  unfold xFailAs
  repeat' (first
    | with_reducible assumption | ((with_reducible refine Sub.le ?_ hl); rfl)
    | (intro x; refine Within.cut (L := L) (s := s0) x ?_ ?_; rotate_left; intro hx; clear_value x; rotate_left; subst x)
    | (intro x; clear_value x) | lift_lets | with_reducible apply setReg_within | with_reducible apply countReg_within
    | with_reducible apply portIdle_within | with_reducible apply complete_within | split)

theorem xFail_within {L : Nat} {s0 : State} (a0 : Fin 4) (a1 : Nat) (a2 : Bool) {s : State} (hs : Within L s0 s) (hl :
    Sub 0x30000fb90c3 L) : Within L s0 (xFail a0 a1 a2 s) := by
  unfold xFail
  repeat' (first | with_reducible assumption | with_reducible apply xFailAs_within)

theorem cutShort_within {L : Nat} {s0 : State} (a0 : Fin 4) {s : State} (hs : Within L s0 s) (hl : Sub 0x10000000000
    L) : Within L s0 (cutShort a0 s) := by
  unfold cutShort
  repeat' (first
    | with_reducible assumption
    | (intro x; refine Within.cut (L := L) (s := s0) x.2 ?_ ?_; rotate_left; intro hx; clear_value x; rotate_left; subst x)
    | (intro x; clear_value x) | lift_lets | with_reducible apply drawNat_within | with_reducible apply modPort_within
    | split)

theorem endTransfer_within {L : Nat} {s0 : State} (a0 : Fin 4) (a1 : Nat) {s : State} (hs : Within L s0 s) (hl : Sub
    0x30000fb90c3 L) : Within L s0 (endTransfer a0 a1 s) := by
  unfold endTransfer
  repeat' (first
    | with_reducible assumption | ((with_reducible refine Sub.le ?_ hl); rfl) | with_reducible apply xFail_within
    | with_reducible apply cutShort_within | split)

theorem portStop_within {L : Nat} {s0 : State} (a0 : Fin 4) {s : State} (hs : Within L s0 s) (hl : Sub 0x30000fb90c3
    L) : Within L s0 (portStop a0 s) := by
  unfold portStop
  repeat' (first
    | with_reducible assumption | ((with_reducible refine Sub.le ?_ hl); rfl)
    | (intro x; refine Within.cut (L := L) (s := s0) x ?_ ?_; rotate_left; intro hx; clear_value x; rotate_left; subst x)
    | (intro x; refine Within.cut (L := L) (s := s0) x.2 ?_ ?_; rotate_left; intro hx; clear_value x; rotate_left; subst x)
    | (intro x; clear_value x) | lift_lets | with_reducible apply drawNat_within
    | with_reducible apply endTransfer_within | with_reducible apply completeOpt_within
    | with_reducible apply modPort_within)

theorem relayIsolate_within {L : Nat} {s0 : State} (a0 : Fin 48) (a1 : Fin 192) {s : State} (hs : Within L s0 s) (hl :
    Sub 0x22fa8ffb0c3 L) : Within L s0 (relayIsolate a0 a1 s) := by
  unfold relayIsolate
  repeat' (first
    | with_reducible assumption | ((with_reducible refine Sub.le ?_ hl); rfl) | with_reducible apply raiseAgain_within
    | with_reducible apply relayCut_within | split)

theorem isolateBase_within {L : Nat} {s0 : State} (a0 : Fin 192) {s : State} (hs : Within L s0 s) (hl : Sub
    0x32ff8ffb0c7 L) : Within L s0 (isolateBase a0 s) := by
  unfold isolateBase
  repeat' (first
    | with_reducible assumption | ((with_reducible refine Sub.le ?_ hl); rfl)
    | with_reducible apply railIsolate_within | with_reducible apply relayIsolate_within
    | with_reducible apply motorStopNow_within | with_reducible apply hubItem_within
    | with_reducible apply fanFails_within | with_reducible apply portStop_within | with_reducible apply setChg_within
    | with_reducible apply lendAbort_within | with_reducible apply liftAbortFree_within
    | with_reducible apply usbRelease_within | split)

theorem hostRst_within {L : Nat} {s0 : State} {s : State} (hs : Within L s0 s) (hl : Sub 0x4 L) : Within L s0 (hostRst
    s) := by
  unfold hostRst
  repeat' (first
    | with_reducible assumption | ((with_reducible refine Or.inl (fun _ => Eq.symm ?_)); rfl)
    | with_reducible apply modPwr_within | split)

theorem shedBy_within {L : Nat} {s0 : State} (a0 : State) (a1 : Nat) {s : State} (hs : Within L s0 s) (hl : Sub
    0x20ff0ffb0c7 L) : Within L s0 (shedBy a0 a1 s) := by
  unfold shedBy
  repeat' (first
    | with_reducible assumption | (intro x; clear_value x) | lift_lets | with_reducible apply shedTier_within | split)

theorem shedAndReset_within {L : Nat} {s0 : State} (a0 : State) (a1 : Nat) {s : State} (hs : Within L s0 s) (hl : Sub
    0x20ff0ffb0c7 L) : Within L s0 (shedAndReset a0 a1 s) := by
  unfold shedAndReset
  repeat' (first
    | with_reducible assumption | ((with_reducible refine Sub.le ?_ hl); rfl)
    | (intro x; refine Within.cut (L := L) (s := s0) x ?_ ?_; rotate_left; intro hx; clear_value x; rotate_left; subst x)
    | intro _ | lift_lets | with_reducible apply shedBy_within | with_reducible apply hostRst_within | split)

theorem raiseBase_within {L : Nat} {s0 : State} (a0 : Fin 192) (a1 : Nat) (a2 : Bool) {s : State} (hs : Within L s0 s)
    (hl : Sub 0x32ff8ffb0c7 L) : Within L s0 (raiseBase a0 a1 a2 s) := by
  unfold raiseBase
  repeat' (first
    | with_reducible assumption | ((with_reducible refine Sub.le ?_ hl); rfl)
    | (intro x; refine Within.cut (L := L) (s := s0) x ?_ ?_; rotate_left; intro hx; clear_value x; rotate_left; subst x)
    | intro _ | lift_lets | with_reducible apply raiseAgain_within | with_reducible apply latchCapture_within
    | with_reducible apply isolateBase_within | with_reducible apply faultNotify_within
    | with_reducible apply shedAndReset_within | split)

theorem laneLost_within {L : Nat} {s0 : State} (a0 : Fin 48) {s : State} (hs : Within L s0 s) (hl : Sub 0x32ff8ffb0c7
    L) : Within L s0 (laneLost a0 s) := by
  unfold laneLost
  repeat' (first | with_reducible assumption | with_reducible apply raiseBase_within | split)

theorem laneStops_within {L : Nat} {s0 : State} (a0 : Fin 48) {s : State} (hs : Within L s0 s) (hl : Sub 0x32ff8ffb0c7
    L) : Within L s0 (laneStops a0 s) := by
  unfold laneStops
  repeat' (first
    | with_reducible assumption | ((with_reducible refine Sub.le ?_ hl); rfl) | with_reducible apply laneLost_within
    | with_reducible apply laneStop_within | split)

theorem isolateLane_within {L : Nat} {s0 : State} (a0 : Fin 48) {s : State} (hs : Within L s0 s) (hl : Sub
    0x32ff8ffb0c7 L) : Within L s0 (isolateLane a0 s) := by
  unfold isolateLane
  repeat' (first | with_reducible assumption | with_reducible apply laneStops_within)

theorem raiseLane_within {L : Nat} {s0 : State} (a0 : Fin 48) (a1 : Nat) (a2 : Bool) {s : State} (hs : Within L s0 s)
    (hl : Sub 0x32ff8ffb0c7 L) : Within L s0 (raiseLane a0 a1 a2 s) := by
  unfold raiseLane
  repeat' (first
    | with_reducible assumption | ((with_reducible refine Sub.le ?_ hl); rfl)
    | (intro x; refine Within.cut (L := L) (s := s0) x ?_ ?_; rotate_left; intro hx; clear_value x; rotate_left; subst x)
    | (intro x; clear_value x) | intro _ | lift_lets | with_reducible apply raiseAgain_within
    | with_reducible apply latchCapture_within | with_reducible apply isolateLane_within
    | with_reducible apply faultNotify_within | with_reducible apply shedAndReset_within | split)

theorem raiseAs_within {L : Nat} {s0 : State} (a0 : Nat) (a1 : Nat) (a2 : Bool) {s : State} (hs : Within L s0 s) (hl :
    Sub (orAll s0 0x73ff8ffb4d7) L) : Within L s0 (raiseAs a0 a1 a2 s) := by
  unfold raiseAs
  repeat' (first
    | with_reducible assumption | ((with_reducible refine Sub.some ?_ ?_ hl) <;> rfl)
    | ((with_reducible refine Sub.both ?_ hl); rfl) | with_reducible apply settle_within
    | with_reducible apply raiseLane_within | with_reducible apply raiseBase_within | split)

theorem raise_within {L : Nat} {s0 : State} (a0 : Nat) (a1 : Nat) {s : State} (hs : Within L s0 s) (hl : Sub (orAll s0
    0x73ff8ffb4d7) L) : Within L s0 (raise a0 a1 s) := by
  unfold raise
  repeat' (first | with_reducible assumption | with_reducible apply raiseAs_within)

theorem raiseLatched_within {L : Nat} {s0 : State} (a0 : Nat) (a1 : Nat) {s : State} (hs : Within L s0 s) (hl : Sub
    (orAll s0 0x73ff8ffb4d7) L) : Within L s0 (raiseLatched a0 a1 s) := by
  unfold raiseLatched
  repeat' (first | with_reducible assumption | with_reducible apply raiseAs_within)

theorem raiseOnce_within {L : Nat} {s0 : State} (a0 : Nat) (a1 : Nat) {s : State} (hs : Within L s0 s) (hl : Sub
    (orAll s0 0x73ff8ffb4d7) L) : Within L s0 (raiseOnce a0 a1 s) := by
  unfold raiseOnce
  repeat' (first | with_reducible assumption | with_reducible apply raise_within | split)

theorem isolateNow_within {L : Nat} {s0 : State} (a0 : Fin 192) {s : State} (hs : Within L s0 s) (hl : Sub (orAll s0
    0x73ff8ffb4d7) L) : Within L s0 (isolateNow a0 s) := by
  unfold isolateNow
  repeat' (first
    | with_reducible assumption | ((with_reducible refine Sub.some ?_ ?_ hl) <;> rfl)
    | ((with_reducible refine Sub.both ?_ hl); rfl) | with_reducible apply settle_within
    | with_reducible apply isolateLane_within | with_reducible apply isolateBase_within | split)

theorem shedFollow_within {L : Nat} {s0 : State} (a0 : State) {s : State} (hs : Within L s0 s) (hl : Sub 0x20ff0ffb0c7
    L) : Within L s0 (shedFollow a0 s) := by
  unfold shedFollow
  repeat' (first | with_reducible assumption | with_reducible apply shedChange_within)

theorem setReact_within {L : Nat} {s0 : State} (a0 : Fin 192) (a1 : Word) {s : State} (hs : Within L s0 s) (hl : Sub
    (orAll s0 0x73ff8ffb4d7) L) : Within L s0 (setReact a0 a1 s) := by
  unfold setReact
  repeat' (first
    | with_reducible assumption | ((with_reducible refine Sub.some ?_ ?_ hl) <;> rfl)
    | (intro x; refine Within.cut (L := L) (s := s0) x ?_ ?_; rotate_left; intro hx; clear_value x; rotate_left; subst x)
    | intro _ | lift_lets | with_reducible apply setReg_within | with_reducible apply isolateNow_within
    | with_reducible apply shedFollow_within | split)

end Sys2Proof.Machine
end

