-- ==== Sys2Proof/Laws/WithinPower.lean ====
section
/-! SUPPORT. `f_within` for lanes, rails, graphs, the battery and the clocks. -/

namespace Sys2Proof.Machine

/-! ### Machine/Lanes.lean -/

theorem lostEndsOf_within {L : Nat} {s0 : State} (a0 : Fin 48) {s : State} (hs : Within L s0 s) (hl : Sub 0x8000000 L)
    : Within L s0 (lostEndsOf a0 s) := by
  unfold lostEndsOf
  repeat' (first | with_reducible assumption | with_reducible apply lostEnds_within | split)

theorem laneRemeasureNow_within {L : Nat} {s0 : State} (a0 : Fin 48) (a1 : Nat) {s : State} (hs : Within L s0 s) (hl :
    Sub 0x30000002 L) : Within L s0 (laneRemeasureNow a0 a1 s) := by
  unfold laneRemeasureNow
  repeat' (first
    | with_reducible assumption | ((with_reducible refine Sub.le ?_ hl); rfl)
    | (intro x; refine Within.cut (L := L) (s := s0) x ?_ ?_; rotate_left; intro hx; clear_value x; rotate_left; subst x)
    | (intro x; clear_value x) | lift_lets | with_reducible apply setVmeas_within
    | with_reducible apply modRail_within | with_reducible apply modLanes_within | with_reducible apply modLane_within
    | split)

theorem laneRemeasure_within {L : Nat} {s0 : State} (a0 : Fin 48) (a1 : Nat) {s : State} (hs : Within L s0 s) (hl :
    Sub 0x38000002 L) : Within L s0 (laneRemeasure a0 a1 s) := by
  unfold laneRemeasure
  repeat' (first
    | with_reducible assumption | ((with_reducible refine Sub.le ?_ hl); rfl)
    | with_reducible apply laneRemeasureNow_within | with_reducible apply pastMeasure_within)

theorem slewDoneNow_within {L : Nat} {s0 : State} (a0 : Fin 48) {s : State} (hs : Within L s0 s) (hl : Sub (orAll s0
    0x61ff8ffb4d7) L) : Within L s0 (slewDoneNow a0 s) := by
  unfold slewDoneNow
  repeat' (first
    | with_reducible assumption | ((with_reducible refine Sub.some ?_ ?_ hl) <;> rfl)
    | ((with_reducible refine Sub.both ?_ hl); rfl)
    | (intro x; refine Within.cut (L := L) (s := s0) x ?_ ?_; rotate_left; intro hx; clear_value x; rotate_left; subst x)
    | (intro x; clear_value x) | lift_lets | with_reducible apply lostEnds_within | with_reducible apply railOn_within
    | with_reducible apply modLane_within | with_reducible apply modRail_within | with_reducible apply modLanes_within
    | with_reducible apply completeOpt_within | with_reducible apply settle_within
    | with_reducible apply nodesOnPg_within | split)

theorem laneSlewDone_within {L : Nat} {s0 : State} (a0 : Fin 48) {s : State} (hs : Within L s0 s) (hl : Sub (orAll s0
    0x61ff8ffb4d7) L) : Within L s0 (laneSlewDone a0 s) := by
  unfold laneSlewDone
  repeat' (first
    | with_reducible assumption | ((with_reducible refine Sub.some ?_ ?_ hl) <;> rfl)
    | with_reducible apply slewDoneNow_within | with_reducible apply pastMeasure_within)

theorem stageTrip_within {L : Nat} {s0 : State} (a0 : Fin 48) {s : State} (hs : Within L s0 s) (hl : Sub (orAll s0
    0x73ff8ffb4d7) L) : Within L s0 (stageTrip a0 s) := by
  unfold stageTrip
  repeat' (first
    | with_reducible assumption | ((with_reducible refine Sub.some ?_ ?_ hl) <;> rfl)
    | ((with_reducible refine Sub.both ?_ hl); rfl)
    | (intro x; refine Within.cut (L := L) (s := s0) x ?_ ?_; rotate_left; intro hx; clear_value x; rotate_left; subst x)
    | (intro x; clear_value x) | intro _ | lift_lets | with_reducible apply laneStop_within
    | with_reducible apply settle_within | with_reducible apply laneLost_within | with_reducible apply raiseAs_within
    | with_reducible refine Within.foldl ?_ ?_ | split)

theorem startFailed_within {L : Nat} {s0 : State} (a0 : Fin 48) {s : State} (hs : Within L s0 s) (hl : Sub (orAll s0
    0x61ff0ffb4d7) L) : Within L s0 (startFailed a0 s) := by
  unfold startFailed
  repeat' (first
    | with_reducible assumption | ((with_reducible refine Sub.some ?_ ?_ hl) <;> rfl)
    | with_reducible apply settle_within | with_reducible apply railDown_within
    | with_reducible apply completeOpt_within | split)

theorem railStartFailed_within {L : Nat} {s0 : State} (a0 : Fin 48) {s : State} (hs : Within L s0 s) (hl : Sub (orAll
    s0 0x61ff0ffb4d7) L) : Within L s0 (railStartFailed a0 s) := by
  unfold railStartFailed
  repeat' (first | with_reducible assumption | with_reducible apply startFailed_within | split)

theorem laneTrip_within {L : Nat} {s0 : State} (a0 : Fin 48) (a1 : Nat) {s : State} (hs : Within L s0 s) (hl : Sub
    (orAll s0 0x73ff8ffb4d7) L) : Within L s0 (laneTrip a0 a1 s) := by
  unfold laneTrip
  repeat' (first
    | with_reducible assumption | ((with_reducible refine Sub.some ?_ ?_ hl) <;> rfl)
    | ((with_reducible refine Sub.both ?_ hl); rfl)
    | (intro x; refine Within.cut (L := L) (s := s0) x ?_ ?_; rotate_left; intro hx; clear_value x; rotate_left; subst x)
    | (intro x; clear_value x) | lift_lets | with_reducible apply laneStop_within
    | with_reducible apply raiseAs_within | with_reducible apply railStartFailed_within
    | with_reducible apply settle_within | with_reducible apply laneLost_within | split)

theorem supplyTrip_within {L : Nat} {s0 : State} (a0 : Fin 48) {s : State} (hs : Within L s0 s) (hl : Sub (orAll s0
    0x73ff8ffb4d7) L) : Within L s0 (supplyTrip a0 s) := by
  unfold supplyTrip
  repeat' (first
    | with_reducible assumption | ((with_reducible refine Sub.some ?_ ?_ hl) <;> rfl)
    | ((with_reducible refine Sub.both ?_ hl); rfl)
    | (intro x; refine Within.cut (L := L) (s := s0) x ?_ ?_; rotate_left; intro hx; clear_value x; rotate_left; subst x)
    | (intro x; clear_value x) | lift_lets | with_reducible apply modLane_within | with_reducible apply raiseAs_within
    | with_reducible apply settle_within | with_reducible apply laneLost_within | split)

theorem laneCause_within {L : Nat} {s0 : State} (a0 : Fin 48) (a1 : LaneCause) {s : State} (hs : Within L s0 s) (hl :
    Sub (orAll s0 0x73ff8ffb4d7) L) : Within L s0 (laneCause a0 a1 s) := by
  unfold laneCause
  repeat' (first
    | with_reducible assumption | (intro x; clear_value x) | lift_lets | with_reducible apply raiseOnce_within
    | with_reducible apply stageTrip_within | with_reducible apply supplyTrip_within
    | with_reducible apply laneTrip_within | split)

theorem laneFault_within {L : Nat} {s0 : State} (a0 : Fin 48) (a1 : LaneCause) {s : State} (hs : Within L s0 s) (hl :
    Sub (orAll s0 0x73ff8ffb4d7) L) : Within L s0 (laneFault a0 a1 s) := by
  unfold laneFault
  repeat' (first
    | with_reducible assumption | ((with_reducible refine Sub.some ?_ ?_ hl) <;> rfl)
    | with_reducible apply laneCause_within | with_reducible apply pastMeasure_within | split)

theorem laneSupplyRecover_within {L : Nat} {s0 : State} (a0 : Fin 48) (a1 : Nat) {s : State} (hs : Within L s0 s) (hl
    : Sub 0x18000000 L) : Within L s0 (laneSupplyRecover a0 a1 s) := by
  unfold laneSupplyRecover
  repeat' (first
    | with_reducible assumption | ((with_reducible refine Sub.le ?_ hl); rfl)
    | (intro x; refine Within.cut (L := L) (s := s0) x ?_ ?_; rotate_left; intro hx; clear_value x; rotate_left; subst x)
    | (intro x; clear_value x) | lift_lets | with_reducible apply endCause_within
    | with_reducible apply laneMeasure_within | with_reducible apply laneStop_within | split)

theorem laneDropout_within {L : Nat} {s0 : State} (a0 : Fin 48) (a1 : Bool) {s : State} (hs : Within L s0 s) (hl : Sub
    0x1004a083 L) : Within L s0 (laneDropout a0 a1 s) := by
  unfold laneDropout
  repeat' (first
    | with_reducible assumption | ((with_reducible refine Sub.le ?_ hl); rfl)
    | (intro x; refine Within.cut (L := L) (s := s0) x ?_ ?_; rotate_left; intro hx; clear_value x; rotate_left; subst x)
    | intro _ | lift_lets | with_reducible apply modLane_within | with_reducible apply event_within | split)

theorem execLaneRemeasure_within {L : Nat} {s0 : State} (a0 : Fin 48) (a1 : Nat) {s : State} (hs : Within L s0 s) (hl
    : Sub 0x38000002 L) : WithinOut L s0 (execLaneRemeasure a0 a1 s) := by
  unfold execLaneRemeasure
  repeat' (first
    | with_reducible assumption | with_reducible apply laneRemeasure_within | with_reducible apply WithinOut.next)

theorem execLaneSlewDone_within {L : Nat} {s0 : State} (a0 : Fin 48) {s : State} (hs : Within L s0 s) (hl : Sub (orAll
    s0 0x61ff8ffb4d7) L) : WithinOut L s0 (execLaneSlewDone a0 s) := by
  unfold execLaneSlewDone
  repeat' (first
    | with_reducible assumption | with_reducible apply laneSlewDone_within | with_reducible apply WithinOut.next)

theorem execLaneFault_within {L : Nat} {s0 : State} (a0 : Fin 48) (a1 : LaneCause) {s : State} (hs : Within L s0 s)
    (hl : Sub (orAll s0 0x73ff8ffb4d7) L) : WithinOut L s0 (execLaneFault a0 a1 s) := by
  unfold execLaneFault
  repeat' (first
    | with_reducible assumption | with_reducible apply laneFault_within | with_reducible apply WithinOut.next)

theorem execLaneSupplyRecover_within {L : Nat} {s0 : State} (a0 : Fin 48) (a1 : Nat) {s : State} (hs : Within L s0 s)
    (hl : Sub 0x18000000 L) : WithinOut L s0 (execLaneSupplyRecover a0 a1 s) := by
  unfold execLaneSupplyRecover
  repeat' (first
    | with_reducible assumption | with_reducible apply laneSupplyRecover_within | with_reducible apply WithinOut.next)

theorem execLaneDropout_within {L : Nat} {s0 : State} (a0 : Fin 48) (a1 : Bool) {s : State} (hs : Within L s0 s) (hl :
    Sub 0x1004a083 L) : WithinOut L s0 (execLaneDropout a0 a1 s) := by
  unfold execLaneDropout
  repeat' (first
    | with_reducible assumption | with_reducible apply laneDropout_within | with_reducible apply WithinOut.next)

/-! ### Machine/Rails.lean -/

theorem setWm_within {L : Nat} {s0 : State} (a0 : Nat) (a1 : Wm → Wm) {s : State} (hs : Within L s0 s) (hl : Sub
    0x2000000000 L) : Within L s0 (setWm a0 a1 s) := by
  unfold setWm
  repeat' (first | with_reducible assumption | with_reducible apply modWm_within | split)

theorem placeRail_within {L : Nat} {s0 : State} (a0 : Fin 48) (a1 : Rail) {s : State} (hs : Within L s0 s) (hl : Sub
    0x2038000002 L) : Within L s0 (placeRail a0 a1 s) := by
  unfold placeRail
  repeat' (first
    | with_reducible assumption | ((with_reducible refine Sub.le ?_ hl); rfl)
    | (intro x; refine Within.cut (L := L) (s := s0) x ?_ ?_; rotate_left; intro hx; clear_value x; rotate_left; subst x)
    | intro _ | lift_lets | with_reducible apply placeLanes_within | with_reducible apply setRail_within
    | with_reducible apply setWm_within | with_reducible apply orReg_within | with_reducible apply endCause_within
    | split)

theorem removeRail_within {L : Nat} {s0 : State} (a0 : Fin 48) {s : State} (hs : Within L s0 s) (hl : Sub 0x2fb0000002
    L) : Within L s0 (removeRail a0 s) := by
  unfold removeRail
  repeat' (first
    | with_reducible assumption | ((with_reducible refine Sub.le ?_ hl); rfl)
    | (intro x; refine Within.cut (L := L) (s := s0) x ?_ ?_; rotate_left; intro hx; clear_value x; rotate_left; subst x)
    | intro _ | lift_lets | with_reducible apply modLanes_within | with_reducible apply release_within
    | with_reducible apply withdrawDemand_within | with_reducible apply setWm_within
    | with_reducible apply modReg_within | with_reducible apply setReg_within | with_reducible apply setRail_within
    | split)

theorem onRail_within {L : Nat} {s0 : State} (a0 : Nat) (a1 : Word) (a2 : Item → Fin 48 → Rail → State → State) {s :
    State} (ha2 : ∀ b0 b1 b2 t, Within L s0 t → Within L s0 (a2 b0 b1 b2 t)) (hs : Within L s0 s) (hl : Sub
    0x20ea0fb90c3 L) : Within L s0 (onRail a0 a1 a2 s) := by
  unfold onRail
  repeat' (first
    | with_reducible assumption | intro _ | with_reducible apply beginWork_within | with_reducible apply ha2 | split)

theorem failHold_within {L : Nat} {s0 : State} (a0 : Word) {s : State} (hs : Within L s0 s) (hl : Sub 0x20000fb90c3 L)
    : Within L s0 (failHold a0 s) := by
  unfold failHold
  repeat' (first | with_reducible assumption | with_reducible apply complete_within)

theorem railServed_within {L : Nat} {s0 : State} (a0 : Word) (a1 : Fin 48) (a2 : Nat) {s : State} (hs : Within L s0 s)
    (hl : Sub 0x38c18040 L) : Within L s0 (railServed a0 a1 a2 s) := by
  unfold railServed
  repeat' (first
    | with_reducible assumption | ((with_reducible refine Sub.le ?_ hl); rfl)
    | (intro x; refine Within.cut (L := L) (s := s0) x ?_ ?_; rotate_left; intro hx; clear_value x; rotate_left; subst x)
    | intro _ | lift_lets | with_reducible apply commitStart_within | with_reducible apply modItem_within
    | with_reducible apply railStart_within | split)

theorem railEnable_within {L : Nat} {s0 : State} (a0 : Word) (a1 : Nat) {s : State} (hs : Within L s0 s) (hl : Sub
    0x20fb8fb90c3 L) : Within L s0 (railEnable a0 a1 s) := by
  unfold railEnable
  repeat' (first
    | with_reducible assumption | ((with_reducible refine Sub.le ?_ hl); rfl)
    | (intro x; refine Within.cut (L := L) (s := s0) x ?_ ?_; rotate_left; intro hx; clear_value x; rotate_left; subst x)
    | intro _ | lift_lets | with_reducible apply onRail_within | with_reducible apply failHold_within
    | with_reducible apply complete_within | with_reducible apply itemAsks_within
    | with_reducible apply railServed_within | with_reducible apply modRail_within | split)

theorem failOthers_within {L : Nat} {s0 : State} (a0 : Fin 48) (a1 : Rail) (a2 : Nat) {s : State} (hs : Within L s0 s)
    (hl : Sub 0xee0000000 L) : Within L s0 (failOthers a0 a1 a2 s) := by
  unfold failOthers
  repeat' (first
    | with_reducible assumption | (intro x; clear_value x) | intro _ | lift_lets
    | with_reducible apply nodeFail_within | with_reducible refine Within.foldl ?_ ?_ | split)

theorem derateBegins_within {L : Nat} {s0 : State} (a0 : Item) (a1 : Fin 48) (a2 : Rail) {s : State} (hs : Within L s0
    s) (hl : Sub (orAll s0 0x61ff0ffb4d7) L) : Within L s0 (derateBegins a0 a1 a2 s) := by
  unfold derateBegins
  repeat' (first
    | with_reducible assumption | ((with_reducible refine Sub.some ?_ ?_ hl) <;> rfl)
    | ((with_reducible refine Sub.both ?_ hl); rfl)
    | (intro x; refine Within.cut (L := L) (s := s0) x ?_ ?_; rotate_left; intro hx; clear_value x; rotate_left; subst x)
    | (intro x; clear_value x) | lift_lets | with_reducible apply commitStart_within
    | with_reducible apply settle_within | with_reducible apply retargetRail_within
    | with_reducible apply modRail_within | with_reducible apply complete_within | split)

theorem railSetV_within {L : Nat} {s0 : State} (a0 : Word) {s : State} (hs : Within L s0 s) (hl : Sub (orAll s0
    0x61ff0ffb4d7) L) : Within L s0 (railSetV a0 s) := by
  unfold railSetV
  repeat' (first
    | with_reducible assumption | ((with_reducible refine Sub.some ?_ ?_ hl) <;> rfl)
    | (intro x; refine Within.cut (L := L) (s := s0) x ?_ ?_; rotate_left; intro hx; clear_value x; rotate_left; subst x)
    | intro _ | lift_lets | with_reducible apply onRail_within | with_reducible apply derateBegins_within
    | with_reducible apply failHold_within | with_reducible apply complete_within
    | with_reducible apply failOthers_within | with_reducible apply commitStart_within
    | with_reducible apply settle_within | with_reducible apply retargetRail_within
    | with_reducible apply modRail_within | split)

theorem railDisable_within {L : Nat} {s0 : State} (a0 : Word) {s : State} (hs : Within L s0 s) (hl : Sub (orAll s0
    0x61ff0ffb4d7) L) : Within L s0 (railDisable a0 s) := by
  unfold railDisable
  repeat' (first
    | with_reducible assumption | ((with_reducible refine Sub.some ?_ ?_ hl) <;> rfl)
    | (intro x; refine Within.cut (L := L) (s := s0) x ?_ ?_; rotate_left; intro hx; clear_value x; rotate_left; subst x)
    | intro _ | lift_lets | with_reducible apply onRail_within | with_reducible apply withdrawStarts_within
    | with_reducible apply commitStart_within | with_reducible apply settle_within
    | with_reducible apply complete_within | with_reducible apply failNodes_within | with_reducible apply setPg_within
    | with_reducible apply modRail_within | with_reducible apply railDown_within | split)

theorem gangLanes_within {L : Nat} {s0 : State} (a0 : Fin 48) (a1 : Rail) (a2 : BitVec 48) {s : State} (hs : Within L
    s0 s) (hl : Sub 0x10000000 L) : Within L s0 (gangLanes a0 a1 a2 s) := by
  unfold gangLanes
  repeat' (first
    | with_reducible assumption
    | (intro x; refine Within.cut (L := L) (s := s0) x ?_ ?_; rotate_left; intro hx; clear_value x; rotate_left; subst x)
    | (intro x; clear_value x) | intro _ | lift_lets | with_reducible apply modLane_within
    | with_reducible apply laneJoin_within | with_reducible apply modLanes_within
    | with_reducible refine Within.foldl ?_ ?_)

theorem railGang_within {L : Nat} {s0 : State} (a0 : Word) {s : State} (hs : Within L s0 s) (hl : Sub 0x20eb0fb90c3 L)
    : Within L s0 (railGang a0 s) := by
  unfold railGang
  repeat' (first
    | with_reducible assumption | ((with_reducible refine Sub.le ?_ hl); rfl)
    | (intro x; refine Within.cut (L := L) (s := s0) x ?_ ?_; rotate_left; intro hx; clear_value x; rotate_left; subst x)
    | intro _ | lift_lets | with_reducible apply onRail_within | with_reducible apply failHold_within
    | with_reducible apply complete_within | with_reducible apply countReg_within
    | with_reducible apply commitStart_within | with_reducible apply gangLanes_within
    | with_reducible apply setRail_within | with_reducible apply placeLanes_within
    | with_reducible apply modLanes_within | split)

theorem reask_within {L : Nat} {s0 : State} (a0 : Fin 48) (a1 : Word) {s : State} (hs : Within L s0 s) (hl : Sub
    0x80000000 L) : Within L s0 (reask a0 a1 s) := by
  unfold reask
  repeat' (first | with_reducible assumption | with_reducible apply modBud_within | split)

theorem limitsServed_within {L : Nat} {s0 : State} (a0 : Word) (a1 : Fin 48) {s : State} (hs : Within L s0 s) (hl :
    Sub 0x20fa0fb90c3 L) : Within L s0 (limitsServed a0 a1 s) := by
  unfold limitsServed
  repeat' (first
    | with_reducible assumption | ((with_reducible refine Sub.le ?_ hl); rfl)
    | (intro x; refine Within.cut (L := L) (s := s0) x ?_ ?_; rotate_left; intro hx; clear_value x; rotate_left; subst x)
    | intro _ | lift_lets | with_reducible apply reask_within | with_reducible apply modRail_within
    | with_reducible apply commitStart_within | with_reducible apply release_within
    | with_reducible apply complete_within | split)

theorem railLimits_within {L : Nat} {s0 : State} (a0 : Word) {s : State} (hs : Within L s0 s) (hl : Sub 0x20fa0fb90c3
    L) : Within L s0 (railLimits a0 s) := by
  unfold railLimits
  repeat' (first
    | with_reducible assumption | ((with_reducible refine Sub.le ?_ hl); rfl) | (intro x; clear_value x) | intro _
    | lift_lets | with_reducible apply onRail_within | with_reducible apply complete_within
    | with_reducible apply itemAsks_within | with_reducible apply limitsServed_within
    | with_reducible apply lowerGrant_within | split)

theorem railPgAssert_within {L : Nat} {s0 : State} (a0 : Fin 48) (a1 : Nat) {s : State} (hs : Within L s0 s) (hl : Sub
    (orAll s0 0x63ff8ffb4d7) L) : Within L s0 (railPgAssert a0 a1 s) := by
  unfold railPgAssert
  repeat' (first
    | with_reducible assumption | ((with_reducible refine Sub.some ?_ ?_ hl) <;> rfl)
    | ((with_reducible refine Sub.both ?_ hl); rfl)
    | (intro x; refine Within.cut (L := L) (s := s0) x ?_ ?_; rotate_left; intro hx; clear_value x; rotate_left; subst x)
    | intro _ | lift_lets | with_reducible apply railSees_within | with_reducible apply endCause_within
    | with_reducible apply setPg_within | with_reducible apply completeOpt_within | with_reducible apply settle_within
    | with_reducible apply nodesOnPg_within | split)

theorem pgTmo_within {L : Nat} {s0 : State} (a0 : Fin 48) {s : State} (hs : Within L s0 s) (hl : Sub (orAll s0
    0x73ff8ffb4d7) L) : Within L s0 (pgTmo a0 s) := by
  unfold pgTmo
  repeat' (first
    | with_reducible assumption | ((with_reducible refine Sub.some ?_ ?_ hl) <;> rfl)
    | with_reducible apply raiseOnce_within | with_reducible apply completeOpt_within | split)

theorem prebiasEnds_within {L : Nat} {s0 : State} (a0 : Fin 48) {s : State} (hs : Within L s0 s) (hl : Sub (orAll s0
    0x73ff8ffb4d7) L) : Within L s0 (prebiasEnds a0 s) := by
  unfold prebiasEnds
  repeat' (first
    | with_reducible assumption | ((with_reducible refine Sub.some ?_ ?_ hl) <;> rfl) | (intro x; clear_value x)
    | lift_lets | with_reducible apply raise_within | with_reducible apply completeOpt_within
    | with_reducible apply railDown_within | split)

theorem prebiasTmo_within {L : Nat} {s0 : State} (a0 : Fin 48) {s : State} (hs : Within L s0 s) (hl : Sub (orAll s0
    0x73ff8ffb4d7) L) : Within L s0 (prebiasTmo a0 s) := by
  unfold prebiasTmo
  repeat' (first
    | with_reducible assumption | ((with_reducible refine Sub.some ?_ ?_ hl) <;> rfl)
    | with_reducible apply prebiasEnds_within | with_reducible apply measuredAll_within)

theorem gangDone_within {L : Nat} {s0 : State} (a0 : Fin 48) {s : State} (hs : Within L s0 s) (hl : Sub 0x20038ffb0c3
    L) : Within L s0 (gangDone a0 s) := by
  unfold gangDone
  repeat' (first
    | with_reducible assumption | ((with_reducible refine Sub.le ?_ hl); rfl)
    | (intro x; refine Within.cut (L := L) (s := s0) x ?_ ?_; rotate_left; intro hx; clear_value x; rotate_left; subst x)
    | (intro x; clear_value x) | lift_lets | with_reducible apply modLanes_within
    | with_reducible apply lostEnds_within | with_reducible apply modRail_within
    | with_reducible apply completeOpt_within | with_reducible apply event_within | split)

theorem autoShedEvent_within {L : Nat} {s0 : State} (a0 : Fin 48) {s : State} (hs : Within L s0 s) (hl : Sub 0x4a083
    L) : Within L s0 (autoShedEvent a0 s) := by
  unfold autoShedEvent
  repeat' (first | with_reducible assumption | with_reducible apply event_within | split)

theorem railShedLane_within {L : Nat} {s0 : State} (a0 : Fin 48) (a1 : Rail) {s : State} (hs : Within L s0 s) (hl :
    Sub 0x3004a083 L) : Within L s0 (railShedLane a0 a1 s) := by
  unfold railShedLane
  repeat' (first
    | with_reducible assumption | ((with_reducible refine Sub.le ?_ hl); rfl) | (intro x; clear_value x) | lift_lets
    | with_reducible apply autoShedEvent_within | with_reducible apply modRail_within
    | with_reducible apply modLane_within | with_reducible apply leashEdge_within | split)

theorem railRejoin_within {L : Nat} {s0 : State} (a0 : Fin 48) (a1 : Rail) {s : State} (hs : Within L s0 s) (hl : Sub
    0x3804a083 L) : Within L s0 (railRejoin a0 a1 s) := by
  unfold railRejoin
  repeat' (first
    | with_reducible assumption | ((with_reducible refine Sub.le ?_ hl); rfl)
    | (intro x; refine Within.cut (L := L) (s := s0) x ?_ ?_; rotate_left; intro hx; clear_value x; rotate_left; subst x)
    | intro _ | lift_lets | with_reducible apply modRail_within | with_reducible apply autoShedEvent_within
    | with_reducible apply lostEnds_within | with_reducible apply laneJoin_within | split)

theorem autoShed_within {L : Nat} {s0 : State} (a0 : Fin 48) (a1 : Int) {s : State} (hs : Within L s0 s) (hl : Sub
    0x3804a083 L) : Within L s0 (autoShed a0 a1 s) := by
  unfold autoShed
  repeat' (first
    | with_reducible assumption | ((with_reducible refine Sub.le ?_ hl); rfl)
    | with_reducible apply railShedLane_within | with_reducible apply railRejoin_within | split)

theorem rsCorrection_within {L : Nat} {s0 : State} (a0 : Fin 48) (a1 : Int) {s : State} (hs : Within L s0 s) (hl : Sub
    (orAll s0 0x73ff8ffb4d7) L) : Within L s0 (rsCorrection a0 a1 s) := by
  unfold rsCorrection
  repeat' (first
    | with_reducible assumption | ((with_reducible refine Sub.some ?_ ?_ hl) <;> rfl)
    | (intro x; refine Within.cut (L := L) (s := s0) x ?_ ?_; rotate_left; intro hx; clear_value x; rotate_left; subst x)
    | (intro x; clear_value x) | lift_lets | with_reducible apply modRail_within
    | with_reducible apply raiseOnce_within | with_reducible apply endCause_within | split)

theorem senseFall_within {L : Nat} {s0 : State} (a0 : Fin 48) (a1 : Nat) (a2 : Rail → Rail) {s : State} (hs : Within L
    s0 s) (hl : Sub (orAll s0 0x73ff8ffb4d7) L) : Within L s0 (senseFall a0 a1 a2 s) := by
  unfold senseFall
  repeat' (first
    | with_reducible assumption | ((with_reducible refine Sub.some ?_ ?_ hl) <;> rfl)
    | (intro x; refine Within.cut (L := L) (s := s0) x ?_ ?_; rotate_left; intro hx; clear_value x; rotate_left; subst x)
    | (intro x; clear_value x) | lift_lets | with_reducible apply modRail_within
    | with_reducible apply raiseOnce_within | with_reducible apply endCause_within | with_reducible apply event_within
    | with_reducible apply countReg_within | split)

theorem senseLost_within {L : Nat} {s0 : State} (a0 : Fin 48) (a1 : Int) (a2 : Int) {s : State} (hs : Within L s0 s)
    (hl : Sub (orAll s0 0x73ff8ffb4d7) L) : Within L s0 (senseLost a0 a1 a2 s) := by
  unfold senseLost
  repeat' (first
    | with_reducible assumption | with_reducible apply raiseOnce_within | with_reducible apply senseFall_within
    | split)

theorem senseFrozen_within {L : Nat} {s0 : State} (a0 : Fin 48) (a1 : Nat) {s : State} (hs : Within L s0 s) (hl : Sub
    (orAll s0 0x73ff8ffb4d7) L) : Within L s0 (senseFrozen a0 a1 s) := by
  unfold senseFrozen
  repeat' (first
    | with_reducible assumption | with_reducible apply raiseOnce_within | with_reducible apply senseFall_within
    | split)

theorem uvCrossed_within {L : Nat} {s0 : State} (a0 : Fin 48) {s : State} (hs : Within L s0 s) (hl : Sub (orAll s0
    0x73ff8ffb4d7) L) : Within L s0 (uvCrossed a0 s) := by
  unfold uvCrossed
  repeat' (first
    | with_reducible assumption | ((with_reducible refine Sub.some ?_ ?_ hl) <;> rfl)
    | with_reducible apply raiseOnce_within | with_reducible apply setPg_within | split)

theorem ovCrossed_within {L : Nat} {s0 : State} (a0 : Fin 48) {s : State} (hs : Within L s0 s) (hl : Sub (orAll s0
    0x73ff8ffb4d7) L) : Within L s0 (ovCrossed a0 s) := by
  unfold ovCrossed
  repeat' (first
    | with_reducible assumption | ((with_reducible refine Sub.some ?_ ?_ hl) <;> rfl)
    | (intro x; refine Within.cut (L := L) (s := s0) x ?_ ?_; rotate_left; intro hx; clear_value x; rotate_left; subst x)
    | (intro x; clear_value x) | intro _ | lift_lets | with_reducible apply failNodes_within
    | with_reducible apply railDown_within | with_reducible apply withdrawDemand_within
    | with_reducible apply countReg_within | with_reducible apply raiseOnce_within
    | with_reducible apply complete_within | with_reducible refine Within.foldl ?_ ?_ | split)

theorem windowUv_within {L : Nat} {s0 : State} (a0 : Fin 48) (a1 : Nat) {s : State} (hs : Within L s0 s) (hl : Sub
    (orAll s0 0x73ff8ffb4d7) L) : Within L s0 (windowUv a0 a1 s) := by
  unfold windowUv
  repeat' (first
    | with_reducible assumption | ((with_reducible refine Sub.some ?_ ?_ hl) <;> rfl)
    | (intro x; refine Within.cut (L := L) (s := s0) x ?_ ?_; rotate_left; intro hx; clear_value x; rotate_left; subst x)
    | intro _ | lift_lets | with_reducible apply railSees_within | with_reducible apply uvCrossed_within | split)

theorem windowOv_within {L : Nat} {s0 : State} (a0 : Fin 48) (a1 : Nat) {s : State} (hs : Within L s0 s) (hl : Sub
    (orAll s0 0x73ff8ffb4d7) L) : Within L s0 (windowOv a0 a1 s) := by
  unfold windowOv
  repeat' (first
    | with_reducible assumption | ((with_reducible refine Sub.some ?_ ?_ hl) <;> rfl)
    | (intro x; refine Within.cut (L := L) (s := s0) x ?_ ?_; rotate_left; intro hx; clear_value x; rotate_left; subst x)
    | intro _ | lift_lets | with_reducible apply railSees_within | with_reducible apply ovCrossed_within | split)

theorem railEdge_within {L : Nat} {s0 : State} (a0 : Fin 64) {s : State} (hs : Within L s0 s) (hl : Sub (orAll s0
    0x73ff8ffb4d7) L) : Within L s0 (railEdge a0 s) := by
  unfold railEdge
  repeat' (first
    | with_reducible assumption | with_reducible apply ovCrossed_within | with_reducible apply uvCrossed_within
    | split)

theorem softStopDone_within {L : Nat} {s0 : State} (a0 : Fin 48) {s : State} (hs : Within L s0 s) (hl : Sub (orAll s0
    0x61ff0ffb4d7) L) : Within L s0 (softStopDone a0 s) := by
  unfold softStopDone
  repeat' (first
    | with_reducible assumption | ((with_reducible refine Sub.some ?_ ?_ hl) <;> rfl)
    | with_reducible apply settle_within | with_reducible apply railDown_within | split)

theorem execRailSetV_within {L : Nat} {s0 : State} (a0 : Word) {s : State} (hs : Within L s0 s) (hl : Sub (orAll s0
    0x61ff0ffb4d7) L) : WithinOut L s0 (execRailSetV a0 s) := by
  unfold execRailSetV
  repeat' (first
    | with_reducible assumption | with_reducible apply railSetV_within | with_reducible apply WithinOut.next)

theorem execRailEnable_within {L : Nat} {s0 : State} (a0 : Word) (a1 : Nat) {s : State} (hs : Within L s0 s) (hl : Sub
    0x20fb8fb90c3 L) : WithinOut L s0 (execRailEnable a0 a1 s) := by
  unfold execRailEnable
  repeat' (first
    | with_reducible assumption | with_reducible apply railEnable_within | with_reducible apply WithinOut.next)

theorem execRailDisable_within {L : Nat} {s0 : State} (a0 : Word) {s : State} (hs : Within L s0 s) (hl : Sub (orAll s0
    0x61ff0ffb4d7) L) : WithinOut L s0 (execRailDisable a0 s) := by
  unfold execRailDisable
  repeat' (first
    | with_reducible assumption | with_reducible apply railDisable_within | with_reducible apply WithinOut.next)

theorem execRailGang_within {L : Nat} {s0 : State} (a0 : Word) {s : State} (hs : Within L s0 s) (hl : Sub
    0x20eb0fb90c3 L) : WithinOut L s0 (execRailGang a0 s) := by
  unfold execRailGang
  repeat' (first
    | with_reducible assumption | with_reducible apply railGang_within | with_reducible apply WithinOut.next)

theorem execRailLimits_within {L : Nat} {s0 : State} (a0 : Word) {s : State} (hs : Within L s0 s) (hl : Sub
    0x20fa0fb90c3 L) : WithinOut L s0 (execRailLimits a0 s) := by
  unfold execRailLimits
  repeat' (first
    | with_reducible assumption | with_reducible apply railLimits_within | with_reducible apply WithinOut.next)

theorem execRailPgAssert_within {L : Nat} {s0 : State} (a0 : Fin 48) (a1 : Nat) {s : State} (hs : Within L s0 s) (hl :
    Sub (orAll s0 0x63ff8ffb4d7) L) : WithinOut L s0 (execRailPgAssert a0 a1 s) := by
  unfold execRailPgAssert
  repeat' (first
    | with_reducible assumption | with_reducible apply railPgAssert_within | with_reducible apply WithinOut.next)

theorem execPgTmo_within {L : Nat} {s0 : State} (a0 : Fin 48) {s : State} (hs : Within L s0 s) (hl : Sub (orAll s0
    0x73ff8ffb4d7) L) : WithinOut L s0 (execPgTmo a0 s) := by
  unfold execPgTmo
  repeat' (first
    | with_reducible assumption | with_reducible apply pgTmo_within | with_reducible apply WithinOut.next)

theorem execPrebiasTmo_within {L : Nat} {s0 : State} (a0 : Fin 48) {s : State} (hs : Within L s0 s) (hl : Sub (orAll
    s0 0x73ff8ffb4d7) L) : WithinOut L s0 (execPrebiasTmo a0 s) := by
  unfold execPrebiasTmo
  repeat' (first
    | with_reducible assumption | with_reducible apply prebiasTmo_within | with_reducible apply WithinOut.next)

theorem execGangDone_within {L : Nat} {s0 : State} (a0 : Fin 48) {s : State} (hs : Within L s0 s) (hl : Sub
    0x20038ffb0c3 L) : WithinOut L s0 (execGangDone a0 s) := by
  unfold execGangDone
  repeat' (first
    | with_reducible assumption | with_reducible apply gangDone_within | with_reducible apply WithinOut.next)

theorem execAutoShed_within {L : Nat} {s0 : State} (a0 : Fin 48) (a1 : Int) {s : State} (hs : Within L s0 s) (hl : Sub
    0x3804a083 L) : WithinOut L s0 (execAutoShed a0 a1 s) := by
  unfold execAutoShed
  repeat' (first
    | with_reducible assumption | with_reducible apply autoShed_within | with_reducible apply WithinOut.next)

theorem execRsCorrection_within {L : Nat} {s0 : State} (a0 : Fin 48) (a1 : Int) {s : State} (hs : Within L s0 s) (hl :
    Sub (orAll s0 0x73ff8ffb4d7) L) : WithinOut L s0 (execRsCorrection a0 a1 s) := by
  unfold execRsCorrection
  repeat' (first
    | with_reducible assumption | with_reducible apply rsCorrection_within | with_reducible apply WithinOut.next)

theorem execSenseLost_within {L : Nat} {s0 : State} (a0 : Fin 48) (a1 : Int) (a2 : Int) {s : State} (hs : Within L s0
    s) (hl : Sub (orAll s0 0x73ff8ffb4d7) L) : WithinOut L s0 (execSenseLost a0 a1 a2 s) := by
  unfold execSenseLost
  repeat' (first
    | with_reducible assumption | with_reducible apply senseLost_within | with_reducible apply WithinOut.next)

theorem execSenseFrozen_within {L : Nat} {s0 : State} (a0 : Fin 48) (a1 : Nat) {s : State} (hs : Within L s0 s) (hl :
    Sub (orAll s0 0x73ff8ffb4d7) L) : WithinOut L s0 (execSenseFrozen a0 a1 s) := by
  unfold execSenseFrozen
  repeat' (first
    | with_reducible assumption | with_reducible apply senseFrozen_within | with_reducible apply WithinOut.next)

theorem execWindowUv_within {L : Nat} {s0 : State} (a0 : Fin 48) (a1 : Nat) {s : State} (hs : Within L s0 s) (hl : Sub
    (orAll s0 0x73ff8ffb4d7) L) : WithinOut L s0 (execWindowUv a0 a1 s) := by
  unfold execWindowUv
  repeat' (first
    | with_reducible assumption | with_reducible apply windowUv_within | with_reducible apply WithinOut.next)

theorem execWindowOv_within {L : Nat} {s0 : State} (a0 : Fin 48) (a1 : Nat) {s : State} (hs : Within L s0 s) (hl : Sub
    (orAll s0 0x73ff8ffb4d7) L) : WithinOut L s0 (execWindowOv a0 a1 s) := by
  unfold execWindowOv
  repeat' (first
    | with_reducible assumption | with_reducible apply windowOv_within | with_reducible apply WithinOut.next)

theorem execSoftStopDone_within {L : Nat} {s0 : State} (a0 : Fin 48) {s : State} (hs : Within L s0 s) (hl : Sub (orAll
    s0 0x61ff0ffb4d7) L) : WithinOut L s0 (execSoftStopDone a0 s) := by
  unfold execSoftStopDone
  repeat' (first
    | with_reducible assumption | with_reducible apply softStopDone_within | with_reducible apply WithinOut.next)

/-! ### Machine/Graphs.lean -/

theorem seqGraphRun_within {L : Nat} {s0 : State} (a0 : Word) {s : State} (hs : Within L s0 s) (hl : Sub (orAll s0
    0x61ff0ffb4d7) L) : Within L s0 (seqGraphRun a0 s) := by
  unfold seqGraphRun
  repeat' (first
    | with_reducible assumption | ((with_reducible refine Sub.some ?_ ?_ hl) <;> rfl) | intro _
    | with_reducible apply beginWork_within | with_reducible apply complete_within
    | with_reducible apply settle_within | with_reducible apply startRun_within
    | with_reducible apply commitStart_within | split)

theorem askNode_within {L : Nat} {s0 : State} (a0 : Fin 16) (a1 : Nat) (a2 : Option Word) (a3 : Fin 48) (a4 : Nat) {s
    : State} (hs : Within L s0 s) (hl : Sub 0x20ff8039083 L) : Within L s0 (askNode a0 a1 a2 a3 a4 s) := by
  unfold askNode
  repeat' (first
    | with_reducible assumption | ((with_reducible refine Sub.le ?_ hl); rfl)
    | (intro x; refine Within.cut (L := L) (s := s0) x ?_ ?_; rotate_left; intro hx; clear_value x; rotate_left; subst x)
    | (intro x; clear_value x) | lift_lets | with_reducible apply place_within | with_reducible apply nodeFail_within
    | with_reducible apply railStart_within | with_reducible apply modRail_within
    | with_reducible apply interim_within | split)

theorem nodeUp_within {L : Nat} {s0 : State} (a0 : Fin 16) (a1 : Nat) (a2 : Option Word) (a3 : Node) (a4 : Nat) {s :
    State} (hs : Within L s0 s) (hl : Sub 0x20ff8039083 L) : Within L s0 (nodeUp a0 a1 a2 a3 a4 s) := by
  unfold nodeUp
  repeat' (first
    | with_reducible assumption | ((with_reducible refine Sub.le ?_ hl); rfl)
    | (intro x; refine Within.cut (L := L) (s := s0) x ?_ ?_; rotate_left; intro hx; clear_value x; rotate_left; subst x)
    | (intro x; clear_value x) | lift_lets | with_reducible apply nodeFail_within
    | with_reducible apply retargetRail_within | with_reducible apply modRail_within
    | with_reducible apply nodeDone_within | with_reducible apply askNode_within | split)

theorem nodeDown_within {L : Nat} {s0 : State} (a0 : Fin 16) (a1 : Nat) (a2 : Node) {s : State} (hs : Within L s0 s)
    (hl : Sub 0x20ff0ffb0c3 L) : Within L s0 (nodeDown a0 a1 a2 s) := by
  unfold nodeDown
  repeat' (first
    | with_reducible assumption | ((with_reducible refine Sub.le ?_ hl); rfl)
    | (intro x; refine Within.cut (L := L) (s := s0) x ?_ ?_; rotate_left; intro hx; clear_value x; rotate_left; subst x)
    | intro _ | lift_lets | with_reducible apply nodeDone_within | with_reducible apply withdrawStarts_within
    | with_reducible apply supersedeOn_within | with_reducible apply railDown_within | split)

theorem stopEnds_within {L : Nat} {s0 : State} (a0 : Node) {s : State} (hs : Within L s0 s) (hl : Sub 0x20fb0ffb0c3 L)
    : Within L s0 (stopEnds a0 s) := by
  unfold stopEnds
  repeat' (first | with_reducible assumption | with_reducible apply railDown_within | split)

theorem graphNodeStart_within {L : Nat} {s0 : State} (a0 : Fin 16) (a1 : Nat) (a2 : Nat) {s : State} (hs : Within L s0
    s) (hl : Sub (orAll s0 0x61ff8ffb4d7) L) : Within L s0 (graphNodeStart a0 a1 a2 s) := by
  unfold graphNodeStart
  repeat' (first
    | with_reducible assumption | ((with_reducible refine Sub.some ?_ ?_ hl) <;> rfl)
    | ((with_reducible refine Sub.both ?_ hl); rfl)
    | (intro x; refine Within.cut (L := L) (s := s0) x ?_ ?_; rotate_left; intro hx; clear_value x; rotate_left; subst x)
    | (intro x; clear_value x) | lift_lets | with_reducible apply stopEnds_within
    | with_reducible apply rootWake_within | with_reducible apply modGraph_within | with_reducible apply settle_within
    | with_reducible apply nodeDone_within | with_reducible apply nodeUp_within | with_reducible apply nodeDown_within
    | split)

theorem graphNodeDone_within {L : Nat} {s0 : State} (a0 : Fin 16) (a1 : Nat) {s : State} (hs : Within L s0 s) (hl :
    Sub (orAll s0 0x61ff0ffb4d7) L) : Within L s0 (graphNodeDone a0 a1 s) := by
  unfold graphNodeDone
  repeat' (first
    | with_reducible assumption | ((with_reducible refine Sub.some ?_ ?_ hl) <;> rfl) | (intro x; clear_value x)
    | lift_lets | with_reducible apply settle_within | with_reducible apply nodeDone_within | split)

theorem graphNodeTmo_within {L : Nat} {s0 : State} (a0 : Fin 16) (a1 : Nat) {s : State} (hs : Within L s0 s) (hl : Sub
    (orAll s0 0x61ff0ffb4d7) L) : Within L s0 (graphNodeTmo a0 a1 s) := by
  unfold graphNodeTmo
  repeat' (first
    | with_reducible assumption | ((with_reducible refine Sub.some ?_ ?_ hl) <;> rfl)
    | with_reducible apply settle_within | with_reducible apply nodeFail_within | with_reducible apply nodeDone_within
    | split)

theorem nodeServed_within {L : Nat} {s0 : State} (a0 : Nat) (a1 : Nat) (a2 : Fin 48) (a3 : Nat) {s : State} (hs :
    Within L s0 s) (hl : Sub 0x38000000 L) : Within L s0 (nodeServed a0 a1 a2 a3 s) := by
  unfold nodeServed
  repeat' (first | with_reducible assumption | with_reducible apply railStart_within | split)

theorem execSeqGraphRun_within {L : Nat} {s0 : State} (a0 : Word) {s : State} (hs : Within L s0 s) (hl : Sub (orAll s0
    0x61ff0ffb4d7) L) : WithinOut L s0 (execSeqGraphRun a0 s) := by
  unfold execSeqGraphRun
  repeat' (first
    | with_reducible assumption | with_reducible apply seqGraphRun_within | with_reducible apply WithinOut.next)

theorem execGraphNodeStart_within {L : Nat} {s0 : State} (a0 : Fin 16) (a1 : Fin 32) (a2 : Nat) {s : State} (hs :
    Within L s0 s) (hl : Sub (orAll s0 0x61ff8ffb4d7) L) : WithinOut L s0 (execGraphNodeStart a0 a1 a2 s) := by
  unfold execGraphNodeStart
  repeat' (first
    | with_reducible assumption | with_reducible apply graphNodeStart_within | with_reducible apply WithinOut.next)

theorem execGraphNodeDone_within {L : Nat} {s0 : State} (a0 : Fin 16) (a1 : Fin 32) {s : State} (hs : Within L s0 s)
    (hl : Sub (orAll s0 0x61ff0ffb4d7) L) : WithinOut L s0 (execGraphNodeDone a0 a1 s) := by
  unfold execGraphNodeDone
  repeat' (first
    | with_reducible assumption | with_reducible apply graphNodeDone_within | with_reducible apply WithinOut.next)

theorem execGraphNodeTmo_within {L : Nat} {s0 : State} (a0 : Fin 16) (a1 : Fin 32) {s : State} (hs : Within L s0 s)
    (hl : Sub (orAll s0 0x61ff0ffb4d7) L) : WithinOut L s0 (execGraphNodeTmo a0 a1 s) := by
  unfold execGraphNodeTmo
  repeat' (first
    | with_reducible assumption | with_reducible apply graphNodeTmo_within | with_reducible apply WithinOut.next)

/-! ### Machine/Battery.lean -/

theorem sawBatsns_within {L : Nat} {s0 : State} (a0 : Nat) {s : State} (hs : Within L s0 s) (hl : Sub 0x100000000 L) :
    Within L s0 (sawBatsns a0 s) := by
  unfold sawBatsns
  repeat' (first | with_reducible assumption | with_reducible apply modChg_within)

theorem socAt_within {L : Nat} {s0 : State} (a0 : Nat) {s : State} (hs : Within L s0 s) : Within L s0 (socAt a0 s).2
    := by
  unfold socAt
  repeat' (first
    | with_reducible assumption | (intro x; clear_value x) | lift_lets | with_reducible apply roundOpen_within)

theorem gaugeVolts_within {L : Nat} {s0 : State} (a0 : Nat) {s : State} (hs : Within L s0 s) (hl : Sub 0x100000000 L)
    : Within L s0 (gaugeVolts a0 s) := by
  unfold gaugeVolts
  repeat' (first
    | with_reducible assumption
    | (intro x; refine Within.cut (L := L) (s := s0) x ?_ ?_; rotate_left; intro hx; clear_value x; rotate_left; subst x)
    | (intro x; refine Within.cut (L := L) (s := s0) x.2 ?_ ?_; rotate_left; intro hx; clear_value x; rotate_left; subst x)
    | intro _ | lift_lets | with_reducible apply socAt_within | with_reducible apply modChg_within | split)

theorem disputeEnd_within {L : Nat} {s0 : State} {s : State} (hs : Within L s0 s) (hl : Sub 0x108000000 L) : Within L
    s0 (disputeEnd s) := by
  unfold disputeEnd
  repeat' (first
    | with_reducible assumption | ((with_reducible refine Sub.le ?_ hl); rfl) | with_reducible apply endCause_within
    | with_reducible apply modChg_within | split)

theorem judgeLow_within {L : Nat} {s0 : State} {s : State} (hs : Within L s0 s) (hl : Sub 0x100000002 L) : Within L s0
    (judgeLow s) := by
  unfold judgeLow
  repeat' (first
    | with_reducible assumption | ((with_reducible refine Sub.le ?_ hl); rfl)
    | (intro x; refine Within.cut (L := L) (s := s0) x ?_ ?_; rotate_left; intro hx; clear_value x; rotate_left; subst x)
    | (intro x; clear_value x) | lift_lets | with_reducible apply modChg_within | with_reducible apply orReg_within
    | split)

theorem judgeGauge_within {L : Nat} {s0 : State} {s : State} (hs : Within L s0 s) (hl : Sub (orAll s0 0x73ff8ffb4d7)
    L) : Within L s0 (judgeGauge s) := by
  unfold judgeGauge
  repeat' (first
    | with_reducible assumption | ((with_reducible refine Sub.some ?_ ?_ hl) <;> rfl) | (intro x; clear_value x)
    | lift_lets | with_reducible apply judgeLow_within | with_reducible apply disputeEnd_within
    | with_reducible apply event_within | with_reducible apply raise_within | with_reducible apply orReg_within
    | with_reducible apply modChg_within | split)

theorem rebase_within {L : Nat} {s0 : State} (a0 : Int) {s : State} (hs : Within L s0 s) (hl : Sub 0x10004a083 L) :
    Within L s0 (rebase a0 s) := by
  unfold rebase
  repeat' (first
    | with_reducible assumption | ((with_reducible refine Sub.le ?_ hl); rfl) | (intro x; clear_value x) | lift_lets
    | with_reducible apply event_within | with_reducible apply countReg_within | with_reducible apply modChg_within)

theorem witness_within {L : Nat} {s0 : State} (a0 : State) {s : State} (hs : Within L s0 s) (hl : Sub 0x10004a083 L) :
    Within L s0 (witness a0 s) := by
  unfold witness
  repeat' (first | with_reducible assumption | with_reducible apply rebase_within | split)

theorem gaugeSample_within {L : Nat} {s0 : State} (a0 : Int) (a1 : Nat) {s : State} (hs : Within L s0 s) (hl : Sub
    (orAll s0 0x73ff8ffb4d7) L) : Within L s0 (gaugeSample a0 a1 s) := by
  unfold gaugeSample
  repeat' (first
    | with_reducible assumption | ((with_reducible refine Sub.some ?_ ?_ hl) <;> rfl)
    | (intro x; refine Within.cut (L := L) (s := s0) x ?_ ?_; rotate_left; intro hx; clear_value x; rotate_left; subst x)
    | (intro x; clear_value x) | lift_lets | with_reducible apply sawBatsns_within
    | with_reducible apply modChg_within | with_reducible apply judgeGauge_within
    | with_reducible apply witness_within | with_reducible apply gaugeVolts_within | split)

theorem batteryRest_within {L : Nat} {s0 : State} (a0 : Nat) {s : State} (hs : Within L s0 s) (hl : Sub (orAll s0
    0x73ff8ffb4d7) L) : Within L s0 (batteryRest a0 s) := by
  unfold batteryRest
  repeat' (first
    | with_reducible assumption | ((with_reducible refine Sub.some ?_ ?_ hl) <;> rfl)
    | with_reducible apply judgeGauge_within | with_reducible apply witness_within
    | with_reducible apply gaugeVolts_within | with_reducible apply modChg_within | split)

theorem gaugeRange_within {L : Nat} {s0 : State} {s : State} (hs : Within L s0 s) (hl : Sub (orAll s0 0x73ff8ffb4d7)
    L) : Within L s0 (gaugeRange s) := by
  unfold gaugeRange
  repeat' (first
    | with_reducible assumption | ((with_reducible refine Sub.some ?_ ?_ hl) <;> rfl)
    | with_reducible apply judgeGauge_within | with_reducible apply raiseOnce_within
    | with_reducible apply modChg_within | split)

theorem gaugeRebase_within {L : Nat} {s0 : State} (a0 : Word) {s : State} (hs : Within L s0 s) (hl : Sub (orAll s0
    0x73ff8ffb4d7) L) : Within L s0 (gaugeRebase a0 s) := by
  unfold gaugeRebase
  repeat' (first
    | with_reducible assumption | ((with_reducible refine Sub.some ?_ ?_ hl) <;> rfl)
    | (intro x; refine Within.cut (L := L) (s := s0) x ?_ ?_; rotate_left; intro hx; clear_value x; rotate_left; subst x)
    | (intro x; clear_value x) | intro _ | lift_lets | with_reducible apply beginWork_within
    | with_reducible apply complete_within | with_reducible apply judgeGauge_within
    | with_reducible apply disputeEnd_within | with_reducible apply rebase_within | split)

theorem cutoffPend_within {L : Nat} {s0 : State} (a0 : Nat) {s : State} (hs : Within L s0 s) (hl : Sub 0x10004a083 L)
    : Within L s0 (cutoffPend a0 s) := by
  unfold cutoffPend
  repeat' (first
    | with_reducible assumption | ((with_reducible refine Sub.le ?_ hl); rfl) | with_reducible apply event_within
    | with_reducible apply orReg_within | with_reducible apply modChg_within | split)

theorem cutoff_within {L : Nat} {s0 : State} (a0 : Nat) {s : State} (hs : Within L s0 s) (hl : Sub 0x7fffffffffff L) :
    Within L s0 (cutoff a0 s) := by
  unfold cutoff
  repeat' (first
    | with_reducible assumption | ((with_reducible refine Sub.le ?_ hl); rfl)
    | ((with_reducible refine Sub.any ?_ hl); rfl) | ((with_reducible refine Or.inr (Sub.le ?_ hl)); rfl)
    | (intro x; refine Within.cut (L := L) (s := s0) x ?_ ?_; rotate_left; intro hx; clear_value x; rotate_left; subst x)
    | intro _ | lift_lets | with_reducible apply event_within | with_reducible apply sawBatsns_within
    | with_reducible apply raise_within | with_reducible apply countReg_within
    | with_reducible apply burrowStart_within | with_reducible apply modPwr_within
    | with_reducible apply disputeEnd_within | split)

theorem judgeDerate_within {L : Nat} {s0 : State} {s : State} (hs : Within L s0 s) (hl : Sub 0x10004a083 L) : Within L
    s0 (judgeDerate s) := by
  unfold judgeDerate
  repeat' (first
    | with_reducible assumption | ((with_reducible refine Sub.le ?_ hl); rfl) | (intro x; clear_value x) | lift_lets
    | with_reducible apply modChg_within | with_reducible apply event_within | split)

theorem capBattUpdate_within {L : Nat} {s0 : State} (a0 : Nat) {s : State} (hs : Within L s0 s) (hl : Sub
    0x20ff0ffb0c7 L) : Within L s0 (capBattUpdate a0 s) := by
  unfold capBattUpdate
  repeat' (first
    | with_reducible assumption | ((with_reducible refine Sub.le ?_ hl); rfl)
    | (intro x; refine Within.cut (L := L) (s := s0) x ?_ ?_; rotate_left; intro hx; clear_value x; rotate_left; subst x)
    | (intro x; refine Within.cut (L := L) (s := s0) x.2 ?_ ?_; rotate_left; intro hx; clear_value x; rotate_left; subst x)
    | intro _ | lift_lets | with_reducible apply judgeDerate_within | with_reducible apply sawBatsns_within
    | with_reducible apply roundOpen_within | with_reducible apply arbitrate_within
    | with_reducible apply modBud_within | split)

theorem chgMoves_within {L : Nat} {s0 : State} (a0 : ChgState) {s : State} (hs : Within L s0 s) (hl : Sub
    0x20ff0ffb0c7 L) : Within L s0 (chgMoves a0 s) := by
  unfold chgMoves
  repeat' (first
    | with_reducible assumption | ((with_reducible refine Sub.le ?_ hl); rfl) | with_reducible apply arbitrate_within
    | with_reducible apply setChg_within)

theorem chgVolts_within {L : Nat} {s0 : State} (a0 : Nat) {s : State} (hs : Within L s0 s) (hl : Sub 0x20ff0ffb0c7 L)
    : Within L s0 (chgVolts a0 s) := by
  unfold chgVolts
  repeat' (first
    | with_reducible assumption | ((with_reducible refine Sub.le ?_ hl); rfl)
    | (intro x; refine Within.cut (L := L) (s := s0) x ?_ ?_; rotate_left; intro hx; clear_value x; rotate_left; subst x)
    | (intro x; clear_value x) | lift_lets | with_reducible apply sawBatsns_within
    | with_reducible apply chgMoves_within | split)

theorem chgTerminate_within {L : Nat} {s0 : State} {s : State} (hs : Within L s0 s) (hl : Sub (orAll s0 0x73ff8ffb4d7)
    L) : Within L s0 (chgTerminate s) := by
  unfold chgTerminate
  repeat' (first
    | with_reducible assumption | ((with_reducible refine Sub.some ?_ ?_ hl) <;> rfl)
    | with_reducible apply judgeGauge_within | with_reducible apply setChg_within | with_reducible apply rebase_within
    | split)

theorem chgRecharge_within {L : Nat} {s0 : State} (a0 : Nat) {s : State} (hs : Within L s0 s) (hl : Sub 0x20ff0ffb0c7
    L) : Within L s0 (chgRecharge a0 s) := by
  unfold chgRecharge
  repeat' (first
    | with_reducible assumption | ((with_reducible refine Sub.le ?_ hl); rfl) | (intro x; clear_value x) | lift_lets
    | with_reducible apply chgMoves_within | with_reducible apply sawBatsns_within | split)

theorem raiseEpisode_within {L : Nat} {s0 : State} (a0 : Nat) (a1 : Nat) {s : State} (hs : Within L s0 s) (hl : Sub
    (orAll s0 0x73ff8ffb4d7) L) : Within L s0 (raiseEpisode a0 a1 s) := by
  unfold raiseEpisode
  repeat' (first | with_reducible assumption | with_reducible apply raiseLatched_within | split)

theorem preTmo_within {L : Nat} {s0 : State} {s : State} (hs : Within L s0 s) (hl : Sub (orAll s0 0x73ff8ffb4d7) L) :
    Within L s0 (preTmo s) := by
  unfold preTmo
  repeat' (first
    | with_reducible assumption | ((with_reducible refine Sub.some ?_ ?_ hl) <;> rfl)
    | ((with_reducible refine Or.inr (Sub.some ?_ ?_ hl)) <;> rfl)
    | (intro x; refine Within.cut (L := L) (s := s0) x ?_ ?_; rotate_left; intro hx; clear_value x; rotate_left; subst x)
    | intro _ | ((with_reducible refine Or.inl (fun _ => Eq.symm ?_)); rfl) | lift_lets
    | with_reducible apply setChg_within | with_reducible apply modPwr_within | with_reducible apply raiseOnce_within
    | split)

theorem safetyTmo_within {L : Nat} {s0 : State} {s : State} (hs : Within L s0 s) (hl : Sub (orAll s0 0x73ff8ffb4d7) L)
    : Within L s0 (safetyTmo s) := by
  unfold safetyTmo
  repeat' (first
    | with_reducible assumption | ((with_reducible refine Sub.some ?_ ?_ hl) <;> rfl)
    | with_reducible apply raiseEpisode_within | with_reducible apply setChg_within | split)

theorem adaptTo_within {L : Nat} {s0 : State} (a0 : Nat) {s : State} (hs : Within L s0 s) (hl : Sub 0x10004a083 L) :
    Within L s0 (adaptTo a0 s) := by
  unfold adaptTo
  repeat' (first
    | with_reducible assumption | ((with_reducible refine Sub.le ?_ hl); rfl)
    | (intro x; refine Within.cut (L := L) (s := s0) x ?_ ?_; rotate_left; intro hx; clear_value x; rotate_left; subst x)
    | (intro x; clear_value x) | lift_lets | with_reducible apply retarget_within | with_reducible apply modChg_within
    | with_reducible apply leashEdge_within | split)

theorem inputAdapt_within {L : Nat} {s0 : State} (a0 : Nat) {s : State} (hs : Within L s0 s) (hl : Sub 0x10004a083 L)
    : Within L s0 (inputAdapt a0 s) := by
  unfold inputAdapt
  repeat' (first
    | with_reducible assumption
    | (intro x; refine Within.cut (L := L) (s := s0) x.2 ?_ ?_; rotate_left; intro hx; clear_value x; rotate_left; subst x)
    | (intro x; clear_value x) | lift_lets | with_reducible apply adaptTo_within | with_reducible apply drawNat_within
    | split)

theorem chgFault_within {L : Nat} {s0 : State} (a0 : ChgCause) {s : State} (hs : Within L s0 s) (hl : Sub (orAll s0
    0x73ff8ffb4d7) L) : Within L s0 (chgFault a0 s) := by
  unfold chgFault
  repeat' (first
    | with_reducible assumption | ((with_reducible refine Sub.some ?_ ?_ hl) <;> rfl) | (intro x; clear_value x)
    | lift_lets | with_reducible apply raiseOnce_within | with_reducible apply setChg_within
    | with_reducible apply raiseEpisode_within | split)

theorem batswOpen_within {L : Nat} {s0 : State} (a0 : Int) {s : State} (hs : Within L s0 s) (hl : Sub (orAll s0
    0x73ff8ffb4d7) L) : Within L s0 (batswOpen a0 s) := by
  unfold batswOpen
  repeat' (first | with_reducible assumption | with_reducible apply raiseOnce_within | split)

theorem chgStore_within {L : Nat} {s0 : State} (a0 : Item) {s : State} (hs : Within L s0 s) (hl : Sub 0x2 L) : Within
    L s0 (chgStore a0 s) := by
  unfold chgStore
  repeat' (first
    | with_reducible assumption | intro _ | with_reducible apply setReg_within
    | with_reducible refine Within.foldl ?_ ?_ | split)

theorem chgSet_within {L : Nat} {s0 : State} (a0 : Word) {s : State} (hs : Within L s0 s) (hl : Sub 0x20ff0ffb0c7 L) :
    Within L s0 (chgSet a0 s) := by
  unfold chgSet
  repeat' (first
    | with_reducible assumption | ((with_reducible refine Sub.le ?_ hl); rfl)
    | (intro x; refine Within.cut (L := L) (s := s0) x ?_ ?_; rotate_left; intro hx; clear_value x; rotate_left; subst x)
    | intro _ | lift_lets | with_reducible apply beginWork_within | with_reducible apply failHold_within
    | with_reducible apply complete_within | with_reducible apply refuseOperand_within
    | with_reducible apply judgeLow_within | with_reducible apply arbitrate_within
    | with_reducible apply chgUpdate_within | with_reducible apply chgStore_within
    | with_reducible apply commitStart_within | split)

theorem lendServed_within {L : Nat} {s0 : State} (a0 : Word) {s : State} (hs : Within L s0 s) (hl : Sub 0x20fa0ffb0c7
    L) : Within L s0 (lendServed a0 s) := by
  unfold lendServed
  repeat' (first
    | with_reducible assumption | ((with_reducible refine Sub.le ?_ hl); rfl)
    | (intro x; refine Within.cut (L := L) (s := s0) x ?_ ?_; rotate_left; intro hx; clear_value x; rotate_left; subst x)
    | intro _ | ((with_reducible refine Or.inl (fun _ => Eq.symm ?_)); rfl) | lift_lets
    | with_reducible apply commitStart_within | with_reducible apply modItem_within
    | with_reducible apply chgUpdate_within | with_reducible apply modPwr_within | with_reducible apply modChg_within
    | with_reducible apply complete_within | split)

theorem lendSet_within {L : Nat} {s0 : State} (a0 : Word) {s : State} (hs : Within L s0 s) (hl : Sub 0x20ff0ffb0c7 L)
    : Within L s0 (lendSet a0 s) := by
  unfold lendSet
  repeat' (first
    | with_reducible assumption | ((with_reducible refine Sub.le ?_ hl); rfl) | intro _
    | with_reducible apply beginWork_within | with_reducible apply failHold_within
    | with_reducible apply complete_within | with_reducible apply arbitrate_within
    | with_reducible apply lendOff_within | with_reducible apply commitStart_within
    | with_reducible apply lendServed_within | with_reducible apply lowerGrant_within
    | with_reducible apply itemAsks_within | split)

theorem lendVinReached_within {L : Nat} {s0 : State} {s : State} (hs : Within L s0 s) (hl : Sub 0x100000004 L) :
    Within L s0 (lendVinReached s) := by
  unfold lendVinReached
  repeat' (first
    | with_reducible assumption | ((with_reducible refine Sub.le ?_ hl); rfl)
    | ((with_reducible refine Or.inl (fun _ => Eq.symm ?_)); rfl) | with_reducible apply modPwr_within
    | with_reducible apply modChg_within | split)

theorem lendStartDone_within {L : Nat} {s0 : State} (a0 : Nat) {s : State} (hs : Within L s0 s) (hl : Sub
    0x20100fb90c3 L) : Within L s0 (lendStartDone a0 s) := by
  unfold lendStartDone
  repeat' (first
    | with_reducible assumption | ((with_reducible refine Sub.le ?_ hl); rfl)
    | with_reducible apply completeOpt_within | with_reducible apply modChg_within | split)

theorem lendStops_within {L : Nat} {s0 : State} (a0 : Nat) {s : State} (hs : Within L s0 s) (hl : Sub 0x20ff0ffb0c7 L)
    : Within L s0 (lendStops a0 s) := by
  unfold lendStops
  repeat' (first
    | with_reducible assumption | ((with_reducible refine Sub.le ?_ hl); rfl) | with_reducible apply arbitrate_within
    | with_reducible apply lendAbort_within)

theorem lendStop_within {L : Nat} {s0 : State} (a0 : LendCause) {s : State} (hs : Within L s0 s) (hl : Sub
    0x20ff0ffb0c7 L) : Within L s0 (lendStop a0 s) := by
  unfold lendStop
  repeat' (first | with_reducible assumption | with_reducible apply lendStops_within | split)

theorem lendFault_within {L : Nat} {s0 : State} (a0 : LendFaultCause) {s : State} (hs : Within L s0 s) (hl : Sub
    (orAll s0 0x73ff8ffb4d7) L) : Within L s0 (lendFault a0 s) := by
  unfold lendFault
  repeat' (first
    | with_reducible assumption | ((with_reducible refine Sub.some ?_ ?_ hl) <;> rfl)
    | with_reducible apply raiseEpisode_within | with_reducible apply lendStops_within | split)

theorem accGrant_within {L : Nat} {s0 : State} {s : State} (hs : Within L s0 s) (hl : Sub 0x80000000 L) : Within L s0
    (accGrant s) := by
  unfold accGrant
  repeat' (first | with_reducible assumption | with_reducible apply modBud_within)

theorem liftServed_within {L : Nat} {s0 : State} (a0 : Word) {s : State} (hs : Within L s0 s) (hl : Sub 0x180c18040 L)
    : Within L s0 (liftServed a0 s) := by
  unfold liftServed
  repeat' (first
    | with_reducible assumption | ((with_reducible refine Sub.le ?_ hl); rfl)
    | (intro x; refine Within.cut (L := L) (s := s0) x ?_ ?_; rotate_left; intro hx; clear_value x; rotate_left; subst x)
    | intro _ | lift_lets | with_reducible apply commitStart_within | with_reducible apply modItem_within
    | with_reducible apply accGrant_within | with_reducible apply modChg_within | split)

theorem liftSet_within {L : Nat} {s0 : State} (a0 : Word) {s : State} (hs : Within L s0 s) (hl : Sub 0x20fa0ffb0c3 L)
    : Within L s0 (liftSet a0 s) := by
  unfold liftSet
  repeat' (first
    | with_reducible assumption | ((with_reducible refine Sub.le ?_ hl); rfl) | intro _
    | with_reducible apply beginWork_within | with_reducible apply failHold_within
    | with_reducible apply complete_within | with_reducible apply liftOffFree_within
    | with_reducible apply commitStart_within | with_reducible apply liftServed_within
    | with_reducible apply lowerGrant_within | with_reducible apply itemAsks_within | split)

theorem liftReached_within {L : Nat} {s0 : State} (a0 : Nat) {s : State} (hs : Within L s0 s) (hl : Sub 0x20100fb90c3
    L) : Within L s0 (liftReached a0 s) := by
  unfold liftReached
  repeat' (first
    | with_reducible assumption | ((with_reducible refine Sub.le ?_ hl); rfl)
    | with_reducible apply completeOpt_within | with_reducible apply modChg_within | split)

theorem liftFault_within {L : Nat} {s0 : State} (a0 : LiftCause) {s : State} (hs : Within L s0 s) (hl : Sub (orAll s0
    0x73ff8ffb4d7) L) : Within L s0 (liftFault a0 s) := by
  unfold liftFault
  repeat' (first
    | with_reducible assumption | ((with_reducible refine Sub.some ?_ ?_ hl) <;> rfl)
    | with_reducible apply raiseEpisode_within | with_reducible apply liftAbort_within
    | with_reducible apply raiseOnce_within | split)

theorem execChgSet_within {L : Nat} {s0 : State} (a0 : Word) {s : State} (hs : Within L s0 s) (hl : Sub 0x20ff0ffb0c7
    L) : WithinOut L s0 (execChgSet a0 s) := by
  unfold execChgSet
  repeat' (first
    | with_reducible assumption | with_reducible apply chgSet_within | with_reducible apply WithinOut.next)

theorem execLendSet_within {L : Nat} {s0 : State} (a0 : Word) {s : State} (hs : Within L s0 s) (hl : Sub 0x20ff0ffb0c7
    L) : WithinOut L s0 (execLendSet a0 s) := by
  unfold execLendSet
  repeat' (first
    | with_reducible assumption | with_reducible apply lendSet_within | with_reducible apply WithinOut.next)

theorem execLiftSet_within {L : Nat} {s0 : State} (a0 : Word) {s : State} (hs : Within L s0 s) (hl : Sub 0x20fa0ffb0c3
    L) : WithinOut L s0 (execLiftSet a0 s) := by
  unfold execLiftSet
  repeat' (first
    | with_reducible assumption | with_reducible apply liftSet_within | with_reducible apply WithinOut.next)

theorem execGaugeRebase_within {L : Nat} {s0 : State} (a0 : Word) {s : State} (hs : Within L s0 s) (hl : Sub (orAll s0
    0x73ff8ffb4d7) L) : WithinOut L s0 (execGaugeRebase a0 s) := by
  unfold execGaugeRebase
  repeat' (first
    | with_reducible assumption | with_reducible apply gaugeRebase_within | with_reducible apply WithinOut.next)

theorem execCapBattUpdate_within {L : Nat} {s0 : State} (a0 : Nat) {s : State} (hs : Within L s0 s) (hl : Sub
    0x20ff0ffb0c7 L) : WithinOut L s0 (execCapBattUpdate a0 s) := by
  unfold execCapBattUpdate
  repeat' (first
    | with_reducible assumption | with_reducible apply capBattUpdate_within | with_reducible apply WithinOut.next)

theorem execChgStateChange_within {L : Nat} {s0 : State} (a0 : Nat) {s : State} (hs : Within L s0 s) (hl : Sub
    0x20ff0ffb0c7 L) : WithinOut L s0 (execChgStateChange a0 s) := by
  unfold execChgStateChange
  repeat' (first
    | with_reducible assumption | with_reducible apply chgVolts_within | with_reducible apply WithinOut.next)

theorem execChgTerminate_within {L : Nat} {s0 : State} {s : State} (hs : Within L s0 s) (hl : Sub (orAll s0
    0x73ff8ffb4d7) L) : WithinOut L s0 (execChgTerminate s) := by
  unfold execChgTerminate
  repeat' (first
    | with_reducible assumption | with_reducible apply chgTerminate_within | with_reducible apply WithinOut.next)

theorem execChgRecharge_within {L : Nat} {s0 : State} (a0 : Nat) {s : State} (hs : Within L s0 s) (hl : Sub
    0x20ff0ffb0c7 L) : WithinOut L s0 (execChgRecharge a0 s) := by
  unfold execChgRecharge
  repeat' (first
    | with_reducible assumption | with_reducible apply chgRecharge_within | with_reducible apply WithinOut.next)

theorem execPreTmo_within {L : Nat} {s0 : State} {s : State} (hs : Within L s0 s) (hl : Sub (orAll s0 0x73ff8ffb4d7)
    L) : WithinOut L s0 (execPreTmo s) := by
  unfold execPreTmo
  repeat' (first
    | with_reducible assumption | with_reducible apply preTmo_within | with_reducible apply WithinOut.next)

theorem execSafetyTmo_within {L : Nat} {s0 : State} {s : State} (hs : Within L s0 s) (hl : Sub (orAll s0
    0x73ff8ffb4d7) L) : WithinOut L s0 (execSafetyTmo s) := by
  unfold execSafetyTmo
  repeat' (first
    | with_reducible assumption | with_reducible apply safetyTmo_within | with_reducible apply WithinOut.next)

theorem execInputAdapt_within {L : Nat} {s0 : State} (a0 : Nat) {s : State} (hs : Within L s0 s) (hl : Sub 0x10004a083
    L) : WithinOut L s0 (execInputAdapt a0 s) := by
  unfold execInputAdapt
  repeat' (first
    | with_reducible assumption | with_reducible apply inputAdapt_within | with_reducible apply WithinOut.next)

theorem execChgFault_within {L : Nat} {s0 : State} (a0 : ChgCause) {s : State} (hs : Within L s0 s) (hl : Sub (orAll
    s0 0x73ff8ffb4d7) L) : WithinOut L s0 (execChgFault a0 s) := by
  unfold execChgFault
  repeat' (first
    | with_reducible assumption | with_reducible apply chgFault_within | with_reducible apply WithinOut.next)

theorem execBatswOpenFail_within {L : Nat} {s0 : State} (a0 : Int) {s : State} (hs : Within L s0 s) (hl : Sub (orAll
    s0 0x73ff8ffb4d7) L) : WithinOut L s0 (execBatswOpenFail a0 s) := by
  unfold execBatswOpenFail
  repeat' (first
    | with_reducible assumption | with_reducible apply batswOpen_within | with_reducible apply WithinOut.next)

theorem execGaugeSample_within {L : Nat} {s0 : State} (a0 : Int) (a1 : Nat) {s : State} (hs : Within L s0 s) (hl : Sub
    (orAll s0 0x73ff8ffb4d7) L) : WithinOut L s0 (execGaugeSample a0 a1 s) := by
  unfold execGaugeSample
  repeat' (first
    | with_reducible assumption | with_reducible apply gaugeSample_within | with_reducible apply WithinOut.next)

theorem execSenseRange_within {L : Nat} {s0 : State} {s : State} (hs : Within L s0 s) (hl : Sub (orAll s0
    0x73ff8ffb4d7) L) : WithinOut L s0 (execSenseRange s) := by
  unfold execSenseRange
  repeat' (first
    | with_reducible assumption | with_reducible apply gaugeRange_within | with_reducible apply WithinOut.next)

theorem execBatteryRest_within {L : Nat} {s0 : State} (a0 : Nat) {s : State} (hs : Within L s0 s) (hl : Sub (orAll s0
    0x73ff8ffb4d7) L) : WithinOut L s0 (execBatteryRest a0 s) := by
  unfold execBatteryRest
  repeat' (first
    | with_reducible assumption | with_reducible apply batteryRest_within | with_reducible apply WithinOut.next)

theorem execCutoffPend_within {L : Nat} {s0 : State} (a0 : Nat) {s : State} (hs : Within L s0 s) (hl : Sub 0x10004a083
    L) : WithinOut L s0 (execCutoffPend a0 s) := by
  unfold execCutoffPend
  repeat' (first
    | with_reducible assumption | with_reducible apply cutoffPend_within | with_reducible apply WithinOut.next)

theorem execCutoff_within {L : Nat} {s0 : State} (a0 : Nat) {s : State} (hs : Within L s0 s) (hl : Sub 0x7fffffffffff
    L) : WithinOut L s0 (execCutoff a0 s) := by
  unfold execCutoff
  repeat' (first
    | with_reducible assumption | with_reducible apply cutoff_within | with_reducible apply WithinOut.next)

theorem execDsgOc_within {L : Nat} {s0 : State} (a0 : Nat) {s : State} (hs : Within L s0 s) (hl : Sub (orAll s0
    0x73ff8ffb4d7) L) : WithinOut L s0 (execDsgOc a0 s) := by
  unfold execDsgOc
  repeat' (first
    | with_reducible assumption | with_reducible apply raiseOnce_within | with_reducible apply WithinOut.next | split)

theorem execLendVinReached_within {L : Nat} {s0 : State} {s : State} (hs : Within L s0 s) (hl : Sub 0x100000004 L) :
    WithinOut L s0 (execLendVinReached s) := by
  unfold execLendVinReached
  repeat' (first
    | with_reducible assumption | with_reducible apply lendVinReached_within | with_reducible apply WithinOut.next)

theorem execLendStartDone_within {L : Nat} {s0 : State} (a0 : Nat) {s : State} (hs : Within L s0 s) (hl : Sub
    0x20100fb90c3 L) : WithinOut L s0 (execLendStartDone a0 s) := by
  unfold execLendStartDone
  repeat' (first
    | with_reducible assumption | with_reducible apply lendStartDone_within | with_reducible apply WithinOut.next)

theorem execLendStop_within {L : Nat} {s0 : State} (a0 : LendCause) {s : State} (hs : Within L s0 s) (hl : Sub
    0x20ff0ffb0c7 L) : WithinOut L s0 (execLendStop a0 s) := by
  unfold execLendStop
  repeat' (first
    | with_reducible assumption | with_reducible apply lendStop_within | with_reducible apply WithinOut.next)

theorem execLendFault_within {L : Nat} {s0 : State} (a0 : LendFaultCause) {s : State} (hs : Within L s0 s) (hl : Sub
    (orAll s0 0x73ff8ffb4d7) L) : WithinOut L s0 (execLendFault a0 s) := by
  unfold execLendFault
  repeat' (first
    | with_reducible assumption | with_reducible apply lendFault_within | with_reducible apply WithinOut.next)

theorem execLiftReached_within {L : Nat} {s0 : State} (a0 : Nat) {s : State} (hs : Within L s0 s) (hl : Sub
    0x20100fb90c3 L) : WithinOut L s0 (execLiftReached a0 s) := by
  unfold execLiftReached
  repeat' (first
    | with_reducible assumption | with_reducible apply liftReached_within | with_reducible apply WithinOut.next)

theorem execLiftFault_within {L : Nat} {s0 : State} (a0 : LiftCause) {s : State} (hs : Within L s0 s) (hl : Sub (orAll
    s0 0x73ff8ffb4d7) L) : WithinOut L s0 (execLiftFault a0 s) := by
  unfold execLiftFault
  repeat' (first
    | with_reducible assumption | with_reducible apply liftFault_within | with_reducible apply WithinOut.next)

/-! ### Machine/Clocks.lean -/

theorem modDom_within {L : Nat} {s0 : State} (a0 : Fin 9) (a1 : Domain → Domain) {s : State} (hs : Within L s0 s) (hl
    : Sub 0x40 L) : Within L s0 (modDom a0 a1 s) := by
  unfold modDom
  repeat' (first | with_reducible assumption | with_reducible apply modClk_within)

theorem toXclk_within {L : Nat} {s0 : State} {s : State} (hs : Within L s0 s) (hl : Sub 0x4c0 L) : Within L s0 (toXclk
    s) := by
  unfold toXclk
  repeat' (first
    | with_reducible assumption | ((with_reducible refine Sub.le ?_ hl); rfl)
    | ((with_reducible refine Or.inr (Sub.le ?_ hl)); rfl)
    | ((with_reducible refine Or.inl (fun _ => Eq.symm ?_)); rfl) | with_reducible apply modLink_within
    | with_reducible apply modClk_within)

theorem toEmber_within {L : Nat} {s0 : State} {s : State} (hs : Within L s0 s) (hl : Sub 0x40 L) : Within L s0
    (toEmber s) := by
  unfold toEmber
  repeat' (first | with_reducible assumption | with_reducible apply modClk_within | split)

theorem refSelect_within {L : Nat} {s0 : State} {s : State} (hs : Within L s0 s) (hl : Sub (orAll s0 0x73ff8ffb4d7) L)
    : Within L s0 (refSelect s) := by
  unfold refSelect
  repeat' (first
    | with_reducible assumption | ((with_reducible refine Sub.some ?_ ?_ hl) <;> rfl)
    | with_reducible apply toEmber_within | with_reducible apply raiseLatched_within
    | with_reducible apply toXclk_within | split)

theorem xclkLoss_within {L : Nat} {s0 : State} {s : State} (hs : Within L s0 s) (hl : Sub 0x40 L) : Within L s0
    (xclkLoss s) := by
  unfold xclkLoss
  repeat' (first
    | with_reducible assumption
    | (intro x; refine Within.cut (L := L) (s := s0) x ?_ ?_; rotate_left; intro hx; clear_value x; rotate_left; subst x)
    | (intro x; clear_value x) | lift_lets | with_reducible apply modClk_within | split)

theorem xclkQualified_within {L : Nat} {s0 : State} {s : State} (hs : Within L s0 s) (hl : Sub (orAll s0
    0x73ff8ffb4d7) L) : Within L s0 (xclkQualified s) := by
  unfold xclkQualified
  repeat' (first
    | with_reducible assumption | ((with_reducible refine Sub.some ?_ ?_ hl) <;> rfl)
    | (intro x; refine Within.cut (L := L) (s := s0) x ?_ ?_; rotate_left; intro hx; clear_value x; rotate_left; subst x)
    | (intro x; clear_value x) | lift_lets | with_reducible apply endCause_within | with_reducible apply modClk_within
    | with_reducible apply raiseLatched_within | with_reducible apply toXclk_within | split)

theorem unpark_within {L : Nat} {s0 : State} {s : State} (hs : Within L s0 s) (hl : Sub 0x40 L) : Within L s0 (unpark
    s) := by
  unfold unpark
  repeat' (first
    | with_reducible assumption | intro _ | with_reducible apply modDom_within
    | with_reducible refine Within.foldl ?_ ?_ | split)

theorem rootLocked_within {L : Nat} {s0 : State} {s : State} (hs : Within L s0 s) (hl : Sub (orAll s0 0x73ff8ffb4d7)
    L) : Within L s0 (rootLocked s) := by
  unfold rootLocked
  repeat' (first
    | with_reducible assumption | ((with_reducible refine Sub.some ?_ ?_ hl) <;> rfl)
    | (intro x; refine Within.cut (L := L) (s := s0) x ?_ ?_; rotate_left; intro hx; clear_value x; rotate_left; subst x)
    | intro _ | lift_lets | with_reducible apply endCause_within | with_reducible apply unpark_within
    | with_reducible apply modClk_within | with_reducible apply raiseAs_within | with_reducible apply countReg_within
    | split)

theorem lockFail_within {L : Nat} {s0 : State} {s : State} (hs : Within L s0 s) (hl : Sub (orAll s0 0x73ff8ffb4d7) L)
    : Within L s0 (lockFail s) := by
  unfold lockFail
  repeat' (first
    | with_reducible assumption | ((with_reducible refine Sub.some ?_ ?_ hl) <;> rfl)
    | with_reducible apply raiseOnce_within | with_reducible apply countReg_within | split)

theorem rootStop_within {L : Nat} {s0 : State} {s : State} (hs : Within L s0 s) (hl : Sub 0x40 L) : Within L s0
    (rootStop s) := by
  unfold rootStop
  repeat' (first
    | with_reducible assumption | intro _ | with_reducible apply modDom_within | with_reducible apply modClk_within
    | with_reducible refine Within.foldl ?_ ?_ | split)

theorem trimStep_within {L : Nat} {s0 : State} (a0 : Nat) {s : State} (hs : Within L s0 s) : Within L s0 (trimStep a0
    s).2 := by
  unfold trimStep
  repeat' (first
    | with_reducible assumption
    | (intro x; refine Within.cut (L := L) (s := s0) x.2 ?_ ?_; rotate_left; intro hx; clear_value x; rotate_left; subst x)
    | (intro x; clear_value x) | lift_lets | with_reducible apply drawNat_within | split)

theorem trimCode_within {L : Nat} {s0 : State} (a0 : Int) {s : State} (hs : Within L s0 s) (hl : Sub 0x4a0c3 L) :
    Within L s0 (trimCode a0 s) := by
  unfold trimCode
  repeat' (first
    | with_reducible assumption | ((with_reducible refine Sub.le ?_ hl); rfl)
    | (intro x; refine Within.cut (L := L) (s := s0) x ?_ ?_; rotate_left; intro hx; clear_value x; rotate_left; subst x)
    | (intro x; clear_value x) | lift_lets | with_reducible apply modClk_within
    | with_reducible apply leashEdge_within | split)

theorem trimLock_within {L : Nat} {s0 : State} (a0 : Nat) {s : State} (hs : Within L s0 s) (hl : Sub 0x40 L) : Within
    L s0 (trimLock a0 s) := by
  unfold trimLock
  repeat' (first
    | with_reducible assumption | (intro x; clear_value x) | lift_lets | with_reducible apply modClk_within)

theorem trimBy_within {L : Nat} {s0 : State} (a0 : Nat) {s : State} (hs : Within L s0 s) (hl : Sub 0x4a0c3 L) : Within
    L s0 (trimBy a0 s) := by
  unfold trimBy
  repeat' (first
    | with_reducible assumption | ((with_reducible refine Sub.le ?_ hl); rfl)
    | (intro x; refine Within.cut (L := L) (s := s0) x.2 ?_ ?_; rotate_left; intro hx; clear_value x; rotate_left; subst x)
    | lift_lets | with_reducible apply trimStep_within | with_reducible apply trimLock_within
    | with_reducible apply trimCode_within)

theorem trimWindow_within {L : Nat} {s0 : State} (a0 : Nat) {s : State} (hs : Within L s0 s) (hl : Sub 0x4a0c3 L) :
    Within L s0 (trimWindow a0 s) := by
  unfold trimWindow
  repeat' (first
    | with_reducible assumption | ((with_reducible refine Sub.le ?_ hl); rfl) | with_reducible apply trimBy_within
    | with_reducible apply modClk_within | split)

theorem sofMark_within {L : Nat} {s0 : State} (a0 : Nat) {s : State} (hs : Within L s0 s) (hl : Sub 0x4a0c3 L) :
    Within L s0 (sofMark a0 s) := by
  unfold sofMark
  repeat' (first
    | with_reducible assumption | ((with_reducible refine Sub.le ?_ hl); rfl)
    | (intro x; refine Within.cut (L := L) (s := s0) x ?_ ?_; rotate_left; intro hx; clear_value x; rotate_left; subst x)
    | intro _ | lift_lets | with_reducible apply countReg_within | with_reducible apply modClk_within
    | with_reducible apply trimBy_within | split)

theorem setDsel_within {L : Nat} {s0 : State} (a0 : Fin 9) (a1 : Word) {s : State} (hs : Within L s0 s) (hl : Sub 0x42
    L) : Within L s0 (setDsel a0 a1 s) := by
  unfold setDsel
  repeat' (first
    | with_reducible assumption | ((with_reducible refine Sub.le ?_ hl); rfl) | with_reducible apply modDom_within
    | with_reducible apply setReg_within | split)

theorem execXclkLoss_within {L : Nat} {s0 : State} {s : State} (hs : Within L s0 s) (hl : Sub 0x40 L) : WithinOut L s0
    (execXclkLoss s) := by
  unfold execXclkLoss
  repeat' (first
    | with_reducible assumption | with_reducible apply xclkLoss_within | with_reducible apply WithinOut.next)

theorem execRootLock_within {L : Nat} {s0 : State} {s : State} (hs : Within L s0 s) (hl : Sub (orAll s0 0x73ff8ffb4d7)
    L) : WithinOut L s0 (execRootLock s) := by
  unfold execRootLock
  repeat' (first
    | with_reducible assumption | with_reducible apply rootLocked_within | with_reducible apply WithinOut.next)

theorem execLockFailRetry_within {L : Nat} {s0 : State} {s : State} (hs : Within L s0 s) (hl : Sub (orAll s0
    0x73ff8ffb4d7) L) : WithinOut L s0 (execLockFailRetry s) := by
  unfold execLockFailRetry
  repeat' (first
    | with_reducible assumption | with_reducible apply lockFail_within | with_reducible apply WithinOut.next)

theorem execXclkQualified_within {L : Nat} {s0 : State} {s : State} (hs : Within L s0 s) (hl : Sub (orAll s0
    0x73ff8ffb4d7) L) : WithinOut L s0 (execXclkQualified s) := by
  unfold execXclkQualified
  repeat' (first
    | with_reducible assumption | with_reducible apply xclkQualified_within | with_reducible apply WithinOut.next)

theorem emberBad_within {L : Nat} {s0 : State} {s : State} (hs : Within L s0 s) (hl : Sub (orAll s0 0x73ff8ffb4d7) L)
    : Within L s0 (emberBad s) := by
  unfold emberBad
  repeat' (first
    | with_reducible assumption | with_reducible apply refSelect_within | with_reducible apply raiseOnce_within
    | split)

theorem execEmberBad_within {L : Nat} {s0 : State} {s : State} (hs : Within L s0 s) (hl : Sub (orAll s0 0x73ff8ffb4d7)
    L) : WithinOut L s0 (execEmberBad s) := by
  unfold execEmberBad
  repeat' (first
    | with_reducible assumption | with_reducible apply emberBad_within | with_reducible apply WithinOut.next)

theorem execTrimWindow_within {L : Nat} {s0 : State} (a0 : Nat) {s : State} (hs : Within L s0 s) (hl : Sub 0x4a0c3 L)
    : WithinOut L s0 (execTrimWindow a0 s) := by
  unfold execTrimWindow
  repeat' (first
    | with_reducible assumption | with_reducible apply trimWindow_within | with_reducible apply WithinOut.next)

theorem execSofMark_within {L : Nat} {s0 : State} (a0 : Nat) {s : State} (hs : Within L s0 s) (hl : Sub 0x4a0c3 L) :
    WithinOut L s0 (execSofMark a0 s) := by
  unfold execSofMark
  repeat' (first
    | with_reducible assumption | with_reducible apply sofMark_within | with_reducible apply WithinOut.next)

theorem execRootStop_within {L : Nat} {s0 : State} {s : State} (hs : Within L s0 s) (hl : Sub 0x40 L) : WithinOut L s0
    (execRootStop s) := by
  unfold execRootStop
  repeat' (first
    | with_reducible assumption | with_reducible apply rootStop_within | with_reducible apply WithinOut.next)

end Sys2Proof.Machine
end

