-- ==== Sys2Proof/Laws/WithinActs.lean ====
section
/-! SUPPORT. `f_within` for actuators, fans, converters, comparators, the arbiter, the thermal rules and the leash. -/

namespace Sys2Proof.Machine

/-! ### Machine/Actuators.lean -/

theorem relayConfirm_within {L : Nat} {s0 : State} (a0 : Fin 48) {s : State} (hs : Within L s0 s) (hl : Sub
    0x200c00040 L) : Within L s0 (relayConfirm a0 s) := by
  unfold relayConfirm
  repeat' (first
    | with_reducible assumption | ((with_reducible refine Sub.le ?_ hl); rfl)
    | with_reducible apply commitRelay_within | with_reducible apply modRelay_within)

theorem relayPulse_within {L : Nat} {s0 : State} (a0 : Fin 48) {s : State} (hs : Within L s0 s) (hl : Sub (orAll s0
    0x73ff8ffb4d7) L) : Within L s0 (relayPulse a0 s) := by
  unfold relayPulse
  repeat' (first
    | with_reducible assumption | ((with_reducible refine Sub.some ?_ ?_ hl) <;> rfl)
    | ((with_reducible refine Sub.both ?_ hl); rfl)
    | (intro x; refine Within.cut (L := L) (s := s0) x ?_ ?_; rotate_left; intro hx; clear_value x; rotate_left; subst x)
    | intro _ | lift_lets | with_reducible apply modRelay_within | with_reducible apply settle_within
    | with_reducible apply raiseLatched_within | with_reducible apply relayCut_within
    | with_reducible apply relayPresent_within | with_reducible apply countReg_within
    | with_reducible apply blankRelay_within | split)

theorem relayServed_within {L : Nat} {s0 : State} (a0 : Word) (a1 : Fin 48) {s : State} (hs : Within L s0 s) (hl : Sub
    (orAll s0 0x73ff8ffb4d7) L) : Within L s0 (relayServed a0 a1 s) := by
  unfold relayServed
  repeat' (first
    | with_reducible assumption | ((with_reducible refine Sub.some ?_ ?_ hl) <;> rfl)
    | (intro x; refine Within.cut (L := L) (s := s0) x ?_ ?_; rotate_left; intro hx; clear_value x; rotate_left; subst x)
    | (intro x; clear_value x) | lift_lets | with_reducible apply commitStart_within
    | with_reducible apply modItem_within | with_reducible apply relayPulse_within
    | with_reducible apply modRelay_within | split)

theorem relaySet_within {L : Nat} {s0 : State} (a0 : Word) {s : State} (hs : Within L s0 s) (hl : Sub (orAll s0
    0x73ff8ffb4d7) L) : Within L s0 (relaySet a0 s) := by
  unfold relaySet
  repeat' (first
    | with_reducible assumption | ((with_reducible refine Sub.some ?_ ?_ hl) <;> rfl)
    | (intro x; refine Within.cut (L := L) (s := s0) x ?_ ?_; rotate_left; intro hx; clear_value x; rotate_left; subst x)
    | intro _ | lift_lets | with_reducible apply beginWork_within | with_reducible apply failHold_within
    | with_reducible apply refuseOperand_within | with_reducible apply complete_within
    | with_reducible apply commitRelay_within | with_reducible apply modRelay_within
    | with_reducible apply itemAsks_within | with_reducible apply relayServed_within | split)

theorem relayPulseEnd_within {L : Nat} {s0 : State} (a0 : Fin 48) (a1 : Option Dip) (a2 : Nat) {s : State} (hs :
    Within L s0 s) (hl : Sub (orAll s0 0x73ff8ffb4d7) L) : Within L s0 (relayPulseEnd a0 a1 a2 s) := by
  unfold relayPulseEnd
  repeat' (first
    | with_reducible assumption | ((with_reducible refine Sub.some ?_ ?_ hl) <;> rfl)
    | (intro x; refine Within.cut (L := L) (s := s0) x.2 ?_ ?_; rotate_left; intro hx; clear_value x; rotate_left; subst x)
    | lift_lets | with_reducible apply relayEnd_within | with_reducible apply relayConfirm_within
    | with_reducible apply drawNat_within | with_reducible apply raiseLatched_within | split)

theorem relayPulseAbort_within {L : Nat} {s0 : State} (a0 : Fin 48) (a1 : PulseAbort) (a2 : Nat) {s : State} (hs :
    Within L s0 s) (hl : Sub (orAll s0 0x73ff8ffb4d7) L) : Within L s0 (relayPulseAbort a0 a1 a2 s) := by
  unfold relayPulseAbort
  repeat' (first
    | with_reducible assumption | ((with_reducible refine Sub.some ?_ ?_ hl) <;> rfl)
    | (intro x; refine Within.cut (L := L) (s := s0) x.2 ?_ ?_; rotate_left; intro hx; clear_value x; rotate_left; subst x)
    | lift_lets | with_reducible apply drawNat_within | with_reducible apply raiseLatched_within
    | with_reducible apply relayEnd_within | split)

theorem relayRetry_within {L : Nat} {s0 : State} (a0 : Fin 48) {s : State} (hs : Within L s0 s) (hl : Sub (orAll s0
    0x73ff8ffb4d7) L) : Within L s0 (relayRetry a0 s) := by
  unfold relayRetry
  repeat' (first
    | with_reducible assumption | ((with_reducible refine Sub.some ?_ ?_ hl) <;> rfl)
    | (intro x; refine Within.cut (L := L) (s := s0) x ?_ ?_; rotate_left; intro hx; clear_value x; rotate_left; subst x)
    | (intro x; clear_value x) | lift_lets | with_reducible apply place_within
    | with_reducible apply relayVerdict_within | with_reducible apply relayPulse_within
    | with_reducible apply modRelay_within | with_reducible apply interim_within | split)

theorem relayReassert_within {L : Nat} {s0 : State} (a0 : Fin 48) (a1 : Option Word) (a2 : Word) {s : State} (hs :
    Within L s0 s) (hl : Sub (orAll s0 0x73ff8ffb4d7) L) : Within L s0 (relayReassert a0 a1 a2 s) := by
  unfold relayReassert
  repeat' (first
    | with_reducible assumption | ((with_reducible refine Sub.some ?_ ?_ hl) <;> rfl)
    | (intro x; refine Within.cut (L := L) (s := s0) x ?_ ?_; rotate_left; intro hx; clear_value x; rotate_left; subst x)
    | (intro x; clear_value x) | lift_lets | with_reducible apply completeOpt_within
    | with_reducible apply modRelay_within | with_reducible apply modItem_within | with_reducible apply event_within
    | with_reducible apply place_within | with_reducible apply complete_within
    | with_reducible apply relayPulse_within | with_reducible apply interim_within | split)

theorem onMotor_within {L : Nat} {s0 : State} (a0 : Nat) (a1 : Word) (a2 : Item → Fin 2 → Motor → State → State) {s :
    State} (ha2 : ∀ b0 b1 b2 t, Within L s0 t → Within L s0 (a2 b0 b1 b2 t)) (hs : Within L s0 s) (hl : Sub
    0x20ea0fb90c3 L) : Within L s0 (onMotor a0 a1 a2 s) := by
  unfold onMotor
  repeat' (first
    | with_reducible assumption | intro _ | with_reducible apply beginWork_within | with_reducible apply ha2 | split)

theorem motorServed_within {L : Nat} {s0 : State} (a0 : Word) (a1 : Fin 2) {s : State} (hs : Within L s0 s) (hl : Sub
    0x400c18040 L) : Within L s0 (motorServed a0 a1 s) := by
  unfold motorServed
  repeat' (first
    | with_reducible assumption | ((with_reducible refine Sub.le ?_ hl); rfl)
    | (intro x; refine Within.cut (L := L) (s := s0) x ?_ ?_; rotate_left; intro hx; clear_value x; rotate_left; subst x)
    | intro _ | lift_lets | with_reducible apply commitStart_within | with_reducible apply modItem_within
    | with_reducible apply modMotor_within | split)

theorem motorAsks_within {L : Nat} {s0 : State} (a0 : Word) (a1 : Fin 2) (a2 : Motor) {s : State} (hs : Within L s0 s)
    (hl : Sub 0x20fa0fb90c3 L) : Within L s0 (motorAsks a0 a1 a2 s) := by
  unfold motorAsks
  repeat' (first
    | with_reducible assumption | ((with_reducible refine Sub.le ?_ hl); rfl)
    | (intro x; refine Within.cut (L := L) (s := s0) x ?_ ?_; rotate_left; intro hx; clear_value x; rotate_left; subst x)
    | intro _ | lift_lets | with_reducible apply itemAsks_within | with_reducible apply motorServed_within
    | with_reducible apply modMotor_within | split)

theorem motorHome_within {L : Nat} {s0 : State} (a0 : Word) {s : State} (hs : Within L s0 s) (hl : Sub 0x20fa0fb90c3
    L) : Within L s0 (motorHome a0 s) := by
  unfold motorHome
  repeat' (first
    | with_reducible assumption | ((with_reducible refine Sub.le ?_ hl); rfl) | intro _
    | with_reducible apply onMotor_within | with_reducible apply failHold_within
    | with_reducible apply complete_within | with_reducible apply motorAsks_within | split)

theorem motorMove_within {L : Nat} {s0 : State} (a0 : Word) {s : State} (hs : Within L s0 s) (hl : Sub 0x20fa0fb90c3
    L) : Within L s0 (motorMove a0 s) := by
  unfold motorMove
  repeat' (first
    | with_reducible assumption | ((with_reducible refine Sub.le ?_ hl); rfl) | intro _
    | with_reducible apply onMotor_within | with_reducible apply failHold_within
    | with_reducible apply refuseOperand_within | with_reducible apply complete_within
    | with_reducible apply motorAsks_within | split)

theorem motorStop_within {L : Nat} {s0 : State} (a0 : Word) {s : State} (hs : Within L s0 s) (hl : Sub 0x20fa0fb90c3
    L) : Within L s0 (motorStop a0 s) := by
  unfold motorStop
  repeat' (first
    | with_reducible assumption | ((with_reducible refine Sub.le ?_ hl); rfl)
    | (intro x; refine Within.cut (L := L) (s := s0) x ?_ ?_; rotate_left; intro hx; clear_value x; rotate_left; subst x)
    | (intro x; refine Within.cut (L := L) (s := s0) x.2 ?_ ?_; rotate_left; intro hx; clear_value x; rotate_left; subst x)
    | intro _ | lift_lets | with_reducible apply onMotor_within | with_reducible apply commitStart_within
    | with_reducible apply motorStopNow_within | with_reducible apply drawWord_within
    | with_reducible apply modMotor_within | with_reducible apply complete_within | split)

theorem motorEnds_within {L : Nat} {s0 : State} (a0 : Fin 2) (a1 : Motor) (a2 : Nat) (a3 : Bool) {s : State} (hs :
    Within L s0 s) (hl : Sub 0x20fa0fb90c3 L) : Within L s0 (motorEnds a0 a1 a2 a3 s) := by
  unfold motorEnds
  repeat' (first
    | with_reducible assumption | ((with_reducible refine Sub.le ?_ hl); rfl)
    | (intro x; refine Within.cut (L := L) (s := s0) x ?_ ?_; rotate_left; intro hx; clear_value x; rotate_left; subst x)
    | intro _ | lift_lets | with_reducible apply release_within | with_reducible apply motorBrake_within
    | with_reducible apply modMotor_within | with_reducible apply completeOpt_within)

theorem whileWorks_within {L : Nat} {s0 : State} (a0 : Fin 2) (a1 : Motor → State → State) {s : State} (ha1 : ∀ b0 t,
    Within L s0 t → Within L s0 (a1 b0 t)) (hs : Within L s0 s) : Within L s0 (whileWorks a0 a1 s) := by
  unfold whileWorks
  repeat' (first | with_reducible assumption | with_reducible apply ha1 | split)

theorem whileDrives_within {L : Nat} {s0 : State} (a0 : Fin 2) (a1 : Motor → State → State) {s : State} (ha1 : ∀ b0 t,
    Within L s0 t → Within L s0 (a1 b0 t)) (hs : Within L s0 s) : Within L s0 (whileDrives a0 a1 s) := by
  unfold whileDrives
  repeat' (first | with_reducible assumption | with_reducible apply ha1 | split)

theorem bridgeOc_within {L : Nat} {s0 : State} (a0 : Fin 2) {s : State} (hs : Within L s0 s) (hl : Sub (orAll s0
    0x73ff8ffb4d7) L) : Within L s0 (bridgeOc a0 s) := by
  unfold bridgeOc
  repeat' (first
    | with_reducible assumption | ((with_reducible refine Sub.some ?_ ?_ hl) <;> rfl)
    | (intro x; refine Within.cut (L := L) (s := s0) x ?_ ?_; rotate_left; intro hx; clear_value x; rotate_left; subst x)
    | intro _ | lift_lets | with_reducible apply whileDrives_within | with_reducible apply release_within
    | with_reducible apply modMotor_within | with_reducible apply raiseLatched_within
    | with_reducible apply completeFree_within)

theorem stall_within {L : Nat} {s0 : State} (a0 : Fin 2) {s : State} (hs : Within L s0 s) (hl : Sub (orAll s0
    0x73ff8ffb4d7) L) : Within L s0 (stall a0 s) := by
  unfold stall
  repeat' (first
    | with_reducible assumption | ((with_reducible refine Sub.some ?_ ?_ hl) <;> rfl) | intro _
    | with_reducible apply whileDrives_within | with_reducible apply raiseLatched_within
    | with_reducible apply motorEnds_within)

theorem supplyLost_within {L : Nat} {s0 : State} (a0 : Fin 2) {s : State} (hs : Within L s0 s) (hl : Sub (orAll s0
    0x73ff8ffb4d7) L) : Within L s0 (supplyLost a0 s) := by
  unfold supplyLost
  repeat' (first
    | with_reducible assumption | ((with_reducible refine Sub.some ?_ ?_ hl) <;> rfl) | intro _
    | with_reducible apply whileDrives_within | with_reducible apply raiseLatched_within
    | with_reducible apply motorEnds_within | split)

theorem moveTmo_within {L : Nat} {s0 : State} (a0 : Fin 2) {s : State} (hs : Within L s0 s) (hl : Sub 0x20fa0fb90c3 L)
    : Within L s0 (moveTmo a0 s) := by
  unfold moveTmo
  repeat' (first
    | with_reducible assumption | intro _ | with_reducible apply whileWorks_within
    | with_reducible apply motorEnds_within | split)

theorem encoderError_within {L : Nat} {s0 : State} (a0 : Fin 2) (a1 : Nat) {s : State} (hs : Within L s0 s) (hl : Sub
    (orAll s0 0x73ff8ffb4d7) L) : Within L s0 (encoderError a0 a1 s) := by
  unfold encoderError
  repeat' (first
    | with_reducible assumption | ((with_reducible refine Sub.some ?_ ?_ hl) <;> rfl)
    | (intro x; refine Within.cut (L := L) (s := s0) x ?_ ?_; rotate_left; intro hx; clear_value x; rotate_left; subst x)
    | intro _ | lift_lets | with_reducible apply countReg_within | with_reducible apply whileWorks_within
    | with_reducible apply raiseLatched_within | with_reducible apply motorEnds_within
    | with_reducible apply modMotor_within | split)

theorem brakeTo_within {L : Nat} {s0 : State} (a0 : Fin 2) (a1 : BrakeEnd) {s : State} (hs : Within L s0 s) (hl : Sub
    0x400000000 L) : Within L s0 (brakeTo a0 a1 s) := by
  unfold brakeTo
  repeat' (first | with_reducible assumption | with_reducible apply motorBrake_within)

theorem farTrip_within {L : Nat} {s0 : State} (a0 : Fin 2) (a1 : Motor) {s : State} (hs : Within L s0 s) (hl : Sub
    0x20fa0fb90c3 L) : Within L s0 (farTrip a0 a1 s) := by
  unfold farTrip
  repeat' (first
    | with_reducible assumption | ((with_reducible refine Sub.le ?_ hl); rfl) | with_reducible apply motorEnds_within
    | with_reducible apply modMotor_within | split)

theorem homingLimit_within {L : Nat} {s0 : State} (a0 : Fin 2) (a1 : Limit) (a2 : Bool) (a3 : Motor) {s : State} (hs :
    Within L s0 s) (hl : Sub 0x20fa0fb90c3 L) : Within L s0 (homingLimit a0 a1 a2 a3 s) := by
  unfold homingLimit
  repeat' (first
    | with_reducible assumption | ((with_reducible refine Sub.le ?_ hl); rfl) | with_reducible apply farTrip_within
    | with_reducible apply brakeTo_within | split)

theorem farBraking_within {L : Nat} {s0 : State} (a0 : Fin 2) (a1 : Motor) {s : State} (hs : Within L s0 s) (hl : Sub
    0x20fa0fb90c3 L) : Within L s0 (farBraking a0 a1 s) := by
  unfold farBraking
  repeat' (first
    | with_reducible assumption | ((with_reducible refine Sub.le ?_ hl); rfl) | with_reducible apply motorEnds_within
    | with_reducible apply modMotor_within | split)

theorem noteEdges_within {L : Nat} {s0 : State} (a0 : Fin 2) (a1 : Limit) (a2 : List Time) {s : State} (hs : Within L
    s0 s) (hl : Sub 0x400000000 L) : Within L s0 (noteEdges a0 a1 a2 s) := by
  unfold noteEdges
  repeat' (first | with_reducible assumption | with_reducible apply modMotor_within)

theorem chatterFaults_within {L : Nat} {s0 : State} (a0 : Fin 2) (a1 : Limit) (a2 : Motor) {s : State} (hs : Within L
    s0 s) (hl : Sub (orAll s0 0x73ff8ffb4d7) L) : Within L s0 (chatterFaults a0 a1 a2 s) := by
  unfold chatterFaults
  repeat' (first
    | with_reducible assumption | ((with_reducible refine Sub.some ?_ ?_ hl) <;> rfl)
    | ((with_reducible refine Sub.both ?_ hl); rfl)
    | (intro x; refine Within.cut (L := L) (s := s0) x ?_ ?_; rotate_left; intro hx; clear_value x; rotate_left; subst x)
    | (intro x; clear_value x) | lift_lets | with_reducible apply release_within
    | with_reducible apply withdrawDemand_within | with_reducible apply countReg_within
    | with_reducible apply modMotor_within | with_reducible apply event_within | with_reducible apply raise_within
    | with_reducible apply completeOpt_within)

theorem countedChanges_within {L : Nat} {s0 : State} (a0 : Fin 2) (a1 : Limit) (a2 : List Time) {s : State} (hs :
    Within L s0 s) (hl : Sub (orAll s0 0x73ff8ffb4d7) L) : Within L s0 (countedChanges a0 a1 a2 s) := by
  unfold countedChanges
  repeat' (first
    | with_reducible assumption | ((with_reducible refine Sub.some ?_ ?_ hl) <;> rfl)
    | ((with_reducible refine Sub.both ?_ hl); rfl)
    | (intro x; refine Within.cut (L := L) (s := s0) x ?_ ?_; rotate_left; intro hx; clear_value x; rotate_left; subst x)
    | (intro x; clear_value x) | lift_lets | with_reducible apply noteEdges_within
    | with_reducible apply chatterFaults_within | split)

theorem limitQualified_within {L : Nat} {s0 : State} (a0 : Fin 2) (a1 : Limit) (a2 : Bool) (a3 : Int) (a4 : Int) {s :
    State} (hs : Within L s0 s) (hl : Sub (orAll s0 0x73ff8ffb4d7) L) : Within L s0 (limitQualified a0 a1 a2 a3 a4 s)
    := by
  unfold limitQualified
  repeat' (first
    | with_reducible assumption | ((with_reducible refine Sub.some ?_ ?_ hl) <;> rfl)
    | ((with_reducible refine Sub.both ?_ hl); rfl)
    | (intro x; refine Within.cut (L := L) (s := s0) x ?_ ?_; rotate_left; intro hx; clear_value x; rotate_left; subst x)
    | intro _ | lift_lets | with_reducible apply countedChanges_within | with_reducible apply modMotor_within
    | with_reducible apply homingLimit_within | with_reducible apply farBraking_within
    | with_reducible apply motorEnds_within | split)

theorem limitChatter_within {L : Nat} {s0 : State} (a0 : Fin 2) (a1 : Limit) (a2 : List Nat) {s : State} (hs : Within
    L s0 s) (hl : Sub (orAll s0 0x73ff8ffb4d7) L) : Within L s0 (limitChatter a0 a1 a2 s) := by
  unfold limitChatter
  repeat' (first | with_reducible assumption | with_reducible apply countedChanges_within)

theorem targetReached_within {L : Nat} {s0 : State} (a0 : Fin 2) {s : State} (hs : Within L s0 s) (hl : Sub
    0x20fa0fb90c3 L) : Within L s0 (targetReached a0 s) := by
  unfold targetReached
  repeat' (first
    | with_reducible assumption | ((with_reducible refine Sub.le ?_ hl); rfl) | intro _
    | with_reducible apply whileDrives_within | with_reducible apply brakeTo_within
    | with_reducible apply motorEnds_within | split)

theorem brakeEnd_within {L : Nat} {s0 : State} (a0 : Fin 2) (a1 : Int) {s : State} (hs : Within L s0 s) (hl : Sub
    0x20fa0ffb0c3 L) : Within L s0 (brakeEnd a0 a1 s) := by
  unfold brakeEnd
  repeat' (first
    | with_reducible assumption | ((with_reducible refine Sub.le ?_ hl); rfl)
    | (intro x; refine Within.cut (L := L) (s := s0) x ?_ ?_; rotate_left; intro hx; clear_value x; rotate_left; subst x)
    | (intro x; refine Within.cutH (L := L) (s := s0) x ?_ ?_; rotate_left; intro hfun; clear_value x; rotate_left; subst x)
    | (intro x; clear_value x) | intro _ | lift_lets | with_reducible apply release_within
    | with_reducible apply setMotor_within | with_reducible apply setReg_within | with_reducible apply event_within
    | with_reducible apply completeOpt_within | with_reducible apply hfun | split)

theorem execRelaySet_within {L : Nat} {s0 : State} (a0 : Word) {s : State} (hs : Within L s0 s) (hl : Sub (orAll s0
    0x73ff8ffb4d7) L) : WithinOut L s0 (execRelaySet a0 s) := by
  unfold execRelaySet
  repeat' (first
    | with_reducible assumption | with_reducible apply relaySet_within | with_reducible apply WithinOut.next)

theorem execRelayPulseEnd_within {L : Nat} {s0 : State} (a0 : Fin 48) (a1 : Option Dip) (a2 : Nat) {s : State} (hs :
    Within L s0 s) (hl : Sub (orAll s0 0x73ff8ffb4d7) L) : WithinOut L s0 (execRelayPulseEnd a0 a1 a2 s) := by
  unfold execRelayPulseEnd
  repeat' (first
    | with_reducible assumption | with_reducible apply relayPulseEnd_within | with_reducible apply WithinOut.next)

theorem execRelayPulseAbort_within {L : Nat} {s0 : State} (a0 : Fin 48) (a1 : PulseAbort) (a2 : Nat) {s : State} (hs :
    Within L s0 s) (hl : Sub (orAll s0 0x73ff8ffb4d7) L) : WithinOut L s0 (execRelayPulseAbort a0 a1 a2 s) := by
  unfold execRelayPulseAbort
  repeat' (first
    | with_reducible assumption | with_reducible apply relayPulseAbort_within | with_reducible apply WithinOut.next)

theorem execRelayRetry_within {L : Nat} {s0 : State} (a0 : Fin 48) {s : State} (hs : Within L s0 s) (hl : Sub (orAll
    s0 0x73ff8ffb4d7) L) : WithinOut L s0 (execRelayRetry a0 s) := by
  unfold execRelayRetry
  repeat' (first
    | with_reducible assumption | with_reducible apply relayRetry_within | with_reducible apply WithinOut.next)

theorem execMotorHome_within {L : Nat} {s0 : State} (a0 : Word) {s : State} (hs : Within L s0 s) (hl : Sub
    0x20fa0fb90c3 L) : WithinOut L s0 (execMotorHome a0 s) := by
  unfold execMotorHome
  repeat' (first
    | with_reducible assumption | with_reducible apply motorHome_within | with_reducible apply WithinOut.next)

theorem execMotorMove_within {L : Nat} {s0 : State} (a0 : Word) {s : State} (hs : Within L s0 s) (hl : Sub
    0x20fa0fb90c3 L) : WithinOut L s0 (execMotorMove a0 s) := by
  unfold execMotorMove
  repeat' (first
    | with_reducible assumption | with_reducible apply motorMove_within | with_reducible apply WithinOut.next)

theorem execMotorStop_within {L : Nat} {s0 : State} (a0 : Word) {s : State} (hs : Within L s0 s) (hl : Sub
    0x20fa0fb90c3 L) : WithinOut L s0 (execMotorStop a0 s) := by
  unfold execMotorStop
  repeat' (first
    | with_reducible assumption | with_reducible apply motorStop_within | with_reducible apply WithinOut.next)

theorem execMotorBridgeOc_within {L : Nat} {s0 : State} (a0 : Fin 2) {s : State} (hs : Within L s0 s) (hl : Sub (orAll
    s0 0x73ff8ffb4d7) L) : WithinOut L s0 (execMotorBridgeOc a0 s) := by
  unfold execMotorBridgeOc
  repeat' (first
    | with_reducible assumption | with_reducible apply bridgeOc_within | with_reducible apply WithinOut.next)

theorem execMotorBrakeEnd_within {L : Nat} {s0 : State} (a0 : Fin 2) (a1 : Int) {s : State} (hs : Within L s0 s) (hl :
    Sub 0x20fa0ffb0c3 L) : WithinOut L s0 (execMotorBrakeEnd a0 a1 s) := by
  unfold execMotorBrakeEnd
  repeat' (first
    | with_reducible assumption | with_reducible apply brakeEnd_within | with_reducible apply WithinOut.next)

theorem execMotorStall_within {L : Nat} {s0 : State} (a0 : Fin 2) {s : State} (hs : Within L s0 s) (hl : Sub (orAll s0
    0x73ff8ffb4d7) L) : WithinOut L s0 (execMotorStall a0 s) := by
  unfold execMotorStall
  repeat' (first
    | with_reducible assumption | with_reducible apply stall_within | with_reducible apply WithinOut.next)

theorem execMotorSupplyLost_within {L : Nat} {s0 : State} (a0 : Fin 2) {s : State} (hs : Within L s0 s) (hl : Sub
    (orAll s0 0x73ff8ffb4d7) L) : WithinOut L s0 (execMotorSupplyLost a0 s) := by
  unfold execMotorSupplyLost
  repeat' (first
    | with_reducible assumption | with_reducible apply supplyLost_within | with_reducible apply WithinOut.next)

theorem execLimitQualified_within {L : Nat} {s0 : State} (a0 : Fin 2) (a1 : Limit) (a2 : Bool) (a3 : Int) (a4 : Int)
    {s : State} (hs : Within L s0 s) (hl : Sub (orAll s0 0x73ff8ffb4d7) L) : WithinOut L s0 (execLimitQualified a0 a1
    a2 a3 a4 s) := by
  unfold execLimitQualified
  repeat' (first
    | with_reducible assumption | with_reducible apply limitQualified_within | with_reducible apply WithinOut.next)

theorem execLimitChatter_within {L : Nat} {s0 : State} (a0 : Fin 2) (a1 : Limit) (a2 : List Nat) {s : State} (hs :
    Within L s0 s) (hl : Sub (orAll s0 0x73ff8ffb4d7) L) : WithinOut L s0 (execLimitChatter a0 a1 a2 s) := by
  unfold execLimitChatter
  repeat' (first
    | with_reducible assumption | with_reducible apply limitChatter_within | with_reducible apply WithinOut.next)

theorem execMotorTargetReached_within {L : Nat} {s0 : State} (a0 : Fin 2) {s : State} (hs : Within L s0 s) (hl : Sub
    0x20fa0fb90c3 L) : WithinOut L s0 (execMotorTargetReached a0 s) := by
  unfold execMotorTargetReached
  repeat' (first
    | with_reducible assumption | with_reducible apply targetReached_within | with_reducible apply WithinOut.next)

theorem execMoveTmo_within {L : Nat} {s0 : State} (a0 : Fin 2) {s : State} (hs : Within L s0 s) (hl : Sub
    0x20fa0fb90c3 L) : WithinOut L s0 (execMoveTmo a0 s) := by
  unfold execMoveTmo
  repeat' (first
    | with_reducible assumption | with_reducible apply moveTmo_within | with_reducible apply WithinOut.next)

theorem execEncoderError_within {L : Nat} {s0 : State} (a0 : Fin 2) (a1 : Nat) {s : State} (hs : Within L s0 s) (hl :
    Sub (orAll s0 0x73ff8ffb4d7) L) : WithinOut L s0 (execEncoderError a0 a1 s) := by
  unfold execEncoderError
  repeat' (first
    | with_reducible assumption | with_reducible apply encoderError_within | with_reducible apply WithinOut.next)

/-! ### Machine/Fans.lean -/

theorem fanServed_within {L : Nat} {s0 : State} (a0 : Word) (a1 : Fin 4) {s : State} (hs : Within L s0 s) (hl : Sub
    0x20fa0ffb0c3 L) : Within L s0 (fanServed a0 a1 s) := by
  unfold fanServed
  repeat' (first
    | with_reducible assumption | ((with_reducible refine Sub.le ?_ hl); rfl)
    | (intro x; refine Within.cut (L := L) (s := s0) x ?_ ?_; rotate_left; intro hx; clear_value x; rotate_left; subst x)
    | (intro x; clear_value x) | lift_lets | with_reducible apply complete_within
    | with_reducible apply release_within | with_reducible apply setFan_within
    | with_reducible apply commitStart_within | with_reducible apply forceGrant_within
    | with_reducible apply modItem_within | with_reducible apply fanOff_within | with_reducible apply fanStart_within
    | with_reducible apply lowerGrant_within | split)

theorem fanSet_within {L : Nat} {s0 : State} (a0 : Word) {s : State} (hs : Within L s0 s) (hl : Sub 0x20fa0ffb0c3 L) :
    Within L s0 (fanSet a0 s) := by
  unfold fanSet
  repeat' (first
    | with_reducible assumption | ((with_reducible refine Sub.le ?_ hl); rfl) | (intro x; clear_value x) | intro _
    | lift_lets | with_reducible apply beginWork_within | with_reducible apply complete_within
    | with_reducible apply setFan_within | with_reducible apply fanServed_within
    | with_reducible apply itemAsks_within | split)

theorem stepDemand_within {L : Nat} {s0 : State} (a0 : Fin 4) (a1 : Fan) {s : State} (hs : Within L s0 s) (hl : Sub
    0x800000000 L) : Within L s0 (stepDemand a0 a1 s) := by
  unfold stepDemand
  repeat' (first
    | with_reducible assumption
    | (intro x; refine Within.cut (L := L) (s := s0) x.2 ?_ ?_; rotate_left; intro hx; clear_value x; rotate_left; subst x)
    | (intro x; clear_value x) | lift_lets | with_reducible apply drawNat_within | with_reducible apply modFan_within
    | split)

theorem fanArrives_within {L : Nat} {s0 : State} (a0 : Fin 4) (a1 : Fan) {s : State} (hs : Within L s0 s) (hl : Sub
    0x20800ffb0c3 L) : Within L s0 (fanArrives a0 a1 s) := by
  unfold fanArrives
  repeat' (first
    | with_reducible assumption | ((with_reducible refine Sub.le ?_ hl); rfl) | with_reducible apply event_within
    | with_reducible apply fanItemDone_within | split)

theorem fanUpdate_within {L : Nat} {s0 : State} (a0 : Fin 4) (a1 : FanReading) {s : State} (hs : Within L s0 s) (hl :
    Sub 0x20800ffb0c3 L) : Within L s0 (fanUpdate a0 a1 s) := by
  unfold fanUpdate
  repeat' (first
    | with_reducible assumption | ((with_reducible refine Sub.le ?_ hl); rfl)
    | (intro x; refine Within.cut (L := L) (s := s0) x ?_ ?_; rotate_left; intro hx; clear_value x; rotate_left; subst x)
    | (intro x; clear_value x) | lift_lets | with_reducible apply modFan_within | with_reducible apply fanLeash_within
    | with_reducible apply stepDemand_within | with_reducible apply countReg_within
    | with_reducible apply fanArrives_within | with_reducible apply fanItemDone_within | split)

theorem tachLoss_within {L : Nat} {s0 : State} (a0 : Fin 4) (a1 : Nat) {s : State} (hs : Within L s0 s) (hl : Sub
    (orAll s0 0x73ff8ffb4d7) L) : Within L s0 (tachLoss a0 a1 s) := by
  unfold tachLoss
  repeat' (first
    | with_reducible assumption | ((with_reducible refine Sub.some ?_ ?_ hl) <;> rfl)
    | (intro x; refine Within.cut (L := L) (s := s0) x ?_ ?_; rotate_left; intro hx; clear_value x; rotate_left; subst x)
    | (intro x; clear_value x) | lift_lets | with_reducible apply setReg_within | with_reducible apply countReg_within
    | with_reducible apply modFan_within | with_reducible apply raiseOnce_within | with_reducible apply event_within
    | split)

theorem fanBlind_within {L : Nat} {s0 : State} (a0 : Fin 4) {s : State} (hs : Within L s0 s) (hl : Sub 0x20ff0ffb0c7
    L) : Within L s0 (fanBlind a0 s) := by
  unfold fanBlind
  repeat' (first
    | with_reducible assumption | ((with_reducible refine Sub.le ?_ hl); rfl) | with_reducible apply arbitrate_within
    | with_reducible apply forceGrant_within | with_reducible apply modFan_within
    | with_reducible apply withdrawFan_within | split)

theorem tachBack_within {L : Nat} {s0 : State} (a0 : Fin 4) {s : State} (hs : Within L s0 s) (hl : Sub 0x80804a083 L)
    : Within L s0 (tachBack a0 s) := by
  unfold tachBack
  repeat' (first
    | with_reducible assumption | ((with_reducible refine Sub.le ?_ hl); rfl) | with_reducible apply event_within
    | with_reducible apply endCause_within | with_reducible apply modFan_within | split)

theorem fanFault_within {L : Nat} {s0 : State} (a0 : Fin 4) (a1 : FanCause) {s : State} (hs : Within L s0 s) (hl : Sub
    (orAll s0 0x73ff8ffb4d7) L) : Within L s0 (fanFault a0 a1 s) := by
  unfold fanFault
  repeat' (first
    | with_reducible assumption | ((with_reducible refine Sub.some ?_ ?_ hl) <;> rfl)
    | with_reducible apply raiseLatched_within | with_reducible apply fanFails_within
    | with_reducible apply raiseOnce_within | split)

theorem fanSpinupEnd_within {L : Nat} {s0 : State} (a0 : Fin 4) {s : State} (hs : Within L s0 s) (hl : Sub 0x800000000
    L) : Within L s0 (fanSpinupEnd a0 s) := by
  unfold fanSpinupEnd
  repeat' (first | with_reducible assumption | with_reducible apply modFan_within)

theorem fanNotSettled_within {L : Nat} {s0 : State} (a0 : Fin 4) {s : State} (hs : Within L s0 s) (hl : Sub
    0x20800fb90c3 L) : Within L s0 (fanNotSettled a0 s) := by
  unfold fanNotSettled
  repeat' (first | with_reducible assumption | with_reducible apply fanItemDone_within | split)

theorem execFanSet_within {L : Nat} {s0 : State} (a0 : Word) {s : State} (hs : Within L s0 s) (hl : Sub 0x20fa0ffb0c3
    L) : WithinOut L s0 (execFanSet a0 s) := by
  unfold execFanSet
  repeat' (first
    | with_reducible assumption | with_reducible apply fanSet_within | with_reducible apply WithinOut.next)

theorem execFanUpdate_within {L : Nat} {s0 : State} (a0 : Fin 4) (a1 : FanReading) {s : State} (hs : Within L s0 s)
    (hl : Sub 0x20800ffb0c3 L) : WithinOut L s0 (execFanUpdate a0 a1 s) := by
  unfold execFanUpdate
  repeat' (first
    | with_reducible assumption | with_reducible apply fanUpdate_within | with_reducible apply WithinOut.next)

theorem execFanTachLost_within {L : Nat} {s0 : State} (a0 : Fin 4) (a1 : Nat) {s : State} (hs : Within L s0 s) (hl :
    Sub (orAll s0 0x73ff8ffb4d7) L) : WithinOut L s0 (execFanTachLost a0 a1 s) := by
  unfold execFanTachLost
  repeat' (first
    | with_reducible assumption | with_reducible apply tachLoss_within | with_reducible apply WithinOut.next)

theorem execFanBlind_within {L : Nat} {s0 : State} (a0 : Fin 4) {s : State} (hs : Within L s0 s) (hl : Sub
    0x20ff0ffb0c7 L) : WithinOut L s0 (execFanBlind a0 s) := by
  unfold execFanBlind
  repeat' (first
    | with_reducible assumption | with_reducible apply fanBlind_within | with_reducible apply WithinOut.next)

theorem execFanTachBack_within {L : Nat} {s0 : State} (a0 : Fin 4) {s : State} (hs : Within L s0 s) (hl : Sub
    0x80804a083 L) : WithinOut L s0 (execFanTachBack a0 s) := by
  unfold execFanTachBack
  repeat' (first
    | with_reducible assumption | with_reducible apply tachBack_within | with_reducible apply WithinOut.next)

theorem execFanFault_within {L : Nat} {s0 : State} (a0 : Fin 4) (a1 : FanCause) {s : State} (hs : Within L s0 s) (hl :
    Sub (orAll s0 0x73ff8ffb4d7) L) : WithinOut L s0 (execFanFault a0 a1 s) := by
  unfold execFanFault
  repeat' (first
    | with_reducible assumption | with_reducible apply fanFault_within | with_reducible apply WithinOut.next)

theorem execFanSpinupEnd_within {L : Nat} {s0 : State} (a0 : Fin 4) {s : State} (hs : Within L s0 s) (hl : Sub
    0x800000000 L) : WithinOut L s0 (execFanSpinupEnd a0 s) := by
  unfold execFanSpinupEnd
  repeat' (first
    | with_reducible assumption | with_reducible apply fanSpinupEnd_within | with_reducible apply WithinOut.next)

theorem execFanNotSettled_within {L : Nat} {s0 : State} (a0 : Fin 4) {s : State} (hs : Within L s0 s) (hl : Sub
    0x20800fb90c3 L) : WithinOut L s0 (execFanNotSettled a0 s) := by
  unfold execFanNotSettled
  repeat' (first
    | with_reducible assumption | with_reducible apply fanNotSettled_within | with_reducible apply WithinOut.next)

/-! ### Machine/Adc.lean -/

theorem modStream_within {L : Nat} {s0 : State} (a0 : Fin 4) (a1 : Stream → Stream) {s : State} (hs : Within L s0 s)
    (hl : Sub 0x1000000000 L) : Within L s0 (modStream a0 a1 s) := by
  unfold modStream
  repeat' (first
    | with_reducible assumption | ((with_reducible refine Or.inr (Sub.le ?_ hl)); rfl)
    | ((with_reducible refine Or.inl (Eq.symm ?_)); rfl) | ((with_reducible refine Eq.symm ?_); rfl)
    | fail_if_no_progress (with_reducible apply Within.parts))

theorem modOutSt_within {L : Nat} {s0 : State} (a0 : Fin 4) (a1 : OutRing → OutRing) {s : State} (hs : Within L s0 s)
    (hl : Sub 0x4080 L) : Within L s0 (modOutSt a0 a1 s) := by
  unfold modOutSt
  repeat' (first
    | with_reducible assumption | ((with_reducible refine Sub.le ?_ hl); rfl)
    | ((with_reducible refine Or.inr (Sub.le ?_ hl)); rfl)
    | ((with_reducible refine Or.inl (fun _ => Eq.symm ?_)); rfl) | with_reducible apply modLink_within)

theorem writeStream_within {L : Nat} {s0 : State} (a0 : Nat) (a1 : Fin 4) {s : State} (hs : Within L s0 s) (hl : Sub
    0x1000004081 L) : Within L s0 (writeStream a0 a1 s) := by
  induction a0 generalizing a1 s with
  | zero =>
    unfold writeStream
    repeat' (first | with_reducible assumption)
  | succ n ih =>
    unfold writeStream
    repeat' (first
      | with_reducible assumption | ((with_reducible refine Sub.le ?_ hl); rfl) | with_reducible apply memWords_within
      | with_reducible apply modOutSt_within | with_reducible apply modStream_within | with_reducible apply ih | split)

theorem streamVector_within {L : Nat} {s0 : State} {s : State} (hs : Within L s0 s) (hl : Sub 0x1000000083 L) : Within
    L s0 (streamVector s) := by
  unfold streamVector
  repeat' (first
    | with_reducible assumption | ((with_reducible refine Sub.le ?_ hl); rfl)
    | ((with_reducible refine Or.inr (Sub.le ?_ hl)); rfl) | ((with_reducible refine Or.inl (Eq.symm ?_)); rfl)
    | ((with_reducible refine Eq.symm ?_); rfl) | lift_lets | with_reducible apply sendVector_within | split
    | fail_if_no_progress (with_reducible apply Within.parts))

theorem streamWrite_within {L : Nat} {s0 : State} (a0 : Fin 4) {s : State} (hs : Within L s0 s) (hl : Sub 0x100004e083
    L) : Within L s0 (streamWrite a0 s) := by
  unfold streamWrite
  repeat' (first
    | with_reducible assumption | ((with_reducible refine Sub.le ?_ hl); rfl)
    | (intro x; refine Within.cut (L := L) (s := s0) x ?_ ?_; rotate_left; intro hx; clear_value x; rotate_left; subst x)
    | (intro x; clear_value x) | lift_lets | with_reducible apply writeStream_within
    | with_reducible apply streamVector_within | with_reducible apply shadowWrite_within
    | with_reducible apply event_within | with_reducible apply modStream_within | split)

theorem streamFlush_within {L : Nat} {s0 : State} (a0 : Fin 4) {s : State} (hs : Within L s0 s) (hl : Sub 0x100004e083
    L) : Within L s0 (streamFlush a0 s) := by
  unfold streamFlush
  repeat' (first | with_reducible assumption | with_reducible apply streamWrite_within | split)

theorem pushStream_within {L : Nat} {s0 : State} (a0 : Fin 4) (a1 : Word) {s : State} (hs : Within L s0 s) (hl : Sub
    0x100004e083 L) : Within L s0 (pushStream a0 a1 s).1 := by
  unfold pushStream
  repeat' (first
    | with_reducible assumption | ((with_reducible refine Sub.le ?_ hl); rfl)
    | ((with_reducible refine Or.inr (Sub.le ?_ hl)); rfl)
    | (intro x; refine Within.cut (L := L) (s := s0) x ?_ ?_; rotate_left; intro hx; clear_value x; rotate_left; subst x)
    | (intro x; clear_value x) | ((with_reducible refine Or.inl (Eq.symm ?_)); rfl)
    | ((with_reducible refine Eq.symm ?_); rfl) | lift_lets | with_reducible apply countReg_within
    | with_reducible apply modStream_within | with_reducible apply pendVector_within
    | with_reducible apply streamWrite_within | split | fail_if_no_progress (with_reducible apply Within.parts))

theorem irqGapEnd_within {L : Nat} {s0 : State} {s : State} (hs : Within L s0 s) (hl : Sub 0x1000000083 L) : Within L
    s0 (irqGapEnd s) := by
  unfold irqGapEnd
  repeat' (first
    | with_reducible assumption | ((with_reducible refine Or.inr (Sub.le ?_ hl)); rfl)
    | (intro x; refine Within.cut (L := L) (s := s0) x ?_ ?_; rotate_left; intro hx; clear_value x; rotate_left; subst x)
    | (intro x; clear_value x) | ((with_reducible refine Or.inl (Eq.symm ?_)); rfl)
    | ((with_reducible refine Eq.symm ?_); rfl) | lift_lets | with_reducible apply streamVector_within | split
    | fail_if_no_progress (with_reducible apply Within.parts))

theorem openInt_within {L : Nat} {s0 : State} (a0 : Int × Nat) {s : State} (hs : Within L s0 s) : Within L s0 (openInt
    a0 s).2 := by
  unfold openInt
  repeat' (first
    | with_reducible assumption
    | (intro x; refine Within.cut (L := L) (s := s0) x.2 ?_ ?_; rotate_left; intro hx; clear_value x; rotate_left; subst x)
    | lift_lets | with_reducible apply drawNat_within | split)

theorem convCode_within {L : Nat} {s0 : State} (a0 : Fin 2) (a1 : Word) (a2 : Fin 4) (a3 : Int) {s : State} (hs :
    Within L s0 s) : Within L s0 (convCode a0 a1 a2 a3 s).2 := by
  unfold convCode
  repeat' (first
    | with_reducible assumption
    | (intro x; refine Within.cut (L := L) (s := s0) x.2 ?_ ?_; rotate_left; intro hx; clear_value x; rotate_left; subst x)
    | (intro x; clear_value x) | lift_lets | with_reducible apply drawNat_within | with_reducible apply openInt_within
    | split)

theorem sample_within {L : Nat} {s0 : State} (a0 : Fin 2) (a1 : Fin 8) (a2 : Nat) (a3 : Bool) (a4 : Int) {s : State}
    (hs : Within L s0 s) (hl : Sub 0x100004e083 L) : Within L s0 (sample a0 a1 a2 a3 a4 s).2 := by
  unfold sample
  repeat' (first
    | with_reducible assumption | ((with_reducible refine Sub.le ?_ hl); rfl)
    | (intro x; refine Within.cut (L := L) (s := s0) x ?_ ?_; rotate_left; intro hx; clear_value x; rotate_left; subst x)
    | (intro x; refine Within.cut (L := L) (s := s0) x.1 ?_ ?_; rotate_left; intro hx; clear_value x; rotate_left; subst x)
    | (intro x; clear_value x) | lift_lets | with_reducible apply setReg_within | with_reducible apply countReg_within
    | with_reducible apply pushStream_within | with_reducible apply modSeq_within
    | with_reducible apply leashEdge_within | split)

theorem convSafe_within {L : Nat} {s0 : State} (a0 : Fin 2) {s : State} (hs : Within L s0 s) (hl : Sub 0x8000000000 L)
    : Within L s0 (convSafe a0 s) := by
  unfold convSafe
  repeat' (first
    | with_reducible assumption | ((with_reducible refine Or.inr (Sub.le ?_ hl)); rfl)
    | ((with_reducible refine Or.inl (Eq.symm ?_)); rfl) | ((with_reducible refine Eq.symm ?_); rfl)
    | fail_if_no_progress (with_reducible apply Within.parts))

theorem beginPass_within {L : Nat} {s0 : State} (a0 : Fin 8) (a1 : Fin 2) {s : State} (hs : Within L s0 s) (hl : Sub
    0x9000000002 L) : Within L s0 (beginPass a0 a1 s) := by
  unfold beginPass
  repeat' (first
    | with_reducible assumption | ((with_reducible refine Sub.le ?_ hl); rfl) | with_reducible apply setReg_within
    | with_reducible apply modConv_within | with_reducible apply modSeq_within | with_reducible apply convSafe_within)

theorem nextPass_within {L : Nat} {s0 : State} (a0 : Fin 2) {s : State} (hs : Within L s0 s) (hl : Sub 0x9000000002 L)
    : Within L s0 (nextPass a0 s) := by
  unfold nextPass
  repeat' (first | with_reducible assumption | with_reducible apply beginPass_within | split)

theorem nextCut_within {L : Nat} {s0 : State} (a0 : Fin 2) {s : State} (hs : Within L s0 s) (hl : Sub 0x9000000000 L)
    : Within L s0 (nextCut a0 s) := by
  unfold nextCut
  repeat' (first
    | with_reducible assumption | ((with_reducible refine Sub.le ?_ hl); rfl) | with_reducible apply modConv_within
    | with_reducible apply convSafe_within | split)

theorem nextWork_within {L : Nat} {s0 : State} (a0 : Fin 2) {s : State} (hs : Within L s0 s) (hl : Sub 0x9000000002 L)
    : Within L s0 (nextWork a0 s) := by
  unfold nextWork
  repeat' (first
    | with_reducible assumption | ((with_reducible refine Sub.le ?_ hl); rfl) | with_reducible apply nextPass_within
    | with_reducible apply nextCut_within)

theorem askPass_within {L : Nat} {s0 : State} (a0 : Fin 8) {s : State} (hs : Within L s0 s) (hl : Sub 0x9000000002 L)
    : Within L s0 (askPass a0 s) := by
  unfold askPass
  repeat' (first
    | with_reducible assumption | ((with_reducible refine Sub.le ?_ hl); rfl) | with_reducible apply nextPass_within
    | with_reducible apply modSeq_within | split)

theorem adcTrigger_within {L : Nat} {s0 : State} (a0 : Fin 8) {s : State} (hs : Within L s0 s) (hl : Sub 0x9000000002
    L) : Within L s0 (adcTrigger a0 s) := by
  unfold adcTrigger
  repeat' (first
    | with_reducible assumption | ((with_reducible refine Sub.le ?_ hl); rfl)
    | (intro x; refine Within.cut (L := L) (s := s0) x ?_ ?_; rotate_left; intro hx; clear_value x; rotate_left; subst x)
    | (intro x; clear_value x) | lift_lets | with_reducible apply modSeq_within | with_reducible apply countReg_within
    | with_reducible apply askPass_within | split)

theorem passEnds_within {L : Nat} {s0 : State} (a0 : Fin 8) (a1 : Fin 2) {s : State} (hs : Within L s0 s) (hl : Sub
    0x29000ffb0c3 L) : Within L s0 (passEnds a0 a1 s) := by
  unfold passEnds
  repeat' (first
    | with_reducible assumption | ((with_reducible refine Sub.le ?_ hl); rfl)
    | (intro x; refine Within.cut (L := L) (s := s0) x ?_ ?_; rotate_left; intro hx; clear_value x; rotate_left; subst x)
    | intro _ | lift_lets | with_reducible apply modConv_within | with_reducible apply modSeq_within
    | with_reducible apply seqStopNow_within | with_reducible apply nextPass_within | split)

theorem converted_within {L : Nat} {s0 : State} (a0 : Fin 2) (a1 : Fin 8) (a2 : Seq) (a3 : Nat) (a4 : Bool) (a5 : Int)
    {s : State} (hs : Within L s0 s) (hl : Sub 0x900004e083 L) : Within L s0 (converted a0 a1 a2 a3 a4 a5 s).2 := by
  unfold converted
  repeat' (first
    | with_reducible assumption | ((with_reducible refine Sub.le ?_ hl); rfl)
    | (intro x; refine Within.cut (L := L) (s := s0) x.2 ?_ ?_; rotate_left; intro hx; clear_value x; rotate_left; subst x)
    | (intro x; clear_value x) | lift_lets | with_reducible apply convCode_within | with_reducible apply sample_within
    | with_reducible apply convSafe_within)

theorem conversionDone_within {L : Nat} {s0 : State} (a0 : Fin 2) (a1 : Int) {s : State} (hs : Within L s0 s) (hl :
    Sub 0x29000fff0c3 L) : Within L s0 (conversionDone a0 a1 s) := by
  unfold conversionDone
  repeat' (first
    | with_reducible assumption | ((with_reducible refine Sub.le ?_ hl); rfl)
    | (intro x; refine Within.cut (L := L) (s := s0) x ?_ ?_; rotate_left; intro hx; clear_value x; rotate_left; subst x)
    | (intro x; refine Within.cut (L := L) (s := s0) x.2 ?_ ?_; rotate_left; intro hx; clear_value x; rotate_left; subst x)
    | (intro x; clear_value x) | lift_lets | with_reducible apply nextWork_within
    | with_reducible apply modConv_within | with_reducible apply converted_within | with_reducible apply setReg_within
    | with_reducible apply completeOpt_within | with_reducible apply modSeq_within
    | with_reducible apply passEnds_within | split)

theorem cutArrives_within {L : Nat} {s0 : State} (a0 : Fin 2) (a1 : Cut) {s : State} (hs : Within L s0 s) (hl : Sub
    0x29000fb90c3 L) : Within L s0 (cutArrives a0 a1 s) := by
  unfold cutArrives
  repeat' (first
    | with_reducible assumption | ((with_reducible refine Sub.le ?_ hl); rfl)
    | with_reducible apply completeOpt_within | with_reducible apply countReg_within
    | with_reducible apply modConv_within | with_reducible apply convSafe_within | split)

theorem adcCut_within {L : Nat} {s0 : State} (a0 : Fin 2) {s : State} (hs : Within L s0 s) (hl : Sub 0x29000fb90c3 L)
    : Within L s0 (adcCut a0 s) := by
  unfold adcCut
  repeat' (first
    | with_reducible assumption | ((with_reducible refine Sub.le ?_ hl); rfl) | intro _
    | with_reducible apply cutArrives_within | with_reducible apply modConv_within
    | with_reducible refine Within.foldl ?_ ?_ | split)

theorem onSeq_within {L : Nat} {s0 : State} (a0 : Nat) (a1 : Word) (a2 : Item → Fin 8 → Seq → State → State) {s :
    State} (ha2 : ∀ b0 b1 b2 t, Within L s0 t → Within L s0 (a2 b0 b1 b2 t)) (hs : Within L s0 s) (hl : Sub
    0x20ea0fb90c3 L) : Within L s0 (onSeq a0 a1 a2 s) := by
  unfold onSeq
  repeat' (first
    | with_reducible assumption | intro _ | with_reducible apply beginWork_within | with_reducible apply ha2 | split)

theorem adcSeqStart_within {L : Nat} {s0 : State} (a0 : Word) {s : State} (hs : Within L s0 s) (hl : Sub 0x29ea0fb90c3
    L) : Within L s0 (adcSeqStart a0 s) := by
  unfold adcSeqStart
  repeat' (first
    | with_reducible assumption | ((with_reducible refine Sub.le ?_ hl); rfl)
    | (intro x; refine Within.cut (L := L) (s := s0) x ?_ ?_; rotate_left; intro hx; clear_value x; rotate_left; subst x)
    | intro _ | lift_lets | with_reducible apply onSeq_within | with_reducible apply complete_within
    | with_reducible apply modSeq_within | with_reducible apply commitStart_within
    | with_reducible apply askPass_within | split)

theorem adcSeqStop_within {L : Nat} {s0 : State} (a0 : Word) {s : State} (hs : Within L s0 s) (hl : Sub 0x21ea0ffb0c3
    L) : Within L s0 (adcSeqStop a0 s) := by
  unfold adcSeqStop
  repeat' (first
    | with_reducible assumption | ((with_reducible refine Sub.le ?_ hl); rfl) | intro _
    | with_reducible apply onSeq_within | with_reducible apply complete_within | with_reducible apply seqStop_within
    | with_reducible apply modSeq_within | with_reducible apply commitStart_within | split)

theorem adcUrgent_within {L : Nat} {s0 : State} (a0 : Word) {s : State} (hs : Within L s0 s) (hl : Sub 0x29ea0fb90c3
    L) : Within L s0 (adcUrgent a0 s) := by
  unfold adcUrgent
  repeat' (first
    | with_reducible assumption | ((with_reducible refine Sub.le ?_ hl); rfl) | intro _ | lift_lets
    | with_reducible apply onSeq_within | with_reducible apply refuseOperand_within
    | with_reducible apply cutArrives_within | with_reducible apply commitStart_within | split)

theorem regain_within {L : Nat} {s0 : State} (a0 : State) {s : State} (hs : Within L s0 s) (hl : Sub 0x1000000000 L) :
    Within L s0 (regain a0 s) := by
  unfold regain
  repeat' (first
    | with_reducible assumption | intro _ | with_reducible apply modSeq_within
    | with_reducible refine Within.foldl ?_ ?_)

theorem execAdcSeqStart_within {L : Nat} {s0 : State} (a0 : Word) {s : State} (hs : Within L s0 s) (hl : Sub
    0x29ea0fb90c3 L) : WithinOut L s0 (execAdcSeqStart a0 s) := by
  unfold execAdcSeqStart
  repeat' (first
    | with_reducible assumption | with_reducible apply adcSeqStart_within | with_reducible apply WithinOut.next)

theorem execAdcSeqStop_within {L : Nat} {s0 : State} (a0 : Word) {s : State} (hs : Within L s0 s) (hl : Sub
    0x21ea0ffb0c3 L) : WithinOut L s0 (execAdcSeqStop a0 s) := by
  unfold execAdcSeqStop
  repeat' (first
    | with_reducible assumption | with_reducible apply adcSeqStop_within | with_reducible apply WithinOut.next)

theorem execAdcUrgent_within {L : Nat} {s0 : State} (a0 : Word) {s : State} (hs : Within L s0 s) (hl : Sub
    0x29ea0fb90c3 L) : WithinOut L s0 (execAdcUrgent a0 s) := by
  unfold execAdcUrgent
  repeat' (first
    | with_reducible assumption | with_reducible apply adcUrgent_within | with_reducible apply WithinOut.next)

theorem execAdcTrigger_within {L : Nat} {s0 : State} (a0 : Fin 8) {s : State} (hs : Within L s0 s) (hl : Sub
    0x9000000002 L) : WithinOut L s0 (execAdcTrigger a0 s) := by
  unfold execAdcTrigger
  repeat' (first
    | with_reducible assumption | with_reducible apply adcTrigger_within | with_reducible apply WithinOut.next)

theorem execAdcConversionDone_within {L : Nat} {s0 : State} (a0 : Fin 2) (a1 : Int) {s : State} (hs : Within L s0 s)
    (hl : Sub 0x29000fff0c3 L) : WithinOut L s0 (execAdcConversionDone a0 a1 s) := by
  unfold execAdcConversionDone
  repeat' (first
    | with_reducible assumption | with_reducible apply conversionDone_within | with_reducible apply WithinOut.next)

theorem execAdcCut_within {L : Nat} {s0 : State} (a0 : Fin 2) {s : State} (hs : Within L s0 s) (hl : Sub 0x29000fb90c3
    L) : WithinOut L s0 (execAdcCut a0 s) := by
  unfold execAdcCut
  repeat' (first
    | with_reducible assumption | with_reducible apply adcCut_within | with_reducible apply WithinOut.next)

theorem execStreamFlush_within {L : Nat} {s0 : State} (a0 : Fin 4) {s : State} (hs : Within L s0 s) (hl : Sub
    0x100004e083 L) : WithinOut L s0 (execStreamFlush a0 s) := by
  unfold execStreamFlush
  repeat' (first
    | with_reducible assumption | with_reducible apply streamFlush_within | with_reducible apply WithinOut.next)

theorem execIrqGapEnd_within {L : Nat} {s0 : State} {s : State} (hs : Within L s0 s) (hl : Sub 0x1000000083 L) :
    WithinOut L s0 (execIrqGapEnd s) := by
  unfold execIrqGapEnd
  repeat' (first
    | with_reducible assumption | with_reducible apply irqGapEnd_within | with_reducible apply WithinOut.next)

/-! ### Machine/Comparators.lean -/

theorem modFc_within {L : Nat} {s0 : State} (a0 : Fin 16) (a1 : Fc → Fc) {s : State} (hs : Within L s0 s) (hl : Sub
    0x2000000000 L) : Within L s0 (modFc a0 a1 s) := by
  unfold modFc
  repeat' (first
    | with_reducible assumption | ((with_reducible refine Or.inr (Sub.le ?_ hl)); rfl)
    | ((with_reducible refine Or.inl (Eq.symm ?_)); rfl) | ((with_reducible refine Eq.symm ?_); rfl)
    | fail_if_no_progress (with_reducible apply Within.parts))

theorem modTamper_within {L : Nat} {s0 : State} (a0 : Fin 8) (a1 : TamperIn → TamperIn) {s : State} (hs : Within L s0
    s) (hl : Sub 0x2000000000 L) : Within L s0 (modTamper a0 a1 s) := by
  unfold modTamper
  repeat' (first
    | with_reducible assumption | ((with_reducible refine Or.inr (Sub.le ?_ hl)); rfl)
    | ((with_reducible refine Or.inl (Eq.symm ?_)); rfl) | ((with_reducible refine Eq.symm ?_); rfl)
    | fail_if_no_progress (with_reducible apply Within.parts))

theorem tamperFires_within {L : Nat} {s0 : State} (a0 : State) (a1 : Fin 8) {s : State} (hs : Within L s0 s) (hl : Sub
    0xf5a0c3 L) : Within L s0 (tamperFires a0 a1 s) := by
  unfold tamperFires
  repeat' (first | with_reducible assumption | with_reducible apply fireTamper_within | split)

theorem tamperCommit_within {L : Nat} {s0 : State} (a0 : Nat) (a1 : Nat) (a2 : Nat) (a3 : Nat) (a4 : Bool) (a5 : Time)
    {s : State} (hs : Within L s0 s) (hl : Sub 0xc00042 L) : Within L s0 (tamperCommit a0 a1 a2 a3 a4 a5 s) := by
  unfold tamperCommit
  repeat' (first
    | with_reducible assumption | ((with_reducible refine Sub.le ?_ hl); rfl) | with_reducible apply countReg_within
    | with_reducible apply setReg_within | with_reducible apply commit_within | split)

theorem tamperReport_within {L : Nat} {s0 : State} (a0 : Fin 8) (a1 : Nat) (a2 : Nat) (a3 : Time) {s : State} (hs :
    Within L s0 s) (hl : Sub (orAll s0 0x73ff8ffb4d7) L) : Within L s0 (tamperReport a0 a1 a2 a3 s) := by
  unfold tamperReport
  repeat' (first
    | with_reducible assumption | ((with_reducible refine Sub.some ?_ ?_ hl) <;> rfl)
    | (intro x; refine Within.cut (L := L) (s := s0) x ?_ ?_; rotate_left; intro hx; clear_value x; rotate_left; subst x)
    | (intro x; clear_value x) | lift_lets | with_reducible apply modTamper_within
    | with_reducible apply tamperCommit_within | with_reducible apply tamperFires_within
    | with_reducible apply sendVector_within | with_reducible apply event_within | with_reducible apply raise_within)

theorem tamperAgain_within {L : Nat} {s0 : State} (a0 : Fin 8) {s : State} (hs : Within L s0 s) (hl : Sub 0x8000000 L)
    : Within L s0 (tamperAgain a0 s) := by
  unfold tamperAgain
  repeat' (first
    | with_reducible assumption | ((with_reducible refine Or.inl (latched_of_eq (fun _ => ?_) (fun _ => ?_))) <;> rfl)
    | with_reducible apply modSrc_within)

theorem tamperEdge_within {L : Nat} {s0 : State} (a0 : Fin 8) (a1 : Nat) (a2 : Time) {s : State} (hs : Within L s0 s)
    (hl : Sub (orAll s0 0x73ff8ffb4d7) L) : Within L s0 (tamperEdge a0 a1 a2 s) := by
  unfold tamperEdge
  repeat' (first
    | with_reducible assumption | ((with_reducible refine Sub.some ?_ ?_ hl) <;> rfl) | (intro x; clear_value x)
    | lift_lets | with_reducible apply modTamper_within | with_reducible apply tamperAgain_within
    | with_reducible apply tamperReport_within | split)

theorem tamperRests_within {L : Nat} {s0 : State} (a0 : Fin 8) {s : State} (hs : Within L s0 s) (hl : Sub 0x8000000 L)
    : Within L s0 (tamperRests a0 s) := by
  unfold tamperRests
  repeat' (first
    | with_reducible assumption | ((with_reducible refine Or.inl (latched_of_eq (fun _ => ?_) (fun _ => ?_))) <;> rfl)
    | with_reducible apply modSrc_within | split)

theorem tamperReturns_within {L : Nat} {s0 : State} (a0 : Fin 8) {s : State} (hs : Within L s0 s) (hl : Sub 0x804a083
    L) : Within L s0 (tamperReturns a0 s) := by
  unfold tamperReturns
  repeat' (first
    | with_reducible assumption | ((with_reducible refine Sub.le ?_ hl); rfl)
    | with_reducible apply tamperRests_within | with_reducible apply event_within | split)

theorem recGapEnd_within {L : Nat} {s0 : State} (a0 : Fin 8) {s : State} (hs : Within L s0 s) (hl : Sub 0x2008f5a0c3
    L) : Within L s0 (recGapEnd a0 s) := by
  unfold recGapEnd
  repeat' (first
    | with_reducible assumption | ((with_reducible refine Sub.le ?_ hl); rfl)
    | (intro x; refine Within.cut (L := L) (s := s0) x ?_ ?_; rotate_left; intro hx; clear_value x; rotate_left; subst x)
    | (intro x; clear_value x) | lift_lets | with_reducible apply modTamper_within
    | with_reducible apply tamperCommit_within | with_reducible apply tamperFires_within
    | with_reducible apply tamperRests_within | split)

theorem tamperAfterScan_within {L : Nat} {s0 : State} {s : State} (hs : Within L s0 s) (hl : Sub (orAll s0
    0x73ff8ffb4d7) L) : Within L s0 (tamperAfterScan s) := by
  unfold tamperAfterScan
  repeat' (first
    | with_reducible assumption | ((with_reducible refine Sub.some ?_ ?_ hl) <;> rfl)
    | ((with_reducible refine Or.inr (Sub.some ?_ ?_ hl)) <;> rfl)
    | (intro x; refine Within.cut (L := L) (s := s0) x ?_ ?_; rotate_left; intro hx; clear_value x; rotate_left; subst x)
    | intro _ | ((with_reducible refine Or.inl (fun _ => Eq.symm ?_)); rfl) | lift_lets
    | with_reducible apply drawNat_within | with_reducible apply tamperCommit_within
    | with_reducible apply modPwr_within | with_reducible apply tamperRests_within
    | with_reducible apply tamperReport_within | with_reducible apply modTamper_within
    | with_reducible refine Within.foldl ?_ ?_ | split)

theorem fcEvent_within {L : Nat} {s0 : State} (a0 : Fin 16) (a1 : Bool) {s : State} (hs : Within L s0 s) (hl : Sub
    0x200004a083 L) : Within L s0 (fcEvent a0 a1 s) := by
  unfold fcEvent
  repeat' (first
    | with_reducible assumption | ((with_reducible refine Sub.le ?_ hl); rfl) | with_reducible apply event_within
    | with_reducible apply modFc_within | split)

theorem tmpChange_within {L : Nat} {s0 : State} (a0 : Fin 16) (a1 : Bool) (a2 : Nat) (a3 : Time) {s : State} (hs :
    Within L s0 s) (hl : Sub (orAll s0 0x73ff8ffb4d7) L) : Within L s0 (tmpChange a0 a1 a2 a3 s) := by
  unfold tmpChange
  repeat' (first
    | with_reducible assumption | ((with_reducible refine Sub.some ?_ ?_ hl) <;> rfl)
    | with_reducible apply tamperEdge_within | with_reducible apply countReg_within
    | with_reducible apply tamperReturns_within | split)

theorem mainsNotes_within {L : Nat} {s0 : State} (a0 : Fin 16) (a1 : Bool) {s : State} (hs : Within L s0 s) (hl : Sub
    0x2000000000 L) : Within L s0 (mainsNotes a0 a1 s) := by
  unfold mainsNotes
  repeat' (first
    | with_reducible assumption | ((with_reducible refine Or.inr (Sub.le ?_ hl)); rfl) | (intro x; clear_value x)
    | ((with_reducible refine Or.inl (Eq.symm ?_)); rfl) | ((with_reducible refine Eq.symm ?_); rfl) | lift_lets
    | fail_if_no_progress (with_reducible apply Within.parts))

theorem fcTakes_within {L : Nat} {s0 : State} (a0 : Fin 16) (a1 : Bool) (a2 : Nat) (a3 : Time) {s : State} (hs :
    Within L s0 s) (hl : Sub (orAll s0 0x73ff8ffb4d7) L) : Within L s0 (fcTakes a0 a1 a2 a3 s) := by
  unfold fcTakes
  repeat' (first
    | with_reducible assumption | ((with_reducible refine Sub.some ?_ ?_ hl) <;> rfl)
    | ((with_reducible refine Sub.both ?_ hl); rfl) | with_reducible apply tmpChange_within
    | with_reducible apply fcEvent_within | with_reducible apply compEdge_within
    | with_reducible apply mainsNotes_within)

theorem fcSet_within {L : Nat} {s0 : State} (a0 : Fin 16) (a1 : CompLevel) (a2 : Time) {s : State} (hs : Within L s0
    s) (hl : Sub (orAll s0 0x73ff8ffb4d7) L) : Within L s0 (fcSet a0 a1 a2 s) := by
  unfold fcSet
  repeat' (first
    | with_reducible assumption | ((with_reducible refine Sub.some ?_ ?_ hl) <;> rfl)
    | ((with_reducible refine Sub.both ?_ hl); rfl)
    | (intro x; refine Within.cut (L := L) (s := s0) x ?_ ?_; rotate_left; intro hx; clear_value x; rotate_left; subst x)
    | (intro x; clear_value x) | lift_lets | with_reducible apply modFc_within | with_reducible apply fcTakes_within
    | split)

theorem fcLevel_within {L : Nat} {s0 : State} (a0 : Fin 16) (a1 : CompLevel) (a2 : Time) {s : State} (hs : Within L s0
    s) (hl : Sub (orAll s0 0x73ff8ffb4d7) L) : Within L s0 (fcLevel a0 a1 a2 s) := by
  unfold fcLevel
  repeat' (first | with_reducible assumption | with_reducible apply fcSet_within | split)

theorem fcRemode_within {L : Nat} {s0 : State} (a0 : Fin 16) {s : State} (hs : Within L s0 s) (hl : Sub (orAll s0
    0x73ff8ffb4d7) L) : Within L s0 (fcRemode a0 s) := by
  unfold fcRemode
  repeat' (first
    | with_reducible assumption | ((with_reducible refine Sub.some ?_ ?_ hl) <;> rfl)
    | (intro x; refine Within.cut (L := L) (s := s0) x ?_ ?_; rotate_left; intro hx; clear_value x; rotate_left; subst x)
    | (intro x; clear_value x) | lift_lets | with_reducible apply modFc_within | with_reducible apply fcTakes_within
    | with_reducible apply fcLevel_within | split)

theorem wmEdge_within {L : Nat} {s0 : State} (a0 : Fin 64) (a1 : BitVec 16) {s : State} (hs : Within L s0 s) (hl : Sub
    (orAll s0 0x73ff8ffb4d7) L) : Within L s0 (wmEdge a0 a1 s) := by
  unfold wmEdge
  repeat' (first
    | with_reducible assumption | ((with_reducible refine Sub.some ?_ ?_ hl) <;> rfl)
    | with_reducible apply railEdge_within | with_reducible apply wmInput_within)

theorem fcInput_within {L : Nat} {s0 : State} (a0 : Fin 16) (a1 : Nat) (a2 : Time) {s : State} (hs : Within L s0 s)
    (hl : Sub (orAll s0 0x73ff8ffb4d7) L) : Within L s0 (fcInput a0 a1 a2 s) := by
  unfold fcInput
  repeat' (first | with_reducible assumption | with_reducible apply fcLevel_within)

theorem blankEnd_within {L : Nat} {s0 : State} (a0 : Comparator) (a1 : BitVec 16) {s : State} (hs : Within L s0 s) (hl
    : Sub (orAll s0 0x73ff8ffb4d7) L) : Within L s0 (blankEnd a0 a1 s) := by
  unfold blankEnd
  repeat' (first
    | with_reducible assumption | ((with_reducible refine Sub.some ?_ ?_ hl) <;> rfl)
    | (intro x; refine Within.cut (L := L) (s := s0) x ?_ ?_; rotate_left; intro hx; clear_value x; rotate_left; subst x)
    | (intro x; clear_value x) | lift_lets | with_reducible apply modWm_within | with_reducible apply railEdge_within
    | with_reducible apply wmSet_within | with_reducible apply modFc_within | with_reducible apply fcSet_within
    | split)

theorem combine_within {L : Nat} {s0 : State} {s : State} (hs : Within L s0 s) (hl : Sub 0x461ff0ffb4d7 L) : Within L
    s0 (combine s) := by
  unfold combine
  repeat' (first
    | with_reducible assumption | ((with_reducible refine Sub.le ?_ hl); rfl)
    | ((with_reducible refine Or.inr (Sub.le ?_ hl)); rfl)
    | (intro x; refine Within.cut (L := L) (s := s0) x ?_ ?_; rotate_left; intro hx; clear_value x; rotate_left; subst x)
    | intro _ | ((with_reducible refine Or.inl (fun _ => Eq.symm ?_)); rfl) | lift_lets
    | with_reducible apply setReg_within | with_reducible apply modPwr_within | with_reducible apply judge_within
    | with_reducible apply countReg_within | split)

theorem setSns0_within {L : Nat} {s0 : State} (a0 : Bool) {s : State} (hs : Within L s0 s) (hl : Sub 0x463ff0ffb4d7 L)
    : Within L s0 (setSns0 a0 s) := by
  unfold setSns0
  repeat' (first
    | with_reducible assumption | ((with_reducible refine Sub.le ?_ hl); rfl)
    | ((with_reducible refine Or.inr (Sub.le ?_ hl)); rfl) | ((with_reducible refine Or.inl (Eq.symm ?_)); rfl)
    | ((with_reducible refine Eq.symm ?_); rfl) | lift_lets | with_reducible apply combine_within | split
    | fail_if_no_progress (with_reducible apply Within.parts))

theorem mainsLoss_within {L : Nat} {s0 : State} {s : State} (hs : Within L s0 s) (hl : Sub 0x463ff0ffb4d7 L) : Within
    L s0 (mainsLoss s) := by
  unfold mainsLoss
  repeat' (first
    | with_reducible assumption | ((with_reducible refine Or.inr (Sub.le ?_ hl)); rfl)
    | ((with_reducible refine Or.inl (Eq.symm ?_)); rfl) | ((with_reducible refine Eq.symm ?_); rfl) | lift_lets
    | with_reducible apply setSns0_within | split | fail_if_no_progress (with_reducible apply Within.parts))

theorem mainsPresence_within {L : Nat} {s0 : State} {s : State} (hs : Within L s0 s) (hl : Sub 0x463ff0ffb4d7 L) :
    Within L s0 (mainsPresence s) := by
  unfold mainsPresence
  repeat' (first
    | with_reducible assumption | (intro x; clear_value x) | lift_lets | with_reducible apply setSns0_within | split)

theorem setSns1_within {L : Nat} {s0 : State} (a0 : Bool) {s : State} (hs : Within L s0 s) (hl : Sub 0x463ff0ffb4d7 L)
    : Within L s0 (setSns1 a0 s) := by
  unfold setSns1
  repeat' (first
    | with_reducible assumption | ((with_reducible refine Sub.le ?_ hl); rfl)
    | ((with_reducible refine Or.inr (Sub.le ?_ hl)); rfl) | ((with_reducible refine Or.inl (Eq.symm ?_)); rfl)
    | ((with_reducible refine Eq.symm ?_); rfl) | lift_lets | with_reducible apply combine_within | split
    | fail_if_no_progress (with_reducible apply Within.parts))

theorem tamperBegins_within {L : Nat} {s0 : State} (a0 : Fin 8) (a1 : Nat) (a2 : Time) {s : State} (hs : Within L s0
    s) (hl : Sub (orAll s0 0x73ff8ffb4d7) L) : Within L s0 (tamperBegins a0 a1 a2 s) := by
  unfold tamperBegins
  repeat' (first | with_reducible assumption | with_reducible apply fcInput_within | split)

theorem tamperCycle_within {L : Nat} {s0 : State} (a0 : List TamperEdge) {s : State} (hs : Within L s0 s) (hl : Sub
    (orAll s0 0x73ff8ffb4d7) L) : Within L s0 (tamperCycle a0 s) := by
  unfold tamperCycle
  repeat' (first
    | with_reducible assumption | intro _ | with_reducible apply tamperBegins_within
    | with_reducible refine Within.foldl ?_ ?_ | split)

theorem tamperClears_within {L : Nat} {s0 : State} (a0 : Fin 8) (a1 : Nat) {s : State} (hs : Within L s0 s) (hl : Sub
    (orAll s0 0x73ff8ffb4d7) L) : Within L s0 (tamperClears a0 a1 s) := by
  unfold tamperClears
  repeat' (first | with_reducible assumption | with_reducible apply fcInput_within | split)

theorem execWmEdge_within {L : Nat} {s0 : State} (a0 : Fin 64) (a1 : BitVec 16) {s : State} (hs : Within L s0 s) (hl :
    Sub (orAll s0 0x73ff8ffb4d7) L) : WithinOut L s0 (execWmEdge a0 a1 s) := by
  unfold execWmEdge
  repeat' (first
    | with_reducible assumption | with_reducible apply wmEdge_within | with_reducible apply WithinOut.next)

theorem execFcEdge_within {L : Nat} {s0 : State} (a0 : Fin 16) (a1 : Nat) {s : State} (hs : Within L s0 s) (hl : Sub
    (orAll s0 0x73ff8ffb4d7) L) : WithinOut L s0 (execFcEdge a0 a1 s) := by
  unfold execFcEdge
  repeat' (first
    | with_reducible assumption | with_reducible apply fcInput_within | with_reducible apply WithinOut.next)

theorem execBlankWindowEnd_within {L : Nat} {s0 : State} (a0 : Comparator) (a1 : BitVec 16) {s : State} (hs : Within L
    s0 s) (hl : Sub (orAll s0 0x73ff8ffb4d7) L) : WithinOut L s0 (execBlankWindowEnd a0 a1 s) := by
  unfold execBlankWindowEnd
  repeat' (first
    | with_reducible assumption | with_reducible apply blankEnd_within | with_reducible apply WithinOut.next)

theorem execTamper_within {L : Nat} {s0 : State} (a0 : List TamperEdge) {s : State} (hs : Within L s0 s) (hl : Sub
    (orAll s0 0x73ff8ffb4d7) L) : WithinOut L s0 (execTamper a0 s) := by
  unfold execTamper
  repeat' (first
    | with_reducible assumption | with_reducible apply tamperCycle_within | with_reducible apply WithinOut.next)

theorem execRecGapEnd_within {L : Nat} {s0 : State} (a0 : Fin 8) {s : State} (hs : Within L s0 s) (hl : Sub
    0x2008f5a0c3 L) : WithinOut L s0 (execRecGapEnd a0 s) := by
  unfold execRecGapEnd
  repeat' (first
    | with_reducible assumption | with_reducible apply recGapEnd_within | with_reducible apply WithinOut.next)

theorem execTamperClear_within {L : Nat} {s0 : State} (a0 : Fin 8) (a1 : Nat) {s : State} (hs : Within L s0 s) (hl :
    Sub (orAll s0 0x73ff8ffb4d7) L) : WithinOut L s0 (execTamperClear a0 a1 s) := by
  unfold execTamperClear
  repeat' (first
    | with_reducible assumption | with_reducible apply tamperClears_within | with_reducible apply WithinOut.next)

theorem execMainsLoss_within {L : Nat} {s0 : State} {s : State} (hs : Within L s0 s) (hl : Sub 0x463ff0ffb4d7 L) :
    WithinOut L s0 (execMainsLoss s) := by
  unfold execMainsLoss
  repeat' (first
    | with_reducible assumption | with_reducible apply mainsLoss_within | with_reducible apply WithinOut.next)

theorem execMainsPresence_within {L : Nat} {s0 : State} {s : State} (hs : Within L s0 s) (hl : Sub 0x463ff0ffb4d7 L) :
    WithinOut L s0 (execMainsPresence s) := by
  unfold execMainsPresence
  repeat' (first
    | with_reducible assumption | with_reducible apply mainsPresence_within | with_reducible apply WithinOut.next)

theorem execSns1Qualify_within {L : Nat} {s0 : State} (a0 : Bool) {s : State} (hs : Within L s0 s) (hl : Sub
    0x463ff0ffb4d7 L) : WithinOut L s0 (execSns1Qualify a0 s) := by
  unfold execSns1Qualify
  repeat' (first
    | with_reducible assumption | with_reducible apply setSns1_within | with_reducible apply WithinOut.next)

/-! ### Machine/Serve.lean -/

theorem itemServed_within {L : Nat} {s0 : State} (a0 : Word) (a1 : Demand) (a2 : Nat) {s : State} (hs : Within L s0 s)
    (hl : Sub (orAll s0 0x73ff8ffb4d7) L) : Within L s0 (itemServed a0 a1 a2 s) := by
  unfold itemServed
  repeat' (first
    | with_reducible assumption | ((with_reducible refine Sub.some ?_ ?_ hl) <;> rfl)
    | ((with_reducible refine Sub.both ?_ hl); rfl) | with_reducible apply limitsServed_within
    | with_reducible apply settle_within | with_reducible apply railServed_within
    | with_reducible apply relayServed_within | with_reducible apply motorServed_within
    | with_reducible apply fanServed_within | with_reducible apply lendServed_within
    | with_reducible apply liftServed_within | split)

theorem onRelay_within {L : Nat} {s0 : State} (a0 : Nat) (a1 : Fin 48 → State → State) {s : State} (ha1 : ∀ b0 t,
    Within L s0 t → Within L s0 (a1 b0 t)) (hs : Within L s0 s) : Within L s0 (onRelay a0 a1 s) := by
  unfold onRelay
  repeat' (first | with_reducible assumption | with_reducible apply ha1 | split)

theorem fanOwnServed_within {L : Nat} {s0 : State} (a0 : Fin 4) {s : State} (hs : Within L s0 s) (hl : Sub 0xfa004a083
    L) : Within L s0 (fanOwnServed a0 s) := by
  unfold fanOwnServed
  repeat' (first
    | with_reducible assumption | ((with_reducible refine Sub.le ?_ hl); rfl) | with_reducible apply release_within
    | with_reducible apply forceGrant_within | with_reducible apply fanStart_within | split)

theorem served_within {L : Nat} {s0 : State} (a0 : Req) (a1 : Nat) {s : State} (hs : Within L s0 s) (hl : Sub (orAll
    s0 0x73ff8ffb4d7) L) : Within L s0 (served a0 a1 s) := by
  unfold served
  repeat' (first
    | with_reducible assumption | ((with_reducible refine Sub.some ?_ ?_ hl) <;> rfl)
    | ((with_reducible refine Sub.both ?_ hl); rfl) | intro _ | with_reducible apply itemServed_within
    | with_reducible apply settle_within | with_reducible apply nodeServed_within
    | with_reducible apply fanOwnServed_within | with_reducible apply onRelay_within
    | with_reducible apply relayPulse_within | split)

theorem serveNext_within {L : Nat} {s0 : State} (a0 : Nat) {s : State} (hs : Within L s0 s) (hl : Sub (orAll s0
    0x73ff8ffb4d7) L) : Within L s0 (serveNext a0 s) := by
  unfold serveNext
  repeat' (first
    | with_reducible assumption | ((with_reducible refine Sub.some ?_ ?_ hl) <;> rfl)
    | with_reducible apply served_within | with_reducible apply serveReq_within | with_reducible apply rootWake_within
    | split)

theorem serveAllNext_within {L : Nat} {s0 : State} (a0 : Nat) {s : State} (hs : Within L s0 s) (hl : Sub (orAll s0
    0x73ff8ffb4d7) L) : Within L s0 (serveAllNext a0 s) := by
  induction a0 generalizing s with
  | zero =>
    unfold serveAllNext
    repeat' (first | with_reducible assumption)
  | succ n ih =>
    unfold serveAllNext
    repeat' (first
      | with_reducible assumption
      | (intro x; refine Within.cut (L := L) (s := s0) x.2 ?_ ?_; rotate_left; intro hx; clear_value x; rotate_left; subst x)
      | lift_lets | with_reducible apply drawNat_within | with_reducible apply serveNext_within
      | with_reducible apply ih | split)

theorem unwait_within {L : Nat} {s0 : State} (a0 : Demand) {s : State} (hs : Within L s0 s) (hl : Sub 0x620000000 L) :
    Within L s0 (unwait a0 s) := by
  unfold unwait
  repeat' (first
    | with_reducible assumption | ((with_reducible refine Sub.le ?_ hl); rfl) | intro _
    | with_reducible apply railUnwait_within | with_reducible apply onRelay_within
    | with_reducible apply modRelay_within | with_reducible apply modMotor_within | split)

theorem deferRefused_within {L : Nat} {s0 : State} (a0 : Req) {s : State} (hs : Within L s0 s) (hl : Sub (orAll s0
    0x61ff0ffb4d7) L) : Within L s0 (deferRefused a0 s) := by
  unfold deferRefused
  repeat' (first
    | with_reducible assumption | ((with_reducible refine Sub.some ?_ ?_ hl) <;> rfl)
    | (intro x; refine Within.cut (L := L) (s := s0) x ?_ ?_; rotate_left; intro hx; clear_value x; rotate_left; subst x)
    | (intro x; refine Within.cutG (L := L) (s := s0) x ?_ ?_; rotate_left; intro hfun; clear_value x; rotate_left; subst x)
    | (intro x; clear_value x) | intro _ | lift_lets | with_reducible apply noteRefusal_within
    | with_reducible apply modBud_within | with_reducible apply complete_within | with_reducible apply settle_within
    | with_reducible apply unwait_within | with_reducible apply nodeFail_within | with_reducible apply onRelay_within
    | with_reducible apply relayVerdict_within | with_reducible apply modRelay_within | with_reducible apply hfun
    | split)

theorem deferTmo_within {L : Nat} {s0 : State} (a0 : Word) {s : State} (hs : Within L s0 s) (hl : Sub (orAll s0
    0x61ff0ffb4d7) L) : Within L s0 (deferTmo a0 s) := by
  unfold deferTmo
  repeat' (first
    | with_reducible assumption | ((with_reducible refine Sub.some ?_ ?_ hl) <;> rfl)
    | ((with_reducible refine Sub.both ?_ hl); rfl) | with_reducible apply deferRefused_within
    | with_reducible apply rootWake_within | split)

theorem unshed_within {L : Nat} {s0 : State} {s : State} (hs : Within L s0 s) (hl : Sub 0x20ff0ffb0c7 L) : Within L s0
    (unshed s) := by
  unfold unshed
  repeat' (first
    | with_reducible assumption | ((with_reducible refine Sub.le ?_ hl); rfl)
    | with_reducible apply restoreTier_within | with_reducible apply modBud_within | split)

theorem setForce_within {L : Nat} {s0 : State} (a0 : Nat) {s : State} (hs : Within L s0 s) (hl : Sub 0x20ff0ffb0c7 L)
    : Within L s0 (setForce a0 s) := by
  unfold setForce
  repeat' (first
    | with_reducible assumption | ((with_reducible refine Sub.le ?_ hl); rfl) | (intro x; clear_value x) | lift_lets
    | with_reducible apply shedChange_within | with_reducible apply modBud_within)

theorem budgetStore_within {L : Nat} {s0 : State} (a0 : Item) {s : State} (hs : Within L s0 s) (hl : Sub 0x2 L) :
    Within L s0 (budgetStore a0 s) := by
  unfold budgetStore
  repeat' (first
    | with_reducible assumption
    | (intro x; refine Within.cut (L := L) (s := s0) x ?_ ?_; rotate_left; intro hx; clear_value x; rotate_left; subst x)
    | (intro x; clear_value x) | lift_lets | with_reducible apply setReg_within | split)

theorem budgetSet_within {L : Nat} {s0 : State} (a0 : Word) {s : State} (hs : Within L s0 s) (hl : Sub (orAll s0
    0x73ff8ffb4d7) L) : Within L s0 (budgetSet a0 s) := by
  unfold budgetSet
  repeat' (first
    | with_reducible assumption | ((with_reducible refine Sub.some ?_ ?_ hl) <;> rfl)
    | (intro x; refine Within.cut (L := L) (s := s0) x ?_ ?_; rotate_left; intro hx; clear_value x; rotate_left; subst x)
    | intro _ | lift_lets | with_reducible apply beginWork_within | with_reducible apply complete_within
    | with_reducible apply budgetStore_within | with_reducible apply commitStart_within
    | with_reducible apply arbitrate_within | with_reducible apply setForce_within
    | with_reducible apply serveAllNext_within | split)

theorem execDeferredItemServed_within {L : Nat} {s0 : State} (a0 : Nat) {s : State} (hs : Within L s0 s) (hl : Sub
    (orAll s0 0x73ff8ffb4d7) L) : WithinOut L s0 (execDeferredItemServed a0 s) := by
  unfold execDeferredItemServed
  repeat' (first
    | with_reducible assumption | with_reducible apply serveNext_within | with_reducible apply WithinOut.next)

theorem execDeferTmo_within {L : Nat} {s0 : State} (a0 : Word) {s : State} (hs : Within L s0 s) (hl : Sub (orAll s0
    0x61ff0ffb4d7) L) : WithinOut L s0 (execDeferTmo a0 s) := by
  unfold execDeferTmo
  repeat' (first
    | with_reducible assumption | with_reducible apply deferTmo_within | with_reducible apply WithinOut.next)

theorem execUnshedHoldExpiry_within {L : Nat} {s0 : State} {s : State} (hs : Within L s0 s) (hl : Sub 0x20ff0ffb0c7 L)
    : WithinOut L s0 (execUnshedHoldExpiry s) := by
  unfold execUnshedHoldExpiry
  repeat' (first
    | with_reducible assumption | with_reducible apply unshed_within | with_reducible apply WithinOut.next)

theorem execBudgetSet_within {L : Nat} {s0 : State} (a0 : Word) {s : State} (hs : Within L s0 s) (hl : Sub (orAll s0
    0x73ff8ffb4d7) L) : WithinOut L s0 (execBudgetSet a0 s) := by
  unfold execBudgetSet
  repeat' (first
    | with_reducible assumption | with_reducible apply budgetSet_within | with_reducible apply WithinOut.next)

/-! ### Machine/Thermal.lean -/

theorem rawOf_within {L : Nat} {s0 : State} (a0 : Nat) (a1 : Nat) {s : State} (hs : Within L s0 s) : Within L s0
    (rawOf a0 a1 s).2 := by
  unfold rawOf
  repeat' (first
    | with_reducible assumption
    | (intro x; refine Within.cut (L := L) (s := s0) x.2 ?_ ?_; rotate_left; intro hx; clear_value x; rotate_left; subst x)
    | (intro x; clear_value x) | lift_lets | with_reducible apply drawNat_within | split)

theorem rawsOf_within {L : Nat} {s0 : State} (a0 : Vector Int 24) (a1 : Vector Nat 8) {s : State} (hs : Within L s0 s)
    : Within L s0 (rawsOf a0 a1 s).2 := by
  unfold rawsOf
  exact foldl_within_snd (fun u a h => rawOf_within _ _ h) hs

theorem halved_within {L : Nat} {s0 : State} (a0 : Int) {s : State} (hs : Within L s0 s) : Within L s0 (halved a0 s).2
    := by
  unfold halved
  repeat' (first
    | with_reducible assumption
    | (intro x; refine Within.cut (L := L) (s := s0) x.2 ?_ ?_; rotate_left; intro hx; clear_value x; rotate_left; subst x)
    | lift_lets | with_reducible apply drawNat_within | split)

theorem inUseOf_within {L : Nat} {s0 : State} (a0 : Sensor) (a1 : Option Int) {s : State} (hs : Within L s0 s) :
    Within L s0 (inUseOf a0 a1 s).2 := by
  unfold inUseOf
  repeat' (first
    | with_reducible assumption
    | (intro x; refine Within.cut (L := L) (s := s0) x.2 ?_ ?_; rotate_left; intro hx; clear_value x; rotate_left; subst x)
    | lift_lets | with_reducible apply halved_within | with_reducible apply drawNat_within | split)

theorem setSensor_within {L : Nat} {s0 : State} (a0 : Fin 32) (a1 : Sensor) {s : State} (hs : Within L s0 s) (hl : Sub
    0x4000000000 L) : Within L s0 (setSensor a0 a1 s) := by
  unfold setSensor
  repeat' (first | with_reducible assumption | with_reducible apply modThm_within)

theorem judgeGroups_within {L : Nat} {s0 : State} {s : State} (hs : Within L s0 s) (hl : Sub (orAll s0 0x73ff8ffb4d7)
    L) : Within L s0 (judgeGroups s) := by
  unfold judgeGroups
  repeat' (first
    | with_reducible assumption | ((with_reducible refine Sub.some ?_ ?_ hl) <;> rfl) | (intro x; clear_value x)
    | intro _ | lift_lets | with_reducible apply raiseOnce_within | with_reducible apply endCause_within
    | with_reducible refine Within.foldl ?_ ?_ | split)

theorem sampleSensors_within {L : Nat} {s0 : State} (a0 : Vector Int 24) (a1 : Vector Nat 8) {s : State} (hs : Within
    L s0 s) (hl : Sub (orAll s0 0x77ff8ffb4d7) L) : Within L s0 (sampleSensors a0 a1 s) := by
  unfold sampleSensors
  repeat' (first
    | with_reducible assumption | ((with_reducible refine Sub.some ?_ ?_ hl) <;> rfl)
    | ((with_reducible refine Sub.both ?_ hl); rfl)
    | (intro x; refine Within.cut (L := L) (s := s0) x ?_ ?_; rotate_left; intro hx; clear_value x; rotate_left; subst x)
    | (intro x; refine Within.cut (L := L) (s := s0) x.2 ?_ ?_; rotate_left; intro hx; clear_value x; rotate_left; subst x)
    | (intro x; clear_value x) | intro _ | lift_lets | with_reducible apply rawsOf_within
    | with_reducible apply modThm_within | with_reducible apply inUseOf_within | with_reducible apply setSensor_within
    | with_reducible apply event_within | with_reducible apply judgeGroups_within
    | with_reducible refine Within.foldl ?_ ?_ | split)

theorem setRule_within {L : Nat} {s0 : State} (a0 : Fin 32) (a1 : Option Rule) {s : State} (hs : Within L s0 s) (hl :
    Sub 0x4000000000 L) : Within L s0 (setRule a0 a1 s) := by
  unfold setRule
  repeat' (first | with_reducible assumption | with_reducible apply modThm_within)

theorem ruleTakes_within {L : Nat} {s0 : State} (a0 : Fin 32) (a1 : Rule) {s : State} (hs : Within L s0 s) (hl : Sub
    0x400004a083 L) : Within L s0 (ruleTakes a0 a1 s) := by
  unfold ruleTakes
  repeat' (first
    | with_reducible assumption | ((with_reducible refine Sub.le ?_ hl); rfl)
    | (intro x; refine Within.cut (L := L) (s := s0) x ?_ ?_; rotate_left; intro hx; clear_value x; rotate_left; subst x)
    | (intro x; clear_value x) | lift_lets | with_reducible apply setRule_within | with_reducible apply event_within
    | with_reducible apply countReg_within | split)

theorem staleCheck_within {L : Nat} {s0 : State} {s : State} (hs : Within L s0 s) (hl : Sub 0x400004a083 L) : Within L
    s0 (staleCheck s) := by
  unfold staleCheck
  repeat' (first
    | with_reducible assumption | ((with_reducible refine Sub.le ?_ hl); rfl) | intro _
    | with_reducible apply event_within | with_reducible apply setRule_within
    | with_reducible refine Within.foldl ?_ ?_ | split)

theorem derateAsks_within {L : Nat} {s0 : State} (a0 : Fin 48) (a1 : Nat) {s : State} (hs : Within L s0 s) (hl : Sub
    0xd18040 L) : Within L s0 (derateAsks a0 a1 s) := by
  unfold derateAsks
  repeat' (first
    | with_reducible assumption | ((with_reducible refine Sub.le ?_ hl); rfl)
    | ((with_reducible refine Or.inr (Sub.le ?_ hl)); rfl)
    | (intro x; refine Within.cut (L := L) (s := s0) x ?_ ?_; rotate_left; intro hx; clear_value x; rotate_left; subst x)
    | (intro x; clear_value x) | ((with_reducible refine Or.inl (fun _ => Eq.symm ?_)); rfl)
    | (intro _; (with_reducible refine Eq.symm ?_); rfl) | lift_lets | with_reducible apply makeWay_within
    | with_reducible apply modEng_within | with_reducible apply commit_within)

theorem derate_within {L : Nat} {s0 : State} (a0 : Fin 48) {s : State} (hs : Within L s0 s) (hl : Sub (orAll s0
    0x61ff0ffb4d7) L) : Within L s0 (derate a0 s) := by
  unfold derate
  repeat' (first
    | with_reducible assumption | ((with_reducible refine Sub.some ?_ ?_ hl) <;> rfl)
    | ((with_reducible refine Sub.both ?_ hl); rfl)
    | (intro x; refine Within.cut (L := L) (s := s0) x ?_ ?_; rotate_left; intro hx; clear_value x; rotate_left; subst x)
    | (intro x; clear_value x) | lift_lets | with_reducible apply derateAsks_within
    | with_reducible apply railSetV_within | split)

theorem ruleShutdowns_within {L : Nat} {s0 : State} (a0 : State) {s : State} (hs : Within L s0 s) (hl : Sub
    0x60ee0fb90c7 L) : Within L s0 (ruleShutdowns a0 s) := by
  unfold ruleShutdowns
  repeat' (first
    | with_reducible assumption | intro _ | with_reducible apply hubRun_within
    | with_reducible refine Within.foldl ?_ ?_ | split)

theorem ruleEffects_within {L : Nat} {s0 : State} (a0 : State) {s : State} (hs : Within L s0 s) (hl : Sub (orAll s0
    0x65ff0ffb4d7) L) : Within L s0 (ruleEffects a0 s) := by
  unfold ruleEffects
  repeat' (first
    | with_reducible assumption | ((with_reducible refine Sub.some ?_ ?_ hl) <;> rfl)
    | ((with_reducible refine Sub.both ?_ hl); rfl)
    | (intro x; refine Within.cut (L := L) (s := s0) x ?_ ?_; rotate_left; intro hx; clear_value x; rotate_left; subst x)
    | intro _ | lift_lets | with_reducible apply staleCheck_within | with_reducible apply arbitrate_within
    | with_reducible apply chgUpdate_within | with_reducible apply derate_within
    | with_reducible apply fanApply_within | with_reducible apply shedChange_within
    | with_reducible apply settle_within | with_reducible apply ruleShutdowns_within
    | with_reducible refine Within.foldl ?_ ?_ | split)

theorem sampleRules_within {L : Nat} {s0 : State} {s : State} (hs : Within L s0 s) (hl : Sub (orAll s0 0x65ff0ffb4d7)
    L) : Within L s0 (sampleRules s) := by
  unfold sampleRules
  repeat' (first
    | with_reducible assumption | ((with_reducible refine Sub.some ?_ ?_ hl) <;> rfl)
    | ((with_reducible refine Sub.both ?_ hl); rfl)
    | (intro x; refine Within.cut (L := L) (s := s0) x ?_ ?_; rotate_left; intro hx; clear_value x; rotate_left; subst x)
    | (intro x; clear_value x) | intro _ | lift_lets | with_reducible apply ruleTakes_within
    | with_reducible apply derate_within | with_reducible apply ruleEffects_within
    | with_reducible apply rootWake_within | with_reducible refine Within.foldl ?_ ?_ | split)

theorem thermalSample_within {L : Nat} {s0 : State} (a0 : Vector Int 24) (a1 : Vector Nat 8) {s : State} (hs : Within
    L s0 s) (hl : Sub (orAll s0 0x77ff8ffb4d7) L) : Within L s0 (thermalSample a0 a1 s) := by
  unfold thermalSample
  repeat' (first
    | with_reducible assumption | ((with_reducible refine Sub.both ?_ hl); rfl)
    | with_reducible apply sampleRules_within | with_reducible apply sampleSensors_within | split)

theorem thermalSet_within {L : Nat} {s0 : State} (a0 : Word) {s : State} (hs : Within L s0 s) (hl : Sub (orAll s0
    0x65ff0ffb4d7) L) : Within L s0 (thermalSet a0 s) := by
  unfold thermalSet
  repeat' (first
    | with_reducible assumption | ((with_reducible refine Sub.some ?_ ?_ hl) <;> rfl)
    | (intro x; refine Within.cut (L := L) (s := s0) x ?_ ?_; rotate_left; intro hx; clear_value x; rotate_left; subst x)
    | (intro x; clear_value x) | intro _ | lift_lets | with_reducible apply beginWork_within
    | with_reducible apply complete_within | with_reducible apply ruleEffects_within
    | with_reducible apply ruleTakes_within | with_reducible apply commitStart_within | split)

theorem failWork_within {L : Nat} {s0 : State} (a0 : Word) {s : State} (hs : Within L s0 s) (hl : Sub 0x20000fb90c3 L)
    : Within L s0 (failWork a0 s) := by
  unfold failWork
  repeat' (first
    | with_reducible assumption | intro _ | with_reducible apply complete_within
    | with_reducible refine Within.foldl ?_ ?_)

theorem failOp_within {L : Nat} {s0 : State} (a0 : Nat) {s : State} (hs : Within L s0 s) (hl : Sub 0x20ea0fb90c3 L) :
    Within L s0 (failOp a0 s) := by
  unfold failOp
  repeat' (first
    | with_reducible assumption | ((with_reducible refine Sub.le ?_ hl); rfl) | intro _
    | with_reducible apply complete_within | with_reducible apply withdraw_within
    | with_reducible refine Within.foldl ?_ ?_)

theorem railHot_within {L : Nat} {s0 : State} (a0 : Fin 48) {s : State} (hs : Within L s0 s) (hl : Sub 0x20ff0ffb0c3
    L) : Within L s0 (railHot a0 s) := by
  unfold railHot
  repeat' (first
    | with_reducible assumption | ((with_reducible refine Sub.le ?_ hl); rfl) | with_reducible apply failNodes_within
    | with_reducible apply failWork_within | with_reducible apply withdrawDemand_within
    | with_reducible apply railDown_within | split)

theorem relayHot_within {L : Nat} {s0 : State} (a0 : Fin 48) {s : State} (hs : Within L s0 s) (hl : Sub (orAll s0
    0x73ff8ffb4d7) L) : Within L s0 (relayHot a0 s) := by
  unfold relayHot
  repeat' (first
    | with_reducible assumption | ((with_reducible refine Sub.some ?_ ?_ hl) <;> rfl)
    | (intro x; refine Within.cut (L := L) (s := s0) x.2 ?_ ?_; rotate_left; intro hx; clear_value x; rotate_left; subst x)
    | (intro x; refine Within.cutF (L := L) (s := s0) x ?_ ?_; rotate_left; intro hfun; clear_value x; rotate_left; subst x)
    | intro _ | lift_lets | with_reducible apply failWork_within | with_reducible apply modRelay_within
    | with_reducible apply drawNat_within | with_reducible apply raiseLatched_within
    | with_reducible apply relayJudged_within | with_reducible apply withdrawDemand_within | with_reducible apply hfun
    | split)

theorem motorHot_within {L : Nat} {s0 : State} (a0 : Fin 2) {s : State} (hs : Within L s0 s) (hl : Sub 0x20fa0fb90c3
    L) : Within L s0 (motorHot a0 s) := by
  unfold motorHot
  repeat' (first | with_reducible assumption | with_reducible apply motorFail_within | split)

theorem lendHot_within {L : Nat} {s0 : State} {s : State} (hs : Within L s0 s) (hl : Sub 0x20fa0ffb0c7 L) : Within L
    s0 (lendHot s) := by
  unfold lendHot
  repeat' (first
    | with_reducible assumption | ((with_reducible refine Sub.le ?_ hl); rfl)
    | (intro x; refine Within.cut (L := L) (s := s0) x.2 ?_ ?_; rotate_left; intro hx; clear_value x; rotate_left; subst x)
    | lift_lets | with_reducible apply failOp_within | with_reducible apply drawNat_within
    | with_reducible apply lendOff_within | split)

theorem liftHot_within {L : Nat} {s0 : State} {s : State} (hs : Within L s0 s) (hl : Sub 0x20fa0ffb0c3 L) : Within L
    s0 (liftHot s) := by
  unfold liftHot
  repeat' (first
    | with_reducible assumption | ((with_reducible refine Sub.le ?_ hl); rfl)
    | (intro x; refine Within.cut (L := L) (s := s0) x.2 ?_ ?_; rotate_left; intro hx; clear_value x; rotate_left; subst x)
    | lift_lets | with_reducible apply failOp_within | with_reducible apply drawNat_within
    | with_reducible apply liftOff_within | split)

theorem fanHot_within {L : Nat} {s0 : State} (a0 : Fin 4) {s : State} (hs : Within L s0 s) (hl : Sub 0xfa0000000 L) :
    Within L s0 (fanHot a0 s) := by
  unfold fanHot
  repeat' (first
    | with_reducible assumption | ((with_reducible refine Sub.le ?_ hl); rfl) | (intro x; clear_value x) | lift_lets
    | with_reducible apply forceGrant_within | with_reducible apply modFan_within
    | with_reducible apply withdrawFan_within | split)

theorem holdDie_within {L : Nat} {s0 : State} (a0 : Bool) {s : State} (hs : Within L s0 s) (hl : Sub 0x4 L) : Within L
    s0 (holdDie a0 s) := by
  unfold holdDie
  repeat' (first
    | with_reducible assumption | ((with_reducible refine Or.inl (fun _ => Eq.symm ?_)); rfl)
    | with_reducible apply modPwr_within)

theorem dieStops_within {L : Nat} {s0 : State} {s : State} (hs : Within L s0 s) (hl : Sub (orAll s0 0x73ff8ffb4d7) L)
    : Within L s0 (dieStops s) := by
  unfold dieStops
  repeat' (first
    | with_reducible assumption | ((with_reducible refine Sub.some ?_ ?_ hl) <;> rfl)
    | (intro x; refine Within.cut (L := L) (s := s0) x ?_ ?_; rotate_left; intro hx; clear_value x; rotate_left; subst x)
    | intro _ | lift_lets | with_reducible apply railHot_within | with_reducible apply chgUpdate_within
    | with_reducible apply liftHot_within | with_reducible apply lendHot_within | with_reducible apply motorHot_within
    | with_reducible apply relayHot_within | with_reducible apply fanHot_within
    | with_reducible refine Within.foldl ?_ ?_)

theorem dieShutdown_within {L : Nat} {s0 : State} (a0 : Option (Fin 24)) (a1 : Vector Int 24) {s : State} (hs : Within
    L s0 s) (hl : Sub (orAll s0 0x77ff8ffb4d7) L) : Within L s0 (dieShutdown a0 a1 s) := by
  unfold dieShutdown
  repeat' (first
    | with_reducible assumption | ((with_reducible refine Sub.some ?_ ?_ hl) <;> rfl)
    | ((with_reducible refine Sub.both ?_ hl); rfl) | ((with_reducible refine Or.inr (Sub.some ?_ ?_ hl)) <;> rfl)
    | (intro x; refine Within.cut (L := L) (s := s0) x ?_ ?_; rotate_left; intro hx; clear_value x; rotate_left; subst x)
    | intro _ | ((with_reducible refine Or.inl (fun _ => Eq.symm ?_)); rfl) | lift_lets
    | with_reducible apply modThm_within | with_reducible apply countReg_within | with_reducible apply modPwr_within
    | with_reducible apply holdDie_within | with_reducible apply arbitrate_within | with_reducible apply settle_within
    | with_reducible apply dieStops_within | with_reducible apply hostFell_within | with_reducible apply event_within
    | with_reducible apply judgeGroups_within | split)

theorem fanCool_within {L : Nat} {s0 : State} (a0 : Fin 4) {s : State} (hs : Within L s0 s) (hl : Sub 0x20fa0ffb0c3 L)
    : Within L s0 (fanCool a0 s) := by
  unfold fanCool
  repeat' (first
    | with_reducible assumption | ((with_reducible refine Sub.le ?_ hl); rfl) | with_reducible apply fanShed_within
    | with_reducible apply fanApply_within | with_reducible apply modFan_within | split)

theorem dieCooled_within {L : Nat} {s0 : State} (a0 : Int) {s : State} (hs : Within L s0 s) (hl : Sub (orAll s0
    0x77ff8ffb4d7) L) : Within L s0 (dieCooled a0 s) := by
  unfold dieCooled
  repeat' (first
    | with_reducible assumption | ((with_reducible refine Sub.some ?_ ?_ hl) <;> rfl)
    | ((with_reducible refine Sub.both ?_ hl); rfl) | ((with_reducible refine Or.inr (Sub.some ?_ ?_ hl)) <;> rfl)
    | (intro x; refine Within.cut (L := L) (s := s0) x ?_ ?_; rotate_left; intro hx; clear_value x; rotate_left; subst x)
    | intro _ | ((with_reducible refine Or.inl (fun _ => Eq.symm ?_)); rfl) | lift_lets
    | with_reducible apply modThm_within | with_reducible apply judgeGroups_within
    | with_reducible apply fanCool_within | with_reducible apply chgUpdate_within | with_reducible apply modPwr_within
    | with_reducible apply settle_within | with_reducible apply hostRun_within | with_reducible apply event_within
    | with_reducible apply arbitrate_within | with_reducible apply owlReload_within
    | with_reducible refine Within.foldl ?_ ?_ | split)

theorem execThermalSample_within {L : Nat} {s0 : State} (a0 : Vector Int 24) (a1 : Vector Nat 8) {s : State} (hs :
    Within L s0 s) (hl : Sub (orAll s0 0x77ff8ffb4d7) L) : WithinOut L s0 (execThermalSample a0 a1 s) := by
  unfold execThermalSample
  repeat' (first
    | with_reducible assumption | with_reducible apply thermalSample_within | with_reducible apply WithinOut.next)

theorem execThermalSet_within {L : Nat} {s0 : State} (a0 : Word) {s : State} (hs : Within L s0 s) (hl : Sub (orAll s0
    0x65ff0ffb4d7) L) : WithinOut L s0 (execThermalSet a0 s) := by
  unfold execThermalSet
  repeat' (first
    | with_reducible assumption | with_reducible apply thermalSet_within | with_reducible apply WithinOut.next)

theorem execDieShutdown_within {L : Nat} {s0 : State} (a0 : Option (Fin 24)) (a1 : Vector Int 24) {s : State} (hs :
    Within L s0 s) (hl : Sub (orAll s0 0x77ff8ffb4d7) L) : WithinOut L s0 (execDieShutdown a0 a1 s) := by
  unfold execDieShutdown
  repeat' (first
    | with_reducible assumption | with_reducible apply dieShutdown_within | with_reducible apply WithinOut.next)

theorem execDieCooled_within {L : Nat} {s0 : State} (a0 : Int) {s : State} (hs : Within L s0 s) (hl : Sub (orAll s0
    0x77ff8ffb4d7) L) : WithinOut L s0 (execDieCooled a0 s) := by
  unfold execDieCooled
  repeat' (first
    | with_reducible assumption | with_reducible apply dieCooled_within | with_reducible apply WithinOut.next)

/-! ### Machine/LeashCmds.lean -/

theorem setFloors_within {L : Nat} {s0 : State} (a0 : Word) {s : State} (hs : Within L s0 s) (hl : Sub 0x2 L) : Within
    L s0 (setFloors a0 s) := by
  unfold setFloors
  repeat' (first
    | with_reducible assumption | intro _ | with_reducible apply modReg_within
    | with_reducible refine Within.foldl ?_ ?_)

theorem leashStore_within {L : Nat} {s0 : State} (a0 : Item) {s : State} (hs : Within L s0 s) (hl : Sub 0x2 L) :
    Within L s0 (leashStore a0 s) := by
  unfold leashStore
  repeat' (first
    | with_reducible assumption
    | (intro x; refine Within.cut (L := L) (s := s0) x ?_ ?_; rotate_left; intro hx; clear_value x; rotate_left; subst x)
    | (intro x; clear_value x) | lift_lets | with_reducible apply setReg_within
    | with_reducible apply setFloors_within | split)

theorem rejoin_within {L : Nat} {s0 : State} (a0 : Fin 48) {s : State} (hs : Within L s0 s) (hl : Sub 0x3804a083 L) :
    Within L s0 (rejoin a0 s) := by
  unfold rejoin
  repeat' (first | with_reducible assumption | with_reducible apply railRejoin_within | split)

theorem leashReturn_within {L : Nat} {s0 : State} (a0 : Word) (a1 : State) {s : State} (hs : Within L s0 s) (hl : Sub
    0x21ff8ffb0c7 L) : Within L s0 (leashReturn a0 a1 s) := by
  unfold leashReturn
  repeat' (first
    | with_reducible assumption | ((with_reducible refine Sub.le ?_ hl); rfl)
    | (intro x; refine Within.cut (L := L) (s := s0) x ?_ ?_; rotate_left; intro hx; clear_value x; rotate_left; subst x)
    | intro _ | lift_lets | with_reducible apply regain_within | with_reducible apply rejoin_within
    | with_reducible apply fansApply_within | with_reducible apply arbitrate_within
    | with_reducible refine Within.foldl ?_ ?_ | split)

theorem leashSet_within {L : Nat} {s0 : State} (a0 : Word) {s : State} (hs : Within L s0 s) (hl : Sub 0x21ff8ffb0c7 L)
    : Within L s0 (leashSet a0 s) := by
  unfold leashSet
  repeat' (first
    | with_reducible assumption | ((with_reducible refine Sub.le ?_ hl); rfl)
    | (intro x; refine Within.cut (L := L) (s := s0) x ?_ ?_; rotate_left; intro hx; clear_value x; rotate_left; subst x)
    | intro _ | lift_lets | with_reducible apply beginWork_within | with_reducible apply refuseOperand_within
    | with_reducible apply complete_within | with_reducible apply commitStart_within
    | with_reducible apply leashReturn_within | with_reducible apply leashStore_within | split)

theorem execLeashSet_within {L : Nat} {s0 : State} (a0 : Word) {s : State} (hs : Within L s0 s) (hl : Sub
    0x21ff8ffb0c7 L) : WithinOut L s0 (execLeashSet a0 s) := by
  unfold execLeashSet
  repeat' (first
    | with_reducible assumption | with_reducible apply leashSet_within | with_reducible apply WithinOut.next)

end Sys2Proof.Machine
end

