-- ==== Sys2Proof/Laws/WithinHost.lean ====
section
/-! SUPPORT. `f_within` for Owls, the link, the door, calibration, the two-wire ports and the fault commands. -/

namespace Sys2Proof.Machine

/-! ### Machine/OwlOps.lean -/

theorem owlApply_within {L : Nat} {s0 : State} (a0 : Fin 2) {s : State} (hs : Within L s0 s) (hl : Sub 0x40000000000
    L) : Within L s0 (owlApply a0 s) := by
  unfold owlApply
  repeat' (first
    | with_reducible assumption | (intro x; clear_value x) | lift_lets | with_reducible apply owlSettle_within
    | with_reducible apply modOwl_within)

theorem owlRung0_within {L : Nat} {s0 : State} (a0 : Fin 2) (a1 : OwlCause) {s : State} (hs : Within L s0 s) (hl : Sub
    (orAll s0 0x73ff8ffb4d7) L) : Within L s0 (owlRung0 a0 a1 s) := by
  unfold owlRung0
  repeat' (first
    | with_reducible assumption | ((with_reducible refine Sub.some ?_ ?_ hl) <;> rfl)
    | (intro x; refine Within.cut (L := L) (s := s0) x ?_ ?_; rotate_left; intro hx; clear_value x; rotate_left; subst x)
    | intro _ | lift_lets | with_reducible apply raise_within | with_reducible apply countReg_within
    | with_reducible apply modOwl_within | with_reducible apply fireOwl_within
    | with_reducible apply sendVector_within | with_reducible apply event_within
    | with_reducible apply owlEndLadder_within | split)

theorem owlFed_within {L : Nat} {s0 : State} (a0 : Fin 2) {s : State} (hs : Within L s0 s) (hl : Sub 0x40008000000 L)
    : Within L s0 (owlFed a0 s) := by
  unfold owlFed
  repeat' (first
    | with_reducible assumption | ((with_reducible refine Sub.le ?_ hl); rfl)
    | (intro x; refine Within.cut (L := L) (s := s0) x ?_ ?_; rotate_left; intro hx; clear_value x; rotate_left; subst x)
    | (intro x; clear_value x) | lift_lets | with_reducible apply endCause_within | with_reducible apply modOwl_within
    | with_reducible apply owlSettle_within | split)

theorem hostFeed_within {L : Nat} {s0 : State} {s : State} (hs : Within L s0 s) (hl : Sub (orAll s0 0x73ff8ffb4d7) L)
    : Within L s0 (hostFeed s) := by
  unfold hostFeed
  repeat' (first
    | with_reducible assumption | ((with_reducible refine Sub.some ?_ ?_ hl) <;> rfl)
    | with_reducible apply owlRung0_within | with_reducible apply countReg_within | with_reducible apply modOwl_within
    | with_reducible apply owlFed_within | split)

theorem heartbeat_within {L : Nat} {s0 : State} (a0 : DWord) {s : State} (hs : Within L s0 s) (hl : Sub (orAll s0
    0x73ff8ffb4d7) L) : Within L s0 (heartbeat a0 s) := by
  unfold heartbeat
  repeat' (first
    | with_reducible assumption | ((with_reducible refine Or.inr (Sub.some ?_ ?_ hl)) <;> rfl)
    | ((with_reducible refine Or.inl (Eq.symm ?_)); rfl) | ((with_reducible refine Eq.symm ?_); rfl) | lift_lets
    | with_reducible apply hostFeed_within | split | fail_if_no_progress (with_reducible apply Within.parts))

theorem owlRunEntry_within {L : Nat} {s0 : State} {s : State} (hs : Within L s0 s) (hl : Sub 0x40000000000 L) : Within
    L s0 (owlRunEntry s) := by
  unfold owlRunEntry
  repeat' (first
    | with_reducible assumption | (intro x; clear_value x) | lift_lets | with_reducible apply owlSettle_within
    | with_reducible apply modOwl_within | split)

theorem owlRungOne_within {L : Nat} {s0 : State} (a0 : Fin 2) {s : State} (hs : Within L s0 s) (hl : Sub 0x4000004a087
    L) : Within L s0 (owlRungOne a0 s) := by
  unfold owlRungOne
  repeat' (first
    | with_reducible assumption | ((with_reducible refine Sub.le ?_ hl); rfl)
    | (intro x; refine Within.cut (L := L) (s := s0) x ?_ ?_; rotate_left; intro hx; clear_value x; rotate_left; subst x)
    | (intro x; clear_value x) | ((with_reducible refine Or.inl (fun _ => Eq.symm ?_)); rfl) | lift_lets
    | with_reducible apply modOwl_within | with_reducible apply owlEndLadder_within
    | with_reducible apply event_within | with_reducible apply modPwr_within | split)

theorem pulseEnd_within {L : Nat} {s0 : State} {s : State} (hs : Within L s0 s) (hl : Sub 0x40000000004 L) : Within L
    s0 (pulseEnd s) := by
  unfold pulseEnd
  repeat' (first
    | with_reducible assumption | ((with_reducible refine Sub.le ?_ hl); rfl)
    | ((with_reducible refine Or.inl (fun _ => Eq.symm ?_)); rfl) | intro _ | with_reducible apply modOwl_within
    | with_reducible apply owlEndLadder_within | with_reducible apply modPwr_within
    | with_reducible refine Within.foldl ?_ ?_ | split)

theorem owlRungTwo_within {L : Nat} {s0 : State} (a0 : Fin 2) {s : State} (hs : Within L s0 s) (hl : Sub (orAll s0
    0x61ff0ffb4d7) L) : Within L s0 (owlRungTwo a0 s) := by
  unfold owlRungTwo
  repeat' (first
    | with_reducible assumption | ((with_reducible refine Sub.some ?_ ?_ hl) <;> rfl)
    | ((with_reducible refine Sub.both ?_ hl); rfl)
    | (intro x; refine Within.cut (L := L) (s := s0) x ?_ ?_; rotate_left; intro hx; clear_value x; rotate_left; subst x)
    | (intro x; clear_value x) | lift_lets | with_reducible apply settle_within | with_reducible apply hostRun_within
    | with_reducible apply rootWake_within | with_reducible apply modOwl_within
    | with_reducible apply owlEndLadder_within | with_reducible apply event_within
    | with_reducible apply afterRun_within | split)

theorem execOwlRung1_within {L : Nat} {s0 : State} (a0 : Fin 2) {s : State} (hs : Within L s0 s) (hl : Sub
    0x4000004a087 L) : WithinOut L s0 (execOwlRung1 a0 s) := by
  unfold execOwlRung1
  repeat' (first
    | with_reducible assumption | with_reducible apply owlRungOne_within | with_reducible apply WithinOut.next)

theorem execOwlRung2_within {L : Nat} {s0 : State} (a0 : Fin 2) {s : State} (hs : Within L s0 s) (hl : Sub (orAll s0
    0x61ff0ffb4d7) L) : WithinOut L s0 (execOwlRung2 a0 s) := by
  unfold execOwlRung2
  repeat' (first
    | with_reducible assumption | with_reducible apply owlRungTwo_within | with_reducible apply WithinOut.next)

theorem execHostrstEnd_within {L : Nat} {s0 : State} {s : State} (hs : Within L s0 s) (hl : Sub 0x40000000004 L) :
    WithinOut L s0 (execHostrstEnd s) := by
  unfold execHostrstEnd
  repeat' (first
    | with_reducible assumption | with_reducible apply pulseEnd_within | with_reducible apply WithinOut.next)

theorem execOwlFeed_within {L : Nat} {s0 : State} (a0 : Word) {s : State} (hs : Within L s0 s) (hl : Sub (orAll s0
    0x73ff8ffb4d7) L) : WithinOut L s0 (execOwlFeed a0 s) := by
  unfold execOwlFeed
  repeat' (first
    | with_reducible assumption | ((with_reducible refine Sub.some ?_ ?_ hl) <;> rfl) | (intro x; clear_value x)
    | intro _ | lift_lets | with_reducible apply beginWork_within | with_reducible apply complete_within
    | with_reducible apply hostFeed_within | with_reducible apply WithinOut.next | split)

/-! ### Machine/Writes.lean -/

theorem lockCount_within {L : Nat} {s0 : State} (a0 : Nat) {s : State} (hs : Within L s0 s) (hl : Sub 0x2 L) : Within
    L s0 (lockCount a0 s) := by
  unfold lockCount
  repeat' (first
    | with_reducible assumption | with_reducible apply setReg_within | with_reducible apply countReg_within)

theorem setupRecord_within {L : Nat} {s0 : State} (a0 : Nat) (a1 : Word) {s : State} (hs : Within L s0 s) (hl : Sub
    0xc00040 L) : Within L s0 (setupRecord a0 a1 s) := by
  unfold setupRecord
  repeat' (first | with_reducible assumption | with_reducible apply commitNew_within | split)

theorem storeFields_within {L : Nat} {s0 : State} (a0 : Nat) (a1 : Word) (a2 : Word) {s : State} (hs : Within L s0 s)
    (hl : Sub 0x2 L) : Within L s0 (storeFields a0 a1 a2 s) := by
  unfold storeFields
  repeat' (first | with_reducible assumption | with_reducible apply setReg_within)

theorem clearBits_within {L : Nat} {s0 : State} (a0 : Nat) (a1 : Word) {s : State} (hs : Within L s0 s) (hl : Sub 0x2
    L) : Within L s0 (clearBits a0 a1 s) := by
  unfold clearBits
  repeat' (first | with_reducible assumption | with_reducible apply modReg_within)

/-! ### Machine/Link.lean -/

theorem resetInterval_within {L : Nat} {s0 : State} {s : State} (hs : Within L s0 s) (hl : Sub 0x80 L) : Within L s0
    (resetInterval s) := by
  unfold resetInterval
  repeat' (first
    | with_reducible assumption | ((with_reducible refine Or.inl (fun _ => Eq.symm ?_)); rfl)
    | with_reducible apply modLink_within)

theorem sendLtr_within {L : Nat} {s0 : State} {s : State} (hs : Within L s0 s) (hl : Sub 0x81 L) : Within L s0
    (sendLtr s) := by
  unfold sendLtr
  repeat' (first
    | with_reducible assumption | ((with_reducible refine Sub.le ?_ hl); rfl)
    | ((with_reducible refine Or.inl (fun _ => Eq.symm ?_)); rfl) | with_reducible apply emit_within
    | with_reducible apply modLink_within | split)

theorem causeFollows_within {L : Nat} {s0 : State} (a0 : Nat) (a1 : Bool) {s : State} (hs : Within L s0 s) (hl : Sub
    (orAll s0 0x73ff8ffb4d7) L) : Within L s0 (causeFollows a0 a1 s) := by
  unfold causeFollows
  repeat' (first
    | with_reducible assumption | ((with_reducible refine Sub.some ?_ ?_ hl) <;> rfl)
    | with_reducible apply raiseOnce_within | with_reducible apply endCause_within | split)

theorem judgeRings_within {L : Nat} {s0 : State} {s : State} (hs : Within L s0 s) (hl : Sub (orAll s0 0x73ff8ffb4d7)
    L) : Within L s0 (judgeRings s) := by
  unfold judgeRings
  repeat' (first
    | with_reducible assumption
    | (intro x; refine Within.cut (L := L) (s := s0) x ?_ ?_; rotate_left; intro hx; clear_value x; rotate_left; subst x)
    | intro _ | lift_lets | with_reducible apply causeFollows_within)

theorem refetch_within {L : Nat} {s0 : State} {s : State} (hs : Within L s0 s) (hl : Sub 0x880 L) : Within L s0
    (refetch s) := by
  unfold refetch
  repeat' (first
    | with_reducible assumption | ((with_reducible refine Sub.le ?_ hl); rfl)
    | ((with_reducible refine Or.inr (Sub.le ?_ hl)); rfl)
    | ((with_reducible refine Or.inl (fun _ => Eq.symm ?_)); rfl) | intro _ | with_reducible apply modLink_within
    | with_reducible refine Within.foldl ?_ ?_)

theorem heldWhenDone_within {L : Nat} {s0 : State} {s : State} (hs : Within L s0 s) (hl : Sub 0x40000000281 L) :
    Within L s0 (heldWhenDone s) := by
  unfold heldWhenDone
  repeat' (first
    | with_reducible assumption | ((with_reducible refine Sub.le ?_ hl); rfl)
    | ((with_reducible refine Or.inr (Sub.le ?_ hl)); rfl)
    | ((with_reducible refine Or.inl (fun _ => Eq.symm ?_)); rfl) | with_reducible apply owlReload_within
    | with_reducible apply modLink_within | with_reducible apply shadowPage_within | split)

theorem holdNow_within {L : Nat} {s0 : State} {s : State} (hs : Within L s0 s) (hl : Sub 0x40004400a81 L) : Within L
    s0 (holdNow s) := by
  unfold holdNow
  repeat' (first
    | with_reducible assumption | ((with_reducible refine Sub.le ?_ hl); rfl)
    | ((with_reducible refine Or.inr (Sub.le ?_ hl)); rfl)
    | (intro x; refine Within.cut (L := L) (s := s0) x ?_ ?_; rotate_left; intro hx; clear_value x; rotate_left; subst x)
    | (intro x; clear_value x) | ((with_reducible refine Or.inl (fun _ => Eq.symm ?_)); rfl)
    | (intro _; (with_reducible refine Eq.symm ?_); rfl) | lift_lets | with_reducible apply modLink_within
    | with_reducible apply heldWhenDone_within | with_reducible apply refetch_within
    | with_reducible apply modJnl_within | split)

theorem repost_within {L : Nat} {s0 : State} {s : State} (hs : Within L s0 s) (hl : Sub 0x28000 L) : Within L s0
    (repost s) := by
  unfold repost
  repeat' (first
    | with_reducible assumption | ((with_reducible refine Sub.le ?_ hl); rfl)
    | ((with_reducible refine Or.inr (Sub.le ?_ hl)); rfl)
    | ((with_reducible refine Or.inl (fun _ => Eq.symm ?_)); rfl) | (intro _; (with_reducible refine Eq.symm ?_); rfl)
    | with_reducible apply modEng_within)

theorem repostOn_within {L : Nat} {s0 : State} (a0 : Nat) {s : State} (hs : Within L s0 s) (hl : Sub 0x28000 L) :
    Within L s0 (repostOn a0 s) := by
  unfold repostOn
  repeat' (first
    | with_reducible assumption | ((with_reducible refine Sub.le ?_ hl); rfl)
    | ((with_reducible refine Or.inr (Sub.le ?_ hl)); rfl)
    | ((with_reducible refine Or.inl (fun _ => Eq.symm ?_)); rfl) | (intro _; (with_reducible refine Eq.symm ?_); rfl)
    | with_reducible apply modEng_within)

theorem releaseNow_within {L : Nat} {s0 : State} {s : State} (hs : Within L s0 s) (hl : Sub 0x4000002f281 L) : Within
    L s0 (releaseNow s) := by
  unfold releaseNow
  repeat' (first
    | with_reducible assumption | ((with_reducible refine Sub.le ?_ hl); rfl)
    | ((with_reducible refine Or.inr (Sub.le ?_ hl)); rfl)
    | (intro x; refine Within.cut (L := L) (s := s0) x ?_ ?_; rotate_left; intro hx; clear_value x; rotate_left; subst x)
    | intro _ | ((with_reducible refine Or.inl (fun _ => Eq.symm ?_)); rfl) | lift_lets
    | with_reducible apply repost_within | with_reducible apply modLink_within
    | with_reducible apply sendUnmasked_within | with_reducible apply shadowPage_within
    | with_reducible apply owlReload_within)

theorem writeRelease_within {L : Nat} {s0 : State} {s : State} (hs : Within L s0 s) (hl : Sub 0x4000002f281 L) :
    Within L s0 (writeRelease s) := by
  unfold writeRelease
  repeat' (first
    | with_reducible assumption | ((with_reducible refine Sub.le ?_ hl); rfl)
    | ((with_reducible refine Or.inr (Sub.le ?_ hl)); rfl)
    | ((with_reducible refine Or.inl (fun _ => Eq.symm ?_)); rfl) | with_reducible apply releaseNow_within
    | with_reducible apply modLink_within | split)

theorem holdInRun_within {L : Nat} {s0 : State} {s : State} (hs : Within L s0 s) (hl : Sub 0x40004400a81 L) : Within L
    s0 (holdInRun s) := by
  unfold holdInRun
  repeat' (first | with_reducible assumption | with_reducible apply holdNow_within | split)

theorem resetConfig_within {L : Nat} {s0 : State} {s : State} (hs : Within L s0 s) (hl : Sub 0x8000782 L) : Within L
    s0 (resetConfig s) := by
  unfold resetConfig
  repeat' (first
    | with_reducible assumption | ((with_reducible refine Sub.le ?_ hl); rfl)
    | ((with_reducible refine Or.inr (Sub.le ?_ hl)); rfl)
    | (intro x; refine Within.cut (L := L) (s := s0) x ?_ ?_; rotate_left; intro hx; clear_value x; rotate_left; subst x)
    | intro _ | ((with_reducible refine Or.inl (fun _ => Eq.symm ?_)); rfl) | lift_lets
    | with_reducible apply modLink_within | with_reducible apply endCause_within | with_reducible apply setReg_within
    | with_reducible apply modReg_within)

theorem noteDmaErr_within {L : Nat} {s0 : State} (a0 : Nat) (a1 : Nat) (a2 : Nat) {s : State} (hs : Within L s0 s) (hl
    : Sub 0x2 L) : Within L s0 (noteDmaErr a0 a1 a2 s) := by
  unfold noteDmaErr
  repeat' (first | with_reducible assumption | with_reducible apply setReg_within)

theorem failDma_within {L : Nat} {s0 : State} (a0 : Word) (a1 : Nat) (a2 : Nat) {s : State} (hs : Within L s0 s) (hl :
    Sub 0x20000fb90c3 L) : Within L s0 (failDma a0 a1 a2 s) := by
  unfold failDma
  repeat' (first
    | with_reducible assumption | ((with_reducible refine Sub.le ?_ hl); rfl) | with_reducible apply complete_within
    | with_reducible apply noteDmaErr_within)

theorem itemRead_within {L : Nat} {s0 : State} (a0 : Word) (a1 : Nat) (a2 : DWord) (a3 : Nat) (a4 : ItemRead) (a5 :
    List Word → State → State) {s : State} (ha5 : ∀ b0 t, Within L s0 t → Within L s0 (a5 b0 t)) (hs : Within L s0 s)
    (hl : Sub 0x20000fb90c3 L) : Within L s0 (itemRead a0 a1 a2 a3 a4 a5 s) := by
  unfold itemRead
  repeat' (first
    | with_reducible assumption | ((with_reducible refine Sub.le ?_ hl); rfl)
    | (intro x; refine Within.cut (L := L) (s := s0) x ?_ ?_; rotate_left; intro hx; clear_value x; rotate_left; subst x)
    | intro _ | lift_lets | with_reducible apply failDma_within | with_reducible apply memRead_within
    | with_reducible apply complete_within | with_reducible apply ha5 | split)

theorem dmaReadFail_within {L : Nat} {s0 : State} (a0 : ReadOf) (a1 : ReadError) {s : State} (hs : Within L s0 s) (hl
    : Sub (orAll s0 0x73ffcffbed7) L) : Within L s0 (dmaReadFail a0 a1 s) := by
  unfold dmaReadFail
  repeat' (first
    | with_reducible assumption | ((with_reducible refine Sub.some ?_ ?_ hl) <;> rfl)
    | ((with_reducible refine Sub.both ?_ hl); rfl) | ((with_reducible refine Or.inr (Sub.some ?_ ?_ hl)) <;> rfl)
    | (intro x; refine Within.cut (L := L) (s := s0) x ?_ ?_; rotate_left; intro hx; clear_value x; rotate_left; subst x)
    | (intro x; clear_value x) | ((with_reducible refine Or.inl (fun _ => Eq.symm ?_)); rfl) | lift_lets
    | with_reducible apply modLink_within | with_reducible apply noteDmaErr_within
    | with_reducible apply raiseOnce_within | with_reducible apply holdNow_within | split)

theorem armSees_within {L : Nat} {s0 : State} (a0 : Option Word) (a1 : Nat) (a2 : Nat) {s : State} (hs : Within L s0
    s) (hl : Sub 0x18000 L) : Within L s0 (armSees a0 a1 a2 s) := by
  unfold armSees
  repeat' (first | with_reducible assumption | with_reducible apply modItem_within | split)

theorem armLoses_within {L : Nat} {s0 : State} (a0 : BodyDue) {s : State} (hs : Within L s0 s) (hl : Sub 0x18000 L) :
    Within L s0 (armLoses a0 s) := by
  unfold armLoses
  repeat' (first | with_reducible assumption | with_reducible apply armSees_within | split)

theorem restartRings_within {L : Nat} {s0 : State} (a0 : Nat) (a1 : Word) (a2 : Word) {s : State} (hs : Within L s0 s)
    (hl : Sub 0x3f880 L) : Within L s0 (restartRings a0 a1 a2 s) := by
  unfold restartRings
  repeat' (first
    | with_reducible assumption | ((with_reducible refine Sub.le ?_ hl); rfl)
    | ((with_reducible refine Or.inr (Sub.le ?_ hl)); rfl) | (intro x; clear_value x)
    | ((with_reducible refine Or.inl (fun _ => Eq.symm ?_)); rfl) | intro _ | lift_lets
    | with_reducible apply modLink_within | with_reducible apply armLoses_within
    | with_reducible apply repostOn_within | with_reducible refine Within.foldl ?_ ?_ | split)

theorem ringWrite_within {L : Nat} {s0 : State} (a0 : Nat) (a1 : Word) {s : State} (hs : Within L s0 s) (hl : Sub
    (orAll s0 0x73ff8fffcd7) L) : Within L s0 (ringWrite a0 a1 s) := by
  unfold ringWrite
  repeat' (first
    | with_reducible assumption | ((with_reducible refine Sub.some ?_ ?_ hl) <;> rfl)
    | ((with_reducible refine Sub.both ?_ hl); rfl)
    | (intro x; refine Within.cut (L := L) (s := s0) x ?_ ?_; rotate_left; intro hx; clear_value x; rotate_left; subst x)
    | (intro x; clear_value x) | lift_lets | with_reducible apply setupRecord_within
    | with_reducible apply storeFields_within | with_reducible apply judgeRings_within
    | with_reducible apply restartRings_within | with_reducible apply lockCount_within | split)

theorem holdSet_within {L : Nat} {s0 : State} {s : State} (hs : Within L s0 s) (hl : Sub 0x40004400a81 L) : Within L
    s0 (holdSet s) := by
  unfold holdSet
  repeat' (first | with_reducible assumption | with_reducible apply holdNow_within)

theorem configWrite_within {L : Nat} {s0 : State} (a0 : Bool) (a1 : LinkCfg) (a2 : AerAck) {s : State} (hs : Within L
    s0 s) (hl : Sub 0x8000580 L) : Within L s0 (configWrite a0 a1 a2 s) := by
  unfold configWrite
  repeat' (first
    | with_reducible assumption | ((with_reducible refine Sub.le ?_ hl); rfl)
    | ((with_reducible refine Or.inr (Sub.le ?_ hl)); rfl)
    | (intro x; refine Within.cut (L := L) (s := s0) x ?_ ?_; rotate_left; intro hx; clear_value x; rotate_left; subst x)
    | (intro x; clear_value x) | ((with_reducible refine Or.inl (fun _ => Eq.symm ?_)); rfl) | lift_lets
    | with_reducible apply modLink_within | with_reducible apply endCause_within | split)

theorem bmeSet_within {L : Nat} {s0 : State} (a0 : LinkCfg) (a1 : AerAck) {s : State} (hs : Within L s0 s) (hl : Sub
    0x4000802f781 L) : Within L s0 (bmeSet a0 a1 s) := by
  unfold bmeSet
  repeat' (first
    | with_reducible assumption | ((with_reducible refine Sub.le ?_ hl); rfl)
    | (intro x; refine Within.cut (L := L) (s := s0) x ?_ ?_; rotate_left; intro hx; clear_value x; rotate_left; subst x)
    | intro _ | lift_lets | with_reducible apply configWrite_within | with_reducible apply releaseNow_within
    | with_reducible apply sendUnmasked_within | split)

theorem bmeClear_within {L : Nat} {s0 : State} (a0 : LinkCfg) (a1 : AerAck) {s : State} (hs : Within L s0 s) (hl : Sub
    0x4000c400f81 L) : Within L s0 (bmeClear a0 a1 s) := by
  unfold bmeClear
  repeat' (first
    | with_reducible assumption | ((with_reducible refine Sub.le ?_ hl); rfl)
    | (intro x; refine Within.cut (L := L) (s := s0) x ?_ ?_; rotate_left; intro hx; clear_value x; rotate_left; subst x)
    | (intro x; clear_value x) | lift_lets | with_reducible apply configWrite_within
    | with_reducible apply holdInRun_within | split)

theorem perstAssert_within {L : Nat} {s0 : State} {s : State} (hs : Within L s0 s) (hl : Sub 0x4000c400f83 L) : Within
    L s0 (perstAssert s) := by
  unfold perstAssert
  repeat' (first
    | with_reducible assumption | ((with_reducible refine Sub.le ?_ hl); rfl)
    | ((with_reducible refine Or.inr (Sub.le ?_ hl)); rfl)
    | ((with_reducible refine Or.inl (fun _ => Eq.symm ?_)); rfl) | with_reducible apply holdInRun_within
    | with_reducible apply resetConfig_within | with_reducible apply linkLost_within
    | with_reducible apply modLink_within | split)

theorem train_within {L : Nat} {s0 : State} {s : State} (hs : Within L s0 s) (hl : Sub 0x480 L) : Within L s0 (train
    s) := by
  unfold train
  repeat' (first
    | with_reducible assumption | ((with_reducible refine Sub.le ?_ hl); rfl)
    | ((with_reducible refine Or.inr (Sub.le ?_ hl)); rfl)
    | ((with_reducible refine Or.inl (fun _ => Eq.symm ?_)); rfl) | with_reducible apply modLink_within)

theorem functionLevelReset_within {L : Nat} {s0 : State} {s : State} (hs : Within L s0 s) (hl : Sub 0x4000c400f83 L) :
    Within L s0 (functionLevelReset s) := by
  unfold functionLevelReset
  repeat' (first
    | with_reducible assumption | ((with_reducible refine Sub.le ?_ hl); rfl)
    | ((with_reducible refine Or.inr (Sub.le ?_ hl)); rfl)
    | (intro x; refine Within.cut (L := L) (s := s0) x ?_ ?_; rotate_left; intro hx; clear_value x; rotate_left; subst x)
    | intro _ | ((with_reducible refine Or.inl (fun _ => Eq.symm ?_)); rfl) | lift_lets
    | with_reducible apply resetConfig_within | with_reducible apply modLink_within
    | with_reducible apply holdInRun_within | with_reducible apply train_within | split)

theorem linkTrainingStart_within {L : Nat} {s0 : State} {s : State} (hs : Within L s0 s) (hl : Sub 0x480 L) : Within L
    s0 (linkTrainingStart s) := by
  unfold linkTrainingStart
  repeat' (first
    | with_reducible assumption | ((with_reducible refine Sub.le ?_ hl); rfl)
    | ((with_reducible refine Or.inr (Sub.le ?_ hl)); rfl)
    | ((with_reducible refine Or.inl (fun _ => Eq.symm ?_)); rfl) | with_reducible apply train_within
    | with_reducible apply modLink_within | split)

theorem linkDown_within {L : Nat} {s0 : State} {s : State} (hs : Within L s0 s) (hl : Sub (orAll s0 0x73ff8ffb4d7) L)
    : Within L s0 (linkDown s) := by
  unfold linkDown
  repeat' (first
    | with_reducible assumption | ((with_reducible refine Sub.some ?_ ?_ hl) <;> rfl)
    | (intro x; refine Within.cut (L := L) (s := s0) x ?_ ?_; rotate_left; intro hx; clear_value x; rotate_left; subst x)
    | intro _ | lift_lets | with_reducible apply linkLost_within | with_reducible apply train_within
    | with_reducible apply raiseOnce_within | split)

theorem linkRetrain_within {L : Nat} {s0 : State} {s : State} (hs : Within L s0 s) (hl : Sub 0x480 L) : Within L s0
    (linkRetrain s) := by
  unfold linkRetrain
  repeat' (first | with_reducible assumption | with_reducible apply train_within | split)

theorem linkUp_within {L : Nat} {s0 : State} (a0 : Bool) {s : State} (hs : Within L s0 s) (hl : Sub 0x8000481 L) :
    Within L s0 (linkUp a0 s) := by
  unfold linkUp
  repeat' (first
    | with_reducible assumption | ((with_reducible refine Sub.le ?_ hl); rfl)
    | ((with_reducible refine Or.inr (Sub.le ?_ hl)); rfl)
    | (intro x; refine Within.cut (L := L) (s := s0) x ?_ ?_; rotate_left; intro hx; clear_value x; rotate_left; subst x)
    | intro _ | ((with_reducible refine Or.inl (fun _ => Eq.symm ?_)); rfl) | lift_lets
    | with_reducible apply modLink_within | with_reducible apply endCause_within | with_reducible apply sendLtr_within
    | with_reducible apply sendUnmasked_within | with_reducible apply shadowPage_within | split)

theorem l1Entry_within {L : Nat} {s0 : State} (a0 : Fin 3) {s : State} (hs : Within L s0 s) (hl : Sub 0x480 L) :
    Within L s0 (l1Entry a0 s) := by
  unfold l1Entry
  repeat' (first
    | with_reducible assumption | ((with_reducible refine Sub.le ?_ hl); rfl)
    | ((with_reducible refine Or.inr (Sub.le ?_ hl)); rfl) | (intro x; clear_value x)
    | ((with_reducible refine Or.inl (fun _ => Eq.symm ?_)); rfl) | lift_lets | with_reducible apply modLink_within
    | split)

theorem l1Exit_within {L : Nat} {s0 : State} (a0 : Bool) {s : State} (hs : Within L s0 s) (hl : Sub 0x480 L) : Within
    L s0 (l1Exit a0 s) := by
  unfold l1Exit
  repeat' (first
    | with_reducible assumption | ((with_reducible refine Sub.le ?_ hl); rfl)
    | ((with_reducible refine Or.inr (Sub.le ?_ hl)); rfl)
    | ((with_reducible refine Or.inl (fun _ => Eq.symm ?_)); rfl) | with_reducible apply modLink_within | split)

theorem vectorUnmask_within {L : Nat} {s0 : State} (a0 : Fin 32) {s : State} (hs : Within L s0 s) (hl : Sub 0x181 L) :
    Within L s0 (vectorUnmask a0 s) := by
  unfold vectorUnmask
  repeat' (first
    | with_reducible assumption | ((with_reducible refine Sub.le ?_ hl); rfl)
    | ((with_reducible refine Or.inr (Sub.le ?_ hl)); rfl) | (intro x; clear_value x)
    | ((with_reducible refine Or.inl (fun _ => Eq.symm ?_)); rfl) | lift_lets
    | with_reducible apply sendUnmasked_within | with_reducible apply modLink_within | split)

theorem linkPollWrite_within {L : Nat} {s0 : State} (a0 : Word) {s : State} (hs : Within L s0 s) (hl : Sub 0xc000c3 L)
    : Within L s0 (linkPollWrite a0 s) := by
  unfold linkPollWrite
  repeat' (first
    | with_reducible assumption | ((with_reducible refine Sub.le ?_ hl); rfl)
    | (intro x; refine Within.cut (L := L) (s := s0) x ?_ ?_; rotate_left; intro hx; clear_value x; rotate_left; subst x)
    | intro _ | lift_lets | with_reducible apply setupRecord_within | with_reducible apply storeFields_within
    | with_reducible apply sendLtr_within | split)

theorem aerUncorrectable_within {L : Nat} {s0 : State} (a0 : Word) (a1 : Word) {s : State} (hs : Within L s0 s) (hl :
    Sub (orAll s0 0x73ff8ffb4d7) L) : Within L s0 (aerUncorrectable a0 a1 s) := by
  unfold aerUncorrectable
  repeat' (first
    | with_reducible assumption | ((with_reducible refine Sub.some ?_ ?_ hl) <;> rfl)
    | ((with_reducible refine Or.inr (Sub.some ?_ ?_ hl)) <;> rfl)
    | (intro x; refine Within.cut (L := L) (s := s0) x ?_ ?_; rotate_left; intro hx; clear_value x; rotate_left; subst x)
    | (intro x; clear_value x) | ((with_reducible refine Or.inl (fun _ => Eq.symm ?_)); rfl) | lift_lets
    | with_reducible apply countReg_within | with_reducible apply modLink_within
    | with_reducible apply raiseOnce_within | split)

theorem holdRecord_within {L : Nat} {s0 : State} (a0 : Bool) {s : State} (hs : Within L s0 s) (hl : Sub 0xc00040 L) :
    Within L s0 (holdRecord a0 s) := by
  unfold holdRecord
  repeat' (first | with_reducible assumption | with_reducible apply setupRecord_within)

theorem execHoldSet_within {L : Nat} {s0 : State} {s : State} (hs : Within L s0 s) (hl : Sub 0x40004c00ac1 L) :
    WithinOut L s0 (execHoldSet s) := by
  unfold execHoldSet
  repeat' (first
    | with_reducible assumption | ((with_reducible refine Sub.le ?_ hl); rfl) | with_reducible apply holdSet_within
    | with_reducible apply holdRecord_within | with_reducible apply WithinOut.next | split)

theorem execHoldRelease_within {L : Nat} {s0 : State} {s : State} (hs : Within L s0 s) (hl : Sub 0x40000c2f2c1 L) :
    WithinOut L s0 (execHoldRelease s) := by
  unfold execHoldRelease
  repeat' (first
    | with_reducible assumption | ((with_reducible refine Sub.le ?_ hl); rfl)
    | with_reducible apply writeRelease_within | with_reducible apply holdRecord_within
    | with_reducible apply WithinOut.next | split)

theorem execHoldReleaseWait_within {L : Nat} {s0 : State} {s : State} (hs : Within L s0 s) (hl : Sub 0x40000c2f2c1 L)
    : WithinOut L s0 (execHoldReleaseWait s) := by
  unfold execHoldReleaseWait
  repeat' (first
    | with_reducible assumption | ((with_reducible refine Sub.le ?_ hl); rfl)
    | with_reducible apply writeRelease_within | with_reducible apply holdRecord_within
    | with_reducible apply WithinOut.next | split)

theorem execBmeSet_within {L : Nat} {s0 : State} (a0 : LinkCfg) (a1 : AerAck) {s : State} (hs : Within L s0 s) (hl :
    Sub 0x4000802f781 L) : WithinOut L s0 (execBmeSet a0 a1 s) := by
  unfold execBmeSet
  repeat' (first
    | with_reducible assumption | with_reducible apply bmeSet_within | with_reducible apply WithinOut.next)

theorem execBmeClear_within {L : Nat} {s0 : State} (a0 : LinkCfg) (a1 : AerAck) {s : State} (hs : Within L s0 s) (hl :
    Sub 0x4000c400f81 L) : WithinOut L s0 (execBmeClear a0 a1 s) := by
  unfold execBmeClear
  repeat' (first
    | with_reducible assumption | with_reducible apply bmeClear_within | with_reducible apply WithinOut.next)

theorem execPerstAssert_within {L : Nat} {s0 : State} {s : State} (hs : Within L s0 s) (hl : Sub 0x4000c400f83 L) :
    WithinOut L s0 (execPerstAssert s) := by
  unfold execPerstAssert
  repeat' (first
    | with_reducible assumption | with_reducible apply perstAssert_within | with_reducible apply WithinOut.next)

theorem execFunctionLevelReset_within {L : Nat} {s0 : State} {s : State} (hs : Within L s0 s) (hl : Sub 0x4000c400f83
    L) : WithinOut L s0 (execFunctionLevelReset s) := by
  unfold execFunctionLevelReset
  repeat' (first
    | with_reducible assumption | with_reducible apply functionLevelReset_within | with_reducible apply WithinOut.next)

theorem execLinkTrainingStart_within {L : Nat} {s0 : State} {s : State} (hs : Within L s0 s) (hl : Sub 0x480 L) :
    WithinOut L s0 (execLinkTrainingStart s) := by
  unfold execLinkTrainingStart
  repeat' (first
    | with_reducible assumption | with_reducible apply linkTrainingStart_within | with_reducible apply WithinOut.next)

theorem execLinkDown_within {L : Nat} {s0 : State} {s : State} (hs : Within L s0 s) (hl : Sub (orAll s0 0x73ff8ffb4d7)
    L) : WithinOut L s0 (execLinkDown s) := by
  unfold execLinkDown
  repeat' (first
    | with_reducible assumption | with_reducible apply linkDown_within | with_reducible apply WithinOut.next)

theorem execLinkRetrain_within {L : Nat} {s0 : State} {s : State} (hs : Within L s0 s) (hl : Sub 0x480 L) : WithinOut
    L s0 (execLinkRetrain s) := by
  unfold execLinkRetrain
  repeat' (first
    | with_reducible assumption | with_reducible apply linkRetrain_within | with_reducible apply WithinOut.next)

theorem execLinkUp_within {L : Nat} {s0 : State} (a0 : Bool) {s : State} (hs : Within L s0 s) (hl : Sub 0x8000481 L) :
    WithinOut L s0 (execLinkUp a0 s) := by
  unfold execLinkUp
  repeat' (first
    | with_reducible assumption | with_reducible apply linkUp_within | with_reducible apply WithinOut.next)

theorem execL1Entry_within {L : Nat} {s0 : State} (a0 : Fin 3) {s : State} (hs : Within L s0 s) (hl : Sub 0x480 L) :
    WithinOut L s0 (execL1Entry a0 s) := by
  unfold execL1Entry
  repeat' (first
    | with_reducible assumption | with_reducible apply l1Entry_within | with_reducible apply WithinOut.next)

theorem execL1Exit_within {L : Nat} {s0 : State} (a0 : Bool) {s : State} (hs : Within L s0 s) (hl : Sub 0x480 L) :
    WithinOut L s0 (execL1Exit a0 s) := by
  unfold execL1Exit
  repeat' (first
    | with_reducible assumption | with_reducible apply l1Exit_within | with_reducible apply WithinOut.next)

theorem execVectorUnmask_within {L : Nat} {s0 : State} (a0 : Fin 32) {s : State} (hs : Within L s0 s) (hl : Sub 0x181
    L) : WithinOut L s0 (execVectorUnmask a0 s) := by
  unfold execVectorUnmask
  repeat' (first
    | with_reducible assumption | with_reducible apply vectorUnmask_within | with_reducible apply WithinOut.next)

theorem execDmaReadFail_within {L : Nat} {s0 : State} (a0 : ReadOf) (a1 : ReadError) {s : State} (hs : Within L s0 s)
    (hl : Sub (orAll s0 0x73ffcffbed7) L) : WithinOut L s0 (execDmaReadFail a0 a1 s) := by
  unfold execDmaReadFail
  repeat' (first
    | with_reducible assumption | with_reducible apply dmaReadFail_within | with_reducible apply WithinOut.next)

theorem execAerUncorrectable_within {L : Nat} {s0 : State} (a0 : Word) (a1 : Word) {s : State} (hs : Within L s0 s)
    (hl : Sub (orAll s0 0x73ff8ffb4d7) L) : WithinOut L s0 (execAerUncorrectable a0 a1 s) := by
  unfold execAerUncorrectable
  repeat' (first
    | with_reducible assumption | with_reducible apply aerUncorrectable_within | with_reducible apply WithinOut.next)

/-! ### Machine/Door.lean -/

theorem retireTold_within {L : Nat} {s0 : State} (a0 : Fin 2) (a1 : Nat) {s : State} (hs : Within L s0 s) (hl : Sub
    (orAll s0 0x73ff8ffb4d7) L) : Within L s0 (retireTold a0 a1 s) := by
  unfold retireTold
  repeat' (first
    | with_reducible assumption | ((with_reducible refine Sub.some ?_ ?_ hl) <;> rfl)
    | ((with_reducible refine Sub.both ?_ hl); rfl) | with_reducible apply sendVector_within
    | with_reducible apply event_within | with_reducible apply raise_within)

theorem retireBank_within {L : Nat} {s0 : State} (a0 : Fin 2) (a1 : Nat) {s : State} (hs : Within L s0 s) (hl : Sub
    (orAll s0 0x73ff8ffb4d7) L) : Within L s0 (retireBank a0 a1 s) := by
  unfold retireBank
  repeat' (first
    | with_reducible assumption | ((with_reducible refine Sub.some ?_ ?_ hl) <;> rfl)
    | (with_reducible refine modBank_within _ _ ?_ (Sub.some rfl rfl hl) (fun _ _ h => h))
    | (intro x; refine Within.cut (L := L) (s := s0) x ?_ ?_; rotate_left; intro hx; clear_value x; rotate_left; subst x)
    | intro _ | lift_lets | with_reducible apply modBank_within | with_reducible apply retireTold_within
    | with_reducible apply commit_within | split)

theorem judgeFull_within {L : Nat} {s0 : State} {s : State} (hs : Within L s0 s) (hl : Sub 0x44a083 L) : Within L s0
    (judgeFull s) := by
  unfold judgeFull
  repeat' (first
    | with_reducible assumption | ((with_reducible refine Sub.le ?_ hl); rfl)
    | ((with_reducible refine Or.inl (fun _ => Eq.symm ?_)); rfl) | (intro _; (with_reducible refine Eq.symm ?_); rfl)
    | with_reducible apply modJnl_within | with_reducible apply sendVector_within | with_reducible apply event_within
    | split)

theorem setDue_within {L : Nat} {s0 : State} (a0 : Nat) (a1 : BodyDue) {s : State} (hs : Within L s0 s) (hl : Sub
    0x20000000080 L) : Within L s0 (setDue a0 a1 s) := by
  unfold setDue
  repeat' (first
    | with_reducible assumption | ((with_reducible refine Sub.le ?_ hl); rfl)
    | ((with_reducible refine Or.inl (fun _ => Eq.symm ?_)); rfl) | with_reducible apply modLink_within
    | with_reducible apply modUsb_within | split)

theorem queueJob_within {L : Nat} {s0 : State} (a0 : Job) {s : State} (hs : Within L s0 s) (hl : Sub 0x4400000 L) :
    Within L s0 (queueJob a0 s) := by
  unfold queueJob
  repeat' (first
    | with_reducible assumption | ((with_reducible refine Sub.le ?_ hl); rfl)
    | ((with_reducible refine Or.inr (Sub.le ?_ hl)); rfl)
    | ((with_reducible refine Or.inl (fun _ => Eq.symm ?_)); rfl) | (intro _; (with_reducible refine Eq.symm ?_); rfl)
    | with_reducible apply modJnl_within)

theorem modSq_within {L : Nat} {s0 : State} (a0 : Fin 16) (a1 : SqRing → SqRing) {s : State} (hs : Within L s0 s) (hl
    : Sub 0x880 L) : Within L s0 (modSq a0 a1 s) := by
  unfold modSq
  repeat' (first
    | with_reducible assumption | ((with_reducible refine Sub.le ?_ hl); rfl)
    | ((with_reducible refine Or.inr (Sub.le ?_ hl)); rfl)
    | ((with_reducible refine Or.inl (fun _ => Eq.symm ?_)); rfl) | with_reducible apply modLink_within)

theorem tookSq_within {L : Nat} {s0 : State} (a0 : Fin 16) {s : State} (hs : Within L s0 s) (hl : Sub 0x8880 L) :
    Within L s0 (tookSq a0 s) := by
  unfold tookSq
  repeat' (first
    | with_reducible assumption | ((with_reducible refine Sub.le ?_ hl); rfl) | (intro x; clear_value x)
    | ((with_reducible refine Or.inl (fun _ => Eq.symm ?_)); rfl) | (intro _; (with_reducible refine Eq.symm ?_); rfl)
    | lift_lets | with_reducible apply modEng_within | with_reducible apply modSq_within)

theorem rseqMiss_within {L : Nat} {s0 : State} (a0 : Fin 16) (a1 : Item) {s : State} (hs : Within L s0 s) (hl : Sub
    0x4408880 L) : Within L s0 (rseqMiss a0 a1 s) := by
  unfold rseqMiss
  repeat' (first
    | with_reducible assumption | ((with_reducible refine Sub.le ?_ hl); rfl)
    | ((with_reducible refine Or.inl (fun _ => Eq.symm ?_)); rfl) | (intro _; (with_reducible refine Eq.symm ?_); rfl)
    | with_reducible apply queueJob_within | with_reducible apply tookSq_within | with_reducible apply modEng_within
    | with_reducible apply modSq_within | split)

theorem readSq_within {L : Nat} {s0 : State} (a0 : Fin 16) {s : State} (hs : Within L s0 s) (hl : Sub 0x1 L) : Within
    L s0 (readSq a0 s) := by
  unfold readSq
  repeat' (first | with_reducible assumption | with_reducible apply memRead_within)

theorem descriptorArrival_within {L : Nat} {s0 : State} (a0 : Fin 16) (a1 : Descriptor) {s : State} (hs : Within L s0
    s) (hl : Sub 0x444a883 L) : Within L s0 (descriptorArrival a0 a1 s) := by
  unfold descriptorArrival
  repeat' (first
    | with_reducible assumption | ((with_reducible refine Sub.le ?_ hl); rfl)
    | ((with_reducible refine Or.inr (Sub.le ?_ hl)); rfl)
    | (intro x; refine Within.cut (L := L) (s := s0) x ?_ ?_; rotate_left; intro hx; clear_value x; rotate_left; subst x)
    | (intro x; clear_value x) | ((with_reducible refine Or.inl (fun _ => Eq.symm ?_)); rfl) | lift_lets
    | with_reducible apply judgeFull_within | with_reducible apply modLink_within | with_reducible apply readSq_within
    | with_reducible apply rseqMiss_within | with_reducible apply queueJob_within | with_reducible apply tookSq_within
    | split)

theorem trackBody_within {L : Nat} {s0 : State} (a0 : Item) (a1 : Word) (a2 : Bool) {s : State} (hs : Within L s0 s)
    (hl : Sub 0x20000018080 L) : Within L s0 (trackBody a0 a1 a2 s) := by
  unfold trackBody
  repeat' (first
    | with_reducible assumption | ((with_reducible refine Sub.le ?_ hl); rfl)
    | (intro x; refine Within.cut (L := L) (s := s0) x ?_ ?_; rotate_left; intro hx; clear_value x; rotate_left; subst x)
    | (intro x; clear_value x) | lift_lets | with_reducible apply armSees_within | with_reducible apply setDue_within
    | split)

theorem noteTag_within {L : Nat} {s0 : State} (a0 : DWord) {s : State} (hs : Within L s0 s) (hl : Sub 0x400000 L) :
    Within L s0 (noteTag a0 s) := by
  unfold noteTag
  repeat' (first
    | with_reducible assumption
    | (with_reducible refine modJnl_within' _ ?_ (Sub.le rfl hl) (fun _ => Good.jnl ⟨id, id, id, id, id, fun _ => List.length_take_le _ _, id⟩) ?_ ?_ ?_ ?_ ?_)
    | ((with_reducible refine Or.inl (fun _ => Eq.symm ?_)); rfl))

theorem noteLatency_within {L : Nat} {s0 : State} (a0 : Time) {s : State} (hs : Within L s0 s) (hl : Sub 0x2 L) :
    Within L s0 (noteLatency a0 s) := by
  unfold noteLatency
  repeat' (first
    | with_reducible assumption | (intro x; clear_value x) | lift_lets | with_reducible apply modReg_within)

theorem lastTagOf_within {L : Nat} {s0 : State} (a0 : Job) {s : State} (hs : Within L s0 s) (hl : Sub 0x8000 L) :
    Within L s0 (lastTagOf a0 s) := by
  unfold lastTagOf
  repeat' (first
    | with_reducible assumption | ((with_reducible refine Sub.le ?_ hl); rfl)
    | (with_reducible refine modEng_within' _ ?_ (Sub.le rfl hl) (fun k => upd_keysKept (fun h => ⟨h, rfl⟩) k) (fun _ => Good.eng rfl rfl) ?_ ?_ ?_ ?_ ?_ ?_)
    | ((with_reducible refine Or.inr (Sub.le ?_ hl)); rfl)
    | ((with_reducible refine Or.inl (fun _ => Eq.symm ?_)); rfl) | (intro _; (with_reducible refine Eq.symm ?_); rfl)
    | with_reducible apply modEng_within)

theorem noteAuth_within {L : Nat} {s0 : State} (a0 : Job) {s : State} (hs : Within L s0 s) (hl : Sub 0xc08040 L) :
    Within L s0 (noteAuth a0 s) := by
  unfold noteAuth
  repeat' (first
    | with_reducible assumption | ((with_reducible refine Sub.le ?_ hl); rfl) | with_reducible apply commitNew_within
    | with_reducible apply lastTagOf_within | split)

theorem passSlot_within {L : Nat} {s0 : State} (a0 : Nat) {s : State} (hs : Within L s0 s) (hl : Sub 0x881 L) : Within
    L s0 (passSlot a0 s) := by
  unfold passSlot
  repeat' (first
    | with_reducible assumption | ((with_reducible refine Sub.le ?_ hl); rfl)
    | with_reducible apply shadowWrite_within | with_reducible apply modSq_within | split)

theorem commitAccept_within {L : Nat} {s0 : State} (a0 : Item) {s : State} (hs : Within L s0 s) (hl : Sub 0xc00040 L)
    : Within L s0 (commitAccept a0 s).2 := by
  unfold commitAccept
  repeat' (first
    | with_reducible assumption
    | (intro x; refine Within.cut (L := L) (s := s0) x ?_ ?_; rotate_left; intro hx; clear_value x; rotate_left; subst x)
    | (intro x; clear_value x) | lift_lets | with_reducible apply makeWay_within | with_reducible apply commit_within
    | split)

theorem writeFirst_within {L : Nat} {s0 : State} (a0 : Nat) (a1 : Job) {s : State} (hs : Within L s0 s) (hl : Sub
    0xc00040 L) : Within L s0 (writeFirst a0 a1 s) := by
  unfold writeFirst
  repeat' (first
    | with_reducible assumption | intro _ | with_reducible apply commit_within
    | with_reducible refine Within.foldl ?_ ?_)

theorem writeTorn_within {L : Nat} {s0 : State} (a0 : List Word) {s : State} (hs : Within L s0 s) (hl : Sub 0xc00040
    L) : Within L s0 (writeTorn a0 s) := by
  unfold writeTorn
  have h := commit_within a0 hs (Sub.le rfl hl)
  refine modJnl_within' _ h (Sub.le rfl hl) (fun g k => Good.jnl ⟨id, id, id, id, fun _ => (hs.good g).bankB, id, id⟩ k)
    ?_ ?_ ?_ ?_ ?_
  all_goals first | exact .inl fun _ => rfl | exact .inr (Sub.le rfl hl)

theorem takeIn_within {L : Nat} {s0 : State} (a0 : Item) {s : State} (hs : Within L s0 s) (hl : Sub 0x20000fb90c3 L) :
    Within L s0 (takeIn a0 s) := by
  unfold takeIn
  repeat' (first
    | with_reducible assumption | ((with_reducible refine Sub.le ?_ hl); rfl)
    | ((with_reducible refine Or.inr (Sub.le ?_ hl)); rfl)
    | (intro x; refine Within.cut (L := L) (s := s0) x ?_ ?_; rotate_left; intro hx; clear_value x; rotate_left; subst x)
    | (intro x; clear_value x) | ((with_reducible refine Or.inl (fun _ => Eq.symm ?_)); rfl)
    | (intro _; (with_reducible refine Eq.symm ?_); rfl) | lift_lets | with_reducible apply modEng_within
    | with_reducible apply trackBody_within | with_reducible apply startAll_within
    | with_reducible apply complete_within | split)

theorem commitJob_within {L : Nat} {s0 : State} (a0 : Job) {s : State} (hs : Within L s0 s) (hl : Sub 0x20000fb98c3 L)
    : Within L s0 (commitJob a0 s) := by
  unfold commitJob
  repeat' (first
    | with_reducible assumption | ((with_reducible refine Sub.le ?_ hl); rfl)
    | (intro x; refine Within.cut (L := L) (s := s0) x ?_ ?_; rotate_left; intro hx; clear_value x; rotate_left; subst x)
    | (intro x; refine Within.cut (L := L) (s := s0) x.2 ?_ ?_; rotate_left; intro hx; clear_value x; rotate_left; subst x)
    | (intro x; clear_value x) | lift_lets | with_reducible apply noteLatency_within
    | with_reducible apply noteTag_within | with_reducible apply commitAccept_within
    | with_reducible apply takeIn_within | with_reducible apply noteAuth_within | with_reducible apply passSlot_within
    | with_reducible apply makeWay_within | with_reducible apply trackBody_within
    | with_reducible apply postFinal_within | split)

theorem copyAhead_within {L : Nat} {s0 : State} {s : State} (hs : Within L s0 s) (hl : Sub 0xc00000 L) : Within L s0
    (copyAhead s) := by
  unfold copyAhead
  repeat' (first
    | with_reducible assumption | ((with_reducible refine Sub.le ?_ hl); rfl) | (intro x; clear_value x) | lift_lets
    | with_reducible apply putForced_within | with_reducible apply putRec_within | with_reducible apply forget_within
    | split)

theorem copyBetween_within {L : Nat} {s0 : State} {s : State} (hs : Within L s0 s) (hl : Sub 0xc00000 L) : Within L s0
    (copyBetween s) := by
  unfold copyBetween
  repeat' (first | with_reducible assumption | with_reducible apply copyAhead_within | split)

theorem journalWriteDone_within {L : Nat} {s0 : State} (a0 : Bool) (a1 : Bool) {s : State} (hs : Within L s0 s) (hl :
    Sub (orAll s0 0x73ffcffbed7) L) : Within L s0 (journalWriteDone a0 a1 s) := by
  unfold journalWriteDone
  repeat' (first
    | with_reducible assumption | ((with_reducible refine Sub.some ?_ ?_ hl) <;> rfl)
    | ((with_reducible refine Sub.both ?_ hl); rfl) | ((with_reducible refine Or.inr (Sub.some ?_ ?_ hl)) <;> rfl)
    | (intro x; refine Within.cutF (L := L) (s := s0) x ?_ ?_; rotate_left; intro hfun; clear_value x; rotate_left; subst x)
    | (intro x; clear_value x) | ((with_reducible refine Or.inl (fun _ => Eq.symm ?_)); rfl)
    | (intro _; (with_reducible refine Eq.symm ?_); rfl) | intro _ | lift_lets
    | with_reducible apply retireBank_within | with_reducible apply heldWhenDone_within
    | with_reducible apply refetch_within | with_reducible apply modJnl_within | with_reducible apply judgeFull_within
    | with_reducible apply putForced_within | with_reducible apply copyBetween_within
    | with_reducible apply commitJob_within | with_reducible apply id_within | with_reducible apply hfun | split)

theorem compactOne_within {L : Nat} {s0 : State} {s : State} (hs : Within L s0 s) (hl : Sub 0xc00000 L) : Within L s0
    (compactOne s) := by
  unfold compactOne
  repeat' (first | with_reducible assumption | with_reducible apply copyAhead_within | split)

theorem pollSqs_within {L : Nat} {s0 : State} (a0 : DoorbellPage) {s : State} (hs : Within L s0 s) (hl : Sub 0x880 L)
    : Within L s0 (pollSqs a0 s).1 := by
  unfold pollSqs
  refine foldl_within_fst (fun u q h => ?_) hs
  dsimp only
  split
  · exact modSq_within _ _ h hl
  · exact h

theorem ackCq_within {L : Nat} {s0 : State} (a0 : Fin 16) {s : State} (hs : Within L s0 s) (hl : Sub 0xc28040 L) :
    Within L s0 (ackCq a0 s) := by
  unfold ackCq
  repeat' (first
    | with_reducible assumption | ((with_reducible refine Sub.le ?_ hl); rfl)
    | ((with_reducible refine Or.inr (Sub.le ?_ hl)); rfl)
    | (intro x; refine Within.cut (L := L) (s := s0) x ?_ ?_; rotate_left; intro hx; clear_value x; rotate_left; subst x)
    | (intro x; clear_value x) | ((with_reducible refine Or.inl (fun _ => Eq.symm ?_)); rfl)
    | (intro _; (with_reducible refine Eq.symm ?_); rfl) | lift_lets | with_reducible apply modEng_within
    | with_reducible apply commitAck_within | split)

theorem pollCq_within {L : Nat} {s0 : State} (a0 : DoorbellPage) (a1 : Fin 16) {s : State} (hs : Within L s0 s) (hl :
    Sub 0xc290c0 L) : Within L s0 (pollCq a0 a1 s) := by
  unfold pollCq
  repeat' (first
    | with_reducible assumption | ((with_reducible refine Sub.le ?_ hl); rfl)
    | ((with_reducible refine Or.inr (Sub.le ?_ hl)); rfl)
    | ((with_reducible refine Or.inl (fun _ => Eq.symm ?_)); rfl) | with_reducible apply ackCq_within
    | with_reducible apply modLink_within | split)

theorem pollEq_within {L : Nat} {s0 : State} (a0 : DoorbellPage) {s : State} (hs : Within L s0 s) (hl : Sub 0x4a080 L)
    : Within L s0 (pollEq a0 s) := by
  unfold pollEq
  repeat' (first
    | with_reducible assumption | ((with_reducible refine Sub.le ?_ hl); rfl)
    | (with_reducible refine modEng_within' _ ?_ (Sub.le rfl hl) (fun _ => KeyKept.refl _) (fun _ g => eqLost_first g) ?_ ?_ ?_ ?_ ?_ ?_)
    | ((with_reducible refine Or.inr (Sub.le ?_ hl)); rfl)
    | (intro x; refine Within.cut (L := L) (s := s0) x ?_ ?_; rotate_left; intro hx; clear_value x; rotate_left; subst x)
    | (intro x; clear_value x) | ((with_reducible refine Or.inl (fun _ => Eq.symm ?_)); rfl) | lift_lets
    | with_reducible apply shadowLater_within | with_reducible apply modLink_within
    | with_reducible apply modEng_within | split)

theorem pollSt_within {L : Nat} {s0 : State} (a0 : DoorbellPage) (a1 : Fin 4) {s : State} (hs : Within L s0 s) (hl :
    Sub 0x4080 L) : Within L s0 (pollSt a0 a1 s) := by
  unfold pollSt
  repeat' (first
    | with_reducible assumption | ((with_reducible refine Sub.le ?_ hl); rfl)
    | ((with_reducible refine Or.inr (Sub.le ?_ hl)); rfl)
    | ((with_reducible refine Or.inl (fun _ => Eq.symm ?_)); rfl) | with_reducible apply shadowLater_within
    | with_reducible apply modLink_within | split)

theorem pollTail_within {L : Nat} {s0 : State} (a0 : DoorbellPage) {s : State} (hs : Within L s0 s) (hl : Sub (orAll
    s0 0x73ff8fff4d7) L) : Within L s0 (pollTail a0 s) := by
  unfold pollTail
  repeat' (first
    | with_reducible assumption | ((with_reducible refine Sub.some ?_ ?_ hl) <;> rfl)
    | ((with_reducible refine Sub.both ?_ hl); rfl) | ((with_reducible refine Or.inr (Sub.some ?_ ?_ hl)) <;> rfl)
    | (intro x; refine Within.cut (L := L) (s := s0) x ?_ ?_; rotate_left; intro hx; clear_value x; rotate_left; subst x)
    | intro _ | ((with_reducible refine Or.inl (fun _ => Eq.symm ?_)); rfl) | lift_lets
    | with_reducible apply pollCq_within | with_reducible apply heartbeat_within | with_reducible apply pollSt_within
    | with_reducible apply pollEq_within | with_reducible apply modLink_within
    | with_reducible refine Within.foldl ?_ ?_ | split)

theorem nextInterval_within {L : Nat} {s0 : State} (a0 : Bool) {s : State} (hs : Within L s0 s) (hl : Sub 0x80 L) :
    Within L s0 (nextInterval a0 s) := by
  unfold nextInterval
  repeat' (first
    | with_reducible assumption | ((with_reducible refine Or.inl (fun _ => Eq.symm ?_)); rfl)
    | with_reducible apply modLink_within)

theorem roomAgain_within {L : Nat} {s0 : State} {s : State} (hs : Within L s0 s) (hl : Sub 0x60ee0ffb0c7 L) : Within L
    s0 (roomAgain s) := by
  unfold roomAgain
  repeat' (first
    | with_reducible assumption | ((with_reducible refine Sub.le ?_ hl); rfl) | with_reducible apply retryFires_within
    | with_reducible apply flushOwed_within)

theorem readPage_within {L : Nat} {s0 : State} {s : State} (hs : Within L s0 s) (hl : Sub 0x1 L) : Within L s0
    (readPage s) := by
  unfold readPage
  repeat' (first
    | with_reducible assumption
    | (intro x; refine Within.cut (L := L) (s := s0) x ?_ ?_; rotate_left; intro hx; clear_value x; rotate_left; subst x)
    | (intro x; clear_value x) | lift_lets | with_reducible apply memRead_within | split)

theorem doorbellPoll_within {L : Nat} {s0 : State} (a0 : DoorbellPage) {s : State} (hs : Within L s0 s) (hl : Sub
    (orAll s0 0x73ff8fffcd7) L) : Within L s0 (doorbellPoll a0 s) := by
  unfold doorbellPoll
  repeat' (first
    | with_reducible assumption | ((with_reducible refine Sub.some ?_ ?_ hl) <;> rfl)
    | ((with_reducible refine Sub.both ?_ hl); rfl) | ((with_reducible refine Or.inr (Sub.some ?_ ?_ hl)) <;> rfl)
    | (intro x; refine Within.cut (L := L) (s := s0) x ?_ ?_; rotate_left; intro hx; clear_value x; rotate_left; subst x)
    | (intro x; refine Within.cut (L := L) (s := s0) x.1 ?_ ?_; rotate_left; intro hx; clear_value x; rotate_left; subst x)
    | intro _ | ((with_reducible refine Or.inl (fun _ => Eq.symm ?_)); rfl) | lift_lets
    | with_reducible apply pollSqs_within | with_reducible apply modLink_within | with_reducible apply readPage_within
    | with_reducible apply judgeRings_within | with_reducible apply pollTail_within
    | with_reducible apply nextInterval_within | with_reducible apply roomAgain_within
    | with_reducible apply judgeFull_within | with_reducible apply drainEvents_within
    | with_reducible apply shadowWrite_within | with_reducible apply shadowChanges_within | split)

theorem execDescriptorArrival_within {L : Nat} {s0 : State} (a0 : Fin 16) (a1 : Descriptor) {s : State} (hs : Within L
    s0 s) (hl : Sub 0x444a883 L) : WithinOut L s0 (execDescriptorArrival a0 a1 s) := by
  unfold execDescriptorArrival
  repeat' (first
    | with_reducible assumption | with_reducible apply descriptorArrival_within | with_reducible apply WithinOut.next)

theorem execJournalWriteDone_within {L : Nat} {s0 : State} (a0 : Bool) (a1 : Bool) {s : State} (hs : Within L s0 s)
    (hl : Sub (orAll s0 0x73ffcffbed7) L) : WithinOut L s0 (execJournalWriteDone a0 a1 s) := by
  unfold execJournalWriteDone
  repeat' (first
    | with_reducible assumption | with_reducible apply journalWriteDone_within | with_reducible apply WithinOut.next)

theorem execJournalCompaction_within {L : Nat} {s0 : State} {s : State} (hs : Within L s0 s) (hl : Sub 0x60ee0ffb0c7
    L) : WithinOut L s0 (execJournalCompaction s) := by
  unfold execJournalCompaction
  repeat' (first
    | with_reducible assumption | ((with_reducible refine Sub.le ?_ hl); rfl) | with_reducible apply roomAgain_within
    | with_reducible apply compactOne_within | with_reducible apply WithinOut.next)

theorem execCompletionPost_within {L : Nat} {s0 : State} (a0 : Fin 16) {s : State} (hs : Within L s0 s) (hl : Sub
    0xc290c3 L) : WithinOut L s0 (execCompletionPost a0 s) := by
  unfold execCompletionPost
  repeat' (first
    | with_reducible assumption | with_reducible apply postHeld_within | with_reducible apply WithinOut.next)

theorem execDoorbellPoll_within {L : Nat} {s0 : State} (a0 : DoorbellPage) {s : State} (hs : Within L s0 s) (hl : Sub
    (orAll s0 0x73ff8fffcd7) L) : WithinOut L s0 (execDoorbellPoll a0 s) := by
  unfold execDoorbellPoll
  repeat' (first
    | with_reducible assumption | with_reducible apply doorbellPoll_within | with_reducible apply WithinOut.next)

/-! ### Machine/Calibration.lean -/

theorem holdTrim_within {L : Nat} {s0 : State} (a0 : Nat) (a1 : Word) {s : State} (hs : Within L s0 s) (hl : Sub
    0x8000000000 L) : Within L s0 (holdTrim a0 a1 s) := by
  unfold holdTrim
  repeat' (first
    | with_reducible assumption | (intro x; clear_value x) | lift_lets | with_reducible apply modCal_within)

theorem storeTrim_within {L : Nat} {s0 : State} (a0 : Nat) (a1 : Word) {s : State} (hs : Within L s0 s) (hl : Sub
    0x8000000002 L) : Within L s0 (storeTrim a0 a1 s) := by
  unfold storeTrim
  repeat' (first
    | with_reducible assumption | ((with_reducible refine Sub.le ?_ hl); rfl) | with_reducible apply holdTrim_within
    | with_reducible apply setReg_within)

theorem setTrimmed_within {L : Nat} {s0 : State} {s : State} (hs : Within L s0 s) (hl : Sub 0x8008000000 L) : Within L
    s0 (setTrimmed s) := by
  unfold setTrimmed
  repeat' (first
    | with_reducible assumption | ((with_reducible refine Sub.le ?_ hl); rfl) | with_reducible apply endCause_within
    | with_reducible apply modCal_within)

theorem calRunEntry_within {L : Nat} {s0 : State} {s : State} (hs : Within L s0 s) (hl : Sub (orAll s0 0x73ff8ffb4d7)
    L) : Within L s0 (calRunEntry s) := by
  unfold calRunEntry
  repeat' (first | with_reducible assumption | with_reducible apply raiseOnce_within | split)

theorem clampedEnds_within {L : Nat} {s0 : State} {s : State} (hs : Within L s0 s) (hl : Sub 0x8000000 L) : Within L
    s0 (clampedEnds s) := by
  unfold clampedEnds
  repeat' (first | with_reducible assumption | with_reducible apply endCause_within | split)

theorem setRun_within {L : Nat} {s0 : State} (a0 : CalJob) {s : State} (hs : Within L s0 s) (hl : Sub 0x8000000000 L)
    : Within L s0 (setRun a0 s) := by
  unfold setRun
  repeat' (first | with_reducible assumption | with_reducible apply modCal_within)

theorem calWordDone_within {L : Nat} {s0 : State} (a0 : Bool) (a1 : CalWord) (a2 : CalJob) (a3 : Nat) (a4 : List Nat)
    {s : State} (hs : Within L s0 s) (hl : Sub (orAll s0 0x7bff8ffb4d7) L) : Within L s0 (calWordDone a0 a1 a2 a3 a4
    s) := by
  unfold calWordDone
  repeat' (first
    | with_reducible assumption | ((with_reducible refine Sub.some ?_ ?_ hl) <;> rfl)
    | ((with_reducible refine Sub.both ?_ hl); rfl)
    | (intro x; refine Within.cut (L := L) (s := s0) x ?_ ?_; rotate_left; intro hx; clear_value x; rotate_left; subst x)
    | (intro x; clear_value x) | lift_lets | with_reducible apply setRun_within
    | with_reducible apply storeTrim_within | with_reducible apply event_within | with_reducible apply raise_within
    | split)

theorem calOne_within {L : Nat} {s0 : State} (a0 : Bool) (a1 : CalWord) {s : State} (hs : Within L s0 s) (hl : Sub
    (orAll s0 0x7bff8ffb4d7) L) : Within L s0 (calOne a0 a1 s) := by
  unfold calOne
  repeat' (first | with_reducible assumption | with_reducible apply calWordDone_within | split)

theorem calFails_within {L : Nat} {s0 : State} (a0 : Word) (a1 : Nat) {s : State} (hs : Within L s0 s) (hl : Sub
    (orAll s0 0x73ff8ffb4d7) L) : Within L s0 (calFails a0 a1 s) := by
  unfold calFails
  repeat' (first
    | with_reducible assumption | ((with_reducible refine Sub.some ?_ ?_ hl) <;> rfl)
    | with_reducible apply complete_within | with_reducible apply raiseLatched_within)

theorem calRelease_within {L : Nat} {s0 : State} {s : State} (hs : Within L s0 s) (hl : Sub 0x9000000002 L) : Within L
    s0 (calRelease s) := by
  unfold calRelease
  repeat' (first | with_reducible assumption | with_reducible apply nextWork_within)

theorem calOver_within {L : Nat} {s0 : State} (a0 : CalJob) {s : State} (hs : Within L s0 s) (hl : Sub (orAll s0
    0x7bff8ffb4d7) L) : Within L s0 (calOver a0 s) := by
  unfold calOver
  repeat' (first
    | with_reducible assumption | ((with_reducible refine Sub.some ?_ ?_ hl) <;> rfl)
    | ((with_reducible refine Sub.both ?_ hl); rfl)
    | (intro x; refine Within.cut (L := L) (s := s0) x ?_ ?_; rotate_left; intro hx; clear_value x; rotate_left; subst x)
    | (intro x; clear_value x) | lift_lets | with_reducible apply modCal_within
    | with_reducible apply calRelease_within | with_reducible apply clampedEnds_within
    | with_reducible apply setTrimmed_within | with_reducible apply calFails_within
    | with_reducible apply complete_within | with_reducible apply event_within | split)

theorem calGoes_within {L : Nat} {s0 : State} (a0 : Bool) (a1 : List CalWord) {s : State} (hs : Within L s0 s) (hl :
    Sub (orAll s0 0x7bff8ffb4d7) L) : Within L s0 (calGoes a0 a1 s) := by
  unfold calGoes
  repeat' (first
    | with_reducible assumption | ((with_reducible refine Sub.some ?_ ?_ hl) <;> rfl)
    | ((with_reducible refine Sub.both ?_ hl); rfl)
    | (intro x; refine Within.cut (L := L) (s := s0) x ?_ ?_; rotate_left; intro hx; clear_value x; rotate_left; subst x)
    | (intro x; clear_value x) | intro _ | lift_lets | with_reducible apply calOne_within
    | with_reducible apply calOver_within | with_reducible apply calRelease_within
    | with_reducible refine Within.foldl ?_ ?_ | split)

theorem calRun_within {L : Nat} {s0 : State} (a0 : Word) (a1 : Nat) (a2 : Nat) (a3 : List CalWord) {s : State} (hs :
    Within L s0 s) (hl : Sub (orAll s0 0x7bff8ffb4d7) L) : Within L s0 (calRun a0 a1 a2 a3 s) := by
  unfold calRun
  repeat' (first
    | with_reducible assumption | ((with_reducible refine Sub.some ?_ ?_ hl) <;> rfl)
    | ((with_reducible refine Sub.both ?_ hl); rfl)
    | (intro x; refine Within.cut (L := L) (s := s0) x ?_ ?_; rotate_left; intro hx; clear_value x; rotate_left; subst x)
    | (intro x; clear_value x) | intro _ | lift_lets | with_reducible apply calGoes_within
    | with_reducible apply beginWork_within | with_reducible apply refuseOperand_within
    | with_reducible apply complete_within | with_reducible apply modCal_within
    | with_reducible apply commitStart_within | with_reducible apply calFails_within
    | with_reducible apply setRun_within | split)

theorem keepEmber_within {L : Nat} {s0 : State} {s : State} (hs : Within L s0 s) (hl : Sub 0x2 L) : Within L s0
    (keepEmber s) := by
  unfold keepEmber
  repeat' (first | with_reducible assumption | with_reducible apply setReg_within | split)

theorem setCalCrc_within {L : Nat} {s0 : State} (a0 : Word) {s : State} (hs : Within L s0 s) (hl : Sub 0x8000000000 L)
    : Within L s0 (setCalCrc a0 s) := by
  unfold setCalCrc
  repeat' (first | with_reducible assumption | with_reducible apply modCal_within)

theorem calSnapshot_within {L : Nat} {s0 : State} (a0 : Word) {s : State} (hs : Within L s0 s) (hl : Sub 0x28ea0fb90c3
    L) : Within L s0 (calSnapshot a0 s) := by
  unfold calSnapshot
  repeat' (first
    | with_reducible assumption | ((with_reducible refine Sub.le ?_ hl); rfl)
    | (intro x; refine Within.cut (L := L) (s := s0) x ?_ ?_; rotate_left; intro hx; clear_value x; rotate_left; subst x)
    | (intro x; clear_value x) | intro _ | lift_lets | with_reducible apply beginWork_within
    | with_reducible apply complete_within | with_reducible apply keepEmber_within
    | with_reducible apply failDma_within | with_reducible apply setCalCrc_within
    | with_reducible apply memWords_within | with_reducible apply commitStart_within | split)

theorem seedEmber_within {L : Nat} {s0 : State} {s : State} (hs : Within L s0 s) (hl : Sub 0x40 L) : Within L s0
    (seedEmber s) := by
  unfold seedEmber
  repeat' (first | with_reducible assumption | with_reducible apply modClk_within | split)

theorem calLoad_within {L : Nat} {s0 : State} (a0 : List Word) {s : State} (hs : Within L s0 s) (hl : Sub 0x8000000002
    L) : Within L s0 (calLoad a0 s) := by
  unfold calLoad
  repeat' (first
    | with_reducible assumption | ((with_reducible refine Sub.le ?_ hl); rfl) | intro _
    | with_reducible apply setReg_within | with_reducible apply storeTrim_within
    | with_reducible refine Within.foldl ?_ ?_)

theorem calRestore_within {L : Nat} {s0 : State} (a0 : Word) (a1 : ItemRead) {s : State} (hs : Within L s0 s) (hl :
    Sub 0x28ea8ffb0c3 L) : Within L s0 (calRestore a0 a1 s) := by
  unfold calRestore
  repeat' (first
    | with_reducible assumption | ((with_reducible refine Sub.le ?_ hl); rfl)
    | (intro x; refine Within.cut (L := L) (s := s0) x ?_ ?_; rotate_left; intro hx; clear_value x; rotate_left; subst x)
    | intro _ | lift_lets | with_reducible apply beginWork_within | with_reducible apply complete_within
    | with_reducible apply itemRead_within | with_reducible apply clampedEnds_within
    | with_reducible apply seedEmber_within | with_reducible apply calLoad_within
    | with_reducible apply commitStart_within | with_reducible apply modCal_within
    | with_reducible apply setTrimmed_within | with_reducible apply setCalCrc_within
    | with_reducible apply event_within | split)

theorem execCalSnapshot_within {L : Nat} {s0 : State} (a0 : Word) {s : State} (hs : Within L s0 s) (hl : Sub
    0x28ea0fb90c3 L) : WithinOut L s0 (execCalSnapshot a0 s) := by
  unfold execCalSnapshot
  repeat' (first
    | with_reducible assumption | with_reducible apply calSnapshot_within | with_reducible apply WithinOut.next)

theorem execCalRestore_within {L : Nat} {s0 : State} (a0 : Word) (a1 : ItemRead) {s : State} (hs : Within L s0 s) (hl
    : Sub 0x28ea8ffb0c3 L) : WithinOut L s0 (execCalRestore a0 a1 s) := by
  unfold execCalRestore
  repeat' (first
    | with_reducible assumption | with_reducible apply calRestore_within | with_reducible apply WithinOut.next)

theorem execCalRun_within {L : Nat} {s0 : State} (a0 : Word) (a1 : Nat) (a2 : Nat) (a3 : List CalWord) {s : State} (hs
    : Within L s0 s) (hl : Sub (orAll s0 0x7bff8ffb4d7) L) : WithinOut L s0 (execCalRun a0 a1 a2 a3 s) := by
  unfold execCalRun
  repeat' (first
    | with_reducible assumption | with_reducible apply calRun_within | with_reducible apply WithinOut.next)

/-! ### Machine/TwoWire.lean -/

theorem modPartner_within {L : Nat} {s0 : State} (a0 : Nat) (a1 : Partner → Partner) {s : State} (hs : Within L s0 s)
    (hl : Sub 0x10000000000 L) : Within L s0 (modPartner a0 a1 s) := by
  unfold modPartner
  repeat' (first | with_reducible assumption | with_reducible apply setPartner_within)

theorem partnerRecs_within {L : Nat} {s0 : State} (a0 : Nat) (a1 : Word) (a2 : Word) (a3 : Word) (a4 : Word) {s :
    State} (hs : Within L s0 s) (hl : Sub 0xc00040 L) : Within L s0 (partnerRecs a0 a1 a2 a3 a4 s).2 := by
  unfold partnerRecs
  repeat' (first | with_reducible assumption | with_reducible apply hubRecs_within)

theorem findPartner_within {L : Nat} {s0 : State} (a0 : Fin 4) (a1 : Nat) (a2 : PartnerOrigin) {s : State} (hs :
    Within L s0 s) (hl : Sub 0x10000cca0c3 L) : Within L s0 (findPartner a0 a1 a2 s) := by
  unfold findPartner
  repeat' (first
    | with_reducible assumption | ((with_reducible refine Sub.le ?_ hl); rfl)
    | (intro x; refine Within.cut (L := L) (s := s0) x ?_ ?_; rotate_left; intro hx; clear_value x; rotate_left; subst x)
    | (intro x; refine Within.cut (L := L) (s := s0) x.2 ?_ ?_; rotate_left; intro hx; clear_value x; rotate_left; subst x)
    | (intro x; clear_value x) | lift_lets | with_reducible apply setPartner_within
    | with_reducible apply partnerRecs_within | with_reducible apply event_within
    | with_reducible apply noteObject_within)

theorem losePartner_within {L : Nat} {s0 : State} (a0 : Fin 4) (a1 : Nat) {s : State} (hs : Within L s0 s) (hl : Sub
    0x10000eca0c3 L) : Within L s0 (losePartner a0 a1 s) := by
  unfold losePartner
  repeat' (first
    | with_reducible assumption | ((with_reducible refine Sub.le ?_ hl); rfl) | (intro x; clear_value x) | lift_lets
    | with_reducible apply event_within | with_reducible apply endObject_within
    | with_reducible apply partnerRecs_within | with_reducible apply setPartner_within)

theorem noteSeen_within {L : Nat} {s0 : State} (a0 : Nat) {s : State} (hs : Within L s0 s) (hl : Sub 0x10000000000 L)
    : Within L s0 (noteSeen a0 s) := by
  unfold noteSeen
  repeat' (first | with_reducible assumption | with_reducible apply modPartner_within)

theorem chooseNext_within {L : Nat} {s0 : State} (a0 : Fin 4) {s : State} (hs : Within L s0 s) (hl : Sub 0x10000000000
    L) : Within L s0 (chooseNext a0 s) := by
  unfold chooseNext
  repeat' (first
    | with_reducible assumption | (intro x; clear_value x) | lift_lets | with_reducible apply modPort_within | split)

theorem probe_within {L : Nat} {s0 : State} (a0 : Fin 4) (s : State × Census) (a2 : Nat × ProbeAnswer) (hs : Within L
    s0 s.1) (hl : Sub 0x10000cca0c3 L) : Within L s0 (probe a0 s a2).1 := by
  unfold probe
  repeat' (first
    | with_reducible assumption | ((with_reducible refine Sub.le ?_ hl); rfl)
    | (intro x; refine Within.cut (L := L) (s := s0) x ?_ ?_; rotate_left; intro hx; clear_value x; rotate_left; subst x)
    | (intro x; clear_value x) | lift_lets | with_reducible apply emit_within | with_reducible apply noteSeen_within
    | with_reducible apply modPartner_within | with_reducible apply findPartner_within | split)

theorem roundEnd_within {L : Nat} {s0 : State} (a0 : Fin 4) (a1 : Census) {s : State} (hs : Within L s0 s) (hl : Sub
    0x30000ffb0c3 L) : Within L s0 (roundEnd a0 a1 s) := by
  unfold roundEnd
  repeat' (first
    | with_reducible assumption | ((with_reducible refine Sub.le ?_ hl); rfl)
    | (intro x; refine Within.cut (L := L) (s := s0) x ?_ ?_; rotate_left; intro hx; clear_value x; rotate_left; subst x)
    | (intro x; clear_value x) | intro _ | lift_lets | with_reducible apply losePartner_within
    | with_reducible apply event_within | with_reducible apply setReg_within | with_reducible apply portIdle_within
    | with_reducible apply completeOpt_within | with_reducible apply modPort_within
    | with_reducible refine Within.foldl ?_ ?_)

theorem roundRuns_within {L : Nat} {s0 : State} (a0 : Fin 4) (a1 : Census) (a2 : List ProbeAnswer) {s : State} (hs :
    Within L s0 s) (hl : Sub 0x30000ffb0c3 L) : Within L s0 (roundRuns a0 a1 a2 s) := by
  unfold roundRuns
  have hr : ∀ l, Within L s0 (List.foldl (probe a0) (rootWake s, a1) l).1 :=
    fun l => foldl_within_fst (fun u e h => probe_within _ _ e h (Sub.le rfl hl)) (rootWake_within hs (Sub.le rfl hl))
  repeat' (first
    | with_reducible assumption | ((with_reducible refine Sub.le ?_ hl); rfl) | (with_reducible apply hr)
    | (intro x; refine Within.cut (L := L) (s := s0) x.1 ?_ ?_; rotate_left; intro hx; clear_value x; rotate_left; subst x)
    | (intro x; clear_value x) | intro _ | lift_lets | with_reducible apply probe_within
    | with_reducible apply rootWake_within | with_reducible apply roundEnd_within
    | with_reducible apply modPort_within | with_reducible refine Within.foldl ?_ ?_ | split)

theorem attempt_within {L : Nat} {s0 : State} (a0 : Fin 4) {s : State} (hs : Within L s0 s) (hl : Sub 0x10000000041 L)
    : Within L s0 (attempt a0 s) := by
  unfold attempt
  repeat' (first
    | with_reducible assumption | ((with_reducible refine Sub.le ?_ hl); rfl) | (intro x; clear_value x) | lift_lets
    | with_reducible apply emit_within | with_reducible apply modPort_within | with_reducible apply rootWake_within
    | split)

theorem xDone_within {L : Nat} {s0 : State} (a0 : Fin 4) (a1 : List Byte) {s : State} (hs : Within L s0 s) (hl : Sub
    0x30000fb90c3 L) : Within L s0 (xDone a0 a1 s) := by
  unfold xDone
  repeat' (first
    | with_reducible assumption | ((with_reducible refine Sub.le ?_ hl); rfl)
    | (intro x; refine Within.cut (L := L) (s := s0) x ?_ ?_; rotate_left; intro hx; clear_value x; rotate_left; subst x)
    | (intro x; clear_value x) | lift_lets | with_reducible apply modPort_within
    | with_reducible apply noteSeen_within | with_reducible apply xFail_within
    | with_reducible apply noteDmaErr_within | with_reducible apply memWrite_within
    | with_reducible apply modPartner_within | with_reducible apply countReg_within
    | with_reducible apply portIdle_within | with_reducible apply complete_within | split)

theorem nextAttempt_within {L : Nat} {s0 : State} (a0 : Fin 4) {s : State} (hs : Within L s0 s) (hl : Sub
    0x10000000041 L) : Within L s0 (nextAttempt a0 s) := by
  unfold nextAttempt
  repeat' (first
    | with_reducible assumption | ((with_reducible refine Sub.le ?_ hl); rfl) | (intro x; clear_value x) | lift_lets
    | with_reducible apply modPort_within | with_reducible apply attempt_within | split)

theorem xRetry_within {L : Nat} {s0 : State} (a0 : Fin 4) (a1 : Nat) (a2 : Nat) (a3 : Bool) {s : State} (hs : Within L
    s0 s) (hl : Sub 0x30000fb90c3 L) : Within L s0 (xRetry a0 a1 a2 a3 s) := by
  unfold xRetry
  repeat' (first
    | with_reducible assumption | ((with_reducible refine Sub.le ?_ hl); rfl)
    | (intro x; refine Within.cut (L := L) (s := s0) x ?_ ?_; rotate_left; intro hx; clear_value x; rotate_left; subst x)
    | (intro x; clear_value x) | lift_lets | with_reducible apply modPort_within
    | with_reducible apply noteSeen_within | with_reducible apply nextAttempt_within
    | with_reducible apply countReg_within | with_reducible apply xFail_within | split)

theorem attemptRead_within {L : Nat} {s0 : State} (a0 : Fin 4) (a1 : Item) (a2 : List Byte) {s : State} (hs : Within L
    s0 s) (hl : Sub 0x30000fb90c3 L) : Within L s0 (attemptRead a0 a1 a2 s) := by
  unfold attemptRead
  repeat' (first
    | with_reducible assumption | with_reducible apply xRetry_within | with_reducible apply xDone_within | split)

theorem attemptEnd_within {L : Nat} {s0 : State} (a0 : Fin 4) (a1 : AttemptEnd) {s : State} (hs : Within L s0 s) (hl :
    Sub 0x30000fb90c3 L) : Within L s0 (attemptEnd a0 a1 s) := by
  unfold attemptEnd
  repeat' (first
    | with_reducible assumption | with_reducible apply attemptRead_within | with_reducible apply xRetry_within | split)

theorem alertSeen_within {L : Nat} {s0 : State} (a0 : Fin 4) (a1 : Bool) {s : State} (hs : Within L s0 s) (hl : Sub
    0x10008000000 L) : Within L s0 (alertSeen a0 a1 s) := by
  unfold alertSeen
  repeat' (first
    | with_reducible assumption | ((with_reducible refine Sub.le ?_ hl); rfl)
    | (intro x; refine Within.cut (L := L) (s := s0) x ?_ ?_; rotate_left; intro hx; clear_value x; rotate_left; subst x)
    | intro _ | lift_lets | with_reducible apply modPort_within | with_reducible apply endCause_within | split)

theorem portSees_within {L : Nat} {s0 : State} (a0 : Fin 4) (a1 : BusSight) (a2 : Bool) {s : State} (hs : Within L s0
    s) (hl : Sub 0x10008000000 L) : Within L s0 (portSees a0 a1 a2 s) := by
  unfold portSees
  repeat' (first
    | with_reducible assumption | ((with_reducible refine Sub.le ?_ hl); rfl)
    | (intro x; refine Within.cut (L := L) (s := s0) x ?_ ?_; rotate_left; intro hx; clear_value x; rotate_left; subst x)
    | (intro x; clear_value x) | lift_lets | with_reducible apply modPort_within
    | with_reducible apply alertSeen_within | split)

theorem operationStart_within {L : Nat} {s0 : State} (a0 : Fin 4) (a1 : BusSight) (a2 : Bool) {s : State} (hs : Within
    L s0 s) (hl : Sub 0x10008000041 L) : Within L s0 (operationStart a0 a1 a2 s) := by
  unfold operationStart
  repeat' (first
    | with_reducible assumption | ((with_reducible refine Sub.le ?_ hl); rfl)
    | (intro x; refine Within.cut (L := L) (s := s0) x ?_ ?_; rotate_left; intro hx; clear_value x; rotate_left; subst x)
    | intro _ | lift_lets | with_reducible apply portSees_within | with_reducible apply nextAttempt_within
    | with_reducible apply chooseNext_within | split)

theorem twbTimeout_within {L : Nat} {s0 : State} (a0 : Fin 4) (a1 : Nat) (a2 : Bool) {s : State} (hs : Within L s0 s)
    (hl : Sub 0x30000fb90c3 L) : Within L s0 (twbTimeout a0 a1 a2 s) := by
  unfold twbTimeout
  repeat' (first
    | with_reducible assumption | ((with_reducible refine Sub.le ?_ hl); rfl) | with_reducible apply xRetry_within
    | with_reducible apply modPort_within | with_reducible apply countReg_within | split)

theorem afterBegin_within {L : Nat} {s0 : State} (a0 : Fin 4) (a1 : Word) {s : State} (hs : Within L s0 s) (hl : Sub
    0x10000000000 L) : Within L s0 (afterBegin a0 a1 s) := by
  unfold afterBegin
  repeat' (first | with_reducible assumption | with_reducible apply portIdle_within | split)

theorem twbXfer_within {L : Nat} {s0 : State} (a0 : Word) (a1 : ItemRead) {s : State} (hs : Within L s0 s) (hl : Sub
    0x30ea0fb90c3 L) : Within L s0 (twbXfer a0 a1 s) := by
  unfold twbXfer
  repeat' (first
    | with_reducible assumption | ((with_reducible refine Sub.le ?_ hl); rfl) | (intro x; clear_value x) | intro _
    | lift_lets | with_reducible apply afterBegin_within | with_reducible apply beginWork_within
    | with_reducible apply refuseOperand_within | with_reducible apply complete_within
    | with_reducible apply attempt_within | with_reducible apply modPort_within
    | with_reducible apply commitStart_within | with_reducible apply itemRead_within | with_reducible apply hfun
    | split)

theorem twbCensus_within {L : Nat} {s0 : State} (a0 : Word) (a1 : List ProbeAnswer) {s : State} (hs : Within L s0 s)
    (hl : Sub 0x30ea0ffb0c3 L) : Within L s0 (twbCensus a0 a1 s) := by
  unfold twbCensus
  repeat' (first
    | with_reducible assumption | ((with_reducible refine Sub.le ?_ hl); rfl) | (intro x; clear_value x) | intro _
    | lift_lets | with_reducible apply roundRuns_within | with_reducible apply afterBegin_within
    | with_reducible apply beginWork_within | with_reducible apply refuseOperand_within
    | with_reducible apply complete_within | with_reducible apply modPort_within
    | with_reducible apply commitStart_within | split)

theorem periodicCensus_within {L : Nat} {s0 : State} (a0 : Fin 4) (a1 : List ProbeAnswer) {s : State} (hs : Within L
    s0 s) (hl : Sub 0x30000ffb0c3 L) : Within L s0 (periodicCensus a0 a1 s) := by
  unfold periodicCensus
  repeat' (first
    | with_reducible assumption | ((with_reducible refine Sub.le ?_ hl); rfl) | with_reducible apply roundRuns_within
    | with_reducible apply modPort_within | split)

theorem recovery_within {L : Nat} {s0 : State} (a0 : Fin 4) (a1 : Bool) (a2 : Bool) {s : State} (hs : Within L s0 s)
    (hl : Sub (orAll s0 0x73ff8ffb4d7) L) : Within L s0 (recovery a0 a1 a2 s) := by
  unfold recovery
  repeat' (first
    | with_reducible assumption | ((with_reducible refine Sub.some ?_ ?_ hl) <;> rfl)
    | (intro x; refine Within.cut (L := L) (s := s0) x ?_ ?_; rotate_left; intro hx; clear_value x; rotate_left; subst x)
    | (intro x; clear_value x) | lift_lets | with_reducible apply countReg_within
    | with_reducible apply rootWake_within | with_reducible apply raiseOnce_within
    | with_reducible apply modPort_within | with_reducible apply emit_within | with_reducible apply endCause_within
    | with_reducible apply event_within | with_reducible apply attempt_within | split)

theorem busStuck_within {L : Nat} {s0 : State} (a0 : Fin 4) {s : State} (hs : Within L s0 s) (hl : Sub 0x30000fb90c3
    L) : Within L s0 (busStuck a0 s) := by
  unfold busStuck
  repeat' (first
    | with_reducible assumption | ((with_reducible refine Sub.le ?_ hl); rfl) | with_reducible apply complete_within
    | with_reducible apply modPort_within | with_reducible apply xFail_within | split)

theorem alertFrom_within {L : Nat} {s0 : State} (a0 : Fin 4) (a1 : Nat) {s : State} (hs : Within L s0 s) (hl : Sub
    0x10000cca0c3 L) : Within L s0 (alertFrom a0 a1 s) := by
  unfold alertFrom
  repeat' (first
    | with_reducible assumption | ((with_reducible refine Sub.le ?_ hl); rfl)
    | (intro x; refine Within.cut (L := L) (s := s0) x ?_ ?_; rotate_left; intro hx; clear_value x; rotate_left; subst x)
    | (intro x; clear_value x) | lift_lets | with_reducible apply event_within
    | with_reducible apply modPartner_within | with_reducible apply findPartner_within | split)

theorem alertRound_within {L : Nat} {s0 : State} (a0 : Fin 4) {s : State} (a2 : AlertRound) (hs : Within L s0 s) (hl :
    Sub 0x10000cca0c3 L) : Within L s0 (alertRound a0 s a2) := by
  unfold alertRound
  repeat' (first
    | with_reducible assumption | ((with_reducible refine Sub.le ?_ hl); rfl)
    | (intro x; refine Within.cut (L := L) (s := s0) x ?_ ?_; rotate_left; intro hx; clear_value x; rotate_left; subst x)
    | intro _ | lift_lets | with_reducible apply countReg_within | with_reducible apply alertFrom_within | split)

theorem alertSweep_within {L : Nat} {s0 : State} (a0 : Fin 4) (a1 : List AlertRound) (a2 : Bool) {s : State} (hs :
    Within L s0 s) (hl : Sub (orAll s0 0x73ff8ffb4d7) L) : Within L s0 (alertSweep a0 a1 a2 s) := by
  unfold alertSweep
  repeat' (first
    | with_reducible assumption | ((with_reducible refine Sub.some ?_ ?_ hl) <;> rfl)
    | (intro x; refine Within.cut (L := L) (s := s0) x ?_ ?_; rotate_left; intro hx; clear_value x; rotate_left; subst x)
    | (intro x; clear_value x) | intro _ | lift_lets | with_reducible apply alertRound_within
    | with_reducible apply emit_within | with_reducible apply alertSeen_within | with_reducible apply modPort_within
    | with_reducible apply raiseOnce_within | with_reducible apply countReg_within
    | with_reducible refine Within.foldl ?_ ?_ | split)

theorem alertHoldEnd_within {L : Nat} {s0 : State} (a0 : Fin 4) (a1 : Bool) {s : State} (hs : Within L s0 s) (hl : Sub
    0x10008000000 L) : Within L s0 (alertHoldEnd a0 a1 s) := by
  unfold alertHoldEnd
  repeat' (first
    | with_reducible assumption | ((with_reducible refine Sub.le ?_ hl); rfl)
    | (intro x; refine Within.cut (L := L) (s := s0) x ?_ ?_; rotate_left; intro hx; clear_value x; rotate_left; subst x)
    | (intro x; clear_value x) | lift_lets | with_reducible apply modPort_within
    | with_reducible apply alertSeen_within | split)

theorem execTwbXfer_within {L : Nat} {s0 : State} (a0 : Word) (a1 : ItemRead) {s : State} (hs : Within L s0 s) (hl :
    Sub 0x30ea0fb90c3 L) : WithinOut L s0 (execTwbXfer a0 a1 s) := by
  unfold execTwbXfer
  repeat' (first
    | with_reducible assumption | with_reducible apply twbXfer_within | with_reducible apply WithinOut.next)

theorem execTwbCensus_within {L : Nat} {s0 : State} (a0 : Word) (a1 : List ProbeAnswer) {s : State} (hs : Within L s0
    s) (hl : Sub 0x30ea0ffb0c3 L) : WithinOut L s0 (execTwbCensus a0 a1 s) := by
  unfold execTwbCensus
  repeat' (first
    | with_reducible assumption | with_reducible apply twbCensus_within | with_reducible apply WithinOut.next)

theorem execTwbOperationStart_within {L : Nat} {s0 : State} (a0 : Fin 4) (a1 : BusSight) (a2 : Bool) {s : State} (hs :
    Within L s0 s) (hl : Sub 0x10008000041 L) : WithinOut L s0 (execTwbOperationStart a0 a1 a2 s) := by
  unfold execTwbOperationStart
  repeat' (first
    | with_reducible assumption | with_reducible apply operationStart_within | with_reducible apply WithinOut.next)

theorem execTwbAttemptEnd_within {L : Nat} {s0 : State} (a0 : Fin 4) (a1 : AttemptEnd) {s : State} (hs : Within L s0
    s) (hl : Sub 0x30000fb90c3 L) : WithinOut L s0 (execTwbAttemptEnd a0 a1 s) := by
  unfold execTwbAttemptEnd
  repeat' (first
    | with_reducible assumption | with_reducible apply attemptEnd_within | with_reducible apply WithinOut.next)

theorem execTwbTimeout_within {L : Nat} {s0 : State} (a0 : Fin 4) (a1 : Nat) (a2 : Bool) {s : State} (hs : Within L s0
    s) (hl : Sub 0x30000fb90c3 L) : WithinOut L s0 (execTwbTimeout a0 a1 a2 s) := by
  unfold execTwbTimeout
  repeat' (first
    | with_reducible assumption | with_reducible apply twbTimeout_within | with_reducible apply WithinOut.next)

theorem execTwbRecovery_within {L : Nat} {s0 : State} (a0 : Fin 4) (a1 : Bool) (a2 : Bool) {s : State} (hs : Within L
    s0 s) (hl : Sub (orAll s0 0x73ff8ffb4d7) L) : WithinOut L s0 (execTwbRecovery a0 a1 a2 s) := by
  unfold execTwbRecovery
  repeat' (first
    | with_reducible assumption | with_reducible apply recovery_within | with_reducible apply WithinOut.next)

theorem execTwbBusStuck_within {L : Nat} {s0 : State} (a0 : Fin 4) {s : State} (hs : Within L s0 s) (hl : Sub
    0x30000fb90c3 L) : WithinOut L s0 (execTwbBusStuck a0 s) := by
  unfold execTwbBusStuck
  repeat' (first
    | with_reducible assumption | with_reducible apply busStuck_within | with_reducible apply WithinOut.next)

theorem execAlertSweep_within {L : Nat} {s0 : State} (a0 : Fin 4) (a1 : List AlertRound) (a2 : Bool) {s : State} (hs :
    Within L s0 s) (hl : Sub (orAll s0 0x73ff8ffb4d7) L) : WithinOut L s0 (execAlertSweep a0 a1 a2 s) := by
  unfold execAlertSweep
  repeat' (first
    | with_reducible assumption | with_reducible apply alertSweep_within | with_reducible apply WithinOut.next)

theorem execAlertHoldEnd_within {L : Nat} {s0 : State} (a0 : Fin 4) (a1 : Bool) {s : State} (hs : Within L s0 s) (hl :
    Sub 0x10008000000 L) : WithinOut L s0 (execAlertHoldEnd a0 a1 s) := by
  unfold execAlertHoldEnd
  repeat' (first
    | with_reducible assumption | with_reducible apply alertHoldEnd_within | with_reducible apply WithinOut.next)

theorem execPeriodicCensus_within {L : Nat} {s0 : State} (a0 : Fin 4) (a1 : List ProbeAnswer) {s : State} (hs : Within
    L s0 s) (hl : Sub 0x30000ffb0c3 L) : WithinOut L s0 (execPeriodicCensus a0 a1 s) := by
  unfold execPeriodicCensus
  repeat' (first
    | with_reducible assumption | with_reducible apply periodicCensus_within | with_reducible apply WithinOut.next)

/-! ### Machine/FaultCmds.lean -/

theorem usbReattach_within {L : Nat} {s0 : State} {s : State} (hs : Within L s0 s) (hl : Sub 0x2000004a083 L) : Within
    L s0 (usbReattach s) := by
  unfold usbReattach
  repeat' (first
    | with_reducible assumption | ((with_reducible refine Sub.le ?_ hl); rfl) | with_reducible apply event_within
    | with_reducible apply modUsb_within | split)

theorem railCleared_within {L : Nat} {s0 : State} (a0 : Fin 48) {s : State} (hs : Within L s0 s) (hl : Sub 0xfa0000000
    L) : Within L s0 (railCleared a0 s) := by
  unfold railCleared
  repeat' (first
    | with_reducible assumption | ((with_reducible refine Sub.le ?_ hl); rfl)
    | (intro x; refine Within.cut (L := L) (s := s0) x ?_ ?_; rotate_left; intro hx; clear_value x; rotate_left; subst x)
    | intro _ | lift_lets | with_reducible apply release_within | with_reducible apply modRail_within | split)

theorem fanCleared_within {L : Nat} {s0 : State} (a0 : Fin 4) {s : State} (hs : Within L s0 s) (hl : Sub 0x20fa0ffb0c3
    L) : Within L s0 (fanCleared a0 s) := by
  unfold fanCleared
  repeat' (first
    | with_reducible assumption | ((with_reducible refine Sub.le ?_ hl); rfl) | with_reducible apply fanApply_within
    | with_reducible apply modFan_within | split)

theorem objectCleared_within {L : Nat} {s0 : State} (a0 : Nat) (a1 : Nat) {s : State} (hs : Within L s0 s) (hl : Sub
    (orAll s0 0x61ff8ffb4d7) L) : Within L s0 (objectCleared a0 a1 s) := by
  unfold objectCleared
  repeat' (first
    | with_reducible assumption | ((with_reducible refine Sub.some ?_ ?_ hl) <;> rfl)
    | ((with_reducible refine Sub.both ?_ hl); rfl) | with_reducible apply settle_within
    | with_reducible apply lostEndsOf_within | with_reducible apply laneReturn_within
    | with_reducible apply railCleared_within | with_reducible apply modRelay_within
    | with_reducible apply modMotor_within | with_reducible apply fanCleared_within
    | with_reducible apply arbitrate_within | with_reducible apply chgUpdate_within
    | with_reducible apply modChg_within | with_reducible apply usbReattach_within | split)

theorem clearSource_within {L : Nat} {s0 : State} (a0 : Fin 192) (a1 : Nat) {s : State} (hs : Within L s0 s) (hl : Sub
    (orAll s0 0x261ff8ffb4d7) L) : Within L s0 (clearSource a0 a1 s) := by
  unfold clearSource
  repeat' (first
    | with_reducible assumption | ((with_reducible refine Sub.some ?_ ?_ hl) <;> rfl)
    | ((with_reducible refine Sub.both ?_ hl); rfl)
    | (intro x; refine Within.cut (L := L) (s := s0) x ?_ ?_; rotate_left; intro hx; clear_value x; rotate_left; subst x)
    | intro _ | ((with_reducible refine Or.inr (Sub.some ?_ ?_ hl)) <;> rfl) | lift_lets
    | with_reducible apply shedFollow_within | with_reducible apply modSrc_within | with_reducible apply event_within
    | with_reducible apply objectCleared_within)

theorem clearEnds_within {L : Nat} {s0 : State} (a0 : Nat) {s : State} (hs : Within L s0 s) (hl : Sub 0x8000000 L) :
    Within L s0 (clearEnds a0 s) := by
  unfold clearEnds
  repeat' (first | with_reducible assumption | with_reducible apply endCause_within | split)

theorem faultClear_within {L : Nat} {s0 : State} (a0 : Word) (a1 : Nat) {s : State} (hs : Within L s0 s) (hl : Sub
    (orAll s0 0x261ff8ffb4d7) L) : Within L s0 (faultClear a0 a1 s) := by
  unfold faultClear
  repeat' (first
    | with_reducible assumption | ((with_reducible refine Sub.some ?_ ?_ hl) <;> rfl) | (intro x; clear_value x)
    | intro _ | lift_lets | with_reducible apply beginWork_within | with_reducible apply refuseOperand_within
    | with_reducible apply complete_within | with_reducible apply clearSource_within
    | with_reducible apply commitStart_within | with_reducible apply clearEnds_within | split)

theorem faultReactionSet_within {L : Nat} {s0 : State} (a0 : Word) {s : State} (hs : Within L s0 s) (hl : Sub (orAll
    s0 0x73ff8ffb4d7) L) : Within L s0 (faultReactionSet a0 s) := by
  unfold faultReactionSet
  repeat' (first
    | with_reducible assumption | ((with_reducible refine Sub.some ?_ ?_ hl) <;> rfl) | (intro x; clear_value x)
    | intro _ | lift_lets | with_reducible apply beginWork_within | with_reducible apply refuseOperand_within
    | with_reducible apply complete_within | with_reducible apply setReact_within
    | with_reducible apply commitStart_within | with_reducible refine Within.foldl ?_ ?_ | split)

theorem fltReactStore_within {L : Nat} {s0 : State} (a0 : Fin 192) (a1 : Word) (a2 : Word) {s : State} (hs : Within L
    s0 s) (hl : Sub (orAll s0 0x73ff8ffb4d7) L) : Within L s0 (fltReactStore a0 a1 a2 s) := by
  unfold fltReactStore
  repeat' (first
    | with_reducible assumption | ((with_reducible refine Sub.some ?_ ?_ hl) <;> rfl) | (intro x; clear_value x)
    | intro _ | lift_lets | with_reducible apply setReact_within | with_reducible apply setupRecord_within
    | with_reducible apply lockCount_within | split)

theorem headClear_within {L : Nat} {s0 : State} (a0 : Fin 2) {s : State} (hs : Within L s0 s) (hl : Sub 0x8000000 L) :
    Within L s0 (headClear a0 s) := by
  unfold headClear
  repeat' (first
    | with_reducible assumption
    | (with_reducible refine modColl_within _ _ ?_ (Sub.le rfl hl) (fun x h => by rw [List.length_drop]; omega)))

theorem overflowEnds_within {L : Nat} {s0 : State} (a0 : Fin 2) {s : State} (hs : Within L s0 s) (hl : Sub 0x8000000
    L) : Within L s0 (overflowEnds a0 s) := by
  unfold overflowEnds
  repeat' (first
    | with_reducible assumption | (with_reducible refine modColl_within _ _ ?_ (Sub.le rfl hl) (fun x h => h)))

theorem causeEnds_within {L : Nat} {s0 : State} (a0 : Fin 192) (a1 : Fin 16) {s : State} (hs : Within L s0 s) (hl :
    Sub (orAll s0 0x73ff8ffb4d7) L) : Within L s0 (causeEnds a0 a1 s) := by
  unfold causeEnds
  repeat' (first
    | with_reducible assumption | ((with_reducible refine Sub.some ?_ ?_ hl) <;> rfl)
    | ((with_reducible refine Or.inr (Sub.some ?_ ?_ hl)) <;> rfl)
    | (intro x; refine Within.cut (L := L) (s := s0) x ?_ ?_; rotate_left; intro hx; clear_value x; rotate_left; subst x)
    | (intro x; clear_value x) | ((with_reducible refine Or.inl (fun _ => Eq.symm ?_)); rfl)
    | ((with_reducible refine Or.inl (Eq.symm ?_)); rfl) | ((with_reducible refine Eq.symm ?_); rfl) | lift_lets
    | with_reducible apply endCause_within | with_reducible apply modChg_within | with_reducible apply modLink_within
    | with_reducible apply refSelect_within | with_reducible apply modPort_within
    | with_reducible apply usbReattach_within | split | fail_if_no_progress (with_reducible apply Within.parts))

theorem execFaultClear_within {L : Nat} {s0 : State} (a0 : Word) (a1 : Nat) {s : State} (hs : Within L s0 s) (hl : Sub
    (orAll s0 0x261ff8ffb4d7) L) : WithinOut L s0 (execFaultClear a0 a1 s) := by
  unfold execFaultClear
  repeat' (first
    | with_reducible assumption | with_reducible apply faultClear_within | with_reducible apply WithinOut.next)

theorem execFaultReactionSet_within {L : Nat} {s0 : State} (a0 : Word) {s : State} (hs : Within L s0 s) (hl : Sub
    (orAll s0 0x73ff8ffb4d7) L) : WithinOut L s0 (execFaultReactionSet a0 s) := by
  unfold execFaultReactionSet
  repeat' (first
    | with_reducible assumption | with_reducible apply faultReactionSet_within | with_reducible apply WithinOut.next)

theorem ackRecord_within {L : Nat} {s0 : State} (a0 : Fin 2) (a1 : Word) {s : State} (hs : Within L s0 s) (hl : Sub
    0xc00040 L) : Within L s0 (ackRecord a0 a1 s) := by
  unfold ackRecord
  repeat' (first | with_reducible assumption | with_reducible apply setupRecord_within)

theorem execHeadValidClear_within {L : Nat} {s0 : State} (a0 : Fin 2) {s : State} (hs : Within L s0 s) (hl : Sub
    0x8c00040 L) : WithinOut L s0 (execHeadValidClear a0 s) := by
  unfold execHeadValidClear
  repeat' (first
    | with_reducible assumption | ((with_reducible refine Sub.le ?_ hl); rfl) | with_reducible apply headClear_within
    | with_reducible apply ackRecord_within | with_reducible apply WithinOut.next)

theorem execOverflowClear_within {L : Nat} {s0 : State} (a0 : Fin 2) {s : State} (hs : Within L s0 s) (hl : Sub
    0x8c00040 L) : WithinOut L s0 (execOverflowClear a0 s) := by
  unfold execOverflowClear
  repeat' (first
    | with_reducible assumption | ((with_reducible refine Sub.le ?_ hl); rfl)
    | with_reducible apply overflowEnds_within | with_reducible apply ackRecord_within
    | with_reducible apply WithinOut.next)

theorem execFltReactWrite_within {L : Nat} {s0 : State} (a0 : Fin 192) (a1 : Word) {s : State} (hs : Within L s0 s)
    (hl : Sub (orAll s0 0x73ff8ffb4d7) L) : WithinOut L s0 (execFltReactWrite a0 a1 s) := by
  unfold execFltReactWrite
  repeat' (first
    | with_reducible assumption | with_reducible apply fltReactStore_within | with_reducible apply WithinOut.next)

theorem execFaultCauseEnd_within {L : Nat} {s0 : State} (a0 : Fin 192) (a1 : Fin 16) {s : State} (hs : Within L s0 s)
    (hl : Sub (orAll s0 0x73ff8ffb4d7) L) : WithinOut L s0 (execFaultCauseEnd a0 a1 s) := by
  unfold execFaultCauseEnd
  repeat' (first
    | with_reducible assumption | with_reducible apply causeEnds_within | with_reducible apply WithinOut.next)

end Sys2Proof.Machine
end

