-- ==== Sys2Proof/Laws/WithinStart.lean ====
section
/-! SUPPORT. `f_within` for objects, armed work, the journal, grants, replay, start-up, power, register access, the service port and
the tick. -/

namespace Sys2Proof.Machine

/-! ### Machine/House.lean -/

theorem nop_within {L : Nat} {s0 : State} (a0 : Word) {s : State} (hs : Within L s0 s) (hl : Sub 0x20ea0fb90c3 L) :
    Within L s0 (nop a0 s) := by
  unfold nop
  repeat' (first
    | with_reducible assumption | ((with_reducible refine Sub.le ?_ hl); rfl) | intro _
    | with_reducible apply beginWork_within | with_reducible apply complete_within)

theorem fence_within {L : Nat} {s0 : State} (a0 : Word) {s : State} (hs : Within L s0 s) (hl : Sub 0x20ea0fb90c3 L) :
    Within L s0 (fence a0 s) := by
  unfold fence
  repeat' (first
    | with_reducible assumption | ((with_reducible refine Sub.le ?_ hl); rfl) | intro _
    | with_reducible apply beginWork_within | with_reducible apply complete_within)

theorem clearRegs_within {L : Nat} {s0 : State} (a0 : List Nat) {s : State} (hs : Within L s0 s) (hl : Sub 0x2 L) :
    Within L s0 (clearRegs a0 s) := by
  unfold clearRegs
  repeat' (first
    | with_reducible assumption | intro _ | with_reducible apply setReg_within
    | with_reducible refine Within.foldl ?_ ?_)

theorem placeObject_within {L : Nat} {s0 : State} (a0 : Nat) (a1 : Nat) (a2 : Nat → Word) {s : State} (hs : Within L
    s0 s) (hl : Sub 0x6e38000002 L) : Within L s0 (placeObject a0 a1 a2 s) := by
  unfold placeObject
  repeat' (first
    | with_reducible assumption | ((with_reducible refine Sub.le ?_ hl); rfl) | with_reducible apply placeRail_within
    | with_reducible apply clearRegs_within | with_reducible apply setRelay_within
    | with_reducible apply setMotor_within | with_reducible apply setFan_within | with_reducible apply setRule_within
    | split)

theorem setSeq_within {L : Nat} {s0 : State} (a0 : Fin 8) (a1 : Option Seq) {s : State} (hs : Within L s0 s) (hl : Sub
    0x1000000000 L) : Within L s0 (setSeq a0 a1 s) := by
  unfold setSeq
  repeat' (first
    | with_reducible assumption | ((with_reducible refine Or.inr (Sub.le ?_ hl)); rfl)
    | ((with_reducible refine Or.inl (Eq.symm ?_)); rfl) | ((with_reducible refine Eq.symm ?_); rfl)
    | fail_if_no_progress (with_reducible apply Within.parts))

theorem created_within {L : Nat} {s0 : State} (a0 : Word) (a1 : Nat) (a2 : Nat) {s : State} (hs : Within L s0 s) (hl :
    Sub 0x20000fb90c3 L) : Within L s0 (created a0 a1 a2 s) := by
  unfold created
  repeat' (first
    | with_reducible assumption | ((with_reducible refine Sub.le ?_ hl); rfl)
    | (intro x; refine Within.cut (L := L) (s := s0) x ?_ ?_; rotate_left; intro hx; clear_value x; rotate_left; subst x)
    | intro _ | lift_lets | with_reducible apply noteObject_within | with_reducible apply completeH_within)

theorem keepTable_within {L : Nat} {s0 : State} (a0 : Word) (a1 : List Word) {s : State} (hs : Within L s0 s) (hl :
    Sub 0x400000 L) : Within L s0 (keepTable a0 a1 s) := by
  unfold keepTable
  repeat' (first
    | with_reducible assumption | ((with_reducible refine Or.inl (fun _ => Eq.symm ?_)); rfl)
    | (intro _; (with_reducible refine Eq.symm ?_); rfl) | with_reducible apply modJnl_within)

theorem createPartner_within {L : Nat} {s0 : State} (a0 : Word) (a1 : Item) {s : State} (hs : Within L s0 s) (hl : Sub
    0x30000fb90c3 L) : Within L s0 (createPartner a0 a1 s) := by
  unfold createPartner
  repeat' (first
    | with_reducible assumption | ((with_reducible refine Sub.le ?_ hl); rfl) | (intro x; clear_value x) | intro _
    | lift_lets | with_reducible apply refuseOperand_within | with_reducible apply complete_within
    | with_reducible apply created_within | with_reducible apply setPartner_within | split)

theorem freeResult_within {L : Nat} {s0 : State} (a0 : Word) (a1 : Nat) {s : State} (hs : Within L s0 s) (hl : Sub
    0x20000fb90c3 L) : Within L s0 (freeResult a0 a1 s) := by
  unfold freeResult
  repeat' (first
    | with_reducible assumption
    | (intro x; refine Within.cut (L := L) (s := s0) x.2 ?_ ?_; rotate_left; intro hx; clear_value x; rotate_left; subst x)
    | lift_lets | with_reducible apply drawNat_within | with_reducible apply complete_within)

theorem createGraph_within {L : Nat} {s0 : State} (a0 : Word) (a1 : Item) (a2 : Nat) (a3 : ItemRead) {s : State} (hs :
    Within L s0 s) (hl : Sub 0x20040fb90c3 L) : Within L s0 (createGraph a0 a1 a2 a3 s) := by
  unfold createGraph
  repeat' (first
    | with_reducible assumption | ((with_reducible refine Sub.le ?_ hl); rfl) | (intro x; clear_value x) | intro _
    | lift_lets | with_reducible apply itemRead_within | with_reducible apply freeResult_within
    | with_reducible apply complete_within | with_reducible apply created_within
    | with_reducible apply setGraph_within | with_reducible apply keepTable_within | split)

theorem createSeq_within {L : Nat} {s0 : State} (a0 : Word) (a1 : Item) (a2 : Nat) (a3 : ItemRead) {s : State} (hs :
    Within L s0 s) (hl : Sub 0x21000fb90c3 L) : Within L s0 (createSeq a0 a1 a2 a3 s) := by
  unfold createSeq
  repeat' (first
    | with_reducible assumption | ((with_reducible refine Sub.le ?_ hl); rfl) | (intro x; clear_value x) | intro _
    | lift_lets | with_reducible apply freeResult_within | with_reducible apply refuseOperand_within
    | with_reducible apply itemRead_within | with_reducible apply complete_within
    | with_reducible apply created_within | with_reducible apply setSeq_within | with_reducible apply keepTable_within
    | split)

theorem handleCreate_within {L : Nat} {s0 : State} (a0 : Word) (a1 : ItemRead) {s : State} (hs : Within L s0 s) (hl :
    Sub 0x37ef8fb90c3 L) : Within L s0 (handleCreate a0 a1 s) := by
  unfold handleCreate
  repeat' (first
    | with_reducible assumption | ((with_reducible refine Sub.le ?_ hl); rfl) | intro _ | lift_lets
    | with_reducible apply beginWork_within | with_reducible apply refuseOperand_within
    | with_reducible apply createPartner_within | with_reducible apply complete_within
    | with_reducible apply createGraph_within | with_reducible apply createSeq_within
    | with_reducible apply created_within | with_reducible apply placeObject_within | split)

theorem removeObject_within {L : Nat} {s0 : State} (a0 : Nat) (a1 : Nat) {s : State} (hs : Within L s0 s) (hl : Sub
    0x17ff0000006 L) : Within L s0 (removeObject a0 a1 s) := by
  unfold removeObject
  repeat' (first
    | with_reducible assumption | ((with_reducible refine Sub.le ?_ hl); rfl)
    | ((with_reducible refine Or.inl (fun _ => Eq.symm ?_)); rfl) | with_reducible apply removeRail_within
    | with_reducible apply setRelay_within | with_reducible apply release_within
    | with_reducible apply withdrawDemand_within | with_reducible apply setMotor_within
    | with_reducible apply setFan_within | with_reducible apply withdrawFan_within
    | with_reducible apply setSeq_within | with_reducible apply setPartner_within
    | with_reducible apply setRule_within | with_reducible apply setGraph_within | with_reducible apply modPwr_within
    | split)

theorem handleDestroy_within {L : Nat} {s0 : State} (a0 : Word) {s : State} (hs : Within L s0 s) (hl : Sub (orAll s0
    0x77ff0ffb4d7) L) : Within L s0 (handleDestroy a0 s) := by
  unfold handleDestroy
  repeat' (first
    | with_reducible assumption | ((with_reducible refine Sub.some ?_ ?_ hl) <;> rfl)
    | ((with_reducible refine Sub.both ?_ hl); rfl) | intro _ | lift_lets | with_reducible apply beginWork_within
    | with_reducible apply complete_within | with_reducible apply ruleEffects_within
    | with_reducible apply completeBehind_within | with_reducible apply endObject_within
    | with_reducible apply removeObject_within | split)

theorem execNop_within {L : Nat} {s0 : State} (a0 : Word) {s : State} (hs : Within L s0 s) (hl : Sub 0x20ea0fb90c3 L)
    : WithinOut L s0 (execNop a0 s) := by
  unfold execNop
  repeat' (first | with_reducible assumption | with_reducible apply nop_within | with_reducible apply WithinOut.next)

theorem execFence_within {L : Nat} {s0 : State} (a0 : Word) {s : State} (hs : Within L s0 s) (hl : Sub 0x20ea0fb90c3
    L) : WithinOut L s0 (execFence a0 s) := by
  unfold execFence
  repeat' (first
    | with_reducible assumption | with_reducible apply fence_within | with_reducible apply WithinOut.next)

theorem execHandleCreate_within {L : Nat} {s0 : State} (a0 : Word) (a1 : ItemRead) {s : State} (hs : Within L s0 s)
    (hl : Sub 0x37ef8fb90c3 L) : WithinOut L s0 (execHandleCreate a0 a1 s) := by
  unfold execHandleCreate
  repeat' (first
    | with_reducible assumption | with_reducible apply handleCreate_within | with_reducible apply WithinOut.next)

theorem execHandleDestroy_within {L : Nat} {s0 : State} (a0 : Word) {s : State} (hs : Within L s0 s) (hl : Sub (orAll
    s0 0x77ff0ffb4d7) L) : WithinOut L s0 (execHandleDestroy a0 s) := by
  unfold execHandleDestroy
  repeat' (first
    | with_reducible assumption | with_reducible apply handleDestroy_within | with_reducible apply WithinOut.next)

/-! ### Machine/Armed.lean -/

theorem cancelBodies_within {L : Nat} {s0 : State} (a0 : Word) (a1 : Nat) {s : State} (hs : Within L s0 s) (hl : Sub
    0x20000fb90c3 L) : Within L s0 (cancelBodies a0 a1 s) := by
  unfold cancelBodies
  repeat' (first
    | with_reducible assumption | intro _ | with_reducible apply complete_within
    | with_reducible refine Within.foldl ?_ ?_)

theorem armRefused_within {L : Nat} {s0 : State} (a0 : Word) (a1 : Verdict) (a2 : Nat) {s : State} (hs : Within L s0
    s) (hl : Sub 0x20000fb90c3 L) : Within L s0 (armRefused a0 a1 a2 s) := by
  unfold armRefused
  repeat' (first
    | with_reducible assumption | with_reducible apply cancelBodies_within | with_reducible apply complete_within)

theorem armTakes_within {L : Nat} {s0 : State} (a0 : Word) (a1 : Item) (a2 : Fin 64) {s : State} (hs : Within L s0 s)
    (hl : Sub 0x20000ffb0c3 L) : Within L s0 (armTakes a0 a1 a2 s) := by
  unfold armTakes
  repeat' (first
    | with_reducible assumption | ((with_reducible refine Sub.le ?_ hl); rfl)
    | (intro x; refine Within.cut (L := L) (s := s0) x ?_ ?_; rotate_left; intro hx; clear_value x; rotate_left; subst x)
    | (intro x; clear_value x) | lift_lets | with_reducible apply created_within
    | with_reducible apply setArmed_within | with_reducible apply fireSlot_within | split)

theorem arm_within {L : Nat} {s0 : State} (a0 : Word) {s : State} (hs : Within L s0 s) (hl : Sub 0x20ea0ffb0c3 L) :
    Within L s0 (arm a0 s) := by
  unfold arm
  repeat' (first
    | with_reducible assumption | ((with_reducible refine Sub.le ?_ hl); rfl) | intro _
    | with_reducible apply beginWork_within | with_reducible apply armRefused_within
    | with_reducible apply armTakes_within | split)

theorem slotGone_within {L : Nat} {s0 : State} (a0 : Fin 64) {s : State} (hs : Within L s0 s) (hl : Sub 0xe88040 L) :
    Within L s0 (slotGone a0 s) := by
  unfold slotGone
  repeat' (first | with_reducible assumption | with_reducible apply endObject_within | split)

theorem disarm_within {L : Nat} {s0 : State} (a0 : Word) {s : State} (hs : Within L s0 s) (hl : Sub 0x20ea0fb90c3 L) :
    Within L s0 (disarm a0 s) := by
  unfold disarm
  repeat' (first
    | with_reducible assumption | ((with_reducible refine Sub.le ?_ hl); rfl) | intro _
    | with_reducible apply beginWork_within | with_reducible apply complete_within
    | with_reducible apply completeBehind_within | with_reducible apply slotGone_within
    | with_reducible apply cancelBodies_within | split)

theorem timeTrigger_within {L : Nat} {s0 : State} {s : State} (hs : Within L s0 s) (hl : Sub 0xf5a0c3 L) : Within L s0
    (timeTrigger s) := by
  unfold timeTrigger
  repeat' (first | with_reducible assumption | with_reducible apply fireAll_within)

theorem armDelayExpiry_within {L : Nat} {s0 : State} (a0 : Fin 64) {s : State} (hs : Within L s0 s) (hl : Sub 0x318040
    L) : Within L s0 (armDelayExpiry a0 s) := by
  unfold armDelayExpiry
  repeat' (first
    | with_reducible assumption | ((with_reducible refine Sub.le ?_ hl); rfl) | with_reducible apply startAll_within
    | with_reducible apply releaseBodies_within | with_reducible apply rootWake_within | split)

theorem execArm_within {L : Nat} {s0 : State} (a0 : Word) {s : State} (hs : Within L s0 s) (hl : Sub 0x20ea0ffb0c3 L)
    : WithinOut L s0 (execArm a0 s) := by
  unfold execArm
  repeat' (first | with_reducible assumption | with_reducible apply arm_within | with_reducible apply WithinOut.next)

theorem execDisarm_within {L : Nat} {s0 : State} (a0 : Word) {s : State} (hs : Within L s0 s) (hl : Sub 0x20ea0fb90c3
    L) : WithinOut L s0 (execDisarm a0 s) := by
  unfold execDisarm
  repeat' (first
    | with_reducible assumption | with_reducible apply disarm_within | with_reducible apply WithinOut.next)

theorem execTimeTrigger_within {L : Nat} {s0 : State} {s : State} (hs : Within L s0 s) (hl : Sub 0xf5a0c3 L) :
    WithinOut L s0 (execTimeTrigger s) := by
  unfold execTimeTrigger
  repeat' (first
    | with_reducible assumption | with_reducible apply timeTrigger_within | with_reducible apply WithinOut.next)

theorem execArmDelayExpiry_within {L : Nat} {s0 : State} (a0 : Fin 64) {s : State} (hs : Within L s0 s) (hl : Sub
    0x318040 L) : WithinOut L s0 (execArmDelayExpiry a0 s) := by
  unfold execArmDelayExpiry
  repeat' (first
    | with_reducible assumption | with_reducible apply armDelayExpiry_within | with_reducible apply WithinOut.next)

/-! ### Machine/JournalCmds.lean -/

theorem journalRead_within {L : Nat} {s0 : State} (a0 : Word) {s : State} (hs : Within L s0 s) (hl : Sub 0x20ea0fb90c3
    L) : Within L s0 (journalRead a0 s) := by
  unfold journalRead
  repeat' (first
    | with_reducible assumption | ((with_reducible refine Sub.le ?_ hl); rfl)
    | (intro x; refine Within.cut (L := L) (s := s0) x ?_ ?_; rotate_left; intro hx; clear_value x; rotate_left; subst x)
    | (intro x; clear_value x) | intro _ | lift_lets | with_reducible apply beginWork_within
    | with_reducible apply refuseOperand_within | with_reducible apply complete_within
    | with_reducible apply commitStart_within | with_reducible apply failDma_within
    | with_reducible apply memWords_within | split)

theorem setImage_within {L : Nat} {s0 : State} (a0 : Nat) (a1 : Sparse Word) {s : State}
    (hm : spWf (fun _ => 0) a1 = true) (hs : Within L s0 s) (hl : Sub 0x80001400000 L) : Within L s0 (setImage a0 a1 s) := by
  unfold setImage
  refine modJnl_within' _ hs (Sub.le rfl hl) (fun _ g => ?_) ?_ ?_ ?_ ?_ ?_
  · refine Good.jnl ?_ g
    split
    · exact ⟨id, fun _ => hm, id, id, id, id, id⟩
    · exact ⟨id, id, fun _ => hm, id, id, id, id⟩
  all_goals first | exact .inr (Sub.le rfl hl) | exact .inl fun _ => by split <;> rfl

theorem spoilImage_within {L : Nat} {s0 : State} (a0 : Nat) {s : State} (hs : Within L s0 s) (hl : Sub 0x80001400000
    L) : Within L s0 (spoilImage a0 s) := by
  unfold spoilImage
  refine setImage_within _ _ (imageContent_wf _) (Plain.within hs ⟨rfl, Nat.le_add_right _ _, rfl, rfl, rfl, rfl, rfl, rfl,
    rfl, rfl, rfl, rfl, rfl, rfl, rfl, rfl, rfl⟩ (fun p _ => ?_)) (Sub.le rfl hl)
  cases p <;> first | rfl | exact causes_refl

theorem writeCopies_within {L : Nat} {s0 : State} (a0 : List Word) (a1 : Bool) {s : State} (hs : Within L s0 s) (hl :
    Sub 0x80001400000 L) : Within L s0 (writeCopies a0 a1 s) := by
  unfold writeCopies
  repeat' (first
    | with_reducible assumption | (with_reducible refine setImage_within _ _ (imageContent_wf _) ?_ ?_)
    | (intro x; refine Within.cut (L := L) (s := s0) x.2 ?_ ?_; rotate_left; intro hx; clear_value x; rotate_left; subst x)
    | (intro x; clear_value x) | lift_lets | with_reducible apply setImage_within
    | with_reducible apply drawNat_within | with_reducible apply spoilImage_within | split)

theorem bootImageWrite_within {L : Nat} {s0 : State} (a0 : Word) (a1 : ItemRead) (a2 : Bool) {s : State} (hs : Within
    L s0 s) (hl : Sub 0xa0ea1fb90c3 L) : Within L s0 (bootImageWrite a0 a1 a2 s) := by
  unfold bootImageWrite
  refine beginWork_within _ _ _ (fun it t h => itemRead_within _ _ _ _ _ _ (fun all u hu => ?_) h (Sub.le rfl hl)) hs (Sub.le rfl hl)
  have c : ∀ a v d r {x : State}, Within L s0 x → Within L s0 (complete a v d r x) :=
    fun _ _ _ _ _ h => complete_within _ _ _ _ h (Sub.le rfl hl)
  dsimp only
  split
  · exact c _ _ _ _ hu
  split
  · exact c _ _ _ _ hu
  split
  · exact c _ _ _ _ hu
  split
  · exact c _ _ _ _ hu
  have w := writeCopies_within (imageWords all) a2 (commitStart_within it hu (Sub.le rfl hl)) (Sub.le rfl hl)
  split
  · exact c _ _ _ _ w
  · exact c _ _ _ _ w

theorem lockedWrite_within {L : Nat} {s0 : State} (a0 : Nat) (a1 : Word) {s : State} (hs : Within L s0 s) (hl : Sub
    0x2 L) : Within L s0 (lockedWrite a0 a1 s) := by
  unfold lockedWrite
  repeat' (first | with_reducible assumption | with_reducible apply lockCount_within | split)

theorem biResult_within {L : Nat} {s0 : State} (a0 : BiResult) {s : State} (hs : Within L s0 s) (hl : Sub 0x2400000 L)
    : Within L s0 (biResult a0 s) := by
  unfold biResult
  repeat' (first
    | with_reducible assumption | ((with_reducible refine Sub.le ?_ hl); rfl)
    | ((with_reducible refine Or.inr (Sub.le ?_ hl)); rfl)
    | ((with_reducible refine Or.inl (fun _ => Eq.symm ?_)); rfl) | (intro _; (with_reducible refine Eq.symm ?_); rfl)
    | with_reducible apply modJnl_within)

theorem biCommitNow_within {L : Nat} {s0 : State} (a0 : Fin 4) {s : State} (hs : Within L s0 s) (hl : Sub 0x2400000 L)
    : Within L s0 (biCommitNow a0 s) := by
  unfold biCommitNow
  repeat' (first
    | with_reducible assumption | ((with_reducible refine Sub.le ?_ hl); rfl)
    | ((with_reducible refine Or.inr (Sub.le ?_ hl)); rfl) | (intro x; clear_value x)
    | ((with_reducible refine Or.inl (fun _ => Eq.symm ?_)); rfl) | (intro _; (with_reducible refine Eq.symm ?_); rfl)
    | lift_lets | with_reducible apply biResult_within | with_reducible apply modJnl_within | split)

theorem biCtlStore_within {L : Nat} {s0 : State} (a0 : Word) (a1 : Word) {s : State} (hs : Within L s0 s) (hl : Sub
    0x2400002 L) : Within L s0 (biCtlStore a0 a1 s) := by
  unfold biCtlStore
  repeat' (first
    | with_reducible assumption | ((with_reducible refine Sub.le ?_ hl); rfl)
    | (with_reducible refine modJnl_within' _ ?_ (Sub.le rfl hl) (fun _ => Good.jnl ⟨fun _ => rfl, id, id, id, id, id, fun _ => Nat.zero_le _⟩) ?_ ?_ ?_ ?_ ?_)
    | ((with_reducible refine Or.inr (Sub.le ?_ hl)); rfl)
    | (intro x; refine Within.cut (L := L) (s := s0) x ?_ ?_; rotate_left; intro hx; clear_value x; rotate_left; subst x)
    | intro _ | ((with_reducible refine Or.inl (fun _ => Eq.symm ?_)); rfl) | lift_lets
    | with_reducible apply storeFields_within | with_reducible apply modJnl_within
    | with_reducible apply biCommitNow_within | split)

theorem biDataStore_within {L : Nat} {s0 : State} (a0 : Word) {s : State} (hs : Within L s0 s) (hl : Sub 0x2400000 L)
    : Within L s0 (biDataStore a0 s) := by
  unfold biDataStore
  split
  · exact hs
  · rename_i h
    refine modJnl_within' _ hs (Sub.le rfl hl) (fun _ => Good.jnl ⟨fun w => spWf_set _ _ _ _ w, id, id, id, id, id, fun _ => ?_⟩)
      ?_ ?_ ?_ ?_ ?_
    · simp only [Bool.or_eq_true, decide_eq_true_eq, not_or] at h
      show s.jnl.biPtr + 1 ≤ 2048
      omega
    all_goals first | exact .inl fun _ => rfl | exact .inr (Sub.le rfl hl)

theorem biMacStore_within {L : Nat} {s0 : State} (a0 : Bool) (a1 : Word) {s : State} (hs : Within L s0 s) (hl : Sub
    0x2400000 L) : Within L s0 (biMacStore a0 a1 s) := by
  unfold biMacStore
  repeat' (first
    | with_reducible assumption | ((with_reducible refine Sub.le ?_ hl); rfl)
    | ((with_reducible refine Or.inr (Sub.le ?_ hl)); rfl)
    | ((with_reducible refine Or.inl (fun _ => Eq.symm ?_)); rfl) | (intro _; (with_reducible refine Eq.symm ?_); rfl)
    | with_reducible apply modJnl_within | split)

theorem inSetup_within {L : Nat} {s0 : State} (a0 : Nat) (a1 : Word) (a2 : State → State) {s : State} (ha2 : ∀ t,
    Within L s0 t → Within L s0 (a2 t)) (hs : Within L s0 s) (hl : Sub 0xc00042 L) : Within L s0 (inSetup a0 a1 a2 s)
    := by
  unfold inSetup
  repeat' (first
    | with_reducible assumption | ((with_reducible refine Sub.le ?_ hl); rfl)
    | with_reducible apply setupRecord_within | with_reducible apply lockedWrite_within | with_reducible apply ha2
    | split)

theorem biCtl_within {L : Nat} {s0 : State} (a0 : Nat) (a1 : Word) {s : State} (hs : Within L s0 s) (hl : Sub
    0x2c00042 L) : Within L s0 (biCtl a0 a1 s) := by
  unfold biCtl
  repeat' (first
    | with_reducible assumption | ((with_reducible refine Sub.le ?_ hl); rfl) | intro _
    | with_reducible apply inSetup_within | with_reducible apply biCtlStore_within | split)

theorem reinstate_within {L : Nat} {s0 : State} (a0 : Fin 2) {s : State} (hs : Within L s0 s) (hl : Sub 0x400000 L) :
    Within L s0 (reinstate a0 s) := by
  unfold reinstate
  repeat' (first
    | with_reducible assumption | ((with_reducible refine Or.inl (fun _ => Eq.symm ?_)); rfl)
    | (intro _; (with_reducible refine Eq.symm ?_); rfl) | with_reducible apply modJnl_within | split)

theorem jnlCtlStore_within {L : Nat} {s0 : State} (a0 : Word) {s : State} (hs : Within L s0 s) (hl : Sub 0x400000 L) :
    Within L s0 (jnlCtlStore a0 s) := by
  unfold jnlCtlStore
  repeat' (first
    | with_reducible assumption
    | (intro x; refine Within.cut (L := L) (s := s0) x ?_ ?_; rotate_left; intro hx; clear_value x; rotate_left; subst x)
    | intro _ | lift_lets | with_reducible apply reinstate_within | split)

theorem reinstateBit_within {L : Nat} {s0 : State} (a0 : Fin 2) {s : State} (hs : Within L s0 s) (hl : Sub 0xc00042 L)
    : Within L s0 (reinstateBit a0 s) := by
  unfold reinstateBit
  repeat' (first
    | with_reducible assumption | ((with_reducible refine Sub.le ?_ hl); rfl) | intro _
    | with_reducible apply inSetup_within | with_reducible apply jnlCtlStore_within)

theorem reinstateDone_within {L : Nat} {s0 : State} (a0 : Bool) {s : State} (hs : Within L s0 s) (hl : Sub (orAll s0
    0x73ff8ffb4d7) L) : Within L s0 (reinstateDone a0 s) := by
  unfold reinstateDone
  split
  · exact hs
  · rename_i b rest _
    have h1 : Within L s0 (modJnl (fun j => { j with reinstating := rest }) s) := by
      refine modJnl_within _ hs (Sub.some rfl rfl hl) ?_ ?_ ?_ ?_ ?_ ?_ ?_ ?_ ?_ ?_ ?_
      all_goals first | exact fun _ => rfl | exact .inl fun _ => rfl
    dsimp only
    split
    · exact raise_within _ _ h1 (Sub.both rfl hl)
    · refine event_within _ _ _ _ _ (commit_within _ (Within.foldl (fun u d hu => endCause_within _ _ hu (Sub.some rfl rfl hl)) ?_)
        (Sub.some rfl rfl hl)) (Sub.some rfl rfl hl)
      exact modBank_within _ _ h1 (Sub.some rfl rfl hl) (fun g _ _ => recs_rising g)

theorem execJournalRead_within {L : Nat} {s0 : State} (a0 : Word) {s : State} (hs : Within L s0 s) (hl : Sub
    0x20ea0fb90c3 L) : WithinOut L s0 (execJournalRead a0 s) := by
  unfold execJournalRead
  repeat' (first
    | with_reducible assumption | with_reducible apply journalRead_within | with_reducible apply WithinOut.next)

theorem execBootImageWrite_within {L : Nat} {s0 : State} (a0 : Word) (a1 : ItemRead) (a2 : Bool) {s : State} (hs :
    Within L s0 s) (hl : Sub 0xa0ea1fb90c3 L) : WithinOut L s0 (execBootImageWrite a0 a1 a2 s) := by
  unfold execBootImageWrite
  repeat' (first
    | with_reducible assumption | with_reducible apply bootImageWrite_within | with_reducible apply WithinOut.next)

theorem execBiOpen_within {L : Nat} {s0 : State} (a0 : Word) {s : State} (hs : Within L s0 s) (hl : Sub 0x2c00042 L) :
    WithinOut L s0 (execBiOpen a0 s) := by
  unfold execBiOpen
  repeat' (first
    | with_reducible assumption | with_reducible apply biCtl_within | with_reducible apply WithinOut.next)

theorem execBiDataWrite_within {L : Nat} {s0 : State} (a0 : Word) {s : State} (hs : Within L s0 s) (hl : Sub 0x2c00042
    L) : WithinOut L s0 (execBiDataWrite a0 s) := by
  unfold execBiDataWrite
  repeat' (first
    | with_reducible assumption | ((with_reducible refine Sub.le ?_ hl); rfl) | intro _
    | with_reducible apply inSetup_within | with_reducible apply biDataStore_within
    | with_reducible apply WithinOut.next)

theorem execBiCommit_within {L : Nat} {s0 : State} (a0 : Word) {s : State} (hs : Within L s0 s) (hl : Sub 0x2c00042 L)
    : WithinOut L s0 (execBiCommit a0 s) := by
  unfold execBiCommit
  repeat' (first
    | with_reducible assumption | with_reducible apply biCtl_within | with_reducible apply WithinOut.next)

theorem execReinstateA_within {L : Nat} {s0 : State} {s : State} (hs : Within L s0 s) (hl : Sub 0xc00042 L) :
    WithinOut L s0 (execReinstateA s) := by
  unfold execReinstateA
  repeat' (first
    | with_reducible assumption | with_reducible apply reinstateBit_within | with_reducible apply WithinOut.next)

theorem execReinstateB_within {L : Nat} {s0 : State} {s : State} (hs : Within L s0 s) (hl : Sub 0xc00042 L) :
    WithinOut L s0 (execReinstateB s) := by
  unfold execReinstateB
  repeat' (first
    | with_reducible assumption | with_reducible apply reinstateBit_within | with_reducible apply WithinOut.next)

theorem execReinstateDone_within {L : Nat} {s0 : State} (a0 : Bool) {s : State} (hs : Within L s0 s) (hl : Sub (orAll
    s0 0x73ff8ffb4d7) L) : WithinOut L s0 (execReinstateDone a0 s) := by
  unfold execReinstateDone
  repeat' (first
    | with_reducible assumption | with_reducible apply reinstateDone_within | with_reducible apply WithinOut.next)

/-! ### Machine/Grants.lean -/

theorem dropServiceJobs_within {L : Nat} {s0 : State} {s : State} (hs : Within L s0 s) (hl : Sub 0x4418000 L) : Within
    L s0 (dropServiceJobs s) := by
  unfold dropServiceJobs
  repeat' (first
    | with_reducible assumption | ((with_reducible refine Sub.le ?_ hl); rfl)
    | ((with_reducible refine Or.inr (Sub.le ?_ hl)); rfl)
    | ((with_reducible refine Or.inl (fun _ => Eq.symm ?_)); rfl) | (intro _; (with_reducible refine Eq.symm ?_); rfl)
    | with_reducible apply armLoses_within | with_reducible apply modJnl_within)

theorem dropSending_within {L : Nat} {s0 : State} {s : State} (hs : Within L s0 s) (hl : Sub 0x20000428000 L) : Within
    L s0 (dropSending s) := by
  unfold dropSending
  repeat' (first
    | with_reducible assumption | ((with_reducible refine Sub.le ?_ hl); rfl)
    | ((with_reducible refine Or.inr (Sub.le ?_ hl)); rfl) | (intro x; clear_value x)
    | ((with_reducible refine Or.inl (fun _ => Eq.symm ?_)); rfl) | (intro _; (with_reducible refine Eq.symm ?_); rfl)
    | lift_lets | with_reducible apply modJnl_within | with_reducible apply modEng_within
    | with_reducible apply modUsb_within)

theorem leaveGranted_within {L : Nat} {s0 : State} {s : State} (hs : Within L s0 s) (hl : Sub 0x4000000008d L) :
    Within L s0 (leaveGranted s) := by
  unfold leaveGranted
  repeat' (first
    | with_reducible assumption | ((with_reducible refine Sub.le ?_ hl); rfl)
    | ((with_reducible refine Or.inr (Sub.le ?_ hl)); rfl)
    | ((with_reducible refine Or.inl (fun _ => Eq.symm ?_)); rfl) | with_reducible apply sendLtr_within
    | with_reducible apply owlRunEntry_within | with_reducible apply modPwr_within | split)

theorem endGrant_within {L : Nat} {s0 : State} (a0 : Nat) {s : State} (hs : Within L s0 s) (hl : Sub 0x6000447a08f L)
    : Within L s0 (endGrant a0 s) := by
  unfold endGrant
  repeat' (first
    | with_reducible assumption | ((with_reducible refine Sub.le ?_ hl); rfl)
    | (intro x; refine Within.cut (L := L) (s := s0) x ?_ ?_; rotate_left; intro hx; clear_value x; rotate_left; subst x)
    | (intro x; clear_value x) | lift_lets | with_reducible apply dropSending_within
    | with_reducible apply dropServiceJobs_within | with_reducible apply leaveGranted_within
    | with_reducible apply event_within | with_reducible apply modUsb_within | split)

theorem newGrant_within {L : Nat} {s0 : State} (a0 : Item) (a1 : GrantClass) (a2 : Time) {s : State} (hs : Within L s0
    s) (hl : Sub 0x2000000000c L) : Within L s0 (newGrant a0 a1 a2 s) := by
  unfold newGrant
  repeat' (first
    | with_reducible assumption | ((with_reducible refine Sub.le ?_ hl); rfl)
    | ((with_reducible refine Or.inr (Sub.le ?_ hl)); rfl)
    | (intro x; refine Within.cut (L := L) (s := s0) x ?_ ?_; rotate_left; intro hx; clear_value x; rotate_left; subst x)
    | intro _ | ((with_reducible refine Or.inl (fun _ => Eq.symm ?_)); rfl) | lift_lets
    | with_reducible apply modUsb_within | with_reducible apply modPwr_within | split)

theorem serviceGrant_within {L : Nat} {s0 : State} (a0 : Word) {s : State} (hs : Within L s0 s) (hl : Sub
    0x60ea4ffb0cf L) : Within L s0 (serviceGrant a0 s) := by
  unfold serviceGrant
  repeat' (first
    | with_reducible assumption | ((with_reducible refine Sub.le ?_ hl); rfl)
    | (intro x; refine Within.cut (L := L) (s := s0) x ?_ ?_; rotate_left; intro hx; clear_value x; rotate_left; subst x)
    | intro _ | lift_lets | with_reducible apply beginWork_within | with_reducible apply refuseOperand_within
    | with_reducible apply complete_within | with_reducible apply endGrant_within
    | with_reducible apply newGrant_within | with_reducible apply event_within | split)

theorem grantEnds_within {L : Nat} {s0 : State} {s : State} (hs : Within L s0 s) (hl : Sub 0x6000447a08f L) : Within L
    s0 (grantEnds s) := by
  unfold grantEnds
  repeat' (first | with_reducible assumption | with_reducible apply endGrant_within | split)

theorem serviceAck_within {L : Nat} {s0 : State} {s : State} (hs : Within L s0 s) (hl : Sub 0x60ee0ffb0c7 L) : Within
    L s0 (serviceAck s) := by
  unfold serviceAck
  repeat' (first
    | with_reducible assumption | ((with_reducible refine Sub.le ?_ hl); rfl)
    | ((with_reducible refine Or.inr (Sub.le ?_ hl)); rfl)
    | (intro x; refine Within.cut (L := L) (s := s0) x ?_ ?_; rotate_left; intro hx; clear_value x; rotate_left; subst x)
    | (intro x; clear_value x) | ((with_reducible refine Or.inl (fun _ => Eq.symm ?_)); rfl)
    | (intro _; (with_reducible refine Eq.symm ?_); rfl) | lift_lets | with_reducible apply modUsb_within
    | with_reducible apply modEng_within | with_reducible apply modJnl_within | with_reducible apply roomAgain_within
    | with_reducible apply commitAck_within | split)

theorem execServiceGrant_within {L : Nat} {s0 : State} (a0 : Word) {s : State} (hs : Within L s0 s) (hl : Sub
    0x60ea4ffb0cf L) : WithinOut L s0 (execServiceGrant a0 s) := by
  unfold execServiceGrant
  repeat' (first
    | with_reducible assumption | with_reducible apply serviceGrant_within | with_reducible apply WithinOut.next)

theorem execGrantEnd_within {L : Nat} {s0 : State} {s : State} (hs : Within L s0 s) (hl : Sub 0x6000447a08f L) :
    WithinOut L s0 (execGrantEnd s) := by
  unfold execGrantEnd
  repeat' (first
    | with_reducible assumption | with_reducible apply grantEnds_within | with_reducible apply WithinOut.next)

theorem execServiceCompletionAck_within {L : Nat} {s0 : State} {s : State} (hs : Within L s0 s) (hl : Sub
    0x60ee0ffb0c7 L) : WithinOut L s0 (execServiceCompletionAck s) := by
  unfold execServiceCompletionAck
  repeat' (first
    | with_reducible assumption | with_reducible apply serviceAck_within | with_reducible apply WithinOut.next)

/-! ### Machine/Replay.lean -/

theorem scanHead_within {L : Nat} {s0 : State} {s : State} (hs : Within L s0 s) (hl : Sub 0xc00000 L) : Within L s0
    (scanHead s) := by
  unfold scanHead
  repeat' (first
    | with_reducible assumption | ((with_reducible refine Sub.le ?_ hl); rfl)
    | ((with_reducible refine Or.inr (Sub.le ?_ hl)); rfl)
    | ((with_reducible refine Or.inl (fun _ => Eq.symm ?_)); rfl) | (intro _; (with_reducible refine Eq.symm ?_); rfl)
    | with_reducible apply modJnl_within)

theorem voidIn_rising (h : Word) {b : Bank} (g : rising b.slots = true) : rising (voidIn h b).slots = true := by
  unfold voidIn
  split
  · exact eraseRec_rising _ g
  · exact g

theorem voidTorn_within {L : Nat} {s0 : State} {s : State} (hs : Within L s0 s) (hl : Sub 0xc4a083 L) :
    Within L s0 (voidTorn s) := by
  unfold voidTorn
  dsimp only
  split
  · exact hs
  · refine event_within _ _ _ _ _ (setReg_within _ _ (modJnl_within' _ hs (Sub.le rfl hl)
      (fun _ => Good.jnl ⟨id, id, id, voidIn_rising _, voidIn_rising _, id, id⟩) ?_ ?_ ?_ ?_ ?_) (Sub.le rfl hl)) (Sub.le rfl hl)
    all_goals first | exact .inl fun _ => rfl | exact .inr (Sub.le rfl hl)

theorem scanRetires_within {L : Nat} {s0 : State} (a0 : Fin 2) (a1 : Nat) {s : State} (hs : Within L s0 s) (hl : Sub
    (orAll s0 0x73ff8ffb4d7) L) : Within L s0 (scanRetires a0 a1 s) := by
  unfold scanRetires
  repeat' (first
    | with_reducible assumption | ((with_reducible refine Sub.some ?_ ?_ hl) <;> rfl)
    | ((with_reducible refine Sub.both ?_ hl); rfl)
    | (with_reducible refine modBank_within _ _ ?_ (Sub.some rfl rfl hl) (fun _ _ h => h))
    | ((with_reducible refine Or.inr (Sub.some ?_ ?_ hl)) <;> rfl)
    | ((with_reducible refine Or.inl (fun _ => Eq.symm ?_)); rfl) | with_reducible apply retireTold_within
    | with_reducible apply modBank_within | split)

theorem repairBank_within {L : Nat} {s0 : State} (a0 : Fin 2) {s : State} (hs : Within L s0 s) (hl : Sub (orAll s0
    0x73ff8ffb4d7) L) : Within L s0 (repairBank a0 s) := by
  unfold repairBank
  repeat' (first
    | with_reducible assumption | ((with_reducible refine Sub.some ?_ ?_ hl) <;> rfl)
    | (with_reducible refine modBank_within _ _ ?_ (Sub.some rfl rfl hl) (fun _ _ h => foldl_insert_rising _ h))
    | (intro x; refine Within.cut (L := L) (s := s0) x ?_ ?_; rotate_left; intro hx; clear_value x; rotate_left; subst x)
    | (intro x; clear_value x) | lift_lets | with_reducible apply countReg_within
    | with_reducible apply modBank_within | with_reducible apply scanRetires_within | split)

theorem readable_within {L : Nat} {s0 : State} (a0 : Bool) (a1 : Bool) {s : State} (hs : Within L s0 s) (hl : Sub
    0xc00000 L) : Within L s0 (readable a0 a1 s) := by
  refine modJnl_within' _ hs (Sub.le rfl hl) (fun _ => Good.jnl ⟨id, id, id, id, id, id, id⟩) ?_ ?_ ?_ ?_ ?_
  all_goals first | exact .inl fun _ => rfl | exact .inr (Sub.le rfl hl)

theorem scanBanks_within {L : Nat} {s0 : State} (a0 : Bool) (a1 : Bool) {s : State} (hs : Within L s0 s) (hl : Sub
    (orAll s0 0x73ff8ffb4d7) L) : Within L s0 (scanBanks a0 a1 s) := by
  unfold scanBanks
  repeat' (first
    | with_reducible assumption | ((with_reducible refine Sub.some ?_ ?_ hl) <;> rfl)
    | ((with_reducible refine Or.inr (Sub.some ?_ ?_ hl)) <;> rfl)
    | (intro x; refine Within.cut (L := L) (s := s0) x ?_ ?_; rotate_left; intro hx; clear_value x; rotate_left; subst x)
    | (intro x; clear_value x) | ((with_reducible refine Or.inl (fun _ => Eq.symm ?_)); rfl)
    | (intro _; (with_reducible refine Eq.symm ?_); rfl) | lift_lets | with_reducible apply modJnl_within
    | with_reducible apply scanRetires_within | with_reducible apply repairBank_within
    | with_reducible apply voidTorn_within | split)

theorem endTimeSlots_within {L : Nat} {s0 : State} {s : State} (hs : Within L s0 s) (hl : Sub 0xe88040 L) : Within L
    s0 (endTimeSlots s) := by
  unfold endTimeSlots
  repeat' (first
    | with_reducible assumption | intro _ | with_reducible apply endObject_within
    | with_reducible refine Within.foldl ?_ ?_ | split)

theorem endFiredSlots_within {L : Nat} {s0 : State} {s : State} (hs : Within L s0 s) (hl : Sub 0xe88040 L) : Within L
    s0 (endFiredSlots s) := by
  unfold endFiredSlots
  repeat' (first
    | with_reducible assumption | intro _ | with_reducible apply endSlot_within
    | with_reducible refine Within.foldl ?_ ?_ | split)

theorem grantReset_within {L : Nat} {s0 : State} (a0 : Nat) {s : State} (hs : Within L s0 s) (hl : Sub 0x2000004a083
    L) : Within L s0 (grantReset a0 s) := by
  unfold grantReset
  repeat' (first
    | with_reducible assumption | ((with_reducible refine Sub.le ?_ hl); rfl) | with_reducible apply event_within
    | with_reducible apply modUsb_within | split)

theorem scannedNow_within {L : Nat} {s0 s : State} (told : List Word) (last : List DWord) (hs : Within L s0 s)
    (hl : Sub 0x400000 L) :
    Within L s0 (modJnl (fun j => { j with scanned := true, acked := j.acked ++ told, recent := [], older := last }) s) := by
  refine modJnl_within' _ hs hl (fun _ => Good.jnl ⟨id, id, id, id, id, fun _ => Nat.zero_le _, id⟩) ?_ ?_ ?_ ?_ ?_
  all_goals exact .inl fun _ => rfl

theorem gensBack_within {L : Nat} {s0 s : State} (g : List (Nat × BitVec 12)) (tags : Fin 4 → DWord) (hg : spWf genReset g = true)
    (hs : Within L s0 s) (hl : Sub 0x88000 L) :
    Within L s0 (modEng (fun e => { e with gens := g, keys := Vector.ofFn (fun k => { e.keys[k] with lastTag := tags k }) }) s) := by
  refine modEng_within' _ hs (Sub.le rfl hl) (fun k h => ?_)
    (fun _ w => ⟨w.regs, hg, w.partners, w.window, w.image0, w.image1, w.bankA, w.bankB, w.events, w.faults, w.recent, w.pointer⟩)
    ?_ ?_ ?_ ?_ ?_ ?_
  · simp only [Fin.getElem_fin, Vector.getElem_ofFn]
    exact ⟨h, trivial⟩
  all_goals first | exact .inl fun _ => rfl | exact .inr (Sub.le rfl hl)

theorem objsBack_within {L : Nat} {s0 s : State} (x : List (Nat × Word)) (hs : Within L s0 s)
    (hl : Sub 0x88000 L) : Within L s0 (modEng (fun e => { e with objs := x }) s) := by
  refine modEng_within _ hs (Sub.le rfl hl) ?_ ?_ ?_ ?_ ?_ ?_ ?_ ?_ ?_
  all_goals first | exact fun _ => rfl | exact .inl fun _ => rfl | exact .inr (Sub.le rfl hl)

theorem armedBack_within {L : Nat} {s0 s : State} (x : Vector (Option ArmedSlot) 64) (hs : Within L s0 s)
    (hl : Sub 0x208000 L) : Within L s0 (modEng (fun e => { e with armed := x }) s) := by
  refine modEng_within _ hs (Sub.le rfl hl) ?_ ?_ ?_ ?_ ?_ ?_ ?_ ?_ ?_
  all_goals first | exact fun _ => rfl | exact .inl fun _ => rfl | exact .inr (Sub.le rfl hl)

theorem itemsBack_within {L : Nat} {s0 s : State} (x : List Item) (y : List Comp) (hs : Within L s0 s)
    (hl : Sub 0x38000 L) : Within L s0 (modEng (fun e => { e with items := x, comps := y }) s) := by
  refine modEng_within _ hs (Sub.le rfl hl) ?_ ?_ ?_ ?_ ?_ ?_ ?_ ?_ ?_
  all_goals first | exact fun _ => rfl | exact .inl fun _ => rfl | exact .inr (Sub.le rfl hl)

theorem project_within {L : Nat} {s0 : State} {s : State} (hs : Within L s0 s) (hl : Sub 0x20000efa0c3 L) :
    Within L s0 (project s) := by
  have h1 := gensBack_within _ (fun k => (tagsFrom s)[k]) (gensFrom_wf s) hs (Sub.le rfl hl)
  unfold project
  lift_lets
  intro tags s1 s2 s3 finals service s4 comps s5
  have h2 : Within L s0 s2 := objsBack_within _ h1 (Sub.le rfl hl)
  clear_value s2
  have h3 : Within L s0 s3 := armedBack_within _ h2 (Sub.le rfl hl)
  clear_value s3
  have h4 : Within L s0 s4 := scannedNow_within _ _ h3 (Sub.le rfl hl)
  clear_value s4
  have h5 : Within L s0 s5 := itemsBack_within _ _ h4 (Sub.le rfl hl)
  clear_value s5
  exact grantReset_within _ (endFiredSlots_within (endTimeSlots_within h5 (Sub.le rfl hl)) (Sub.le rfl hl)) (Sub.le rfl hl)

theorem relayReturns_within {L : Nat} {s0 : State} (a0 : Fin 48) (a1 : Word) {s : State} (hs : Within L s0 s) (hl :
    Sub 0x200000000 L) : Within L s0 (relayReturns a0 a1 s) := by
  unfold relayReturns
  repeat' (first | with_reducible assumption | with_reducible apply modRelay_within | split)

theorem objectReturns_within {L : Nat} {s0 : State} (a0 : Nat × Word) {s : State} (hs : Within L s0 s) (hl : Sub
    0x7e78e88042 L) : Within L s0 (objectReturns a0 s) := by
  unfold objectReturns
  repeat' (first
    | with_reducible assumption | ((with_reducible refine Sub.le ?_ hl); rfl)
    | (intro x; refine Within.cut (L := L) (s := s0) x ?_ ?_; rotate_left; intro hx; clear_value x; rotate_left; subst x)
    | (intro x; clear_value x) | lift_lets | with_reducible apply endObject_within
    | with_reducible apply placeObject_within | with_reducible apply relayReturns_within
    | with_reducible apply setSeq_within | with_reducible apply setGraph_within | split)

theorem returnObjects_within {L : Nat} {s0 : State} {s : State} (hs : Within L s0 s) (hl : Sub 0x7e78e88042 L) :
    Within L s0 (returnObjects s) := by
  unfold returnObjects
  repeat' (first
    | with_reducible assumption | intro _ | with_reducible apply objectReturns_within
    | with_reducible refine Within.foldl ?_ ?_)

theorem inService_within {L : Nat} {s0 : State} {s : State} (a1 : Word) (hs : Within L s0 s) (hl : Sub 0x108000 L) :
    Within L s0 (inService s a1) := by
  unfold inService
  repeat' (first
    | with_reducible assumption | ((with_reducible refine Sub.le ?_ hl); rfl)
    | ((with_reducible refine Or.inr (Sub.le ?_ hl)); rfl)
    | ((with_reducible refine Or.inl (fun _ => Eq.symm ?_)); rfl) | (intro _; (with_reducible refine Eq.symm ?_); rfl)
    | with_reducible apply modEng_within)

theorem reassert_within {L : Nat} {s0 : State} {s : State} (hs : Within L s0 s) (hl : Sub (orAll s0 0x73ff8ffb4d7) L)
    : Within L s0 (reassert s) := by
  unfold reassert
  repeat' (first
    | with_reducible assumption | ((with_reducible refine Sub.some ?_ ?_ hl) <;> rfl) | (intro x; clear_value x)
    | intro _ | lift_lets | with_reducible apply relayReassert_within | with_reducible apply inService_within
    | with_reducible refine Within.foldl ?_ ?_ | split)

theorem fixCqs_within {L : Nat} {s0 : State} {s : State} (hs : Within L s0 s) (hl : Sub 0x18000 L) : Within L s0
    (fixCqs s) := by
  unfold fixCqs
  repeat' (first
    | with_reducible assumption | ((with_reducible refine Sub.le ?_ hl); rfl)
    | ((with_reducible refine Or.inr (Sub.le ?_ hl)); rfl)
    | ((with_reducible refine Or.inl (fun _ => Eq.symm ?_)); rfl) | (intro _; (with_reducible refine Eq.symm ?_); rfl)
    | with_reducible apply modEng_within)

theorem repostAll_within {L : Nat} {s0 : State} {s : State} (hs : Within L s0 s) (hl : Sub 0xc290c3 L) : Within L s0
    (repostAll s) := by
  unfold repostAll
  repeat' (first
    | with_reducible assumption | ((with_reducible refine Sub.le ?_ hl); rfl)
    | ((with_reducible refine Or.inr (Sub.le ?_ hl)); rfl)
    | (intro x; refine Within.cut (L := L) (s := s0) x ?_ ?_; rotate_left; intro hx; clear_value x; rotate_left; subst x)
    | (intro x; clear_value x) | ((with_reducible refine Or.inl (fun _ => Eq.symm ?_)); rfl)
    | (intro _; (with_reducible refine Eq.symm ?_); rfl) | intro _ | lift_lets | with_reducible apply modEng_within
    | with_reducible apply postAllHeld_within | with_reducible refine Within.foldl ?_ ?_)

theorem resend_within {L : Nat} {s0 : State} {s : State} (hs : Within L s0 s) (hl : Sub 0x20000000001 L) : Within L s0
    (resend s) := by
  unfold resend
  repeat' (first
    | with_reducible assumption | ((with_reducible refine Sub.le ?_ hl); rfl) | (intro x; clear_value x) | intro _
    | lift_lets | with_reducible apply sendService_within | with_reducible apply modUsb_within
    | with_reducible refine Within.foldl ?_ ?_)

theorem settleItems_within {L : Nat} {s0 : State} (a0 : Bool) {s : State} (hs : Within L s0 s) (hl : Sub 0x20000fb90c3
    L) : Within L s0 (settleItems a0 s) := by
  unfold settleItems
  repeat' (first
    | with_reducible assumption | intro _ | with_reducible apply complete_within
    | with_reducible refine Within.foldl ?_ ?_ | split)

theorem pollNow_within {L : Nat} {s0 : State} {s : State} (hs : Within L s0 s) (hl : Sub 0x80 L) : Within L s0
    (pollNow s) := by
  unfold pollNow
  repeat' (first
    | with_reducible assumption | ((with_reducible refine Sub.le ?_ hl); rfl)
    | ((with_reducible refine Or.inr (Sub.le ?_ hl)); rfl)
    | ((with_reducible refine Or.inl (fun _ => Eq.symm ?_)); rfl) | with_reducible apply modLink_within
    | with_reducible apply resetInterval_within)

theorem replay_within {L : Nat} {s0 : State} (a0 : Bool) {s : State} (hs : Within L s0 s) (hl : Sub (orAll s0
    0x77ff8ffb4d7) L) : Within L s0 (replay a0 s) := by
  unfold replay
  repeat' (first
    | with_reducible assumption | ((with_reducible refine Sub.some ?_ ?_ hl) <;> rfl)
    | ((with_reducible refine Sub.both ?_ hl); rfl) | ((with_reducible refine Or.inr (Sub.some ?_ ?_ hl)) <;> rfl)
    | (intro x; refine Within.cut (L := L) (s := s0) x ?_ ?_; rotate_left; intro hx; clear_value x; rotate_left; subst x)
    | (intro x; clear_value x) | ((with_reducible refine Or.inl (fun _ => Eq.symm ?_)); rfl) | lift_lets
    | with_reducible apply returnObjects_within | with_reducible apply resend_within
    | with_reducible apply repostAll_within | with_reducible apply fixCqs_within
    | with_reducible apply reassert_within | with_reducible apply startAll_within
    | with_reducible apply settleItems_within | with_reducible apply modReg_within
    | with_reducible apply pollNow_within | with_reducible apply event_within | with_reducible apply modPwr_within
    | with_reducible apply fireRestore_within | split)

theorem dropPorts_within {L : Nat} {s0 : State} {s : State} (hs : Within L s0 s) (hl : Sub 0x10000000000 L) : Within L
    s0 (dropPorts s) := by
  exact Plain.within hs ⟨rfl, le_refl _, rfl, rfl, rfl, rfl, rfl, rfl, rfl, rfl, rfl, rfl, rfl, rfl, rfl, rfl, rfl⟩
    (fun p hp => by cases p <;> first | rfl | exact causes_refl | exact off (i := 40) hl hp)

theorem coreDrop_within {L : Nat} {s0 : State} {s : State} (hs : Within L s0 s) (hl : Sub 0x19ee0118000 L) : Within L
    s0 (coreDrop s) := by
  unfold coreDrop
  repeat' (first
    | with_reducible assumption | ((with_reducible refine Sub.le ?_ hl); rfl)
    | ((with_reducible refine Or.inr (Sub.le ?_ hl)); rfl)
    | (intro x; refine Within.cut (L := L) (s := s0) x ?_ ?_; rotate_left; intro hx; clear_value x; rotate_left; subst x)
    | (intro x; clear_value x) | ((with_reducible refine Or.inl (fun _ => Eq.symm ?_)); rfl)
    | (intro _; (with_reducible refine Eq.symm ?_); rfl) | ((with_reducible refine Or.inl (Eq.symm ?_)); rfl)
    | ((with_reducible refine Eq.symm ?_); rfl) | lift_lets | with_reducible apply modEng_within
    | with_reducible apply withdrawThose_within | with_reducible apply dropPorts_within
    | fail_if_no_progress (with_reducible apply Within.parts))

theorem finishRecord_within {L : Nat} {s0 : State} {s : State} (hs : Within L s0 s) (hl : Sub 0x60004fb9ac3 L) :
    Within L s0 (finishRecord s) := by
  unfold finishRecord
  repeat' (first
    | with_reducible assumption | ((with_reducible refine Sub.le ?_ hl); rfl)
    | ((with_reducible refine Or.inr (Sub.le ?_ hl)); rfl)
    | (intro x; refine Within.cut (L := L) (s := s0) x ?_ ?_; rotate_left; intro hx; clear_value x; rotate_left; subst x)
    | (intro x; clear_value x) | ((with_reducible refine Or.inl (fun _ => Eq.symm ?_)); rfl)
    | (intro _; (with_reducible refine Eq.symm ?_); rfl) | lift_lets | with_reducible apply modJnl_within
    | with_reducible apply heldWhenDone_within | with_reducible apply refetch_within
    | with_reducible apply commitJob_within | split)

theorem runsAgain_within {L : Nat} {s0 : State} {s : State} (hs : Within L s0 s) (hl : Sub (orAll s0 0x61ff0ffb4d7) L)
    : Within L s0 (runsAgain s) := by
  unfold runsAgain
  repeat' (first
    | with_reducible assumption | ((with_reducible refine Sub.some ?_ ?_ hl) <;> rfl)
    | ((with_reducible refine Sub.both ?_ hl); rfl) | intro _ | with_reducible apply settle_within
    | with_reducible apply startRun_within | with_reducible refine Within.foldl ?_ ?_ | split)

theorem coreReset_within {L : Nat} {s0 : State} {s : State} (hs : Within L s0 s) (hl : Sub (orAll s0 0x7fffcffbed7) L)
    : Within L s0 (coreReset s) := by
  unfold coreReset
  repeat' (first
    | with_reducible assumption | ((with_reducible refine Sub.some ?_ ?_ hl) <;> rfl)
    | ((with_reducible refine Sub.both ?_ hl); rfl)
    | (intro x; refine Within.cut (L := L) (s := s0) x ?_ ?_; rotate_left; intro hx; clear_value x; rotate_left; subst x)
    | intro _ | lift_lets | with_reducible apply runsAgain_within | with_reducible apply coreDrop_within
    | with_reducible apply finishRecord_within | with_reducible apply replay_within | split)

/-! ### Machine/Stores.lean -/

theorem storeListed_within {L : Nat} {s0 : State} (a0 : Nat) (a1 : Word) (a2 : Word) {s : State} (hs : Within L s0 s)
    (hl : Sub 0x2 L) : Within L s0 (storeListed a0 a1 a2 s) := by
  unfold storeListed
  repeat' (first | with_reducible assumption | with_reducible apply setReg_within)

theorem setLimited_within {L : Nat} {s0 : State} (a0 : Fin 48) (a1 : Bool) {s : State} (hs : Within L s0 s) (hl : Sub
    0x10000000 L) : Within L s0 (setLimited a0 a1 s) := by
  unfold setLimited
  repeat' (first | with_reducible assumption | with_reducible apply modLane_within)

theorem applyUse_within {L : Nat} {s0 : State} (a0 : Fin 48) {s : State} (hs : Within L s0 s) (hl : Sub 0x32ff8ffb0c7
    L) : Within L s0 (applyUse a0 s) := by
  unfold applyUse
  repeat' (first
    | with_reducible assumption | ((with_reducible refine Sub.le ?_ hl); rfl) | (intro x; clear_value x) | lift_lets
    | with_reducible apply modLane_within | with_reducible apply laneStops_within | split)

theorem storeLaneCfg_within {L : Nat} {s0 : State} (a0 : Fin 48) (a1 : Word) {s : State} (hs : Within L s0 s) (hl :
    Sub 0x32ff8ffb0c7 L) : Within L s0 (storeLaneCfg a0 a1 s) := by
  unfold storeLaneCfg
  repeat' (first
    | with_reducible assumption | ((with_reducible refine Sub.le ?_ hl); rfl)
    | (intro x; refine Within.cut (L := L) (s := s0) x ?_ ?_; rotate_left; intro hx; clear_value x; rotate_left; subst x)
    | (intro x; clear_value x) | intro _ | lift_lets | with_reducible apply setReg_within
    | with_reducible apply modReg_within | with_reducible apply setLimited_within
    | with_reducible apply applyUse_within | with_reducible refine Within.foldl ?_ ?_ | split)

theorem reclamp_within {L : Nat} {s0 : State} (a0 : Fin 48) {s : State} (hs : Within L s0 s) (hl : Sub 0x2 L) : Within
    L s0 (reclamp a0 s) := by
  unfold reclamp
  repeat' (first
    | with_reducible assumption | (intro x; clear_value x) | intro _ | lift_lets | with_reducible apply setReg_within
    | with_reducible refine Within.foldl ?_ ?_)

theorem storeLane_within {L : Nat} {s0 : State} (a0 : Fin 48) (a1 : Nat) (a2 : Word) (a3 : Word) {s : State} (hs :
    Within L s0 s) (hl : Sub 0x32ff8ffb0c7 L) : Within L s0 (storeLane a0 a1 a2 a3 s) := by
  unfold storeLane
  repeat' (first
    | with_reducible assumption | ((with_reducible refine Sub.le ?_ hl); rfl)
    | (intro x; refine Within.cut (L := L) (s := s0) x ?_ ?_; rotate_left; intro hx; clear_value x; rotate_left; subst x)
    | (intro x; clear_value x) | lift_lets | with_reducible apply setLimited_within
    | with_reducible apply storeLaneCfg_within | with_reducible apply setReg_within
    | with_reducible apply reclamp_within | split)

theorem applyWmEn_within {L : Nat} {s0 : State} (a0 : Fin 64) {s : State} (hs : Within L s0 s) (hl : Sub 0x2000000000
    L) : Within L s0 (applyWmEn a0 s) := by
  unfold applyWmEn
  repeat' (first | with_reducible assumption | with_reducible apply modWm_within | split)

theorem storeWm_within {L : Nat} {s0 : State} (a0 : Fin 64) (a1 : Nat) (a2 : Word) (a3 : Word) {s : State} (hs :
    Within L s0 s) (hl : Sub 0x2000000002 L) : Within L s0 (storeWm a0 a1 a2 a3 s) := by
  unfold storeWm
  repeat' (first
    | with_reducible assumption | ((with_reducible refine Sub.le ?_ hl); rfl)
    | (intro x; refine Within.cut (L := L) (s := s0) x ?_ ?_; rotate_left; intro hx; clear_value x; rotate_left; subst x)
    | (intro x; clear_value x) | lift_lets | with_reducible apply modWm_within
    | with_reducible apply storeListed_within | with_reducible apply applyWmEn_within | split)

theorem storeFc_within {L : Nat} {s0 : State} (a0 : Fin 16) (a1 : Nat) (a2 : Word) (a3 : Word) {s : State} (hs :
    Within L s0 s) (hl : Sub (orAll s0 0x73ff8ffb4d7) L) : Within L s0 (storeFc a0 a1 a2 a3 s) := by
  unfold storeFc
  repeat' (first
    | with_reducible assumption | ((with_reducible refine Sub.some ?_ ?_ hl) <;> rfl)
    | (intro x; refine Within.cut (L := L) (s := s0) x ?_ ?_; rotate_left; intro hx; clear_value x; rotate_left; subst x)
    | intro _ | lift_lets | with_reducible apply storeListed_within | with_reducible apply fcRemode_within | split)

theorem rehost_within {L : Nat} {s0 : State} (a0 : State) {s : State} (hs : Within L s0 s) (hl : Sub 0x61ff0ffb4d7 L)
    : Within L s0 (rehost a0 s) := by
  unfold rehost
  repeat' (first
    | with_reducible assumption | ((with_reducible refine Sub.le ?_ hl); rfl)
    | ((with_reducible refine Or.inr (Sub.le ?_ hl)); rfl)
    | ((with_reducible refine Or.inl (fun _ => Eq.symm ?_)); rfl) | with_reducible apply judge_within
    | with_reducible apply modPwr_within | split)

theorem afterStore_within {L : Nat} {s0 : State} (a0 : Nat) (a1 : State) {s : State} (hs : Within L s0 s) (hl : Sub
    (orAll s0 0x47bff8ffb4d7) L) : Within L s0 (afterStore a0 a1 s) := by
  unfold afterStore
  repeat' (first
    | with_reducible assumption | ((with_reducible refine Sub.some ?_ ?_ hl) <;> rfl)
    | ((with_reducible refine Sub.both ?_ hl); rfl)
    | (intro x; refine Within.cut (L := L) (s := s0) x ?_ ?_; rotate_left; intro hx; clear_value x; rotate_left; subst x)
    | intro _ | lift_lets | with_reducible apply rehost_within | with_reducible apply refSelect_within
    | with_reducible apply sofStops_within | with_reducible apply arbitrate_within
    | with_reducible apply chgUpdate_within | with_reducible apply judgeLow_within
    | with_reducible apply combine_within | with_reducible apply judgeGroups_within
    | with_reducible apply clampedEnds_within | with_reducible apply holdTrim_within
    | with_reducible apply setTrimmed_within | with_reducible apply seedEmber_within
    | with_reducible apply usbReattach_within | with_reducible apply usbRelease_within
    | with_reducible apply leashReturn_within | split)

theorem storeTwb_within {L : Nat} {s0 : State} (a0 : Nat) (a1 : Word) (a2 : Word) {s : State} (hs : Within L s0 s) (hl
    : Sub 0x30000fb90c3 L) : Within L s0 (storeTwb a0 a1 a2 s) := by
  unfold storeTwb
  repeat' (first
    | with_reducible assumption | ((with_reducible refine Sub.le ?_ hl); rfl)
    | (intro x; refine Within.cut (L := L) (s := s0) x ?_ ?_; rotate_left; intro hx; clear_value x; rotate_left; subst x)
    | intro _ | lift_lets | with_reducible apply storeListed_within | with_reducible apply portStop_within | split)

theorem storeOwl_within {L : Nat} {s0 : State} (a0 : Nat) (a1 : Word) (a2 : Word) {s : State} (hs : Within L s0 s) (hl
    : Sub 0x40000000002 L) : Within L s0 (storeOwl a0 a1 a2 s) := by
  unfold storeOwl
  repeat' (first
    | with_reducible assumption | ((with_reducible refine Sub.le ?_ hl); rfl)
    | (intro x; refine Within.cut (L := L) (s := s0) x ?_ ?_; rotate_left; intro hx; clear_value x; rotate_left; subst x)
    | intro _ | lift_lets | with_reducible apply storeListed_within | with_reducible apply owlApply_within | split)

theorem store_within {L : Nat} {s0 : State} (a0 : Nat) (a1 : Word) (a2 : Word) {s : State} (hs : Within L s0 s) (hl :
    Sub (orAll s0 0x47bff8ffb4d7) L) : Within L s0 (store a0 a1 a2 s) := by
  unfold store
  repeat' (first
    | with_reducible assumption | ((with_reducible refine Sub.some ?_ ?_ hl) <;> rfl)
    | ((with_reducible refine Sub.both ?_ hl); rfl) | with_reducible apply settle_within
    | with_reducible apply storeLane_within | with_reducible apply setReact_within
    | with_reducible apply setDsel_within | with_reducible apply storeWm_within | with_reducible apply storeFc_within
    | with_reducible apply storeTwb_within | with_reducible apply storeOwl_within
    | with_reducible apply afterStore_within | with_reducible apply storeListed_within | split)

/-! ### Machine/Start.lean -/

theorem setChem_within {L : Nat} {s0 : State} (a0 : Bool) {s : State} (hs : Within L s0 s) (hl : Sub 0x100000002 L) :
    Within L s0 (setChem a0 s) := by
  unfold setChem
  repeat' (first
    | with_reducible assumption | ((with_reducible refine Sub.le ?_ hl); rfl) | with_reducible apply modReg_within
    | with_reducible apply setReg_within | with_reducible apply modChg_within)

theorem wake_within {L : Nat} {s0 : State} (a0 : Word) (a1 : StartWorld) {s : State} (hs : Within L s0 s) (hl : Sub
    0x7fffffffffff L) : Within L s0 (wake a0 a1 s) := by
  unfold wake
  dsimp only
  refine owlApply_within _ (owlApply_within _ (factState_within (modChg_within _ (setReg_within _ _ (setChem_within _ ?_ (Sub.le rfl hl)) (Sub.le rfl hl)) (Sub.le rfl hl)) (Sub.le rfl hl)) (Sub.le rfl hl)) (Sub.le rfl hl)
  exact Plain.within (denFall_within hs (Sub.le rfl hl)) ⟨rfl, le_refl _, rfl, rfl, rfl, rfl, rfl, rfl, rfl, rfl, rfl, rfl, rfl, rfl, rfl, rfl, rfl⟩
    (fun p hp => by cases p <;> first | rfl | exact causes_refl | (refine off (Sub.le ?_ hl) hp; rfl))

theorem chargerStartup_within {L : Nat} {s0 : State} {s : State} (hs : Within L s0 s) (hl : Sub 0xfa004a083 L) :
    Within L s0 (chargerStartup s) := by
  unfold chargerStartup
  repeat' (first | with_reducible assumption | with_reducible apply setChg_within | split)

theorem toBurrow_within {L : Nat} {s0 : State} {s : State} (hs : Within L s0 s) (hl : Sub 0x7fffffffffff L) : Within L
    s0 (toBurrow s) := by
  unfold toBurrow
  repeat' (first
    | with_reducible assumption | ((with_reducible refine Sub.le ?_ hl); rfl)
    | ((with_reducible refine Or.inr (Sub.le ?_ hl)); rfl) | with_reducible apply denFall_within
    | with_reducible apply modPwr_within)

theorem backToBurrow_within {L : Nat} {s0 : State} (a0 : StartWorld) {s : State} (hs : Within L s0 s) (hl : Sub
    0x7fffffffffff L) : Within L s0 (backToBurrow a0 s) := by
  unfold backToBurrow
  repeat' (first
    | with_reducible assumption | ((with_reducible refine Sub.le ?_ hl); rfl)
    | ((with_reducible refine Or.inr (Sub.le ?_ hl)); rfl) | with_reducible apply toBurrow_within
    | with_reducible apply modPwr_within)

theorem hold_within {L : Nat} {s0 : State} (a0 : BootHold) (a1 : Stage) {s : State} (hs : Within L s0 s) (hl : Sub 0x4
    L) : Within L s0 (hold a0 a1 s) := by
  unfold hold
  repeat' (first
    | with_reducible assumption | ((with_reducible refine Or.inl (fun _ => Eq.symm ?_)); rfl)
    | with_reducible apply modPwr_within)

theorem markAbsent_within {L : Nat} {s0 : State} (a0 : BitVec 8) {s : State} (hs : Within L s0 s) (hl : Sub 0x1004a087
    L) : Within L s0 (markAbsent a0 s) := by
  unfold markAbsent
  repeat' (first
    | with_reducible assumption | ((with_reducible refine Sub.le ?_ hl); rfl)
    | ((with_reducible refine Or.inl (fun _ => Eq.symm ?_)); rfl) | intro _ | with_reducible apply event_within
    | with_reducible apply modLanes_within | with_reducible apply modPwr_within
    | with_reducible refine Within.foldl ?_ ?_ | split)

theorem judgeBanks_within {L : Nat} {s0 : State} (a0 : StartWorld) {s : State} (hs : Within L s0 s) (hl : Sub
    0x1004a087 L) : Within L s0 (judgeBanks a0 s) := by
  unfold judgeBanks
  repeat' (first
    | with_reducible assumption | ((with_reducible refine Sub.le ?_ hl); rfl)
    | ((with_reducible refine Or.inl (fun _ => Eq.symm ?_)); rfl) | with_reducible apply markAbsent_within
    | with_reducible apply modPwr_within | split)

theorem chargerStarts_within {L : Nat} {s0 : State} {s : State} (hs : Within L s0 s) (hl : Sub 0xfa004a087 L) : Within
    L s0 (chargerStarts s) := by
  unfold chargerStarts
  repeat' (first
    | with_reducible assumption | ((with_reducible refine Sub.le ?_ hl); rfl)
    | (intro x; refine Within.cut (L := L) (s := s0) x ?_ ?_; rotate_left; intro hx; clear_value x; rotate_left; subst x)
    | intro _ | ((with_reducible refine Or.inl (fun _ => Eq.symm ?_)); rfl) | lift_lets
    | with_reducible apply rebase_within | with_reducible apply modPwr_within | with_reducible apply setChg_within
    | split)

theorem closeBattery_within {L : Nat} {s0 : State} (a0 : StartWorld) {s : State} (hs : Within L s0 s) (hl : Sub
    0x20ff0ffb4c7 L) : Within L s0 (closeBattery a0 s) := by
  unfold closeBattery
  repeat' (first
    | with_reducible assumption | ((with_reducible refine Sub.le ?_ hl); rfl)
    | ((with_reducible refine Or.inr (Sub.le ?_ hl)); rfl)
    | (intro x; refine Within.cut (L := L) (s := s0) x ?_ ?_; rotate_left; intro hx; clear_value x; rotate_left; subst x)
    | intro _ | ((with_reducible refine Or.inl (fun _ => Eq.symm ?_)); rfl) | lift_lets
    | with_reducible apply modClk_within | with_reducible apply modPwr_within | with_reducible apply modLink_within
    | with_reducible apply gaugeVolts_within | with_reducible apply chargerStarts_within
    | with_reducible apply capBattUpdate_within | with_reducible apply judgeBanks_within | split)

theorem applyPair_within {L : Nat} {s0 : State} (a0 : Nat) (a1 : Word) {s : State} (hs : Within L s0 s) (hl : Sub
    (orAll s0 0x47bff8ffb4d7) L) : Within L s0 (applyPair a0 a1 s) := by
  unfold applyPair
  repeat' (first
    | with_reducible assumption | ((with_reducible refine Sub.some ?_ ?_ hl) <;> rfl) | (intro x; clear_value x)
    | lift_lets | with_reducible apply countReg_within | with_reducible apply store_within | split)

theorem applyPairs_within {L : Nat} {s0 : State} (a0 : Fin 2) (a1 : Nat) (a2 : Nat) {s : State} (hs : Within L s0 s)
    (hl : Sub (orAll s0 0x47bff8ffb4d7) L) : Within L s0 (applyPairs a0 a1 a2 s) := by
  induction a1 generalizing a0 a2 s with
  | zero =>
    unfold applyPairs
    repeat' (first | with_reducible assumption)
  | succ n ih =>
    unfold applyPairs
    repeat' (first
      | with_reducible assumption | (intro x; clear_value x) | lift_lets | with_reducible apply applyPair_within
      | with_reducible apply ih | split)

theorem applyImage_within {L : Nat} {s0 : State} (a0 : Fin 2) {s : State} (hs : Within L s0 s) (hl : Sub (orAll s0
    0x47bff9ffb4d7) L) : Within L s0 (applyImage a0 s) := by
  unfold applyImage
  repeat' (first
    | with_reducible assumption | ((with_reducible refine Sub.some ?_ ?_ hl) <;> rfl)
    | ((with_reducible refine Sub.both ?_ hl); rfl) | ((with_reducible refine Or.inr (Sub.some ?_ ?_ hl)) <;> rfl)
    | (intro x; refine Within.cut (L := L) (s := s0) x ?_ ?_; rotate_left; intro hx; clear_value x; rotate_left; subst x)
    | (intro x; clear_value x) | ((with_reducible refine Or.inl (fun _ => Eq.symm ?_)); rfl)
    | (intro _; (with_reducible refine Eq.symm ?_); rfl) | lift_lets | with_reducible apply modJnl_within
    | with_reducible apply setChem_within | with_reducible apply modPwr_within | with_reducible apply setReg_within
    | with_reducible apply refSelect_within | with_reducible apply modReg_within
    | with_reducible apply applyPairs_within | split)

theorem imageStep_within {L : Nat} {s0 : State} {s : State} (hs : Within L s0 s) (hl : Sub (orAll s0 0x47bff9ffb4d7)
    L) : Within L s0 (imageStep s) := by
  unfold imageStep
  repeat' (first
    | with_reducible assumption | ((with_reducible refine Sub.some ?_ ?_ hl) <;> rfl)
    | ((with_reducible refine Or.inr (Sub.some ?_ ?_ hl)) <;> rfl)
    | (intro x; refine Within.cut (L := L) (s := s0) x ?_ ?_; rotate_left; intro hx; clear_value x; rotate_left; subst x)
    | intro _ | ((with_reducible refine Or.inl (fun _ => Eq.symm ?_)); rfl) | lift_lets
    | with_reducible apply modPwr_within | with_reducible apply applyImage_within | split)

theorem setInputs_within {L : Nat} {s0 : State} (a0 : StartWorld) {s : State} (hs : Within L s0 s) (hl : Sub
    0x463ff0ffb4d7 L) : Within L s0 (setInputs a0 s) := by
  unfold setInputs
  repeat' (first
    | with_reducible assumption | ((with_reducible refine Sub.le ?_ hl); rfl)
    | ((with_reducible refine Or.inr (Sub.le ?_ hl)); rfl)
    | (intro x; refine Within.cut (L := L) (s := s0) x ?_ ?_; rotate_left; intro hx; clear_value x; rotate_left; subst x)
    | (intro x; clear_value x) | ((with_reducible refine Or.inl (Eq.symm ?_)); rfl)
    | ((with_reducible refine Eq.symm ?_); rfl) | lift_lets | with_reducible apply modFc_within
    | with_reducible apply combine_within | split | fail_if_no_progress (with_reducible apply Within.parts))

theorem enterState_within {L : Nat} {s0 : State} {s : State} (hs : Within L s0 s) (hl : Sub 0x60ff0ffb0d7 L) : Within
    L s0 (enterState s) := by
  unfold enterState
  repeat' (first
    | with_reducible assumption | ((with_reducible refine Sub.le ?_ hl); rfl)
    | ((with_reducible refine Or.inr (Sub.le ?_ hl)); rfl)
    | (intro x; refine Within.cut (L := L) (s := s0) x ?_ ?_; rotate_left; intro hx; clear_value x; rotate_left; subst x)
    | intro _ | ((with_reducible refine Or.inl (fun _ => Eq.symm ?_)); rfl) | lift_lets
    | with_reducible apply owlsSettle_within | with_reducible apply arbitrate_within
    | with_reducible apply chgUpdate_within | with_reducible apply modPwr_within
    | with_reducible apply hushClock_within | split)

theorem stillRetired_within {L : Nat} {s0 : State} {s : State} (hs : Within L s0 s) (hl : Sub (orAll s0 0x73ff8ffb4d7)
    L) : Within L s0 (stillRetired s) := by
  unfold stillRetired
  repeat' (first
    | with_reducible assumption | intro _ | lift_lets | with_reducible apply drawNat_within
    | with_reducible apply raise_within | with_reducible refine Within.foldl ?_ ?_ | split)

theorem bankTold_within {L : Nat} {s0 : State} (a0 : State) {s : State} (hs : Within L s0 s) (hl : Sub 0xc00040 L) :
    Within L s0 (bankTold a0 s) := by
  unfold bankTold
  repeat' (first | with_reducible assumption | with_reducible apply commit_within | split)

theorem scanStep_within {L : Nat} {s0 : State} (a0 : StartWorld) {s : State} (hs : Within L s0 s) (hl : Sub (orAll s0
    0x73ff8ffb4d7) L) : Within L s0 (scanStep a0 s) := by
  unfold scanStep
  repeat' (first
    | with_reducible assumption | ((with_reducible refine Sub.some ?_ ?_ hl) <;> rfl)
    | with_reducible apply tamperAfterScan_within | with_reducible apply bankTold_within
    | with_reducible apply project_within | with_reducible apply stillRetired_within
    | with_reducible apply scanBanks_within)

theorem imageSkip_within {L : Nat} {s0 : State} {s : State} (hs : Within L s0 s) (hl : Sub 0x2 L) : Within L s0
    (imageSkip s) := by
  unfold imageSkip
  repeat' (first | with_reducible assumption | with_reducible apply countReg_within)

theorem noteBoot_within {L : Nat} {s0 : State} (a0 : Nat) (a1 : Nat) {s : State} (hs : Within L s0 s) (hl : Sub
    0x88000 L) : Within L s0 (noteBoot a0 a1 s) := by
  unfold noteBoot
  repeat' (first | with_reducible assumption | with_reducible apply noteObject_within | split)

theorem bootRail_within {L : Nat} {s0 : State} (a0 : Fin 2) (a1 : Nat) {s : State} (hs : Within L s0 s) (hl : Sub
    (orAll s0 0x73ff8ffb4d7) L) : Within L s0 (bootRail a0 a1 s) := by
  unfold bootRail
  repeat' (first
    | with_reducible assumption | ((with_reducible refine Sub.some ?_ ?_ hl) <;> rfl) | (intro x; clear_value x)
    | lift_lets | with_reducible apply imageSkip_within | with_reducible apply endCause_within
    | with_reducible apply raise_within | with_reducible apply noteBoot_within | with_reducible apply placeRail_within
    | split)

theorem bootGraph_within {L : Nat} {s0 : State} (a0 : Fin 2) (a1 : Nat) {s : State} (hs : Within L s0 s) (hl : Sub
    0x40088002 L) : Within L s0 (bootGraph a0 a1 s) := by
  unfold bootGraph
  repeat' (first
    | with_reducible assumption | ((with_reducible refine Sub.le ?_ hl); rfl) | with_reducible apply noteBoot_within
    | with_reducible apply setGraph_within | with_reducible apply imageSkip_within | split)

theorem bootEnded_within {L : Nat} {s0 : State} {s : State} (hs : Within L s0 s) (hl : Sub 0x4 L) : Within L s0
    (bootEnded s) := by
  unfold bootEnded
  repeat' (first
    | with_reducible assumption | ((with_reducible refine Or.inl (fun _ => Eq.symm ?_)); rfl)
    | with_reducible apply modPwr_within)

theorem bootRun_within {L : Nat} {s0 : State} (a0 : Fin 2) {s : State} (hs : Within L s0 s) (hl : Sub (orAll s0
    0x61ff0ffb4d7) L) : Within L s0 (bootRun a0 s) := by
  unfold bootRun
  repeat' (first
    | with_reducible assumption | ((with_reducible refine Sub.some ?_ ?_ hl) <;> rfl) | (intro x; clear_value x)
    | lift_lets | with_reducible apply settle_within | with_reducible apply startRun_within
    | with_reducible apply bootEnded_within | split)

theorem bootObjects_within {L : Nat} {s0 : State} (a0 : Fin 2) {s : State} (hs : Within L s0 s) (hl : Sub (orAll s0
    0x73ff8ffb4d7) L) : Within L s0 (bootObjects a0 s) := by
  unfold bootObjects
  repeat' (first
    | with_reducible assumption | ((with_reducible refine Sub.some ?_ ?_ hl) <;> rfl)
    | ((with_reducible refine Sub.both ?_ hl); rfl)
    | (intro x; refine Within.cut (L := L) (s := s0) x ?_ ?_; rotate_left; intro hx; clear_value x; rotate_left; subst x)
    | intro _ | lift_lets | with_reducible apply hold_within | with_reducible apply bootRail_within
    | with_reducible apply bootRun_within | with_reducible apply bootGraph_within
    | with_reducible refine Within.foldl ?_ ?_)

theorem proceed_within {L : Nat} {s0 : State} {s : State} (hs : Within L s0 s) (hl : Sub 0x7fffffffffff L) : Within L
    s0 (proceed s) := by
  unfold proceed
  repeat' (first
    | with_reducible assumption | ((with_reducible refine Sub.le ?_ hl); rfl)
    | ((with_reducible refine Sub.any ?_ hl); rfl) | (intro x; clear_value x) | lift_lets
    | with_reducible apply toBurrow_within | with_reducible apply hold_within
    | with_reducible apply bootObjects_within | split)

theorem runStart_within {L : Nat} {s0 : State} (a0 : StartWorld) {s : State} (hs : Within L s0 s) (hl : Sub
    0x7fffffffffff L) : Within L s0 (runStart a0 s) := by
  unfold runStart
  repeat' (first
    | with_reducible assumption | ((with_reducible refine Sub.le ?_ hl); rfl)
    | ((with_reducible refine Sub.any ?_ hl); rfl) | with_reducible apply usbReattach_within
    | with_reducible apply proceed_within | with_reducible apply scanStep_within
    | with_reducible apply enterState_within | with_reducible apply setInputs_within
    | with_reducible apply imageStep_within | with_reducible apply closeBattery_within
    | with_reducible apply hold_within)

theorem startUp_within {L : Nat} {s0 : State} (a0 : Word) (a1 : StartWorld) {s : State} (hs : Within L s0 s) (hl : Sub
    0x7fffffffffff L) : Within L s0 (startUp a0 a1 s) := by
  unfold startUp
  repeat' (first
    | with_reducible assumption | ((with_reducible refine Sub.le ?_ hl); rfl)
    | (intro x; refine Within.cut (L := L) (s := s0) x ?_ ?_; rotate_left; intro hx; clear_value x; rotate_left; subst x)
    | (intro x; clear_value x) | lift_lets | with_reducible apply wake_within
    | with_reducible apply backToBurrow_within | with_reducible apply hold_within
    | with_reducible apply chargerStartup_within | with_reducible apply runStart_within | split)

theorem holdAgain_within {L : Nat} {s0 : State} (a0 : StartWorld) {s : State} (hs : Within L s0 s) (hl : Sub
    0x7fffffffffff L) : Within L s0 (holdAgain a0 s) := by
  unfold holdAgain
  repeat' (first
    | with_reducible assumption | ((with_reducible refine Sub.le ?_ hl); rfl)
    | (intro x; refine Within.cut (L := L) (s := s0) x ?_ ?_; rotate_left; intro hx; clear_value x; rotate_left; subst x)
    | (intro x; clear_value x) | lift_lets | with_reducible apply sawBatsns_within | with_reducible apply hold_within
    | with_reducible apply toBurrow_within | with_reducible apply runStart_within
    | with_reducible apply judgeBanks_within | with_reducible apply proceed_within | split)

/-! ### Machine/Power.lean -/

theorem coldStart_within {L : Nat} {s0 : State} (a0 : StartWorld) {s : State} (hs : Within L s0 s) (hl : Sub
    0x7fffffffffff L) : Within L s0 (coldStart a0 s) := by
  unfold coldStart
  repeat' (first | with_reducible assumption | with_reducible apply startUp_within | split)

theorem exitBtn_within {L : Nat} {s0 : State} (a0 : StartWorld) {s : State} (hs : Within L s0 s) (hl : Sub
    0x7fffffffffff L) : Within L s0 (exitBtn a0 s) := by
  unfold exitBtn
  repeat' (first | with_reducible assumption | with_reducible apply startUp_within | split)

theorem exitAcin_within {L : Nat} {s0 : State} (a0 : StartWorld) {s : State} (hs : Within L s0 s) (hl : Sub
    0x7fffffffffff L) : Within L s0 (exitAcin a0 s) := by
  unfold exitAcin
  repeat' (first | with_reducible assumption | with_reducible apply startUp_within | split)

theorem offTimeEnd_within {L : Nat} {s0 : State} (a0 : StartWorld) {s : State} (hs : Within L s0 s) (hl : Sub
    0x7fffffffffff L) : Within L s0 (offTimeEnd a0 s) := by
  unfold offTimeEnd
  repeat' (first | with_reducible assumption | with_reducible apply startUp_within | split)

theorem bootHoldClear_within {L : Nat} {s0 : State} (a0 : StartWorld) {s : State} (hs : Within L s0 s) (hl : Sub
    0x7fffffffffff L) : Within L s0 (bootHoldClear a0 s) := by
  unfold bootHoldClear
  repeat' (first | with_reducible assumption | with_reducible apply holdAgain_within | split)

theorem biEnd_within {L : Nat} {s0 : State} (a0 : Bool) {s : State} (hs : Within L s0 s) (hl : Sub 0x7fffffffffff L) :
    Within L s0 (biEnd a0 s) := by
  unfold biEnd
  repeat' (first
    | with_reducible assumption | ((with_reducible refine Sub.le ?_ hl); rfl)
    | ((with_reducible refine Sub.any ?_ hl); rfl) | ((with_reducible refine Or.inr (Sub.le ?_ hl)); rfl)
    | (intro x; refine Within.cut (L := L) (s := s0) x ?_ ?_; rotate_left; intro hx; clear_value x; rotate_left; subst x)
    | (intro x; clear_value x) | (intro _; (with_reducible refine Eq.symm ?_); rfl) | lift_lets
    | with_reducible apply modJnl_within | with_reducible apply writeCopies_within
    | with_reducible apply proceed_within | with_reducible apply imageStep_within | split)

theorem acinEdge_within {L : Nat} {s0 : State} (a0 : Bool) {s : State} (hs : Within L s0 s) (hl : Sub 0x400000000006
    L) : Within L s0 (acinEdge a0 s) := by
  unfold acinEdge
  repeat' (first
    | with_reducible assumption | ((with_reducible refine Sub.le ?_ hl); rfl)
    | ((with_reducible refine Or.inr (Sub.le ?_ hl)); rfl)
    | ((with_reducible refine Or.inl (fun _ => Eq.symm ?_)); rfl) | with_reducible apply orReg_within
    | with_reducible apply modPwr_within)

theorem prechargeAgain_within {L : Nat} {s0 : State} {s : State} (hs : Within L s0 s) (hl : Sub 0x200008000004 L) :
    Within L s0 (prechargeAgain s) := by
  unfold prechargeAgain
  repeat' (first
    | with_reducible assumption | ((with_reducible refine Sub.le ?_ hl); rfl)
    | ((with_reducible refine Or.inr (Sub.le ?_ hl)); rfl)
    | ((with_reducible refine Or.inl (fun _ => Eq.symm ?_)); rfl) | with_reducible apply endCause_within
    | with_reducible apply modPwr_within | split)

theorem acinValid_within {L : Nat} {s0 : State} (a0 : Nat) {s : State} (hs : Within L s0 s) (hl : Sub 0x661ff8ffb4d7
    L) : Within L s0 (acinValid a0 s) := by
  unfold acinValid
  repeat' (first
    | with_reducible assumption | ((with_reducible refine Sub.le ?_ hl); rfl)
    | ((with_reducible refine Or.inr (Sub.le ?_ hl)); rfl)
    | (intro x; refine Within.cut (L := L) (s := s0) x ?_ ?_; rotate_left; intro hx; clear_value x; rotate_left; subst x)
    | intro _ | ((with_reducible refine Or.inl (fun _ => Eq.symm ?_)); rfl) | lift_lets
    | with_reducible apply prechargeAgain_within | with_reducible apply acinEdge_within
    | with_reducible apply modPwr_within | with_reducible apply judge_within
    | with_reducible apply chargerStartup_within | with_reducible apply hold_within
    | with_reducible apply chgUpdate_within | split)

theorem acinGoneHeld_within {L : Nat} {s0 : State} {s : State} (hs : Within L s0 s) (hl : Sub 0x7fffffffffff L) :
    Within L s0 (acinGoneHeld s) := by
  unfold acinGoneHeld
  repeat' (first
    | with_reducible assumption | ((with_reducible refine Sub.le ?_ hl); rfl)
    | (intro x; refine Within.cut (L := L) (s := s0) x ?_ ?_; rotate_left; intro hx; clear_value x; rotate_left; subst x)
    | (intro x; clear_value x) | lift_lets | with_reducible apply judge_within | with_reducible apply hold_within
    | with_reducible apply toBurrow_within | with_reducible apply setChg_within | split)

theorem acinInvalid_within {L : Nat} {s0 : State} (a0 : Nat) {s : State} (hs : Within L s0 s) (hl : Sub 0x7fffffffffff
    L) : Within L s0 (acinInvalid a0 s) := by
  unfold acinInvalid
  repeat' (first
    | with_reducible assumption | ((with_reducible refine Sub.le ?_ hl); rfl)
    | ((with_reducible refine Sub.any ?_ hl); rfl) | ((with_reducible refine Or.inr (Sub.le ?_ hl)); rfl)
    | (intro x; refine Within.cut (L := L) (s := s0) x ?_ ?_; rotate_left; intro hx; clear_value x; rotate_left; subst x)
    | (intro x; refine Within.cut (L := L) (s := s0) x.2 ?_ ?_; rotate_left; intro hx; clear_value x; rotate_left; subst x)
    | intro _ | lift_lets | with_reducible apply modPwr_within | with_reducible apply modChg_within
    | with_reducible apply drawNat_within | with_reducible apply acinEdge_within
    | with_reducible apply acinGoneHeld_within | with_reducible apply chgUpdate_within
    | with_reducible apply judge_within | with_reducible apply judgeGauge_within | split)

theorem hostAuto_within {L : Nat} {s0 : State} {s : State} (hs : Within L s0 s) (hl : Sub (orAll s0 0x61ff0ffb4d7) L)
    : Within L s0 (hostAuto s) := by
  unfold hostAuto
  repeat' (first
    | with_reducible assumption | ((with_reducible refine Sub.some ?_ ?_ hl) <;> rfl)
    | with_reducible apply settle_within | with_reducible apply hubRun_within | split)

theorem powerFail_within {L : Nat} {s0 : State} (a0 : BitVec 8) {s : State} (hs : Within L s0 s) (hl : Sub
    0x7fffffffffff L) : Within L s0 (powerFail a0 s) := by
  unfold powerFail
  repeat' (first
    | with_reducible assumption | ((with_reducible refine Sub.le ?_ hl); rfl)
    | ((with_reducible refine Or.inr (Sub.le ?_ hl)); rfl)
    | (intro x; refine Within.cut (L := L) (s := s0) x ?_ ?_; rotate_left; intro hx; clear_value x; rotate_left; subst x)
    | (intro x; refine Within.cut (L := L) (s := s0) x.2 ?_ ?_; rotate_left; intro hx; clear_value x; rotate_left; subst x)
    | (intro x; clear_value x) | lift_lets | with_reducible apply drawNat_within | with_reducible apply modLink_within
    | with_reducible apply writeFirst_within | with_reducible apply denFall_within
    | with_reducible apply modPwr_within | split)

theorem uvBurrow_within {L : Nat} {s0 : State} (a0 : Nat) {s : State} (hs : Within L s0 s) (hl : Sub 0x7fffffffffff L)
    : Within L s0 (uvBurrow a0 s) := by
  unfold uvBurrow
  repeat' (first
    | with_reducible assumption | ((with_reducible refine Sub.le ?_ hl); rfl)
    | ((with_reducible refine Or.inr (Sub.le ?_ hl)); rfl)
    | (intro x; refine Within.cut (L := L) (s := s0) x ?_ ?_; rotate_left; intro hx; clear_value x; rotate_left; subst x)
    | intro _ | lift_lets | with_reducible apply modPwr_within | with_reducible apply denFall_within
    | with_reducible apply burrowStart_within | split)

theorem burrowEnter_within {L : Nat} {s0 : State} (a0 : Word) {s : State} (hs : Within L s0 s) (hl : Sub
    0x7fffffffffff L) : Within L s0 (burrowEnter a0 s) := by
  unfold burrowEnter
  repeat' (first
    | with_reducible assumption | ((with_reducible refine Sub.le ?_ hl); rfl)
    | ((with_reducible refine Sub.any ?_ hl); rfl)
    | (intro x; refine Within.cut (L := L) (s := s0) x ?_ ?_; rotate_left; intro hx; clear_value x; rotate_left; subst x)
    | intro _ | lift_lets | with_reducible apply beginWork_within | with_reducible apply complete_within
    | with_reducible apply commitStart_within | with_reducible apply settle_within
    | with_reducible apply burrowStart_within | split)

theorem shake_within {L : Nat} {s0 : State} {s : State} (hs : Within L s0 s) (hl : Sub 0x4a087 L) : Within L s0 (shake
    s) := by
  unfold shake
  repeat' (first
    | with_reducible assumption | ((with_reducible refine Sub.le ?_ hl); rfl)
    | ((with_reducible refine Or.inl (fun _ => Eq.symm ?_)); rfl) | with_reducible apply event_within
    | with_reducible apply modPwr_within | split)

theorem tornRecord_within {L : Nat} {s0 : State} (a0 : Nat) (a1 : Bool) (a2 : Job) {s : State} (hs : Within L s0 s)
    (hl : Sub 0xc00040 L) : Within L s0 (tornRecord a0 a1 a2 s) := by
  unfold tornRecord
  repeat' (first
    | with_reducible assumption
    | (intro x; refine Within.cut (L := L) (s := s0) x ?_ ?_; rotate_left; intro hx; clear_value x; rotate_left; subst x)
    | (intro x; clear_value x) | lift_lets | with_reducible apply writeFirst_within
    | with_reducible apply writeTorn_within | split)

theorem shakeOff_within {L : Nat} {s0 : State} {s : State} (hs : Within L s0 s) (hl : Sub 0x7fffffffffff L) : Within L
    s0 (shakeOff s) := by
  unfold shakeOff
  repeat' (first
    | with_reducible assumption | ((with_reducible refine Sub.le ?_ hl); rfl)
    | ((with_reducible refine Or.inr (Sub.le ?_ hl)); rfl)
    | (intro x; refine Within.cut (L := L) (s := s0) x ?_ ?_; rotate_left; intro hx; clear_value x; rotate_left; subst x)
    | (intro x; refine Within.cut (L := L) (s := s0) x.2 ?_ ?_; rotate_left; intro hx; clear_value x; rotate_left; subst x)
    | (intro x; refine Within.cut (L := L) (s := s0) x.1 ?_ ?_; rotate_left; intro hx; clear_value x; rotate_left; subst x)
    | (intro x; clear_value x) | lift_lets | with_reducible apply motorsSystem_within
    | with_reducible apply endGrant_within | with_reducible apply drawNat_within
    | with_reducible apply commitJob_within | with_reducible apply tornRecord_within
    | with_reducible apply denFall_within | with_reducible apply lendOff_within
    | with_reducible apply liftOffFree_within | with_reducible apply modPwr_within | split)

theorem hrstRelease_within {L : Nat} {s0 : State} {s : State} (hs : Within L s0 s) (hl : Sub 0x4 L) : Within L s0
    (hrstRelease s) := by
  unfold hrstRelease
  repeat' (first
    | with_reducible assumption | ((with_reducible refine Or.inl (fun _ => Eq.symm ?_)); rfl)
    | with_reducible apply modPwr_within | split)

theorem execColdStart_within {L : Nat} {s0 : State} (a0 : StartWorld) {s : State} (hs : Within L s0 s) (hl : Sub
    0x7fffffffffff L) : WithinOut L s0 (execColdStart a0 s) := by
  unfold execColdStart
  repeat' (first
    | with_reducible assumption | with_reducible apply coldStart_within | with_reducible apply WithinOut.next)

theorem execBootHoldClear_within {L : Nat} {s0 : State} (a0 : StartWorld) {s : State} (hs : Within L s0 s) (hl : Sub
    0x7fffffffffff L) : WithinOut L s0 (execBootHoldClear a0 s) := by
  unfold execBootHoldClear
  repeat' (first
    | with_reducible assumption | with_reducible apply bootHoldClear_within | with_reducible apply WithinOut.next)

theorem execBiCommitDone_within {L : Nat} {s0 : State} (a0 : Bool) {s : State} (hs : Within L s0 s) (hl : Sub
    0x7fffffffffff L) : WithinOut L s0 (execBiCommitDone a0 s) := by
  unfold execBiCommitDone
  repeat' (first
    | with_reducible assumption | with_reducible apply biEnd_within | with_reducible apply WithinOut.next)

theorem execAcinValid_within {L : Nat} {s0 : State} (a0 : Nat) {s : State} (hs : Within L s0 s) (hl : Sub
    0x661ff8ffb4d7 L) : WithinOut L s0 (execAcinValid a0 s) := by
  unfold execAcinValid
  repeat' (first
    | with_reducible assumption | with_reducible apply acinValid_within | with_reducible apply WithinOut.next)

theorem execAcinInvalid_within {L : Nat} {s0 : State} (a0 : Nat) {s : State} (hs : Within L s0 s) (hl : Sub
    0x7fffffffffff L) : WithinOut L s0 (execAcinInvalid a0 s) := by
  unfold execAcinInvalid
  repeat' (first
    | with_reducible assumption | with_reducible apply acinInvalid_within | with_reducible apply WithinOut.next)

theorem execHostAutoRun_within {L : Nat} {s0 : State} {s : State} (hs : Within L s0 s) (hl : Sub (orAll s0
    0x61ff0ffb4d7) L) : WithinOut L s0 (execHostAutoRun s) := by
  unfold execHostAutoRun
  repeat' (first
    | with_reducible assumption | with_reducible apply hostAuto_within | with_reducible apply WithinOut.next)

theorem execPowerFail_within {L : Nat} {s0 : State} (a0 : BitVec 8) {s : State} (hs : Within L s0 s) (hl : Sub
    0x7fffffffffff L) : WithinOut L s0 (execPowerFail a0 s) := by
  unfold execPowerFail
  repeat' (first
    | with_reducible assumption | with_reducible apply powerFail_within | with_reducible apply WithinOut.next)

theorem execUvBurrow_within {L : Nat} {s0 : State} (a0 : Nat) {s : State} (hs : Within L s0 s) (hl : Sub
    0x7fffffffffff L) : WithinOut L s0 (execUvBurrow a0 s) := by
  unfold execUvBurrow
  repeat' (first
    | with_reducible assumption | with_reducible apply uvBurrow_within | with_reducible apply WithinOut.next)

theorem execBurrowEnter_within {L : Nat} {s0 : State} (a0 : Word) {s : State} (hs : Within L s0 s) (hl : Sub
    0x7fffffffffff L) : WithinOut L s0 (execBurrowEnter a0 s) := by
  unfold execBurrowEnter
  repeat' (first
    | with_reducible assumption | with_reducible apply burrowEnter_within | with_reducible apply WithinOut.next)

theorem execBurrowExitBtn_within {L : Nat} {s0 : State} (a0 : StartWorld) {s : State} (hs : Within L s0 s) (hl : Sub
    0x7fffffffffff L) : WithinOut L s0 (execBurrowExitBtn a0 s) := by
  unfold execBurrowExitBtn
  repeat' (first
    | with_reducible assumption | with_reducible apply exitBtn_within | with_reducible apply WithinOut.next)

theorem execBurrowExitAcin_within {L : Nat} {s0 : State} (a0 : StartWorld) {s : State} (hs : Within L s0 s) (hl : Sub
    0x7fffffffffff L) : WithinOut L s0 (execBurrowExitAcin a0 s) := by
  unfold execBurrowExitAcin
  repeat' (first
    | with_reducible assumption | with_reducible apply exitAcin_within | with_reducible apply WithinOut.next)

theorem execShake_within {L : Nat} {s0 : State} {s : State} (hs : Within L s0 s) (hl : Sub 0x4a087 L) : WithinOut L s0
    (execShake s) := by
  unfold execShake
  repeat' (first
    | with_reducible assumption | with_reducible apply shake_within | with_reducible apply WithinOut.next)

theorem execShakePowerOff_within {L : Nat} {s0 : State} {s : State} (hs : Within L s0 s) (hl : Sub 0x7fffffffffff L) :
    WithinOut L s0 (execShakePowerOff s) := by
  unfold execShakePowerOff
  repeat' (first
    | with_reducible assumption | with_reducible apply shakeOff_within | with_reducible apply WithinOut.next)

theorem execShakeOffTimeEnd_within {L : Nat} {s0 : State} (a0 : StartWorld) {s : State} (hs : Within L s0 s) (hl : Sub
    0x7fffffffffff L) : WithinOut L s0 (execShakeOffTimeEnd a0 s) := by
  unfold execShakeOffTimeEnd
  repeat' (first
    | with_reducible assumption | with_reducible apply offTimeEnd_within | with_reducible apply WithinOut.next)

theorem execHrstRelease_within {L : Nat} {s0 : State} {s : State} (hs : Within L s0 s) (hl : Sub 0x4 L) : WithinOut L
    s0 (execHrstRelease s) := by
  unfold execHrstRelease
  repeat' (first
    | with_reducible assumption | with_reducible apply hrstRelease_within | with_reducible apply WithinOut.next)

/-! ### Machine/Resets.lean -/

theorem owlGoes_within {L : Nat} {s0 : State} (a0 : Fin 2) (a1 : OwlCause) {s : State} (hs : Within L s0 s) (hl : Sub
    (orAll s0 0x7fffcffbed7) L) : Within L s0 (owlGoes a0 a1 s) := by
  unfold owlGoes
  repeat' (first
    | with_reducible assumption | ((with_reducible refine Sub.some ?_ ?_ hl) <;> rfl)
    | ((with_reducible refine Sub.both ?_ hl); rfl) | with_reducible apply orReg_within
    | with_reducible apply coreReset_within | with_reducible apply owlRung0_within | split)

theorem owlExpires_within {L : Nat} {s0 : State} (a0 : Fin 2) (a1 : OwlCause) {s : State} (hs : Within L s0 s) (hl :
    Sub (orAll s0 0x7fffcffbed7) L) : Within L s0 (owlExpires a0 a1 s) := by
  unfold owlExpires
  repeat' (first | with_reducible assumption | with_reducible apply owlGoes_within | split)

theorem owlRunsOut_within {L : Nat} {s0 : State} (a0 : Fin 2) (a1 : Bool) {s : State} (hs : Within L s0 s) (hl : Sub
    (orAll s0 0x7fffcffbed7) L) : Within L s0 (owlRunsOut a0 a1 s) := by
  unfold owlRunsOut
  repeat' (first
    | with_reducible assumption | ((with_reducible refine Sub.both ?_ hl); rfl) | with_reducible apply hostFeed_within
    | with_reducible apply owlExpires_within | split)

theorem owlMoves_within {L : Nat} {s0 : State} (a0 : OwlClock) {s : State} (hs : Within L s0 s) (hl : Sub
    0x40000000002 L) : Within L s0 (owlMoves a0 s) := by
  unfold owlMoves
  repeat' (first
    | with_reducible assumption | ((with_reducible refine Sub.le ?_ hl); rfl) | intro _
    | with_reducible apply countReg_within | with_reducible apply modOwl_within
    | with_reducible refine Within.foldl ?_ ?_ | split)

theorem expireOn_within {L : Nat} {s0 : State} (a0 : OwlClock) (a1 : State) {s : State} (hs : Within L s0 s) (hl : Sub
    (orAll s0 0x7fffcffbed7) L) : Within L s0 (expireOn a0 a1 s) := by
  unfold expireOn
  repeat' (first
    | with_reducible assumption | intro _ | with_reducible apply owlExpires_within
    | with_reducible refine Within.foldl ?_ ?_ | split)

theorem expireWdt_within {L : Nat} {s0 : State} {s : State} (hs : Within L s0 s) (hl : Sub (orAll s0 0x7fffcffbed7) L)
    : Within L s0 (expireWdt s) := by
  unfold expireWdt
  repeat' (first
    | with_reducible assumption | (intro x; clear_value x) | intro _ | lift_lets | with_reducible apply owlGoes_within
    | with_reducible refine Within.foldl ?_ ?_ | split)

theorem owlClockStop_within {L : Nat} {s0 : State} (a0 : OwlClock) {s : State} (hs : Within L s0 s) (hl : Sub (orAll
    s0 0x7fffcffbed7) L) : Within L s0 (owlClockStop a0 s) := by
  unfold owlClockStop
  repeat' (first
    | with_reducible assumption | ((with_reducible refine Sub.some ?_ ?_ hl) <;> rfl)
    | ((with_reducible refine Sub.both ?_ hl); rfl) | ((with_reducible refine Or.inr (Sub.some ?_ ?_ hl)) <;> rfl)
    | (intro x; clear_value x) | ((with_reducible refine Or.inl (Eq.symm ?_)); rfl)
    | ((with_reducible refine Eq.symm ?_); rfl) | lift_lets | with_reducible apply raiseOnce_within
    | with_reducible apply owlMoves_within | with_reducible apply expireOn_within | split
    | fail_if_no_progress (with_reducible apply Within.parts))

theorem pulsesAgain_within {L : Nat} {s0 : State} {s : State} (hs : Within L s0 s) (hl : Sub 0x80000000 L) : Within L
    s0 (pulsesAgain s) := by
  unfold pulsesAgain
  repeat' (first
    | with_reducible assumption | intro _ | with_reducible apply modBud_within
    | with_reducible refine Within.foldl ?_ ?_ | split)

theorem adcReset_within {L : Nat} {s0 : State} {s : State} (hs : Within L s0 s) (hl : Sub 0x1000000000 L) : Within L
    s0 (adcReset s) := by
  unfold adcReset
  repeat' (first
    | with_reducible assumption | intro _ | with_reducible apply modSeq_within
    | with_reducible refine Within.foldl ?_ ?_)

theorem busReset_within {L : Nat} {s0 : State} {s : State} (hs : Within L s0 s) (hl : Sub 0x30000fb90c3 L) : Within L
    s0 (busReset s) := by
  unfold busReset
  repeat' (first
    | with_reducible assumption | ((with_reducible refine Sub.le ?_ hl); rfl) | intro _
    | with_reducible apply modPort_within | with_reducible apply endTransfer_within
    | with_reducible refine Within.foldl ?_ ?_)

theorem usbReset_within {L : Nat} {s0 : State} {s : State} (hs : Within L s0 s) (hl : Sub 0x2000004a0c3 L) : Within L
    s0 (usbReset s) := by
  unfold usbReset
  repeat' (first
    | with_reducible assumption | ((with_reducible refine Sub.le ?_ hl); rfl)
    | with_reducible apply usbReattach_within | with_reducible apply usbRelease_within)

theorem domainReset_within {L : Nat} {s0 : State} (a0 : Fin 9) {s : State} (hs : Within L s0 s) (hl : Sub (orAll s0
    0x7fffcffbed7) L) : Within L s0 (domainReset a0 s) := by
  unfold domainReset
  repeat' (first
    | with_reducible assumption | ((with_reducible refine Sub.some ?_ ?_ hl) <;> rfl)
    | ((with_reducible refine Or.inr (Sub.some ?_ ?_ hl)) <;> rfl)
    | (intro x; refine Within.cut (L := L) (s := s0) x ?_ ?_; rotate_left; intro hx; clear_value x; rotate_left; subst x)
    | intro _ | ((with_reducible refine Or.inl (fun _ => Eq.symm ?_)); rfl) | lift_lets
    | with_reducible apply coreReset_within | with_reducible apply modLink_within
    | with_reducible apply linkLost_within | with_reducible apply train_within
    | with_reducible apply pulsesAgain_within | with_reducible apply adcReset_within
    | with_reducible apply usbReset_within | with_reducible apply busReset_within
    | with_reducible apply expireWdt_within | split)

theorem stuckTimer_within {L : Nat} {s0 : State} (a0 : Fin 9) {s : State} (hs : Within L s0 s) (hl : Sub (orAll s0
    0x7fffcffbed7) L) : Within L s0 (stuckTimer a0 s) := by
  unfold stuckTimer
  repeat' (first
    | with_reducible assumption | ((with_reducible refine Sub.some ?_ ?_ hl) <;> rfl)
    | with_reducible apply event_within | with_reducible apply orReg_within | with_reducible apply countReg_within
    | with_reducible apply domainReset_within | split)

theorem execOwlExpiry_within {L : Nat} {s0 : State} (a0 : Fin 2) (a1 : Bool) {s : State} (hs : Within L s0 s) (hl :
    Sub (orAll s0 0x7fffcffbed7) L) : WithinOut L s0 (execOwlExpiry a0 a1 s) := by
  unfold execOwlExpiry
  repeat' (first
    | with_reducible assumption | with_reducible apply owlRunsOut_within | with_reducible apply WithinOut.next)

theorem execOwlClockStop_within {L : Nat} {s0 : State} (a0 : OwlClock) {s : State} (hs : Within L s0 s) (hl : Sub
    (orAll s0 0x7fffcffbed7) L) : WithinOut L s0 (execOwlClockStop a0 s) := by
  unfold execOwlClockStop
  repeat' (first
    | with_reducible assumption | with_reducible apply owlClockStop_within | with_reducible apply WithinOut.next)

theorem execStuckTimer_within {L : Nat} {s0 : State} (a0 : Fin 9) {s : State} (hs : Within L s0 s) (hl : Sub (orAll s0
    0x7fffcffbed7) L) : WithinOut L s0 (execStuckTimer a0 s) := by
  unfold execStuckTimer
  repeat' (first
    | with_reducible assumption | with_reducible apply stuckTimer_within | with_reducible apply WithinOut.next)

/-! ### Machine/Access.lean -/

theorem firstEntry_within {L : Nat} {s0 : State} {s : State} (hs : Within L s0 s) (hl : Sub (orAll s0 0x77ff8ffb4df)
    L) : Within L s0 (firstEntry s) := by
  unfold firstEntry
  repeat' (first
    | with_reducible assumption | ((with_reducible refine Sub.some ?_ ?_ hl) <;> rfl)
    | ((with_reducible refine Sub.both ?_ hl); rfl) | ((with_reducible refine Or.inr (Sub.some ?_ ?_ hl)) <;> rfl)
    | (intro x; refine Within.cut (L := L) (s := s0) x ?_ ?_; rotate_left; intro hx; clear_value x; rotate_left; subst x)
    | intro _ | ((with_reducible refine Or.inl (fun _ => Eq.symm ?_)); rfl) | lift_lets
    | with_reducible apply modPwr_within | with_reducible apply judgeRings_within
    | with_reducible apply sendLtr_within | with_reducible apply calRunEntry_within
    | with_reducible apply replay_within | with_reducible apply owlRunEntry_within)

theorem modeStore_within {L : Nat} {s0 : State} (a0 : Word) {s : State} (hs : Within L s0 s) (hl : Sub (orAll s0
    0x77ff8ffb4df) L) : Within L s0 (modeStore a0 s) := by
  unfold modeStore
  repeat' (first
    | with_reducible assumption | ((with_reducible refine Sub.some ?_ ?_ hl) <;> rfl)
    | ((with_reducible refine Or.inr (Sub.some ?_ ?_ hl)) <;> rfl)
    | (intro x; refine Within.cut (L := L) (s := s0) x ?_ ?_; rotate_left; intro hx; clear_value x; rotate_left; subst x)
    | intro _ | ((with_reducible refine Or.inl (fun _ => Eq.symm ?_)); rfl) | lift_lets
    | with_reducible apply modPwr_within | with_reducible apply setupRecord_within
    | with_reducible apply firstEntry_within | with_reducible apply leaveGranted_within | split)

theorem glbMode_within {L : Nat} {s0 : State} (a0 : Word) {s : State} (hs : Within L s0 s) (hl : Sub (orAll s0
    0x77ff8ffb4df) L) : Within L s0 (glbMode a0 s) := by
  unfold glbMode
  repeat' (first
    | with_reducible assumption | ((with_reducible refine Sub.some ?_ ?_ hl) <;> rfl)
    | with_reducible apply modeStore_within | with_reducible apply lockedWrite_within | split)

theorem keyStore_within {L : Nat} {s0 : State} (a0 : Fin 4) (a1 : Fin 4) (a2 : Word) {s : State} (hs : Within L s0 s)
    (hl : Sub 0xc08042 L) : Within L s0 (keyStore a0 a1 a2 s) := by
  unfold keyStore
  repeat' (first
    | with_reducible assumption | ((with_reducible refine Sub.le ?_ hl); rfl)
    | (refine modKey_within _ _ ?_ (Sub.le rfl hl) (fun h => by rw [if_pos h]; exact ⟨h, rfl⟩))
    | (intro x; refine Within.cut (L := L) (s := s0) x ?_ ?_; rotate_left; intro hx; clear_value x; rotate_left; subst x)
    | (intro x; refine Within.cut (L := L) (s := s0) x.2 ?_ ?_; rotate_left; intro hx; clear_value x; rotate_left; subst x)
    | (intro x; clear_value x) | lift_lets | with_reducible apply lockCount_within
    | with_reducible apply drawWord_within | with_reducible apply setupRecord_within
    | with_reducible apply modKey_within | split)

theorem keyWrite_within {L : Nat} {s0 : State} (a0 : Nat) (a1 : Word) {s : State} (hs : Within L s0 s) (hl : Sub
    0xc08042 L) : Within L s0 (keyWrite a0 a1 s) := by
  unfold keyWrite
  repeat' (first | with_reducible assumption | with_reducible apply keyStore_within | split)

theorem fuseStart_within {L : Nat} {s0 : State} (a0 : Word) {s : State} (hs : Within L s0 s) (hl : Sub 0x8000 L) :
    Within L s0 (fuseStart a0 s) := by
  unfold fuseStart
  repeat' (first
    | with_reducible assumption | (refine modKey_within _ _ ?_ (Sub.le rfl hl) (fun h => ⟨h, rfl⟩))
    | (intro x; clear_value x) | intro _ | lift_lets | with_reducible apply modKey_within | split)

theorem fuseDone_within {L : Nat} {s0 : State} {s : State} (hs : Within L s0 s) (hl : Sub 0x8000 L) : Within L s0
    (fuseDone s) := by
  unfold fuseDone
  refine modEng_within' _ hs (Sub.le rfl hl) (fun k h => ?_) (fun _ => Good.eng rfl rfl) ?_ ?_ ?_ ?_ ?_ ?_
  · simp only [Fin.getElem_fin, Vector.getElem_map] at *
    split
    · exact ⟨rfl, rfl⟩
    · exact ⟨h, rfl⟩
  all_goals exact .inl fun _ => rfl

theorem epochHi_within {L : Nat} {s0 : State} (a0 : Word) {s : State} (hs : Within L s0 s) (hl : Sub 0xc00060 L) :
    Within L s0 (epochHi a0 s) := by
  unfold epochHi
  repeat' (first
    | with_reducible assumption | ((with_reducible refine Sub.le ?_ hl); rfl)
    | ((with_reducible refine Or.inr (Sub.le ?_ hl)); rfl)
    | (intro x; refine Within.cut (L := L) (s := s0) x ?_ ?_; rotate_left; intro hx; clear_value x; rotate_left; subst x)
    | (intro x; clear_value x) | ((with_reducible refine Or.inl (Eq.symm ?_)); rfl)
    | ((with_reducible refine Eq.symm ?_); rfl) | lift_lets | with_reducible apply setupRecord_within
    | fail_if_no_progress (with_reducible apply Within.parts))

theorem epochLo_within {L : Nat} {s0 : State} (a0 : Word) {s : State} (hs : Within L s0 s) (hl : Sub 0xc00062 L) :
    Within L s0 (epochLo a0 s) := by
  unfold epochLo
  repeat' (first
    | with_reducible assumption | ((with_reducible refine Sub.le ?_ hl); rfl)
    | ((with_reducible refine Or.inr (Sub.le ?_ hl)); rfl)
    | (intro x; refine Within.cut (L := L) (s := s0) x ?_ ?_; rotate_left; intro hx; clear_value x; rotate_left; subst x)
    | (intro x; clear_value x) | ((with_reducible refine Or.inl (Eq.symm ?_)); rfl)
    | ((with_reducible refine Eq.symm ?_); rfl) | lift_lets | with_reducible apply setupRecord_within
    | with_reducible apply setReg_within | with_reducible apply commitNew_within
    | fail_if_no_progress (with_reducible apply Within.parts))

theorem linkCtl_within {L : Nat} {s0 : State} (a0 : Word) {s : State} (hs : Within L s0 s) (hl : Sub 0x4000cc2fac3 L)
    : Within L s0 (linkCtl a0 s) := by
  unfold linkCtl
  repeat' (first
    | with_reducible assumption | ((with_reducible refine Sub.le ?_ hl); rfl)
    | ((with_reducible refine Or.inr (Sub.le ?_ hl)); rfl)
    | (intro x; refine Within.cut (L := L) (s := s0) x ?_ ?_; rotate_left; intro hx; clear_value x; rotate_left; subst x)
    | (intro x; clear_value x) | ((with_reducible refine Or.inl (fun _ => Eq.symm ?_)); rfl) | lift_lets
    | with_reducible apply setupRecord_within | with_reducible apply storeFields_within
    | with_reducible apply lockCount_within | with_reducible apply endCause_within
    | with_reducible apply modLink_within | with_reducible apply holdNow_within
    | with_reducible apply writeRelease_within | split)

theorem ackWrite_within {L : Nat} {s0 : State} (a0 : Fin 2) (a1 : Word) {s : State} (hs : Within L s0 s) (hl : Sub
    0x8c00040 L) : Within L s0 (ackWrite a0 a1 s) := by
  unfold ackWrite
  repeat' (first
    | with_reducible assumption | ((with_reducible refine Sub.le ?_ hl); rfl)
    | (intro x; refine Within.cut (L := L) (s := s0) x ?_ ?_; rotate_left; intro hx; clear_value x; rotate_left; subst x)
    | intro _ | lift_lets | with_reducible apply setupRecord_within | with_reducible apply headClear_within
    | with_reducible apply overflowEnds_within | split)

theorem w1cWrite_within {L : Nat} {s0 : State} (a0 : Nat) (a1 : Word) {s : State} (hs : Within L s0 s) (hl : Sub
    0x8c00042 L) : Within L s0 (w1cWrite a0 a1 s) := by
  unfold w1cWrite
  repeat' (first
    | with_reducible assumption | ((with_reducible refine Sub.le ?_ hl); rfl) | with_reducible apply ackWrite_within
    | with_reducible apply clearBits_within | with_reducible apply setupRecord_within | split)

theorem reservedWrite_within {L : Nat} {s0 : State} {s : State} (hs : Within L s0 s) (hl : Sub 0x2 L) : Within L s0
    (reservedWrite s) := by
  unfold reservedWrite
  repeat' (first | with_reducible assumption | with_reducible apply countReg_within)

theorem partialWrite_within {L : Nat} {s0 : State} {s : State} (hs : Within L s0 s) (hl : Sub 0x2 L) : Within L s0
    (partialWrite s) := by
  unfold partialWrite
  repeat' (first | with_reducible assumption | with_reducible apply countReg_within)

theorem writeDefined_within {L : Nat} {s0 : State} (a0 : Nat) (a1 : Acc) (a2 : Word) {s : State} (hs : Within L s0 s)
    (hl : Sub (orAll s0 0x47fffefffeff) L) : Within L s0 (writeDefined a0 a1 a2 s) := by
  unfold writeDefined
  repeat' (first
    | with_reducible assumption | ((with_reducible refine Sub.some ?_ ?_ hl) <;> rfl)
    | ((with_reducible refine Sub.both ?_ hl); rfl) | (with_reducible refine Within.ite ?_ ?_) | intro _
    | with_reducible apply glbMode_within | with_reducible apply keyWrite_within | with_reducible apply inSetup_within
    | with_reducible apply fuseStart_within | with_reducible apply epochLo_within
    | with_reducible apply epochHi_within | with_reducible apply setReg_within | with_reducible apply linkCtl_within
    | with_reducible apply linkPollWrite_within | with_reducible apply ringWrite_within
    | with_reducible apply jnlCtlStore_within | with_reducible apply biCtlStore_within
    | with_reducible apply biDataStore_within | with_reducible apply biMacStore_within
    | with_reducible apply w1cWrite_within | with_reducible apply setupRecord_within
    | with_reducible apply storeListed_within | with_reducible apply store_within)

theorem writeAt_within {L : Nat} {s0 : State} (a0 : Nat) (a1 : BitVec 4) (a2 : Word) {s : State} (hs : Within L s0 s)
    (hl : Sub (orAll s0 0x47fffefffeff) L) : Within L s0 (writeAt a0 a1 a2 s) := by
  unfold writeAt
  repeat' (first
    | with_reducible assumption | ((with_reducible refine Sub.some ?_ ?_ hl) <;> rfl)
    | with_reducible apply reservedWrite_within | with_reducible apply writeDefined_within
    | with_reducible apply partialWrite_within | split)

theorem modLatch_within {L : Nat} {s0 : State} (a0 : Source) (a1 : ReadLatch → ReadLatch) {s : State} (hs : Within L
    s0 s) (hl : Sub 0x20 L) : Within L s0 (modLatch a0 a1 s) := by
  unfold modLatch
  repeat' (first
    | with_reducible assumption | ((with_reducible refine Or.inr (Sub.le ?_ hl)); rfl)
    | ((with_reducible refine Or.inl (Eq.symm ?_)); rfl) | ((with_reducible refine Eq.symm ?_); rfl) | lift_lets
    | split | fail_if_no_progress (with_reducible apply Within.parts))

theorem latchDen_within {L : Nat} {s0 : State} (a0 : Source) {s : State} (hs : Within L s0 s) (hl : Sub 0x20 L) :
    Within L s0 (latchDen a0 s) := by
  unfold latchDen
  repeat' (first | with_reducible assumption | with_reducible apply modLatch_within)

theorem latchAuth_within {L : Nat} {s0 : State} (a0 : Source) (a1 : Fin 4) {s : State} (hs : Within L s0 s) (hl : Sub
    0x20 L) : Within L s0 (latchAuth a0 a1 s) := by
  unfold latchAuth
  repeat' (first | with_reducible assumption | with_reducible apply modLatch_within)

theorem latchHbeat_within {L : Nat} {s0 : State} (a0 : Source) {s : State} (hs : Within L s0 s) (hl : Sub 0x20 L) :
    Within L s0 (latchHbeat a0 s) := by
  unfold latchHbeat
  repeat' (first | with_reducible assumption | with_reducible apply modLatch_within)

theorem readEffect_within {L : Nat} {s0 : State} (a0 : Source) (a1 : Nat) {s : State} (hs : Within L s0 s) (hl : Sub
    0x20 L) : Within L s0 (readEffect a0 a1 s) := by
  unfold readEffect
  repeat' (first
    | with_reducible assumption | with_reducible apply latchDen_within | with_reducible apply latchHbeat_within
    | with_reducible apply latchAuth_within | split)

theorem writeGranted_within {L : Nat} {s0 : State} (a0 : Nat) (a1 : Word) {s : State} (hs : Within L s0 s) (hl : Sub
    (orAll s0 0x47fffefffeff) L) : Within L s0 (writeGranted a0 a1 s) := by
  unfold writeGranted
  repeat' (first
    | with_reducible assumption | ((with_reducible refine Sub.some ?_ ?_ hl) <;> rfl)
    | ((with_reducible refine Sub.both ?_ hl); rfl) | ((with_reducible refine Or.inr (Sub.some ?_ ?_ hl)) <;> rfl)
    | ((with_reducible refine Or.inl (fun _ => Eq.symm ?_)); rfl) | with_reducible apply modPwr_within
    | with_reducible apply writeAt_within | split)

theorem portWord_within {L : Nat} {s0 : State} (a0 : Nat) (a1 : Word) {s : State} (hs : Within L s0 s) (hl : Sub
    (orAll s0 0x47fffefffeff) L) : Within L s0 (portWord a0 a1 s) := by
  unfold portWord
  repeat' (first
    | with_reducible assumption | with_reducible apply writeGranted_within | with_reducible apply writeAt_within
    | split)

theorem registerWrite_within {L : Nat} {s0 : State} (a0 : Source) (a1 : Nat) (a2 : BitVec 4) (a3 : Word) {s : State}
    (hs : Within L s0 s) (hl : Sub (orAll s0 0x47fffefffeff) L) : Within L s0 (registerWrite a0 a1 a2 a3 s) := by
  unfold registerWrite
  repeat' (first
    | with_reducible assumption | with_reducible apply writeAt_within | with_reducible apply portWord_within | split)

theorem hostWrite_within {L : Nat} {s0 : State} (a0 : Nat) (a1 : Word) {s : State} (hs : Within L s0 s) (hl : Sub
    (orAll s0 0x47fffefffeff) L) : Within L s0 (hostWrite a0 a1 s) := by
  unfold hostWrite
  repeat' (first | with_reducible assumption | with_reducible apply registerWrite_within)

theorem readIf_within {L : Nat} {s0 : State} (a0 : State → State) (a1 : Source) {s : State} (ha0 : ∀ t, Within L s0 t
    → Within L s0 (a0 t)) (hs : Within L s0 s) : Within L s0 (readIf a0 a1 s) := by
  unfold readIf
  repeat' (first | with_reducible assumption | with_reducible apply ha0 | split)

theorem execGlbModeWrite_within {L : Nat} {s0 : State} (a0 : Word) {s : State} (hs : Within L s0 s) (hl : Sub (orAll
    s0 0x47fffefffeff) L) : WithinOut L s0 (execGlbModeWrite a0 s) := by
  unfold execGlbModeWrite
  repeat' (first
    | with_reducible assumption | with_reducible apply hostWrite_within | with_reducible apply WithinOut.next)

theorem execRegisterWrite_within {L : Nat} {s0 : State} (a0 : Source) (a1 : BitVec 16) (a2 : BitVec 4) (a3 : Word) {s
    : State} (hs : Within L s0 s) (hl : Sub (orAll s0 0x47fffefffeff) L) : WithinOut L s0 (execRegisterWrite a0 a1 a2
    a3 s) := by
  unfold execRegisterWrite
  repeat' (first
    | with_reducible assumption | with_reducible apply registerWrite_within | with_reducible apply WithinOut.next)

theorem execDentimeLoRead_within {L : Nat} {s0 : State} (a0 : Source) {s : State} (hs : Within L s0 s) (hl : Sub 0x20
    L) : WithinOut L s0 (execDentimeLoRead a0 s) := by
  unfold execDentimeLoRead
  repeat' (first
    | with_reducible assumption | intro _ | with_reducible apply readIf_within | with_reducible apply latchDen_within
    | with_reducible apply WithinOut.next)

theorem execAuthtagLoRead_within {L : Nat} {s0 : State} (a0 : Source) (a1 : Fin 4) {s : State} (hs : Within L s0 s)
    (hl : Sub 0x20 L) : WithinOut L s0 (execAuthtagLoRead a0 a1 s) := by
  unfold execAuthtagLoRead
  repeat' (first
    | with_reducible assumption | intro _ | with_reducible apply readIf_within | with_reducible apply latchAuth_within
    | with_reducible apply WithinOut.next)

theorem execHbeatLoRead_within {L : Nat} {s0 : State} (a0 : Source) {s : State} (hs : Within L s0 s) (hl : Sub 0x20 L)
    : WithinOut L s0 (execHbeatLoRead a0 s) := by
  unfold execHbeatLoRead
  repeat' (first
    | with_reducible assumption | intro _ | with_reducible apply readIf_within
    | with_reducible apply latchHbeat_within | with_reducible apply WithinOut.next)

theorem execGlbEpochHiWrite_within {L : Nat} {s0 : State} (a0 : Word) {s : State} (hs : Within L s0 s) (hl : Sub
    (orAll s0 0x47fffefffeff) L) : WithinOut L s0 (execGlbEpochHiWrite a0 s) := by
  unfold execGlbEpochHiWrite
  repeat' (first
    | with_reducible assumption | with_reducible apply hostWrite_within | with_reducible apply WithinOut.next)

theorem execGlbEpochLoWrite_within {L : Nat} {s0 : State} (a0 : Word) {s : State} (hs : Within L s0 s) (hl : Sub
    (orAll s0 0x47fffefffeff) L) : WithinOut L s0 (execGlbEpochLoWrite a0 s) := by
  unfold execGlbEpochLoWrite
  repeat' (first
    | with_reducible assumption | with_reducible apply hostWrite_within | with_reducible apply WithinOut.next)

theorem execGlbKeyfuseWrite_within {L : Nat} {s0 : State} (a0 : Word) {s : State} (hs : Within L s0 s) (hl : Sub
    (orAll s0 0x47fffefffeff) L) : WithinOut L s0 (execGlbKeyfuseWrite a0 s) := by
  unfold execGlbKeyfuseWrite
  repeat' (first
    | with_reducible assumption | with_reducible apply hostWrite_within | with_reducible apply WithinOut.next)

theorem execKeyfuseDone_within {L : Nat} {s0 : State} {s : State} (hs : Within L s0 s) (hl : Sub 0x8000 L) : WithinOut
    L s0 (execKeyfuseDone s) := by
  unfold execKeyfuseDone
  repeat' (first
    | with_reducible assumption | with_reducible apply fuseDone_within | with_reducible apply WithinOut.next | split)

theorem execClkDselWrite_within {L : Nat} {s0 : State} (a0 : Fin 9) (a1 : Word) {s : State} (hs : Within L s0 s) (hl :
    Sub (orAll s0 0x47fffefffeff) L) : WithinOut L s0 (execClkDselWrite a0 a1 s) := by
  unfold execClkDselWrite
  repeat' (first
    | with_reducible assumption | with_reducible apply hostWrite_within | with_reducible apply WithinOut.next)

theorem execLinkPollWrite_within {L : Nat} {s0 : State} (a0 : Word) {s : State} (hs : Within L s0 s) (hl : Sub (orAll
    s0 0x47fffefffeff) L) : WithinOut L s0 (execLinkPollWrite a0 s) := by
  unfold execLinkPollWrite
  repeat' (first
    | with_reducible assumption | with_reducible apply hostWrite_within | with_reducible apply WithinOut.next)

theorem execLinkIpendWrite_within {L : Nat} {s0 : State} (a0 : Word) {s : State} (hs : Within L s0 s) (hl : Sub (orAll
    s0 0x47fffefffeff) L) : WithinOut L s0 (execLinkIpendWrite a0 s) := by
  unfold execLinkIpendWrite
  repeat' (first
    | with_reducible assumption | with_reducible apply hostWrite_within | with_reducible apply WithinOut.next)

theorem execRingCfgWrite_within {L : Nat} {s0 : State} (a0 : BitVec 16) (a1 : Word) {s : State} (hs : Within L s0 s)
    (hl : Sub (orAll s0 0x47fffefffeff) L) : WithinOut L s0 (execRingCfgWrite a0 a1 s) := by
  unfold execRingCfgWrite
  repeat' (first
    | with_reducible assumption | with_reducible apply hostWrite_within | with_reducible apply WithinOut.next | split)

theorem execChgIntsrcWrite_within {L : Nat} {s0 : State} (a0 : Word) {s : State} (hs : Within L s0 s) (hl : Sub (orAll
    s0 0x47fffefffeff) L) : WithinOut L s0 (execChgIntsrcWrite a0 s) := by
  unfold execChgIntsrcWrite
  repeat' (first
    | with_reducible assumption | with_reducible apply hostWrite_within | with_reducible apply WithinOut.next)

/-! ### Machine/Service.lean -/

theorem usbAttach_within {L : Nat} {s0 : State} (a0 : Nat) {s : State} (hs : Within L s0 s) (hl : Sub 0x2000004a0c3 L)
    : Within L s0 (usbAttach a0 s) := by
  unfold usbAttach
  repeat' (first
    | with_reducible assumption | ((with_reducible refine Sub.le ?_ hl); rfl)
    | with_reducible apply usbReattach_within | with_reducible apply rootWake_within
    | with_reducible apply modUsb_within | split)

theorem usbDetach_within {L : Nat} {s0 : State} (a0 : Nat) {s : State} (hs : Within L s0 s) (hl : Sub 0x2000004a0c3 L)
    : Within L s0 (usbDetach a0 s) := by
  unfold usbDetach
  repeat' (first
    | with_reducible assumption | ((with_reducible refine Sub.le ?_ hl); rfl) | with_reducible apply modUsb_within
    | with_reducible apply usbRelease_within | split)

theorem standardRequest_within {L : Nat} {s0 : State} (a0 : UsbRequest) {s : State} (hs : Within L s0 s) (hl : Sub
    0x20000000041 L) : Within L s0 (standardRequest a0 s) := by
  unfold standardRequest
  repeat' (first
    | with_reducible assumption | ((with_reducible refine Sub.le ?_ hl); rfl)
    | (intro x; refine Within.cut (L := L) (s := s0) x.2 ?_ ?_; rotate_left; intro hx; clear_value x; rotate_left; subst x)
    | (intro x; refine Within.cutF (L := L) (s := s0) x ?_ ?_; rotate_left; intro hfun; clear_value x; rotate_left; subst x)
    | (intro x; refine Within.cutG (L := L) (s := s0) x ?_ ?_; rotate_left; intro hfun; clear_value x; rotate_left; subst x)
    | (intro x; refine Within.cutH (L := L) (s := s0) x ?_ ?_; rotate_left; intro hfun; clear_value x; rotate_left; subst x)
    | (intro x; clear_value x) | intro _ | lift_lets | with_reducible apply modUsb_within
    | with_reducible apply sofStops_within | with_reducible apply emit_within | with_reducible apply drawNat_within
    | with_reducible apply hfun | split)

theorem usbSuspend_within {L : Nat} {s0 : State} (a0 : Bool) {s : State} (hs : Within L s0 s) (hl : Sub 0x20000000040
    L) : Within L s0 (usbSuspend a0 s) := by
  unfold usbSuspend
  repeat' (first
    | with_reducible assumption | ((with_reducible refine Sub.le ?_ hl); rfl) | with_reducible apply modUsb_within
    | with_reducible apply sofStops_within | split)

theorem vbusOv_within {L : Nat} {s0 : State} (a0 : Nat) {s : State} (hs : Within L s0 s) (hl : Sub (orAll s0
    0x73ff8ffb4d7) L) : Within L s0 (vbusOv a0 s) := by
  unfold vbusOv
  repeat' (first
    | with_reducible assumption | ((with_reducible refine Sub.some ?_ ?_ hl) <;> rfl)
    | with_reducible apply usbRelease_within | with_reducible apply raise_within | split)

theorem usbFlood_within {L : Nat} {s0 : State} (a0 : Nat) {s : State} (hs : Within L s0 s) (hl : Sub (orAll s0
    0x73ff8ffb4d7) L) : Within L s0 (usbFlood a0 s) := by
  unfold usbFlood
  repeat' (first
    | with_reducible assumption | ((with_reducible refine Sub.some ?_ ?_ hl) <;> rfl)
    | with_reducible apply usbRelease_within | with_reducible apply raiseLatched_within | split)

theorem reply_within {L : Nat} {s0 : State} (a0 : Nat) (a1 : Nat) (a2 : BitVec 16) (a3 : Word) (a4 : List Word) {s :
    State} (hs : Within L s0 s) (hl : Sub 0x20000000002 L) : Within L s0 (reply a0 a1 a2 a3 a4 s) := by
  unfold reply
  repeat' (first
    | with_reducible assumption | ((with_reducible refine Sub.le ?_ hl); rfl)
    | (intro x; refine Within.cut (L := L) (s := s0) x ?_ ?_; rotate_left; intro hx; clear_value x; rotate_left; subst x)
    | intro _ | lift_lets | with_reducible apply modUsb_within | with_reducible apply countReg_within
    | with_reducible apply setReg_within | split)

theorem statusOf_within {L : Nat} {s0 : State} (a0 : List Nat) {s : State} (hs : Within L s0 s) : Within L s0
    (statusOf a0 s).2 := by
  unfold statusOf
  repeat' (first
    | with_reducible assumption
    | (intro x; refine Within.cut (L := L) (s := s0) x.2 ?_ ?_; rotate_left; intro hx; clear_value x; rotate_left; subst x)
    | lift_lets | with_reducible apply drawNat_within | split)

theorem judged_within {L : Nat} {s0 : State} (a0 : Nat) (a1 : BitVec 16) (a2 : Word) (a3 : List Nat) (a4 : State →
    State) {s : State} (ha4 : ∀ t, Within L s0 t → Within L s0 (a4 t)) (hs : Within L s0 s) (hl : Sub 0x20000000002 L)
    : Within L s0 (judged a0 a1 a2 a3 a4 s) := by
  unfold judged
  repeat' (first
    | with_reducible assumption
    | (intro x; refine Within.cut (L := L) (s := s0) x.2 ?_ ?_; rotate_left; intro hx; clear_value x; rotate_left; subst x)
    | lift_lets | with_reducible apply statusOf_within | with_reducible apply reply_within | with_reducible apply ha4
    | split)

theorem infoCmd_within {L : Nat} {s0 : State} (a0 : BitVec 16) (a1 : Word) {s : State} (hs : Within L s0 s) (hl : Sub
    0x20000000002 L) : Within L s0 (infoCmd a0 a1 s) := by
  unfold infoCmd
  repeat' (first | with_reducible assumption | with_reducible apply reply_within | split)

theorem regReadCmd_within {L : Nat} {s0 : State} (a0 : BitVec 16) (a1 : Word) (a2 : Word) (a3 : Word) {s : State} (hs
    : Within L s0 s) (hl : Sub 0x20000000022 L) : Within L s0 (regReadCmd a0 a1 a2 a3 s) := by
  unfold regReadCmd
  have hr : ∀ (sl : Word) n o (x : List Word × State), Within L s0 x.2 → Within L s0 (readRun sl n o x).2 := by
    intro sl n
    induction n with
    | zero => intro o x h; exact h
    | succ n ih => intro o x h; exact ih _ _ (readEffect_within _ _ h (Sub.le rfl hl))
  repeat' (first
    | with_reducible assumption | ((with_reducible refine Sub.le ?_ hl); rfl) | (with_reducible apply hr)
    | (intro x; refine Within.cut (L := L) (s := s0) x.2 ?_ ?_; rotate_left; intro hx; clear_value x; rotate_left; subst x)
    | intro _ | lift_lets | with_reducible apply judged_within | with_reducible apply reply_within | split)

theorem regWriteCmd_within {L : Nat} {s0 : State} (a0 : BitVec 16) (a1 : Word) (a2 : Word) (a3 : List Word) {s :
    State} (hs : Within L s0 s) (hl : Sub (orAll s0 0x47fffefffeff) L) : Within L s0 (regWriteCmd a0 a1 a2 a3 s) := by
  unfold regWriteCmd
  repeat' (first
    | with_reducible assumption | ((with_reducible refine Sub.some ?_ ?_ hl) <;> rfl)
    | (intro x; refine Within.cut (L := L) (s := s0) x.2 ?_ ?_; rotate_left; intro hx; clear_value x; rotate_left; subst x)
    | (intro x; clear_value x) | intro _ | lift_lets | with_reducible apply judged_within
    | with_reducible apply statusOf_within | with_reducible apply reply_within | with_reducible apply portWord_within
    | with_reducible refine Within.foldl ?_ ?_ | split)

theorem jnlReadCmd_within {L : Nat} {s0 : State} (a0 : BitVec 16) (a1 : Word) (a2 : Word) (a3 : Word) {s : State} (hs
    : Within L s0 s) (hl : Sub 0x20000000002 L) : Within L s0 (jnlReadCmd a0 a1 a2 a3 s) := by
  unfold jnlReadCmd
  repeat' (first
    | with_reducible assumption | (intro x; clear_value x) | intro _ | lift_lets | with_reducible apply judged_within
    | with_reducible apply reply_within | split)

theorem calReadCmd_within {L : Nat} {s0 : State} (a0 : BitVec 16) (a1 : Word) {s : State} (hs : Within L s0 s) (hl :
    Sub 0x20000000002 L) : Within L s0 (calReadCmd a0 a1 s) := by
  unfold calReadCmd
  repeat' (first | with_reducible assumption | with_reducible apply reply_within | split)

theorem serviceDesc_within {L : Nat} {s0 : State} (a0 : Descriptor) {s : State} (hs : Within L s0 s) (hl : Sub
    0x20004400000 L) : Within L s0 (serviceDesc a0 s) := by
  unfold serviceDesc
  repeat' (first
    | with_reducible assumption | ((with_reducible refine Sub.le ?_ hl); rfl) | (intro x; clear_value x) | lift_lets
    | with_reducible apply queueJob_within | with_reducible apply modUsb_within | split)

theorem execUsbAttach_within {L : Nat} {s0 : State} (a0 : Nat) {s : State} (hs : Within L s0 s) (hl : Sub
    0x2000004a0c3 L) : WithinOut L s0 (execUsbAttach a0 s) := by
  unfold execUsbAttach
  repeat' (first
    | with_reducible assumption | with_reducible apply usbAttach_within | with_reducible apply WithinOut.next)

theorem execUsbDetach_within {L : Nat} {s0 : State} (a0 : Nat) {s : State} (hs : Within L s0 s) (hl : Sub
    0x2000004a0c3 L) : WithinOut L s0 (execUsbDetach a0 s) := by
  unfold execUsbDetach
  repeat' (first
    | with_reducible assumption | with_reducible apply usbDetach_within | with_reducible apply WithinOut.next)

theorem execUsbSuspend_within {L : Nat} {s0 : State} (a0 : Bool) {s : State} (hs : Within L s0 s) (hl : Sub
    0x20000000040 L) : WithinOut L s0 (execUsbSuspend a0 s) := by
  unfold execUsbSuspend
  repeat' (first
    | with_reducible assumption | with_reducible apply usbSuspend_within | with_reducible apply WithinOut.next)

theorem execUsbStandardRequest_within {L : Nat} {s0 : State} (a0 : UsbRequest) {s : State} (hs : Within L s0 s) (hl :
    Sub 0x20000000041 L) : WithinOut L s0 (execUsbStandardRequest a0 s) := by
  unfold execUsbStandardRequest
  repeat' (first
    | with_reducible assumption | with_reducible apply standardRequest_within | with_reducible apply WithinOut.next)

theorem execUsbVbusOv_within {L : Nat} {s0 : State} (a0 : Nat) {s : State} (hs : Within L s0 s) (hl : Sub (orAll s0
    0x73ff8ffb4d7) L) : WithinOut L s0 (execUsbVbusOv a0 s) := by
  unfold execUsbVbusOv
  repeat' (first
    | with_reducible assumption | with_reducible apply vbusOv_within | with_reducible apply WithinOut.next)

theorem execUsbFlood_within {L : Nat} {s0 : State} (a0 : Nat) {s : State} (hs : Within L s0 s) (hl : Sub (orAll s0
    0x73ff8ffb4d7) L) : WithinOut L s0 (execUsbFlood a0 s) := by
  unfold execUsbFlood
  repeat' (first
    | with_reducible assumption | with_reducible apply usbFlood_within | with_reducible apply WithinOut.next)

theorem execUsbReplyRead_within {L : Nat} {s0 : State} {s : State} (hs : Within L s0 s) (hl : Sub 0x20000000000 L) :
    WithinOut L s0 (execUsbReplyRead s) := by
  unfold execUsbReplyRead
  repeat' (first
    | with_reducible assumption | with_reducible apply modUsb_within | with_reducible apply WithinOut.next | split)

theorem execInfo_within {L : Nat} {s0 : State} (a0 : BitVec 16) (a1 : Word) {s : State} (hs : Within L s0 s) (hl : Sub
    0x20000000002 L) : WithinOut L s0 (execInfo a0 a1 s) := by
  unfold execInfo
  repeat' (first
    | with_reducible assumption | with_reducible apply infoCmd_within | with_reducible apply WithinOut.next)

theorem execRegRead_within {L : Nat} {s0 : State} (a0 : BitVec 16) (a1 : Word) (a2 : Word) (a3 : Word) {s : State} (hs
    : Within L s0 s) (hl : Sub 0x20000000022 L) : WithinOut L s0 (execRegRead a0 a1 a2 a3 s) := by
  unfold execRegRead
  repeat' (first
    | with_reducible assumption | with_reducible apply regReadCmd_within | with_reducible apply WithinOut.next)

theorem execRegWrite_within {L : Nat} {s0 : State} (a0 : BitVec 16) (a1 : Word) (a2 : Word) (a3 : List Word) {s :
    State} (hs : Within L s0 s) (hl : Sub (orAll s0 0x47fffefffeff) L) : WithinOut L s0 (execRegWrite a0 a1 a2 a3 s)
    := by
  unfold execRegWrite
  repeat' (first
    | with_reducible assumption | with_reducible apply regWriteCmd_within | with_reducible apply WithinOut.next)

theorem execJnlRead_within {L : Nat} {s0 : State} (a0 : BitVec 16) (a1 : Word) (a2 : Word) (a3 : Word) {s : State} (hs
    : Within L s0 s) (hl : Sub 0x20000000002 L) : WithinOut L s0 (execJnlRead a0 a1 a2 a3 s) := by
  unfold execJnlRead
  repeat' (first
    | with_reducible assumption | with_reducible apply jnlReadCmd_within | with_reducible apply WithinOut.next)

theorem execCalRead_within {L : Nat} {s0 : State} (a0 : BitVec 16) (a1 : Word) {s : State} (hs : Within L s0 s) (hl :
    Sub 0x20000000002 L) : WithinOut L s0 (execCalRead a0 a1 s) := by
  unfold execCalRead
  repeat' (first
    | with_reducible assumption | with_reducible apply calReadCmd_within | with_reducible apply WithinOut.next)

theorem execServiceDescriptor_within {L : Nat} {s0 : State} (a0 : Descriptor) {s : State} (hs : Within L s0 s) (hl :
    Sub 0x20004400000 L) : WithinOut L s0 (execServiceDescriptor a0 s) := by
  unfold execServiceDescriptor
  repeat' (first
    | with_reducible assumption | with_reducible apply serviceDesc_within | with_reducible apply WithinOut.next)

theorem execBadCmd_within {L : Nat} {s0 : State} (a0 : BitVec 16) (a1 : Byte) (a2 : Word) {s : State} (hs : Within L
    s0 s) (hl : Sub 0x20000000002 L) : WithinOut L s0 (execBadCmd a0 a1 a2 s) := by
  unfold execBadCmd
  repeat' (first
    | with_reducible assumption | with_reducible apply reply_within | with_reducible apply WithinOut.next | split)

/-! ### Machine/Tick.lean -/

theorem measuresEnd_within {L : Nat} {s0 : State} {s : State} (hs : Within L s0 s) (hl : Sub 0x38000002 L) : Within L
    s0 (measuresEnd s) := by
  unfold measuresEnd
  repeat' (first
    | with_reducible assumption | intro _ | with_reducible apply measured_within
    | with_reducible refine Within.foldl ?_ ?_ | split)

theorem laneTick_within {L : Nat} {s0 : State} (a0 : Rail) (a1 : Bool) (a2 : Fin 48) {s : State} (hs : Within L s0 s)
    (hl : Sub 0x10000000 L) : Within L s0 (laneTick a0 a1 a2 s) := by
  unfold laneTick
  repeat' (first
    | with_reducible assumption | (intro x; clear_value x) | lift_lets | with_reducible apply modLane_within)

theorem railTick_within {L : Nat} {s0 : State} (a0 : Fin 48) {s : State} (hs : Within L s0 s) (hl : Sub 0x30000000 L)
    : Within L s0 (railTick a0 s) := by
  unfold railTick
  repeat' (first
    | with_reducible assumption | ((with_reducible refine Sub.le ?_ hl); rfl)
    | (intro x; refine Within.cut (L := L) (s := s0) x ?_ ?_; rotate_left; intro hx; clear_value x; rotate_left; subst x)
    | (intro x; clear_value x) | intro _ | lift_lets | with_reducible apply modRail_within
    | with_reducible apply laneTick_within | with_reducible refine Within.foldl ?_ ?_ | split)

theorem chgTick_within {L : Nat} {s0 : State} {s : State} (hs : Within L s0 s) (hl : Sub 0x100000000 L) : Within L s0
    (chgTick s) := by
  unfold chgTick
  repeat' (first
    | with_reducible assumption | (intro x; clear_value x) | lift_lets | with_reducible apply modChg_within)

theorem owlTick_within {L : Nat} {s0 : State} (a0 : Fin 2) {s : State} (hs : Within L s0 s) (hl : Sub 0x40000000000 L)
    : Within L s0 (owlTick a0 s) := by
  unfold owlTick
  repeat' (first
    | with_reducible assumption | (intro x; clear_value x) | lift_lets | with_reducible apply modOwl_within)

theorem corePass_within {L : Nat} {s0 : State} {s : State} (hs : Within L s0 s) (hl : Sub 0x40008000000 L) : Within L
    s0 (corePass s) := by
  unfold corePass
  repeat' (first
    | with_reducible assumption
    | (intro x; refine Within.cut (L := L) (s := s0) x.2 ?_ ?_; rotate_left; intro hx; clear_value x; rotate_left; subst x)
    | lift_lets | with_reducible apply drawNat_within | with_reducible apply owlFed_within | split)

theorem tick_within {L : Nat} {s0 : State} {s : State} (hs : Within L s0 s) (hl : Sub 0x40138000002 L) : Within L s0
    (tick s) := by
  unfold tick
  repeat' (first
    | with_reducible assumption | ((with_reducible refine Sub.le ?_ hl); rfl)
    | (intro x; refine Within.cut (L := L) (s := s0) x ?_ ?_; rotate_left; intro hx; clear_value x; rotate_left; subst x)
    | intro _ | lift_lets | with_reducible apply railTick_within | with_reducible apply measuresEnd_within
    | with_reducible apply chgTick_within | with_reducible apply corePass_within | with_reducible apply owlTick_within
    | with_reducible refine Within.foldl ?_ ?_ | split)

/-! ### Machine/Step.lean -/

theorem idle_within {L : Nat} {s0 : State} {s : State} (hs : Within L s0 s) (hl : Sub 0x40138000022 L) : Within L s0
    (idle s) := by
  unfold idle
  repeat' (first
    | with_reducible assumption | ((with_reducible refine Sub.le ?_ hl); rfl)
    | ((with_reducible refine Or.inr (Sub.le ?_ hl)); rfl) | ((with_reducible refine Or.inl (Eq.symm ?_)); rfl)
    | ((with_reducible refine Eq.symm ?_); rfl) | lift_lets | with_reducible apply tick_within | split
    | fail_if_no_progress (with_reducible apply Within.parts))

end Sys2Proof.Machine
end

