-- ==== Sys2Proof/Laws/Verdicts.lean ====
section
/-! SUPPORT. What the final verdict of an item leaves, what an item begins from, and what a raise latches. -/

namespace Sys2Proof.Machine

/-! ### Parts that an operation keeps -/

theorem Within.keeps {L : Nat} {s t : State} (h : Within L s t) (p : Part) (hp : L.testBit p.bit = false) : p.same s t :=
  h.same p hp

/-! ### Items -/

theorem findItem_aseq {s : State} {a : Word} {it : Item} (h : findItem s a = some it) : it.aseq = a := by
  have := List.find?_some h
  simpa using this

theorem Turn.begins {op : Nat} {a : Word} {it : Item} {s : State} (h : Turn op a it s) (k : Item → State → State) :
    beginWork op a k s = match handleErr (takenUp it s) op it.handle with
      | some d => complete a .refusedHandle d 0 (takenUp it s)
      | none => k it (takenUp it s) := by
  obtain ⟨h1, h2, h3, h4⟩ := h
  have e := findItem_aseq h1
  subst e
  unfold cleared at h4
  unfold beginWork takenUp cleared
  rw [h1]
  simp only [h2, h3, h4, decide_true, Bool.and_self, if_true, Bool.false_eq_true, if_false] <;> rfl

theorem Works.begins {op : Nat} {a : Word} {it : Item} {s u : State} (h : Works op a it s u) (k : Item → State → State) :
    beginWork op a k s = k it u := by
  obtain ⟨h1, rfl, h3⟩ := h
  rw [h1.begins, h3]

theorem cqOf_lt (s : State) {r : BitVec 5} (h : r.toNat < 16) : cqOf s r < 16 := by
  unfold cqOf
  rw [if_pos h]
  unfold fld
  omega

theorem itemCq_lt (s : State) {it : Item} (h : it.ring.toNat < 16) : itemCq s it < 16 := by
  unfold itemCq
  split
  · rename_i q _
    exact q.isLt
  · exact cqOf_lt s h

/-- A completion that is held stands with the others. -/
theorem holdComp_comps (c : Comp) (s : State) : (holdComp c s).eng.comps = (addComp c s).eng.comps := by
  unfold holdComp
  split
  · rfl
  · exact (pendVector_within (L := 0x81) c.cq (Within.refl _ (addComp c s)) (Sub.of rfl)).keeps .comps rfl

/-- A verdict of one item leaves the items of other ASEQs. -/
theorem completeH_findItem {a b : Word} (h : b ≠ a) (v : Verdict) (d : Nat) (r : DWord) (x : Option Word) (s : State) :
    findItem (completeH a v d r x s) b = findItem s b := by
  unfold completeH
  split
  · rfl
  · rename_i it hit
    have w := startAll_within (L := 0x20000fa90c3) (endSlot_within it.armOf (postFinal_within 4 (compOf s it v d r (x.getD it.handle)) (Within.refl _ (dropItem a s)) (Sub.of rfl)) (Sub.of rfl)) (Sub.of rfl)
    have e : _ = (dropItem a s).eng.items := w.keeps .items rfl
    show (_ : List Item).find? _ = _
    rw [e]
    show (s.eng.items.filter _).find? _ = s.eng.items.find? _
    rw [List.find?_filter]
    congr 1
    funext i
    by_cases q : i.aseq = b
    · subst q; simp [h]
    · simp [q]

/-- A final verdict: the item is gone, and the completion of an SQ item stands. -/
theorem completeH_answers {s : State} {a : Word} {it : Item} (h : findItem s a = some it) (v : Verdict) (d : Nat) (r : DWord)
    (x : Option Word) : Answered it v d r (completeH a v d r x s) := by
  have ea := findItem_aseq h
  subst ea
  unfold completeH
  rw [h]
  dsimp only
  generalize hc : compOf s it v d r (x.getD it.handle) = c
  have w := startAll_within (L := 0x20000fa90c3) (endSlot_within it.armOf (postFinal_within 4 c (Within.refl _ (dropItem it.aseq s)) (Sub.of rfl)) (Sub.of rfl)) (Sub.of rfl)
  have e : _ = (dropItem it.aseq s).eng.items := w.keeps .items rfl
  refine ⟨?_, fun hr => ?_⟩
  · show (_ : List Item).find? _ = _
    rw [e]
    show (s.eng.items.filter _).find? _ = _
    rw [List.find?_filter]
    simp
  · have k := (startAll_within (L := 0xf88040) (endSlot_within it.armOf (Within.refl _ (postFinal 4 c (dropItem it.aseq s))) (Sub.of rfl)) (Sub.of rfl)).keeps .comps rfl
    have k : _ = (postFinal 4 c (dropItem it.aseq s)).eng.comps := k
    rw [k]
    have hq : c.cq < 16 := by rw [← hc]; exact itemCq_lt s hr
    have props : c.aseq = it.aseq ∧ c.verdict = v ∧ c.detail = BitVec.ofNat 8 d ∧ c.result = r := by
      rw [← hc]; exact ⟨rfl, rfl, rfl, rfl⟩
    unfold postFinal
    dsimp only
    rw [if_pos hq]
    split
    · have y := (writeCompletion_within (L := 0x1083) c.cq c (Within.refl _ (addComp { c with pos := some (cqProd (countClear c (dropItem it.aseq s)) c.cq), shown := some (c.cq, cqProd (countClear c (dropItem it.aseq s)) c.cq) } (commit (doneRec 4 c (cqProd (countClear c (dropItem it.aseq s)) c.cq)) (countClear c (dropItem it.aseq s))))) (Sub.of rfl)).keeps .comps rfl
      have y : _ = (_ : State).eng.comps := y
      rw [y]
      exact ⟨_, List.mem_append_right _ (List.mem_singleton_self _), props⟩
    · rw [holdComp_comps]
      exact ⟨_, List.mem_append_right _ (List.mem_singleton_self _), props⟩

theorem complete_answers {s : State} {a : Word} {it : Item} (h : findItem s a = some it) (v : Verdict) (d : Nat) (r : DWord) :
    Answered it v d r (complete a v d r s) := completeH_answers h v d r none

/-- What an answer speaks of stands while the items and the completions stand. -/
theorem Answered.of {it : Item} {v : Verdict} {d : Nat} {r : DWord} {s t : State} (h : Answered it v d r s)
    (hi : t.eng.items = s.eng.items) (hc : t.eng.comps = s.eng.comps) : Answered it v d r t :=
  ⟨by unfold findItem; rw [hi]; exact h.1, by rw [hc]; exact h.2⟩

/-- The same answer serves an item with the same identity. -/
theorem Answered.as {it it' : Item} {v : Verdict} {d : Nat} {r : DWord} {t : State} (h : Answered it v d r t)
    (ha : it.aseq = it'.aseq) (hr : it.ring = it'.ring) : Answered it' v d r t := by
  unfold Answered at *
  rw [← ha, ← hr]
  exact h

/-! ### The state in which work begins -/

theorem findItem_of_items {s t : State} (h : t.eng.items = s.eng.items) (a : Word) : findItem t a = findItem s a := by
  unfold findItem
  rw [h]

theorem rootWake_items (s : State) : (rootWake s).eng.items = s.eng.items :=
  (rootWake_within (L := 0x40) (Within.refl _ s) (Sub.of rfl)).keeps .items rfl

theorem supersede_findItem (it : Item) (s : State) : findItem (supersede it s) it.aseq = findItem s it.aseq := by
  unfold supersede
  have : ∀ l : List Item, (∀ j ∈ l, j.aseq ≠ it.aseq) → ∀ t,
      findItem (l.foldl (fun t j => complete j.aseq .failed 0x01 0 (withdraw j.aseq t)) t) it.aseq = findItem t it.aseq := by
    intro l
    induction l with
    | nil => intro _ t; rfl
    | cons j l ih =>
      intro hl t
      rw [List.foldl_cons, ih (fun k hk => hl k (List.mem_cons_of_mem _ hk))]
      refine (completeH_findItem (hl j List.mem_cons_self).symm _ _ _ _ _).trans (findItem_of_items ?_ _)
      exact (withdraw_within (L := 0xea0000000) j.aseq (Within.refl _ t) (Sub.of rfl)).keeps .items rfl
  refine this _ (fun j hj => ?_) s
  unfold ahead at hj
  have := (List.mem_filter.1 hj).2
  simp only [Bool.and_eq_true, decide_eq_true_eq] at this
  exact this.1.1.2

theorem find_map {l : List Item} {a : Word} {it : Item} {f : Item → Item} (h : l.find? (fun i => i.aseq = a) = some it)
    (hf : ∀ i, (f i).aseq = i.aseq) : (l.map (fun i => if i.aseq = a then f i else i)).find? (fun i => i.aseq = a) = some (f it) := by
  induction l with
  | nil => cases h
  | cons x l ih =>
    rw [List.map_cons, List.find?_cons] at *
    by_cases e : x.aseq = a
    · simp only [e, decide_true] at h
      injection h with h
      subst h
      simp [e, hf]
    · simp only [e, decide_false] at h
      simp [e, ih h]

theorem modItem_findItem {s : State} {a : Word} {it : Item} {f : Item → Item} (h : findItem s a = some it)
    (hf : ∀ i, (f i).aseq = i.aseq) : findItem (modItem a f s) a = some (f it) := find_map h hf

/-- The item at work, as the state in which its work begins holds it. -/
def workItem (it : Item) (s : State) : Item := { it with phase := .working, began := now s }

theorem takenUp_findItem {s : State} {a : Word} {it : Item} (h : findItem s a = some it) :
    findItem (takenUp it s) a = some (workItem it s) := by
  have e := findItem_aseq h
  subst e
  exact modItem_findItem (f := fun i => { i with phase := .working, began := now s }) 
    (((supersede_findItem it _).trans (findItem_of_items (rootWake_items s) _)).trans h) (fun _ => rfl)

theorem Works.item {op : Nat} {a : Word} {it : Item} {s u : State} (h : Works op a it s u) :
    findItem u a = some (workItem it s) := by
  obtain ⟨h1, rfl, -⟩ := h
  exact takenUp_findItem h1.1

/-- A verdict given in a state that still holds the item. -/
theorem Works.answers {op : Nat} {a : Word} {it jt : Item} {s u t : State} (h : Works op a it s u)
    (hj : findItem t a = some jt) (hr : jt.ring = it.ring) (v : Verdict) (d : Nat) (r : DWord) :
    Answered it v d r (complete a v d r t) := by
  have e : it.aseq = a := findItem_aseq h.1.1
  exact (complete_answers hj v d r).as ((findItem_aseq hj).trans e.symm) hr

theorem commitStart_findItem {s : State} {a : Word} {it jt : Item} (h : findItem s a = some jt) (e : it.aseq = a) :
    ∃ kt, findItem (commitStart it s) a = some kt ∧ kt.ring = jt.ring ∧ kt.opcode = jt.opcode ∧ kt.ops = jt.ops := by
  unfold commitStart
  split
  · exact ⟨jt, h, rfl, rfl, rfl⟩
  · subst e
    refine ⟨_, modItem_findItem (s := commit _ s) (it := jt) ?_ (fun _ => rfl), rfl, rfl, rfl⟩
    have k : _ = s.eng.items := (commit_within (L := 0xc00040) (mkRec 3 it.opcode.toNat it.flags.toNat it.ring it.tag it.handle [it.aseq]) (Within.refl _ s) (Sub.of rfl)).keeps .items rfl
    unfold findItem
    rw [k]
    exact h

/-! ### Raises (R350) -/

theorem causesOf_fin (s : State) (n : Fin 192) : causesOf s n.val = s.flt.src[n] := by
  unfold causesOf nth
  rw [dif_pos n.isLt]
  rfl

theorem Latched.mono {s t : State} {n d : Nat} (h : Latched s n d) (g : t.flt.Holds s.flt) : Latched t n d := by
  by_cases hn : n < 192
  · have a := causesOf_fin s ⟨n, hn⟩
    have b := causesOf_fin t ⟨n, hn⟩
    have c := g ⟨n, hn⟩
    unfold Latched faulted at *
    simp only at a b
    rw [a] at h; rw [b]
    exact ⟨c.2 h.1, c.1 _ h.2⟩
  · unfold Latched faulted causesOf nth at h
    rw [dif_neg hn] at h
    cases h.1

theorem Within.latched {L : Nat} {s t : State} {n d : Nat} (w : Within L s t) (h : Latched s n d)
    (hp : L.testBit 45 = false) : Latched t n d := h.mono (w.keeps .causes hp)

theorem latch_latched (n : Fin 192) {d : Nat} (hd : 1 ≤ d ∧ d ≤ 16) (p : Bool) (s : State) : Latched (latch n d p s) n.val d := by
  have a := causesOf_fin (latch n d p s) n
  unfold Latched faulted
  rw [a]
  have e : (latch n d p s).flt.src[n] = { present := if p then s.flt.src[n].present ||| BitVec.ofNat 16 (2 ^ (d - 1)) else s.flt.src[n].present, latched := s.flt.src[n].latched ||| BitVec.ofNat 16 (2 ^ (d - 1)), faulted := true, raises := BitVec.ofNat 8 (satAdd 8 s.flt.src[n].raises.toNat 1), lastPost := s.flt.src[n].lastPost } := by
    show (upd s.flt.src n _)[n] = _
    unfold upd
    simp only [Fin.getElem_fin, Vector.getElem_set_self]
  rw [e]
  refine ⟨rfl, ?_⟩
  obtain ⟨h1, h2⟩ := hd
  have : d - 1 < 16 := by omega
  generalize d - 1 = k at this
  simp only [BitVec.getLsbD_or, BitVec.getLsbD_ofNat, Nat.testBit_two_pow_self, this, decide_true, Bool.and_self, Bool.or_true]

theorem latchCapture_latched (n : Fin 192) {d : Nat} (hd : 1 ≤ d ∧ d ≤ 16) (p : Bool) (s : State) :
    Latched (latchCapture n d p s) n.val d := by
  unfold latchCapture
  exact (capture_within (L := 0x8000000) n.val d (Within.refl _ _) (Sub.of rfl)).latched (latch_latched n hd p _) rfl

theorem latchCapture_calm (n : Fin 192) (d : Nat) (p : Bool) (s : State) :
    (latchCapture n d p s).pwr = s.pwr :=
  (latchCapture_within (L := 0x8000002) n d p (Within.refl _ s) (Sub.of rfl)).keeps .pwr rfl

theorem shedAndReset_latched {s0 s : State} {n d : Nat} (k : Nat) (h : Latched s n d) : Latched (shedAndReset s0 k s) n d := by
  have a : Latched (shedBy s0 k s) n d := by
    unfold shedBy
    dsimp only
    split
    · exact (shedTier_within (L := 0x20ff0ffb0c7) _ _ (Within.refl _ s) (Sub.of rfl)).latched h rfl
    · exact h
  unfold shedAndReset
  dsimp only
  split
  · exact (hostRst_within (L := 4) (Within.refl _ _) (Sub.of rfl)).latched a rfl
  · exact a

theorem faultNotify_latched {s : State} {n d : Nat} (m : Fin 192) (e : Nat) (h : Latched s n d) :
    Latched (faultNotify m e s) n d :=
  (faultNotify_within (L := 0x804a083) m e (Within.refl _ s) (Sub.of rfl)).latched h rfl

theorem raiseBase_latched (n : Fin 192) {d : Nat} (hd : 1 ≤ d ∧ d ≤ 16) (p : Bool) (s : State) :
    Latched (raiseBase n d p s) n.val d := by
  have h := latchCapture_latched n hd p s
  unfold raiseBase
  split
  · exact faultNotify_latched n d h
  · refine faultNotify_latched n d (shedAndReset_latched _ ?_)
    split
    · exact (isolateBase_within (L := 0x32ff8ffb0c7) n (Within.refl _ _) (Sub.of rfl)).latched h rfl
    · exact h

theorem raiseLane_latched (n : Fin 48) {d : Nat} (hd : 1 ≤ d ∧ d ≤ 16) (p : Bool) (s : State) :
    Latched (raiseLane n d p s) n.val d := by
  have h := latchCapture_latched ⟨n.val, by omega⟩ hd p s
  unfold raiseLane
  dsimp only
  split
  · exact faultNotify_latched _ d h
  · refine faultNotify_latched _ d (shedAndReset_latched _ ?_)
    split
    · exact (isolateLane_within (L := 0x32ff8ffb0c7) n (Within.refl _ _) (Sub.of rfl)).latched h rfl
    · exact h

/-- Graph runs that end leave every cause latched, unless a shutdown toward BURROW ends with them. -/
theorem settle_latched {s : State} {n d : Nat} (hb : s.pwr.burrowing = false) (h : Latched s n d) : Latched (settle s) n d :=
  (settle_within (L := 0x61ff0ffb4d7) (Within.refl _ s) (Sub.calm hb rfl)).latched h rfl

/-- No operation but one that may change every part starts a shutdown toward BURROW. -/
theorem Within.quiet {L : Nat} {s t : State} (w : Within L s t) (hb : s.pwr.burrowing = false)
    (hL : L &&& 0x7fffffffffff ≠ 0x7fffffffffff) : t.pwr.burrowing = false := by
  cases e : t.pwr.burrowing
  · rfl
  · have c := w.calm hb e
    unfold Sub at c
    rw [Nat.and_comm] at c
    exact absurd c hL

/-- A raise latches its cause (R350). -/
theorem raiseAs_latched {n d : Nat} (hn : n < 186) (hd : 1 ≤ d ∧ d ≤ 16) (p : Bool) {s : State}
    (hb : s.pwr.burrowing = false) : Latched (raiseAs n d p s) n d := by
  unfold raiseAs
  unfold fin?
  by_cases h48 : n < 48
  · rw [dif_pos h48]
    dsimp only
    exact settle_latched ((raiseLane_within (L := 0x32ff8ffb0c7) _ _ _ (Within.refl _ s) (Sub.of rfl)).quiet hb (by decide))
      (raiseLane_latched ⟨n, h48⟩ hd p s)
  · rw [dif_neg h48, dif_pos (show n < 192 by omega)]
    dsimp only
    rw [if_pos hn]
    exact settle_latched ((raiseBase_within (L := 0x32ff8ffb0c7) _ _ _ (Within.refl _ s) (Sub.of rfl)).quiet hb (by decide))
      (raiseBase_latched ⟨n, by omega⟩ hd p s)

theorem raise_latched {n d : Nat} (hn : n < 186) (hd : 1 ≤ d ∧ d ≤ 16) {s : State} (hb : s.pwr.burrowing = false) :
    Latched (raise n d s) n d := raiseAs_latched hn hd true hb

theorem raiseLatched_latched {n d : Nat} (hn : n < 186) (hd : 1 ≤ d ∧ d ≤ 16) {s : State} (hb : s.pwr.burrowing = false) :
    Latched (raiseLatched n d s) n d := raiseAs_latched hn hd false hb

theorem raiseOnce_latched {n d : Nat} (hn : n < 186) (hd : 1 ≤ d ∧ d ≤ 16) {s : State} (hb : s.pwr.burrowing = false)
    (hp : isPresent s n d = false) : Latched (raiseOnce n d s) n d := by
  unfold raiseOnce
  rw [hp]
  exact raise_latched hn hd hb

end Sys2Proof.Machine
end

