-- ==== Sys2Proof/Machine/ConfigSpace.lean ====
section
/-! DEFINITION. What a read of configuration space and of the MSI-X table and PBA returns (R1, R2, R67, R68, R396). Where a
capability's registers and bits stand within it is the base specification's (PRESUMED, notes/assumptions/31.md). -/

namespace Sys2Proof.Machine

/-- Device ID and Vendor ID, class code (R1). -/
def deviceVendor : Word := 0x00481A7E
def classCode : Nat := 0x088000

/-- INTx is what the function signals by, and a LINK_IPEND bit is set (R72). -/
def intxPending (s : State) : Bool := !s.link.cfg.msix && s.link.cfg.msiVectors = 0 && decide (reg s 0x0410 ≠ 0)

/-- The header, type 0. -/
def configHeader (s : State) (o : Nat) : Word :=
  let c := s.link.cfg
  match o with
  | 0x00 => deviceVendor
  | 0x04 => flag 1 c.memEn ||| flag 2 s.link.bme ||| flag 6 c.parityEn ||| flag 8 c.serrEn ||| flag 10 c.intxDisable |||
      flag 19 (intxPending s) ||| flag 20 true
  | 0x08 => at_ 0 (revisionOf Config.stepping) ||| at_ 8 classCode
  | 0x0C => at_ 0 c.cacheLine.toNat
  -- BAR0/1 64 KiB and BAR2/3 4 KiB, 64-bit and non-prefetchable
  | 0x10 => (loW c.bar0 &&& 0xFFFF0000) ||| 4
  | 0x14 => hiW c.bar0
  | 0x18 => (loW c.bar2 &&& 0xFFFFF000) ||| 4
  | 0x1C => hiW c.bar2
  | 0x2C => reg s 0x0408
  | 0x34 => 0x40
  | 0x3C => at_ 0 c.intLine.toNat ||| at_ 8 1
  | _ => 0

/-- Power Management at 0x40: PME from D0, D3hot and D3cold, No_Soft_Reset. PME_Status shows a wake source. -/
def configPm (s : State) (o : Nat) : Word :=
  let c := s.link.cfg
  match o with
  | 0x00 => 0xC8035001
  | 0x04 => at_ 0 (if c.d3hot then 3 else 0) ||| flag 3 true ||| flag 8 c.pmeEn |||
      flag 15 (decide (s.link.wakePend &&& reg s 0x0414 ≠ 0))
  | _ => 0

/-- MSI at 0x50: 64-bit, per-vector masking, Multiple Message Capable 32. -/
def configMsi (s : State) (o : Nat) : Word :=
  let c := s.link.cfg
  match o with
  | 0x00 => 0x018A7005 ||| flag 16 (c.msiVectors ≠ 0) ||| at_ 20 (Nat.log2 c.msiVectors)
  | 0x04 => loW c.msiAddr
  | 0x08 => hiW c.msiAddr
  | 0x0C => at_ 0 c.msiData.toNat
  | 0x10 => c.msiMask
  | 0x14 => if c.msix then 0 else s.link.masked
  | _ => 0

/-- 128 × 2^code bytes. -/
def sizeCode (n : Nat) : Nat := Nat.log2 (n / 128)

/-- PCI Express, version 2, at 0x70: endpoint, 256 B, Function Level Reset; ×1, 5.0 GT/s, ASPM L1 only with exit latency 0b011;
Completion Timeout Disable, LTR. -/
def configPcie (s : State) (o : Nat) : Word :=
  let l := s.link
  let c := l.cfg
  match o with
  | 0x00 => 0x0002B010
  | 0x04 => 0x10008001
  | 0x08 => at_ 0 c.errEn.toNat ||| at_ 5 (sizeCode c.mps) ||| at_ 12 (sizeCode c.mrrs) ||| flag 16 (l.aerCorr ≠ 0) |||
      flag 17 (l.aer &&& ~~~c.aerSeverity ≠ 0) ||| flag 18 (l.aer &&& c.aerSeverity ≠ 0)
  | 0x0C => 0x00418812
  | 0x10 => at_ 0 (if c.aspmL1 then 2 else 0) ||| flag 3 c.rcb ||| flag 6 c.commonClock ||| flag 7 c.extSync |||
      (if l.dlUp then at_ 16 (if l.gen2 then 2 else 1) ||| at_ 20 1 else 0)
  | 0x24 => flag 4 true ||| flag 11 true
  | 0x28 => flag 4 c.ctoDisable ||| flag 10 c.ltrEn
  | 0x2C => 0x6
  | 0x30 => at_ 0 (if c.target5 then 2 else 1)
  | _ => 0

/-- MSI-X at 0xB0: 32 entries, table at 0x000 and PBA at 0x800 of BAR2/3. -/
def configMsix (s : State) (o : Nat) : Word :=
  match o with
  | 0x00 => 0x001F0011 ||| flag 30 s.link.cfg.msixAll ||| flag 31 s.link.cfg.msix
  | 0x04 => 0x002
  | 0x08 => 0x802
  | _ => 0

/-- AER at 0x100, without ECRC. The header log holds what failed: open. -/
def configAer (s : State) (o : Nat) : Word :=
  let l := s.link
  match o with
  | 0x00 => 0x14020001
  | 0x04 => l.aer
  | 0x08 => l.cfg.aerMask
  | 0x0C => l.cfg.aerSeverity
  | 0x10 => l.aerCorr
  | 0x14 => l.cfg.aerCorrMask
  | 0x1C => Config.liveReading 0x1011C (now s)
  | 0x20 => Config.liveReading 0x10120 (now s)
  | 0x24 => Config.liveReading 0x10124 (now s)
  | 0x28 => Config.liveReading 0x10128 (now s)
  | _ => 0

/-- A latency in 10 µs steps as an LTR message carries it: value and scale, the greatest that is not above it. -/
def ltrField (t : Nat) : Nat :=
  let ns := t * 10000
  if ns = 0 then 0 else if ns / 1024 < 1024 then 0x8000 + 0x800 + ns / 1024 else 0x8000 + 0xC00 + ns / 32768

/-- LTR at 0x140: the latency that the hub told last, for snoop and no-snoop alike (R76). -/
def configLtr (s : State) (o : Nat) : Word :=
  match o with
  | 0x00 => 0x14810018
  | 0x04 => at_ 0 (ltrField s.link.ltrTold) ||| at_ 16 (ltrField s.link.ltrTold)
  | _ => 0

/-- L1 PM Substates at 0x148: ASPM L1.1 and L1.2, Common_Mode_Restore_Time 10 µs, T_POWER_ON 6 × 10 µs. -/
def configL1ss (s : State) (o : Nat) : Word :=
  let c := s.link.cfg
  match o with
  | 0x00 => 0x1581001E
  | 0x04 => flag 2 true ||| flag 3 true ||| flag 4 true ||| at_ 8 10 ||| at_ 16 1 ||| at_ 19 6
  | 0x08 => flag 2 c.l12 ||| flag 3 c.l11 ||| (c.l1ss1 &&& 0xFFFFFFF0)
  | 0x0C => c.l1ss2
  | _ => 0

/-- Device Serial Number at 0x158. -/
def configDsn (o : Nat) : Word :=
  match o with
  | 0x00 => 0x00010003
  | 0x04 => loW serialNumber
  | 0x08 => hiW serialNumber
  | _ => 0

/-- The word at offset `o`; what R67 does not name reads as zero. -/
def configWord (s : State) (o : Nat) : Word :=
  if o < 0x40 then configHeader s o
  else if o < 0x50 then configPm s (o - 0x40)
  else if o < 0x70 then configMsi s (o - 0x50)
  else if o < 0xB0 then configPcie s (o - 0x70)
  else if o < 0x100 then configMsix s (o - 0xB0)
  else if o < 0x140 then configAer s (o - 0x100)
  else if o < 0x148 then configLtr s (o - 0x140)
  else if o < 0x158 then configL1ss s (o - 0x148)
  else configDsn (o - 0x158)

/-- Configuration requests are answered with Configuration Request Retry Status still: at most 100 ms long (R396). -/
def configRetry (s : State) : Bool := match s.link.since with
  | some t => decide (sinceT (now s) t < min 100000 Config.configReady)
  | none => true

/-- A configuration read, none for Configuration Request Retry Status. -/
def configRead (s : State) (o : Nat) : Option Word := if configRetry s then none else some (configWord s o)

/-- A read of BAR2/3: the MSI-X table at 0x000, the pending bits at 0x800. -/
def msixRead (s : State) (o : Nat) : Word :=
  let c := s.link.cfg
  if o < 0x200 then
    let e := nth c.msixTable (o / 16) { addr := 0, data := 0 }
    match o % 16 with
    | 0 => loW e.addr
    | 4 => hiW e.addr
    | 8 => e.data
    | 12 => flag 0 (bit c.msixMask (o / 16))
    | _ => 0
  else if o = 0x800 then (if c.msix then s.link.masked else 0)
  else 0

end Sys2Proof.Machine
end

