-- ==== Sys2Proof/Machine/Flags.lean ====
section
/-! DEFINITION. What the block shows on its pins (02, R18, R25): a block has no flags of a processor's kind; its one-bit
results are lines that the state decides. Each is read from State, none is stored twice. -/

namespace Sys2Proof.Machine

/-! ### Open-drain lines -/

/-- A pin that the hub can hold low, or leave to its pull-up. -/
inductive OpenDrain where
  | low | released
  deriving DecidableEq, Repr

def drain (pulled : Bool) : OpenDrain := if pulled then .low else .released

/-- HRST_N: low in Reset, a Shake's off-time included, and in HUSH; low while a hold stands; released in BURROW. -/
def pinHrstN (s : State) : OpenDrain := match pinColumn s with
  | .burrow => .released
  | .reset | .hush => .low
  | .full | .outage => drain (hrstLow s)

/-- INT_N (R228). -/
def pinIntN (s : State) : OpenDrain := match pinColumn s with
  | .burrow | .reset => .released
  | _ => drain (intN s)

/-- WAKE_N (R83). -/
def pinWakeN (s : State) : OpenDrain := match pinColumn s with
  | .burrow | .reset => .released
  | _ => drain (wakeN s)

/-- CLKREQ_N: the hub asks for the link's clock while the link is up and not in a substate that gives it back (R75). -/
def pinClkreqN (s : State) : OpenDrain := match pinColumn s with
  | .full | .outage => drain (s.link.dlUp && !s.link.clkreqReleased)
  | _ => .released

/-- INTx as messages: asserted or not (R72). -/
def lineInta (s : State) : Bool := s.link.dlUp && inta s

/-! ### Gates -/

/-- A pin that drives the gate of a FET outside: unpowered in BURROW, where the resistor of R25 holds the FET off. -/
inductive GatePin where
  | unpowered | low | switching
  deriving DecidableEq, Repr

def gatePin (s : State) (switches : Bool) : GatePin :=
  if s.pwr.latch.inBurrow then .unpowered else if s.den.up && switches then .switching else .low

/-- The charge-pump gates: off whenever the Den domain is down. -/
def pinAcgate (s : State) : Bool := s.den.up && s.pwr.acgate
def pinBatswG (s : State) : Bool := s.den.up && s.pwr.batsw
def pinPtnG (s : State) : Bool := s.den.up && s.pwr.ptng

/-- CHG_HG and CHG_LG: switching while charging or in Lend. -/
def pinChgGates (s : State) : GatePin :=
  gatePin s (s.chg.state = .precharge || charging s || s.chg.lend ≠ .off)

/-- LFT_LG: switching while Lift runs. -/
def pinLftLg (s : State) : GatePin := gatePin s (s.chg.lift ≠ .off)

/-! ### Lanes -/

/-- The lane's switches run. OV_ABS keeps both off while its cause stands (R155). -/
def laneSwitches (n : Fin 48) (s : State) : Bool := s.den.up && laneRun s.lanes[n] && !isPresent s n.val 5

/-- BOOT_UV: the high side is held off, and the low side on for 200 ns each period (R155). -/
def laneRefreshes (n : Fin 48) (s : State) : Bool := laneSwitches n s && isPresent s n.val 2

/-- SW00 to SW31. -/
inductive SwPin where
  | highZ | switching | refreshing
  deriving DecidableEq, Repr

/-- SWnn of an integrated lane: a rail that HUSH does not keep is OFF there, so that its lanes are not running. -/
def pinSw (n : Fin 32) (s : State) : SwPin :=
  let k : Fin 48 := ⟨n.val, by omega⟩
  if laneRefreshes k s then .refreshing else if laneSwitches k s then .switching else .highZ

/-- HGn of a controller lane: low while its bootstrap is recharged. -/
def pinHg (n : Fin 16) (s : State) : GatePin :=
  let k : Fin 48 := ⟨32 + n.val, by omega⟩
  gatePin s (laneSwitches k s && !laneRefreshes k s)

/-- LGn of a controller lane. -/
def pinLg (n : Fin 16) (s : State) : GatePin := gatePin s (laneSwitches ⟨32 + n.val, by omega⟩ s)

/-! ### Relays and motors -/

/-- RLYnnA and RLYnnB. -/
inductive CoilPin where
  | highZ | bothLow | aHigh | bHigh
  deriving DecidableEq, Repr

/-- Both low but for a pulse, whose direction POL turns (R229, R231); high impedance in BURROW. -/
def pinRelay (n : Fin 48) (s : State) : CoilPin :=
  if s.pwr.latch.inBurrow then .highZ
  else match s.relays[n] with
    | some x => if s.den.up && x.state = .pulsing then (if x.dir != bit x.w5 20 then .aHigh else .bHigh) else .bothLow
    | none => .bothLow

/-- The channel drives away from HOME, toward rising positions (12, R243 to R245). -/
def motorAway (x : Motor) (pos : Int) : Bool :=
  if x.state = .homing then x.step = .release || x.step = .backoff else decide (pos < x.target)

/-- The duty in force, in %, with the encoder count at `pos`: HOME_DUTY and CREEP_DUTY by the step of homing, CREEP_DUTY
within SLOWDOWN of a move's target, else the move's own (R231, R243, R245). -/
def motorDuty (x : Motor) (pos : Int) : Nat :=
  let creep := orElse0 (fld (motP x 8) 23 16) 15
  if x.state = .homing then (if x.step = .final then creep else orElse0 (fld (motP x 8) 15 8) 50)
  else if (x.target - pos).natAbs ≤ fld (motP x 13) 15 0 then creep else x.duty

/-- The gates of a motor bridge: half A or half B switches at a duty and recirculates through the low sides, or both low
sides are on as the brake (R238). -/
inductive BridgePin where
  | unpowered | allLow | brake | halfA (duty : Nat) | halfB (duty : Nat)
  deriving DecidableEq, Repr

/-- With the encoder count at `pos`. Which half drives away from HOME the spec leaves to the wiring; DIR_INV swaps them
(R231, notes/assumptions/72.md). -/
def pinMotor (m : Fin 2) (pos : Int) (s : State) : BridgePin :=
  if s.pwr.latch.inBurrow then .unpowered
  else if !s.den.up then .allLow
  else match s.motors[m] with
    | none => .allLow
    | some x =>
      if x.state = .braking then .brake
      else if motorDrives x then
        let a := (Config.awayHalfA == motorAway x pos) != bit (motP x 5) 2
        if a then .halfA (motorDuty x pos) else .halfB (motorDuty x pos)
      else .allLow

/-! ### Fans -/

/-- FAN0 to FAN3: high impedance in BURROW, else the commanded output in 0.1 mV, 0 for off. -/
def pinFan (f : Fin 4) (s : State) : Option Nat :=
  if s.pwr.latch.inBurrow then none
  else some (match s.fans[f] with
    | some x => if s.den.up then x.out else 0
    | none => 0)

/-! ### Buses, the link and the supplies of the hub's own -/

/-- TWBn_SCL and TWBn_SDA are worked; else they are released. In HUSH only armed work has a port in use. -/
def pinTwb (p : Fin 4) (s : State) : Bool := match pinColumn s with
  | .full | .outage => true
  | .hush => s.twb.ports[p].op ≠ .idle
  | .burrow | .reset => false

/-- USB_DP and USB_DM (R322). -/
inductive UsbPin where
  | off | detached | attached
  deriving DecidableEq, Repr

/-- The port stays usable in the holds before the boot graph: the repair of R33 comes over it. -/
def pinUsb (s : State) : UsbPin :=
  if s.pwr.latch.inBurrow then .off else if inReset s then .detached else if s.usb.attached then .attached else .detached

/-- PETP/N and PERP/N: off until PERST_N is released and step 9 of the start has ended (R396), and off in HUSH. -/
def pinPcie (s : State) : Bool :=
  !inReset s && !s.link.perst && (s.pwr.pstate = .full || s.pwr.pstate = .outage)

/-- How an analog input stands. -/
inductive SensePin where
  | highZ | idle | sensed
  deriving DecidableEq, Repr

/-- VS, RSP, RSN, CSP and CSN of lane `n`: in HUSH those of running rails are sensed. -/
def pinSense (n : Fin 48) (s : State) : SensePin := match pinColumn s with
  | .burrow | .reset => .highZ
  | .hush => if laneRun s.lanes[n] then .sensed else .idle
  | _ => .sensed

/-- AIN, TX and CALREF, input `i` in the numbering of R259, which sequences convert; in HUSH those of armed work alone run,
which R273 leaves running. -/
def pinAin (i : Nat) (s : State) : SensePin := match pinColumn s with
  | .burrow | .reset => .highZ
  | _ => if s.adc.seqs.toList.any (fun x => match x with
      | some x => x.running && x.entries.any (fun e => decide (fld e.word 7 0 = i))
      | none => false) then .sensed else .idle

/-- MOTx_CS, LIM and ENC (the same guard as the commands of those inputs: `motorSensed`), and TACHn. -/
def pinTach (f : Fin 4) (s : State) : SensePin := match pinColumn s with
  | .burrow | .reset => .idle
  | .hush => (match s.fans[f] with
    | some x => if x.state = .off || x.state = .faulted || x.state = .shed then .idle else .sensed
    | none => .idle)
  | _ => .sensed

/-- TMP0 to TMP7, MAINS_SNS0 and MAINS_SNS1: watched from the rise of VDEN. -/
def pinWatched (s : State) : Bool := !s.pwr.latch.inBurrow && s.den.up

/-- TCK, TMS, TDI, TDO and TRST_N: active in every state but BURROW. What JTAG does the spec does not say. -/
def pinJtag (s : State) : Bool := !s.pwr.latch.inBurrow

/-- VDEN, VIO18 and VIO33. -/
def pinVden (s : State) : Bool := !s.pwr.latch.inBurrow && s.den.up

/-- VCORE and LX_CORE: on demand in HUSH, where the core clock stops with the root. -/
def pinVcore (s : State) : Bool := match pinColumn s with
  | .burrow => false
  | .hush => s.clk.rootRun
  | _ => s.den.up

end Sys2Proof.Machine
end

