-- ==== Sys2Proof/WellFormed.lean ====
section
/-! DEFINITION. Which commands the world can send: operands within what the hub's pins, converters and protocols can
carry. A command outside is no event of this hub. -/

namespace Sys2Proof

/-- A voltage reading fits the 16-bit registers that show it. -/
def mvOk (mv : Nat) : Bool := mv < 65536

def StartWorld.wf (w : StartWorld) : Bool := mvOk w.acin && mvOk w.batsns

/-- Max_Payload_Size and Max_Read_Request_Size of the link (R67, R70). -/
def LinkCfg.wf (c : LinkCfg) : Bool :=
  (c.mps = 128 || c.mps = 256) && (c.mrrs = 128 || c.mrrs = 256 || c.mrrs = 512 || c.mrrs = 1024 || c.mrrs = 2048 || c.mrrs = 4096) &&
  (c.msiVectors = 0 || c.msiVectors = 1 || c.msiVectors = 2 || c.msiVectors = 4 || c.msiVectors = 8 || c.msiVectors = 16 || c.msiVectors = 32)

/-- A register access names a word of BAR0 (R371). -/
def addrOk (a : BitVec 16) : Bool := a.toNat % 4 = 0 && a.toNat < 0x10000

/-- Bytes of one bus transfer (R314). -/
def AttemptEnd.wf : AttemptEnd → Bool
  | .done r => r.length ≤ 257
  | .addrNack n => n.getD 0 ≤ 257
  | .dataNack n | .arbLost n _ | .arbLostCtrl n => n ≤ 257

/-- Which commands are well formed. -/
def Instr.wf : Instr → Bool
  | .coldStart w | .bootHoldClear w | .burrowExitBtn w | .burrowExitAcin w | .shakeOffTimeEnd w => w.wf
  | .acinValid mv | .acinInvalid mv => mvOk mv
  | .registerWrite _ a _ _ | .ringCfgWrite a _ => addrOk a
  | .bmeSet c _ | .bmeClear c _ => c.wf
  | .alertSweep _ rounds _ => 1 ≤ rounds.length && rounds.length ≤ 16
  | .twbCensus _ a => a.length ≤ 112
  | .periodicCensus _ a => a.length ≤ 112
  | .regWrite _ _ _ p => p.length ≤ 256
  | .badCmd _ c _ => c = 0 || 5 < c.toNat
  | .twbAttemptEnd _ e => e.wf
  | .twbTimeout _ n _ => n ≤ 257
  | .railPgAssert _ mv | .windowUv _ mv | .windowOv _ mv | .laneRemeasure _ mv | .laneSupplyRecover _ mv => mvOk mv
  | .chgStateChange mv | .chgRecharge mv | .batteryRest mv | .cutoffPend mv | .cutoff mv | .capBattUpdate mv => mvOk mv
  | .uvBurrow mv | .inputAdapt mv | .lendStartDone mv | .liftReached mv | .usbAttach mv | .usbDetach mv | .usbVbusOv mv => mvOk mv
  | .fcEdge _ mv | .tamperClear _ mv => mvOk mv
  | .tamper es => es.length ≤ 8 && es.all (fun e => mvOk e.mv)
  | .calRun _ _ _ ws => ws.length ≤ 170 && ws.all (fun w => w.zeros.length ≤ 256)
  | .relayPulseEnd _ d p => (match d with
    | some d => d.ms < 256 && d.depth < 65536
    | none => true) && p < 65536
  | .relayPulseAbort _ _ p => p < 65536
  | .limitChatter _ _ ages => ages.length ≤ 64 && ages.all (fun a => a < 2 ^ 20)
  | _ => true

end Sys2Proof
end

