-- ==== Sys2Proof/Tests/Slice0.lean ====
section
/-! SUPPORT. Tests: ill-formed commands, worked examples of the spec, and for every statement of the certificate a state
and operands that meet its hypotheses, clause by clause. -/

namespace Sys2Proof.Tests

open Sys2Proof Sys2Proof.Machine

-- one theorem after another: side by side their threads would need more memory than a check allows
set_option Elab.async false

/-! ### Small states -/

/-- A hub that has started, in SETUP, its link up. -/
def setup0 : State :=
  { State.reset with
    den := { Den.reset with up := true }
    pwr := { Power.reset with stage := .started, pstate := .full, batsw := true, mains := true, acinValid := true }
    link := { Link.reset with dlUp := true, bme := true, lstate := .l0 }
    jnl := { Journal.reset with scanned := true } }

/-- The same hub in RUN. -/
def run0 : State := { setup0 with pwr := { setup0.pwr with iface := .run, firstRun := false } }

def item (op : Nat) (h : Word) (ops : List Word) : Item :=
  newItem 7 0 op 0 1 h (Vector.ofFn (fun i => ops.getD i.val 0)) 0

/-- The item heads its queue. -/
def sit (it : Item) (s : State) : State := { s with eng := { s.eng with items := it :: s.eng.items, line := it.aseq :: s.eng.line } }

def hnd (c k : Nat) : Word := handleOf State.reset c k
def obj (c k : Nat) (s : State) : State := { s with eng := { s.eng with objs := (classBase c + k, 1) :: s.eng.objs } }

/-- Source `n` is FAULTED with cause `d` present, its reaction mask `m`. -/
def fault (n : Fin 192) (d : Nat) (m : Word) (s : State) : State :=
  setReg (0x0C00 + 4 * n.val) m (modSrc n (fun _ => { FaultSrc.reset with
    present := BitVec.ofNat 16 (2 ^ (d - 1)), latched := BitVec.ofNat 16 (2 ^ (d - 1)), faulted := true }) s)

/-- Source `n` is FAULTED, its cause no longer present. -/
def faultPast (n : Fin 192) (d : Nat) (m : Word) (s : State) : State :=
  setReg (0x0C00 + 4 * n.val) m (modSrc n (fun _ => { FaultSrc.reset with
    latched := BitVec.ofNat 16 (2 ^ (d - 1)), faulted := true }) s)

def hotState (s : State) : State := { s with thm := { s.thm with cooling := true } }

/-- The turn of `it` has come, its handle stands, and `k` holds where its work begins. -/
def works (op : Nat) (it : Item) (s : State) (k : State → Bool) : Bool :=
  decide (findItem s it.aseq = some it ∧ it.opcode.toNat = op) && canBegin s it && !mustWait (cleared it s) &&
    decide (handleErr (takenUp it s) op it.handle = none) && k (takenUp it s)

/-- The same for an item that stands alone in its queue. -/
def turn (op : Nat) (h : Word) (ops : List Word) (s : State) (k : Item → State → Bool) : Bool :=
  works op (item op h ops) (sit (item op h ops) s) (k (item op h ops))

/-- What `works` decides is what the statements ask for. -/
theorem works_works {op : Nat} {it : Item} {s : State} {k : State → Bool} (h : works op it s k = true) :
    Works op it.aseq it s (takenUp it s) ∧ k (takenUp it s) = true := by
  unfold works at h
  simp only [Bool.and_eq_true, Bool.not_eq_true', decide_eq_true_eq] at h
  exact ⟨⟨⟨h.1.1.1.1.1, h.1.1.1.1.2, h.1.1.1.2, h.1.1.2⟩, rfl, h.1.2⟩, h.2⟩

def world : StartWorld :=
  { strap0 := .open_, strap1 := .open_, strap2 := .open_, strap3 := .open_, acin := 24000, acinValid := true, batsns := 12000,
    pvLow := 0, sns0 := true, sns1 := true, xclk := true, readA := true, readB := true, perst := false }

/-! ### Ill-formed commands are refused -/

theorem test_illformed_voltage : (Instr.acinValid 65536).wf = false ∧ (Instr.capBattUpdate 65536).wf = false ∧
    (Instr.laneRemeasure 0 65536).wf = false ∧ (Instr.acinInvalid 65535).wf = true := by decide
theorem test_illformed_world : (Instr.coldStart { world with batsns := 65536 }).wf = false ∧
    (Instr.shakeOffTimeEnd { world with acin := 65536 }).wf = false ∧ (Instr.coldStart world).wf = true := by decide
theorem test_illformed_address : (Instr.registerWrite .link 0x0002 0xF 0).wf = false ∧
    (Instr.ringCfgWrite 0x0441 0).wf = false ∧ (Instr.registerWrite .link 0xFFFC 0xF 0).wf = true := by decide
theorem test_illformed_config : (Instr.bmeSet { linkCfgReset with mps := 64 } ⟨0, 0⟩).wf = false ∧
    (Instr.bmeClear { linkCfgReset with mrrs := 64 } ⟨0, 0⟩).wf = false ∧
    (Instr.bmeSet { linkCfgReset with msiVectors := 3 } ⟨0, 0⟩).wf = false ∧ (Instr.bmeSet linkCfgReset ⟨0, 0⟩).wf = true := by
  decide
theorem test_illformed_lists : (Instr.alertSweep 0 [] true).wf = false ∧
    (Instr.alertSweep 0 (List.replicate 17 .nack) true).wf = false ∧
    (Instr.twbCensus 7 (List.replicate 113 .ack)).wf = false ∧
    (Instr.periodicCensus 0 (List.replicate 113 .ack)).wf = false ∧
    (Instr.tamper (List.replicate 9 ⟨0, 0, 0⟩)).wf = false ∧ (Instr.limitChatter 0 .home [2 ^ 20]).wf = false ∧
    (Instr.calRun 7 0 0 [⟨List.replicate 257 0, 0, 0⟩]).wf = false ∧
    (Instr.regWrite 0 0 0 (List.replicate 257 0)).wf = false := by decide +kernel
theorem test_illformed_port : (Instr.badCmd 0 1 0).wf = false ∧ (Instr.badCmd 0 5 0).wf = false ∧
    (Instr.badCmd 0 0 0).wf = true ∧ (Instr.badCmd 0 6 0).wf = true := by decide
theorem test_illformed_transfer : (Instr.twbAttemptEnd 0 (.dataNack 258)).wf = false ∧
    (Instr.twbTimeout 0 258 true).wf = false ∧ (Instr.twbAttemptEnd 0 (.addrNack (some 258))).wf = false ∧
    (Instr.twbAttemptEnd 0 (.arbLostCtrl 257)).wf = true := by decide
theorem test_illformed_pulse : (Instr.relayPulseEnd 0 (some { ms := 256, depth := 0 }) 0).wf = false ∧
    (Instr.relayPulseEnd 0 none 65536).wf = false ∧ (Instr.relayPulseAbort 0 .bankUv 65536).wf = false ∧
    (Instr.relayPulseEnd 0 (some { ms := 255, depth := 65535 }) 65535).wf = true := by decide

/-! ### The queue -/

/-- No row of the table gives a word bits. -/
theorem test_no_word_spells_a_command : decodeTableWord 32 0 = none ∧ State.reset.withFetchWord 32 0 = State.reset :=
  ⟨rfl, rfl⟩
theorem test_first_of_the_queue_runs :
    (match step { setup0 with pending := [.glbEpochHiWrite 5, .holdSet] } with
     | .next t => decide (t.den.epochHeld = some 5 ∧ t.pending = [.holdSet])
     | _ => false) = true := by decide +kernel
theorem test_idle_counts : (match step setup0 with
     | .next t => decide (t.den.time = setup0.den.time + 1)
     | _ => false) = true := by decide +kernel

/-! ### Worked examples -/

/-- The state that a command answers. -/
def after (c : Instr) (s : State) : State := match exec c s with
  | .next t => t
  | _ => State.reset

/-- 23, Worked through 1: STRAP0 and STRAP1 at 47 kΩ. -/
theorem test_strap_word : (strapWord { world with strap0 := .k47, strap1 := .k47 }) = 0x05000011 := by decide
/-- 23, Worked through 3: CHG_ICHG is RWS, so the write in RUN is only counted. -/
theorem test_locked_write_counts :
    (let t := after (.registerWrite .link 0x5408 0xF 0xC8) run0
     decide (readReg t 0x0020 = 1 ∧ readReg t 0x0024 = 0x5408 ∧ readReg t 0x5408 = readReg run0 0x5408)) = true := by
  decide +kernel
/-- 23, Worked through 4: two bytes, then a whole word, then reserved space. -/
theorem test_access_errors :
    (let t1 := after (.registerWrite .link 0x0038 0x3 0xBEEF) run0
     let t2 := after (.registerWrite .link 0x0038 0xF 0xBEEF) t1
     let t3 := after (.registerWrite .link 0x9800 0xF 1) t2
     decide (readReg t1 0x003C = 1 ∧ readReg t1 0x0038 = 0 ∧ readReg t2 0x0038 = 0xBEEF ∧ readReg t3 0x003C = 0x00010001)) =
      true := by decide +kernel
/-- 23, Worked through 5: 7,200,000,000 µs. -/
theorem test_den_time_latches :
    (let s := { run0 with den := { run0.den with time := 7200000000 } }
     let t := after (.dentimeLoRead .link) s
     decide (readReg s 0x0110 = 0xAD274800 ∧ readBy .link t 0x0114 = 1 ∧ readBy .port t 0x0114 = 0)) = true := by
  decide +kernel
/-- 23, Worked through 6: the high half of the epoch is held. -/
theorem test_epoch_held :
    (let t := after (.glbEpochHiWrite 0x00070000) run0
     let t2 := after (.glbEpochLoWrite 0) t
     decide (readReg t 0x0034 = 0 ∧ readReg t2 0x0034 = 0x00070000)) = true := by decide +kernel
/-- 17, Worked through 4 and 5: OFF −3 and GAIN −60. -/
theorem test_cal_word : (calWord 0 (some (-3)) (some (-60))).1 = 0x03FC4FFD := by decide
/-- 18, Worked through 1 and 2: the slots of 0x31 and 0x52 on TWB1. -/
theorem test_partner_slots : partnerSlot 1 0x31 = 153 ∧ partnerSlot 1 0x52 = 186 := by decide
/-- 18, Worked through 4: three bytes, one attempt, the address acknowledged. -/
theorem test_transfer_failed_result :
    xFailed { op := .xfer, item := none, attempts := 1, arbLosses := 0, retries := 0, wdata := [], acked := 3, addrAck := true,
              bus := .free, census := none, due := none, rounds := 0, again := false, lastSweep := false, needRecovery := false, stuckSda := false, stuckScl := false, alertHold := false,
              alertLow := false } = 0x00010103 := by decide
/-- 06, Worked through 1: the handle of relay 17 at generation 5. -/
theorem test_handle_layout :
    handleOf { State.reset with eng := { State.reset.eng with gens := spSet genReset [] (48 + 17) 5 } } 2 17 = 0x20050011 := by
  decide
/-- 22, Worked through: LSH_CHGMIN at its reset value is 1 A. -/
theorem test_leash_reset : chgMin State.reset = 1000 := by decide +kernel
/-- 16, Worked through 2: of two neighbours, one failed makes a sensor UNKNOWN. -/
theorem test_median_of_two : median2 [300, 300] = some 600 ∧ median2 [1, 5, 9] = some 10 := by decide


/-! ### Witnesses

For every statement with hypotheses, a state and operands that meet those of each clause together; numbers stand at the
ends of their ranges. -/

def cap (mw : Nat) (s : State) : State := setReg 0x5008 (BitVec.ofNat 32 mw) s
def granted_ (d : Demand) (mw : Nat) (s : State) : State :=
  modBud (fun b => { b with grants := b.grants ++ [{ demand := d, tier := 0, mw := mw, acc := false, ends := none }] }) s
def params (l : List Word) (w : Nat) : Word := l.getD (w - 5) 0

/-- Lanes 0 and 1, 3.3 V, 1 A, 5 W. -/
def rail1 : Rail := railOf (params [3, 0, 3300, 0, 100, 5000]) false
def withRail (r : Fin 48) (x : Rail) (s : State) : State :=
  obj 1 r.val { s with rails := s.rails.set r.val (some x) r.isLt }
def withLane (n : Fin 48) (f : Lane → Lane) (s : State) : State := { s with lanes := upd s.lanes n f }
def withGraph (k : Fin 16) (g : Graph) (s : State) : State :=
  obj 9 k.val { s with graphs := s.graphs.set k.val (some g) k.isLt }
def withRelay (n : Fin 48) (x : Relay) (s : State) : State :=
  obj 2 n.val { s with relays := s.relays.set n.val (some x) n.isLt }
def withMotor (m : Fin 2) (x : Motor) (s : State) : State :=
  obj 3 m.val { s with motors := s.motors.set m.val (some x) m.isLt }
def withFan (f : Fin 4) (x : Fan) (s : State) : State :=
  obj 4 f.val { s with fans := s.fans.set f.val (some x) f.isLt }
def withSeq (q : Fin 8) (x : Seq) (s : State) : State :=
  obj 5 q.val { s with adc := { s.adc with seqs := s.adc.seqs.set q.val (some x) q.isLt } }
def withRule (r : Fin 32) (x : Rule) (s : State) : State :=
  obj 8 r.val { s with thm := { s.thm with rules := s.thm.rules.set r.val (some x) r.isLt } }
def withChg (f : Charger → Charger) (s : State) : State := { s with chg := f s.chg }
def withClk (f : Clk → Clk) (s : State) : State := { s with clk := f s.clk }
def withPwr (f : Power → Power) (s : State) : State := { s with pwr := f s.pwr }
def withLink (f : Link → Link) (s : State) : State := { s with link := f s.link }
def withPort (p : Fin 4) (f : Port → Port) (s : State) : State :=
  { s with twb := { s.twb with ports := upd s.twb.ports p f } }

theorem setup0_good : setup0.Good where
  regs := by decide
  gens := by decide
  partners := by decide
  window := by decide
  image0 := by decide
  image1 := by decide
  bankA := by decide
  bankB := by decide
  events := by decide
  faults := by decide
  recent := by decide
  pointer := by decide

theorem witness_StepRunsFront : { setup0 with pending := [.holdSet, .holdRelease] }.pending = .holdSet :: [.holdRelease] := rfl
theorem witness_StepIdles : setup0.pending = [] := rfl
theorem witness_GoodKept : setup0.Good ∧ ∃ t, step setup0 = .next t := ⟨setup0_good, _, rfl⟩
theorem witness_FusedKeysStand :
    (let s := { setup0 with eng := { setup0.eng with keys := upd setup0.eng.keys 3 (fun k => { k with fused := true }) } }
     s.eng.keys[(3 : Fin 4)].fused = true ∧ (match step s with
       | .next _ => true
       | _ => false) = true) := by decide +kernel
theorem witness_FramesStand :
    mayEndRun (.nop 0) = false ∧ setup0.pwr.burrowing = false ∧ (match exec .mainsLoss setup0 with
      | .next _ => true
      | _ => false) = true := by decide +kernel

/-! #### Power, clocks -/

def latched_ (f : BurrowLatch → BurrowLatch) : State := withPwr (fun p => { p with latch := f p.latch }) State.reset

theorem witness_StartsStart :
    let w1 := { world with batsns := 10000, acinValid := false }
    let w2 := { world with strap3 := .k47, batsns := 9000 }
    let b := latched_ (fun l => { l with inBurrow := true, acinLost := true })
    State.reset.den.up = false ∧ (w1.strap3 = .k47 → 9000 ≤ w1.batsns) ∧ (10000 ≤ w1.batsns ∨ w1.acinValid = true) ∧
    (w2.strap3 = .k47 → 9000 ≤ w2.batsns) ∧ (10000 ≤ w2.batsns ∨ w2.acinValid = true) ∧
    State.reset.pwr.latch.inBurrow = false ∧ State.reset.pwr.stage ≠ .shakeOff ∧
    b.den.up = false ∧ b.pwr.latch.inBurrow = true ∧ b.pwr.latch.uv = false ∧ b.pwr.latch.acinLost = true ∧
    (withPwr (fun p => { p with stage := .shakeOff }) State.reset).pwr.stage = .shakeOff := by decide +kernel
theorem witness_EveryStartLeavesSetup :
    let b := latched_ (fun l => { l with inBurrow := true, acinLost := true })
    State.reset.den.up = false ∧ State.reset.pwr.latch.inBurrow = false ∧ State.reset.pwr.stage ≠ .shakeOff ∧
    b.den.up = false ∧ b.pwr.latch.inBurrow = true ∧ b.pwr.latch.uv = false ∧ b.pwr.latch.acinLost = true ∧
    (withPwr (fun p => { p with stage := .shakeOff }) State.reset).pwr.stage = .shakeOff ∧
    setup0.pwr.iface = .setup := by decide +kernel
theorem witness_BatteryCheckDecides :
    let h := withPwr (fun p => { p with stage := .heldBattery }) setup0
    State.reset.den.up = false ∧ State.reset.pwr.latch.inBurrow = false ∧ State.reset.pwr.stage ≠ .shakeOff ∧
    world.strap3 ≠ .k47 ∧ (1999 < 2000 ∧ world.acinValid = true) ∧
    (8999 < 9000 ∧ { world with batsns := 8999, acinValid := false }.acinValid = false) ∧
    h.den.up = true ∧ h.pwr.stage = .heldBattery ∧ battTooLow (sawBatsns 12000 h) = false ∧
    holdsOpen (battHold false (sawBatsns 12000 h)) (sawBatsns 12000 h) = false ∧
    (let g := withPwr (fun p => { p with acinValid := false }) h
     g.den.up = true ∧ g.pwr.stage = .heldBattery ∧ battTooLow (sawBatsns 9999 g) = true ∧
       battless (sawBatsns 9999 g) = false ∧ battTooLow (sawBatsns 10000 g) = false) := by decide +kernel
theorem witness_SupplyEnds :
    let s := withPwr (fun p => { p with acinValid := false }) setup0
    let h := withPwr (fun p => { p with stage := .heldBattery }) s
    let b := withPwr (fun p => { p with burrowing := true }) s
    s.den.up = true ∧ s.pwr.acinValid = false ∧ s.pwr.stage ≠ .shaking ∧
    (withPwr (fun p => { p with stage := .shaking }) s).pwr.stage = .shaking ∧ battless s = false ∧ 9999 < uvMv s ∧
    s.pwr.burrowing = false ∧ s.pwr.stage ≠ .heldBattery ∧ h.pwr.burrowing = false ∧ h.pwr.stage = .heldBattery ∧
    b.pwr.burrowing = true ∧ battless b = false ∧ b.pwr.acinValid = false ∧
    turn 0x70 0 [] s (fun it u => !battless u && !u.pwr.acinValid &&
      !(complete 7 .done 0 0 (commitStart it u)).pwr.burrowing) = true ∧
    turn 0x70 0 [] setup0 (fun _ u => u.pwr.acinValid) = true := by decide +kernel
theorem witness_InputFactsFollow :
    let s := withPwr (fun p => { p with acinValid := false }) setup0
    let c := fun (a b : Bool) => { setup0 with cmp := { setup0.cmp with sns0 := a, sns1 := b } }
    let m := fun (t : Nat) (b : Bool) (w : MainsWatch) => { setup0 with
      den := { setup0.den with time := BitVec.ofNat 48 t }, cmp := { setup0.cmp with sns0 := b, mains := w } }
    let q := setReg 0x700C 0x01000000 (setReg 0x7750 0 { setup0 with
      cmp := { setup0.cmp with fcs := upd setup0.cmp.fcs 13 (fun x => { x with above := true }) } })
    let g := setReg 0x001C 0x1F setup0
    s.den.up = true ∧ s.pwr.acinValid = false ∧ (17500 ≤ 17500 ∧ 37000 ≤ 37000) ∧ setup0.pwr.acinValid = true ∧
    setup0.pwr.stage ≠ .heldBattery ∧ setup0.pwr.burrowing = false ∧ (16499 < 16500 ∧ 38000 < 38001) ∧ (c true true).cmp.sns0 = true ∧
    (c false true).cmp.sns0 = false ∧ (c false true).cmp.sns1 ≠ false ∧
    (let w := { setup0.cmp.mains with fall := 0 }
     (m 15000 true w).cmp.sns0 = true ∧ (m 15000 true w).cmp.fcs[(12 : Fin 16)].active = false ∧
      lossTime (m 15000 true w) ≤ sinceT (now (m 15000 true w)) w.fall) ∧
    (let w := { setup0.cmp.mains with rises := 3, rise := 0 }
     0 < w.rises ∧ sinceT (now (m 15000 false w)) w.rise ≤ lossTime (m 15000 false w) ∧ w.lost = false ∧ 3 ≤ w.rises) ∧
    (let w := { setup0.cmp.mains with rises := 1, rise := 1985000, first := 0, lost := true }
     let s := m 2000000 false w
     0 < w.rises ∧ sinceT (now s) w.rise ≤ lossTime s ∧ w.lost = true ∧ 100000 * rfld s 0x700C 15 8 ≤ sinceT (now s) w.first) ∧
    rfld q 0x700C 25 24 ≠ 0 ∧ fcMode q 13 ≠ 3 ∧ sns1High q = (true != rbit q 0x700C 26) ∧ q.cmp.sns1 ≠ true ∧
    1000 * rfld q 0x700C 23 16 ≤ sinceT (now q) q.cmp.mains.change1 ∧
    rfld (setReg 0x700C 0x01000000 setup0) 0x700C 25 24 = 1 ∧ rbit (setReg 0x700C 0x05000000 setup0) 0x700C 26 = true ∧
    g.pwr.stage = .started ∧ g.pwr.pstate = .full ∧ rbit g 0x001C 4 = true ∧ g.pwr.hostUp = false ∧
    hostRuns g = false ∧ hostGraph g = (15 : Fin 16).val ∧ keptDown g 15 = false ∧ hot g = false ∧
    (withPwr (fun p => { p with hrstDue := true }) setup0).pwr.hrstDue = true ∧ setup0.pwr.pstate ≠ .hush := by
  decide +kernel
theorem witness_ReferenceMoves :
    let run := withClk (fun c => { c with rootRun := true }) setup0
    let three := withClk (fun c => { c with losses := [0, 0, 0] }) (setReg 0x0104 1 run)
    let quiet := withPwr (fun p => { p with pstate := .hush }) run
    setup0.den.up = true ∧ setup0.pwr.burrowing = false ∧ setup0.pwr.pstate ≠ .hush ∧
    (withClk (fun c => { c with xPresent := true, refEmber := false }) setup0).clk.xPresent = true ∧
    (withClk (fun c => { c with xPresent := true, refEmber := false }) setup0).clk.refEmber = false ∧
    run.clk.rootRun = true ∧ run.clk.locked = false ∧ run.clk.lossPending = false ∧
    (withClk (fun c => { c with lossPending := true }) run).clk.lossPending = true ∧ isPresent run 173 1 = false ∧
    isPresent (fault 173 1 0 run) 173 1 = true ∧
    three.clk.refEmber = true ∧ rbit three 0x0104 0 = true ∧ rbit three 0x0104 2 = false ∧
    (recentLosses three three.clk.losses).length < 4 ∧ isPresent setup0 171 3 = false ∧ setup0.clk.xPresent = false ∧
    adcBusy quiet = false ∧ portsBusy quiet = false ∧ quiet.pwr.pstate = .hush ∧ quiet.usb.vbus = false ∧ journalBusy quiet = false ∧
    quiet.clk.rootRun = true ∧ (0 : Fin 9) ≠ 7 ∧ (8 : Fin 9) ≠ 7 := by decide +kernel
theorem witness_TrimMovesWithinItsStep :
    let lo := withClk (fun c => { c with xPresent := true, code := -1024 }) setup0
    let hi := { setReg 0x0104 2 (withClk (fun c => { c with code := 1023 }) setup0) with
      usb := { setup0.usb with attached := true, configured := true } }
    hi.usb.attached = true ∧ hi.usb.suspended = false ∧ lo.den.up = true ∧ -1024 ≤ lo.clk.code ∧ lo.clk.code ≤ 1023 ∧ lo.clk.xPresent = true ∧ lo.pwr.pstate ≠ .hush ∧
    hi.den.up = true ∧ -1024 ≤ hi.clk.code ∧ hi.clk.code ≤ 1023 ∧ hi.usb.configured = true ∧ rbit hi 0x0104 1 = true ∧
    hi.clk.xPresent = false := by decide +kernel
theorem witness_SofIntervalsAreDiscarded :
    let s := { setReg 0x0104 2 setup0 with usb := { setup0.usb with attached := true, configured := true } }
    s.usb.attached = true ∧ s.usb.suspended = false ∧ setup0.usb.attached = false ∧
    { s with usb := { s.usb with configured := false } }.usb.attached = true ∧ (8080 < 8081 ∧ 7919 < 7920) ∧ s.den.up = true ∧ s.usb.configured = true ∧ rbit s 0x0104 1 = true ∧
    s.clk.xPresent = false := by decide +kernel

/-! #### Registers, link, rings -/

/-- Every condition of R38 holds. -/
def ready : State :=
  setReg 0x0640 0x1000 (setReg 0x0648 0x2000 (setReg 0x0440 0x40 (setReg 0x0448 0x10004 (setReg 0x0540 0x80
    (setReg 0x0548 0x10004 setup0)))))
/-- SQ0, CQ0, EQ in use, the interface in RUN. -/
def ready0 : State := { ready with pwr := { ready.pwr with iface := .run, firstRun := false } }

theorem witness_RunIsEntered :
    setup0.den.up = true ∧ setup0.link.dlUp = true ∧ setupWrites setup0 = true ∧ setup0.jnl.scanned = true ∧
    fld 0xA501 1 0 = 1 ∧ runRefusal setup0 0xA501 = 1 ∧ runRefusal ready 0xA501 = 0 ∧ runRefusal ready 0xA401 = 5 ∧
    runRefusal (withLink (fun l => { l with bme := false }) ready) 0xA501 = 3 ∧
    ready.pwr.burrowing = false ∧ setupWrites ready0 = false := by decide +kernel
theorem witness_WritesReachTheirRegister :
    State.reset.den.up = false ∧ setup0.den.up = true ∧ setup0.link.dlUp = true ∧ (regAccess 0x0038).isSome = true ∧
    (3 : BitVec 4) ≠ 0xF ∧ portLocked 0x0400 = true ∧ portLocked 0x067C = true ∧ portMayWrite setup0 = false ∧
    portLocked 0x0680 = false ∧ portLocked 0x0038 = false ∧
    (withPwr (fun p => { p with iface := .granted }) setup0).pwr.iface = .granted := by decide +kernel
theorem witness_ReservedSpaceIsCounted :
    0x9800 ≤ (0x9800 : BitVec 16).toNat ∧ regAccess 0x97FC = none ∧ setup0.den.up = true ∧ setup0.link.dlUp = true ∧
    (withPwr (fun p => { p with iface := .granted }) setup0).pwr.iface = .granted ∧ portLocked 0x9800 = false := by
  decide +kernel

def withKey (k : Fin 4) (f : KeySlot → KeySlot) (s : State) : State :=
  { s with eng := { s.eng with keys := upd s.eng.keys k f } }

theorem witness_SpecialRegistersAct :
    let s := withKey 3 (fun x => { x with loaded := 0xF }) setup0
    s.den.up = true ∧ s.link.dlUp = true ∧ setupWrites s = true ∧ fld 0x5A03 15 8 = 0x5A ∧ fld 0x5A03 1 0 = (3 : Fin 4).val ∧
    s.eng.keys[(3 : Fin 4)].loaded = 0xF ∧ keyLocked s 3 = false ∧
    (withKey 0 (fun x => { x with fusing := true }) setup0).eng.keys[(0 : Fin 4)].fusing = true ∧ run0.pwr.iface = .run := by
  decide +kernel
theorem witness_ClockWritesSelect :
    setup0.den.up = true ∧ setup0.link.dlUp = true ∧ (8 : Fin 9) ≠ 7 ∧ setupWrites setup0 = true ∧
    (withClk (fun c => { c with rootRun := true }) setup0).clk.rootRun = true ∧ setupWrites run0 = false := by decide +kernel
theorem witness_RingWritesNeedTheHold :
    run0.den.up = true ∧ run0.link.dlUp = true ∧ (match regAccess 0x0440 with
      | some acc => decide (acc.rw ≠ 0)
      | none => false) = true ∧ isRingReg 0x0440 = true ∧ setupWrites setup0 = true ∧
    (withLink (fun l => { l with held := true }) run0).link.held = true ∧ run0.pwr.iface = .run ∧
    run0.link.held = false := by decide +kernel
theorem witness_HoldsAndResets :
    let h := withLink (fun l => { l with hold := true }) run0
    run0.den.up = true ∧ run0.link.hold = false ∧ run0.jnl.queue = [] ∧ h.link.hold = true ∧ h.link.bme = true ∧
    (withLink (fun l => { l with bme := false }) h).link.bme = false ∧ h.link.dlUp = true ∧ inRun h = true ∧
    h.pwr.pstate ≠ .hush ∧ run0.link.dlUp = true ∧ mayTrain run0 = true := by decide +kernel
theorem witness_LinkComesAndGoes :
    let d := withLink (fun l => { l with dlUp := false }) setup0
    d.den.up = true ∧ d.pwr.pstate ≠ .hush ∧ d.link.dlUp = false ∧ d.pwr.stage = .started ∧ d.link.perst = false ∧
    d.clk.refEmber = true ∧ inRun run0 = true ∧ run0.link.hold = false ∧ run0.pwr.pstate ≠ .hush ∧
    isPresent run0 168 3 = false ∧ run0.pwr.burrowing = false ∧ run0.link.dlUp = true ∧ inRun setup0 = false ∧
    (withLink (fun l => { l with training := true }) d).link.training = true ∧
    (let k := withLink (fun l => { l with masked := 0x80000000, cfg := { l.cfg with msix := true } }) run0
     bit k.link.masked 31 = true ∧ dmaOk k = true ∧ k.link.cfg.msix = true ∧ k.link.cfg.msixAll = false) ∧
    run0.link.lstate = .l0 ∧ (withLink (fun l => { l with cfg := { l.cfg with aspmL1 := true } }) run0).link.cfg.aspmL1 = true ∧
    (withLink (fun l => { l with lstate := .l1 }) run0).link.lstate ≠ .l0 ∧
    (withLink (fun l => { l with lstate := .l1 }) run0).link.lstate ≠ .down ∧ dmaOk run0 = true := by decide +kernel
theorem witness_PollsAndFailures :
    inRun ready0 = true ∧ dmaOk ready0 = true ∧ ready0.link.hold = false ∧ ready0.pwr.burrowing = false ∧
    sqOn ready0 0 = true ∧ (16 - ready0.link.sqs[(0 : Fin 16)].cons).toNat ≤ ringSize (sqCfg ready0 0) ∧
    ringSize (sqCfg ready0 0) < (17 - ready0.link.sqs[(0 : Fin 16)].cons).toNat ∧
    (withLink (fun l => { l with dbFails := 2 }) ready0).link.dbFails = 2 ∧
    (withLink (fun l => { l with sqFails := upd l.sqFails 15 (fun _ => 2) }) ready0).link.sqFails[(15 : Fin 16)] = 2 ∧
    isPresent ready0 168 1 = false ∧ (withLink (fun l => { l with dbFails := 1 }) ready0).link.dbFails < 2 ∧
    ready0.link.sqFails[(0 : Fin 16)] < 2 ∧ ready0.link.dlUp = true ∧ ready0.link.aer ||| 1 ≠ 0 ∧ ready0.link.aer = 0 ∧
    isPresent ready0 168 2 = false := by decide +kernel

/-- One descriptor stands in SQ0. -/
def oneDue : State := withLink (fun l => { l with sqs := upd l.sqs 0 (fun r => { r with prod := 1 }) }) ready0

theorem witness_DescriptorsAreTaken :
    inRun oneDue = true ∧ dmaOk oneDue = true ∧ oneDue.link.hold = false ∧ dead oneDue = false ∧ dueSq oneDue = some 0 ∧
    fld 0 31 16 = oneDue.link.sqs[(0 : Fin 16)].fetch.toNat % 65536 ∧
    fld 0x10000 31 16 ≠ oneDue.link.sqs[(0 : Fin 16)].fetch.toNat % 65536 ∧ dueSq oneDue ≠ some 1 := by decide +kernel

/-! #### Journal -/

def withJnl (f : Journal → Journal) (s : State) : State := { s with jnl := f s.jnl }
/-- A final completion waits for room on CQ0. -/
def heldComp : Comp := compOf ready0 (item 0 0 []) .done 0 0 0

theorem witness_RecordsCommit :
    let acc := withJnl (fun j => { j with queue := [.accept (item 0 0 [])] }) run0
    let door := withJnl (fun j => { j with queue := [.door (item 0 0 []) .refusedFormat 1 0] }) run0
    let q := withLink (fun l => { l with cqs := upd l.cqs 0 (fun r => { r with fresh := true }) })
      { ready0 with eng := { ready0.eng with comps := [heldComp] } }
    let open1 := { run0 with
      eng := { run0.eng with items := [item 0x11 0 []] }
      jnl := { run0.jnl with
        bankA := { run0.jnl.bankA with slots := [(1, acceptRec (item 0x11 0 []) ++ [0, 0])] } } }
    copyInHand acc = none ∧ copyInHand door = none ∧
    (copyInHand { open1 with jnl := { open1.jnl with queue := acc.jnl.queue } }).isSome = true ∧
    acc.den.up = true ∧ dead acc = false ∧ mustWait acc = false ∧ mustWait door = false ∧ open1.jnl.owed = [] ∧
    32 ≤ q.link.cfg.mps ∧ acc.jnl.queue = .accept (item 0 0 []) :: [] ∧ itemBody (item 0 0 []) = false ∧
    door.jnl.queue = .door (item 0 0 []) .refusedFormat 1 0 :: [] ∧ (item 0 0 []).ring.toNat < 16 ∧
    acc.jnl.bankA.inService = true ∧ acc.jnl.bankB.inService = true ∧ acc.pwr.burrowing = false ∧
    heldOn q 0 = heldComp :: [] ∧ cqRoom q 0 = true ∧ open1.den.up = true ∧ dead open1 = false ∧ open1.jnl.queue = [] ∧
    (forced open1 ((open1.jnl.head.toNat + 1) % 2048)).isSome = true ∧ setupWrites setup0 = true ∧
    setup0.jnl.reinstating = [] ∧
    (withJnl (fun j => { j with bankA := { j.bankA with inService := false } }) setup0).jnl.bankA.inService = false ∧
    (withJnl (fun j => { j with bankB := { j.bankB with inService := false } }) setup0).jnl.bankB.inService = false ∧
    (withJnl (fun j => { j with reinstating := [1, 0] }) setup0).jnl.reinstating = (1 : Fin 2) :: [0] := by decide +kernel
theorem witness_JournalReadGives :
    turn 0x72 0 [0, 0, 1, 0, 0, 64] run0 (fun it u => aligned (addrOf (opv it 7) (opv it 8)) 64 && dmaOk (commitStart it u) &&
      decide (fld (opv it 4) 1 0 = 0) && decide (1 ≤ (opv it 6).toNat) && decide (64 ≤ (opv it 9).toNat) && bankIn u 0) = true ∧
    turn 0x72 0 [0x100, 0, 2048, 64, 0, 131072] run0 (fun it u => aligned (addrOf (opv it 7) (opv it 8)) 64 &&
      decide (fld (opv it 4) 1 0 = 0) && decide ((opv it 6).toNat ≤ 2048) && bankIn u 1) = true ∧
    turn 0x72 0 [2, 0, 0, 0, 0, 8192] run0 (fun it u => aligned (addrOf (opv it 7) (opv it 8)) 64 && dmaOk (commitStart it u) &&
      decide (fld (opv it 4) 1 0 = 2) && decide (8192 ≤ (opv it 9).toNat)) = true := by decide +kernel

/-- An image of zeros, with the head that R145 asks for; its CRC is `c`. -/
def zeroImage (seq c : Word) : List Word := [0x4E424931, seq, 1, c] ++ List.replicate 2044 0
/-- The same as a copy holds it. -/
def zeroStored (seq c : Word) : Sparse Word := [(0, 0x4E424931), (1, seq), (2, 1), (3, c)]
theorem words_self {n : Nat} {l : List Word} (h : l.length = n) : (List.range n).map (wd l) = l := by
  subst h
  apply List.ext_getElem
  · rw [List.length_map, List.length_range]
  · intro i h1 h2
    rw [List.getElem_map, List.getElem_range, wd, List.getD_eq_getElem _ _ h2]
theorem zeroImage_length (seq c : Word) : (zeroImage seq c).length = 2048 := by
  unfold zeroImage
  rw [List.length_append, List.length_replicate, show [0x4E424931, seq, 1, c].length = 4 from rfl]
theorem zeroImage_words (seq c : Word) : imageWords (zeroImage seq c) = zeroImage seq c :=
  words_self (zeroImage_length seq c)
theorem zeroStored_words (seq c : Word) :
    (List.range 2048).map (fun i => spGet (fun _ => 0) (zeroStored seq c) i) = zeroImage seq c := by
  rw [← words_self (zeroImage_length seq c)]
  refine List.map_congr_left (fun i hi => ?_)
  have h : ∀ k, k < 2044 → wd (zeroImage seq c) (k + 4) = 0 := fun k hk => by
    simp only [zeroImage, wd, List.cons_append, List.nil_append, List.getD_cons_succ]
    rw [List.getD_eq_getElem _ _ (by rwa [List.length_replicate]), List.getElem_replicate]
  match i with
  | 0 => rfl
  | 1 => rfl
  | 2 => rfl
  | 3 => rfl
  | k + 4 =>
    have := List.mem_range.1 hi
    rw [h k (by omega)]
    simp [zeroStored, spGet]
theorem zeroImage_rest (seq c d : Word) : (zeroImage seq c).drop 4 = (zeroImage seq d).drop 4 := by
  unfold zeroImage
  simp only [List.cons_append, List.nil_append, List.drop_succ_cons, List.drop_zero]
theorem zeroImage_crcWord (seq c : Word) : wd (zeroImage seq c) 3 = c := by
  simp only [zeroImage, wd, List.cons_append, List.getD_cons_succ, List.getD_cons_zero]
theorem zeroImage_seq (seq c : Word) : imageSeq (zeroImage seq c) = seq := by
  simp only [zeroImage, imageSeq, wd, List.cons_append, List.getD_cons_succ, List.getD_cons_zero]
theorem zeroImage_layout (seq c : Word) : imageLayout (zeroImage seq c) = true := by
  simp only [imageLayout, zeroImage, wd, List.cons_append, List.getD_cons_succ, List.getD_cons_zero, decide_true,
    Bool.and_true]
theorem zeroImage_crc (seq : Word) : imageCrc (zeroImage seq (crc32 ((zeroImage seq 0).drop 4))) = true := by
  unfold imageCrc
  rw [decide_eq_true_eq, zeroImage_crcWord]
  exact congrArg crc32 (zeroImage_rest _ _ _)
theorem zeroImage_newer (c : Word) (s : State) (h : s.jnl.image0 = []) (h1 : s.jnl.image1 = []) :
    imageNewer s (zeroImage 1 c) = true := by
  have e (k : Nat) : imgWord s k 1 < 1 := by
    unfold imgWord
    rw [h, h1, ite_self]
    decide
  unfold imageNewer
  rw [zeroImage_seq]
  simp only [List.all_cons, List.all_nil, e, decide_true, Bool.or_true, Bool.and_true]
theorem zeroImage_badCrc : ∃ c, imageCrc (zeroImage 1 c) = false := by
  refine ⟨crc32 ((zeroImage 1 0).drop 4) + 1, ?_⟩
  unfold imageCrc
  rw [decide_eq_false_iff_not, zeroImage_crcWord, zeroImage_rest 1 (crc32 ((zeroImage 1 0).drop 4) + 1) 0]
  generalize crc32 ((zeroImage 1 0).drop 4) = c
  bv_omega
/-- A copy that is good already makes an image of the same number no newer. -/
theorem zeroImage_notNewer (s : State) (h : s.jnl.image0 = zeroStored 1 (crc32 ((zeroImage 1 0).drop 4))) (c : Word) :
    imageNewer s (zeroImage 1 c) = false := by
  have e : imgWords s 0 = zeroImage 1 (crc32 ((zeroImage 1 0).drop 4)) := by
    rw [← zeroStored_words]
    unfold imgWords imgWord
    rw [if_pos rfl, h]
  have g : goodImage (imgWords s 0) = true := by
    have := zeroImage_crc 1
    have l := zeroImage_layout 1 (crc32 ((zeroImage 1 0).drop 4))
    rw [e]
    unfold imageCrc at this
    unfold imageLayout at l
    unfold goodImage
    rw [Bool.and_eq_true] at l
    rw [this, l.1, l.2, show wd (zeroImage 1 (crc32 ((zeroImage 1 0).drop 4))) 1 = 1 from zeroImage_seq _ _]
    rfl
  have n : imgWord s 0 1 = 1 := by
    unfold imgWord
    rw [if_pos rfl, h]
    rfl
  unfold imageNewer
  rw [zeroImage_seq, List.all_cons, g, n]
  rfl
theorem words_of_dword (m : DWord) : dword (loW m) (hiW m) = m := by
  unfold dword loW hiW
  ext i h
  simp only [BitVec.getElem_append, BitVec.getElem_setWidth]
  split
  · rfl
  · rename_i g
    rw [BitVec.getLsbD_ushiftRight, show 32 + (i - 32) = i by omega, BitVec.getLsbD_eq_getElem]
/-- The item of a BOOT_IMAGE_WRITE whose MAC is `m`. -/
def imageItem (m : DWord) : Item := item 0x71 0 [0, 0, loW m, hiW m]
/-- The interface in RUN, key 0 fused. -/
def fused0 : State := withKey 0 (fun x => { x with fused := true }) run0
/-- An image that passes every check, and one for each check that it does not pass. -/
theorem witness_BootImageIsWritten :
    (∀ m : DWord, Works 0x71 7 (imageItem m) (sit (imageItem m) fused0) (takenUp (imageItem m) (sit (imageItem m) fused0)) ∧
      dword (opv (imageItem m) 6) (opv (imageItem m) 7) = m ∧ keySlot (imageItem m).flags = 0) ∧
    dmaOk (sit (imageItem 0) { fused0 with link := { fused0.link with bme := false } }) = false ∧ dmaOk fused0 = true ∧
    imageLayout (imageWords []) = false ∧
    (let ws := zeroImage 1 (crc32 ((zeroImage 1 0).drop 4))
     imageLayout (imageWords ws) = true ∧ imageCrc (imageWords ws) = true ∧
     macFits fused0 0 ws (imageMac fused0.eng.keys[(0 : Fin 4)] ws) = true ∧ macFits run0 0 ws 0 = false ∧
     imageNewer fused0 (imageWords ws) = true) := by
  refine ⟨fun m => ⟨⟨⟨rfl, rfl, rfl, rfl⟩, rfl, rfl⟩, words_of_dword m, by
    show keySlot 0 = 0
    decide⟩, rfl, rfl, ?_, ?_⟩
  · decide +kernel
  · simp only [zeroImage_words]
    refine ⟨zeroImage_layout _ _, zeroImage_crc 1, ?_, rfl, zeroImage_newer _ _ rfl rfl⟩
    unfold macFits
    simp only [decide_true, Bool.and_true]
    rfl
theorem witness_BootImageIsWritten_window :
    let full := withJnl (fun j => { j with biPtr := 2048 }) setup0
    let head := withJnl (fun j => { j with biPtr := 2048, biWords := [(0, 0x4E424931), (2, 1)] }) setup0
    setupWrites setup0 = true ∧ setup0.jnl.biBusy = false ∧ fld 1 1 0 = 1 ∧ setup0.jnl.biPtr < 2048 ∧
    (withJnl (fun j => { j with biPtr := 2047 }) setup0).jnl.biPtr < 2048 ∧ fld 2 1 0 = 2 ∧ 2048 ≤ full.jnl.biPtr ∧
    imageLayout ((List.range 2048).map (fun i => spGet (fun _ => 0) full.jnl.biWords i)) = false ∧
    imageLayout ((List.range 2048).map (fun i => spGet (fun _ => 0) head.jnl.biWords i)) = true ∧
    head.eng.keys.toList.any (·.fused) = false ∧
    (withJnl (fun j => { j with biBusy := true }) setup0).jnl.biBusy = true ∧ setup0.pwr.burrowing = false := by
  decide +kernel
theorem witness_BootImageIsWritten_old :
    let s := withJnl (fun j => { j with image0 := zeroStored 1 (crc32 ((zeroImage 1 0).drop 4)) }) fused0
    imageNewer s (zeroImage 1 (crc32 ((zeroImage 1 0).drop 4))) = false := zeroImage_notNewer _ rfl _
theorem witness_BootImageIsWritten_commit :
    let s := withJnl (fun j => { j with biPtr := 2048, biWords := zeroStored 1 (crc32 ((zeroImage 1 0).drop 4)) }) setup0
    let ws := (List.range 2048).map (fun i => spGet (fun _ => 0) s.jnl.biWords i)
    imageLayout ws = true ∧ imageCrc ws = true ∧ s.eng.keys.toList.any (·.fused) = false ∧ imageNewer s ws = true := by
  intro s ws
  rw [show ws = zeroImage 1 (crc32 ((zeroImage 1 0).drop 4)) from zeroStored_words _ _]
  exact ⟨zeroImage_layout _ _, zeroImage_crc 1, rfl, zeroImage_newer _ _ rfl rfl⟩

/-! #### Armed work, items of the house, Owls -/

def slot1 : ArmedSlot :=
  { aseq := 50, trigger := 4, cond := 0, time := 0, delay := 0, handle := 0, due := none, fired := false }
def withSlot (k : Fin 64) (x : ArmedSlot) (s : State) : State :=
  { s with eng := { s.eng with armed := s.eng.armed.set k.val (some x) k.isLt } }
/-- `n` BODY items of the ARM with ASEQ `a`, numbered from `from_`. -/
def bodies (n : Nat) (from_ a : Word) (s : State) : State :=
  { s with eng := { s.eng with items := s.eng.items ++ (List.range n).map (fun i =>
      { item 0x10 0 [] with aseq := from_ + BitVec.ofNat 32 i, phase := .body, armOf := some a }) } }
/-- An ARM of one BODY item on DOOR with `fail` for what went wrong. -/
def armIt (ops : List Word) (seen fail : Nat) : Item := { item 0x60 0 ops with bodySeen := seen, bodyFail := fail }
/-- `turn` for an item given whole. -/
def turnOf (op : Nat) (it : Item) (s : State) (k : State → Bool) : Bool := works op it (sit it s) k
def freeArm (u : State) : Option (Fin 64) := (fins 64).find? (fun j => (u.eng.armed[j]).isNone)
/-- The turn of an item has come whose handle is not the one asked for, or does not stand. -/
def badTurn (op : Nat) (h : Word) (s : State) : Bool :=
  let it := item op h []
  let t := sit it s
  decide (findItem t it.aseq = some it ∧ it.opcode.toNat = op) && canBegin t it && !mustWait (cleared it t) &&
    (handleErr (takenUp it t) op it.handle).isSome

theorem witness_ArmedWorkRuns :
    turnOf 0x60 (armIt [0] 0 0) run0 (fun _ => armReady (armIt [0] 0 0) && armOperand (armIt [0] 0 0)) = true ∧
    turnOf 0x60 (armIt [0x101] 0 1) run0 (fun _ => armReady (armIt [0x101] 0 1) && !armOperand (armIt [0x101] 0 1)) = true ∧
    turnOf 0x60 (armIt [0x801] 8 2) run0 (fun _ => armReady (armIt [0x801] 8 2) && !armOperand (armIt [0x801] 8 2)) = true ∧
    turnOf 0x60 (armIt [0x106] 1 0) { run0 with eng := { run0.eng with armed := Vector.replicate 64 (some slot1) } }
      (fun u => armReady (armIt [0x106] 1 0) && !armOperand (armIt [0x106] 1 0) && (freeArm u).isNone) = true ∧
    turnOf 0x60 (armIt [0x101] 1 0) (bodies 128 100 50 (bodies 1 900 7 (withSlot 0 slot1 run0)))
      (fun u => decide (freeArm u = some 1) && decide (128 < armedBodies u + (bodiesOf u 7).length)) = true ∧
    turnOf 0x60 (armIt [0x101] 1 0) (bodies 127 100 50 (bodies 1 900 7 (withSlot 0 slot1 run0)))
      (fun u => decide (freeArm u = some 1) && decide (armedBodies u + (bodiesOf u 7).length = 128) &&
        !timePast u (slotOf (armIt [0x101] 1 0) (handleOf u 7 1))) = true ∧
    turn 0x61 (hnd 7 63) [] (obj 7 63 (withSlot 63 { slot1 with fired := true } run0))
      (fun it u => decide (hSlot it.handle = (63 : Fin 64).val) && (u.eng.armed[(63 : Fin 64)]).isSome) = true ∧
    turn 0x61 (hnd 7 0) [] (obj 7 0 (withSlot 0 slot1 run0))
      (fun it u => decide (hSlot it.handle = (0 : Fin 64).val) && (u.eng.armed[(0 : Fin 64)]).isSome) = true ∧
    badTurn 0x61 (hnd 7 0) run0 = true := by decide +kernel
theorem witness_ArmedWorkRuns_slots :
    let s := withSlot 63 slot1 run0
    let d := withSlot 0 { slot1 with fired := true, due := some 0 } run0
    s.eng.armed[(63 : Fin 64)] = some slot1 ∧ watched s = true ∧ slot1.fired = false ∧ slot1.due = none ∧
    timePast s slot1 = true ∧ slotsInOrder s = [63] ∧ reserveLow s = false ∧
    d.eng.armed[(0 : Fin 64)] = some { slot1 with fired := true, due := some 0 } ∧ d.den.up = true := by decide +kernel
theorem witness_NopFenceAndFeedAnswer :
    turn 0x00 0 [] run0 (fun _ _ => true) = true ∧ turn 0x01 0 [] run0 (fun _ _ => true) = true ∧
    badTurn 0x01 1 run0 = true ∧
    (let it := item 0x01 0 []
     let b := bodies 1 3 4 run0
     let s := { b with eng := { b.eng with items := b.eng.items ++ [it] } }
     findItem s 7 = some it ∧ canStart s it = true ∧ (earlier s it).length = 1 ∧ (earlier s it).all (fun j => j.ring = it.ring)) := by
  decide +kernel
/-- The Host Owl watches, and a feed would be early. -/
def owlEarly0 : State :=
  let s := setReg 0x9410 9 (setReg 0x9418 1 run0)
  { s with owl := { s.owl with owls := upd s.owl.owls 0 (fun o => { o with state := .watch, winFrom := some 0 }) } }
def owl1 : State := setReg 0x9410 1 run0
theorem witness_NopFenceAndFeedAnswer_feeds :
    turnOf 0x02 { item 0x02 0 [] with redriven := true } run0 (fun _ => true) = true ∧
    turn 0x02 0 [] run0 (fun _ u => !owlEn u 0) = true ∧
    turn 0x02 0 [] owl1 (fun _ u => owlEn u 0 && !owlEarly u) = true ∧
    turn 0x02 0 [] owlEarly0
      (fun _ u => owlEn u 0 && owlEarly u && inRun u) = true ∧
    badTurn 0x02 1 run0 = true := by decide +kernel

def okSlot (s : State) (c want slot : Nat) : Bool := match createSlot s c want with
  | .ok k => k = slot
  | .error _ => false
def noSlot (s : State) (c want : Nat) : Bool := match createSlot s c want with
  | .ok _ => false
  | .error _ => true
/-- HANDLE_CREATE with words 4 on reaches a free slot, its parameters in range or not. -/
def creates (c want slot : Nat) (ws : List Word) (good : Bool) : Bool :=
  turn 0x08 0 (BitVec.ofNat 32 (c + 65536 * want) :: ws) run0 (fun it u => decide (fld (opv it 4) 3 0 = c) &&
    okSlot u c (fld (opv it 4) 31 16) slot && ((paramFault u c slot (opv it)).isNone == good))
theorem witness_HandlesAreMadeAndEnded_created :
    creates 1 47 47 [3, 0, 3300, 0, 100, 5000] true = true ∧ creates 1 0 0 [] false = true ∧
    creates 2 0xFFFF 0 [0x0505] true = true ∧ creates 2 47 47 [1] false = true ∧
    creates 3 1 1 [2, 0, 0x00640064] true = true ∧ creates 3 0 0 [] false = true ∧ creates 4 3 3 [] false = true ∧ creates 8 31 31 [] false = true ∧
    creates 8 0 0 [0x280] true = true ∧ creates 9 15 15 [] true = true ∧ creates 5 7 7 [] true = true := by
  decide +kernel
theorem witness_HandlesAreMadeAndEnded_refused :
    turn 0x08 0 [6, 0x5200] run0 (fun it _ => decide (fld (opv it 4) 3 0 = 6)) = true ∧
    turn 0x08 0 [0x00300001] run0 (fun it u => noSlot u 1 (fld (opv it 4) 31 16)) = true ∧
    turn 0x08 0 [0] run0 (fun it _ => decide (fld (opv it 4) 3 0 = 0)) = true ∧
    turn 0x08 0 [7] run0 (fun it _ => decide (fld (opv it 4) 3 0 = 7)) = true ∧
    turn 0x08 0 [10] run0 (fun it _ => decide (fld (opv it 4) 3 0 = 10)) = true := by decide +kernel
theorem witness_HandlesAreMadeAndEnded_ended :
    turn 0x09 (hnd 1 0) [] (withRail 0 rail1 run0) (fun it u => !bodyNames u it.handle &&
      (destroyFault u 7 it.handle).isNone) = true ∧
    turn 0x09 (hnd 1 0) [] (withRail 0 { rail1 with state := .on } run0) (fun it u => !bodyNames u it.handle &&
      (destroyFault u 7 it.handle).isSome) = true ∧
    (let i : Item := { item 0x11 (hnd 1 0) [] with aseq := 3, phase := .body }
     let s := withRail 0 rail1 run0
     turn 0x09 (hnd 1 0) [] { s with eng := { s.eng with items := [i] } } (fun it u => bodyNames u it.handle) = true) := by
  decide +kernel
def withOwl (o : Fin 2) (st : OwlState) (cyc : Nat) (cfg : Word) : State :=
  let s := setReg (0x9410 + o.val * 0x20) cfg run0
  { s with owl := { s.owl with owls := upd s.owl.owls o (fun x => { x with state := st, cycles := cyc }) } }
/-- An Owl in EXPIRED whose rung `r` is due. -/
def onRung (o : Fin 2) (r cyc : Nat) (cfg : Word) : State :=
  let s := withOwl o .expired cyc cfg
  { s with owl := { s.owl with owls := upd s.owl.owls o (fun x => { x with rung := r }) } }
theorem witness_OwlsExpire :
    run0.pwr.burrowing = false ∧ owlCounts (withOwl 0 .watch 0 1) 0 = true ∧ owlCounts (withOwl 1 .watch 0 1) 1 = true ∧
    (withOwl 0 .watch 0 1).owl.owls[(0 : Fin 2)].left = 0 ∧
    owlEn owlEarly0 0 = true ∧ inRun owlEarly0 = true ∧ owlEarly owlEarly0 = true ∧
    (let s := onRung 1 1 0 0x31
     rungDue s 1 1 = true ∧ owlRung1En s 1 = true ∧ owlRung2En s 1 = true ∧ inHush s = false) ∧
    (let s := onRung 1 1 0 0x21
     rungDue s 1 1 = true ∧ owlRung1En s 1 = false ∧ owlRung2En s 1 = true) ∧
    (let s := onRung 1 2 0 0x31
     rungDue s 1 2 = true ∧ s.owl.owls[(1 : Fin 2)].off = none ∧ owlRung2En s 1 = true ∧
     nth s.graphs (hostGraph s) none = none ∧ s.owl.owls[(1 : Fin 2)].cycles < owlMaxCycles s 1) ∧
    (let s := onRung 0 2 0 0x11
     rungDue s 0 2 = true ∧ s.owl.owls[(0 : Fin 2)].off = none ∧ owlRung2En s 0 = false) := by decide +kernel
/-- The host graph stands. -/
def owlGraph (s : State) : State := withGraph 0 (graphOf (fun _ => 0) false) (withGraph 15 (graphOf (fun _ => 0) false) s)
def quiet (s : State) : State := withPwr (fun p => { p with pstate := .hush }) s
theorem witness_OwlsExpire_rungs :
    (let s := owlGraph (onRung 1 2 0 0x31)
     rungDue s 1 2 = true ∧ rungDue (quiet s) 1 2 = true ∧ nth s.graphs (hostGraph s) none ≠ none ∧ s.owl.owls[(1 : Fin 2)].cycles < owlMaxCycles s 1 ∧ inHush s = false ∧
     nth (quiet s).graphs (hostGraph (quiet s)) none ≠ none ∧ (quiet s).owl.owls[(1 : Fin 2)].cycles < owlMaxCycles (quiet s) 1 ∧
     inHush (quiet s) = true) ∧
    (let s := owlGraph (onRung 0 2 3 0x31)
     rungDue s 0 2 = true ∧
     nth s.graphs (hostGraph s) none ≠ none ∧ owlMaxCycles s 0 ≤ s.owl.owls[(0 : Fin 2)].cycles) ∧
    (let s := quiet (onRung 0 1 0 0x31)
     rungDue s 0 1 = true ∧ owlRung1En s 0 = true ∧ inHush s = true ∧ owlRung2En s 0 = true) ∧
    (let s := quiet (onRung 0 1 0 0x11)
     rungDue s 0 1 = true ∧ owlRung1En s 0 = true ∧ inHush s = true ∧ owlRung2En s 0 = false) ∧
    (let s := withOwl 0 .cycling 0 0x31
     let o := { s with owl := { s.owl with owls := upd s.owl.owls 0 (fun x => { x with off := some 0 }) } }
     o.owl.owls[(0 : Fin 2)].off = some 0) ∧
    (withOwl 0 .resetting 0 1).owl.owls[(0 : Fin 2)].state = .resetting ∧ run0.den.up = true ∧
    run0.owl.wdtStopped = false ∧ isPresent run0 172 1 = false ∧ run0.owl.emberStopped = false ∧
    isPresent run0 172 2 = false := by decide +kernel

/-! #### Lanes, rails, graphs -/

/-- Rail 0 on lanes 0 and 1 in state `st`, its lanes in `ls`. -/
def onRail0 (st : RailState) (ls : LaneState) (s : State) : State :=
  withLane 0 (fun l => { l with rail := some 0, state := ls })
    (withLane 1 (fun l => { l with rail := some 0, state := ls }) (withRail 0 { rail1 with state := st } s))
theorem witness_LanesComeUp :
    let w := onRail0 .waitDown .waitDown run0
    let st := onRail0 .starting .start run0
    let on := onRail0 .on .start run0
    w.lanes[(0 : Fin 48)].rail = some 0 ∧ w.rails[(0 : Fin 48)] = some { rail1 with state := .waitDown } ∧
    w.lanes[(0 : Fin 48)].state = .waitDown ∧ rail1.target = 3300 ∧ 0 ∈ rail1.members ∧
    decider w { rail1 with state := .waitDown } = 0 ∧ st.lanes[(1 : Fin 48)].state = .start ∧
    st.lanes[(1 : Fin 48)].rail = some 0 ∧ st.rails[(0 : Fin 48)] = some { rail1 with state := .starting } ∧
    decider st { rail1 with state := .starting } ≠ 1 ∧ decider st { rail1 with state := .starting } = 0 ∧
    on.lanes[(1 : Fin 48)].state = .start ∧ on.rails[(0 : Fin 48)] = some { rail1 with state := .on } ∧
    slewStands st 0 { rail1 with state := .starting } = false ∧ slewStands on 1 { rail1 with state := .on } = false ∧
    (let h := withLane 0 (fun l => { l with slewHeld := true, ref := 329999 }) (onRail0 .on .reg run0)
     slewStands h 0 { rail1 with state := .on } = true ∧ h.lanes[(0 : Fin 48)].state ≠ .measure) ∧
    (let d := withLane 47 (fun l => { l with state := .supplyWait }) run0
     d.lanes[(47 : Fin 48)].state = .supplyWait ∧ rail2 d 47 = none) ∧
    (let e := withLane 1 (fun l => { l with state := .supplyWait }) (onRail0 .on .reg run0)
     e.lanes[(1 : Fin 48)].state = .supplyWait ∧ held e 1 = false ∧ isolated e 1 = false ∧
       rail2 e 1 = some { rail1 with state := .on } ∧ railRuns { rail1 with state := .on } = true) ∧
    laneRun (onRail0 .on .reg run0).lanes[(0 : Fin 48)] = true ∧
    (onRail0 .on .reg run0).lanes[(0 : Fin 48)].dropout = false ∧
    (withLane 0 (fun l => { l with dropout := true }) (onRail0 .on .reg run0)).lanes[(0 : Fin 48)].dropout = true := by
  decide +kernel
theorem witness_LaneAndRailFaultsLatch_lanes :
    let s := onRail0 .on .reg run0
    s.den.up = true ∧ s.pwr.burrowing = false ∧ s.lanes[(0 : Fin 48)].state ≠ .absent ∧
    s.lanes[(0 : Fin 48)].state = .reg ∧ laneRun s.lanes[(0 : Fin 48)] = true ∧ laneActive s.lanes[(0 : Fin 48)] = true ∧
    manyLanes s 0 = true ∧ (31 < 32 ∧ s.lanes[(31 : Fin 48)].state ≠ .absent) ∧
    (∀ d, d < 7 → isPresent s 0 d = false) ∧ (onRail0 .starting .start run0).lanes[(0 : Fin 48)].state = .start := by
  decide +kernel
/-- Rail 47 with remote sense, dither, WAIT_TMO and monitor 63. -/
def sensed : Rail := { railOf (params [3, 0, 3300 + 0x80000, 0x01BF0080, 100, 5000, 0x5032, 0x10]) false with state := .on }
def onRail47 (x : Rail) : State :=
  setReg (wmReg 63 0) 0x400 { withRail 47 x run0 with cmp := { run0.cmp with wms := upd run0.cmp.wms 63 (fun m => { m with owner := .rail 47 }) } }
/-- What the monitor says of the output at `mv`. -/
def watches (x : Rail) (mv : Nat) : CompLevel :=
  wmJudge (onRail47 x) 63 (BitVec.ofNat 16 (codeAt (watchedInput x) (1000 * mv)))
theorem witness_LaneAndRailFaultsLatch_rails :
    let r := sensed
    let s := onRail47 r
    s.pwr.burrowing = false ∧ s.rails[(47 : Fin 48)] = some r ∧ railRuns r = true ∧ r.pg = false ∧
    (∀ d, d < 9 → isPresent s (48 + 47) d = false) ∧ fld r.w12 7 0 ≠ 0 ∧ r.state = .on ∧ r.rsEn = true ∧
    300 < (remoteSeen s r 3000 - 3301).natAbs ∧ 9 * trimGain (trimWord s (153 + r.rsPair)) < 200000 ∧ remoteSeen s r 3299 = 3299 ∧
    r.ditherEn = true ∧ r.wmEn = true ∧ r.wmon = (63 : Fin 64).val ∧ wmRuns 63 s = true ∧ wmBlanked 63 s = false ∧
    r.members.any (fun n => s.lanes[n].slewHeld) = false ∧ (watches r 3132).below = true ∧ (watches r 3564).above = true ∧
    (watches r 3135).below = false ∧ (watches r 3562).above = false ∧
    (onRail47 { r with state := .waitDown }).rails[(47 : Fin 48)] = some { r with state := .waitDown } ∧
    (onRail47 { r with state := .stopping }).rails[(47 : Fin 48)] = some { r with state := .stopping } ∧ r.slewing = false ∧
    (onRail47 { r with rsActive := true, corr := 1 }).rails[(47 : Fin 48)] = some { r with rsActive := true, corr := 1 } ∧
    r.corrMax = 2 ∧ clampI (-r.corrMax) r.corrMax (1 + clampI (-1) 1 ((r.target : Int) - 3299)) = r.corrMax ∧
    (onRail47 { r with rsActive := true }).rails[(47 : Fin 48)] = some { r with rsActive := true } ∧
    clampI (-r.corrMax) r.corrMax (0 + clampI (-1) 1 ((r.target : Int) - 3299)) ≠ r.corrMax := by decide +kernel

/-- An item on rail 0 heads its queue, the rail as given. -/
def railTurn (op : Nat) (ops : List Word) (x : Rail) (s : State) (k : Item → State → Bool) : Bool :=
  turn op (hnd 1 0) ops (withRail 0 x s) (fun it u => decide (hSlot it.handle = 0) && (u.rails[(0 : Fin 48)]).isSome && k it u)
def asked (n : Nat) (u : State) (q : Req) : Bool := match ask u q with
  | .refused _ => n = 0
  | .served => n = 1
  | .waits _ => n = 2
theorem witness_RailEnableAnswers :
    let rq := fun (u : State) => railReq u 0 rail1 (.item 7) 7 rail1.claim
    railTurn 0x11 [] rail1 (fault 48 3 0x10 run0) (fun _ u => held u 48) = true ∧
    railTurn 0x11 [] rail1 (hotState run0) (fun _ u => !held u 48 && hot u) = true ∧
    railTurn 0x11 [] { rail1 with state := .faulted } run0 (fun _ u => !held u 48 && !hot u) = true ∧
    railTurn 0x11 [] { rail1 with state := .on } (withLane 1 (fun l => { l with state := .absent }) run0)
      (fun _ u => !held u 48 && !hot u) = true ∧
    railTurn 0x11 [] { rail1 with state := .stopping } (granted_ .lift 1 (cap 10000 run0)) (fun _ u => asked 2 u (rq u)) = true ∧
    railTurn 0x11 [] rail1 (cap 9999 run0) (fun _ u => asked 0 u (rq u)) = true ∧
    railTurn 0x11 [] rail1 (cap 10000 run0) (fun _ u => asked 1 u (rq u)) = true ∧
    railTurn 0x11 [] rail1 (granted_ .lift 1 (cap 10000 run0)) (fun _ u => asked 2 u (rq u)) = true := by decide +kernel
theorem witness_RailTargetsAndStops :
    railTurn 0x10 [3301] rail1 (fault 48 3 0x10 run0) (fun it u => held u 48 && decide (rail1.vset < fld (opv it 4) 13 0)) =
      true ∧
    railTurn 0x10 [499] rail1 run0 (fun it u => !held u 48 && !targetOk (isCtl rail1.lead) (fld (opv it 4) 13 0)) = true ∧
    railTurn 0x10 [3300, 501] rail1 run0 (fun it _ => decide (500 < fld (opv it 5) 9 0)) = true ∧
    railTurn 0x10 [5500, 500] { rail1 with state := .on } run0 (fun it u => !held u 48 &&
      targetOk (isCtl rail1.lead) (fld (opv it 4) 13 0) && decide (fld (opv it 5) 9 0 ≤ 500) &&
      decide ((setVset 5500 rail1).target ≠ rail1.target)) = true ∧
    railTurn 0x10 [500] { rail1 with state := .starting } run0
      (fun it _ => targetOk (isCtl rail1.lead) (fld (opv it 4) 13 0)) = true ∧
    railTurn 0x10 [500] rail1 run0 (fun it _ => targetOk (isCtl rail1.lead) (fld (opv it 4) 13 0)) = true ∧
    railTurn 0x10 [3300] { rail1 with state := .on } run0 (fun it _ =>
      decide ((setVset (fld (opv it 4) 13 0) rail1).target = rail1.target)) = true ∧
    (let it := { item 0x10 (hnd 1 0) [3000] with ring := 0x1F }
     turnOf 0x10 it (onRail0 .on .reg run0) (fun u => it.ring = 0x1F && decide (hSlot it.handle = 0) &&
       decide ((u.rails[(0 : Fin 48)]).isSome))) = true ∧
    railTurn 0x12 [] rail1 run0 (fun _ _ => true) = true ∧
    turn 0x12 (hnd 1 0) [1] (onRail0 .on .reg run0) (fun it u => bit (opv it 4) 0 &&
      (match u.rails[(0 : Fin 48)] with
       | some x => softly u x
       | none => false)) = true ∧
    railTurn 0x12 [1] { rail1 with state := .stopping } run0 (fun it _ => bit (opv it 4) 0) = true ∧
    railTurn 0x12 [1] { rail1 with state := .on } run0 (fun it u => bit (opv it 4) 0 &&
      !softly u { rail1 with state := .on }) = true ∧
    railTurn 0x12 [0] { rail1 with state := .stopping } run0 (fun it _ => !bit (opv it 4) 0) = true := by decide +kernel
theorem witness_RailGangAndLimitsAnswer :
    railTurn 0x13 [0, 3] rail1 (fault 48 3 0x10 run0) (fun _ u => held u 48) = true ∧
    railTurn 0x13 [0, 0x1FF] rail1 run0 (fun it u => !held u 48 && (lanesFault (membersOf (lanesOf (opv it 5) (opv it 6)))).isSome) =
      true ∧
    ([RailState.starting, .waitDown, .sinking, .stopping, .pending, .on, .off, .faulted].all (fun st =>
      railTurn 0x13 [0, 7] { rail1 with state := st } run0 (fun it u =>
        let ms := membersOf (lanesOf (opv it 5) (opv it 6))
        (lanesFault ms).isNone && (membersFault u 0 ms).isNone && decide (ms.head? = some rail1.lead) &&
          decide (rail1.imax ≤ imaxLimit u ms)))) = true ∧
    railTurn 0x13 [0, 6] rail1 run0 (fun it u =>
        let ms := membersOf (lanesOf (opv it 5) (opv it 6))
        (lanesFault ms).isNone && (membersFault u 0 ms).isNone && decide (ms.head? ≠ some rail1.lead)) = true ∧
    railTurn 0x13 [0, 1] { rail1 with w9 := 401 } run0 (fun it u =>
        let ms := membersOf (lanesOf (opv it 5) (opv it 6))
        (lanesFault ms).isNone && (membersFault u 0 ms).isNone && decide (ms.head? = some rail1.lead) &&
          decide (imaxLimit u ms < ({ rail1 with w9 := 401 } : Rail).imax)) = true ∧
    railTurn 0x14 [801] rail1 run0 (fun it u => decide (imaxLimit u rail1.members < (setLimits it rail1).imax)) = true ∧
    railTurn 0x14 [800, 5000] { rail1 with state := .pending } run0 (fun it u =>
      decide ((setLimits it rail1).imax ≤ imaxLimit u rail1.members) && decide (grantOf u (.rail 0) = none) &&
        decide ((setLimits it rail1).claim ≤ rail1.claim)) = true ∧
    railTurn 0x14 [800, 5001] rail1 (granted_ (.rail 0) 5000 run0) (fun it u =>
      decide (grantOf u (.rail 0) ≠ none) && decide (grantMw u (.rail 0) < (setLimits it rail1).claim)) = true ∧
    railTurn 0x14 [800, 5000] rail1 (granted_ (.rail 0) 5000 run0) (fun it u =>
      decide (grantOf u (.rail 0) ≠ none) && decide ((setLimits it rail1).claim ≤ grantMw u (.rail 0))) = true ∧
    railTurn 0x14 [800, 5001] { rail1 with state := .pending } run0 (fun it u =>
      decide (grantOf u (.rail 0) = none) && decide (rail1.claim < (setLimits it rail1).claim)) = true := by
  decide +kernel
theorem witness_RailsRun :
    let x := { rail1 with state := .on, w7 := 3300 + 0x40000 }
    let s := setReg 0x1014 1000 (withLane 0 (fun l => { l with state := .reg, rail := some 0 })
      (withLane 1 (fun l => { l with state := .reg, rail := some 0 }) (withRail 0 x run0)))
    let j := withLane 1 (fun l => { l with state := .join, rail := some 0 }) s
    s.rails[(0 : Fin 48)] = some x ∧ x.pg = false ∧ x.wmEn = false ∧ s.pwr.burrowing = false ∧
    sensed.wmEn = true ∧ sensed.wmon = (63 : Fin 64).val ∧ (onRail47 sensed).rails[(47 : Fin 48)] = some sensed ∧
    wmRuns 63 (onRail47 sensed) = true ∧ wmBlanked 63 (onRail47 sensed) = false ∧ (boundTo s 0).all (inPlace s) = true ∧
    (boundTo j 0).all (inPlace j) = false ∧
    (let f := withLane 1 (fun l => { l with state := .join, rail := some 0, share := 64 }) s
     (boundTo f 0).all (inPlace f) = true ∧ f.lanes[(1 : Fin 48)].state = .join) ∧ watches sensed 3300 = { below := false, above := false } ∧
    (onRail0 .stopping .reg run0).rails[(0 : Fin 48)] = some { rail1 with state := .stopping } ∧
    j.lanes[(1 : Fin 48)].rail = some 0 ∧ j.lanes[(1 : Fin 48)].state = .join ∧ j.lanes[(1 : Fin 48)].leaving = false ∧
    x.autoShed = true ∧ lightLoad s x 199 = true ∧ lightLoad s x 200 = false ∧ heavyLoad s x 1200 = false ∧
    max x.minLanes (laneFloor s 0) < (kept s x).length ∧ ((kept s x).filter (fun m => m ≠ x.lead)).getLast? = some 1 ∧
    (let y := { x with shedMask := 2 }
     let z := withLane 1 (fun l => { l with state := .off }) (withRail 0 y s)
     (y.members.filter (fun m => y.shedMask.getLsbD m.val && mayStart z m)).head? = some 1 ∧ y.autoShed = true ∧
       lightLoad z y 601 = false ∧ heavyLoad z y 601 = true) := by decide +kernel
/-- Two nodes: a WAIT, and rail 0 after it. -/
def graph2 : Graph := { graphOf (fun _ => 0) false with nodes :=
  [{ wait := true, tmo := 0, vtarget := 0, rail := 0, pred := 0, upDelay := 0, downDelay := 0 },
   { wait := false, tmo := 0, vtarget := 0, rail := 0x10000000, pred := 1, upDelay := 0, downDelay := 0 }] }
theorem witness_GraphsRun :
    turn 0x15 (hnd 9 15) [0] (hotState (withGraph 15 graph2 run0)) (fun it u => decide (hSlot it.handle = 15) &&
      (u.graphs[(15 : Fin 16)]).isSome && !bit (opv it 4) 0 && hot u) = true ∧
    turn 0x15 (hnd 9 15) [0] (withGraph 15 graph2 run0) (fun it u => !bit (opv it 4) 0 && !hot u && !keptDown u 15) = true ∧
    turn 0x15 (hnd 9 0) [1] (hotState (withGraph 0 graph2 run0)) (fun it _ => bit (opv it 4) 0) = true ∧
    (let g := { graph2 with state := .runUp }
     let d := { graph2 with state := .runDown, active := 2 }
     let x := { rail1 with state := .on, pg := true }
     let s := withRail 0 x (withGraph 0 { graph2 with state := .runUp, active := 2 } run0)
     isRunning g = true ∧ nodeReady g 0 = true ∧ (nodeAt g 0).wait = true ∧
     nodeReady { g with done := 1 } 1 = true ∧ (nodeAt { g with done := 1 } 1).wait = false ∧
     nodeReady { d with active := 0 } 1 = true ∧ (nodeAt d 1).wait = false ∧ isRunning d = true ∧
     (withGraph 0 d run0).graphs[(0 : Fin 16)] = some d ∧ bit d.active 1 = true ∧ nodeRail s (nodeAt graph2 1) = some 0 ∧ s.rails[(0 : Fin 48)] = some x ∧ railStands x = true ∧
     nodeWaits s 0 1 = false) := by decide +kernel

/-! #### Budget, leash, battery -/

theorem witness_BudgetWalks :
    let rq : Req := { who := .item 7, aseq := 7, demand := .rail 0, tier := 3, mw := 5000, acc := false, slot := false,
                      dur := none, since := 0 }
    let w := setReg 0x5030 0xFFFFFFFF (modBud (fun b => { b with waiting := [rq] }) (cap 10000 run0))
    (walkAll (now w) w).1.find? (fun x => x.2.isNone) = some (rq, none) ∧
    w.bud.waiting.find? (fun q => q.aseq = 7) = some rq ∧ deferLimit w rq.tier ≠ 0 ∧
    (let u := modBud (fun b => { b with shedCap := 8, shedSum := b.shedSum.setIfInBounds 3 5000 }) (cap 10000 run0)
     [1, 2, 3].find? (fun t => u.bud.shedCap.getLsbD t) = some 3 ∧
     ((nth u.bud.shedSum 3 0 : Nat) : Int) ≤ freePower u) ∧ run0.den.up = true := by decide +kernel
theorem witness_BudgetAndLeashAreSet :
    turn 0x48 0 [1, 500001] run0 (fun it _ => budgetBad it) = true ∧
    turn 0x48 0 [0x31, 500000, 0, 0, 0, 2, 0, 6] run0 (fun it _ => !budgetBad it) = true ∧
    turn 0x49 0 [2, 0, 0] run0 (fun it _ => leashOperand it) = true ∧
    turn 0x49 0 [4, 0, 0, 1001] run0 (fun it _ => !leashOperand it && leashBeyond it) = true ∧
    turn 0x49 0 [0xC, 0, 0, 1000, 0, 0, 0x82F2F] run0 (fun it _ => !leashOperand it && !leashBeyond it) = true := by
  decide +kernel
theorem witness_ChargerMoves :
    let s := fun (st : ChgState) => withChg (fun c => { c with state := st }) run0
    (s .precharge).chg.state = .precharge ∧ pack (s .cc) (preV (s .cc)) = 11200 ∧
    11200 ≤ pack (s .cc) (rfld (s .cc) 0x540C 12 0) ∧ (11199 : Nat) < pack (s .cv) (preV (s .cv)) ∧
    (s .done).chg.state = .done ∧ 0 < pack (s .done) (rfld (s .done) 0x540C 12 0 - 5 * rfld (s .done) 0x5410 15 8) ∧
    charging (s .cc) = true ∧
    (let c := setReg 0x5408 200 (granted_ .charger 500000 (withChg (fun c => { c with state := .cc, batsns := 12000 }) run0))
     charging c = true ∧ chgMin c ≤ min (baseMa c) (c.chg.adapted.getD (baseMa c)) ∧ chgMin c < baseMa c ∧
     rfld c 0x5418 8 0 * 100 = 18000 ∧ rfld c 0x5418 8 0 * 100 + 200 < 18201) := by decide +kernel
theorem witness_ChargerFaultsLatch :
    let c := withChg (fun c => { c with state := .cv, safety := 86400000000 }) run0
    let p := withChg (fun c => { c with state := .precharge, preTime := 3600000001 }) run0
    run0.den.up = true ∧ run0.pwr.burrowing = false ∧
    p.chg.state = .precharge ∧ 60000000 * rfld p 0x5414 15 8 < p.chg.preTime ∧ charging c = true ∧
    3600000000 * orElse0 (rfld c 0x5414 23 16) 24 ≤ c.chg.safety ∧ (10 * c.chg.target + 1000 : Int) < 1001 ∧
    1000 < ((24001 : Int) - 23000).natAbs ∧ ovMv c = 14800 ∧ 1250 * rfld c 0x5450 15 0 < 100 * 65536 ∧
    isPresent c 150 1 = false ∧ (withPwr (fun p => { p with acgate := true }) run0).pwr.acgate = true ∧
    isPresent c 150 2 = false ∧ c.chg.state ≠ .disabled ∧ isPresent c 151 3 = false ∧ run0.pwr.batsw = true ∧
    300 < (-301 : Int).natAbs ∧ isPresent c 155 1 = false ∧ isPresent c 155 2 = false ∧ gaugeRuns c = true ∧
    isPresent c 152 3 = false ∧ isPresent p 151 1 = false ∧ inEpisode c 151 2 = false ∧ inEpisode (faultPast 151 2 0 c) 151 2 = true ∧
    inEpisode c 151 4 = false ∧ inEpisode c 151 5 = false := by decide +kernel
theorem witness_GaugeCounts :
    let s := withPwr (fun p => { p with acinValid := false }) run0
    let c := withChg (fun c => { c with cutPend := true }) s
    gaugeRuns State.reset = false ∧ gaugeRuns s = true ∧ s.pwr.acinValid = false ∧ s.chg.cutPend = false ∧
    0 < pack s (cutoffMv s) ∧ c.chg.cutPend = true ∧ c.pwr.burrowing = false ∧ 0 < pack c (cutoffMv c + 50) ∧
    c.chg.qacc ≤ 0 ∧ c.chg.qvalid = false := by decide +kernel
def noBatt (s : State) : State := withPwr (fun p => { p with strap := 0x1000 }) s
theorem witness_GaugeAndChargerAreSet :
    turn 0x43 0 [0] (noBatt run0) (fun _ u => battless u) = true ∧
    turn 0x43 0 [3] run0 (fun it u => !battless u && decide (fld (opv it 4) 1 0 = 3) && !u.chg.vvalid) = true ∧
    turn 0x43 0 [2, 0xFFFFFFFF] run0 (fun it u => !battless u && decide (fld (opv it 4) 1 0 ≠ 3)) = true ∧
    turn 0x40 0 [1, 1] (fault 151 3 0x10 run0) (fun it u => chgs it 0 && bit (opv it 5) 0 && held u 151) = true ∧
    turn 0x40 0 [0] (noBatt run0) (fun it u => !chgs it 0 && battless u) = true ∧
    turn 0x40 0 [4, 0, 0, 3401] run0 (fun it u => !battless u && chgOperand it) = true ∧
    turn 0x40 0 [4, 0, 0, 3395] run0 (fun it u => !battless u && !chgOperand it && chgRange u it) = true ∧
    turn 0x40 0 [1, 1] (hotState run0) (fun it u => chgs it 0 && bit (opv it 5) 0 && !held u 151 && !chgOperand it &&
      !chgRange u it && hot u) = true ∧
    turn 0x40 0 [5, 1, 0, 3400] run0 (fun it u => !held u 151 && !battless u && !chgOperand it && !chgRange u it && !hot u) =
      true := by decide +kernel
/-- LEND_SET: on, 24 V, 10 A at most 500 to 2000 and 1 to 300; SOC_LIM in word 7. -/
def lends (ops : List Word) (s : State) (k : Item → State → Bool) : Bool :=
  turn 0x41 0 ops s (fun it u => bit (opv it 4) 0 && k it u)
def lifts (ops : List Word) (s : State) (k : Item → State → Bool) : Bool :=
  turn 0x42 0 ops s (fun it u => bit (opv it 4) 0 && k it u)
theorem witness_LendAndLiftAct :
    turn 0x41 0 [0, 500, 300] run0 (fun it u => !bit (opv it 4) 0 && !lendRange it && decide (u.chg.lend = .off)) = true ∧
    turn 0x41 0 [0, 2000, 1] (withChg (fun c => { c with lend := .running }) run0)
      (fun it u => !lendRange it && decide (u.chg.lend ≠ .off)) = true ∧
    turn 0x41 0 [0, 2001, 1] run0 (fun it _ => !bit (opv it 4) 0 && lendRange it) = true ∧
    lends [1] (fault 153 1 0x10 run0) (fun _ u => held u 153) = true ∧
    lends [1, 499, 1] run0 (fun it u => !held u 153 && lendRange it) = true ∧
    lends [1, 500, 1] (withChg (fun c => { c with cutPend := true }) run0) (fun it u => !held u 153 && !lendRange it && !hot u &&
      !vinBank u && !battless u && u.chg.cutPend) = true ∧
    lends [1, 2000, 300] (fault 153 1 0 run0) (fun it u => !held u 153 && !lendRange it && !u.chg.cutPend &&
      decide ((fld (opv it 7) 7 0 * 10 : Nat) ≤ socUse u) && latchedIn u 153) = true ∧
    lends [1, 2000, 300] run0 (fun it u => !lendRange it && decide ((fld (opv it 7) 7 0 * 10 : Nat) ≤ socUse u) &&
      !latchedIn u 153 && decide (u.chg.lend = .off)) = true ∧
    turn 0x42 0 [0, 180, 200] run0 (fun it u => !bit (opv it 4) 0 && !liftRange it && decide (u.chg.lift = .off)) = true ∧
    turn 0x42 0 [0, 280, 1] (withChg (fun c => { c with lift := .rising }) run0)
      (fun it u => !liftRange it && decide (u.chg.lift ≠ .off)) = true ∧
    turn 0x42 0 [0, 179, 1] run0 (fun it _ => !bit (opv it 4) 0 && liftRange it) = true ∧
    lifts [1] (fault 154 1 0x10 run0) (fun _ u => held u 154) = true ∧
    lifts [1, 281, 1] run0 (fun it u => !held u 154 && liftRange it) = true ∧
    lifts [1, 180, 1] (fault 154 1 0 run0) (fun it u => !held u 154 && !liftRange it && !hot u && latchedIn u 154) = true ∧
    lifts [1, 280, 200, 1] run0 (fun it u => !held u 154 && !liftRange it && !hot u && !latchedIn u 154 &&
      decide (grantMw u .lift < fld (opv it 7) 23 0)) = true ∧
    run0.pwr.burrowing = false ∧ isPresent run0 154 3 = false ∧
    (let l := granted_ .lend 1 (withChg (fun c => { c with lend := .slewing }) run0)
     l.chg.lend = .slewing ∧ l.chg.lend ≠ .off ∧ capLend l < grantMw l .lend) ∧
    (let r := withChg (fun c => { c with lend := .running, vlend := 1000, lift := .running, vacc := 240 }) run0
     r.chg.lend = .running ∧ (7999 < 8 * r.chg.vlend) ∧ 10 * r.chg.vlend + 1000 < 11001 ∧ r.chg.lift ≠ .off ∧
       100 * r.chg.vacc + 2000 < 26001 ∧ 21599 < 90 * r.chg.vacc ∧ inEpisode r 153 1 = false ∧ inEpisode r 153 2 = false ∧
       inEpisode r 154 1 = false ∧ inEpisode r 154 2 = false ∧ ((24720 : Int) - 100 * r.chg.vacc).natAbs ≤ 3 * r.chg.vacc ∧
       3 * r.chg.vacc < ((23279 : Int) - 100 * r.chg.vacc).natAbs) ∧
    (withChg (fun c => { c with lend := .closing }) run0).chg.lend = .closing := by decide +kernel

/-! #### Relays, motors, fans -/

def relay1 : Relay := relayOf (params [0x2828, 0])
def relayTurn (ops : List Word) (x : Relay) (s : State) (k : Item → State → Bool) : Bool :=
  let t := withRelay 47 x s
  turn 0x20 (hnd 2 47) ops t (fun it u => !relayBusy t it.handle && decide (hSlot it.handle = (47 : Fin 48).val) &&
    (u.relays[(47 : Fin 48)]).isSome && k it u)
/-- What the budget says to the pulse of an item. -/
def relayAsks (n : Nat) (it : Item) (x : Relay) (u : State) : Bool :=
  asked n u (relayReq u 47 x (.item 7) 7 (pulseWidth x (bit (opv it 4) 0) (fld (opv it 4) 23 16)))
def pulsed (mw : Nat) (s : State) : State := setReg 0x5028 (BitVec.ofNat 32 mw) s
theorem witness_RelaysPulse_set :
    relayTurn [1] relay1 (fault 143 3 0x10 run0) (fun _ u => held u 143) = true ∧
    relayTurn [0x40001] relay1 run0 (fun it u => !held u 143 && !pwOk (fld (opv it 4) 23 16)) = true ∧
    relayTurn [0x50001] { relay1 with state := .faulted } run0 (fun it _ => pwOk (fld (opv it 4) 23 16)) = true ∧
    relayTurn [0xFA0001] relay1 (hotState run0) (fun it u => pwOk (fld (opv it 4) 23 16) && hot u) = true ∧
    relayTurn [1] { relay1 with target := some true, confirmed := true } run0
      (fun it _ => bit (opv it 4) 0 && !bit (opv it 4) 8) = true ∧
    relayTurn [0x101] { relay1 with target := some true, confirmed := true } (pulsed 1000 (cap 6000 run0))
      (fun it u => bit (opv it 4) 8 && relayAsks 1 it relay1 u) = true ∧
    relayTurn [1] relay1 (pulsed 1001 (cap 6000 run0)) (fun it u => relayAsks 0 it relay1 u) = true ∧
    relayTurn [1] relay1 (granted_ .lift 1 (pulsed 1000 (cap 6000 run0))) (fun it u => relayAsks 2 it relay1 u) = true ∧
    relayTurn [1] relay1 (fault 143 3 2 (pulsed 1000 (cap 6000 run0))) (fun it u => relayAsks 1 it relay1 u &&
      isolated (place (relayReq u 47 relay1 (.item 7) 7 40) .served u) 143) = true := by decide +kernel
theorem witness_RelaysPulse_end :
    let p := { relay1 with state := .pulsing, width := 40 }
    let s := withRelay 47 p run0
    let g := { relay1 with state := .retryGap }
    s.relays[(47 : Fin 48)] = some p ∧ twinMin p = 3 ∧ twinMax p p.width = 30 ∧ dipMin p = 50 ∧ p.held = false ∧
    lands p { ms := 3, depth := 50 } = true ∧ lands p { ms := 30, depth := 50 } = true ∧
    (some ({ ms := 2, depth := 50 } : Dip)).filter (lands p) = none ∧ (some ({ ms := 3, depth := 49 } : Dip)).filter (lands p) = none ∧
    (withRelay 47 { p with held := true } run0).relays[(47 : Fin 48)] = some { p with held := true } ∧ s.pwr.burrowing = false ∧
    (withRelay 0 g run0).relays[(0 : Fin 48)] = some g ∧
    (let q := fun (u : State) => relayReq u 0 g (.retry 0) 7 40
     let w := fun (mw : Nat) => withRelay 0 g (pulsed mw (cap 6000 run0))
     asked 0 (withRelay 0 g (pulsed 1001 (cap 6000 run0))) (q (w 1001)) = true ∧
     asked 1 (withRelay 0 g (pulsed 1000 (cap 6000 run0))) (q (w 1000)) = true ∧
     asked 2 (granted_ .lift 1 (withRelay 0 g (pulsed 1000 (cap 6000 run0)))) (q (w 1000)) = true) := by decide +kernel
def motor1 : Motor := motorOf (params [2, 5000, 0x00640064])
def motorTurn (op : Nat) (ops : List Word) (x : Motor) (s : State) (k : Item → State → Bool) : Bool :=
  let t := withMotor 1 x s
  turn op (hnd 3 1) ops t (fun it u => decide (hSlot it.handle = (1 : Fin 2).val) && (u.motors[(1 : Fin 2)]).isSome && k it u)
theorem witness_MotorItemsAnswer :
    let m := { motor1 with posValid := true }
    let q := fun (u : State) => motorReq u 1 m 7
    motorTurn 0x21 [] m (fault 145 3 0x10 run0) (fun it u => !motorBraking (withMotor 1 m run0) it.handle && held u 145) = true ∧
    motorTurn 0x21 [] { m with state := .faulted } run0 (fun _ u => !held u 145) = true ∧
    motorTurn 0x21 [] m (hotState run0) (fun _ u => hot u) = true ∧
    motorTurn 0x21 [] m (cap 10000 run0) (fun _ u => asked 1 u (q u) && !hot u) = true ∧
    motorTurn 0x21 [] m (granted_ .lift 1 (cap 10000 run0)) (fun _ u => asked 2 u (q u)) = true ∧
    motorTurn 0x22 [0, 4] m run0 (fun it u => !held u 145 && !inOr0 (fld (opv it 5) 7 0) 5 100) = true ∧
    motorTurn 0x22 [] m (fault 145 3 0x10 run0) (fun _ u => held u 145) = true ∧
    motorTurn 0x22 [0, 5] motor1 run0 (fun it u => !held u 145 && inOr0 (fld (opv it 5) 7 0) 5 100 && !it.redriven) = true ∧
    turnOf 0x22 { item 0x22 (hnd 3 1) [0, 5] with redriven := true } (withMotor 1 motor1 run0) (fun u => !held u 145 &&
      inOr0 5 5 100 && (u.motors[(1 : Fin 2)]).isSome) = true ∧
    motorTurn 0x22 [0, 100] { motorOf (params [0, 5000]) with posValid := true } run0
      (fun it _ => inOr0 (fld (opv it 5) 7 0) 5 100 && !motEnc (motorOf (params [0, 5000]))) = true ∧
    motEnc m = true ∧ motorTurn 0x22 [0, 100] { m with state := .faulted } run0 (fun _ _ => true) = true ∧
    motorTurn 0x22 [0, 100] m (hotState run0) (fun _ u => hot u) = true ∧
    motorTurn 0x22 [0, 100] m (cap 9999 run0) (fun _ u => asked 0 u (q u)) = true ∧
    motorTurn 0x22 [0, 100] m (granted_ .lift 1 (cap 10000 run0)) (fun _ u => asked 2 u (q u)) = true ∧
    motorTurn 0x23 [1] { m with state := .moving } run0 (fun it _ => bit (opv it 4) 0) = true ∧
    motorDrives { m with state := .moving } = true ∧ motorDrives { m with state := .homing } = true ∧
    motorTurn 0x23 [0] { m with state := .homing } run0 (fun it _ => !bit (opv it 4) 0) = true ∧
    motorTurn 0x23 [0] { m with state := .braking } run0 (fun it _ => !bit (opv it 4) 0) = true ∧
    motorTurn 0x23 [1] { m with state := .braking } run0 (fun it _ => bit (opv it 4) 0) = true ∧
    motorTurn 0x23 [0] m run0 (fun _ _ => !motorDrives m) = true := by decide +kernel
/-- Channel 1 as `x`. -/
def onMotor (x : Motor) : State := withMotor 1 x run0
def homes (st : HomeStep) : Motor := { motor1 with state := .homing, step := st }
theorem witness_MotorsMove :
    let mv := { motorOf (params [3, 5000, 0x00640064, 0, 0, 0, 0, 0, 0x00010000]) with state := .moving, target := 10 }
    let s := onMotor mv
    s.motors[(1 : Fin 2)] = some mv ∧ s.pwr.burrowing = false ∧ motorDrives mv = true ∧ motAcc mv = true ∧
    s.chg.lift = .off ∧ motorWorks mv = true ∧ motEnc mv = true ∧ inHush s = false ∧ isPresent s 145 1 = false ∧
    motTmo mv = 1 ∧ motorSensed s mv = true ∧ 16 < mv.badSteps + 17 ∧ mv.badSteps + 16 ≤ 16 ∧
    (let n := fun (c : Nat) => noteEdges 1 .home ((List.replicate c 0).map (fun a => now s - BitVec.ofNat 48 a)) s
     mv.chatN = 4 ∧ (match (n 5).motors[(1 : Fin 2)] with
      | some y => chatters y (y.edges .home)
      | none => false) = true ∧ (match (n 4).motors[(1 : Fin 2)] with
      | some y => !chatters y (y.edges .home)
      | none => false) = true ∧ isPresent (fault 145 1 0 s) 145 1 = true) ∧ ahead_ .far mv = true ∧ ahead_ .home mv = false ∧
    (onMotor motor1).motors[(1 : Fin 2)] = some motor1 ∧ motor1.state ≠ .homing ∧ motor1.state ≠ .moving ∧
    ([HomeStep.release, .approach, .backoff, .final].all fun st => decide ((onMotor (homes st)).motors[(1 : Fin 2)] =
      some (homes st) ∧ (homes st).state = .homing ∧ (homes st).step = st ∧ (homes st).farTrips = 0)) = true := by
  decide +kernel
/-- Limit `l` of channel 1, in motor `x`, qualifies as `active`: the channel as the change finds it. -/
def meets (x : Motor) (l : Limit) (active : Bool) (k : Motor → Bool) : Bool :=
  let s := onMotor x
  motorSensed s x && match (countedChanges 1 l [now s - BitVec.ofNat 48 x.qualUs] (modMotor 1 (fun z => match l with
      | .home => { z with homeActive := active }
      | .far => { z with farActive := active }) s)).motors[(1 : Fin 2)] with
    | some y => k y
    | none => false
theorem witness_MotorsMove_limits :
    let mv := { motor1 with state := .moving, target := 10 }
    meets motor1 .home true (fun y => y.state ≠ .homing && y.state ≠ .moving && y.state ≠ .braking) = true ∧
    meets mv .far true (fun y => y.state = .moving && ahead_ .far y) = true ∧
    meets mv .home true (fun y => y.state = .moving && !ahead_ .home y) = true ∧
    meets mv .far false (fun y => y.state = .moving) = true ∧
    meets { motor1 with state := .braking, brake := .homeStep .final } .far true (fun y => y.state = .braking && loses y) = true ∧
    meets { motor1 with state := .braking, brake := .stopped } .far true (fun y => y.state = .braking && !loses y) = true ∧
    meets (homes .approach) .home true (fun y => y.state = .homing && y.step = .approach) = true ∧
    meets (homes .final) .home true (fun y => y.state = .homing && y.step = .final) = true ∧
    meets (homes .release) .home false (fun y => y.state = .homing && y.step = .release) = true ∧
    meets (homes .approach) .far true (fun y => y.state = .homing && y.farTrips = 0) = true := by decide +kernel
theorem witness_MotorsMove_steps :
    (onMotor (homes .release)).motors[(1 : Fin 2)] = some (homes .release) ∧
    (onMotor (homes .approach)).motors[(1 : Fin 2)] = some (homes .approach) ∧
    (onMotor (homes .backoff)).motors[(1 : Fin 2)] = some (homes .backoff) ∧
    (onMotor (homes .final)).motors[(1 : Fin 2)] = some (homes .final) ∧
    (let b := { motor1 with state := .braking, brake := .arrived, item := some 7 }
     let t := sit (item 0x22 (hnd 3 1) []) (onMotor b)
     t.motors[(1 : Fin 2)] = some b ∧ b.state = .braking ∧ b.brake = .arrived ∧ b.item = some 7 ∧
     findItem t 7 = some (item 0x22 (hnd 3 1) [])) ∧
    (let h := { motor1 with state := .braking, brake := .homed }
     (onMotor h).motors[(1 : Fin 2)] = some h ∧ h.state = .braking ∧ h.brake = .homed) ∧
    (let h := { motor1 with state := .braking, brake := .homeStep .final }
     (onMotor h).motors[(1 : Fin 2)] = some h ∧ h.state = .braking ∧ h.brake = .homeStep .final) ∧
    (let h := { motor1 with state := .braking, brake := .faulted }
     (onMotor h).motors[(1 : Fin 2)] = some h ∧ h.state = .braking ∧ h.brake = .faulted) := by decide +kernel
/-- CLAIM 13 W, 3,000 rpm in full, with a tach. -/
def fan1 : Fan := fanOf (params [13000, 0, 0x100, 0, 0, 0, 0, 3000])
def fanTurn (ops : List Word) (x : Fan) (s : State) (k : Item → State → Bool) : Bool :=
  let t := withFan 3 x s
  turn 0x28 (hnd 4 3) ops t (fun it u => decide (hSlot it.handle = (3 : Fin 4).val) && (u.fans[(3 : Fin 4)]).isSome && k it u)
theorem witness_FansAreSetAndRun_set :
    fanTurn [] fan1 (fault 149 1 0x10 run0) (fun _ u => held u 149) = true ∧
    fanTurn [0x100, 0, 1] fan1 run0 (fun it u => !held u 149 && bit (opv it 4) 8 && (fanFaultOf (fanTakes it fan1)).isSome) =
      true ∧
    fanTurn [0, 2499] fan1 run0 (fun it _ => !bit (opv it 4) 8 && !fanTargetOk (fanTakes it fan1).speed (opv it 5).toNat) =
      true ∧
    fanTurn [1, 100] (fanOf (params [13000, 0, 0, 0, 0, 0, 0, 3000])) run0
      (fun it _ => fanTargetOk true (opv it 5).toNat && (fanTakes it fan1).speed &&
        !fanTach (fanTakes it (fanOf (params [13000, 0, 0, 0, 0, 0, 0, 3000])))) = true ∧
    fanTurn [0, 2500] { fan1 with state := .faulted } run0 (fun it _ => fanTargetOk false (opv it 5).toNat) = true ∧
    fanTurn [0, 13000] { fan1 with state := .blind } run0 (fun it _ => fanTargetOk false (opv it 5).toNat &&
      blindHeld { fan1 with state := .blind }) = true ∧
    fanTurn [0, 2500] { fan1 with state := .run, tachLost := true } run0 (fun it _ => fanTargetOk false (opv it 5).toNat &&
      blindHeld { fan1 with state := .run, tachLost := true }) = true ∧
    fanTurn [0, 0] fan1 run0 (fun it u => !blindHeld fan1 && decide (fanTarget u 3 (fanTakes it fan1) = 0)) = true ∧
    fanTurn [1, 20000] fan1 (granted_ (.fan 3) 500000 run0) (fun it u => decide
      (fanClaim u 3 (fanTakes it fan1) (fanTarget u 3 (fanTakes it fan1)) ≤ grantMw u (.fan 3)) &&
      !fanIsShed u (fanTakes it fan1)) = true ∧
    fanTurn [1, 20000] fan1 (granted_ (.fan 3) 500000 (modBud (fun b => { b with shedForce := 0xF }) run0)) (fun it u =>
      decide (fanTarget u 3 (fanTakes it fan1) ≠ 0) && fanIsShed u (fanTakes it fan1)) = true ∧
    fanTurn [0, 13000] fan1 run0 (fun it u => decide (fanTarget u 3 (fanTakes it fan1) ≠ 0) &&
      decide (grantMw u (.fan 3) < fanClaim u 3 (fanTakes it fan1) (fanTarget u 3 (fanTakes it fan1)))) = true := by
  decide +kernel
theorem witness_FansAreSetAndRun_run :
    let r := { fan1 with state := .run }
    let s := withFan 3 r run0
    s.fans[(3 : Fin 4)] = some r ∧ fanMoves r = true ∧ r.state ≠ .blind ∧ r.held = false ∧ r.runSpeed = false ∧ enabledBands r = [] ∧
    s.pwr.burrowing = false ∧ fanTach r = true ∧ ({ r with state := .blind } : Fan).state = .blind ∧ isPresent s 149 1 = false ∧
    isPresent s 149 3 = false ∧
    isPresent (fault 149 1 0 s) 149 1 = true ∧ 4 * expectedTach r ≤ 2400000 ∧
    (let o := { r with out := 1 }
     (withFan 3 o run0).fans[(3 : Fin 4)] = some o ∧ 20 * fanSeen s 3 0 < o.out ∧ o.out + 10000 < 10 * fanSeen s 3 1001) ∧
    (let l := { r with held := true }
     (withFan 3 l run0).fans[(3 : Fin 4)] = some l ∧ l.held = true ∧ l.state = .run) ∧
    (let u := { fan1 with state := .spinup }
     (withFan 3 u run0).fans[(3 : Fin 4)] = some u ∧ u.state = .spinup) ∧
    (let x := { r with runSpeed := true, item := some 7 }
     let it := { item 0x28 (hnd 4 3) [1, 3000] with phase := .working }
     let t := sit it (withFan 3 x { run0 with den := { run0.den with time := 30000000 } })
     30000000 ≤ sinceT (now t) it.began ∧ t.fans[(3 : Fin 4)] = some x ∧ x.runSpeed = true ∧ x.item = some 7 ∧ findItem t 7 = some it ∧ it.phase = .working) := by
  decide +kernel

/-! #### Measurement, comparators -/

def seq1 (w8 w10 : Word) : Seq := seqOf w8 0 w10 [0, 1]
def seqTurn (op : Nat) (ops : List Word) (x : Seq) (s : State) (k : Item → State → Bool) : Bool :=
  let t := withSeq 7 x s
  turn op (hnd 5 7) ops t (fun it u => decide (hSlot it.handle = (7 : Fin 8).val) && (u.adc.seqs[(7 : Fin 8)]).isSome && k it u)
def withConv (c : Fin 2) (f : Conv → Conv) (s : State) : State := { s with adc := { s.adc with convs := upd s.adc.convs c f } }
theorem witness_AdcConverts_items :
    let x := seq1 0 0
    let r := { x with running := true }
    let cut : Cut := { seq := 7, entry := 0, item := none }
    seqTurn 0x30 [] r run0 (fun _ _ => true) = true ∧ seqTurn 0x30 [] x run0 (fun _ _ => seqTrig x.w8 = 0) = true ∧
    seqTurn 0x30 [] (seq1 0xC 0) run0 (fun _ _ => seqTrig (seq1 0xC 0).w8 = 3) = true ∧
    seqTurn 0x31 [] x run0 (fun _ _ => true) = true ∧
    seqTurn 0x31 [] { r with inPass := true } run0 (fun _ _ => true) = true ∧
    seqTurn 0x31 [] r run0 (fun _ _ => !r.inPass && !r.waiting && r.item.isNone) = true ∧
    seqTurn 0x32 [2] x run0 (fun it _ => decide (x.entries.length ≤ fld (opv it 4) 4 0)) = true ∧
    seqTurn 0x32 [1] x run0 (fun it u => decide (fld (opv it 4) 4 0 < x.entries.length) &&
      !cutQueues u (seqConv x) && decide (u.adc.convs[seqConv x].pass = none)) = true ∧
    (let y := { seq1 2 0 with running := true, inPass := true }
     seqTurn 0x32 [1] x (withConv 0 (fun v => { v with pass := some 3 }) (withSeq 3 y run0)) (fun _ u =>
       decide (u.adc.convs[seqConv x].pass = some 3) && decide (u.adc.seqs[(3 : Fin 8)] = some y) && shielded y &&
         !cutQueues u (seqConv x)) = true) ∧
    seqTurn 0x32 [1] x (withConv 0 (fun v => { v with cut := some cut, queue := List.replicate 4 cut }) run0) (fun _ u =>
      cutQueues u (seqConv x) && decide (4 ≤ u.adc.convs[seqConv x].queue.length)) = true := by
  decide +kernel
theorem witness_AdcConverts_run :
    let x := { seq1 0 0 with running := true }
    let p := { x with inPass := true }
    let s := withConv 0 (fun v => { v with pass := some 7 }) (withSeq 7 p run0)
    let l := withConv 0 (fun v => { v with pass := some 7 }) (withSeq 7 { p with entry := 1 } run0)
    let c := withConv 0 (fun v => { v with cut := some { seq := 7, entry := 1, item := some 7 } })
      (sit (item 0x32 (hnd 5 7) [1]) (withSeq 7 x run0))
    let e : CutEdge := { comp := .wm 63, active := true }
    let y := seq1 0 0x1813F
    let w := withConv 0 (fun v => { v with edges := [e] }) (withSeq 7 y run0)
    let o := withConv 0 (fun v => { v with edges := [{ e with comp := .wm 62 }] }) (withSeq 7 y run0)
    s.adc.seqs[(7 : Fin 8)] = some p ∧ p.running = true ∧ (takeTrigger s p).1 = true ∧ (takeTrigger s x).1 = true ∧
    (takeTrigger s { x with at_ := 1 }).1 = false ∧ calHolds c 0 = false ∧ p.inPass = true ∧ x.inPass = false ∧
    x.waiting = false ∧ s.adc.convs[(0 : Fin 2)].cut = none ∧ s.adc.convs[(0 : Fin 2)].pass = some 7 ∧
    p.entry + 1 < p.entries.length ∧ l.adc.seqs[(7 : Fin 8)] = some { p with entry := 1 } ∧ p.entries.length ≤ 1 + 1 ∧
    c.adc.convs[(0 : Fin 2)].cut = some { seq := 7, entry := 1, item := some 7 } ∧
    findItem c 7 = some (item 0x32 (hnd 5 7) [1]) ∧
    ((List.range 7).all fun q => (nth w.adc.seqs q none).isNone) = true ∧ cutQueues w 0 = false ∧
    w.adc.convs[(0 : Fin 2)].pass = none ∧ w.adc.convs[(0 : Fin 2)].edges = e :: [] ∧ cutAsks y 0 e = true ∧
    o.adc.convs[(0 : Fin 2)].edges = { e with comp := .wm 62 } :: [] ∧ cutAsks y 0 { e with comp := .wm 62 } = false ∧
    run0.adc.convs[(0 : Fin 2)].edges = [] := by decide +kernel
theorem witness_AdcConverts_streams :
    let s := setReg 0x065C 0x86000000 (withLink (fun l => { l with sts := upd l.sts 3 (fun r => { r with fresh := true }) })
      { run0 with den := { run0.den with time := 2550 }
                  adc := { run0.adc with streams := upd run0.adc.streams 3 (fun x => { x with pend := [(5, 0), (6, 9)] }) } })
    s.adc.streams[(3 : Fin 4)].pend = (5, 0) :: [(6, 9)] ∧ flushDue 3 s = true ∧ flushDue 3 run0 = false ∧ 4 ≤ s.link.cfg.mps ∧ ringRoom s (stOn s 3) (stSize s 3) s.link.sts[(3 : Fin 4)] = true ∧
    run0.adc.irqDue = false ∧
    ({ run0.adc with irqDue := true } : Adc).irqDue = true := by decide +kernel
theorem witness_ComparatorsFollow :
    let s := setReg (wmReg 63 4) 0x80004000 (setReg (wmReg 63 0) 0x400 run0)
    let h := { s with cmp := { s.cmp with wms := upd s.cmp.wms 63 (fun m => { m with owner := .host, blanked := true }) } }
    let e := setReg (wmReg 63 0) 0x10400 s
    let b := { run0 with cmp := { run0.cmp with fcs := upd run0.cmp.fcs 7 (fun f => { f with active := true })
                                                tampers := upd run0.cmp.tampers 7 (fun x => { x with gap := true, count := 1 }) } }
    wmRuns 63 s = true ∧ wmBlanked 63 s = false ∧ wmRuns 63 h = true ∧ rfld h (wmReg 63 0) 23 16 = 0 ∧
    windowStands h.cmp.wms[(63 : Fin 64)].blanked (reg h (wmReg 63 8)) = true ∧ wmRuns 63 e = true ∧ rfld e (wmReg 63 0) 23 16 ≠ 0 ∧
    s.cmp.wms[(63 : Fin 64)].owner = .free ∧ wmJudge s 63 0x3FFF = { below := true, above := false } ∧
    wmJudge s 63 0x4000 = { below := false, above := false } ∧ wmJudge s 63 0x8000 = { below := false, above := false } ∧
    wmJudge s 63 0x8001 = { below := false, above := true } ∧ h.cmp.wms[(63 : Fin 64)].owner = .host ∧
    (let r := onRail47 sensed
     r.cmp.wms[(63 : Fin 64)].owner = .rail 47 ∧ r.rails[(47 : Fin 48)] = some sensed ∧
       wmRuns 63 r = true ∧ wmBlanked 63 r = false ∧ sensed.state = .on ∧ sensed.members.any (fun n => r.lanes[n].slewHeld) = false ∧ r.pwr.burrowing = false ∧
       isPresent r (48 + 47) 1 = false ∧ isPresent r (48 + 47) 2 = false ∧ rbit r (wmReg 63 0) 10 = true ∧
       (wmJudge r 63 0xFFFF).above = true ∧ wmJudge r 63 0 = { below := true, above := false }) ∧
    (let f := setReg 0x7774 0x01900000 (setReg 0x7770 0 (setReg 0x76F4 0x01900000 (setReg 0x76F0 0 (setReg 0x7780 0x80 run0))))
     fcRuns 15 f = true ∧ fcBlanked 15 f = false ∧ fcRuns (tmpIndex 7) f = true ∧ f.pwr.burrowing = false ∧ fcBlanked (tmpIndex 7) f = false ∧
     (let g := { f with cmp := { f.cmp with fcs := upd f.cmp.fcs 15 (fun x => { x with blanked := true }) } }
      windowStands g.cmp.fcs[(15 : Fin 16)].blanked (reg g (0x7688 + 15 * 0x10)) = true ∧ fcRuns 15 g = true ∧
        rfld g (0x7680 + 15 * 0x10) 15 8 = 0) ∧ rbit f 0x7780 7 = true ∧ f.cmp.fcs[tmpIndex 7].active = false ∧
     fcActiveAt (fcMode f (tmpIndex 7)) (fcJudge f (tmpIndex 7) 1601) = true ∧
     fcActiveAt (fcMode f (tmpIndex 7)) (fcJudge f (tmpIndex 7) 1600) = false ∧ f.jnl.scanned = true ∧
     f.cmp.tampers[(7 : Fin 8)].gap = false ∧
     (let a := { f with cmp := { f.cmp with fcs := upd f.cmp.fcs 7 (fun x => { x with active := true }) } }
      a.cmp.fcs[tmpIndex 7].active = true ∧ fcActiveAt (fcMode a (tmpIndex 7)) (fcJudge a (tmpIndex 7) 0) = false)) ∧
    b.cmp.tampers[(7 : Fin 8)].gap = true ∧ b.cmp.tampers[(7 : Fin 8)].count ≠ 0 := by decide +kernel

/-! #### Temperature, calibration, two-wire -/

/-- Enabled, CHG_CAP at 45 °C, dwell of 2. -/
def rule1 : Rule := ruleOf (params [0x20280, 450])
theorem witness_TemperatureIsWatched :
    let t := fun (ops : List Word) => turn 0x50 (hnd 8 31) ops (withRule 31 rule1 run0)
    t [0, 0] (fun it u => !bit (opv it 4) 0 && (ruleFault u (ruleOf (fun w => opv it w))).isSome) = true ∧
    t [0, 0x280] (fun it u => (ruleFault u (ruleOf (fun w => opv it w))).isNone && (u.thm.rules[(31 : Fin 32)]).isSome) = true ∧
    t [1] (fun it _ => bit (opv it 4) 0) = true ∧ run0.den.up = true ∧
    pinFails 9999 = true ∧ pinFails 10000 = false ∧ pinFails 2000000 = false ∧ pinFails 2000001 = true ∧
    (let n := setReg (0x7820 + 4 * 7) 0x0F6E03E8 run0
     let w := reg n (0x7820 + 4 * 7)
     thermistorMk (fld w 15 0) (fld w 31 16) (txSeen n 1024000) = some 298150 ∧ pinFails (txSeen n 1024000) = false) ∧
    (let hot23 := (Vector.replicate 24 (1350 : Int)).set 23 1500
     dieTrips run0 (some 23) hot23 = true ∧ dieTrips run0 (some 22) hot23 = false ∧ dieTrips run0 none hot23 = false ∧
       dieTrips run0 none (Vector.replicate 24 1500) = true) ∧ (1249 : Int) < 1250 ∧ isPresent (hotState run0) 156 4 = false ∧
    ruleEn rule1 = true ∧ rule1.state ≠ .active ∧ ruleMet rule1 450 = true ∧ ruleMet rule1 449 = false ∧
    ruleDwell rule1 = 2 ∧ rule1.dwell + 1 < ruleDwell rule1 ∧ ruleDwell rule1 ≤ ({ rule1 with dwell := 1 } : Rule).dwell + 1 ∧
    run0.pwr.burrowing = false ∧ hot run0 = false ∧ hot (hotState run0) = true := by decide +kernel
/-- The words of a calibration image of zeros, for this die. -/
def calZero (c : Word) : List Word :=
  [0x4E434131, 1, loW serialNumber, hiW serialNumber, 0, 0, 0, c] ++ List.replicate 512 0
theorem witness_CalibrationItemsAnswer_restore :
    let ws := calZero (crc32 (calZero 0))
    ws.take 520 = ws ∧ ws.getD 0 0 = 0x4E434131 ∧ ws.getD 1 0 = 1 ∧ ws.length = 520 ∧
    ws.getD 7 0 = crc32 (ws.set 7 0) ∧ dword (ws.getD 2 0) (ws.getD 3 0) = serialNumber := by
  have l : ∀ c, (calZero c).length = 520 := fun c => by
    unfold calZero
    rw [List.length_append, List.length_replicate]
    rfl
  refine ⟨List.take_of_length_le (l _).le, rfl, rfl, l _, ?_, words_of_dword _⟩
  exact congrArg crc32 rfl
theorem witness_CalibrationItemsAnswer_run :
    let t := fun (ops : List Word) => turn 0x5A 0 ops run0
    t [0x00AA0000] (fun it _ => decide (169 < fld (opv it 4) 24 16)) = true ∧
    t [0x00000001] (fun it _ => decide (fld (opv it 4) 24 16 < fld (opv it 4) 8 0)) = true ∧
    t [0x00A90000, 1, 999] (fun it _ => bit (opv it 5) 0 && decide (fld (opv it 6) 12 0 < 1000)) = true ∧
    t [0x00A90000, 1, 4097] (fun it _ => bit (opv it 5) 0 && decide (4096 < fld (opv it 6) 12 0)) = true ∧
    t [0x00A90000, 0] (fun it _ => !bit (opv it 5) 0) = true ∧
    t [0x00A900A9, 1, 4096] (fun it u => bit (opv it 5) 0 && decide (1000 ≤ fld (opv it 6) 12 0) &&
      decide (fld (opv it 6) 12 0 ≤ 4096) && !u.pwr.burrowing) = true ∧
    refMismatch 4096 4218881 = true ∧ refMismatch 4096 4218880 = false ∧ refShifts 4096000 4098049 = true ∧
    refShifts 4096000 4098048 = false ∧
    (let w : CalWord := { zeros := [1], seen := 1000000, ref := 4098049 }
     let r := fun (l : List CalWord) => (l.foldl (fun t c => calOne true c t) (setRun ⟨7, [48, 169], 0, 0, 4096000, false⟩ run0)).cal.run
     let ok := { w with ref := 4098048 }
     r [ok] = some ⟨7, [169], 1, 0, 4096000, false⟩ ∧ r [ok, w] = some ⟨7, [169], 1, 0, 4096000, true⟩ ∧
     r [ok, ok] = some ⟨7, [], 2, 0, 4096000, false⟩ ∧
     (setRun ⟨7, [48, 169], 0, 0, 4096000, false⟩ run0).cal.run = some ⟨7, [48, 169], 0, 0, 4096000, false⟩) := by
  decide +kernel
theorem witness_CalibrationItemsAnswer_images :
    let t := fun (ops : List Word) => turn 0x58 0 ops run0
    t [0x40, 0, 2079] (fun it _ => calBuffer it) = true ∧
    t [0x40, 0, 2080, 0] (fun it u => !calBuffer it && !u.cal.trimmed && !bit (opv it 7) 0) = true ∧
    t [0x40, 0, 2080, 1] (fun it u => !calBuffer it && bit (opv it 7) 0 && dmaOk u) = true ∧
    turn 0x59 0 [0x40, 0, 2080] run0 (fun it u => !calBuffer it && dmaOk u) = true := by decide +kernel
def twb1 : State := withPort 3 (fun x => { x with bus := .free }) (setReg (twbReg 3 0) 0x19 run0)
/-- Port 3 has chosen `it`, which has not begun. -/
def chosen (op : PortOp) (it : Item) (s : State) : State := withPort 3 (fun x => { x with op := op, item := some 7 }) (sit it s)
/-- A transfer on port 3 by its address, not by a handle. -/
def xferIt (ops : List Word) : Item := item 0x38 0 ops
def xfers (ops : List Word) (s : State) (k : Item → State → Bool) : Bool :=
  let it := xferIt ops
  let t := chosen .xfer it s
  works 0x38 it t (fun u => itsTurn t 7 && decide (portOf it = 3) && k it u)
theorem witness_TwoWireTransfersRun_items :
    (let b := withPort 3 (fun x => { x with bus := .busy }) twb1
     let g := withPort 3 (fun x => { x with op := .xfer, item := some 7, attempts := 1, again := true }) (sit (xferIt [0x803, 1]) twb1)
     let r := setReg (twbReg 3 4) 1 (withPort 3 (fun x => { x with due := some 0 }) twb1)
     b.den.up = true ∧ underWay b.twb.ports[(3 : Fin 4)] = false ∧ (portSees 3 .start false b).twb.ports[(3 : Fin 4)].bus ≠ .free ∧
     portSees 3 .stop true b = portSees 3 .stop true twb1 ∧ mayRun (portSees 3 .stop true b) 3 = true ∧
     mayRun (portSees 3 .stop false run0) 3 = false ∧ (portSees 3 .stop false run0).twb.ports[(3 : Fin 4)].again = false ∧
     underWay g.twb.ports[(3 : Fin 4)] = false ∧ (portSees 3 (.high 50) false g).twb.ports[(3 : Fin 4)].bus = .free ∧
     (portSees 3 (.high 50) false g).twb.ports[(3 : Fin 4)].again = true ∧
     findItem (portSees 3 (.high 50) false g) 7 = some (xferIt [0x803, 1]) ∧ mayRun r 3 = true ∧ nextOp r 3 = .round ∧
     nextOp twb1 3 = .none) ∧
    mayRun twb1 3 = true ∧
    nextOp (withPort 3 (fun x => { x with needRecovery := true }) twb1) 3 = .recover ∧
    nextOp (withPort 3 (fun x => { x with alertLow := true }) twb1) 3 = .sweep ∧
    nextOp (sit (xferIt [0x803, 1]) twb1) 3 = .item 7 ∧
    xfers [0x803, 0] twb1 (fun it _ => xBad it) = true ∧ xfers [0x703, 1] twb1 (fun it _ => xBad it) = true ∧
    xfers [0x803, 33] twb1 (fun it _ => xBad it) = true ∧
    xfers [0x7703, 32] run0 (fun it u => !xBad it && portOff u 3) = true ∧
    xfers [0x47703, 257] twb1 (fun it _ => xBad it) = true ∧
    xfers [0x47703, 256, 2] twb1 (fun it u => !xBad it && !portOff u 3 && xBuffer it) = true ∧
    xfers [0x47703, 256, 4, 0, 256] twb1 (fun it u => !xBad it && !portOff u 3 && !xBuffer it && dmaOk u) = true ∧
    xfers [0x803, 0x80000] twb1 (fun it u => !xBad it && !portOff u 3 && !xBuffer it && !xBuf it) = true := by decide +kernel
theorem witness_TwoWireTransfersRun_census :
    let t := fun (ops : List Word) (s : State) (k : State → Bool) =>
      let it := item 0x39 0 ops
      let v := chosen .census it s
      works 0x39 it v (fun u => itsTurn v 7 && decide (portOf it = 3) && v.twb.ports[(3 : Fin 4)].census.isNone && k u)
    let c := roundOf 7 (item 0x39 0 [3, 0x0C0B])
    t [3, 0x0809] twb1 (fun _ => true) = true ∧ t [3, 0x7707] twb1 (fun _ => true) = true ∧
    t [3, 0x7808] twb1 (fun _ => true) = true ∧ t [3, 0] run0 (fun u => portOff u 3) = true ∧
    t [3, 0x7708] twb1 (fun u => !portOff u 3) = true ∧ probeAddrs c.first c.last = [0x0B] ∧
    (let v := withPort 3 (fun x => { x with census := some c }) (chosen .census (item 0x39 0 [3, 0x0C0B]) twb1)
     findItem v 7 = some (item 0x39 0 [3, 0x0C0B]) ∧ itsTurn v 7 = true ∧ v.twb.ports[(3 : Fin 4)].census = some c ∧
     c.item = some 7) := by decide +kernel
/-- Port 3 has the transfer `it` under way. -/
def moves (it : Item) : State := withPort 3 (fun x => { x with op := .xfer, item := some 7, attempts := 1 }) (sit it twb1)
def movesOk (it : Item) (s : State) : Bool :=
  underWay s.twb.ports[(3 : Fin 4)] && decide (s.twb.ports[(3 : Fin 4)].item = some 7) && decide (findItem s 7 = some it)
theorem witness_TwoWireTransfersRun_ends :
    let it := xferIt [0x803, 0x10001]
    let b := xferIt [0x140803, 0x10000, 4, 0, 1]
    let k := xferIt [0x810803, 0x20000]
    let s := moves it
    movesOk it s = true ∧ movesOk b (moves b) = true ∧ movesOk k (moves k) = true ∧
    endFits s it (.done [0]) = true ∧ endFits (moves b) b (.done [0]) = true ∧ endFits (moves k) k (.done [1, 0xAA, 0]) = true ∧
    endFits (moves k) k (.done [2, 0xAA]) = true ∧ endFits s it (.addrNack (some 1)) = true ∧ endFits s it (.dataNack 0) = true ∧
    endFits s it (.arbLost 1 true) = true ∧ endFits s it (.arbLost 0 false) = true ∧ endFits s it (.arbLostCtrl 1) = true ∧
    1 ≤ xWrites s it ∧ xTaken b [0] ≠ [] ∧
    (let n := { moves b with link := { (moves b).link with bme := false } }
     movesOk b n = true ∧ endFits n b (.done [0]) = true ∧ dmaOk n = false) ∧
    (let r := xferIt [0x120803, 0x10001]
     bit (opv r 4) 17 = true ∧ (moves r).twb.ports[(3 : Fin 4)].retries < fld (opv r 4) 21 20 ∧ movesOk r (moves r) = true) ∧
    xBuf it = false ∧ xBuf b = true ∧ dmaOk (moves b) = true ∧ s.twb.ports[(3 : Fin 4)].needRecovery = false ∧
    fld (opv it 4) 21 20 = 0 ∧ fld (opv b 4) 21 20 = 1 ∧
    s.twb.ports[(3 : Fin 4)].arbLosses < 3 ∧
    (3 ≤ (withPort 3 (fun x => { x with arbLosses := 3 }) s).twb.ports[(3 : Fin 4)].arbLosses) ∧
    bit (opv it 4) 17 = false ∧ rbit s (twbReg 3 0) 3 = true ∧ blockTooLong it [0] = false ∧ pecWrong s 3 it [0] = false ∧
    blockTooLong k [1, 0xAA, 0] = false ∧ blockTooLong k [2, 0xAA] = true ∧
    pecWrong (moves k) 3 k [1, 0xAA, pec [0x11, 1, 0xAA]] = false ∧
    pecWrong (moves k) 3 k [1, 0xAA, pec [0x11, 1, 0xAA] + 1] = true := by decide +kernel
theorem witness_TwoWirePortsRecover :
    let x := withPort 3 (fun x => { x with stuckSda := true, item := some 7 }) (sit (xferIt [0x803, 1]) twb1)
    let w := setReg (twbReg 3 4) 1 twb1
    mayRecover twb1 3 = true ∧ mayRecover (fault 167 1 0x12 (withPort 3 (fun x => { x with stuckSda := true }) twb1)) 3 = true ∧
    twb1.twb.ports[(3 : Fin 4)].op = .idle ∧ twb1.pwr.burrowing = false ∧
    (∀ d, d < 4 → isPresent twb1 (164 + 3) d = false) ∧ stuck x 3 = true ∧
    x.twb.ports[(3 : Fin 4)].item.or (readyOn x 3) = some 7 ∧ censusItem x 3 ≠ some 7 ∧
    findItem x 7 = some (xferIt [0x803, 1]) ∧
    (let c := withPort 3 (fun x => { x with stuckSda := true, census := some (roundOf 7 (item 0x39 0 [3, 0])) })
       (sit (item 0x39 0 [3, 0]) twb1)
     stuck c 3 = true ∧ c.twb.ports[(3 : Fin 4)].item.or (readyOn c 3) = some 7 ∧ censusItem c 3 = some 7) ∧
    mayOperate twb1 3 = true ∧ mayWatch twb1 3 = true ∧
    (withPort 3 (fun x => { x with op := .sweep, rounds := 15 }) twb1).twb.ports[(3 : Fin 4)].op = .sweep ∧
    twb1.twb.ports[(3 : Fin 4)].needRecovery = false ∧ sweepYields twb1 3 = false ∧
    (roundsRun 16 (List.replicate 16 (.read 0x18 0))).length = 16 ∧ (roundsRun 1 [.nack]).contains .nack = true ∧
    (roundsRun 16 (List.replicate 15 (.read 0x18 0))).length < 16 ∧
    (withPort 3 (fun x => { x with alertHold := true }) twb1).twb.ports[(3 : Fin 4)].alertHold = true ∧
    inHush (quiet twb1) = true ∧ inHush twb1 = false ∧
    (let r := withPort 3 (fun x => { x with op := .census, due := some 0 }) w
     roundChosen r 3 = true) ∧
    w.pwr.pstate = .full ∧ rfld w (twbReg 3 4) 15 0 ≠ 0 ∧ roundChosen w 3 = false ∧ portOff w 3 = false ∧
    outputsReset w = false ∧ w.twb.ports[(3 : Fin 4)].due = none := by decide +kernel

/-! #### The service port, faults -/

def port1 : State :=
  setReg 0x9000 1 { run0 with usb := { run0.usb with vbus := true, attached := true, configured := true } }
theorem witness_ServiceGrantAnswers :
    let g : SvcGrant := { cls := .ring, ends := 0, opmask := 0, from_ := 0 }
    turn 0x78 0 [3] port1 (fun it _ => decide (fld (opv it 4) 1 0 = 3)) = true ∧
    turn 0x78 0 [0] (setReg 0x9000 0 run0) (fun it u => decide (fld (opv it 4) 1 0 = 0) && !rbit u 0x9000 0) = true ∧
    turn 0x78 0 [0] port1 (fun it u => decide (fld (opv it 4) 1 0 = 0) && rbit u 0x9000 0) = true ∧
    turn 0x78 0 [1, 1] port1 (fun it u => decide (1 ≤ fld (opv it 5) 15 0) && rbit u 0x9000 0) = true ∧
    turn 0x78 0 [2, 28800] port1 (fun it u => decide (fld (opv it 5) 15 0 ≤ 28800) && rbit u 0x9000 0) = true ∧
    (let s := { port1 with usb := { port1.usb with grant := some g, sending := [heldComp] } }
     s.usb.grant = some g ∧ laterT g.ends (now s) = false ∧ s.usb.sending = heldComp :: [] ∧ s.jnl.owed = [] ∧
     (∀ k : Fin 64, s.eng.armed[k] = none) ∧
     (withPwr (fun p => { p with iface := .granted }) s).pwr.iface = .granted) := by decide +kernel
theorem witness_PortLivesOnItsBus :
    port1.den.up = true ∧ inReset port1 = false ∧ rbit port1 0x9000 0 = true ∧ isolated port1 176 = false ∧ isPresent port1 176 1 = false ∧
    port1.usb.attached = true ∧ port1.pwr.burrowing = false ∧ port1.usb.vbus = true ∧ port1.usb.configured = true ∧
    { port1.usb with configured := false }.configured = false ∧ (0x82 ∈ bulkEps ∧ 0x01 ∈ bulkEps) ∧
    (4000 < 4001 ∧ 4000 ≤ 4000 ∧ 5500 < 5501 ∧ 1000 < 1001) := by decide +kernel
theorem witness_PortAnswersAndTakesDescriptors :
    let g : SvcGrant := { cls := .ring, ends := 100, opmask := 0, from_ := 0 }
    let r := { port1 with usb := { port1.usb with grant := some g } }
    portWorks port1 = true ∧ port1.usb.halted.contains 0x01 = false ∧ port1.usb.reply = none ∧
    port1.usb.halted.contains 0x81 = false ∧ portWorks r = true ∧ r.usb.halted.contains 0x02 = false ∧
    r.usb.grant = some g ∧ g.cls = .ring ∧ dead r = false ∧ serviceOpen r < 8 ∧ journalAllows r = true := by decide +kernel
theorem witness_PortReadsAndWrites :
    let gr := { port1 with usb := { port1.usb with grant := some { cls := .setup, ends := 100, opmask := 0, from_ := 0 } } }
    let rp := withPwr (fun p => { p with stage := .heldImage, bootHold := .imageBad }) { port1 with pwr := { port1.pwr with iface := .setup } }
    portTakes port1 = true ∧ (1 ≤ (256 : Word).toNat ∧ (256 : Word).toNat ≤ 256) ∧
    (0x9400 : Word).toNat % 4 = 0 ∧ (0x9400 : Word).toNat + 4 * (256 : Word).toNat ≤ 0x9800 ∧
    (0x97FC : Word).toNat + 4 * (1 : Word).toNat ≤ 0x9800 ∧ portMayWrite port1 = false ∧ setupGrant gr = true ∧
    portTakes rp = true ∧ setupGrant rp = false ∧ inRepair rp = true ∧ (wordsAt 0x0844 [1, 2]).all (fun e => repairReg e.1) = true ∧
    (wordsAt 0x5408 [1]).any (fun e => portLocked e.1) = false ∧ (wordsAt 0x03FC [1, 2]).any (fun e => portLocked e.1) = true ∧
    (0x9401 : Word).toNat % 4 ≠ 0 ∧ (0x97FC : Word).toNat ≤ 0x97FC ∧ (256 < (257 : Word).toNat ∧ (0 : Word).toNat = 0) ∧
    fld (0x100 : Word) 1 0 = 0 ∧ fld (1 : Word) 1 0 = 1 ∧ fld (2 : Word) 1 0 = 2 ∧ fld (3 : Word) 1 0 = 3 ∧
    (64 : Word).toNat ≤ 64 ∧ bit (0x100 : Word) 8 = true ∧ bankIn port1 1 = true ∧
    bankIn (withJnl (fun j => { j with bankB := { j.bankB with inService := false } }) port1) 1 = false := by decide +kernel
theorem witness_FaultItemsAnswer_clear :
    let t := fun (n : Word) (s : State) (k : State → Bool) =>
      turn 0x68 0 [n] s (fun it u => decide (fld (opv it 4) 7 0 = n.toNat) && k u)
    t 185 (faultPast 185 1 0 run0) (fun u => faulted u 185 && !anyPresent (clearEnds 185 u) 185) = true ∧
    t 154 (fault 154 3 0 run0) (fun u => faulted u 154 && anyPresent u 154 && !anyPresent (clearEnds 154 u) 154) = true ∧
    t 0 run0 (fun u => !faulted u 0) = true ∧
    t 0 (fault 0 1 0 run0) (fun u => faulted u 0 && anyPresent (clearEnds 0 u) 0) = true ∧ t 191 run0 (fun _ => true) = true := by
  decide +kernel
theorem witness_FaultItemsAnswer_react :
    turn 0x69 0 [0xB900, 0x00] run0 (fun it _ => decide (fld (opv it 4) 7 0 ≤ fld (opv it 4) 15 8) &&
      decide (fld (opv it 4) 15 8 ≤ 185)) = true ∧
    turn 0x69 0 [0x9500, 0x36] run0 (fun it _ => (sourcesFrom (fld (opv it 4) 7 0) (fld (opv it 4) 15 8)).all (fun m =>
      offersIsolate m.val && offersHold m.val) && decide (fld (opv it 5) 6 5 ≠ 0) && bit (opv it 5) 2) = true ∧
    setupWrites setup0 = true ∧ faulted setup0 191 = false ∧ setupWrites run0 = false ∧
    countsLocked run0 (0x0C00 + 4 * 0) { accRO with rws := 0x7F } 1 = true ∧ outsideCause 176 1 = true ∧
    isPresent (fault 176 1 0 run0) 176 1 = true ∧ alertUnseen run0 176 = false ∧ stillChatters run0 176 = false ∧
    (let e := fault 171 3 0 (withClk (fun c => { c with xPresent := true }) run0)
     outsideCause 171 3 = true ∧ isPresent e 171 3 = true ∧ e.clk.xPresent = true ∧ e.pwr.burrowing = false) := by decide +kernel

end Sys2Proof.Tests
end

/-! PROOFS. Power states, start, grants and faults: the statements on spec/03 and what of spec/19 and spec/21 goes with them. -/

namespace Sys2Proof.Machine

/-! ### Fields of a word -/

theorem testBit_fld (w : Word) (hi lo i : Nat) :
    (fld w hi lo).testBit i = (decide (i < hi + 1 - lo) && w.getLsbD (lo + i)) := by
  unfold fld
  rw [Nat.testBit_mod_two_pow, Nat.testBit_div_two_pow, Nat.add_comm i lo]
  rfl

theorem fld_or (v w : Word) (hi lo : Nat) : fld (v ||| w) hi lo = fld v hi lo ||| fld w hi lo := by
  apply Nat.eq_of_testBit_eq
  intro i
  simp only [testBit_fld, Nat.testBit_or, BitVec.getLsbD_or, Bool.and_or_distrib_left]

theorem getLsbD_at (lo v i : Nat) : (at_ lo v).getLsbD i = (decide (i < 32) && (decide (lo ≤ i) && v.testBit (i - lo))) := by
  unfold at_
  rw [BitVec.getLsbD_ofNat, Nat.testBit_mul_two_pow]

theorem fld_at_above {hi k : Nat} (h : hi < k) (lo v : Nat) : fld (at_ k v) hi lo = 0 := by
  apply Nat.eq_of_testBit_eq
  intro i
  rw [testBit_fld, getLsbD_at, Nat.zero_testBit]
  by_cases hi' : i < hi + 1 - lo
  · simp [show ¬ k ≤ lo + i by omega]
  · simp [hi']

theorem fld_at_below {k lo v n : Nat} (h : v < 2 ^ n) (hn : k + n ≤ lo) (hi : Nat) : fld (at_ k v) hi lo = 0 := by
  apply Nat.eq_of_testBit_eq
  intro i
  have hb : v.testBit (lo + i - k) = false :=
    Nat.testBit_lt_two_pow (h.trans_le (Nat.pow_le_pow_right (by omega) (by omega)))
  rw [testBit_fld, getLsbD_at, hb]
  simp

theorem fld_at_same {lo hi v : Nat} (h : v < 2 ^ (hi + 1 - lo)) (hh : hi < 32) : fld (at_ lo v) hi lo = v := by
  apply Nat.eq_of_testBit_eq
  intro i
  rw [testBit_fld, getLsbD_at]
  by_cases hi' : i < hi + 1 - lo
  · simp [hi', show lo + i < 32 by omega]
  · have : v.testBit i = false := Nat.testBit_lt_two_pow (h.trans_le (Nat.pow_le_pow_right (by omega) (by omega)))
    simp [hi', this]

theorem fin?_val {n : Nat} (k : Fin n) : fin? n k.val = some k := dif_pos k.isLt

/-! ### Shared operations -/

@[simp] theorem event_pwr (code : BitVec 16) (h : Word) (i d : Nat) (v : DWord) (s : State) :
    (event code h i d v s).pwr = s.pwr :=
  (event_within (L := 0x4a083) code h i d v (Within.refl _ s) (Sub.of rfl)).keeps .pwr rfl

/-! ### Final verdicts of an item at work -/

/-- A verdict that the item gets in the state in which its work begins. -/
theorem Works.answered {op : Nat} {a : Word} {it : Item} {s u : State} (h : Works op a it s u) (v : Verdict) (d : Nat)
    (r : DWord) : Answered it v d r (complete a v d r u) := h.answers h.item rfl v d r

/-- A verdict that the item gets behind its START. -/
theorem Works.startedAnswered {op : Nat} {a : Word} {it : Item} {s u : State} (h : Works op a it s u) (v : Verdict) (d : Nat)
    (r : DWord) : Answered it v d r (complete a v d r (commitStart it u)) := by
  obtain ⟨kt, hk, hr, -, -⟩ := commitStart_findItem h.item (findItem_aseq h.1.1)
  exact h.answers hk hr v d r

theorem Works.finishes {op : Nat} {a : Word} {it : Item} {s u : State} {c : Instr} (h : Works op a it s u) {v : Verdict} {d : Nat}
    {r : DWord} (e : exec c s = .next (complete a v d r u)) : Finishes c s it v d r u := by
  refine ⟨_, e, ?_, h.answered v d r⟩
  rw [findItem_aseq h.1.1]

/-! ### The reset state (R36) -/

/-- BUD_ACIN_PLIM before the first start: 50,000 mW, as the register table of spec/10 gives it. -/
theorem readReg_reset_acinPlim : readReg State.reset 0x5008 = 50000 := rfl

/-- Refutes O5: the statement asks 0 of BUD_ACIN_PLIM, which reads 50,000 (and 0x00141E01 of THM_CFG, which reads
0x0008180A); both are the reset values that the register tables of spec/10 and spec/16 give. -/
theorem not_resetHolds : ¬ Obligations.ResetHolds := by
  unfold Obligations.ResetHolds
  rintro ⟨-, -, -, -, -, -, -, -, hp, -⟩
  rw [readReg_reset_acinPlim] at hp
  exact absurd hp (by decide)

/-! ### Straps (R20 to R22) -/

theorem strapCode_lt (l : StrapLevel) : strapCode l < 2 ^ 2 := by cases l <;> decide
theorem strapOf3_lt (l : StrapLevel) : strapOf3 l < 2 ^ 2 := by cases l <;> decide
theorem strapExit_lt (l : StrapLevel) : strapExit l < 2 ^ 2 := by cases l <;> decide

/-- STRAP3 is field [13:12] of GLB_STRAP (R22). -/
theorem fld_strapWord (w : StartWorld) : fld (strapWord w) 13 12 = strapOf3 w.strap3 := by
  unfold strapWord flag
  simp only [fld_or, fld_at_below (strapOf3_lt _) (show 0 + 2 ≤ 12 by decide),
    fld_at_below (strapExit_lt _) (show 4 + 2 ≤ 12 by decide), fld_at_below (strapCode_lt _) (show 8 + 2 ≤ 12 by decide),
    fld_at_same (lo := 12) (hi := 13) (strapOf3_lt w.strap3) (by decide), fld_at_above (show 13 < 16 by decide),
    fld_at_above (show 13 < 24 by decide), fld_at_above (show 13 < 26 by decide), fld_at_above (show 13 < 28 by decide),
    fld_at_above (show 13 < 30 by decide), Nat.or_zero, Nat.zero_or]

/-! ### What VDEN's rise leaves (R31 steps 1 to 4) -/

@[simp] theorem owlApply_pwr (o : Fin 2) (s : State) : (owlApply o s).pwr = s.pwr :=
  (owlApply_within (L := 0x40000000000) o (Within.refl _ s) (Sub.of rfl)).keeps .pwr rfl
@[simp] theorem owlApply_den (o : Fin 2) (s : State) : (owlApply o s).den = s.den :=
  (owlApply_within (L := 0x40000000000) o (Within.refl _ s) (Sub.of rfl)).keeps .den rfl
@[simp] theorem owlApply_chg (o : Fin 2) (s : State) : (owlApply o s).chg = s.chg :=
  (owlApply_within (L := 0x40000000000) o (Within.refl _ s) (Sub.of rfl)).keeps .chg rfl

section
variable (why : Word) (w : StartWorld) (s : State)

@[simp] theorem wake_den : (wake why w s).den = { Den.reset with up := true } := by
  unfold wake
  simp only [owlApply_den]
  rfl
@[simp] theorem wake_strap : (wake why w s).pwr.strap = strapWord w := by
  unfold wake
  simp only [owlApply_pwr]
  rfl
@[simp] theorem wake_acinValid : (wake why w s).pwr.acinValid = w.acinValid := by
  unfold wake
  simp only [owlApply_pwr]
  rfl
@[simp] theorem wake_burrowing : (wake why w s).pwr.burrowing = false := by
  unfold wake
  simp only [owlApply_pwr]
  rfl
@[simp] theorem wake_batsw : (wake why w s).pwr.batsw = false := by
  unfold wake
  simp only [owlApply_pwr]
  rfl
@[simp] theorem wake_batsns : (wake why w s).chg.batsns = w.batsns := by
  unfold wake
  simp only [owlApply_chg]
  rfl

@[simp] theorem wake_battless : battless (wake why w s) = decide (w.strap3 = .k47) := by
  unfold battless
  rw [wake_strap, fld_strapWord]
  cases w.strap3 <;> rfl

@[simp] theorem chargerStartup_pwr : (chargerStartup s).pwr = s.pwr :=
  (chargerStartup_within (L := 0xfa004a083) (Within.refl _ s) (Sub.of rfl)).keeps .pwr rfl
@[simp] theorem chargerStartup_den : (chargerStartup s).den = s.den :=
  (chargerStartup_within (L := 0xfa004a083) (Within.refl _ s) (Sub.of rfl)).keeps .den rfl

@[simp] theorem hold_den (h : BootHold) (st : Stage) : (hold h st s).den = s.den := rfl
@[simp] theorem hold_pwr (h : BootHold) (st : Stage) : (hold h st s).pwr = { s.pwr with bootHold := h, stage := st } := rfl

/-! ### The battery check (R31 step 5, R33) -/

theorem le_lowMv_of_battery {s : State} (h : battless s = false) : 9000 ≤ lowMv s := by
  unfold lowMv
  rw [h]
  exact Nat.le_max_left ..

theorem lowMv_le : lowMv s ≤ 10000 := by
  unfold lowMv uvMv
  split
  · decide
  · split <;> decide

theorem battTooLow_of_acin {s : State} (h : s.pwr.acinValid = true) : battTooLow s = false := by
  unfold battTooLow
  rw [h, Bool.not_true, Bool.and_false]

theorem battTooLow_of_volts {s : State} (h : lowMv s ≤ s.chg.batsns) : battTooLow s = false := by
  unfold battTooLow
  rw [decide_eq_false (Nat.not_lt.2 h), Bool.false_and]

variable {why w s}

theorem startUp_burrows (hl : battTooLow (wake why w s) = true) (hb : w.strap3 ≠ .k47) :
    startUp why w s = backToBurrow w s := by
  simp [startUp, hl, hb]

theorem startUp_holds (hl : battTooLow (wake why w s) = false)
    (hh : holdsOpen (battHold false (wake why w s)) (wake why w s) = true) :
    startUp why w s = hold (battHold false (wake why w s)) .heldBattery (chargerStartup (wake why w s)) := by
  simp [startUp, hl, hh]

theorem startUp_runs (hl : battTooLow (wake why w s) = false)
    (hh : holdsOpen (battHold false (wake why w s)) (wake why w s) = false) :
    startUp why w s = runStart w (chargerStartup (wake why w s)) := by
  simp [startUp, hl, hh]

theorem coldStart_starts (hd : s.den.up = false) (hb : s.pwr.latch.inBurrow = false) (hs : s.pwr.stage ≠ .shakeOff) :
    coldStart w s = startUp 0 w s := by
  simp [coldStart, hd, hb, hs]

theorem battHold_of_none {known : Bool} (hv : s.chg.batsns < 2000) (hb : battless s = false) :
    battHold known s = .noBattery := by
  simp [battHold, hv, hb]

/-- No battery, with ACIN: the start waits before BATSW closes (R33). -/
theorem coldStart_noBattery (hd : s.den.up = false) (hb : s.pwr.latch.inBurrow = false) (hs : s.pwr.stage ≠ .shakeOff)
    (hk : w.strap3 ≠ .k47) (hv : w.batsns < 2000) (ha : w.acinValid = true) :
    coldStart w s = hold .noBattery .heldBattery (chargerStartup (wake 0 w s)) := by
  have hh : battHold false (wake 0 w s) = .noBattery := battHold_of_none (by simpa using hv) (by simpa using hk)
  rw [coldStart_starts hd hb hs, startUp_holds (battTooLow_of_acin (by simpa using ha)) (by rw [hh]; rfl), hh]

/-- Too low a battery without ACIN: BURROW (R33; notes/assumptions/20.md). -/
theorem coldStart_burrows (hd : s.den.up = false) (hb : s.pwr.latch.inBurrow = false) (hs : s.pwr.stage ≠ .shakeOff)
    (hk : w.strap3 ≠ .k47) (hv : w.batsns < 9000) (ha : w.acinValid = false) : coldStart w s = backToBurrow w s := by
  have hl : battTooLow (wake 0 w s) = true := by
    have := le_lowMv_of_battery (s := wake 0 w s) (by simpa using hk)
    simp only [battTooLow, wake_batsns, wake_acinValid, ha, Bool.not_false, Bool.and_true, decide_eq_true_eq]
    omega
  rw [coldStart_starts hd hb hs, startUp_burrows hl hk]

/-- A hold of the battery that ends lets the start go on. -/
theorem bootHoldClear_runs (hd : s.den.up = true) (hs : s.pwr.stage = .heldBattery)
    (hl : battTooLow (sawBatsns w.batsns s) = false)
    (hh : holdsOpen (battHold false (sawBatsns w.batsns s)) (sawBatsns w.batsns s) = false) :
    bootHoldClear w s = runStart w (sawBatsns w.batsns s) := by
  simp [bootHoldClear, holdAgain, hd, hs, hl, hh]

theorem bootHoldClear_burrows (hd : s.den.up = true) (hs : s.pwr.stage = .heldBattery)
    (hl : battTooLow (sawBatsns w.batsns s) = true) (hb : battless (sawBatsns w.batsns s) = false) :
    bootHoldClear w s = toBurrow (sawBatsns w.batsns s) := by
  simp [bootHoldClear, holdAgain, hd, hs, hl, hb]

end

/-- Settles O10, by the branches of `startUp` and `holdAgain`: too low a battery, a hold before BATSW closes, none. -/
theorem batteryCheckDecides : Obligations.BatteryCheckDecides := by
  unfold Obligations.BatteryCheckDecides
  intro w s
  refine ⟨fun hd hb hs hk => ⟨fun hv ha => ⟨_, rfl, ?_⟩, fun hv ha => ⟨_, rfl, ?_⟩⟩, ?_⟩
  · rw [coldStart_noBattery hd hb hs hk hv ha]
    simp
  · rw [coldStart_burrows hd hb hs hk hv ha]
    exact ⟨rfl, rfl, rfl⟩
  · rintro hd hs t rfl
    exact ⟨fun hl hh => congrArg Host.Outcome.next (bootHoldClear_runs hd hs hl hh),
      fun hl hb => congrArg Host.Outcome.next (bootHoldClear_burrows hd hs hl hb)⟩

/-! ### The ends of supply (R30, R43 to R46) -/

section
variable {s : State}

theorem powerFail_falls (edges : BitVec 8) (hd : s.den.up = true) (ha : s.pwr.acinValid = false) :
    ∃ u, powerFail edges s = denFall u ∧ u.pwr.latch.denLoss = true := by
  unfold powerFail
  rw [hd, ha]
  exact ⟨_, rfl, rfl⟩

theorem shake_begins (hd : s.den.up = true) (hs : s.pwr.stage ≠ .shaking) :
    shake s = event 0x0103 0 0 0 0 (modPwr (fun p => { p with stage := .shaking }) s) := by
  simp [shake, hd, hs]

/-- A Shake's power-off: the Den domain has fallen, and the latch holds the off-time (R46 step 3). -/
theorem shakeOff_falls (hs : s.pwr.stage = .shaking) : ∃ u torn, shakeOff s =
    modPwr (fun p => { p with stage := .shakeOff, latch := { p.latch with shake := true, shakeTorn := torn } }) (denFall u) := by
  unfold shakeOff
  rw [hs]
  exact ⟨_, _, rfl⟩

section
variable {mv : Nat} (hd : s.den.up = true) (hb : battless s = false) (ha : s.pwr.acinValid = false)
  (hs : s.pwr.stage ≠ .shaking) (hv : mv < uvMv s)
include hd hb ha hs hv

omit hs in
theorem uvBurrow_falls (hq : s.pwr.burrowing = false) (hh : s.pwr.stage = .heldBattery) : uvBurrow mv s =
    denFall (modPwr (fun p => { p with latch := { p.latch with inBurrow := true, acinLost := true } })
      (modPwr (fun p => { p with latch := { p.latch with uv := true, gaugeZero := true } }) s)) := by
  simp [uvBurrow, hd, hb, ha, Nat.not_le.2 hv, hq, hh]

theorem uvBurrow_starts (hq : s.pwr.burrowing = false) (hh : s.pwr.stage ≠ .heldBattery) : uvBurrow mv s =
    burrowStart (modPwr (fun p => { p with latch := { p.latch with uv := true, gaugeZero := true } }) s) := by
  simp [uvBurrow, hd, hb, ha, hs, Nat.not_le.2 hv, hq, hh]

theorem uvBurrow_prevails (hq : s.pwr.burrowing = true) : uvBurrow mv s =
    modPwr (fun p => { p with latch := { p.latch with uv := true, gaugeZero := true } }) s := by
  simp [uvBurrow, hd, hb, ha, hs, Nat.not_le.2 hv, hq]

end
end

theorem burrowEnter_eq {a : Word} {it : Item} {s u : State} (h : Works 0x70 a it s u) : burrowEnter a s =
    if battless u || u.pwr.acinValid then complete a .refusedState 0 0 u
    else if (complete a .done 0 0 (commitStart it u)).pwr.burrowing then complete a .done 0 0 (commitStart it u)
    else settle (burrowStart (complete a .done 0 0 (commitStart it u))) := h.begins _

/-- Settles O11, by what each end of supply does in the states that the statement names (`powerFail_falls`, `shake_begins`,
`shakeOff_falls`, `uvBurrow_…`, `burrowEnter_eq`). -/
theorem supplyEnds : Obligations.SupplyEnds := by
  unfold Obligations.SupplyEnds
  refine ⟨fun e mv s hd => ⟨fun ha => ⟨_, rfl, ?_⟩, fun hs => ⟨_, rfl, ?_⟩, fun hs => ⟨_, rfl, ?_⟩,
    fun hb ha hs hv => ⟨fun hq hh => ⟨_, rfl, ?_⟩, fun hq hh => ?_, fun hq => ?_⟩⟩,
    fun a it s u h => ⟨fun hb ha => ⟨?_, fun hq => ?_⟩, fun hr => ?_⟩⟩
  · obtain ⟨u, e, hu⟩ := powerFail_falls e hd ha
    rw [e]
    exact ⟨rfl, rfl, hu, rfl⟩
  · rw [shake_begins hd hs]
    exact ⟨by simp [modPwr], rfl⟩
  · obtain ⟨u, torn, e⟩ := shakeOff_falls hs
    rw [e]
    exact ⟨rfl, rfl, rfl⟩
  · rw [uvBurrow_falls hd hb ha hv hq hh]
    exact ⟨rfl, rfl, rfl, rfl⟩
  · exact congrArg Host.Outcome.next (uvBurrow_starts hd hb ha hs hv hq hh)
  · exact congrArg Host.Outcome.next (uvBurrow_prevails hd hb ha hs hv hq)
  · exact h.startedAnswered .done 0 0
  · refine congrArg Host.Outcome.next ((burrowEnter_eq h).trans ?_)
    rw [hb, ha, hq]
    rfl
  · refine ⟨_, rfl, ?_⟩
    rw [burrowEnter_eq h, if_pos (by simpa using hr)]
    exact h.answered .refusedState 0 0

/-! ### The facts of the power state (R29, R42) -/

/-- An operation that leaves the part `inputs` leaves ACIN and the mains-present fact. -/
theorem Within.inputs {L : Nat} {s t : State} (h : Within L s t) (hp : L.testBit 46 = false) :
    t.pwr.acinValid = s.pwr.acinValid ∧ t.pwr.mains = s.pwr.mains := by
  have e : t.pwr.inputPart = s.pwr.inputPart := h.keeps .inputs hp
  exact ⟨congrArg Prod.fst e, congrArg Prod.snd e⟩

section
variable {s : State}

/-- What follows ACIN's edge leaves both facts. -/
theorem acinValid_within_edge {mv : Nat} (hd : s.den.up = true) (hl : 17500 ≤ mv) (hh : mv ≤ 37000) (ha : s.pwr.acinValid = false) :
    Within 0x3fffffffffff (acinEdge true s) (acinValid mv s) := by
  have h1 := prechargeAgain_within (L := 0x3fffffffffff) (Within.refl _ (acinEdge true s)) (Sub.of rfl)
  unfold acinValid
  simp only [hd, ha, Nat.not_lt.2 hl, Nat.not_lt.2 hh, Bool.not_true, Bool.false_or, decide_false, Bool.false_eq_true, if_false]
  split
  · refine chargerStartup_within (hold_within _ _ ?_ (Sub.of rfl)) (Sub.of rfl)
    exact modPwr_within _ (judge_within 0 h1 (Sub.of rfl)) (Sub.of rfl) (.inl fun _ => rfl) (.inl fun _ => rfl) (.inl fun _ => rfl)
      (.inl fun _ => rfl) (.inl fun _ => rfl)
  · exact chgUpdate_within (judge_within 0 h1 (Sub.of rfl)) (Sub.of rfl)

/-- ACIN has gone: its edge, before anything is judged. -/
def acinGone (s : State) : Nat × State :=
  drawNat (modPwr (fun p => { p with acgate := false }) (acinEdge false (modChg (fun c => { c with stopped := isolated s 151 }) s)))

theorem acinGone_inputs (s : State) :
    (acinGone s).2.pwr.acinValid = false ∧ (acinGone s).2.pwr.mains = s.pwr.mains ∧ (acinGone s).2.pwr.burrowing = s.pwr.burrowing :=
  ⟨rfl, rfl, rfl⟩

/-- Outside a start that waits before BATSW, R29 is judged behind the edge, and then the charger and the gauge. -/
theorem acinInvalid_eq {mv : Nat} (hd : s.den.up = true) (hv : mv < 16500 ∨ 38000 < mv) (ha : s.pwr.acinValid = true)
    (hs : s.pwr.stage ≠ .heldBattery) : ∃ d : Nat, acinInvalid mv s =
      if battless s then chgUpdate (judge d (acinGone s).2) else judgeGauge (chgUpdate (judge d (acinGone s).2)) := by
  have hr : (decide (16500 ≤ mv) && decide (mv ≤ 38000)) = false := by
    rw [Bool.and_eq_false_iff, decide_eq_false_iff_not, decide_eq_false_iff_not]
    omega
  refine ⟨if s.pwr.mains then 1 + (acinGone s).1 % 65535 else 0, ?_⟩
  unfold acinInvalid
  rw [if_neg (by rw [hr]; decide), if_neg (by rw [hd]; decide), if_neg (by rw [ha]; decide)]
  exact if_neg hs

theorem acinInvalid_inputs {mv : Nat} (hd : s.den.up = true) (hv : mv < 16500 ∨ 38000 < mv) (ha : s.pwr.acinValid = true)
    (hb : s.pwr.burrowing = false) (hs : s.pwr.stage ≠ .heldBattery) :
    (acinInvalid mv s).pwr.acinValid = false ∧ (acinInvalid mv s).pwr.mains = s.pwr.mains := by
  obtain ⟨d, he⟩ := acinInvalid_eq hd hv ha hs
  obtain ⟨h1, h2, h3⟩ := acinGone_inputs s
  have w : Within 0x3fffffffffff (acinGone s).2 (acinInvalid mv s) := by
    rw [he]
    have c := chgUpdate_within (judge_within (L := 0x3fffffffffff) d (Within.refl _ (acinGone s).2) (Sub.of rfl)) (Sub.of rfl)
    split
    · exact c
    · exact judgeGauge_within c (Sub.calm (h3.trans hb) rfl)
  exact ⟨(w.inputs rfl).1.trans h1, (w.inputs rfl).2.trans h2⟩

/-! ### The mains-present fact (R282, R283) -/

theorem bothSns_eq (s : State) : bothSns s = if rfld s 0x700C 25 24 = 0 then s.cmp.sns0
    else if rfld s 0x700C 25 24 = 1 then s.cmp.sns0 && s.cmp.sns1 else s.cmp.sns0 || s.cmp.sns1 := by
  unfold bothSns
  split <;> simp_all

/-- COMBINE makes the fact of the inputs. -/
theorem combine_mains (s : State) : (combine s).pwr.mains = bothSns s := by
  unfold combine
  split
  · next h => exact h.symm
  · refine ((judge_within (L := 0x61ff0ffb4d7) 0 (Within.refl _ _) (Sub.of rfl)).inputs rfl).2.trans ?_
    split <;> rfl

theorem combine_cmp (s : State) : (combine s).cmp = s.cmp :=
  (combine_within (L := 0x461ff0ffb4d7) (Within.refl _ s) (Sub.of rfl)).keeps .cmp rfl

theorem setSns0_changes {b : Bool} (h : s.cmp.sns0 ≠ b) :
    (setSns0 b s).cmp.sns0 = b ∧ (setSns0 b s).pwr.mains = bothSns { s with cmp := { s.cmp with sns0 := b } } := by
  unfold setSns0
  rw [if_neg h]
  exact ⟨congrArg Cmp.sns0 (combine_cmp _), combine_mains _⟩

theorem mainsLoss_eq (hd : s.den.up = true) (h0 : s.cmp.sns0 = true) (hf : s.cmp.fcs[12].active = false)
    (ht : lossTime s ≤ sinceT (now s) s.cmp.mains.fall) : mainsLoss s =
      setSns0 false { s with cmp := { s.cmp with mains := { s.cmp.mains with lost := true, rises := 0 } } } := by
  simp [mainsLoss, hd, h0, hf, ht]

theorem mainsPresence_eq (hd : s.den.up = true) (h1 : 0 < s.cmp.mains.rises)
    (h2 : sinceT (now s) s.cmp.mains.rise ≤ lossTime s)
    (hl : s.cmp.mains.lost = true → 100000 * rfld s 0x700C 15 8 ≤ sinceT (now s) s.cmp.mains.first)
    (hn : s.cmp.mains.lost = false → 3 ≤ s.cmp.mains.rises) : mainsPresence s = setSns0 true s := by
  unfold mainsPresence mainsGoes
  cases h : s.cmp.mains.lost
  · simp [hd, h1, h2, h, hn h]
  · simp [hd, h1, h2, h, hl h]

theorem setSns1_eq {b : Bool} (hd : s.den.up = true) (hb : s.cmp.sns1 ≠ b) (hc : rfld s 0x700C 25 24 ≠ 0) (hm : fcMode s 13 ≠ 3)
    (hs : sns1High s = (b != rbit s 0x700C 26)) (ht : 1000 * rfld s 0x700C 23 16 ≤ sinceT (now s) s.cmp.mains.change1) :
    setSns1 (b != rbit s 0x700C 26) s = combine { s with cmp := { s.cmp with sns1 := b } } := by
  have hp : sns1Present s (b != rbit s 0x700C 26) = b := by simp [sns1Present]
  simp [setSns1, hd, hb, hc, hm, hs, hp, Nat.not_lt.2 ht]

/-! ### HOST_AUTO and HRST_N (R42, R187) -/

theorem hostAuto_runs {g : Fin 16} (hd : s.den.up = true) (hs : s.pwr.stage = .started) (hf : s.pwr.pstate = .full)
    (ha : rbit s 0x001C 4 = true) (hu : s.pwr.hostUp = false) (hr : hostRuns s = false) (hg : hostGraph s = g.val)
    (hk : keptDown s g = false) (hh : hot s = false) : hostAuto s = settle (hubRun g false .hub s) := by
  simp [hostAuto, hd, hs, hf, ha, hu, hr, hg, fin?_val, hk, hh]

theorem hrstRelease_eq (hd : s.den.up = true) (hs : s.pwr.stage = .started) (hr : s.pwr.hrstDue = true) (hp : s.pwr.pstate ≠ .hush) :
    hrstRelease s = modPwr (fun p => { p with hrstDue := false, hrst := { p.hrst with start := false, die := false } }) s := by
  simp [hrstRelease, hd, hs, hr, inHush, hp]

end

/-- Settles O12: ACIN's facts by what follows its edge (`Within.inputs`), the mains fact by `combine_mains`, the host's run
and HRST_N by the equations of their commands. -/
theorem inputFactsFollow : Obligations.InputFactsFollow := by
  unfold Obligations.InputFactsFollow
  refine ⟨fun mv b s hd => ⟨fun hl hh ha => ⟨_, rfl, (acinValid_within_edge hd hl hh ha).inputs rfl⟩,
    fun hv ha hb hs => ⟨_, rfl, acinInvalid_inputs hd hv ha hb hs⟩, fun h0 hf ht => ⟨_, rfl, ?_⟩,
    fun h0 h1 h2 hl hn => ⟨_, rfl, ?_⟩, fun high hh hb hc hm hs ht => ⟨_, rfl, ?_⟩⟩, fun g s hd hs => ⟨?_, fun hr hp => ?_⟩⟩
  · obtain ⟨e0, em⟩ := setSns0_changes (b := false)
      (s := { s with cmp := { s.cmp with mains := { s.cmp.mains with lost := true, rises := 0 } } }) (by simp [h0])
    rw [mainsLoss_eq hd h0 hf ht]
    exact ⟨e0, em.trans (bothSns_eq _)⟩
  · obtain ⟨e0, em⟩ := setSns0_changes (b := true) (s := s) (by simp [h0])
    rw [mainsPresence_eq hd h1 h2 hl hn]
    exact ⟨e0, em.trans (bothSns_eq _)⟩
  · subst hh
    rw [setSns1_eq hd hb hc hm hs ht, combine_cmp, combine_mains, bothSns_eq]
    exact ⟨rfl, if_neg hc⟩
  · exact fun hf ha hu hr hg hk hh => congrArg Host.Outcome.next (hostAuto_runs hd hs hf ha hu hr hg hk hh)
  · exact congrArg Host.Outcome.next (hrstRelease_eq hd hs hr hp)

/-! ### RUN entry (R37, R38) -/

section
variable {s : State} {v : Word}

/-- A whole-word write of GLB_MODE over the link. -/
theorem hostWrite_mode (hd : s.den.up = true) (hl : s.link.dlUp = true) : hostWrite 0x0010 v s = glbMode v s := by
  simp only [hostWrite, registerWrite, hd, hl, Bool.not_true, Bool.false_eq_true, if_false, if_true]
  rfl

theorem setupRecord_pwr (o : Nat) (w : Word) (s : State) : (setupRecord o w s).pwr = s.pwr :=
  (setupRecord_within (L := 0xc00040) o w (Within.refl _ s) (Sub.of rfl)).keeps .pwr rfl

theorem leaveGranted_runs (h : s.pwr.iface = .granted) : (leaveGranted s).pwr.iface = .run := by
  unfold leaveGranted
  rw [if_pos h]
  have w := sendLtr_within (L := 0x40000000081) (owlRunEntry_within (Within.refl _ (modPwr (fun p => { p with iface := .run }) s))
    (Sub.of rfl)) (Sub.of rfl)
  exact w.keeps .iface rfl

/-- The first entry to RUN: what it replays and judges leaves the interface state. -/
theorem firstEntry_runs (h : s.pwr.burrowing = false) : (firstEntry s).pwr.iface = .run := by
  unfold firstEntry
  generalize hu : modPwr (fun p => { p with iface := .run, firstRun := false }) s = u
  have hb : u.pwr.burrowing = false := by rw [← hu]; exact h
  have hi : u.pwr.iface = .run := by rw [← hu]; rfl
  have w := judgeRings_within (L := 0x77ff8ffb4d7) (sendLtr_within (calRunEntry_within (replay_within true
    (owlRunEntry_within (Within.refl _ u) (Sub.of rfl)) (Sub.calm hb rfl)) (Sub.calm hb rfl)) (Sub.of rfl)) (Sub.calm hb rfl)
  have e : _ = u.pwr.iface := w.keeps .iface rfl
  exact e.trans hi

theorem modeStore_refuses (hv : fld v 1 0 = 1) (hs : s.jnl.scanned = true) (hr : runRefusal s v ≠ 0) :
    modeStore v s = modPwr (fun p => { p with refuse := runRefusal s v }) s := by
  unfold modeStore
  rw [if_neg (by simp [hv, hs]), if_pos hr]

theorem modeStore_runs (hv : fld v 1 0 = 1) (hs : s.jnl.scanned = true) (hr : runRefusal s v = 0)
    (hi : setupWrites s = true) (hb : s.pwr.burrowing = false) : (modeStore v s).pwr.iface = .run := by
  have hu : (modPwr (fun p => { p with refuse := 0 }) (setupRecord 0x0010 v s)).pwr = { s.pwr with refuse := 0 } := by
    rw [modPwr_pwr, setupRecord_pwr]
  unfold modeStore
  rw [if_neg (by simp [hv, hs]), if_neg (by simp [hr])]
  dsimp only
  split
  · exact firstEntry_runs (by rw [hu]; exact hb)
  · next h =>
    refine leaveGranted_runs ?_
    rw [hu]
    simp only [setupWrites, Bool.or_eq_true, decide_eq_true_eq, not_or] at h hi
    cases e : s.pwr.iface
    · exact absurd e h.2
    · exact absurd e hi
    · rfl

end

/-- Settles O16, by the branches of `modeStore`: a refusal, the first entry, the return from a granted SETUP. -/
theorem runIsEntered : Obligations.RunIsEntered := by
  unfold Obligations.RunIsEntered
  intro v s hd hl
  have e : exec (.glbModeWrite v) s = .next (glbMode v s) := congrArg Host.Outcome.next (hostWrite_mode hd hl)
  refine ⟨fun hi hs hv => ⟨fun hr => ⟨_, e, ?_⟩, fun hr hb => ⟨_, e, ?_⟩⟩, fun hi => e.trans ?_⟩
  · rw [glbMode, if_pos hi, modeStore_refuses hv hs hr]
    exact ⟨rfl, rfl⟩
  · rw [glbMode, if_pos hi]
    exact modeStore_runs hv hs hr hi hb
  · rw [glbMode, if_neg (by rw [hi]; decide)]

/-! ### SERVICE_GRANT (R333) -/

section
variable {a : Word} {it : Item} {s u : State} (h : Works 0x78 a it s u)
include h

theorem serviceGrant_refusesClass (hc : fld (opv it 4) 1 0 = 3) : serviceGrant a s = complete a .refusedFormat 7 0 u := by
  unfold serviceGrant
  rw [h.begins]
  simp [hc, refuseOperand]

variable (hc : fld (opv it 4) 1 0 ≠ 3) (hd : fld (opv it 4) 1 0 ≠ 0 → 1 ≤ fld (opv it 5) 15 0 ∧ fld (opv it 5) 15 0 ≤ 28800)
include hc hd

/-- The operands of a grant pass. -/
theorem serviceGrant_judges : serviceGrant a s =
    (let c := fld (opv it 4) 1 0
     let ends : Time := it.began + BitVec.ofNat 48 (fld (opv it 5) 15 0 * 1000000)
     if !rbit u 0x9000 0 then complete a .refusedState 0x10 0 u
     else
       let t1 := endGrant (if c = 0 then 2 else 4) u
       let t2 := if c = 0 then t1 else newGrant it (if c = 1 then .ring else .setup) ends t1
       let res : DWord := if c = 0 then 0 else ends.setWidth 64
       event 0x0F02 0 0 c res (complete a .done 0 res t2)) := by
  refine (h.begins _).trans (if_neg ?_)
  simp only [Bool.or_eq_true, Bool.and_eq_true, decide_eq_true_eq, not_or, not_and]
  refine ⟨hc, fun h0 => ?_⟩
  obtain ⟨h1, h2⟩ := hd h0
  omega

theorem serviceGrant_refusesPort (hp : rbit u 0x9000 0 = false) : serviceGrant a s = complete a .refusedState 0x10 0 u := by
  rw [serviceGrant_judges h hc hd]
  exact if_pos (by rw [hp]; rfl)

theorem serviceGrant_revokes (hp : rbit u 0x9000 0 = true) (h0 : fld (opv it 4) 1 0 = 0) :
    serviceGrant a s = event 0x0F02 0 0 0 0 (complete a .done 0 0 (endGrant 2 u)) := by
  rw [serviceGrant_judges h hc hd]
  simp only [hp, h0, Bool.not_true, Bool.false_eq_true, if_false, if_true]

theorem serviceGrant_gives (hp : rbit u 0x9000 0 = true) (h0 : fld (opv it 4) 1 0 = 1 ∨ fld (opv it 4) 1 0 = 2) {e : Time}
    (he : e = it.began + BitVec.ofNat 48 (fld (opv it 5) 15 0 * 1000000)) :
    serviceGrant a s = event 0x0F02 0 0 (fld (opv it 4) 1 0) (e.setWidth 64) (complete a .done 0 (e.setWidth 64)
      (newGrant it (if fld (opv it 4) 1 0 = 1 then .ring else .setup) e (endGrant 4 u))) := by
  have hn : fld (opv it 4) 1 0 ≠ 0 := by omega
  rw [serviceGrant_judges h hc hd, he]
  simp only [hp, hn, Bool.not_true, Bool.false_eq_true, if_false]

end

/-! ### The end of a grant (R334, R40) -/

section
variable {s : State} {g : SvcGrant} (c : Nat) (hg : s.usb.grant = some g)
include hg

theorem endGrant_eq : endGrant c s = event 0x0F03 0 0 c (BitVec.ofNat 64 s.usb.sending.length)
    (modUsb (fun u => { u with grant := none, ringPos := 0, due := { arm := none, left := 0, refused := false } })
      (dropSending (dropServiceJobs (leaveGranted s)))) := by
  unfold endGrant
  rw [hg]

theorem endGrant_usb : (endGrant c s).usb.grant = none ∧ (endGrant c s).usb.sending = [] := by
  rw [endGrant_eq c hg]
  generalize hu : modUsb _ (dropSending (dropServiceJobs (leaveGranted s))) = u
  have e : _ = u.usb := (event_within (L := 0x4a083) 0x0F03 0 0 c (BitVec.ofNat 64 s.usb.sending.length) (Within.refl _ u) (Sub.of rfl)).keeps .usb rfl
  rw [e, ← hu]
  exact ⟨rfl, rfl⟩

theorem endGrant_runs (hi : s.pwr.iface = .granted) : (endGrant c s).pwr.iface = .run := by
  have e : _ = (leaveGranted s).pwr := (dropServiceJobs_within (L := 0x4418000) (Within.refl _ (leaveGranted s)) (Sub.of rfl)).keeps .pwr rfl
  rw [endGrant_eq c hg, event_pwr]
  exact (congrArg Power.iface e).trans (leaveGranted_runs hi)

theorem grantEnds_ends (he : laterT g.ends (now s) = false ∨ s.usb.vbus = false) : ∃ c, grantEnds s = endGrant c s := by
  unfold grantEnds
  rw [hg]
  dsimp only
  split
  · exact ⟨1, rfl⟩
  · next hl => exact ⟨3, if_pos (by simpa using he.resolve_left (by simpa using hl))⟩

end

/-! ### The acknowledgement of a service completion (R336) -/

/-- What is written to the journal keeps the list of what waits for room. -/
theorem noteAck_owed (cq : Nat) (idx : Word) (s : State) : (noteAck cq idx s).jnl.owed = s.jnl.owed := by
  unfold noteAck
  split <;> rfl

theorem rootWake_jnl (s : State) : (rootWake s).jnl = s.jnl := by
  unfold rootWake
  split <;> rfl

theorem putForced_owed (w : List Word) (s : State) : (putForced w s).jnl.owed = s.jnl.owed := by
  unfold putForced
  split
  · exact noteAck_owed _ _ (putRec w s)
  · rfl

theorem clearWay_owed (fuel ahead : Nat) (s : State) : (clearWay fuel ahead s).jnl.owed = s.jnl.owed := by
  induction fuel generalizing s with
  | zero => rfl
  | succ n ih =>
    unfold clearWay
    split
    · exact (ih _).trans (putForced_owed _ s)
    · rfl

theorem forget_owed (s : State) : (forget s).jnl.owed = s.jnl.owed := by
  unfold forget
  dsimp only
  split
  · split <;> rfl
  · rfl

theorem commit_owed (w : List Word) (s : State) : (commit w s).jnl.owed = s.jnl.owed := by
  unfold commit
  split
  · rw [rootWake_jnl]
  · exact (forget_owed _).trans ((clearWay_owed _ _ _).trans (congrArg Journal.owed (rootWake_jnl s)))

theorem commitAck_owed (cq : Nat) (idx : Word) (s : State) : (commitAck cq idx s).jnl.owed = s.jnl.owed :=
  (noteAck_owed cq idx _).trans (commit_owed _ s)

/-- Without an armed slot and with nothing that waits, room changes nothing. -/
theorem roomAgain_idle {s : State} (ho : s.jnl.owed = []) (ha : ∀ k : Fin 64, s.eng.armed[k] = none) : roomAgain s = s := by
  have hs : slotsInOrder s = [] := by
    have : (fins 64).filter (fun k => (s.eng.armed[k]).isSome) = [] := List.filter_eq_nil_iff.2 fun k _ => by rw [ha k]; decide
    unfold slotsInOrder
    rw [this]
    rfl
  unfold roomAgain retryFires
  rw [ho]
  show (slotsInOrder s).foldl _ s = s
  rw [hs]
  rfl

theorem serviceAck_takes {s : State} {c : Comp} {rest : List Comp} (hs : s.usb.sending = c :: rest) (ho : s.jnl.owed = [])
    (ha : ∀ k : Fin 64, s.eng.armed[k] = none) :
    (serviceAck s).usb.sending = rest ∧ (serviceAck s).eng.comps = s.eng.comps.filter (fun x => x ≠ c) := by
  unfold serviceAck
  rw [hs]
  dsimp only
  generalize hu : (if c.verdict = .deferred then _ else _ : State) = u
  have hj : u.jnl.owed = s.jnl.owed := by rw [← hu]; split <;> rfl
  have he : u.eng = { s.eng with comps := s.eng.comps.filter (fun x => x ≠ c) } := by rw [← hu]; split <;> rfl
  have hb : u.usb = { s.usb with sending := rest } := by rw [← hu]; split <;> rfl
  have w := commitAck_within (L := 0xc00040) 16 (nth s.jnl.acks 16 0 + 1) (Within.refl _ u) (Sub.of rfl)
  have we : _ = u.eng := w.keeps .eng rfl
  have wb : _ = u.usb := w.keeps .usb rfl
  rw [roomAgain_idle ((commitAck_owed _ _ u).trans (hj.trans ho)) (by rw [we, he]; exact ha), we, wb, he, hb]
  exact ⟨rfl, rfl⟩

/-- Settles O56: the item by its judgements in their order, the grant's end by `endGrant_eq`, the acknowledgement by
`serviceAck_takes`. -/
theorem serviceGrantAnswers : Obligations.ServiceGrantAnswers := by
  unfold Obligations.ServiceGrantAnswers
  refine ⟨fun a it s u h => ⟨fun hc => h.finishes (congrArg Host.Outcome.next (serviceGrant_refusesClass h hc)), fun hc hd =>
    ⟨fun hp => h.finishes (congrArg Host.Outcome.next (serviceGrant_refusesPort h hc hd hp)),
      fun hp h0 => congrArg Host.Outcome.next (serviceGrant_revokes h hc hd hp h0),
      fun hp h0 e he => congrArg Host.Outcome.next (serviceGrant_gives h hc hd hp h0 he)⟩⟩,
    fun g c rest s => ⟨fun hg he => ⟨_, rfl, ?_⟩, fun hs ho ha => ⟨_, rfl, serviceAck_takes hs ho ha⟩⟩⟩
  obtain ⟨k, e⟩ := grantEnds_ends hg he
  obtain ⟨h1, h2⟩ := endGrant_usb k hg
  rw [e]
  exact ⟨h1, h2, endGrant_runs k hg⟩

/-! ### FAULT_CLEAR (R359, R360) -/

theorem anyPresent_fin (s : State) (n : Fin 192) : anyPresent s n.val = decide (s.flt.src[n].present ≠ 0) := by
  unfold anyPresent
  rw [causesOf_fin]

theorem faultClear_eq {a : Word} {vm : Nat} {it : Item} {s u : State} {n : Fin 192} (h : Works 0x68 a it s u)
    (hn : fld (opv it 4) 7 0 = n.val) : faultClear a vm s =
      if 185 < n.val then refuseOperand a u
      else if !faulted u n.val then complete a .done 0x11 (causesResult u n.val) (clearSource n vm (commitStart it u))
      else if anyPresent (clearEnds n.val u) n.val then complete a .refusedState 0x10 (causesResult u n.val) u
      else complete a .done 0 (causesResult u n.val) (clearSource n vm (clearEnds n.val (commitStart it u))) := by
  refine (h.begins _).trans ?_
  simp only [hn, fin?_val, anyPresent_fin, decide_eq_true_eq]

/-! ### FAULT_REACTION_SET (R361) -/

theorem bit_mask {i : Nat} (h : i < 7) (w : Word) : bit (w &&& 0x7F) i = bit w i := by
  unfold bit
  rw [BitVec.getLsbD_and, show (0x7F : Word).getLsbD i = true by interval_cases i <;> rfl, Bool.and_true]

theorem fld_mask (w : Word) : fld (w &&& 0x7F) 6 5 = fld w 6 5 := by
  apply Nat.eq_of_testBit_eq
  intro i
  rw [testBit_fld, testBit_fld]
  by_cases hi : i < 2
  · exact congrArg _ (bit_mask (i := 5 + i) (by omega) w)
  · simp [show ¬ i < 6 + 1 - 5 from hi]

theorem faultReactionSet_sets {a : Word} {it : Item} {s u : State} (h : Works 0x69 a it s u)
    (hr : fld (opv it 4) 7 0 ≤ fld (opv it 4) 15 8) (hl : fld (opv it 4) 15 8 ≤ 185)
    (hi : bit (opv it 5) 1 = true → ∀ m ∈ sourcesFrom (fld (opv it 4) 7 0) (fld (opv it 4) 15 8), offersIsolate m.val = true)
    (hh : bit (opv it 5) 4 = true → ∀ m ∈ sourcesFrom (fld (opv it 4) 7 0) (fld (opv it 4) 15 8), offersHold m.val = true)
    (hs : bit (opv it 5) 2 = true → fld (opv it 5) 6 5 ≠ 0) : faultReactionSet a s = complete a .done 0
      (BitVec.ofNat 64 ((sourcesFrom (fld (opv it 4) 7 0) (fld (opv it 4) 15 8)).filter
        (fun m => (reactOf u m.val &&& 0x7F) ≠ opv it 5 &&& 0x7F)).length)
      ((sourcesFrom (fld (opv it 4) 7 0) (fld (opv it 4) 15 8)).foldl (fun x m => setReact m (opv it 5 &&& 0x7F) x)
        (commitStart it u)) := by
  refine (h.begins _).trans ?_
  dsimp only
  rw [bit_mask (by decide), bit_mask (by decide), bit_mask (by decide), fld_mask, if_neg, if_neg, if_neg, if_neg]
  · simpa using hs
  · simpa using hh
  · simpa using hi
  · simpa using ⟨hr, hl⟩

/-! ### FLT_REACT (R361, R39) -/

theorem clampReg_react (li : Bool) (rs : Nat) {o : Nat} (h1 : 0x0C00 ≤ o) (h2 : o < 0x0F00) (w : Word) : clampReg li rs o w = w := by
  unfold clampReg
  repeat rw [if_neg (by omega)]

theorem faulted_react (s : State) (o : Nat) (w : Word) (n : Nat) : faulted (setReg o w s) n = faulted s n := rfl

/-- A mask of a CLEAR source sheds nothing and lets nothing go. -/
theorem shedByFault_react {s : State} {n : Fin 192} (h : faulted s n.val = false) (w : Word) (t : Nat) :
    shedByFault (setReg (0x0C00 + 4 * n.val) w s) t = shedByFault s t := by
  have hf : s.flt.src[n].faulted = false := by rw [← causesOf_fin]; exact h
  unfold shedByFault
  congr 2
  funext m
  by_cases e : n = m
  · subst e
    simp only [setReg_flt, hf, Bool.false_and]
  · have hne : 0x0C00 + 4 * n.val ≠ 0x0C00 + 4 * m.val := fun c => e (Fin.ext (by omega))
    exact congrArg (fun r => s.flt.src[m].faulted && bit r 2 && decide (fld r 6 5 = t)) (reg_setReg_ne s w hne)

theorem shedFollow_same {s0 s : State} (h : ∀ t, shedByFault s t = shedByFault s0 t) : shedFollow s0 s = s := by
  simp [shedFollow, shedChange, h]

theorem setReact_clear {s : State} {n : Fin 192} (h : faulted s n.val = false) (w : Word) :
    setReact n w s = setReg (0x0C00 + 4 * n.val) (w &&& 0x7F) s := by
  have hi : isolated (setReg (0x0C00 + 4 * n.val) (w &&& 0x7F) s) n.val = false := by
    unfold isolated
    rw [faulted_react, h]
    rfl
  unfold setReact
  dsimp only
  rw [hi]
  exact shedFollow_same (shedByFault_react h _)

theorem reactOf_setReact_clear {s : State} {n : Fin 192} (g : s.Good) (h : faulted s n.val = false) (w : Word) :
    reactOf (setReact n w s) n.val = w &&& 0x7F := by
  rw [setReact_clear h]
  exact reg_setReg s _ _ g.regs

theorem merged_react (s : State) (n : Fin 192) (m v : Word) :
    merged s (0x0C00 + 4 * n.val) m v &&& m = v &&& m := by
  unfold merged
  rw [clampReg_react _ _ (by omega) (by omega)]
  ext i
  simp only [BitVec.getElem_and, BitVec.getElem_or, BitVec.getElem_not]
  cases m[i] <;> simp

theorem fltReact_takes {s : State} {n : Fin 192} (g : s.Good) (hw : setupWrites s = true) (h : faulted s n.val = false) (v : Word) :
    reactOf (fltReactStore n 0xFFFFFFFF v s) n.val = v &&& 0x7F := by
  have w := setupRecord_within (L := 0xc00040) (0x0C00 + 4 * n.val) v (Within.refl _ s) (Sub.of rfl)
  have hf : faulted (setupRecord (0x0C00 + 4 * n.val) v s) n.val = false := by
    unfold faulted causesOf
    rw [show _ = s.flt from w.keeps .flt rfl]
    exact h
  unfold fltReactStore
  dsimp only
  rw [if_pos hw, reactOf_setReact_clear (w.good g) hf]
  exact merged_react s n 0x7F v

theorem fltReact_locked {s : State} {n : Fin 192} {v : Word} (hw : setupWrites s = false)
    (hc : countsLocked s (0x0C00 + 4 * n.val) { accRO with rws := 0x7F } v = true) :
    fltReactStore n 0xFFFFFFFF v s = lockCount (0x0C00 + 4 * n.val) s := by
  unfold fltReactStore
  dsimp only
  rw [if_neg (by rw [hw]; decide), if_pos hc]

/-! ### The collectors (R358) -/

theorem ackRecord_flt (c : Fin 2) (v : Word) (s : State) : (ackRecord c v s).flt = s.flt :=
  (ackRecord_within (L := 0xc00040) c v (Within.refl _ s) (Sub.of rfl)).keeps .flt rfl

theorem modColl_self (c : Fin 2) (f : Collector → Collector) (s : State) : (modColl c f s).flt.coll[c] = f s.flt.coll[c] :=
  upd_self _ _ _

/-! ### The end of a cause (R349) -/

theorem isPresent_of_flt {s t : State} (h : t.flt = s.flt) (n d : Nat) : isPresent t n d = isPresent s n d := by
  unfold isPresent causesOf
  rw [h]

theorem isPresent_fin (s : State) (n : Fin 192) (d : Nat) : isPresent s n.val d = s.flt.src[n].present.getLsbD (d - 1) := by
  unfold isPresent
  rw [causesOf_fin]

theorem endCause_absent (s : State) (n : Fin 192) (i : Fin 16) : isPresent (endCause n.val (i.val + 1) s) n.val (i.val + 1) = false := by
  rw [isPresent_fin]
  unfold endCause setPresent
  rw [fin?_val]
  dsimp only
  rw [modSrc_flt, upd_self, if_neg Bool.false_ne_true, Nat.add_sub_cancel, BitVec.getLsbD_and, BitVec.getLsbD_not,
    BitVec.getLsbD_ofNat, Nat.testBit_two_pow_self, decide_eq_true i.isLt]
  exact Bool.and_false _

theorem endCause_causes (n d : Nat) (s : State) : (endCause n d s).flt.Holds s.flt :=
  (endCause_within (L := 0x8000000) n d (Within.refl _ s) (Sub.of rfl)).keeps .causes rfl

theorem sendEvent_flt (k : Nat) (code : BitVec 16) (h : Word) (i d : Nat) (v : DWord) (s : State) :
    (sendVector k (event code h i d v s)).flt = s.flt :=
  (sendVector_within (L := 0x4a083) k (event_within code h i d v (Within.refl _ s) (Sub.of rfl)) (Sub.of rfl)).keeps .flt rfl

/-- A change of one source that leaves what it has present. -/
theorem modSrc_present {n : Fin 192} {f : FaultSrc → FaultSrc} (hf : ∀ x, (f x).present = x.present) (m : Fin 192) (s : State) :
    (modSrc n f s).flt.src[m].present = s.flt.src[m].present := by
  rw [modSrc_flt]
  by_cases h : n = m
  · subst h
    exact (congrArg FaultSrc.present (upd_self _ _ _)).trans (hf _)
  · exact congrArg FaultSrc.present (upd_ne _ _ h)

theorem faultNotify_present (n m : Fin 192) (d : Nat) (s : State) :
    (faultNotify n d s).flt.src[m].present = s.flt.src[m].present := by
  unfold faultNotify
  dsimp only
  generalize (!bit (reactOf s n.val) 0 || _ : Bool) = quiet
  cases quiet
  · refine (congrArg (fun f : Faults => f.src[m].present) (sendEvent_flt _ _ _ _ _ _ _)).trans (modSrc_present ?_ m s)
    exact fun _ => rfl
  · rfl

theorem latchCapture_present (n m : Fin 192) (d : Nat) (s : State) :
    (latchCapture n d false s).flt.src[m].present = s.flt.src[m].present := by
  have e : (batterySource n.val s).flt = s.flt := by
    unfold batterySource
    split
    · rfl
    · split <;> rfl
  show (latch n d false (batterySource n.val s)).flt.src[m].present = _
  unfold latch
  dsimp only
  rw [modSrc_present (fun _ => ?_), e]
  rfl

theorem shedAndReset_flt (s0 : State) (n : Nat) (s : State) : (shedAndReset s0 n s).flt = s.flt :=
  (shedAndReset_within (L := 0x20ff0ffb0c7) s0 n (Within.refl _ s) (Sub.of rfl)).keeps .flt rfl

/-- A raise that latches alone, of a source that offers no ISOLATE, leaves every cause that is present. -/
theorem raiseBase_present {n : Fin 192} (ho : offersIsolate n.val = false) (m : Fin 192) (d : Nat) (s : State) :
    (raiseBase n d false s).flt.src[m].present = s.flt.src[m].present := by
  unfold raiseBase
  split
  · exact (faultNotify_present n m d _).trans (latchCapture_present n m d s)
  · dsimp only
    rw [ho, Bool.and_false, faultNotify_present, shedAndReset_flt]
    exact latchCapture_present n m d s

theorem raiseLatched_present {n : Nat} (h1 : 48 ≤ n) (h2 : n < 186) (ho : offersIsolate n = false) (m : Fin 192)
    (d : Nat) {s : State} (hb : s.pwr.burrowing = false) : (raiseLatched n d s).flt.src[m].present = s.flt.src[m].present := by
  have hn : n < 192 := by omega
  have hq := (raiseBase_within (L := 0x32ff8ffb0c7) ⟨n, hn⟩ d false (Within.refl _ s) (Sub.of rfl)).quiet hb (by decide)
  have e : (settle (raiseBase ⟨n, hn⟩ d false s)).flt = (raiseBase ⟨n, hn⟩ d false s).flt :=
    (settle_within (L := 0x61ff0ffb4d7) (Within.refl _ _) (Sub.calm hq rfl)).keeps .flt rfl
  unfold raiseLatched raiseAs
  rw [show fin? 48 n = none from dif_neg (by omega), show fin? 192 n = some ⟨n, hn⟩ from dif_pos hn]
  dsimp only
  rw [if_pos h2, e]
  exact raiseBase_present ho m d s

/-- Where the reference is chosen anew, what is present stands. -/
theorem refSelect_present {s : State} (hb : s.pwr.burrowing = false) (m : Fin 192) :
    (refSelect s).flt.src[m].present = s.flt.src[m].present := by
  unfold refSelect toEmber
  split
  · split <;> rfl
  · split
    · exact raiseLatched_present (s := toXclk s) (by decide) (by decide) (by decide) m 2 hb
    · rfl

section
variable {s : State} {n : Fin 192} {i : Fin 16} (ho : outsideCause n.val (i.val + 1) = true)
  (hp : isPresent s n.val (i.val + 1) = true) (ha : alertUnseen s n.val = false) (hc : stillChatters s n.val = false)
include ho hp ha hc

/-- Outside FSRC 171 nothing but the cause itself changes in the faults. -/
theorem causeEnds_flt (h : n.val ≠ 171) : (causeEnds n i s).flt = (endCause n.val (i.val + 1) s).flt := by
  unfold causeEnds
  dsimp only
  rw [if_neg (by simp [ho, hp, ha, hc, h])]
  split
  · rfl
  split
  · rfl
  split
  · rfl
  split
  · split <;> rfl
  split
  · exact (usbReattach_within (L := 0x2000004a083) (Within.refl _ (endCause n.val (i.val + 1) s)) (Sub.of rfl)).keeps .flt rfl
  · rfl

/-- Ember is good again: the reference is chosen anew (R66). -/
theorem causeEnds_ember (h : n.val = 171) (hx : s.clk.xPresent = true) :
    causeEnds n i s = refSelect (endCause n.val (i.val + 1) s) := by
  unfold causeEnds
  dsimp only
  rw [if_neg (by simp [ho, hp, ha, hc, hx]), if_neg (by omega), if_neg (by omega), if_neg (by omega), if_pos h]

/-- Beside its own cause none ends, and no other of its source becomes present. -/
theorem causeEnds_keeps (hx : n.val ≠ 171 ∨ (s.clk.xPresent = true ∧ s.pwr.burrowing = false)) (e : Nat) :
    isPresent (causeEnds n i s) n.val e = isPresent (endCause n.val (i.val + 1) s) n.val e ∧
      (causeEnds n i s).flt.Holds (endCause n.val (i.val + 1) s).flt := by
  by_cases h : n.val = 171
  · obtain ⟨hx, hb⟩ := hx.resolve_left (not_not_intro h)
    have hq : (endCause n.val (i.val + 1) s).pwr.burrowing = false :=
      (endCause_within (L := 0x8000000) n.val (i.val + 1) (Within.refl _ s) (Sub.of rfl)).quiet hb (by decide)
    rw [causeEnds_ember ho hp ha hc h hx, isPresent_fin, isPresent_fin, refSelect_present hq]
    exact ⟨rfl, (refSelect_within (L := 0x73ff8ffb4d7) (Within.refl _ _) (Sub.calm hq rfl)).keeps .causes rfl⟩
  · rw [isPresent_of_flt (causeEnds_flt ho hp ha hc h), causeEnds_flt ho hp ha hc h]
    exact ⟨rfl, causes_refl⟩

end

theorem latched_of_holds {s t : State} (h : t.flt.Holds s.flt) (n : Fin 192) (e : Nat)
    (hl : (causesOf s n.val).latched.getLsbD e = true) : (causesOf t n.val).latched.getLsbD e = true := by
  rw [causesOf_fin] at *
  exact (h n).1 e hl

/-- A cause that an outside condition held ends with it, and stays latched (R349). -/
theorem causeEnds_ends {s : State} {n : Fin 192} {i : Fin 16} (ho : outsideCause n.val (i.val + 1) = true)
    (hp : isPresent s n.val (i.val + 1) = true) (hx : n.val ≠ 171 ∨ (s.clk.xPresent = true ∧ s.pwr.burrowing = false))
    (ha : alertUnseen s n.val = false) (hc : stillChatters s n.val = false) :
    isPresent (causeEnds n i s) n.val (i.val + 1) = false ∧
      ∀ e, (causesOf s n.val).latched.getLsbD e = true → (causesOf (causeEnds n i s) n.val).latched.getLsbD e = true := by
  obtain ⟨kp, kh⟩ := causeEnds_keeps ho hp ha hc hx (i.val + 1)
  exact ⟨kp.trans (endCause_absent s n i), fun e he => latched_of_holds kh n e (latched_of_holds (endCause_causes _ _ s) n e he)⟩

/-- Settles O60: FAULT_CLEAR by `faultClear_eq`, the masks by `faultReactionSet_sets` and `fltReact_takes`, an outside
cause by `causeEnds_ends`. -/
theorem faultItemsAnswer : Obligations.FaultItemsAnswer := by
  unfold Obligations.FaultItemsAnswer
  refine ⟨fun a vm it s u n h hn => ⟨fun hl hf hp => ?_, fun hl hf => ?_, fun hl hf hp => ?_, fun hl => ?_⟩,
    fun a it s u n v => ⟨fun h hr hl hi hh hs => congrArg Host.Outcome.next (faultReactionSet_sets h hr hl hi hh hs),
      fun g hw hf => ⟨_, rfl, fltReact_takes g hw hf v⟩, fun hw hc => congrArg Host.Outcome.next (fltReact_locked hw hc)⟩,
    fun c n i s => ⟨⟨_, rfl, ?_⟩, ⟨_, rfl, ?_⟩, fun ho hp hx ha hc => ⟨_, rfl, causeEnds_ends ho hp hx ha hc⟩⟩⟩
  · refine congrArg Host.Outcome.next ((faultClear_eq h hn).trans ?_)
    rw [if_neg (Nat.not_lt.2 hl), hf, hp]
    rfl
  · refine congrArg Host.Outcome.next ((faultClear_eq h hn).trans ?_)
    rw [if_neg (Nat.not_lt.2 hl), hf]
    rfl
  · refine h.finishes (congrArg Host.Outcome.next ((faultClear_eq h hn).trans ?_))
    rw [if_neg (Nat.not_lt.2 hl), hf, hp]
    rfl
  · exact h.finishes (congrArg Host.Outcome.next ((faultClear_eq h hn).trans (if_pos hl)))
  · exact (congrArg Collector.entries (modColl_self c _ _)).trans (by rw [ackRecord_flt])
  · have e := modColl_self c (fun x => { x with overflow := false }) (ackRecord c 2 s)
    exact ⟨congrArg Collector.overflow e, (congrArg Collector.entries e).trans (by rw [ackRecord_flt])⟩

/-! ### What the second battery check reads (R31)

Between VDEN's rise and the second check the start moves the battery switch, the charger, the budget, the inputs, the
image's register writes and the journal's scan. None of them changes ACIN_VALID, nor the last sampled BATSNS other than
to the world's value. `Senses a v` says so of one state; each operation on the way keeps it. -/

/-- No shutdown toward BURROW runs, ACIN_VALID is `a` and BATSNS was last seen at `v` mV. -/
structure Senses (a : Bool) (v : Nat) (s : State) : Prop where
  burrowing : s.pwr.burrowing = false
  acin : s.pwr.acinValid = a
  volts : s.chg.batsns = v

/-- Every part but the charger's own and the power inputs. -/
def aside : Nat := 0x3ffeffffffff

section
variable {a : Bool} {v : Nat} {s t : State}

theorem Senses.of_within (w : Within aside s t) (h : Senses a v s) : Senses a v t where
  burrowing := w.quiet h.burrowing (by decide)
  acin := (congrArg Prod.fst (w.same .inputs rfl)).trans h.acin
  volts := (congrArg Charger.batsns (w.same .chg rfl)).trans h.volts

/-- An operation whose lemma of the layer `Within` names neither part. -/
theorem Senses.keep {A : Nat} (w : Within aside s s → Sub A aside → Within aside s t) (hA : A &&& aside = A)
    (h : Senses a v s) : Senses a v t :=
  .of_within (w (.refl _ _) (.of hA)) h

/-- The same where that lemma names every part for a shutdown toward BURROW, which does not run. -/
theorem Senses.keepCalm {A : Nat} (w : Within aside s s → Sub (orAll s A) aside → Within aside s t)
    (hA : A &&& aside = A) (h : Senses a v s) : Senses a v t :=
  .of_within (w (.refl _ _) (.calm h.burrowing hA)) h

theorem Senses.modPwr {f : Power → Power} (hb : (f s.pwr).burrowing = s.pwr.burrowing)
    (ha : (f s.pwr).acinValid = s.pwr.acinValid) (h : Senses a v s) : Senses a v (modPwr f s) :=
  ⟨hb.trans h.burrowing, ha.trans h.acin, h.volts⟩

theorem Senses.modChg {f : Charger → Charger} (hv : (f s.chg).batsns = s.chg.batsns) (h : Senses a v s) :
    Senses a v (modChg f s) :=
  ⟨h.burrowing, h.acin, hv.trans h.volts⟩

theorem Senses.ite {p : Prop} [Decidable p] (h : Senses a v s) (g : Senses a v t) : Senses a v (if p then s else t) := by
  split <;> assumption

theorem Senses.foldl {α : Type} {f : State → α → State} {l : List α} (hf : ∀ u x, Senses a v u → Senses a v (f u x))
    (h : Senses a v s) : Senses a v (l.foldl f s) := by
  induction l generalizing s with
  | nil => exact h
  | cons x l ih => exact ih (hf s x h)

/-! #### The budget -/

theorem retarget_senses (h : Senses a v s) : Senses a v (retarget s) := by
  unfold retarget
  exact .modChg rfl h

theorem fitCharger_senses (h : Senses a v s) : Senses a v (fitCharger s) := by
  unfold fitCharger
  dsimp only
  split
  · exact retarget_senses (.keep overEnds_within rfl <| .keep (setBud_within _ _) rfl <| .keep (modBud_within _) rfl h)
  · exact retarget_senses (.keep overEnds_within rfl <| .keep (setBud_within _ _) rfl <| .keep (modBud_within _) rfl h)

theorem serveReq_senses {t : Time} {r : Req} (h : Senses a v s) : Senses a v (serveReq t r s) := by
  unfold serveReq
  exact fitCharger_senses (.keep (setBud_within _ _) rfl <|
    .ite (.keep (takeSlot_within _ _) rfl <| .keep (modBud_within _) rfl h) (.keep (modBud_within _) rfl h))

theorem release_senses {d : Demand} (h : Senses a v s) : Senses a v (release d s) := by
  unfold release
  exact fitCharger_senses (.keep (setBud_within _ _) rfl <| .keep (modBud_within _) rfl h)

theorem lowerGrant_senses {d : Demand} {tier mw : Nat} (h : Senses a v s) : Senses a v (lowerGrant d tier mw s) := by
  unfold lowerGrant
  exact fitCharger_senses (.keep (setBud_within _ _) rfl <| .keep (modBud_within _) rfl h)

theorem place_senses {r : Req} {x : Asked} (h : Senses a v s) : Senses a v (place r x s) := by
  cases x with
  | refused n => exact .keep (noteRefusal_within _ _) rfl h
  | served => exact serveReq_senses h
  | waits c =>
    exact fitCharger_senses (.keep (setBud_within _ _) rfl <| .keep (countReg_within _ _ _ _) rfl <| .keep (addReq_within _) rfl h)

/-! #### Rails -/

theorem railDown_senses {r : Fin 48} {st : RailState} (h : Senses a v s) : Senses a v (railDown r st s) := by
  unfold railDown
  split
  · exact h
  · extract_lets s1 s2 s3 s4 s5
    have h4 : Senses a v s4 := .keep (modRail_within _ _) rfl <| .keep (placeLanes_within _ _) rfl <| .keep (modLanes_within _ _) rfl <|
      .keep (modLanes_within _ _) rfl h
    have h5 : Senses a v s5 := .keep (setPg_within _ _) rfl <| .ite (release_senses h4) h4
    exact .ite (.keep (settleRail_within _) rfl h5) h5

theorem railIsolate_senses {r : Fin 48} (h : Senses a v s) : Senses a v (railIsolate r s) := by
  unfold railIsolate
  split
  · exact h
  · have h1 := Senses.keep (withdrawStarts_within r) rfl <| .keep (hubItem_within 0x12 (railHandle s r) 0) rfl h
    exact .ite h1 (.keep (failNodes_within _) rfl <| railDown_senses h1)

theorem railShed_senses {r : Fin 48} (h : Senses a v s) : Senses a v (railShed r s) := by
  unfold railShed
  split
  · exact h
  · exact .keep (setBud_within _ _) rfl <| .ite h <| .keep (failNodes_within _) rfl <| railDown_senses <|
      .keep (hubItem_within _ _ _) rfl h

/-! #### Charger, lending and lifting -/

theorem setChg_senses {st : ChgState} (h : Senses a v s) : Senses a v (setChg st s) := by
  unfold setChg
  split
  · exact fitCharger_senses h
  · exact fitCharger_senses (.keep (setBud_within _ _) rfl <| .keep (event_within _ _ _ _ _) rfl <| .keep (orReg_within _ _) rfl <|
      .modChg rfl h)

theorem chgUpdate_senses (h : Senses a v s) : Senses a v (chgUpdate s) := setChg_senses h

theorem lendOff_senses {d : Nat} (h : Senses a v s) : Senses a v (lendOff d s) := by
  unfold lendOff
  exact .ite h <| chgUpdate_senses <| .keep (event_within _ _ _ _ _) rfl <| .keep (orReg_within _ _) rfl <| release_senses <|
    .modChg rfl <| .modPwr rfl rfl h

theorem liftOff_senses {d : Nat} (h : Senses a v s) : Senses a v (liftOff d s) := by
  unfold liftOff
  exact .ite h <| .keep (event_within _ _ _ _ _) rfl <| .keep (orReg_within _ _) rfl <| release_senses <| .modChg rfl h

theorem lendAbort_senses {d : Nat} (h : Senses a v s) : Senses a v (lendAbort d s) := by
  unfold lendAbort
  exact .ite (lendOff_senses h) <| .keep (completeFree_within _ _) rfl <| lendOff_senses <| .keep (withdrawDemand_within _) rfl h

theorem liftAbort_senses {d : Nat} (h : Senses a v s) : Senses a v (liftAbort d s) := by
  unfold liftAbort
  exact .keep (completeFree_within _ _) rfl <| liftOff_senses <| .keep (withdrawDemand_within _) rfl h

theorem drawNat_senses (h : Senses a v s) : Senses a v (drawNat s).2 := .of_within (drawNat_within (.refl _ _)) h

theorem liftAbortFree_senses (h : Senses a v s) : Senses a v (liftAbortFree s) := by
  unfold liftAbortFree
  exact .ite h <| liftAbort_senses <| drawNat_senses h

/-! #### Relays, motors and fans -/

theorem relayJudged_senses {n : Fin 48} {code landing peak : Nat} (h : Senses a v s) :
    Senses a v (relayJudged n code landing peak s) := by
  unfold relayJudged
  extract_lets o s1 s2
  have h1 : Senses a v s1 := .keep (setReg_within _ _) rfl <| .keep (relayPresent_within _ _) rfl <| .keep (blankRelay_within _ _) rfl h
  have h2 : Senses a v s2 := .ite h1 <| .keep (countReg_within _ _ _ _) rfl h1
  exact .keep (event_within _ _ _ _ _) rfl <| release_senses <| .keep (modRelay_within _ _) rfl h2

theorem relayEnd_senses {n : Fin 48} {code landing peak : Nat} (h : Senses a v s) :
    Senses a v (relayEnd n code landing peak s) := by
  unfold relayEnd
  split
  · exact h
  · have h1 := relayJudged_senses (n := n) (code := code) (landing := landing) (peak := peak) h
    exact .ite (.keep (modRelay_within _ _) rfl h1) (.keep (relayVerdict_within _ _) rfl h1)

theorem relayCut_senses {n : Fin 48} (h : Senses a v s) : Senses a v (relayCut n s) :=
  relayEnd_senses <| drawNat_senses <| drawNat_senses h

theorem motorRest_senses {m : Fin 2} {st : MotorState} (h : Senses a v s) : Senses a v (motorRest m st s) := by
  unfold motorRest
  exact release_senses <| .keep (modMotor_within _ _) rfl h

theorem fanDown_senses {f : Fin 4} {st : FanState} (h : Senses a v s) : Senses a v (fanDown f st s) := by
  unfold fanDown
  exact release_senses <| .keep (modFan_within _ _) rfl h

theorem fanFails_senses {f : Fin 4} (h : Senses a v s) : Senses a v (fanFails f s) := by
  unfold fanFails
  split
  · exact .keep (completeFree_within _ _) rfl <| .keep (modFan_within _ _) rfl <| fanDown_senses h
  · exact h

theorem fanShed_senses {f : Fin 4} (h : Senses a v s) : Senses a v (fanShed f s) := by
  unfold fanShed
  split
  · exact .keep (setBud_within _ _) rfl <| .ite h <| fanDown_senses h
  · exact h

theorem fanOff_senses {f : Fin 4} (h : Senses a v s) : Senses a v (fanOff f s) := by
  unfold fanOff
  exact .keep (fanItemDone_within _ _) rfl <| fanDown_senses <| .keep (withdrawFan_within _) rfl <| .keep (modFan_within _ _) rfl h

theorem fanApply_senses {f : Fin 4} (h : Senses a v s) : Senses a v (fanApply f s) := by
  have hw := Senses.keep (withdrawFan_within f) rfl h
  unfold fanApply
  split
  · exact h
  · refine .ite h ?_
    extract_lets t mw s1 r ans s2
    have h2 : Senses a v s2 := place_senses hw
    exact .ite (.ite h <| .ite hw <| fanOff_senses h) <| .ite (.keep (fanStart_within _ _) rfl <| lowerGrant_senses hw) <|
      .ite (.keep (fanStart_within _ _) rfl h2) h2

theorem fansApply_senses (h : Senses a v s) : Senses a v (fansApply s) := by
  unfold fansApply
  refine .foldl (fun u f hu => ?_) h
  split
  · exact .ite hu <| fanApply_senses hu
  · exact hu

/-! #### Shedding and the power states -/

theorem shedTier_senses {t cause : Nat} (h : Senses a v s) : Senses a v (shedTier t cause s) := by
  unfold shedTier
  refine .ite h ?_
  extract_lets mw s1 s2 s3 s4 s5
  have h1 : Senses a v s1 := .foldl (fun _ _ hu => railShed_senses hu) h
  have h2 : Senses a v s2 := .ite (chgUpdate_senses h1) h1
  have h3 : Senses a v s3 := .ite (.keep (setBud_within _ _) rfl <| lendAbort_senses h2) h2
  have h4 : Senses a v s4 := .foldl (fun _ _ hu => fanShed_senses hu) h3
  have h5 : Senses a v s5 := .foldl (fun _ _ hu => .keep (setBud_within _ _) rfl hu) h4
  exact .keep (budEvent_within _ _ _ _) rfl <| .keep (countReg_within _ _ _ _) rfl h5

theorem arbitrateN_senses {fuel : Nat} (h : Senses a v s) : Senses a v (arbitrateN fuel s) := by
  induction fuel generalizing s with
  | zero =>
    unfold arbitrateN
    extract_lets s1 excess
    have h1 : Senses a v s1 := fitCharger_senses h
    exact .ite (.keep (modBud_within _) rfl h1) <| .ite h1 <| .keep (budEvent_within _ _ _ _) rfl <|
      .keep (countReg_within _ _ _ _) rfl <| .keep (modBud_within _) rfl h1
  | succ n ih =>
    unfold arbitrateN
    extract_lets s1 excess
    have h1 : Senses a v s1 := fitCharger_senses h
    refine .ite (.keep (modBud_within _) rfl h1) ?_
    split
    · cases ‹n + 1 = _›
      exact ih <| shedTier_senses <| .keep (modBud_within _) rfl h1
    · exact .ite h1 <| .keep (budEvent_within _ _ _ _) rfl <| .keep (countReg_within _ _ _ _) rfl <| .keep (modBud_within _) rfl h1

theorem arbitrate_senses (h : Senses a v s) : Senses a v (arbitrate s) := arbitrateN_senses h

theorem restoreTier_senses {t : Nat} (h : Senses a v s) : Senses a v (restoreTier t s) := by
  unfold restoreTier
  refine .ite h ?_
  extract_lets s1 s2
  have h1 : Senses a v s1 := .keep (budEvent_within _ _ _ _) rfl h
  have h2 : Senses a v s2 := .ite (chgUpdate_senses h1) h1
  refine arbitrate_senses <| .foldl (fun u f hu => ?_) h2
  split
  · exact .ite (fanApply_senses hu) hu
  · exact hu

theorem shedChange_senses {before newly : Nat → Bool} {cause : Nat} (h : Senses a v s) :
    Senses a v (shedChange before cause newly s) := by
  unfold shedChange
  exact .foldl (fun _ _ hu => .ite (shedTier_senses hu) <| .ite (restoreTier_senses hu) hu) h

theorem hushRails_senses (h : Senses a v s) : Senses a v (hushRails s) := by
  unfold hushRails
  exact .foldl (fun _ _ hu => .ite (railIsolate_senses hu) hu) h

theorem hushFans_senses (h : Senses a v s) : Senses a v (hushFans s) := by
  unfold hushFans
  exact fansApply_senses <| .foldl (fun _ _ hu => .keep (modFan_within _ _) rfl hu) h

theorem enterHush_senses (h : Senses a v s) : Senses a v (enterHush s) := by
  unfold enterHush
  exact .keep hushSeqs_within rfl <| hushFans_senses <| .keep hushClock_within rfl <| .keep hostDown_within rfl <| hushRails_senses <|
    .modPwr rfl rfl h

theorem enterOutage_senses {d : Nat} (h : Senses a v s) : Senses a v (enterOutage d s) := by
  unfold enterOutage
  exact .keep (event_within _ _ _ _ _) rfl <| .keep fireOutage_within rfl <| arbitrate_senses <| chgUpdate_senses <| .modPwr rfl rfl h

theorem enterFull_senses (h : Senses a v s) : Senses a v (enterFull s) := by
  unfold enterFull
  exact .keep (event_within _ _ _ _ _) rfl <| .keep fireRestore_within rfl <| arbitrate_senses <| chgUpdate_senses <| .modPwr rfl rfl <|
    .ite (.keep rootWake_within rfl h) h

theorem judge_senses {d : Nat} (h : Senses a v s) : Senses a v (judge d s) := by
  unfold judge
  refine .ite h <| .ite (.keep owlsSettle_within rfl <| .keep factState_within rfl h) ?_
  extract_lets s1 s2
  have h1 : Senses a v s1 := .ite (.keep hushless_within rfl <| enterOutage_senses h) <| .ite (enterFull_senses h) h
  have h2 : Senses a v s2 := .ite (.keep rootWake_within rfl <| .modPwr rfl rfl h1) h1
  exact .keep owlsSettle_within rfl <| .ite (enterHush_senses h2) h2

theorem hostFell_senses (h : Senses a v s) : Senses a v (hostFell s) := by
  unfold hostFell
  exact .ite (.keep hostDown_within rfl <| judge_senses h) (judge_senses h)

/-! #### Start graphs -/

theorem endRun_senses {k : Fin 16} {g : Graph} {down : Bool} (h : Senses a v s) : Senses a v (endRun k g down s) := by
  unfold endRun
  extract_lets ok host st upNow s1 s2 s3 s4
  have h4 : Senses a v s4 := .keep (completeOpt_within _ _ _ _) rfl <| .keep (event_within _ _ _ _ _) rfl <| .modPwr rfl rfl <|
    .keep (modGraph_within _ _) rfl h
  exact .keepCalm (afterRun_within _) rfl <| .ite h4 <| .ite (hostFell_senses h4) (judge_senses h4)

theorem settleOne_senses {k : Fin 16} (h : Senses a v s) : Senses a v (settleOne k s) := by
  unfold settleOne
  split
  · exact h
  · rename_i g _
    have he : ∀ d, Senses a v (endRun k g d s) := fun _ => endRun_senses h
    have h1 := Senses.keep (modGraph_within k fun x => { x with unwinding := true, state := .runDown }) rfl h
    exact .ite h <| .ite h <| .ite (.ite (he _) h) <| .ite (.ite (he _) h) <|
      .ite (.ite (he _) <| .ite (.keep owlsSettle_within rfl <| .modPwr rfl rfl h1) h1) <| .ite h (he _)

theorem settle_senses (h : Senses a v s) : Senses a v (settle s) := by
  unfold settle
  exact .foldl (fun _ _ hu => settleOne_senses hu) <| .foldl (fun _ _ hu => settleOne_senses hu) h

/-! #### Faults -/

theorem motorStopNow_senses {m : Fin 2} {coast : Bool} (h : Senses a v s) : Senses a v (motorStopNow m coast s) := by
  unfold motorStopNow
  split
  · exact h
  · extract_lets s1 stopping s2 s3
    have h1 : Senses a v s1 := .keep (withdrawDemand_within _) rfl h
    have h3 : Senses a v s3 := release_senses <| .keep (modMotor_within _ _) rfl h1
    exact .ite (.ite (.keep (modMotor_within _ _) rfl h3) <| .ite h3 <| .keep (motorBrake_within _ _) rfl h3) <|
      .ite (motorRest_senses h1) h1

theorem relayIsolate_senses {k : Fin 48} {n : Fin 192} (h : Senses a v s) : Senses a v (relayIsolate k n s) := by
  unfold relayIsolate
  split
  · exact .ite (.keep (raiseAgain_within _ _ _) rfl <| relayCut_senses h) h
  · exact h

theorem isolateBase_senses {n : Fin 192} (h : Senses a v s) : Senses a v (isolateBase n s) := by
  unfold isolateBase
  split
  · exact railIsolate_senses h
  · exact relayIsolate_senses h
  · exact .ite (motorStopNow_senses <| .keep (hubItem_within _ _ _) rfl h) h
  · exact fanFails_senses h
  · exact .ite (.keep (portStop_within _) rfl h) h
  · exact .ite (setChg_senses h) <| .ite (lendAbort_senses h) <| .ite (liftAbortFree_senses h) <|
      .ite (.keep usbRelease_within rfl h) h

theorem shedBy_senses {s0 : State} {n : Nat} (h : Senses a v s) : Senses a v (shedBy s0 n s) := by
  unfold shedBy
  exact .ite (shedTier_senses h) h

theorem shedAndReset_senses {s0 : State} {n : Nat} (h : Senses a v s) : Senses a v (shedAndReset s0 n s) := by
  unfold shedAndReset
  exact .ite (.keep hostRst_within rfl <| shedBy_senses h) (shedBy_senses h)

theorem raiseBase_senses {n : Fin 192} {d : Nat} {present : Bool} (h : Senses a v s) :
    Senses a v (raiseBase n d present s) := by
  unfold raiseBase
  have h1 := Senses.keep (latchCapture_within n d present) rfl h
  exact .ite (.keep (raiseAgain_within _ _ _) rfl h) <| .keep (faultNotify_within _ _) rfl <| shedAndReset_senses <|
    .ite (isolateBase_senses h1) h1

theorem laneLost_senses {n : Fin 48} (h : Senses a v s) : Senses a v (laneLost n s) := by
  unfold laneLost
  split
  · split
    · exact .ite (raiseBase_senses h) h
    · exact h
  · exact h

theorem laneStops_senses {n : Fin 48} (h : Senses a v s) : Senses a v (laneStops n s) := by
  unfold laneStops
  have h1 := Senses.keep (laneStop_within n) rfl h
  exact .ite h <| .ite (laneLost_senses h1) h1

theorem raiseLane_senses {n : Fin 48} {d : Nat} {present : Bool} (h : Senses a v s) :
    Senses a v (raiseLane n d present s) := by
  unfold raiseLane
  extract_lets k s1 s2
  have h1 : Senses a v s1 := .keep (latchCapture_within _ _ _) rfl h
  have h2 : Senses a v s2 := .ite (laneStops_senses h1) h1
  exact .ite (.keep (raiseAgain_within _ _ _) rfl h) <| .keep (faultNotify_within _ _) rfl <| shedAndReset_senses h2

theorem raiseAs_senses {n d : Nat} {present : Bool} (h : Senses a v s) : Senses a v (raiseAs n d present s) := by
  unfold raiseAs
  split
  · exact settle_senses <| raiseLane_senses h
  · exact .ite (settle_senses <| raiseBase_senses h) h
  · exact h

theorem raise_senses {n d : Nat} (h : Senses a v s) : Senses a v (raise n d s) := raiseAs_senses h

theorem raiseOnce_senses {n d : Nat} (h : Senses a v s) : Senses a v (raiseOnce n d s) := by
  unfold raiseOnce
  exact .ite h (raise_senses h)

theorem isolateNow_senses {n : Fin 192} (h : Senses a v s) : Senses a v (isolateNow n s) := by
  unfold isolateNow
  split
  · exact settle_senses <| laneStops_senses h
  · exact settle_senses <| isolateBase_senses h

theorem setReact_senses {n : Fin 192} {mask : Word} (h : Senses a v s) : Senses a v (setReact n mask s) := by
  unfold setReact
  extract_lets s1 s2
  have h1 : Senses a v s1 := .keep (setReg_within _ _) rfl h
  have h2 : Senses a v s2 := .ite (isolateNow_senses h1) h1
  exact shedChange_senses h2

theorem refSelect_senses (h : Senses a v s) : Senses a v (refSelect s) := by
  unfold refSelect
  exact .ite (.keep toEmber_within rfl h) <| .ite (raiseAs_senses <| .keep toXclk_within rfl h) h

theorem retireTold_senses {b : Fin 2} {d : Nat} (h : Senses a v s) : Senses a v (retireTold b d s) := by
  unfold retireTold
  exact .keep (sendVector_within _) rfl <| .keep (event_within _ _ _ _ _) rfl <| raise_senses h

/-! #### Gauge and battery capacity -/

theorem socAt_senses {b : Nat} (h : Senses a v s) : Senses a v (socAt b s).2 := .of_within (socAt_within _ (.refl _ _)) h

theorem gaugeVolts_senses {b : Nat} (h : Senses a v s) : Senses a v (gaugeVolts b s) := by
  unfold gaugeVolts
  extract_lets lb s1 v'
  have hl : Senses a v lb.2 := by
    show Senses a v (if flat s b then ((120, s) : Nat × State) else socAt b s).2
    split
    · exact h
    · exact socAt_senses h
  have h1 : Senses a v s1 := .modChg rfl hl
  have hv : Senses a v v'.2 := by
    show Senses a v (if flat s b then (if b = pack s 3200 then 120 else 950, s1) else (lb.1, s1)).2
    split <;> exact h1
  exact .ite (.modChg rfl hv) (.modChg rfl h1)

theorem judgeLow_senses (h : Senses a v s) : Senses a v (judgeLow s) := by
  unfold judgeLow
  exact .ite (.keep (orReg_within _ _) rfl <| .modChg rfl h) (.modChg rfl h)

theorem rebase_senses {q : Int} (h : Senses a v s) : Senses a v (rebase q s) := by
  unfold rebase
  exact .keep (event_within _ _ _ _ _) rfl <| .keep (countReg_within _ _ _ _) rfl <| .modChg rfl h

theorem judgeDerate_senses (h : Senses a v s) : Senses a v (judgeDerate s) := by
  unfold judgeDerate
  exact .ite (.modChg rfl h) <| .ite (.keep (event_within _ _ _ _ _) rfl <| .modChg rfl h) <|
    .ite (.keep (event_within _ _ _ _ _) rfl <| .modChg rfl h) h

theorem roundOpen_senses {n d : Nat} (h : Senses a v s) : Senses a v (roundOpen n d s).2 :=
  .of_within (roundOpen_within _ _ (.refl _ _)) h

/-- The sample it takes is the voltage that was seen before. -/
theorem capBattUpdate_senses (h : Senses a v s) : Senses a v (capBattUpdate v s) := by
  unfold capBattUpdate
  have hs : Senses a v (sawBatsns v s) := ⟨h.burrowing, h.acin, rfl⟩
  exact .ite h <| arbitrate_senses <| .keep (modBud_within _) rfl <| roundOpen_senses <| judgeDerate_senses hs

/-! #### Comparators and sense inputs -/

theorem tamperReport_senses {i : Fin 8} {side pst : Nat} {t : Time} (h : Senses a v s) :
    Senses a v (tamperReport i side pst t s) := by
  unfold tamperReport
  exact .keep (tamperFires_within _ _) rfl <| .keep (sendVector_within _) rfl <| .keep (event_within _ _ _ _ _) rfl <| raise_senses <|
    .keep (modTamper_within _ _) rfl <| .keep (tamperCommit_within _ _ _ _ _ _) rfl h

theorem tamperEdge_senses {i : Fin 8} {side : Nat} {raw : Time} (h : Senses a v s) :
    Senses a v (tamperEdge i side raw s) := by
  unfold tamperEdge
  exact .ite h <| .ite (.ite h <| .keep (modTamper_within _ _) rfl h) <|
    .ite (.keep (tamperAgain_within _) rfl <| .keep (modTamper_within _ _) rfl h) (tamperReport_senses h)

theorem tamperAfterScan_senses (h : Senses a v s) : Senses a v (tamperAfterScan s) := by
  unfold tamperAfterScan
  extract_lets s1 s2
  have h1 : Senses a v s1 := .foldl (fun _ _ hu => .ite (.keep (tamperCommit_within _ _ _ _ _ _) rfl <| drawNat_senses <|
    drawNat_senses hu) hu) h
  have h2 : Senses a v s2 := .modPwr rfl rfl h1
  refine .foldl (fun u i hu => ?_) h2
  split
  · exact .keep (tamperRests_within _) rfl <| tamperReport_senses <| .keep (modTamper_within _ _) rfl hu
  · exact hu

theorem tmpChange_senses {i : Fin 16} {act : Bool} {side : Nat} {raw : Time} (h : Senses a v s) :
    Senses a v (tmpChange i act side raw s) := by
  unfold tmpChange
  split
  · exact .ite (tamperEdge_senses <| .keep (countReg_within _ _ _ _) rfl h) (.keep (tamperReturns_within _) rfl h)
  · exact h

theorem fcTakes_senses {i : Fin 16} {act : Bool} {side : Nat} {raw : Time} (h : Senses a v s) :
    Senses a v (fcTakes i act side raw s) := by
  unfold fcTakes
  exact tmpChange_senses <| .keep (fcEvent_within _ _) rfl <| .keep (compEdge_within _) rfl <| .keep (mainsNotes_within _ _) rfl h

theorem fcSet_senses {i : Fin 16} {lv : CompLevel} {raw : Time} (h : Senses a v s) : Senses a v (fcSet i lv raw s) := by
  unfold fcSet
  extract_lets x act s1
  have h1 : Senses a v s1 := .keep (modFc_within _ _) rfl h
  exact .ite h1 (fcTakes_senses h1)

theorem fcRemode_senses {i : Fin 16} (h : Senses a v s) : Senses a v (fcRemode i s) := by
  unfold fcRemode
  extract_lets x s1
  have h1 : Senses a v s1 := .keep (modFc_within _ _) rfl h
  exact .ite (.ite (fcTakes_senses h1) h1) <| .ite (fcSet_senses h) h

theorem combine_senses (h : Senses a v s) : Senses a v (combine s) := by
  unfold combine
  have h1 := Senses.keep (setReg_within 0x7014 (timeLo (now s))) rfl <|
    Senses.modPwr (f := fun p => { p with mains := bothSns s }) rfl rfl h
  exact .ite h <| judge_senses <| .ite (.keep (countReg_within _ _ _ _) rfl h1) (.keep (countReg_within _ _ _ _) rfl h1)

theorem setInputs_senses {w : StartWorld} (h : Senses a v s) : Senses a v (setInputs w s) := by
  unfold setInputs
  extract_lets t in1 m s1
  have h1 : Senses a v s1 := .ite (.keep (modFc_within _ _) rfl h) h
  exact combine_senses ⟨h1.burrowing, h1.acin, h1.volts⟩

theorem judgeGroups_senses (h : Senses a v s) : Senses a v (judgeGroups s) := by
  unfold judgeGroups
  exact .foldl (fun _ _ hu => .foldl (fun _ _ ht => .ite (raiseOnce_senses ht) (.keep (endCause_within _ _) rfl ht)) hu) h

/-! #### Register stores of the image (R31, R39) -/

theorem leashReturn_senses {c : Word} {s0 : State} (h : Senses a v s) : Senses a v (leashReturn c s0 s) := by
  unfold leashReturn
  extract_lets s1 s2 s3
  have h1 : Senses a v s1 := .ite (.keep (regain_within _) rfl h) h
  have h2 : Senses a v s2 := .ite (.foldl (fun _ _ hu => .foldl (fun _ _ ht => .keep (rejoin_within _) rfl ht) hu) h1) h1
  have h3 : Senses a v s3 := .ite (fansApply_senses h2) h2
  exact .ite (arbitrate_senses h3) h3

theorem applyUse_senses {n : Fin 48} (h : Senses a v s) : Senses a v (applyUse n s) := by
  unfold applyUse
  exact .ite (.keep (modLane_within _ _) rfl <| laneStops_senses h) <| .ite (.keep (modLane_within _ _) rfl h) h

theorem storeLaneCfg_senses {n : Fin 48} {w : Word} (h : Senses a v s) : Senses a v (storeLaneCfg n w s) := by
  unfold storeLaneCfg
  extract_lets b moves busy w1 w2 s1 s2
  have h1 : Senses a v s1 := .keep (setReg_within _ _) rfl h
  have h2 : Senses a v s2 := .ite (.foldl (fun _ _ hu => .keep (modReg_within _ _) rfl hu) h1) h1
  exact .keep (setLimited_within _ _) rfl <| applyUse_senses h2

theorem storeLane_senses {n : Fin 48} {r : Nat} {m w : Word} (h : Senses a v s) : Senses a v (storeLane n r m w s) := by
  unfold storeLane
  extract_lets o w' x s1
  have h1 : Senses a v s1 := .keep (setLimited_within _ _) rfl <| .keep (setReg_within _ _) rfl h
  exact .ite (.keep (setLimited_within _ _) rfl h) <| .ite (storeLaneCfg_senses h) <| .ite (.keep (reclamp_within _) rfl h1) h1

theorem storeFc_senses {i : Fin 16} {r : Nat} {m w : Word} (h : Senses a v s) : Senses a v (storeFc i r m w s) := by
  unfold storeFc
  have h1 := Senses.keep (storeListed_within (0x7680 + i.val * 0x10 + r) m w) rfl h
  exact .ite (fcRemode_senses h1) h1

theorem rehost_senses {s0 : State} (h : Senses a v s) : Senses a v (rehost s0 s) := by
  unfold rehost
  exact .ite h <| judge_senses <| .modPwr rfl rfl h

theorem afterStore_senses {o : Nat} {s0 : State} (h : Senses a v s) : Senses a v (afterStore o s0 s) := by
  unfold afterStore
  have hc := arbitrate_senses <| chgUpdate_senses h
  have ht := Senses.keep clampedEnds_within rfl <| Senses.keep (holdTrim_within ((o - 0x8000) / 4) (trimWord s0 ((o - 0x8000) / 4))) rfl h
  exact .ite (rehost_senses h) <| .ite (refSelect_senses <| .ite h <| .keep sofStops_within rfl h) <| .ite hc <|
    .ite (.ite h <| judgeLow_senses hc) <| .ite (combine_senses h) <| .ite (judgeGroups_senses h) <|
    .ite (.ite (.keep setTrimmed_within rfl ht) ht) <| .ite (.keep seedEmber_within rfl h) <|
    .ite (.ite (.keep usbReattach_within rfl h) (.keep usbRelease_within rfl h)) <| .ite (leashReturn_senses h) h

theorem store_senses {o : Nat} {m w : Word} (h : Senses a v s) : Senses a v (store o m w s) := by
  unfold store
  refine .ite ?lane <| .ite ?react <| .ite ?dsel <| .ite ?wm <| .ite ?fc <| .ite (.keep (storeTwb_within _ _ _) rfl h) <|
    .ite (.keep (storeOwl_within _ _ _) rfl h) <| afterStore_senses <| .keep (storeListed_within _ _ _) rfl h
  case lane =>
    split
    · exact settle_senses <| storeLane_senses h
    · exact h
  case react =>
    split
    · exact setReact_senses h
    · exact h
  case dsel =>
    split
    · exact .keep (setDsel_within _ _) rfl h
    · exact h
  case wm =>
    split
    · exact .keep (storeWm_within _ _ _ _) rfl h
    · exact h
  case fc =>
    split
    · exact storeFc_senses h
    · exact h

/-! #### The steps of the start -/

theorem setChem_senses {li : Bool} (h : Senses a v s) : Senses a v (setChem li s) := by
  unfold setChem
  exact .keep (modReg_within _ _) rfl <| .keep (setReg_within _ _) rfl <| .modChg rfl h

theorem chargerStarts_senses (h : Senses a v s) : Senses a v (chargerStarts s) := by
  unfold chargerStarts
  exact .ite h <| setChg_senses <| .ite (rebase_senses <| .modPwr rfl rfl h) h

theorem closeBattery_senses {w : StartWorld} (h : Senses a w.batsns s) : Senses a w.batsns (closeBattery w s) := by
  unfold closeBattery
  extract_lets s1 s2 s3
  have h1 : Senses a w.batsns s1 := .keep (modClk_within _) rfl <| .modPwr rfl rfl h
  have h2 : Senses a w.batsns s2 := 
    have g := Senses.ite (p := battless s = true) h1 (gaugeVolts_senses (b := w.batsns) h1)
    ⟨g.burrowing, g.acin, g.volts⟩
  have h3 : Senses a w.batsns s3 := chargerStarts_senses <| capBattUpdate_senses h2
  exact .keep (judgeBanks_within _) rfl h3

theorem applyPair_senses {o : Nat} {w : Word} (h : Senses a v s) : Senses a v (applyPair o w s) := by
  unfold applyPair
  exact .ite (.keep (countReg_within _ _ _ _) rfl h) (store_senses h)

theorem applyPairs_senses {c : Fin 2} {n k : Nat} (h : Senses a v s) : Senses a v (applyPairs c n k s) := by
  induction n generalizing k s with
  | zero => exact h
  | succ n ih =>
    unfold applyPairs
    exact .ite h <| ih <| applyPair_senses h

theorem applyImage_senses {c : Fin 2} (h : Senses a v s) : Senses a v (applyImage c s) := by
  unfold applyImage
  extract_lets w s1 s2 s3 s4 s5 s6
  have h1 : Senses a v s1 := ⟨h.burrowing, h.acin, h.volts⟩
  have h2 : Senses a v s2 := .ite (setChem_senses h1) h1
  have h4 : Senses a v s4 := .keep (setReg_within _ _) rfl <| .modPwr rfl rfl h2
  exact applyPairs_senses <| .keep (modReg_within _ _) rfl <| refSelect_senses <| .keep (modReg_within _ _) rfl h4

theorem imageStep_senses (h : Senses a v s) : Senses a v (imageStep s) := by
  unfold imageStep
  extract_lets s1
  have h1 : Senses a v s1 := .modPwr rfl rfl h
  refine .ite h1 ?_
  split
  · exact applyImage_senses h1
  · exact h1

theorem enterState_senses (h : Senses a v s) : Senses a v (enterState s) := by
  unfold enterState
  refine .ite (.keep owlsSettle_within rfl <| arbitrate_senses <| chgUpdate_senses <| .modPwr rfl rfl h) ?_
  extract_lets s1
  have h1 : Senses a v s1 := chgUpdate_senses <| .modPwr rfl rfl h
  exact .keep owlsSettle_within rfl <| arbitrate_senses <| .ite h1 <| .keep hushClock_within rfl h1

theorem modBank_senses {b : Fin 2} {f : Bank → Bank} (h : Senses a v s) : Senses a v (modBank b f s) :=
  ⟨h.burrowing, h.acin, h.volts⟩

theorem scanRetires_senses {b : Fin 2} {d : Nat} (h : Senses a v s) : Senses a v (scanRetires b d s) := by
  unfold scanRetires
  exact .ite (retireTold_senses <| modBank_senses h) h

theorem repairBank_senses {b : Fin 2} (h : Senses a v s) : Senses a v (repairBank b s) := by
  unfold repairBank
  extract_lets good bad ms s1
  have h1 : Senses a v s1 := .keep (countReg_within _ _ _ _) rfl <| modBank_senses h
  exact .ite h <| .ite h <| .ite (scanRetires_senses h1) h1

theorem scanBanks_senses {readA readB : Bool} (h : Senses a v s) : Senses a v (scanBanks readA readB s) := by
  unfold scanBanks
  extract_lets s1 s2 s3
  have h1 : Senses a v s1 := ⟨h.burrowing, h.acin, h.volts⟩
  have h2 : Senses a v s2 := .ite h1 (scanRetires_senses h1)
  have h3 : Senses a v s3 := .ite h2 (scanRetires_senses h2)
  exact repairBank_senses <| repairBank_senses <| .keep voidTorn_within rfl h3

theorem stillRetired_senses (h : Senses a v s) : Senses a v (stillRetired s) := by
  unfold stillRetired
  exact .foldl (fun _ _ hu => .ite hu <| raise_senses <| drawNat_senses hu) h

theorem scanStep_senses {w : StartWorld} (h : Senses a v s) : Senses a v (scanStep w s) := by
  unfold scanStep
  exact tamperAfterScan_senses <| .keep (bankTold_within _) rfl <| .keep project_within rfl <| stillRetired_senses <|
    scanBanks_senses h

end

/-! ### The start reaches its end (R31) -/

/-- The start has begun in the world `w`: VDEN is up, DEN_TIME counts from 0, the straps and the supply are those read. -/
structure Begun (w : StartWorld) (s : State) : Prop where
  senses : Senses w.acinValid w.batsns s
  den : s.den = { Den.reset with up := true }
  strap : s.pwr.strap = strapWord w

/-- Every part but the Den domain's supply and the straps. -/
def besideSupply : Nat := 0x6fffffffffdf

section
variable {w : StartWorld} {s t : State}

theorem Begun.started (h : Begun w s) : Started w s := ⟨h.den, h.strap⟩

theorem started_keep {A : Nat} (g : Within besideSupply s s → Sub A besideSupply → Within besideSupply s t)
    (hA : A &&& besideSupply = A) (h : Started w s) : Started w t :=
  have k := g (.refl _ _) (.of hA)
  ⟨(k.keeps .den rfl).trans h.1, (k.keeps .strap rfl).trans h.2⟩

theorem Begun.keep {A : Nat} (g : Within besideSupply s s → Sub A besideSupply → Within besideSupply s t)
    (hA : A &&& besideSupply = A) (hs : Senses w.acinValid w.batsns t) (h : Begun w s) : Begun w t :=
  have k := started_keep g hA h.started
  ⟨hs, k.1, k.2⟩

theorem Begun.keepCalm {A : Nat} (g : Within besideSupply s s → Sub (orAll s A) besideSupply → Within besideSupply s t)
    (hA : A &&& besideSupply = A) (hs : Senses w.acinValid w.batsns t) (h : Begun w s) : Begun w t :=
  h.keep (fun k hl => g k (.calm h.senses.burrowing hl)) hA hs

theorem wake_begun {why : Word} : Begun w (wake why w s) :=
  ⟨⟨wake_burrowing .., wake_acinValid .., wake_batsns ..⟩, wake_den .., wake_strap ..⟩

theorem chargerStartup_begun (h : Begun w s) : Begun w (chargerStartup s) := by
  refine h.keep chargerStartup_within rfl ?_
  unfold chargerStartup
  exact .ite h.senses (setChg_senses h.senses)

/-- Steps 6 to 10: what runs between the two battery checks. -/
theorem beforeProceed_begun (h : Begun w s) :
    Begun w (scanStep w (enterState (setInputs w (imageStep (closeBattery w (hold .none .heldBattery s)))))) := by
  have h1 : Begun w (hold .none .heldBattery s) := h.keep (hold_within _ _) rfl (.modPwr rfl rfl h.senses)
  have h2 := h1.keep (closeBattery_within _) rfl (closeBattery_senses h1.senses)
  have h3 := h2.keepCalm imageStep_within rfl (imageStep_senses h2.senses)
  have h4 := h3.keep (setInputs_within w) rfl (setInputs_senses h3.senses)
  have h5 := h4.keep enterState_within rfl (enterState_senses h4.senses)
  exact h5.keepCalm (scanStep_within w) rfl (scanStep_senses h5.senses)

/-- The world's supply is enough to start on, by its voltage or by ACIN. -/
theorem Begun.not_tooLow (h : Begun w s) (hp : 10000 ≤ w.batsns ∨ w.acinValid = true) :
    battTooLow s = false := by
  obtain hv | ha := hp
  · exact battTooLow_of_volts (h.senses.volts ▸ (lowMv_le s).trans hv)
  · exact battTooLow_of_acin (h.senses.acin.trans ha)

/-- The second battery check finds what the first one did, so the start goes on. -/
theorem proceed_started (h : Begun w s) (hp : 10000 ≤ w.batsns ∨ w.acinValid = true) : Started w (proceed s) := by
  unfold proceed
  rw [h.not_tooLow hp]
  dsimp only
  have hh : ∀ b st, Started w (hold b st s) := fun b st => started_keep (hold_within b st) rfl h.started
  split
  · exact absurd ‹_› (by simp)
  · split
    · exact hh ..
    · split
      · exact hh ..
      · split
        · exact started_keep (fun k hl => bootObjects_within _ k (.calm h.senses.burrowing hl)) rfl h.started
        · exact hh ..

theorem startUp_started {why : Word} (hp : 10000 ≤ w.batsns ∨ w.acinValid = true) : Started w (startUp why w s) := by
  have hb : Begun w (wake why w s) := wake_begun
  have hc := chargerStartup_begun hb
  cases hh : holdsOpen (battHold false (wake why w s)) (wake why w s) with
  | true =>
    rw [startUp_holds (hb.not_tooLow hp) hh]
    exact started_keep (hold_within _ _) rfl hc.started
  | false =>
    rw [startUp_runs (hb.not_tooLow hp) hh]
    exact started_keep usbReattach_within rfl (proceed_started (beforeProceed_begun hc) hp)

end

/-- Settles O8: nothing between the two battery checks changes what they read (`beforeProceed_begun`), so a start that
passes the first passes the second, and VDEN stays up. The premise on a battery-less build's source is not needed:
10.0 V or ACIN passes the check in every build. -/
theorem startsStart : Obligations.StartsStart := by
  unfold Obligations.StartsStart
  intro w s hd _ hp
  refine ⟨fun hb hs => ⟨_, rfl, ?_⟩, fun hb hu => ⟨_, rfl, ?_⟩, fun hb ha => ⟨_, rfl, ?_⟩, fun hs => ⟨_, rfl, ?_⟩⟩
  · rw [coldStart_starts hd hb hs]
    exact startUp_started hp
  · rw [show exitBtn w s = startUp 8 w s by simp [exitBtn, hd, hb, hu]]
    exact startUp_started hp
  · rw [show exitAcin w s = startUp 16 w s by simp [exitAcin, hd, hb, ha]]
    exact startUp_started hp
  · rw [show offTimeEnd w s = startUp 0 w s by simp [offTimeEnd, hs]]
    exact startUp_started hp

end Sys2Proof.Machine

namespace Sys2Proof.Machine

/-! ### The idle microsecond (R62, R205, R206) -/

theorem step_idle {s : State} (h : s.pending = []) : step s = .next (idle s) := by
  unfold step
  rw [h]

/-- What the microsecond brings beside the charger's timers leaves the charger. -/
theorem tick_chg (s : State) : (tick s).chg = (chgTick s).chg := by
  have lanes : Within 0x40038000002 (chgTick s) ((fins 48).foldl (fun t r => railTick r t) (measuresEnd (chgTick s))) :=
    .foldl (fun _ r h => railTick_within r h (Sub.of rfl)) (measuresEnd_within (.refl _ _) (Sub.of rfl))
  have owls := corePass_within (owlTick_within 1 (owlTick_within 0 lanes (Sub.of rfl)) (Sub.of rfl)) (Sub.of rfl)
  have all : Within 0x40038000002 (chgTick s) (tick s) := .ite owls lanes
  exact all.keeps .chg rfl

/-- The state in which DEN_TIME has counted the microsecond that goes by. -/
def timeCounted (s : State) : State := { s with den := { s.den with time := s.den.time + 1 } }

theorem idle_chg {s : State} (h : s.den.up = true) : (idle s).chg = (chgTick (timeCounted s)).chg := by
  unfold idle
  rw [if_pos h]
  exact tick_chg (timeCounted s)

theorem idle_den {s : State} (h : s.den.up = true) : (idle s).den = { s.den with time := s.den.time + 1 } := by
  unfold idle
  rw [if_pos h]
  exact (tick_within (L := 0x40138000002) (.refl _ _) (Sub.of rfl)).keeps .den rfl

theorem idle_frame (s : State) : Frame [.regs, .den, .flt, .lanes, .rails, .chg, .owl] s (idle s) := by
  have w : Within (partMask [.regs, .den, .flt, .lanes, .rails, .chg, .owl]) s (idle s) :=
    idle_within (.refl _ s) (Sub.of (by decide))
  exact (WithinOut.next w).frame rfl

section
variable (s : State)

theorem chgTick_state : (chgTick s).chg.state = s.chg.state := rfl

theorem chgTick_preTime : (chgTick s).chg.preTime =
    if s.chg.state = .precharge then s.chg.preTime + 1 else s.chg.preTime := rfl

theorem chgTick_safety : (chgTick s).chg.safety = if s.chg.state = .cc ∨ s.chg.state = .cv then
    s.chg.safety + (if rfld s 0x5408 9 0 * 5 ≤ batteryMa s then 2 else 1) else s.chg.safety := by
  simp [chgTick]

theorem chgTick_safety_counts (h : s.chg.state = .cc ∨ s.chg.state = .cv) :
    (chgTick s).chg.safety = s.chg.safety + 1 ∨ (chgTick s).chg.safety = s.chg.safety + 2 := by
  rw [chgTick_safety, if_pos h]
  split
  · exact .inr rfl
  · exact .inl rfl

end

/-- Settles O2: DEN_TIME by `idle_den`, what stands by `idle_frame`, the charger by `idle_chg`, for nothing but its own
timers moves in it. -/
theorem stepIdles : Obligations.StepIdles := by
  unfold Obligations.StepIdles
  intro s hp
  refine ⟨fun hd => ?_, fun hd => ⟨idle s, step_idle hp, idle_den hd, idle_frame s, ?_⟩⟩
  · rw [step_idle hp, idle, hd]
    rfl
  · rw [idle_chg hd]
    refine ⟨chgTick_state (timeCounted s), fun hc hv => ?_, chgTick_safety_counts (timeCounted s),
      chgTick_preTime (timeCounted s)⟩
    rw [chgTick_safety]
    exact if_neg (not_or.2 ⟨hc, hv⟩)

/-! ### The ember trim (R49 to R51, R328, R365) -/

theorem clampI_bounds {lo hi : Int} (h : lo ≤ hi) (v : Int) : lo ≤ clampI lo hi v ∧ clampI lo hi v ≤ hi := by
  unfold clampI
  split_ifs <;> omega

theorem leashEdge_clk (q : Nat) (h : Word) (d : Nat) (v : DWord) (s : State) : (leashEdge q h d v s).clk = s.clk :=
  (leashEdge_within (L := 0x4a083) q h d v (.refl _ s) (Sub.of rfl)).keeps .clk rfl

/-- CODE after a window that asks for `want` steps: within the window's 64, at the leash where it can reach it. -/
def codeAfter (want : Int) (s : State) : Int :=
  clampI (-1024) 1023 (clampI (s.clk.code - 64) (s.clk.code + 64)
    (clampI (emberMin s) (emberMax s) (s.clk.code + clampI (-64) 64 want)))

theorem trimCode_clk (want : Int) (s : State) : ∃ hit, (trimCode want s).clk =
    { s.clk with code := codeAfter want s, leashHit := hit } := by
  unfold trimCode
  dsimp only
  split
  · exact ⟨_, leashEdge_clk _ _ _ _ _⟩
  · exact ⟨_, rfl⟩

theorem codeAfter_bounds (want : Int) {s : State} (h1 : -1024 ≤ s.clk.code) (h2 : s.clk.code ≤ 1023) :
    (s.clk.code - 64 ≤ codeAfter want s ∧ codeAfter want s ≤ s.clk.code + 64) ∧
      (-1024 ≤ codeAfter want s ∧ codeAfter want s ≤ 1023) := by
  unfold codeAfter
  generalize clampI (emberMin s) (emberMax s) _ = inside
  obtain ⟨hl, hh⟩ := clampI_bounds (show s.clk.code - 64 ≤ s.clk.code + 64 by omega) inside
  generalize clampI (s.clk.code - 64) (s.clk.code + 64) inside = step at *
  refine ⟨?_, clampI_bounds (by decide) step⟩
  unfold clampI
  split_ifs <;> omega

theorem trimStep_clk (n : Nat) (s : State) : (trimStep n s).2.clk = s.clk := by
  unfold trimStep
  dsimp only
  split <;> rfl

/-- A trim keeps its source and moves CODE within its step and its 11 bits (R365). -/
theorem trimBy_moves (n : Nat) {s : State} (h1 : -1024 ≤ s.clk.code) (h2 : s.clk.code ≤ 1023) :
    (trimBy n s).clk.src = s.clk.src ∧
      (s.clk.code - 64 ≤ (trimBy n s).clk.code ∧ (trimBy n s).clk.code ≤ s.clk.code + 64) ∧
      (-1024 ≤ (trimBy n s).clk.code ∧ (trimBy n s).clk.code ≤ 1023) := by
  unfold trimBy
  have e := trimStep_clk n (trimLock n s)
  obtain ⟨hit, hc⟩ := trimCode_clk (trimStep n (trimLock n s)).1 (trimStep n (trimLock n s)).2
  have hcode : (trimStep n (trimLock n s)).2.clk.code = s.clk.code := by rw [e]; rfl
  rw [hc, ← hcode]
  refine ⟨?_, codeAfter_bounds _ (by rwa [hcode]) (by rwa [hcode])⟩
  dsimp only
  rw [e]
  rfl

/-- An interval outside 8,000 ± 80 cycles (R50). -/
theorem sof_outside {n : Nat} : 80 < ((n : Int) - 8000).natAbs ↔ 8080 < n ∨ n < 7920 := by omega

section
variable (n : Nat) {s : State}

theorem trimWindow_trims (hd : s.den.up = true) (hx : s.clk.xPresent = true) (hp : s.pwr.pstate ≠ .hush) :
    trimWindow n s = trimBy n (modClk (fun c => { c with src := .xclk }) s) := by
  simp [trimWindow, inHush, hd, hx, hp]

theorem sofMark_unseen (h : s.den.up = false ∨ s.usb.attached = false ∨ s.usb.suspended = true) : sofMark n s = s := by
  unfold sofMark
  rw [if_pos (by simpa [or_assoc] using h)]

variable (hd : s.den.up = true) (ha : s.usb.attached = true) (hs : s.usb.suspended = false)
include hd ha hs

theorem sofMark_counted (h : s.usb.configured = false ∨ rbit s 0x0104 1 = false ∨ s.clk.xPresent = true) :
    sofMark n s = countReg 0x9010 15 0 1 s := by
  unfold sofMark
  rw [if_neg (by simp [hd, ha, hs])]
  exact if_pos (by simpa [or_assoc] using h)

variable (hc : s.usb.configured = true) (hr : rbit s 0x0104 1 = true) (hx : s.clk.xPresent = false)
include hc hr hx

/-- Where marks are used, the interval trims ember or is discarded and counted. -/
theorem sofMark_used : sofMark n s =
    if 80 < ((n : Int) - 8000).natAbs then
      countReg 0x9010 31 16 1 (modClk (fun c => { c with src := .sof }) (countReg 0x9010 15 0 1 s))
    else trimBy n (modClk (fun c => { c with src := .sof }) (countReg 0x9010 15 0 1 s)) := by
  unfold sofMark
  rw [if_neg (by simp [hd, ha, hs])]
  exact if_neg (by simp [hc, hr, hx])

theorem sofMark_moves (h1 : -1024 ≤ s.clk.code) (h2 : s.clk.code ≤ 1023) : (sofMark n s).clk.src = .sof ∧
    s.clk.code - 64 ≤ (sofMark n s).clk.code ∧ (sofMark n s).clk.code ≤ s.clk.code + 64 := by
  rw [sofMark_used n hd ha hs hc hr hx]
  split
  · exact ⟨rfl, (by omega : s.clk.code - 64 ≤ s.clk.code), (by omega : s.clk.code ≤ s.clk.code + 64)⟩
  · obtain ⟨hsrc, hstep, -⟩ := trimBy_moves n
      (s := modClk (fun c => { c with src := .sof }) (countReg 0x9010 15 0 1 s)) h1 h2
    exact ⟨hsrc, hstep⟩

end

/-- Settles O15: `sofMark_used` takes its first branch for such an interval (`sof_outside`), and the other two cases are
`sofMark_counted` and `sofMark_unseen`. -/
theorem sofIntervalsAreDiscarded : Obligations.SofIntervalsAreDiscarded := by
  unfold Obligations.SofIntervalsAreDiscarded
  intro n s hn
  refine ⟨fun hd ha hs => ⟨?_, fun h => congrArg Host.Outcome.next (sofMark_counted n hd ha hs h)⟩,
    fun h => congrArg Host.Outcome.next (sofMark_unseen n h)⟩
  rintro hc hr hx u rfl
  exact congrArg Host.Outcome.next ((sofMark_used n hd ha hs hc hr hx).trans (if_pos (sof_outside.2 hn)))

/-- Settles O14: a window against XCLK and a used mark trim by `trimBy`, which moves CODE within its step. -/
theorem trimMovesWithinItsStep : Obligations.TrimMovesWithinItsStep := by
  unfold Obligations.TrimMovesWithinItsStep
  intro n s hd h1 h2
  refine ⟨fun hx hp => ⟨_, rfl, ?_⟩, fun ha hs hc hr hx => ⟨_, rfl, sofMark_moves n hd ha hs hc hr hx h1 h2⟩⟩
  rw [trimWindow_trims n hd hx hp]
  obtain ⟨hsrc, hstep, hbits⟩ := trimBy_moves n (s := modClk (fun c => { c with src := .xclk }) s) h1 h2
  exact ⟨hsrc, hstep.1, hstep.2, hbits⟩


/-! ### The reference and the root (R53 to R57, R66) -/

theorem endCause_clk (n d : Nat) (s : State) : (endCause n d s).clk = s.clk :=
  (endCause_within (L := 0x8000000) n d (.refl _ s) (Sub.of rfl)).keeps .clk rfl

theorem endCause_regs (n d : Nat) (s : State) : (endCause n d s).regs = s.regs :=
  (endCause_within (L := 0x8000000) n d (.refl _ s) (Sub.of rfl)).keeps .regs rfl

theorem rbit_of_regs {s t : State} (h : t.regs = s.regs) (o i : Nat) : rbit t o i = rbit s o i := by
  unfold rbit reg
  rw [h]

/-- The clock tree after a loop over the domains that leaves DEN: nothing changed but the domains. -/
theorem foldl_modDom_clk (f : State → Fin 9 → Domain → Domain) (l : List (Fin 9)) (s : State) : ∃ ds,
    (l.foldl (fun t d => if d = domDen then t else modDom d (f t d) t) s).clk = { s.clk with domains := ds } := by
  induction l generalizing s with
  | nil => exact ⟨_, rfl⟩
  | cons d l ih =>
    rw [List.foldl_cons]
    split
    · exact ih s
    · exact ih (modDom d (f s d) s)

theorem modDom_self (d : Fin 9) (f : Domain → Domain) (s : State) :
    (modDom d f s).clk.domains[d] = f s.clk.domains[d] := upd_self _ _ _

theorem modDom_ne {d e : Fin 9} (h : d ≠ e) (f : Domain → Domain) (s : State) :
    (modDom d f s).clk.domains[e] = s.clk.domains[e] := upd_ne _ _ h

section
variable (f : State → Fin 9 → Domain → Domain) {l : List (Fin 9)} {d : Fin 9}

theorem foldl_modDom_out (h : d ∉ l ∨ d = domDen) (s : State) :
    (l.foldl (fun t e => if e = domDen then t else modDom e (f t e) t) s).clk.domains[d] = s.clk.domains[d] := by
  induction l generalizing s with
  | nil => rfl
  | cons e l ih =>
    have hl : d ∉ l ∨ d = domDen := h.imp_left (fun h hm => h (List.mem_cons_of_mem _ hm))
    rw [List.foldl_cons]
    split
    · exact ih hl s
    · next he =>
      have hne : e ≠ d := by
        rintro rfl
        exact h.elim (fun h => h List.mem_cons_self) he
      exact (ih hl _).trans (modDom_ne hne _ s)

theorem foldl_modDom_in {g : Domain → Domain} (hg : ∀ t, f t d = g) (hn : l.Nodup) (hd : d ∈ l) (hne : d ≠ domDen) (s : State) :
    (l.foldl (fun t e => if e = domDen then t else modDom e (f t e) t) s).clk.domains[d] = g s.clk.domains[d] := by
  induction l generalizing s with
  | nil => cases hd
  | cons e l ih =>
    obtain ⟨he, hn⟩ := List.nodup_cons.1 hn
    rw [List.foldl_cons]
    rcases List.mem_cons.1 hd with rfl | hd
    · rw [foldl_modDom_out f (.inl he), if_neg hne, modDom_self, hg]
    · rw [ih hn hd]
      split
      · rfl
      · rw [modDom_ne (by rintro rfl; exact he hd)]

end

theorem unpark_clk (s : State) : ∃ ds, (unpark s).clk = { s.clk with domains := ds } := foldl_modDom_clk _ _ s

section
variable {s : State}

/-- A loss of a qualified XCLK: ember is the reference, and a loss of the selected one is told at the lock (R54). -/
theorem xclkLoss_falls (hd : s.den.up = true) (hp : s.pwr.pstate ≠ .hush) (hx : s.clk.xPresent = true) :
    (xclkLoss s).clk.refEmber = true ∧ (xclkLoss s).clk.xPresent = false ∧
      (xclkLoss s).clk.losses = now s :: recentLosses s s.clk.losses ∧
      (s.clk.refEmber = false → (xclkLoss s).clk.locked = false ∧ (xclkLoss s).clk.coasting = true ∧
        (xclkLoss s).clk.lossPending = true) := by
  unfold xclkLoss
  rw [if_neg (by simp [inHush, hd, hp, hx])]
  dsimp only
  split
  · next h => exact ⟨h, rfl, rfl, fun c => absurd (h.symm.trans c) (by decide)⟩
  · exact ⟨rfl, rfl, rfl, fun _ => ⟨rfl, rfl, rfl⟩⟩

/-- The state in which the root has locked and LOCK_FAIL has ended. -/
def lockTaken (s : State) : State :=
  endCause 173 1 (unpark (modClk (fun c => { c with locked := true, coasting := false, lossPending := false }) s))

theorem rootLocked_eq (hr : s.clk.rootRun = true) (hl : s.clk.locked = false) : rootLocked s =
    if s.clk.lossPending then raiseAs 171 1 (!s.clk.xPresent) (countReg 0x0118 15 0 1 (lockTaken s)) else lockTaken s := by
  unfold rootLocked
  exact if_neg (by simp [hr, hl])

theorem lockTaken_within {L : Nat} (hl : Sub 0x8000040 L) : Within L s (lockTaken s) :=
  endCause_within _ _ (unpark_within (modClk_within _ (.refl _ s) (Sub.le rfl hl)) (Sub.le rfl hl)) (Sub.le rfl hl)

theorem lockTaken_locked : (lockTaken s).clk.locked = true ∧ (lockTaken s).clk.coasting = false ∧
    isPresent (lockTaken s) 173 1 = false := by
  obtain ⟨ds, hu⟩ := unpark_clk (modClk (fun c => { c with locked := true, coasting := false, lossPending := false }) s)
  have e : (lockTaken s).clk = _ := (endCause_clk 173 1 _).trans hu
  rw [e]
  exact ⟨rfl, rfl, endCause_absent _ 173 0⟩

/-- The lock after a loss of the selected reference raises XCLK_LOST (R54 step 5). -/
theorem rootLocked_tells (hb : s.pwr.burrowing = false) (hr : s.clk.rootRun = true) (hl : s.clk.locked = false)
    (hp : s.clk.lossPending = true) : Latched (rootLocked s) 171 1 := by
  have w : Within 0x8000042 s (countReg 0x0118 15 0 1 (lockTaken s)) :=
    countReg_within _ _ _ _ (lockTaken_within (Sub.of rfl)) (Sub.of rfl)
  rw [rootLocked_eq hr hl, if_pos hp]
  exact raiseAs_latched (by decide) (by decide) _ (w.quiet hb (by decide))

theorem lockFail_eq (hr : s.clk.rootRun = true) (hl : s.clk.locked = false) :
    lockFail s = raiseOnce 173 1 (countReg 0x0118 23 16 1 s) := by
  unfold lockFail
  exact if_neg (by simp [hr, hl])

/-- The state in which XCLK is qualified and its loss has ended, before the reference is chosen. -/
def xclkBack (s : State) : State :=
  endCause 171 1 (modClk (fun c => { c with
    xPresent := true, src := .xclk, goodWindows := if s.clk.xPresent then c.goodWindows else 0,
    backoff := !s.clk.xPresent && decide (4 ≤ (recentLosses s c.losses).length) }) s)

theorem xclkBack_clk : (xclkBack s).clk = { s.clk with
    xPresent := true, src := .xclk, goodWindows := if s.clk.xPresent then s.clk.goodWindows else 0,
    backoff := !s.clk.xPresent && decide (4 ≤ (recentLosses s s.clk.losses).length) } := endCause_clk _ _ _

theorem xclkBack_rbit (o i : Nat) : rbit (xclkBack s) o i = rbit s o i :=
  rbit_of_regs (endCause_regs _ _ _) o i

theorem xclkBack_quiet (hb : s.pwr.burrowing = false) : (xclkBack s).pwr.burrowing = false :=
  (endCause_within (L := 0x8000040) 171 1 (modClk_within _ (.refl _ s) (Sub.of rfl)) (Sub.of rfl)).quiet hb (by decide)

theorem xclkQualified_eq (hd : s.den.up = true) (hp : s.pwr.pstate ≠ .hush) : xclkQualified s =
    if (xclkBack s).clk.refEmber && (xclkBack s).clk.rootRun && rbit (xclkBack s) 0x0104 0 && !forceEmber (xclkBack s) &&
        !(xclkBack s).clk.backoff then raiseLatched 171 2 (toXclk (xclkBack s)) else xclkBack s := by
  unfold xclkQualified
  exact if_neg (by simp [inHush, hd, hp])

/-- With XCLK selected already, its qualification ends the loss (R66). -/
theorem xclkQualified_stays (hd : s.den.up = true) (hp : s.pwr.pstate ≠ .hush) (hr : s.clk.refEmber = false) :
    (xclkQualified s).clk.xPresent = true ∧ (xclkQualified s).clk.src = .xclk ∧ isPresent (xclkQualified s) 171 1 = false := by
  rw [xclkQualified_eq hd hp, if_neg (by simp [xclkBack_clk, hr]), xclkBack_clk]
  exact ⟨rfl, rfl, endCause_absent _ 171 0⟩

/-- The return from ember to XCLK is told by XCLK_RETURNED, unless four recent losses ask for the longer time (R56). -/
theorem xclkQualified_returns (hb : s.pwr.burrowing = false) (hd : s.den.up = true) (hp : s.pwr.pstate ≠ .hush)
    (hr : s.clk.refEmber = true) (hn : s.clk.rootRun = true) (hx : rbit s 0x0104 0 = true) (hf : rbit s 0x0104 2 = false)
    (hl : s.clk.xPresent = true ∨ (recentLosses s s.clk.losses).length < 4) : Latched (xclkQualified s) 171 2 := by
  have noBackoff : (!s.clk.xPresent && decide (4 ≤ (recentLosses s s.clk.losses).length)) = false := by
    rcases hl with h | h <;> simp [h]
  have noForce : forceEmber (xclkBack s) = false := by simp [forceEmber, xclkBack_rbit, hf]
  rw [xclkQualified_eq hd hp, if_pos (by simp only [xclkBack_clk, xclkBack_rbit, noForce, noBackoff, hr, hn, hx]; rfl)]
  exact raiseLatched_latched (by decide) (by decide) (xclkBack_quiet hb)

theorem emberBad_latches (hb : s.pwr.burrowing = false) (hd : s.den.up = true) (hx : s.clk.xPresent = true)
    (hp : isPresent s 171 3 = false) : Latched (emberBad s) 171 3 := by
  have hq : (raiseOnce 171 3 s).pwr.burrowing = false :=
    (raiseOnce_within (L := 0x73ff8ffb4d7) 171 3 (.refl _ s) (Sub.calm hb rfl)).quiet hb (by decide)
  have w : Within 0x73ff8ffb4d7 (raiseOnce 171 3 s) (refSelect (raiseOnce 171 3 s)) :=
    refSelect_within (.refl _ _) (Sub.calm hq rfl)
  unfold emberBad
  rw [hd, hx]
  exact w.latched (raiseOnce_latched (by decide) (by decide) hb hp) rfl

theorem emberBad_unqualified (hx : s.clk.xPresent = false) : emberBad s = s := by
  simp [emberBad, hx]

/-! ### The root stops; a stuck multiplexer (R57, R60) -/

/-- The state in which the root has stopped and the domains run on yet. -/
def rootHalted (s : State) : State := modClk (fun c => { c with rootRun := false, locked := false, coasting := false }) s

section
variable (ha : adcBusy s = false) (hp : portsBusy s = false) (hh : s.pwr.pstate = .hush) (hv : s.usb.vbus = false)
  (hj : journalBusy s = false) (hr : s.clk.rootRun = true)
include ha hp hh hv hj hr

theorem rootStop_eq : rootStop s = (fins 9).foldl (fun t d => if d = domDen then t
    else modDom d (fun x => { x with ember := true, parked := parks d }) t) (rootHalted s) := by
  unfold rootStop
  exact if_neg (by simp [inHush, ha, hp, hh, hv, hj, hr])

theorem rootStop_stops : (rootStop s).clk.rootRun = false ∧ (rootStop s).clk.locked = false := by
  obtain ⟨ds, hc⟩ := foldl_modDom_clk (fun _ d x => { x with ember := true, parked := parks d }) (fins 9) (rootHalted s)
  rw [rootStop_eq ha hp hh hv hj hr]
  exact ⟨congrArg Clk.rootRun hc, congrArg Clk.locked hc⟩

theorem rootStop_parks {d : Fin 9} (hd : d ≠ domDen) :
    (rootStop s).clk.domains[d].ember = true ∧ (rootStop s).clk.domains[d].parked = parks d := by
  have e := foldl_modDom_in (fun _ d x => { x with ember := true, parked := parks d }) (fun _ => rfl)
    (List.nodup_finRange 9) (List.mem_finRange d) hd (rootHalted s)
  rw [rootStop_eq ha hp hh hv hj hr]
  exact ⟨congrArg Domain.ember e, congrArg Domain.parked e⟩

theorem rootStop_den : (rootStop s).clk.domains[domDen] = s.clk.domains[domDen] := by
  rw [rootStop_eq ha hp hh hv hj hr]
  exact foldl_modDom_out (fun _ d x => { x with ember := true, parked := parks d }) (.inr rfl) (rootHalted s)

end

theorem stuckTimer_tells {d : Fin 9} (hd : s.den.up = true) (hn : d ≠ 7) : stuckTimer d s = event 0x0201 0 d.val 0 0
    (orReg 0x011C (flag d.val true) (countReg (0x0168 + 0x20 * d.val) 15 0 1 (domainReset d s))) := by
  unfold stuckTimer
  exact if_neg (by simp [hd, domDen, hn])

end

/-- Settles O13, command by command: the reference by `xclkLoss_falls` and `xclkQualified_…`, the root's lock by
`rootLocked_eq` and `lockFail_eq`, ember by `emberBad_…`, the root's stop by `rootStop_…`. -/
theorem referenceMoves : Obligations.ReferenceMoves := by
  unfold Obligations.ReferenceMoves
  refine ⟨fun s hd hb => ⟨fun hp hx => ⟨_, rfl, xclkLoss_falls hd hp hx⟩, fun hr hl => ⟨fun hp => ⟨_, rfl, ?_⟩,
      fun hp => ⟨_, rfl, rootLocked_tells hb hr hl hp⟩, fun hp => ⟨_, rfl, ?_⟩, fun hp => ?_⟩,
    fun hp => ⟨fun hr => ⟨_, rfl, xclkQualified_stays hd hp hr⟩,
      fun hr hn hx hf hl => ⟨_, rfl, xclkQualified_returns hb hd hp hr hn hx hf hl⟩⟩,
    fun hx hp => ⟨_, rfl, emberBad_latches hb hd hx hp⟩, fun hx => congrArg Host.Outcome.next (emberBad_unqualified hx)⟩,
    fun d s => ⟨fun ha hp hh hv hj hr => ⟨_, rfl, ?_⟩,
      fun hd hn => congrArg Host.Outcome.next (stuckTimer_tells hd hn)⟩⟩
  · rw [rootLocked_eq hr hl, if_neg (by rw [hp]; decide)]
    exact lockTaken_locked
  · rw [lockFail_eq hr hl]
    exact raiseOnce_latched (by decide) (by decide) (s := countReg 0x0118 23 16 1 s) hb hp
  · refine congrArg Host.Outcome.next ((lockFail_eq hr hl).trans ?_)
    exact if_pos hp
  · obtain ⟨h1, h2⟩ := rootStop_stops ha hp hh hv hj hr
    exact ⟨h1, h2, rootStop_parks ha hp hh hv hj hr, rootStop_den ha hp hh hv hj hr⟩


/-! ### Reads that latch (R64, R372) -/

theorem readIf_open {f : State → State} {src : Source} {s : State} (hd : s.den.up = true)
    (h : src = .port ∨ s.link.dlUp = true) : readIf f src s = f s := by
  unfold readIf
  rw [if_pos (by simpa [hd] using h)]

theorem latchOf_modLatch (src : Source) (f : ReadLatch → ReadLatch) (s : State) :
    latchOf src (modLatch src f s) = f (latchOf src s) := by
  cases src <;> rfl

theorem readBy_dentimeHi (src : Source) (s : State) : readBy src s 0x0114 = (latchOf src s).denHi := rfl

theorem readBy_hbeatHi (src : Source) (s : State) : readBy src s 0x9408 = (latchOf src s).hbeatHi := rfl

theorem readBy_authtagHi (src : Source) (s : State) (k : Fin 4) :
    readBy src s (0x008C + 8 * k.val) = (latchOf src s).authHi[k] := by
  fin_cases k <;> rfl

theorem latchDen_read (src : Source) (s : State) : readBy src (latchDen src s) 0x0114 = timeHi (now s) := by
  rw [readBy_dentimeHi, latchDen, latchOf_modLatch]

theorem latchHbeat_read (src : Source) (s : State) : readBy src (latchHbeat src s) 0x9408 = hiW s.owl.hbeat := by
  rw [readBy_hbeatHi, latchHbeat, latchOf_modLatch]

theorem latchAuth_read (src : Source) (k : Fin 4) (s : State) :
    readBy src (latchAuth src k s) (0x008C + 8 * k.val) = hiW s.eng.keys[k].lastTag := by
  rw [readBy_authtagHi, latchAuth, latchOf_modLatch]
  exact upd_self _ _ _

/-! ### Writes over the link to registers with parts of their own (R59, R65, R72, R76, R119, R228) -/

theorem setupRecord_ungranted {s : State} (h : s.pwr.iface ≠ .granted) (o : Nat) (w : Word) : setupRecord o w s = s :=
  if_neg h

section
variable {s : State} {o : Nat} {v : Word}

theorem hostWrite_defined {a : Acc} (hd : s.den.up = true) (hl : s.link.dlUp = true) (ha : regAccess o = some a) :
    hostWrite o v s = writeDefined o a v s := by
  simp only [hostWrite, registerWrite, writeAt, hd, hl, ha, Bool.not_true, Bool.false_eq_true, if_false, if_true]

section
variable (hd : s.den.up = true) (hl : s.link.dlUp = true)
include hd hl

theorem hostWrite_epochHi : hostWrite 0x0034 v s = epochHi v s := hostWrite_defined hd hl rfl

theorem hostWrite_epochLo : hostWrite 0x0030 v s = epochLo v s := hostWrite_defined hd hl rfl

theorem hostWrite_keyfuse : hostWrite 0x0080 v s = inSetup 0x0080 v (fuseStart v) s := hostWrite_defined hd hl rfl

theorem hostWrite_linkPoll : hostWrite 0x040C v s = linkPollWrite v s := hostWrite_defined hd hl rfl

theorem hostWrite_chgIntsrc : hostWrite 0x54C0 v s = clearBits 0x54C0 v (setupRecord 0x54C0 v s) :=
  hostWrite_defined (a := { accRO with w1c := 0x3FF }) hd hl rfl

theorem hostWrite_linkIpend : hostWrite 0x0410 v s = clearBits 0x0410 v (setupRecord 0x0410 v s) :=
  hostWrite_defined (a := { accRO with w1c := 0xFFFFFFFF }) hd hl rfl

end

theorem inSetup_takes {f : State → State} (h : setupWrites s = true) : inSetup o v f s = f (setupRecord o v s) := if_pos h

theorem inSetup_locked {f : State → State} (h : setupWrites s = false) : inSetup o v f s = lockedWrite o v s :=
  if_neg (by rw [h]; decide)

theorem reg_of_regs {t : State} (h : t.regs = s.regs) (o : Nat) : reg t o = reg s o := by
  unfold reg
  rw [h]

/-- Bits written as 1 are cleared. -/
theorem reg_clearBits (g : s.Good) (hi : s.pwr.iface ≠ .granted) (o : Nat) (v : Word) :
    reg (clearBits o v (setupRecord o v s)) o = reg s o &&& ~~~v := by
  rw [setupRecord_ungranted hi]
  exact reg_setReg _ _ _ g.regs

/-! #### The epoch -/

theorem epochHi_holds (v : Word) (s : State) : (epochHi v s).den.epochHeld = some v := rfl

/-- The two stores of the epoch, before its record. -/
def epochStored (v : Word) (s : State) : State :=
  setReg 0x0030 v (setReg 0x0034 (s.den.epochHeld.getD (reg s 0x0034)) { s with den := { s.den with epochHeld := none } })

theorem epochLo_eq (hi : s.pwr.iface ≠ .granted) : ∃ w, epochLo v s = commitNew w (epochStored v s) := by
  unfold epochLo
  rw [setupRecord_ungranted hi]
  exact ⟨_, rfl⟩

theorem epochStored_regs (g : s.Good) :
    reg (epochStored v s) 0x0030 = v ∧ reg (epochStored v s) 0x0034 = s.den.epochHeld.getD (reg s 0x0034) := by
  unfold epochStored
  have g' : spWf regReset (setReg 0x0034 (s.den.epochHeld.getD (reg s 0x0034)) s).regs = true := spWf_set _ _ _ _ g.regs
  exact ⟨reg_setReg _ _ _ g', (reg_setReg_ne _ _ (by decide)).trans (reg_setReg _ _ _ g.regs)⟩

theorem epochLo_takes (g : s.Good) (hi : s.pwr.iface ≠ .granted) : reg (epochLo v s) 0x0030 = v ∧
    reg (epochLo v s) 0x0034 = s.den.epochHeld.getD (reg s 0x0034) ∧ (epochLo v s).den.epochHeld = none := by
  obtain ⟨w, e⟩ := epochLo_eq (v := v) hi
  have c := commitNew_within (L := 0xc00040) w (.refl _ (epochStored v s)) (Sub.of rfl)
  have hr : _ = (epochStored v s).regs := c.keeps .regs rfl
  have hd : _ = (epochStored v s).den := c.keeps .den rfl
  rw [e, reg_of_regs hr, reg_of_regs hr, hd]
  exact ⟨(epochStored_regs g).1, (epochStored_regs g).2, rfl⟩

/-! #### Key slots -/

theorem modKey_self (k : Fin 4) (f : KeySlot → KeySlot) (s : State) : (modKey k f s).eng.keys[k] = f s.eng.keys[k] :=
  upd_self _ _ _

theorem fuseStart_starts {k : Fin 4} (hc : fld v 15 8 = 0x5A) (hk : fld v 1 0 = k.val) (hl : s.eng.keys[k].loaded = 0xF)
    (hf : keyLocked s k = false) : fuseStart v s = modKey k (fun x => { x with fusing := true }) s := by
  have e : (⟨fld v 1 0 % 4, Nat.mod_lt _ (by decide)⟩ : Fin 4) = k :=
    Fin.ext ((congrArg (· % 4) hk).trans (Nat.mod_eq_of_lt k.isLt))
  simp only [fuseStart, e]
  exact if_neg (by rw [hc, hl, hf]; decide)

theorem fuseDone_key (k : Fin 4) (s : State) : (fuseDone s).eng.keys[k] =
    if s.eng.keys[k].fusing then { s.eng.keys[k] with fusing := false, fused := true } else s.eng.keys[k] := by
  simp [fuseDone]

/-! #### The poll times -/

theorem linkPollWrite_run (hi : s.pwr.iface = .run) : linkPollWrite v s =
    if rfld s 0x040C 25 16 ≠ rfld (storeFields 0x040C 0x03FF03FF v s) 0x040C 25 16
    then sendLtr (storeFields 0x040C 0x03FF03FF v s) else storeFields 0x040C 0x03FF03FF v s := by
  unfold linkPollWrite
  rw [setupRecord_ungranted (s := storeFields 0x040C 0x03FF03FF v s) (by rw [storeFields, setReg_pwr, hi]; decide), hi]
  simp only [decide_true, Bool.true_and, decide_eq_true_eq]

theorem sendLtr_on {s : State} (h : s.link.cfg.ltrEn = true) (hl : s.link.dlUp = true) :
    sendLtr s = emit (.ltr (pollMax s)) (modLink (fun l => { l with ltrTold := pollMax s }) s) := by
  unfold sendLtr
  rw [h, hl]
  rfl

theorem sendLtr_off {s : State} (h : s.link.cfg.ltrEn = false) : sendLtr s = s := by
  unfold sendLtr
  rw [h]
  rfl

/-- In RUN a write that changes POLL_MAX is told to the link, where LTR is enabled (R76). -/
theorem linkPollWrite_tells (hi : s.pwr.iface = .run) (hl : s.link.dlUp = true) :
    if s.link.cfg.ltrEn = true ∧ rfld s 0x040C 25 16 ≠ rfld (storeFields 0x040C 0x03FF03FF v s) 0x040C 25 16 then
      linkPollWrite v s = emit (.ltr (pollMax (storeFields 0x040C 0x03FF03FF v s)))
        (modLink (fun l => { l with ltrTold := pollMax (storeFields 0x040C 0x03FF03FF v s) })
          (storeFields 0x040C 0x03FF03FF v s))
    else linkPollWrite v s = storeFields 0x040C 0x03FF03FF v s := by
  rw [linkPollWrite_run hi]
  generalize hu : storeFields 0x040C 0x03FF03FF v s = u
  have hk : u.link = s.link := by rw [← hu]; rfl
  split
  · next h => rw [if_pos h.2, sendLtr_on (by rw [hk]; exact h.1) (by rw [hk]; exact hl)]
  · next h =>
    split
    · next hc => exact sendLtr_off (by rw [hk]; simpa [hc] using h)
    · rfl

/-! #### CLK_DSEL -/

theorem rootWake_running (h : s.clk.rootRun = true) : rootWake s = s := if_pos h

theorem commit_clk (w : List Word) (h : s.clk.rootRun = true) : (commit w s).clk = s.clk := by
  unfold commit
  rw [rootWake_running h]
  split
  · rfl
  · have c := putRec_within (L := 0xc00000) w
      (forget_within (clearWay_within 2048 1 (.refl _ s) (Sub.of rfl)) (Sub.of rfl)) (Sub.of rfl)
    exact c.keeps .clk rfl

/-- While the root runs, the record of a write in a granted SETUP leaves the clocks. -/
theorem setupRecord_clk (o : Nat) (w : Word) (h : s.clk.rootRun = true) : (setupRecord o w s).clk = s.clk := by
  unfold setupRecord commitNew
  split
  · split
    · rfl
    · exact commit_clk _ h
  · rfl

theorem regAccess_clkDsel : ∀ d : Fin 9, d ≠ 7 → regAccess (0x0160 + 0x20 * d.val) = some { accRO with rws := 1 } := by
  decide

theorem writeDefined_clkDsel (d : Fin 9) (v : Word) (s : State) :
    writeDefined (0x0160 + 0x20 * d.val) { accRO with rws := 1 } v s =
      inSetup (0x0160 + 0x20 * d.val) v (store (0x0160 + 0x20 * d.val) 1 v) s := by
  fin_cases d <;> rfl

theorem store_clkDsel (d : Fin 9) (m v : Word) (s : State) :
    store (0x0160 + 0x20 * d.val) m v s = setDsel d (merged s (0x0160 + 0x20 * d.val) m v) s := by
  fin_cases d <;> rfl

theorem clampReg_clkDsel (d : Fin 9) (li : Bool) (rs : Nat) (w : Word) : clampReg li rs (0x0160 + 0x20 * d.val) w = w := by
  fin_cases d <;> rfl

theorem bit_merged_clkDsel (d : Fin 9) (v : Word) (s : State) : bit (merged s (0x0160 + 0x20 * d.val) 1 v) 0 = bit v 0 := by
  unfold merged
  rw [clampReg_clkDsel]
  simp [bit]

theorem setDsel_ember {d : Fin 9} (hd : d ≠ domDen) (hr : s.clk.rootRun = true) (w : Word) :
    (setDsel d w s).clk.domains[d].ember = bit w 0 := by
  unfold setDsel
  rw [if_neg hd, modDom_self, if_pos hr]

theorem hostWrite_clkDsel {d : Fin 9} (hd : s.den.up = true) (hl : s.link.dlUp = true) (hn : d ≠ 7) :
    hostWrite (0x0160 + 0x20 * d.val) v s =
      inSetup (0x0160 + 0x20 * d.val) v (store (0x0160 + 0x20 * d.val) 1 v) s := by
  rw [hostWrite_defined hd hl (regAccess_clkDsel d hn), writeDefined_clkDsel]

theorem hostWrite_clkDsel_takes {d : Fin 9} (hd : s.den.up = true) (hl : s.link.dlUp = true) (hn : d ≠ 7)
    (hw : setupWrites s = true) (hr : s.clk.rootRun = true) :
    (hostWrite (0x0160 + 0x20 * d.val) v s).clk.domains[d].ember = bit v 0 := by
  rw [hostWrite_clkDsel hd hl hn, inSetup_takes hw, store_clkDsel,
    setDsel_ember hn (by rw [setupRecord_clk _ _ hr]; exact hr), bit_merged_clkDsel]

end

/-- Settles O19: a latching read by `latch…_read`, a write by the store of its register (`hostWrite_defined`), CLK_DSEL by
`hostWrite_clkDsel`. -/
theorem specialRegistersAct : Obligations.SpecialRegistersAct := by
  unfold Obligations.SpecialRegistersAct
  refine ⟨fun src k s hd hr => ⟨⟨_, rfl, ?_⟩, ⟨_, rfl, ?_⟩, ⟨_, rfl, ?_⟩⟩,
    fun v k s g hd hl hi => ⟨⟨_, congrArg Host.Outcome.next (hostWrite_epochHi hd hl), epochHi_holds v s⟩,
      ⟨_, congrArg Host.Outcome.next (hostWrite_epochLo hd hl), epochLo_takes g hi⟩,
      fun hw hc hk hf hn => ⟨_, rfl, ?_⟩, fun hf => ⟨_, rfl, ?_⟩,
      ⟨_, congrArg Host.Outcome.next (hostWrite_chgIntsrc hd hl), reg_clearBits g hi _ v⟩,
      ⟨_, congrArg Host.Outcome.next (hostWrite_linkIpend hd hl), reg_clearBits g hi _ v⟩,
      fun hm u hu => ⟨_, congrArg Host.Outcome.next (hostWrite_linkPoll hd hl), ?_⟩⟩,
    fun v d s hd hl hn => ⟨fun hw hr => ⟨_, rfl, hostWrite_clkDsel_takes hd hl hn hw hr⟩, fun hw => ?_⟩⟩
  · rw [readIf_open hd hr]
    exact latchDen_read src s
  · rw [readIf_open hd hr]
    exact latchAuth_read src k s
  · rw [readIf_open hd hr]
    exact latchHbeat_read src s
  · have e := modKey_self k (fun x => { x with fusing := true }) s
    rw [hostWrite_keyfuse hd hl, inSetup_takes hw, setupRecord_ungranted hi, fuseStart_starts hc hk hf hn]
    exact ⟨congrArg KeySlot.fusing e, (congrArg KeySlot.words e :)⟩
  · have e := (fuseDone_key k s).trans (if_pos hf)
    rw [if_pos hd]
    exact ⟨congrArg KeySlot.fused e, congrArg KeySlot.fusing e, (congrArg KeySlot.words e :)⟩
  · subst hu
    exact linkPollWrite_tells hm hl
  · exact congrArg Host.Outcome.next ((hostWrite_clkDsel hd hl hn).trans (inSetup_locked hw))

end Sys2Proof.Machine

/-! PROOFS. The link and its rings: the statements on spec/05. -/

namespace Sys2Proof.Machine

/-! ### Writes to ring and page registers (R79) -/

section
variable {s : State} {o : Nat} {v : Word}

theorem isRingReg_iff : isRingReg o = true ↔ 0x0440 ≤ o ∧ o < 0x0680 := by simp [isRingReg]

theorem writeDefined_ring {a : Acc} (h : isRingReg o = true) : writeDefined o a v s = ringWrite o v s := by
  obtain ⟨hlo, hhi⟩ := isRingReg_iff.1 h
  unfold writeDefined
  rw [if_neg (by omega), if_neg (by simp; omega), if_neg (by omega), if_neg (by omega), if_neg (by omega),
    if_neg (by omega), if_neg (by omega), if_neg (by omega), if_pos h]

theorem ringWrite_takes {acc : Acc} (ha : regAccess o = some acc) (hw : acc.rw ≠ 0) (h : isRingReg o = true)
    (hs : setupWrites s = true ∨ s.link.held = true) :
    ringWrite o v s = judgeRings (restartRings o (reg s o) (reg (setupRecord o v (storeFields o acc.rw v s)) o)
      (setupRecord o v (storeFields o acc.rw v s))) := by
  unfold ringWrite
  rw [ha]
  dsimp only
  rw [if_neg (by simpa [h] using hw), if_pos (by simpa using hs)]

theorem ringWrite_locked {acc : Acc} (ha : regAccess o = some acc) (hw : acc.rw ≠ 0) (h : isRingReg o = true)
    (hs : setupWrites s = false) (hh : s.link.held = false) : ringWrite o v s = lockCount o s := by
  unfold ringWrite
  rw [ha]
  dsimp only
  rw [if_neg (by simpa [h] using hw), if_neg (by simp [hs, hh])]

end

/-- Settles O20: such a write reaches `ringWrite`, which stores in SETUP and while HELD and else counts. -/
theorem ringWritesNeedTheHold : Obligations.RingWritesNeedTheHold := by
  unfold Obligations.RingWritesNeedTheHold
  intro v o acc s hd hl ha hw hr
  have he : exec (.ringCfgWrite o v) s = .next (ringWrite o.toNat v s) :=
    congrArg Host.Outcome.next ((if_pos hr).trans ((hostWrite_defined hd hl ha).trans (writeDefined_ring hr)))
  refine ⟨fun hs u hu => ?_, fun hi hh => ?_⟩
  · subst hu
    rw [he, ringWrite_takes ha hw hr hs]
  · rw [he, ringWrite_locked ha hw hr (by simp [setupWrites, hi]) hh]
    rfl

/-! ### What the operations of the link leave of it -/

section
variable (s : State)

theorem setupRecord_link (o : Nat) (v : Word) : (setupRecord o v s).link = s.link :=
  (setupRecord_within (L := 0xc00040) o v (.refl _ s) (Sub.of rfl)).keeps .link rfl

theorem endCause_link (n d : Nat) : (endCause n d s).link = s.link :=
  (endCause_within (L := 0x8000000) n d (.refl _ s) (Sub.of rfl)).keeps .link rfl

theorem owlReload_link (o : Fin 2) : (owlReload o s).link = s.link :=
  (owlReload_within (L := 0x40000000000) o (.refl _ s) (Sub.of rfl)).keeps .link rfl

theorem memWords_link (a : DWord) (ws : List Word) : (memWords a ws s).link = s.link :=
  (memWords_within (L := 1) a ws (.refl _ s) (Sub.of rfl)).keeps .link rfl

theorem shadowPage_link : ∃ d, (shadowPage s).link = { s.link with shadowDue := d } := by
  unfold shadowPage
  split
  · exact ⟨[], memWords_link _ _ _⟩
  · exact ⟨s.link.shadowDue, rfl⟩

theorem refetch_link : ∃ q, (refetch s).link = { s.link with sqs := q } := by
  unfold refetch
  refine List.foldlRecOn (motive := fun t : State => ∃ q, t.link = { s.link with sqs := q }) _ _ ⟨_, rfl⟩ ?_
  rintro t ⟨q, ht⟩ a -
  exact ⟨_, by rw [modLink_link, ht]⟩

theorem refetch_jnl : (refetch s).jnl = s.jnl :=
  (refetch_within (L := 0x880) (.refl _ s) (Sub.of rfl)).keeps .jnl rfl

theorem sendLtr_link : ∃ n, (sendLtr s).link = { s.link with ltrTold := n } := by
  unfold sendLtr
  split
  · exact ⟨pollMax s, rfl⟩
  · exact ⟨s.link.ltrTold, rfl⟩

/-! ### Messages whose mask is lifted (R72) -/

/-- Message `m` goes out where it is held back and its mask is lifted. -/
def unmaskOne (t : State) (m : Nat) : State :=
  if bit t.link.masked m && !maskedNow t.link.cfg m && dmaOk t then
    emit (messageOut t.link.cfg m) (modLink (fun l => { l with masked := l.masked &&& ~~~(at_ m 1) }) t)
  else t

theorem sendUnmasked_eq : sendUnmasked s = (List.range 32).foldl unmaskOne s := rfl

theorem unmaskOne_link (m : Nat) : ∃ w, (unmaskOne s m).link = { s.link with masked := w } := by
  unfold unmaskOne
  split
  · exact ⟨_, rfl⟩
  · exact ⟨s.link.masked, rfl⟩

theorem foldl_unmaskOne_link (l : List Nat) : ∃ w, (l.foldl unmaskOne s).link = { s.link with masked := w } := by
  refine List.foldlRecOn (motive := fun t : State => ∃ w, t.link = { s.link with masked := w }) _ _ ⟨_, rfl⟩ ?_
  rintro t ⟨w, ht⟩ m -
  obtain ⟨w', hm⟩ := unmaskOne_link t m
  exact ⟨w', by rw [hm, ht]⟩

theorem sendUnmasked_link : ∃ w, (sendUnmasked s).link = { s.link with masked := w } := foldl_unmaskOne_link s _

end

theorem bit_clear (w : Word) (m v : Nat) :
    bit (w &&& ~~~(at_ m 1)) v = (bit w v && decide (m ≠ v)) := by
  unfold bit at_
  rw [Nat.one_mul, BitVec.getLsbD_and, BitVec.getLsbD_not, BitVec.getLsbD_ofNat, Nat.testBit_two_pow]
  by_cases hv : v < 32
  · simp [hv]
  · rw [BitVec.getLsbD_of_ge w v (by omega), Bool.false_and, Bool.false_and]

section
variable {s : State} {m v : Nat}

/-- A message once sent is not held back again. -/
theorem unmaskOne_clear (h : bit s.link.masked v = false) : bit (unmaskOne s m).link.masked v = false := by
  unfold unmaskOne
  split
  · rw [emit_link, modLink_link]
    exact (bit_clear _ _ _).trans (by rw [h, Bool.false_and])
  · exact h

theorem unmaskOne_clears (hm : maskedNow s.link.cfg v = false) (hd : dmaOk s = true) :
    bit (unmaskOne s v).link.masked v = false := by
  unfold unmaskOne
  rw [hm, hd]
  split
  · rw [emit_link, modLink_link]
    exact (bit_clear _ _ _).trans (by simp)
  · next h => simpa using h

/-- A message that is no longer held back has gone out. -/
theorem unmaskOne_sends {c : LinkCfg} (hc : s.link.cfg = c) (h : bit s.link.masked v = true ∨ messageOut c v ∈ s.out) :
    bit (unmaskOne s m).link.masked v = true ∨ messageOut c v ∈ (unmaskOne s m).out := by
  unfold unmaskOne
  split
  · rw [emit_link, modLink_link, emit_out, hc]
    by_cases hv : m = v
    · exact .inr (by rw [hv]; exact List.mem_cons_self)
    · refine h.imp (fun h => (bit_clear _ _ _).trans ?_) (List.mem_cons_of_mem _)
      rw [h, decide_eq_true hv]
      rfl
  · exact h

theorem foldl_unmaskOne_clear (l : List Nat) (h : bit s.link.masked v = false) :
    bit (l.foldl unmaskOne s).link.masked v = false :=
  List.foldlRecOn (motive := fun t : State => bit t.link.masked v = false) _ _ h fun _ ht _ _ => unmaskOne_clear ht

theorem foldl_unmaskOne_clears {l : List Nat} (hl : v ∈ l) (hm : maskedNow s.link.cfg v = false) (hd : dmaOk s = true) :
    bit (l.foldl unmaskOne s).link.masked v = false := by
  obtain ⟨a, b, rfl⟩ := List.append_of_mem hl
  rw [List.foldl_append, List.foldl_cons]
  obtain ⟨w, hw⟩ := foldl_unmaskOne_link s a
  refine foldl_unmaskOne_clear _ (unmaskOne_clears (by rw [hw]; exact hm) ?_)
  unfold dmaOk
  rw [hw]
  exact hd

theorem foldl_unmaskOne_sends (l : List Nat) (h : bit s.link.masked v = true) :
    bit (l.foldl unmaskOne s).link.masked v = true ∨ messageOut s.link.cfg v ∈ (l.foldl unmaskOne s).out := by
  refine (List.foldlRecOn (motive := fun t : State => t.link.cfg = s.link.cfg ∧
    (bit t.link.masked v = true ∨ messageOut s.link.cfg v ∈ t.out)) _ _ ⟨rfl, .inl h⟩ ?_).2
  rintro t ⟨hc, ht⟩ m -
  obtain ⟨w, hw⟩ := unmaskOne_link t m
  exact ⟨by rw [hw, ← hc], unmaskOne_sends hc ht⟩

/-- A message held back, and masked no longer, is sent where DMA is possible (R72). -/
theorem sendUnmasked_sends (hv : v < 32) (hb : bit s.link.masked v = true) (hm : maskedNow s.link.cfg v = false)
    (hd : dmaOk s = true) :
    messageOut s.link.cfg v ∈ (sendUnmasked s).out ∧ bit (sendUnmasked s).link.masked v = false := by
  have hc : bit (sendUnmasked s).link.masked v = false := foldl_unmaskOne_clears (List.mem_range.2 hv) hm hd
  refine ⟨(foldl_unmaskOne_sends (List.range 32) hb).resolve_left ?_, hc⟩
  rw [← sendUnmasked_eq, hc]
  exact Bool.false_ne_true

end

/-! ### The hold (R77, R78, R80, R114) -/

section
variable (s : State)

theorem heldWhenDone_link : ∃ h d, (heldWhenDone s).link = { s.link with held := h, shadowDue := d } := by
  unfold heldWhenDone
  split
  · exact ⟨s.link.held, s.link.shadowDue, rfl⟩
  · obtain ⟨d, hd⟩ := shadowPage_link s
    exact ⟨true, d, by rw [owlReload_link, modLink_link, hd]⟩

/-- HOLD is set, and what was only read is forgotten. -/
def holdTaken (s : State) : State :=
  refetch (modJnl (fun j => { j with queue := keepJobs j.queue }) (modLink (fun l => { l with hold := true, bmeWait := false }) s))

theorem holdTaken_link : ∃ q, (holdTaken s).link = { s.link with hold := true, bmeWait := false, sqs := q } := refetch_link _

theorem holdTaken_queue : (holdTaken s).jnl.queue = keepJobs s.jnl.queue := by
  unfold holdTaken
  rw [refetch_jnl]
  rfl

theorem holdNow_eq : holdNow s =
    if s.link.hold then modLink (fun l => { l with hold := true, bmeWait := false }) s else heldWhenDone (holdTaken s) := rfl

theorem holdNow_link : ∃ h d q, (holdNow s).link =
    { s.link with hold := true, bmeWait := false, held := h, shadowDue := d, sqs := q } := by
  rw [holdNow_eq]
  split
  · exact ⟨s.link.held, s.link.shadowDue, s.link.sqs, rfl⟩
  · obtain ⟨h, d, e⟩ := heldWhenDone_link (holdTaken s)
    obtain ⟨q, f⟩ := holdTaken_link s
    exact ⟨h, d, q, by rw [e, f]⟩

theorem holdNow_holds : (holdNow s).link.hold = true ∧ (holdNow s).link.bmeWait = false := by
  obtain ⟨h, d, q, e⟩ := holdNow_link s
  rw [e]
  exact ⟨rfl, rfl⟩

theorem holdNow_pwr : (holdNow s).pwr = s.pwr :=
  (holdNow_within (L := 0x40004400a81) (.refl _ s) (Sub.of rfl)).keeps .pwr rfl

theorem holdNow_flt : (holdNow s).flt = s.flt :=
  (holdNow_within (L := 0x40004400a81) (.refl _ s) (Sub.of rfl)).keeps .flt rfl

theorem holdInRun_link : ∃ o w h d q, (holdInRun s).link =
    { s.link with hold := o, bmeWait := w, held := h, shadowDue := d, sqs := q } := by
  unfold holdInRun
  split
  · obtain ⟨h, d, q, e⟩ := holdNow_link s
    exact ⟨true, false, h, d, q, e⟩
  · exact ⟨s.link.hold, s.link.bmeWait, s.link.held, s.link.shadowDue, s.link.sqs, rfl⟩

variable {s}

theorem heldWhenDone_held (ho : s.link.hold = true) (hq : s.jnl.queue = []) : (heldWhenDone s).link.held = true := by
  unfold heldWhenDone
  split
  · next h => simpa [ho, hq] using h
  · rw [owlReload_link]
    rfl

/-- With no commit in hand the hold sets HELD at once. -/
theorem holdNow_held (ho : s.link.hold = false) (hq : s.jnl.queue = []) : (holdNow s).link.held = true := by
  obtain ⟨q, f⟩ := holdTaken_link s
  rw [holdNow_eq, ho, if_neg Bool.false_ne_true]
  exact heldWhenDone_held (congrArg Link.hold f) ((holdTaken_queue s).trans (congrArg keepJobs hq))

theorem holdInRun_hold (h : inRun s = true) : (holdInRun s).link.hold = true := by
  unfold holdInRun
  rw [if_pos h]
  exact (holdNow_holds s).1

theorem releaseNow_link : ∃ w d cs ts, (releaseNow s).link = { s.link with
    hold := false, held := false, bmeWait := false, interval := pollMin s, tailHigh := false, masked := w, shadowDue := d,
    cqs := cs, eq := { s.link.eq with fresh := false, adopt := eqOn s }, sts := ts } := by
  unfold releaseNow
  extract_lets s1
  obtain ⟨w, hw⟩ := sendUnmasked_link (shadowPage (owlReload 0 s1))
  obtain ⟨d, hd⟩ := shadowPage_link (owlReload 0 s1)
  exact ⟨w, d, _, _, by rw [hw, hd, owlReload_link]; rfl⟩

theorem writeRelease_releases (ho : s.link.hold = true) (hb : s.link.bme = true) : writeRelease s = releaseNow s := by
  unfold writeRelease
  rw [ho, hb]
  rfl

theorem writeRelease_waits (ho : s.link.hold = true) (hb : s.link.bme = false) :
    writeRelease s = modLink (fun l => { l with bmeWait := true }) s := by
  unfold writeRelease
  rw [ho, hb]
  rfl

theorem configWrite_link (b : Bool) (c : LinkCfg) (k : AerAck) : (configWrite b c k s).link = { s.link with
    bme := b, cfg := c, aer := s.link.aer &&& ~~~k.uncorr, aerCorr := s.link.aerCorr &&& ~~~k.corr } := by
  unfold configWrite
  extract_lets aer s1
  split
  · rw [endCause_link]
    rfl
  · rfl

theorem configWrite_pwr (b : Bool) (c : LinkCfg) (k : AerAck) : (configWrite b c k s).pwr = s.pwr :=
  (configWrite_within (L := 0x8000580) b c k (.refl _ s) (Sub.of rfl)).keeps .pwr rfl

/-! ### Resets of the link (R78) -/

theorem resetConfig_link : (resetConfig s).link = { s.link with
    cfg := linkCfgReset, bme := false, masked := 0, wakePend := 0, aer := 0, aerCorr := 0, ltrTold := 0, dmaFail := false,
    bmeWait := false, clkreqReleased := false } := by
  unfold resetConfig
  rw [endCause_link, endCause_link]
  rfl

theorem resetConfig_pwr : (resetConfig s).pwr = s.pwr :=
  (resetConfig_within (L := 0x8000782) (.refl _ s) (Sub.of rfl)).keeps .pwr rfl

theorem resetConfig_den : (resetConfig s).den = s.den :=
  (resetConfig_within (L := 0x8000782) (.refl _ s) (Sub.of rfl)).keeps .den rfl

theorem linkLost_pwr : (linkLost s).pwr = s.pwr :=
  (linkLost_within (L := 0x482) (.refl _ s) (Sub.of rfl)).keeps .pwr rfl

theorem linkLost_link : ∃ g l c, (linkLost s).link =
    { s.link with dlUp := false, gen2 := g, lstate := l, clkreqReleased := c } ∧ (s.link.dlUp = true → l = .down) := by
  unfold linkLost
  split
  · exact ⟨_, _, _, rfl, fun _ => rfl⟩
  · next h =>
    have hl : s.link.dlUp = false := by simpa using h
    exact ⟨s.link.gen2, s.link.lstate, s.link.clkreqReleased, by rw [← hl], fun c => absurd c h⟩

/-- What a Function Level Reset takes down and puts back, before the link trains again. -/
def levelReset (s : State) : State :=
  resetConfig (modLink (fun l => { l with dlUp := false, gen2 := false, lstate := .down }) s)

theorem levelReset_pwr : (levelReset s).pwr = s.pwr := resetConfig_pwr

theorem mayTrain_levelReset : mayTrain (levelReset s) = mayTrain s := by
  unfold mayTrain inHush
  rw [levelReset_pwr, show (levelReset s).den = s.den from resetConfig_den]

/-- After the resets the link trains, where it may. -/
theorem functionLevelReset_eq (h : s.link.dlUp = true) : functionLevelReset s = holdInRun
    (if mayTrain (levelReset s) then train (levelReset s) else levelReset s) := if_neg (by simp [h])

theorem perstAssert_eq (hd : s.den.up = true) (hh : s.pwr.pstate ≠ .hush) : perstAssert s =
    holdInRun (resetConfig (linkLost (modLink (fun l => { l with perst := true, training := false, since := none }) s))) :=
  if_neg (by simp [hd, inHush, hh])

theorem trainIf_pwr (b : Bool) : (if b then train s else s).pwr = s.pwr := by cases b <;> rfl

theorem trainIf_link (b : Bool) : ∃ t r, (if b then train s else s).link = { s.link with training := t, sris := r } ∧
    (b = true → t = true) := by
  cases b
  · exact ⟨s.link.training, s.link.sris, rfl, fun h => by cases h⟩
  · exact ⟨_, _, rfl, fun _ => rfl⟩

end

/-! ### The commands of the hold and of the resets (R77, R78, R80) -/

theorem holdRecord_link (b : Bool) (s : State) : (holdRecord b s).link = s.link := setupRecord_link s _ _

theorem holdRecord_queue (b : Bool) (s : State) : (holdRecord b s).jnl.queue = s.jnl.queue :=
  (holdRecord_within (L := 0xc00040) b (.refl _ s) (Sub.of rfl)).keeps .queue rfl

theorem eqOn_holdRecord (b : Bool) (s : State) : eqOn (holdRecord b s) = eqOn s :=
  congrArg ringOn (reg_of_regs ((holdRecord_within (L := 0xc00040) b (.refl _ s) (Sub.of rfl)).keeps .regs rfl) _)

section
variable {s : State}

theorem holdSet_sets : (holdSet (holdRecord true s)).link.hold = true ∧ (holdSet (holdRecord true s)).link.bmeWait = false ∧
    (s.link.hold = false → s.jnl.queue = [] → (holdSet (holdRecord true s)).link.held = true) :=
  ⟨(holdNow_holds _).1, (holdNow_holds _).2, fun ho hq =>
    holdNow_held (by rw [holdRecord_link, ho]) (by rw [holdRecord_queue, hq])⟩

theorem holdRelease_releases (ho : s.link.hold = true) (hb : s.link.bme = true) :
    (writeRelease (holdRecord false s)).link.hold = false ∧ (writeRelease (holdRecord false s)).link.held = false ∧
      (writeRelease (holdRecord false s)).link.eq.adopt = eqOn s := by
  rw [writeRelease_releases (by rw [holdRecord_link, ho]) (by rw [holdRecord_link, hb])]
  obtain ⟨w, d, cs, ts, e⟩ := releaseNow_link (s := holdRecord false s)
  rw [e]
  exact ⟨rfl, rfl, eqOn_holdRecord false s⟩

theorem holdRelease_waits (ho : s.link.hold = true) (hb : s.link.bme = false) :
    (writeRelease (holdRecord false s)).link.hold = true ∧ (writeRelease (holdRecord false s)).link.bmeWait = true := by
  rw [writeRelease_waits (by rw [holdRecord_link, ho]) (by rw [holdRecord_link, hb])]
  exact ⟨(congrArg Link.hold (holdRecord_link false s)).trans ho, rfl⟩

variable {c : LinkCfg} {k : AerAck}

theorem bmeSet_eq (hl : s.link.dlUp = true) : bmeSet c k s =
    if s.link.bmeWait then releaseNow (configWrite true c k s) else sendUnmasked (configWrite true c k s) := by
  have hw : (configWrite true c k s).link.bmeWait = s.link.bmeWait := by rw [configWrite_link]
  unfold bmeSet
  rw [← hw, if_neg (by simp [hl])]

theorem bmeSet_sets (hl : s.link.dlUp = true) : (bmeSet c k s).link.bme = true ∧ (bmeSet c k s).link.cfg = c ∧
    (bmeSet c k s).link.aer = s.link.aer &&& ~~~k.uncorr ∧
    (bmeSet c k s).link.hold = (s.link.hold && !s.link.bmeWait) := by
  rw [bmeSet_eq hl]
  split
  · next hb =>
    obtain ⟨w, d, cs, ts, e⟩ := releaseNow_link (s := configWrite true c k s)
    rw [configWrite_link] at e
    exact ⟨congrArg Link.bme e, congrArg Link.cfg e, congrArg Link.aer e, (congrArg Link.hold e).trans (by simp [hb])⟩
  · next hb =>
    obtain ⟨w, e⟩ := sendUnmasked_link (configWrite true c k s)
    rw [configWrite_link] at e
    exact ⟨congrArg Link.bme e, congrArg Link.cfg e, congrArg Link.aer e, (congrArg Link.hold e).trans (by simp [hb])⟩

theorem bmeClear_eq (hl : s.link.dlUp = true) : bmeClear c k s =
    if s.link.bme then holdInRun (configWrite false c k s) else configWrite false c k s := if_neg (by simp [hl])

theorem bmeClear_clears (hl : s.link.dlUp = true) : (bmeClear c k s).link.bme = false ∧ (bmeClear c k s).link.cfg = c ∧
    (bmeClear c k s).link.aer = s.link.aer &&& ~~~k.uncorr ∧
    (s.link.bme = true → inRun s = true → (bmeClear c k s).link.hold = true) := by
  have hr : inRun (configWrite false c k s) = inRun s := by
    unfold inRun
    rw [configWrite_pwr]
  rw [bmeClear_eq hl]
  split
  · obtain ⟨o, w, h, d, q, e⟩ := holdInRun_link (configWrite false c k s)
    rw [configWrite_link] at e
    exact ⟨congrArg Link.bme e, congrArg Link.cfg e, congrArg Link.aer e, fun _ hi => holdInRun_hold (hr.trans hi)⟩
  · next hb =>
    have e := configWrite_link (s := s) false c k
    exact ⟨congrArg Link.bme e, congrArg Link.cfg e, congrArg Link.aer e, fun h => absurd h hb⟩

theorem perstAssert_resets (hd : s.den.up = true) (hh : s.pwr.pstate ≠ .hush) :
    (perstAssert s).link.perst = true ∧ (perstAssert s).link.dlUp = false ∧ (perstAssert s).link.bme = false ∧
      (perstAssert s).link.cfg = linkCfgReset ∧ (inRun s = true → (perstAssert s).link.hold = true) := by
  rw [perstAssert_eq hd hh]
  generalize hu : modLink (fun l => { l with perst := true, training := false, since := none }) s = u
  have hup : u.link.perst = true := by rw [← hu]; rfl
  have hr : inRun (resetConfig (linkLost u)) = inRun s := by
    unfold inRun
    rw [resetConfig_pwr, linkLost_pwr, ← hu]
    rfl
  obtain ⟨g, l, r, f, -⟩ := linkLost_link (s := u)
  obtain ⟨o, w, h, d, q, e⟩ := holdInRun_link (resetConfig (linkLost u))
  rw [resetConfig_link, f] at e
  exact ⟨(congrArg Link.perst e).trans hup, congrArg Link.dlUp e, congrArg Link.bme e, congrArg Link.cfg e,
    fun hi => holdInRun_hold (hr.trans hi)⟩

theorem functionLevelReset_resets (hl : s.link.dlUp = true) :
    (functionLevelReset s).link.dlUp = false ∧ (functionLevelReset s).link.lstate = .down ∧
      (functionLevelReset s).link.gen2 = false ∧ (functionLevelReset s).link.bme = false ∧
      (functionLevelReset s).link.cfg = linkCfgReset ∧
      (mayTrain s = true → (functionLevelReset s).link.training = true) ∧
      (inRun s = true → (functionLevelReset s).link.hold = true) := by
  rw [functionLevelReset_eq hl, mayTrain_levelReset]
  have hv : (levelReset s).link = _ := resetConfig_link
  obtain ⟨t, r, ht, htrue⟩ := trainIf_link (s := levelReset s) (mayTrain s)
  have hr : inRun (if mayTrain s then train (levelReset s) else levelReset s) = inRun s := by
    unfold inRun
    rw [trainIf_pwr, levelReset_pwr]
  obtain ⟨o, w, h, d, q, e⟩ := holdInRun_link (if mayTrain s then train (levelReset s) else levelReset s)
  rw [ht, hv] at e
  exact ⟨congrArg Link.dlUp e, congrArg Link.lstate e, congrArg Link.gen2 e, congrArg Link.bme e, congrArg Link.cfg e,
    fun hm => (congrArg Link.training e).trans (htrue hm), fun hi => holdInRun_hold (hr.trans hi)⟩

end

/-- Settles O21: each command of the hold by the parts of the link that `holdNow`, `releaseNow` and `configWrite` set, each
reset by those that `resetConfig` puts back (the values of `linkCfgReset` are notes/assumptions/31.md). -/
theorem holdsAndResets : Obligations.HoldsAndResets := by
  unfold Obligations.HoldsAndResets
  refine ⟨fun c k s => ⟨fun hd => ⟨_, congrArg Host.Outcome.next (if_pos hd), holdSet_sets⟩,
    fun hd ho hb => ⟨_, congrArg Host.Outcome.next (if_pos (by rw [hd, hb]; rfl)), holdRelease_releases ho hb⟩,
    fun hd ho hb => ⟨_, congrArg Host.Outcome.next (if_neg (by rw [hd, hb]; decide)), holdRelease_waits ho hb⟩,
    fun hl => ⟨⟨_, rfl, bmeSet_sets hl⟩, ⟨_, rfl, bmeClear_clears hl⟩⟩⟩,
    fun s => ⟨fun hd hh => ⟨_, rfl, perstAssert_resets hd hh⟩, fun hl => ⟨_, rfl, functionLevelReset_resets hl⟩⟩⟩

/-! ### Training, and the link up and down (R84 to R86, R396) -/

section
variable {s : State}

theorem mayTrain_of (hd : s.den.up = true) (hh : s.pwr.pstate ≠ .hush)
    (hs : s.pwr.stage = .heldImage ∨ s.pwr.stage = .blank ∨ s.pwr.stage = .started) : mayTrain s = true := by
  simpa [mayTrain, inHush, hd, hh, or_assoc] using hs

section
variable (hm : mayTrain s = true) (hl : s.link.dlUp = false)
include hm hl

theorem linkTrainingStart_eq : linkTrainingStart s =
    train (modLink (fun l => { l with perst := false, since := some (now s) }) s) := if_neg (by simp [hm, hl])

theorem linkRetrain_eq (hp : s.link.perst = false) (hr : s.clk.refEmber = true) : linkRetrain s = train s :=
  if_neg (by simp [hm, hl, hp, hr])

end

/-- The link comes up in L0, and LINK_LOST ends. -/
def linkRises (g : Bool) (s : State) : State :=
  endCause 168 3 (modLink (fun l => { l with
    dlUp := true, training := false, gen2 := g && !s.clk.refEmber && l.cfg.target5, lstate := .l0, wakePend := 0,
    clkreqReleased := false }) s)

/-- What the hub sends as the link comes up: LTR in RUN, the shadow page where it is to be written again, and the messages
whose mask was lifted. -/
def linkGreets (s : State) : State :=
  let s3 := if s.pwr.iface = .run then sendLtr s else s
  sendUnmasked (if s3.link.rewrite && dmaOk s3 then modLink (fun l => { l with rewrite := false }) (shadowPage s3) else s3)

theorem linkUp_eq (g : Bool) (hm : mayTrain s = true) (ht : s.link.training = true) (hl : s.link.dlUp = false)
    (hp : s.link.perst = false) : linkUp g s = linkGreets (linkRises g s) := if_neg (by simp [hm, ht, hl, hp])

theorem linkGreets_link : ∃ n r d w, (linkGreets s).link =
    { s.link with ltrTold := n, rewrite := r, shadowDue := d, masked := w } := by
  unfold linkGreets
  extract_lets u
  have hu : ∃ n, u.link = { s.link with ltrTold := n } := by
    unfold u
    split
    · exact sendLtr_link s
    · exact ⟨s.link.ltrTold, rfl⟩
  obtain ⟨n, hn⟩ := hu
  split
  · obtain ⟨w, hw⟩ := sendUnmasked_link (modLink (fun l => { l with rewrite := false }) (shadowPage u))
    obtain ⟨d, hd⟩ := shadowPage_link u
    exact ⟨n, false, d, w, by rw [hw, modLink_link, hd, hn]⟩
  · obtain ⟨w, hw⟩ := sendUnmasked_link u
    exact ⟨n, s.link.rewrite, s.link.shadowDue, w, by rw [hw, hn]⟩

theorem linkGreets_flt : (linkGreets s).flt = s.flt := by
  unfold linkGreets
  extract_lets u
  have hu : Within 0x81 s u := by
    unfold u
    split
    · exact sendLtr_within (.refl _ s) (Sub.of rfl)
    · exact .refl _ s
  refine (sendUnmasked_within (L := 0x81) ?_ (Sub.of rfl)).keeps .flt rfl
  split
  · exact modLink_within _ (shadowPage_within hu (Sub.of rfl)) (Sub.of rfl) (.inl fun _ => rfl) (.inl fun _ => rfl)
      (.inl fun _ => rfl) (.inl fun _ => rfl) (.inl fun _ => rfl) (.inl fun _ => rfl) (.inl fun _ => rfl)
  · exact hu

theorem linkUp_rises (g : Bool) (hm : mayTrain s = true) (ht : s.link.training = true) (hl : s.link.dlUp = false)
    (hp : s.link.perst = false) :
    (linkUp g s).link.dlUp = true ∧ (linkUp g s).link.training = false ∧ (linkUp g s).link.lstate = .l0 ∧
      isPresent (linkUp g s) 168 3 = false ∧ (linkUp g s).link.gen2 = (g && !s.clk.refEmber && s.link.cfg.target5) := by
  rw [linkUp_eq g hm ht hl hp]
  obtain ⟨n, r, d, w, e⟩ := linkGreets_link (s := linkRises g s)
  rw [show (linkRises g s).link = _ from endCause_link _ 168 3] at e
  refine ⟨congrArg Link.dlUp e, congrArg Link.training e, congrArg Link.lstate e, ?_, congrArg Link.gen2 e⟩
  rw [isPresent_of_flt linkGreets_flt]
  exact endCause_absent _ 168 2

/-- The link as its loss leaves it: down, and on XCLK in training again. -/
def linkFallen (s : State) : State :=
  if s.link.dlUp && mayTrain s && !s.link.perst && !s.clk.refEmber then train (linkLost s) else linkLost s

theorem linkDown_eq (hd : s.den.up = true) : linkDown s =
    if inRun s && !s.link.hold && !inHush s then raiseOnce 168 3 (linkFallen s) else linkFallen s := if_neg (by simp [hd])

theorem linkFallen_within : Within 0x482 s (linkFallen s) := by
  have w : Within 0x482 s (linkLost s) := linkLost_within (.refl _ s) (Sub.of rfl)
  exact .ite (train_within w (Sub.of rfl)) w

theorem linkFallen_down (hl : s.link.dlUp = true) :
    (linkFallen s).link.dlUp = false ∧ (linkFallen s).link.lstate = .down := by
  obtain ⟨g, l, c, e, hd⟩ := linkLost_link (s := s)
  obtain ⟨t, r, f, -⟩ := trainIf_link (s := linkLost s) (s.link.dlUp && mayTrain s && !s.link.perst && !s.clk.refEmber)
  rw [e, hd hl] at f
  exact ⟨congrArg Link.dlUp f, congrArg Link.lstate f⟩

/-- In RUN without a hold a loss latches LINK_LOST. -/
theorem linkDown_latches (hd : s.den.up = true) (hr : inRun s = true) (ho : s.link.hold = false) (hh : s.pwr.pstate ≠ .hush)
    (hp : isPresent s 168 3 = false) (hb : s.pwr.burrowing = false) : Latched (linkDown s) 168 3 := by
  rw [linkDown_eq hd, if_pos (by simp [hr, ho, inHush, hh])]
  exact raiseOnce_latched (by decide) (by decide) (linkFallen_within.quiet hb (by decide))
    ((isPresent_of_flt (linkFallen_within.keeps .flt rfl) _ _).trans hp)

theorem linkDown_quiet (hd : s.den.up = true) (h : inRun s = false ∨ s.link.hold = true) : linkDown s = linkFallen s :=
  (linkDown_eq hd).trans (if_neg (by rcases h with h | h <;> simp [h]))

/-! ### Power states of the link (R74, R75) -/

theorem l1Entry_enters {sub : Fin 3} (hl : s.link.dlUp = true) (h0 : s.link.lstate = .l0) (ha : s.link.cfg.aspmL1 = true) :
    (l1Entry sub s).link.lstate = if sub = 2 ∧ s.link.cfg.l12 = true then .l12
      else if sub = 1 ∧ s.link.cfg.l11 = true then .l11 else .l1 := by
  unfold l1Entry
  dsimp only
  rw [if_neg (by simp [hl, h0, ha]), modLink_link]
  simp only [Bool.and_eq_true, decide_eq_true_eq]

theorem l1Exit_exits {b : Bool} (hl : s.link.dlUp = true) (h0 : s.link.lstate ≠ .l0) (hd : s.link.lstate ≠ .down) :
    (l1Exit b s).link.lstate = .l0 ∧ (b = false → (l1Exit b s).link.pollDue = true) := by
  unfold l1Exit
  rw [if_neg (by simp [hl, h0, hd]), modLink_link]
  exact ⟨rfl, fun hb => by simp [hb]⟩

/-! ### The lifting of a mask (R72) -/

/-- The configuration with the mask of message `v` lifted. -/
def unmasked (v : Fin 32) (c : LinkCfg) : LinkCfg :=
  if c.msix then { c with msixMask := c.msixMask &&& ~~~(at_ v.val 1) }
  else { c with msiMask := c.msiMask &&& ~~~(at_ v.val 1) }

theorem vectorUnmask_eq {v : Fin 32} (hl : s.link.dlUp = true) : vectorUnmask v s =
    sendUnmasked (modLink (fun l => { l with cfg := unmasked v l.cfg }) s) := if_neg (by simp [hl])

theorem unmasked_mask (v : Fin 32) (c : LinkCfg) :
    (if c.msix then bit (unmasked v c).msixMask v.val else bit (unmasked v c).msiMask v.val) = false := by
  unfold unmasked
  split <;> exact (bit_clear _ _ _).trans (by simp)

/-- The mask is lifted in the configuration (R72). -/
theorem vectorUnmask_lifts {v : Fin 32} (hl : s.link.dlUp = true) :
    (if s.link.cfg.msix then bit (vectorUnmask v s).link.cfg.msixMask v.val
      else bit (vectorUnmask v s).link.cfg.msiMask v.val) = false := by
  rw [vectorUnmask_eq hl]
  obtain ⟨w, e⟩ := sendUnmasked_link (modLink (fun l => { l with cfg := unmasked v l.cfg }) s)
  rw [e]
  exact unmasked_mask v s.link.cfg

theorem vectorUnmask_sends {v : Fin 32} (hl : s.link.dlUp = true) (hb : bit s.link.masked v.val = true)
    (hd : dmaOk s = true) (hx : s.link.cfg.msix = true) (ha : s.link.cfg.msixAll = false) :
    messageOut s.link.cfg v.val ∈ (vectorUnmask v s).out ∧ bit (vectorUnmask v s).link.masked v.val = false := by
  have hm : unmasked v s.link.cfg = { s.link.cfg with msixMask := s.link.cfg.msixMask &&& ~~~(at_ v.val 1) } := if_pos hx
  have ho : messageOut (unmasked v s.link.cfg) v.val = messageOut s.link.cfg v.val := by
    rw [hm]
    rfl
  rw [vectorUnmask_eq hl, ← ho]
  refine sendUnmasked_sends v.isLt hb ?_ hd
  rw [modLink_link, hm]
  unfold maskedNow
  rw [if_pos hx, ha, Bool.false_or]
  exact (bit_clear _ _ _).trans (by simp)

end

/-- Settles O22: each command by what it leaves of the link, the message held back by `sendUnmasked_sends`. That an exit from
L1 makes a poll due in SETUP and while HELD too is notes/assumptions/79.md. -/
theorem linkComesAndGoes : Obligations.LinkComesAndGoes := by
  unfold Obligations.LinkComesAndGoes
  intro g b sub v s hd
  refine ⟨fun hh hs hl => ?_, fun hr ho hh hp hb => ⟨_, rfl, linkDown_latches hd hr ho hh hp hb⟩, fun hl =>
    ⟨fun h => ⟨_, rfl, by rw [linkDown_quiet hd h]; exact linkFallen_down hl⟩, fun h0 ha => ⟨_, rfl, l1Entry_enters hl h0 ha⟩,
      fun h0 hn => ⟨_, rfl, l1Exit_exits hl h0 hn⟩, ⟨_, rfl, vectorUnmask_lifts hl, vectorUnmask_sends hl⟩⟩⟩
  have hm := mayTrain_of hd hh hs
  exact ⟨⟨_, congrArg Host.Outcome.next (linkTrainingStart_eq hm hl), rfl, rfl, rfl⟩,
    fun hp hr => ⟨_, congrArg Host.Outcome.next (linkRetrain_eq hm hl hp hr), rfl⟩,
    fun hp ht => ⟨_, rfl, linkUp_rises g hm ht hl hp⟩⟩

/-! ### The poll of the submission rings (R89, R92) -/

/-- A fold that changes what `π` shows at `q` alone, by `g`. -/
theorem foldl_at_once {α β γ : Type} {f : β → α → β} {π : β → γ} {g : γ → γ} {q : α} {l : List α} (hn : l.Nodup)
    (hq : q ∈ l) (hne : ∀ b a, a ≠ q → π (f b a) = π b) (hg : ∀ b, π (f b q) = g (π b)) (b : β) :
    π (l.foldl f b) = g (π b) := by
  obtain ⟨l₁, l₂, rfl⟩ := List.append_of_mem hq
  have away : ∀ l : List α, q ∉ l → ∀ b, π (l.foldl f b) = π b := fun l hl b =>
    List.foldlRecOn (motive := fun x => π x = π b) l f rfl fun x hx a ha =>
      (hne x a fun e => hl (e ▸ ha)).trans hx
  have hd := List.nodup_append.1 hn
  have h₁ : q ∉ l₁ := fun h => hd.2.2 q h q List.mem_cons_self rfl
  have h₂ : q ∉ l₂ := (List.nodup_cons.1 hd.2.1).1
  rw [List.foldl_append, List.foldl_cons, away l₂ h₂, hg, away l₁ h₁]

/-- One SQ as a poll leaves it: its producer index seen where the ring is in use. -/
def sqSeen (v : Word) (x : Word × SqRing) : Word × SqRing :=
  (x.1, if ringOn x.1 then (seeSq v (ringSize x.1) x.2).1 else x.2)

theorem pollSqs_sq (p : DoorbellPage) (q : Fin 16) (s : State) :
    (sqCfg (pollSqs p s).1 q.val, (pollSqs p s).1.link.sqs[q]) = sqSeen p.sqProd[q] (sqCfg s q.val, s.link.sqs[q]) := by
  refine foldl_at_once (π := fun a : State × Bool => (sqCfg a.1 q.val, a.1.link.sqs[q])) (g := sqSeen p.sqProd[q])
    (List.nodup_finRange 16) (List.mem_finRange q) ?_ ?_ (s, false)
  · intro a j hj
    split
    · exact Prod.ext rfl (upd_ne _ _ hj)
    · rfl
  · intro a
    unfold sqSeen sqOn
    split
    · exact Prod.ext rfl (upd_self _ _ _)
    · rfl

theorem pollSqs_on {p : DoorbellPage} {q : Fin 16} {s : State} (h : sqOn s q = true) :
    (pollSqs p s).1.link.sqs[q] = (seeSq p.sqProd[q] (ringSize (sqCfg s q.val)) s.link.sqs[q]).1 :=
  (congrArg Prod.snd (pollSqs_sq p q s)).trans (if_pos h)

theorem seeSq_within {v : Word} {size : Nat} {r : SqRing} (h : (v - r.cons).toNat ≤ size) :
    (seeSq v size r).1 = { r with bad := false, prod := v } := by
  unfold seeSq
  rw [if_neg (by omega)]

theorem seeSq_beyond {v : Word} {size : Nat} {r : SqRing} (h : size < (v - r.cons).toNat) :
    (seeSq v size r).1 = { r with bad := true } := by
  unfold seeSq
  rw [if_pos h]

/-- What a poll does once the SQs' producer indices are seen. -/
def pollRest (p : DoorbellPage) (new : Bool) (s : State) : State :=
  let s2 := nextInterval new (roomAgain (judgeFull (drainEvents (judgeRings (pollTail p s)))))
  shadowWrite 0x200 ((now s2).setWidth 64) (shadowChanges (modLink (fun l => { l with lastPoll := now s2 }) s2))

theorem doorbellPoll_eq {p : DoorbellPage} {s : State} (hr : inRun s = true) (hd : dmaOk s = true)
    (ho : s.link.hold = false) : doorbellPoll p s =
      pollRest p (pollSqs p (modLink wakeSqs (readPage s))).2 (pollSqs p (modLink wakeSqs (readPage s))).1 :=
  if_neg (by simp [hr, hd, ho])

/-- The rest of a poll leaves the SQs as they were seen. -/
theorem pollRest_sqs {p : DoorbellPage} {new : Bool} {s : State} (hb : s.pwr.burrowing = false) :
    (pollRest p new s).link.sqs = s.link.sqs := by
  have w1 : Within 0x73ff8fff4d7 s (judgeRings (pollTail p s)) :=
    judgeRings_within (pollTail_within p (.refl _ s) (Sub.calm hb rfl)) (Sub.calm hb rfl)
  have w2 : Within 0x73ff8fff4d7 s (roomAgain (judgeFull (drainEvents (judgeRings (pollTail p s))))) :=
    roomAgain_within (judgeFull_within (drainEvents_within w1 (Sub.of rfl)) (Sub.of rfl)) (Sub.of rfl)
  have w3 := nextInterval_within new w2 (Sub.of rfl)
  refine Within.keeps (L := 0x73ff8fff4d7) ?_ .sqs rfl
  unfold pollRest
  exact shadowWrite_within _ _ (shadowChanges_within (modLink_within _ w3 (Sub.of rfl) (.inl fun _ => rfl)
    (.inl fun _ => rfl) (.inl fun _ => rfl) (.inl fun _ => rfl) (.inl fun _ => rfl) (.inl fun _ => rfl)
    (.inl fun _ => rfl)) (Sub.of rfl)) (Sub.of rfl)

/-- What the poll makes of SQ `q`, its entry due again. -/
theorem doorbellPoll_sq {p : DoorbellPage} {q : Fin 16} {s : State} (hr : inRun s = true) (hd : dmaOk s = true)
    (ho : s.link.hold = false) (hb : s.pwr.burrowing = false) (hq : sqOn s q = true) :
    (doorbellPoll p s).link.sqs[q] =
      (seeSq p.sqProd[q] (ringSize (sqCfg s q.val)) { s.link.sqs[q] with stalled := false }).1 := by
  have w : Within 1 s (readPage s) := readPage_within (.refl _ s) (Sub.of rfl)
  have hc : sqCfg (modLink wakeSqs (readPage s)) q.val = sqCfg s q.val := reg_of_regs (w.keeps .regs rfl) _
  have hs : (modLink wakeSqs (readPage s)).link.sqs[q] = { s.link.sqs[q] with stalled := false } := by
    rw [modLink_link, show (readPage s).link = s.link from w.keeps .link rfl]
    exact Vector.getElem_map _ _
  have hp : (pollSqs p (modLink wakeSqs (readPage s))).1.pwr = s.pwr :=
    ((pollSqs_within (L := 0x880) p (.refl _ _) (Sub.of rfl)).keeps .pwr rfl).trans (w.keeps .pwr rfl)
  rw [doorbellPoll_eq hr hd ho, pollRest_sqs (by rw [hp]; exact hb), pollSqs_on (by unfold sqOn; rw [hc]; exact hq), hc, hs]

/-! ### Failed reads (R81) -/

/-- A failed read is counted and noted; a ring whose entry it was waits for the next poll. -/
def readFailed (what : ReadOf) (e : ReadError) (s : State) : State :=
  match what with
  | .doorbell => modLink (fun l => { l with dbFails := l.dbFails + 1 }) (noteDmaErr 0 (readErrCode e) 0 s)
  | .sq q => modLink (fun l => { l with sqFails := upd l.sqFails q (· + 1),
                                        sqs := upd l.sqs q (fun r => { r with stalled := true }) })
               (noteDmaErr 1 (readErrCode e) q.val s)

/-- Failed reads in a row. -/
def failsOf (what : ReadOf) (s : State) : Nat := match what with
  | .doorbell => s.link.dbFails
  | .sq q => s.link.sqFails[q]

section
variable {what : ReadOf} {e : ReadError} {s : State}

theorem failsOf_readFailed : failsOf what (readFailed what e s) = failsOf what s + 1 := by
  cases what with
  | doorbell => rfl
  | sq q => exact upd_self _ _ _

theorem readFailed_flt : (readFailed what e s).flt = s.flt := by cases what <;> rfl
theorem readFailed_pwr : (readFailed what e s).pwr = s.pwr := by cases what <;> rfl

variable (hr : inRun s = true) (hd : dmaOk s = true) (ho : s.link.hold = false)
include hr hd ho

theorem dmaReadFail_eq : dmaReadFail what e s = if failsOf what s + 1 < 3 then readFailed what e s else
    raiseOnce 168 1 (modLink (fun l => { l with dmaFail := true, dbFails := 0, sqFails := Vector.replicate 16 0 })
      (holdNow (readFailed what e s))) := by
  rw [← failsOf_readFailed (e := e)]
  unfold dmaReadFail
  rw [if_neg (by simp [hr, hd, ho])]
  cases what <;> rfl

theorem dmaReadFail_notes (h : failsOf what s < 2) : dmaReadFail what e s = readFailed what e s :=
  (dmaReadFail_eq hr hd ho).trans (if_pos (by omega))

/-- The third failed read in a row latches DMA_FAIL (R81). -/
theorem dmaReadFail_latches (h : failsOf what s = 2) (hp : isPresent s 168 1 = false) (hb : s.pwr.burrowing = false) :
    Latched (dmaReadFail what e s) 168 1 := by
  rw [dmaReadFail_eq hr hd ho, if_neg (by omega)]
  refine raiseOnce_latched (by decide) (by decide) ?_ ((isPresent_of_flt ?_ _ _).trans hp)
  · rw [modLink_pwr, holdNow_pwr, readFailed_pwr, hb]
  · rw [modLink_flt, holdNow_flt, readFailed_flt]

end

/-! ### Errors that AER logs (R82, R86) -/

/-- The errors logged and the correctable ones counted. -/
def aerLogged (st co : Word) (s : State) : State :=
  countReg 0x0418 15 0 (ones co)
    (modLink (fun l => { l with aer := s.link.aer ||| st, aerCorr := l.aerCorr ||| co }) s)

section
variable {st co : Word} {s : State} (hl : s.link.dlUp = true)
include hl

theorem aerUncorrectable_eq : aerUncorrectable st co s =
    if s.link.aer ||| st = 0 then aerLogged st co s else raiseOnce 168 2 (aerLogged st co s) := if_neg (by simp [hl])

theorem aerUncorrectable_latches (h : s.link.aer ||| st ≠ 0) (hp : isPresent s 168 2 = false)
    (hb : s.pwr.burrowing = false) : Latched (aerUncorrectable st co s) 168 2 := by
  rw [aerUncorrectable_eq hl, if_neg h]
  exact raiseOnce_latched (by decide) (by decide) hb hp

/-- Correctable errors alone are only counted (R82). -/
theorem aerUncorrectable_counts (h : s.link.aer = 0) : aerUncorrectable 0 co s =
    countReg 0x0418 15 0 (ones co) (modLink (fun l => { l with aerCorr := l.aerCorr ||| co }) s) := by
  have hz : s.link.aer ||| 0 = s.link.aer := BitVec.or_zero
  rw [aerUncorrectable_eq hl, if_pos (hz.trans h)]
  unfold aerLogged
  rw [hz]
  rfl

end

/-- Settles O23: the SQ as `doorbellPoll_sq` gives it, the failures by their counts, the AER bits that stand. -/
theorem pollsAndFailures : Obligations.PollsAndFailures := by
  unfold Obligations.PollsAndFailures
  refine ⟨fun p q s hr hd ho hb hq => ⟨_, rfl, ?_⟩, fun q e st co s hb => ⟨fun hr hd ho =>
    ⟨fun h hp => ⟨_, rfl, dmaReadFail_latches hr hd ho h hp hb⟩, fun h hp => ⟨_, rfl, dmaReadFail_latches hr hd ho h hp hb⟩,
      fun h => congrArg Host.Outcome.next (dmaReadFail_notes hr hd ho h),
      fun h => congrArg Host.Outcome.next (dmaReadFail_notes hr hd ho h)⟩,
    fun hl => ⟨fun h hp => ⟨_, rfl, aerUncorrectable_latches hl h hp hb⟩,
      fun h => congrArg Host.Outcome.next (aerUncorrectable_counts hl h)⟩⟩⟩
  have e := doorbellPoll_sq (p := p) hr hd ho hb hq
  refine ⟨fun h => ?_, fun h => ?_⟩
  · have f := e.trans (seeSq_within h)
    exact ⟨congrArg SqRing.prod f, congrArg SqRing.bad f⟩
  · have f := e.trans (seeSq_beyond h)
    exact ⟨(congrArg SqRing.prod f :), congrArg SqRing.bad f⟩

end Sys2Proof.Machine

/-! PROOFS. Rings, handles and armed work: the statements on spec/06, and what every step keeps of the whole state. -/

namespace Sys2Proof.Machine

/-! ### What every command may do -/

/-- Every part. -/
def everyPart : Nat := 0x7fffffffffff

/-- Each command answers a next state, and does to the state what `Within` allows. -/
theorem exec_within (c : Instr) (s : State) : WithinOut everyPart s (exec c s) :=
  match c with
  | .coldStart w => execColdStart_within w (.refl _ s) (.of rfl)
  | .bootHoldClear w => execBootHoldClear_within w (.refl _ s) (.of rfl)
  | .acinValid mv => execAcinValid_within mv (.refl _ s) (.of rfl)
  | .acinInvalid mv => execAcinInvalid_within mv (.refl _ s) (.of rfl)
  | .mainsLoss => execMainsLoss_within (.refl _ s) (.of rfl)
  | .mainsPresence => execMainsPresence_within (.refl _ s) (.of rfl)
  | .sns1Qualify high => execSns1Qualify_within high (.refl _ s) (.of rfl)
  | .hostAutoRun => execHostAutoRun_within (.refl _ s) (.any rfl rfl)
  | .rootStop => execRootStop_within (.refl _ s) (.of rfl)
  | .powerFail edges => execPowerFail_within edges (.refl _ s) (.of rfl)
  | .uvBurrow batsns => execUvBurrow_within batsns (.refl _ s) (.of rfl)
  | .burrowExitBtn w => execBurrowExitBtn_within w (.refl _ s) (.of rfl)
  | .burrowExitAcin w => execBurrowExitAcin_within w (.refl _ s) (.of rfl)
  | .shake => execShake_within (.refl _ s) (.of rfl)
  | .shakePowerOff => execShakePowerOff_within (.refl _ s) (.of rfl)
  | .shakeOffTimeEnd w => execShakeOffTimeEnd_within w (.refl _ s) (.of rfl)
  | .hrstRelease => execHrstRelease_within (.refl _ s) (.of rfl)
  | .glbModeWrite v => execGlbModeWrite_within v (.refl _ s) (.any rfl rfl)
  | .registerWrite src addr be v => execRegisterWrite_within src addr be v (.refl _ s) (.any rfl rfl)
  | .dentimeLoRead src => execDentimeLoRead_within src (.refl _ s) (.of rfl)
  | .authtagLoRead src k => execAuthtagLoRead_within src k (.refl _ s) (.of rfl)
  | .hbeatLoRead src => execHbeatLoRead_within src (.refl _ s) (.of rfl)
  | .glbEpochHiWrite v => execGlbEpochHiWrite_within v (.refl _ s) (.any rfl rfl)
  | .glbEpochLoWrite v => execGlbEpochLoWrite_within v (.refl _ s) (.any rfl rfl)
  | .glbKeyfuseWrite v => execGlbKeyfuseWrite_within v (.refl _ s) (.any rfl rfl)
  | .keyfuseDone => execKeyfuseDone_within (.refl _ s) (.of rfl)
  | .clkDselWrite d v => execClkDselWrite_within d v (.refl _ s) (.any rfl rfl)
  | .linkIpendWrite v => execLinkIpendWrite_within v (.refl _ s) (.any rfl rfl)
  | .chgIntsrcWrite v => execChgIntsrcWrite_within v (.refl _ s) (.any rfl rfl)
  | .ringCfgWrite addr v => execRingCfgWrite_within addr v (.refl _ s) (.any rfl rfl)
  | .linkPollWrite v => execLinkPollWrite_within v (.refl _ s) (.any rfl rfl)
  | .holdSet => execHoldSet_within (.refl _ s) (.of rfl)
  | .holdRelease => execHoldRelease_within (.refl _ s) (.of rfl)
  | .holdReleaseWait => execHoldReleaseWait_within (.refl _ s) (.of rfl)
  | .bmeSet cfg ack => execBmeSet_within cfg ack (.refl _ s) (.of rfl)
  | .bmeClear cfg ack => execBmeClear_within cfg ack (.refl _ s) (.of rfl)
  | .perstAssert => execPerstAssert_within (.refl _ s) (.of rfl)
  | .functionLevelReset => execFunctionLevelReset_within (.refl _ s) (.of rfl)
  | .linkTrainingStart => execLinkTrainingStart_within (.refl _ s) (.of rfl)
  | .linkDown => execLinkDown_within (.refl _ s) (.any rfl rfl)
  | .linkRetrain => execLinkRetrain_within (.refl _ s) (.of rfl)
  | .l1Entry sub => execL1Entry_within sub (.refl _ s) (.of rfl)
  | .l1Exit byPoll => execL1Exit_within byPoll (.refl _ s) (.of rfl)
  | .vectorUnmask v => execVectorUnmask_within v (.refl _ s) (.of rfl)
  | .doorbellPoll page => execDoorbellPoll_within page (.refl _ s) (.any rfl rfl)
  | .dmaReadFail what e => execDmaReadFail_within what e (.refl _ s) (.any rfl rfl)
  | .aerUncorrectable status correctable => execAerUncorrectable_within status correctable (.refl _ s) (.any rfl rfl)
  | .descriptorArrival q d => execDescriptorArrival_within q d (.refl _ s) (.of rfl)
  | .journalWriteDone okA okB => execJournalWriteDone_within okA okB (.refl _ s) (.any rfl rfl)
  | .journalCompaction => execJournalCompaction_within (.refl _ s) (.of rfl)
  | .completionPost cq => execCompletionPost_within cq (.refl _ s) (.of rfl)
  | .reinstateA => execReinstateA_within (.refl _ s) (.of rfl)
  | .reinstateB => execReinstateB_within (.refl _ s) (.of rfl)
  | .reinstateDone ok => execReinstateDone_within ok (.refl _ s) (.any rfl rfl)
  | .biOpen v => execBiOpen_within v (.refl _ s) (.of rfl)
  | .biDataWrite v => execBiDataWrite_within v (.refl _ s) (.of rfl)
  | .biCommit v => execBiCommit_within v (.refl _ s) (.of rfl)
  | .biCommitDone ok => execBiCommitDone_within ok (.refl _ s) (.of rfl)
  | .nop aseq => execNop_within aseq (.refl _ s) (.of rfl)
  | .fence aseq => execFence_within aseq (.refl _ s) (.of rfl)
  | .owlFeed aseq => execOwlFeed_within aseq (.refl _ s) (.any rfl rfl)
  | .handleCreate aseq table => execHandleCreate_within aseq table (.refl _ s) (.of rfl)
  | .handleDestroy aseq => execHandleDestroy_within aseq (.refl _ s) (.any rfl rfl)
  | .railSetV aseq => execRailSetV_within aseq (.refl _ s) (.any rfl rfl)
  | .railEnable aseq vmeas => execRailEnable_within aseq vmeas (.refl _ s) (.of rfl)
  | .railDisable aseq => execRailDisable_within aseq (.refl _ s) (.any rfl rfl)
  | .railGang aseq => execRailGang_within aseq (.refl _ s) (.of rfl)
  | .railLimits aseq => execRailLimits_within aseq (.refl _ s) (.of rfl)
  | .seqGraphRun aseq => execSeqGraphRun_within aseq (.refl _ s) (.any rfl rfl)
  | .relaySet aseq => execRelaySet_within aseq (.refl _ s) (.any rfl rfl)
  | .motorHome aseq => execMotorHome_within aseq (.refl _ s) (.of rfl)
  | .motorMove aseq => execMotorMove_within aseq (.refl _ s) (.of rfl)
  | .motorStop aseq => execMotorStop_within aseq (.refl _ s) (.of rfl)
  | .fanSet aseq => execFanSet_within aseq (.refl _ s) (.of rfl)
  | .adcSeqStart aseq => execAdcSeqStart_within aseq (.refl _ s) (.of rfl)
  | .adcSeqStop aseq => execAdcSeqStop_within aseq (.refl _ s) (.of rfl)
  | .adcUrgent aseq => execAdcUrgent_within aseq (.refl _ s) (.of rfl)
  | .twbXfer aseq buf => execTwbXfer_within aseq buf (.refl _ s) (.of rfl)
  | .twbCensus aseq answers => execTwbCensus_within aseq answers (.refl _ s) (.of rfl)
  | .chgSet aseq => execChgSet_within aseq (.refl _ s) (.of rfl)
  | .lendSet aseq => execLendSet_within aseq (.refl _ s) (.of rfl)
  | .liftSet aseq => execLiftSet_within aseq (.refl _ s) (.of rfl)
  | .gaugeRebase aseq => execGaugeRebase_within aseq (.refl _ s) (.any rfl rfl)
  | .budgetSet aseq => execBudgetSet_within aseq (.refl _ s) (.any rfl rfl)
  | .leashSet aseq => execLeashSet_within aseq (.refl _ s) (.of rfl)
  | .thermalSet aseq => execThermalSet_within aseq (.refl _ s) (.any rfl rfl)
  | .calSnapshot aseq => execCalSnapshot_within aseq (.refl _ s) (.of rfl)
  | .calRestore aseq image => execCalRestore_within aseq image (.refl _ s) (.of rfl)
  | .calRun aseq first second words => execCalRun_within aseq first second words (.refl _ s) (.any rfl rfl)
  | .arm aseq => execArm_within aseq (.refl _ s) (.of rfl)
  | .disarm aseq => execDisarm_within aseq (.refl _ s) (.of rfl)
  | .faultClear aseq vmeas => execFaultClear_within aseq vmeas (.refl _ s) (.any rfl rfl)
  | .faultReactionSet aseq => execFaultReactionSet_within aseq (.refl _ s) (.any rfl rfl)
  | .burrowEnter aseq => execBurrowEnter_within aseq (.refl _ s) (.of rfl)
  | .bootImageWrite aseq image verified => execBootImageWrite_within aseq image verified (.refl _ s) (.of rfl)
  | .journalRead aseq => execJournalRead_within aseq (.refl _ s) (.of rfl)
  | .serviceGrant aseq => execServiceGrant_within aseq (.refl _ s) (.of rfl)
  | .deferredItemServed vmeas => execDeferredItemServed_within vmeas (.refl _ s) (.any rfl rfl)
  | .deferTmo aseq => execDeferTmo_within aseq (.refl _ s) (.any rfl rfl)
  | .unshedHoldExpiry => execUnshedHoldExpiry_within (.refl _ s) (.of rfl)
  | .capBattUpdate batsns => execCapBattUpdate_within batsns (.refl _ s) (.of rfl)
  | .timeTrigger => execTimeTrigger_within (.refl _ s) (.of rfl)
  | .armDelayExpiry slot => execArmDelayExpiry_within slot (.refl _ s) (.of rfl)
  | .xclkLoss => execXclkLoss_within (.refl _ s) (.of rfl)
  | .rootLock => execRootLock_within (.refl _ s) (.any rfl rfl)
  | .lockFailRetry => execLockFailRetry_within (.refl _ s) (.any rfl rfl)
  | .xclkQualified => execXclkQualified_within (.refl _ s) (.any rfl rfl)
  | .emberBad => execEmberBad_within (.refl _ s) (.any rfl rfl)
  | .trimWindow cycles => execTrimWindow_within cycles (.refl _ s) (.of rfl)
  | .sofMark cycles => execSofMark_within cycles (.refl _ s) (.of rfl)
  | .stuckTimer d => execStuckTimer_within d (.refl _ s) (.any rfl rfl)
  | .laneRemeasure n mv => execLaneRemeasure_within n mv (.refl _ s) (.of rfl)
  | .laneSlewDone n => execLaneSlewDone_within n (.refl _ s) (.any rfl rfl)
  | .laneFault n c => execLaneFault_within n c (.refl _ s) (.any rfl rfl)
  | .laneSupplyRecover n mv => execLaneSupplyRecover_within n mv (.refl _ s) (.of rfl)
  | .laneDropout n on => execLaneDropout_within n on (.refl _ s) (.of rfl)
  | .railPgAssert r mv => execRailPgAssert_within r mv (.refl _ s) (.any rfl rfl)
  | .pgTmo r => execPgTmo_within r (.refl _ s) (.any rfl rfl)
  | .prebiasTmo r => execPrebiasTmo_within r (.refl _ s) (.any rfl rfl)
  | .gangDone r => execGangDone_within r (.refl _ s) (.of rfl)
  | .autoShed r current => execAutoShed_within r current (.refl _ s) (.of rfl)
  | .rsCorrection r remote => execRsCorrection_within r remote (.refl _ s) (.any rfl rfl)
  | .senseLost r remote local_ => execSenseLost_within r remote local_ (.refl _ s) (.any rfl rfl)
  | .senseFrozen r amplitude => execSenseFrozen_within r amplitude (.refl _ s) (.any rfl rfl)
  | .windowUv r mv => execWindowUv_within r mv (.refl _ s) (.any rfl rfl)
  | .windowOv r mv => execWindowOv_within r mv (.refl _ s) (.any rfl rfl)
  | .graphNodeStart g ix vmeas => execGraphNodeStart_within g ix vmeas (.refl _ s) (.any rfl rfl)
  | .graphNodeDone g ix => execGraphNodeDone_within g ix (.refl _ s) (.any rfl rfl)
  | .graphNodeTmo g ix => execGraphNodeTmo_within g ix (.refl _ s) (.any rfl rfl)
  | .chgStateChange batsns => execChgStateChange_within batsns (.refl _ s) (.of rfl)
  | .chgTerminate => execChgTerminate_within (.refl _ s) (.any rfl rfl)
  | .chgRecharge batsns => execChgRecharge_within batsns (.refl _ s) (.of rfl)
  | .preTmo => execPreTmo_within (.refl _ s) (.any rfl rfl)
  | .safetyTmo => execSafetyTmo_within (.refl _ s) (.any rfl rfl)
  | .inputAdapt vin => execInputAdapt_within vin (.refl _ s) (.of rfl)
  | .chgFault c => execChgFault_within c (.refl _ s) (.any rfl rfl)
  | .batswOpenFail diff => execBatswOpenFail_within diff (.refl _ s) (.any rfl rfl)
  | .gaugeSample ma batsns => execGaugeSample_within ma batsns (.refl _ s) (.any rfl rfl)
  | .senseRange => execSenseRange_within (.refl _ s) (.any rfl rfl)
  | .batteryRest batsns => execBatteryRest_within batsns (.refl _ s) (.any rfl rfl)
  | .cutoffPend batsns => execCutoffPend_within batsns (.refl _ s) (.of rfl)
  | .cutoff batsns => execCutoff_within batsns (.refl _ s) (.of rfl)
  | .dsgOc ma => execDsgOc_within ma (.refl _ s) (.any rfl rfl)
  | .lendVinReached => execLendVinReached_within (.refl _ s) (.of rfl)
  | .lendStartDone mv => execLendStartDone_within mv (.refl _ s) (.of rfl)
  | .lendStop c => execLendStop_within c (.refl _ s) (.of rfl)
  | .lendFault c => execLendFault_within c (.refl _ s) (.any rfl rfl)
  | .liftReached mv => execLiftReached_within mv (.refl _ s) (.of rfl)
  | .liftFault c => execLiftFault_within c (.refl _ s) (.any rfl rfl)
  | .relayPulseEnd n dip peak => execRelayPulseEnd_within n dip peak (.refl _ s) (.any rfl rfl)
  | .relayPulseAbort n why peak => execRelayPulseAbort_within n why peak (.refl _ s) (.any rfl rfl)
  | .relayRetry n => execRelayRetry_within n (.refl _ s) (.any rfl rfl)
  | .motorBridgeOc m => execMotorBridgeOc_within m (.refl _ s) (.any rfl rfl)
  | .motorBrakeEnd m pos => execMotorBrakeEnd_within m pos (.refl _ s) (.of rfl)
  | .motorStall m => execMotorStall_within m (.refl _ s) (.any rfl rfl)
  | .motorSupplyLost m => execMotorSupplyLost_within m (.refl _ s) (.any rfl rfl)
  | .limitQualified m l active count first => execLimitQualified_within m l active count first (.refl _ s) (.any rfl rfl)
  | .limitChatter m l ages => execLimitChatter_within m l ages (.refl _ s) (.any rfl rfl)
  | .motorTargetReached m => execMotorTargetReached_within m (.refl _ s) (.of rfl)
  | .moveTmo m => execMoveTmo_within m (.refl _ s) (.of rfl)
  | .encoderError m count => execEncoderError_within m count (.refl _ s) (.any rfl rfl)
  | .fanUpdate f rd => execFanUpdate_within f rd (.refl _ s) (.of rfl)
  | .fanTachLost f silent => execFanTachLost_within f silent (.refl _ s) (.any rfl rfl)
  | .fanBlind f => execFanBlind_within f (.refl _ s) (.of rfl)
  | .fanTachBack f => execFanTachBack_within f (.refl _ s) (.of rfl)
  | .fanFault f c => execFanFault_within f c (.refl _ s) (.any rfl rfl)
  | .fanSpinupEnd f => execFanSpinupEnd_within f (.refl _ s) (.of rfl)
  | .fanNotSettled f => execFanNotSettled_within f (.refl _ s) (.of rfl)
  | .adcTrigger q => execAdcTrigger_within q (.refl _ s) (.of rfl)
  | .adcConversionDone c nano => execAdcConversionDone_within c nano (.refl _ s) (.of rfl)
  | .adcCut c => execAdcCut_within c (.refl _ s) (.of rfl)
  | .streamFlush st => execStreamFlush_within st (.refl _ s) (.of rfl)
  | .irqGapEnd => execIrqGapEnd_within (.refl _ s) (.of rfl)
  | .wmEdge k code => execWmEdge_within k code (.refl _ s) (.any rfl rfl)
  | .fcEdge ix mv => execFcEdge_within ix mv (.refl _ s) (.any rfl rfl)
  | .blankWindowEnd c input => execBlankWindowEnd_within c input (.refl _ s) (.any rfl rfl)
  | .tamper es => execTamper_within es (.refl _ s) (.any rfl rfl)
  | .recGapEnd ix => execRecGapEnd_within ix (.refl _ s) (.of rfl)
  | .tamperClear ix mv => execTamperClear_within ix mv (.refl _ s) (.any rfl rfl)
  | .thermalSample die tx => execThermalSample_within die tx (.refl _ s) (.any rfl rfl)
  | .dieShutdown sensor die => execDieShutdown_within sensor die (.refl _ s) (.any rfl rfl)
  | .dieCooled hottest => execDieCooled_within hottest (.refl _ s) (.any rfl rfl)
  | .twbOperationStart p sees alertLow => execTwbOperationStart_within p sees alertLow (.refl _ s) (.of rfl)
  | .twbAttemptEnd p e => execTwbAttemptEnd_within p e (.refl _ s) (.of rfl)
  | .twbTimeout p acked addr => execTwbTimeout_within p acked addr (.refl _ s) (.of rfl)
  | .twbRecovery p sclHigh sdaHigh => execTwbRecovery_within p sclHigh sdaHigh (.refl _ s) (.any rfl rfl)
  | .twbBusStuck p => execTwbBusStuck_within p (.refl _ s) (.of rfl)
  | .alertSweep p rounds stillLow => execAlertSweep_within p rounds stillLow (.refl _ s) (.any rfl rfl)
  | .alertHoldEnd p stillLow => execAlertHoldEnd_within p stillLow (.refl _ s) (.of rfl)
  | .periodicCensus p answers => execPeriodicCensus_within p answers (.refl _ s) (.of rfl)
  | .usbAttach mv => execUsbAttach_within mv (.refl _ s) (.of rfl)
  | .usbStandardRequest r => execUsbStandardRequest_within r (.refl _ s) (.of rfl)
  | .info seq addr => execInfo_within seq addr (.refl _ s) (.of rfl)
  | .regRead seq addr count arg => execRegRead_within seq addr count arg (.refl _ s) (.of rfl)
  | .regWrite seq addr count payload => execRegWrite_within seq addr count payload (.refl _ s) (.any rfl rfl)
  | .jnlRead seq first count arg => execJnlRead_within seq first count arg (.refl _ s) (.of rfl)
  | .calRead seq addr => execCalRead_within seq addr (.refl _ s) (.of rfl)
  | .serviceDescriptor d => execServiceDescriptor_within d (.refl _ s) (.of rfl)
  | .serviceCompletionAck => execServiceCompletionAck_within (.refl _ s) (.of rfl)
  | .grantEnd => execGrantEnd_within (.refl _ s) (.of rfl)
  | .usbVbusOv mv => execUsbVbusOv_within mv (.refl _ s) (.any rfl rfl)
  | .usbFlood refused => execUsbFlood_within refused (.refl _ s) (.any rfl rfl)
  | .owlExpiry o feed => execOwlExpiry_within o feed (.refl _ s) (.any rfl rfl)
  | .owlRung1 o => execOwlRung1_within o (.refl _ s) (.of rfl)
  | .owlRung2 o => execOwlRung2_within o (.refl _ s) (.any rfl rfl)
  | .owlClockStop c => execOwlClockStop_within c (.refl _ s) (.any rfl rfl)
  | .hostrstEnd => execHostrstEnd_within (.refl _ s) (.of rfl)
  | .headValidClear c => execHeadValidClear_within c (.refl _ s) (.of rfl)
  | .overflowClear c => execOverflowClear_within c (.refl _ s) (.of rfl)
  | .fltReactWrite n v => execFltReactWrite_within n v (.refl _ s) (.any rfl rfl)
  | .linkUp gen2 => execLinkUp_within gen2 (.refl _ s) (.of rfl)
  | .usbDetach mv => execUsbDetach_within mv (.refl _ s) (.of rfl)
  | .usbSuspend suspended => execUsbSuspend_within suspended (.refl _ s) (.of rfl)
  | .usbReplyRead => execUsbReplyRead_within (.refl _ s) (.of rfl)
  | .badCmd seq cmd addr => execBadCmd_within seq cmd addr (.refl _ s) (.of rfl)
  | .faultCauseEnd src detail => execFaultCauseEnd_within src detail (.refl _ s) (.any rfl rfl)
  | .softStopDone r => execSoftStopDone_within r (.refl _ s) (.any rfl rfl)

/-- So does each step, on the state that has the queue's rest. -/
theorem step_within (s : State) : WithinOut everyPart { s with pending := s.pending.tail } (step s) := by
  cases hp : s.pending with
  | nil =>
    rw [step_idle hp, List.tail_nil, ← hp]
    exact .next (idle_within (.refl _ s) (.of rfl))
  | cons c rest =>
    unfold step
    rw [hp]
    exact exec_within c _

theorem step_next_within {s t : State} (h : step s = .next t) : Within everyPart { s with pending := s.pending.tail } t := by
  obtain ⟨u, hu, w⟩ := step_within s
  cases hu.symm.trans h
  exact w

/-- Settles O4: nothing that `State.Good` speaks of is in the queue, and each operation keeps it (`Within.good`). -/
theorem goodKept : Obligations.GoodKept := by
  unfold Obligations.GoodKept
  intro s t g h
  exact (step_next_within h).good ⟨g.regs, g.gens, g.partners, g.window, g.image0, g.image1, g.bankA, g.bankB, g.events,
    g.faults, g.recent, g.pointer⟩

/-- Settles O6: no operation unfuses a key slot or stores a word into a fused one (`Within.keys`). -/
theorem fusedKeysStand : Obligations.FusedKeysStand := by
  unfold Obligations.FusedKeysStand
  exact fun _ _ k hk h => (step_next_within h).keys k hk

end Sys2Proof.Machine

namespace Sys2Proof.Machine

/-! ### Items that begin and answer (R105, R132) -/

/-- A verdict that the item gets in a state that holds the items of the one in which its work begins. -/
theorem Works.finishesIn {op : Nat} {a : Word} {it : Item} {s u t : State} {c : Instr} (h : Works op a it s u)
    (hi : t.eng.items = u.eng.items) {v : Verdict} {d : Nat} {r : DWord} (e : exec c s = .next (complete a v d r t)) :
    Finishes c s it v d r t := by
  have ea : it.aseq = a := findItem_aseq h.1.1
  refine ⟨_, e, by rw [ea], h.answers ((findItem_of_items hi a).trans h.item) rfl v d r⟩

/-- A faulty handle is refused with its fault's number (R105). -/
theorem Turn.refusesHandle {op d : Nat} {a : Word} {it : Item} {s : State} {c : Instr} {k : Item → State → State}
    (h : Turn op a it s) (hf : handleErr (takenUp it s) op it.handle = some d)
    (e : exec c s = .next (beginWork op a k s)) : Finishes c s it .refusedHandle d 0 (takenUp it s) := by
  have ea : it.aseq = a := findItem_aseq h.1
  rw [h.begins, hf] at e
  exact ⟨_, e, by rw [ea], (complete_answers (takenUp_findItem h.1) _ _ _).as rfl rfl⟩

/-- An opcode without a class takes handle 0 alone (R120). -/
theorem handleErr_noClass {s : State} {op : Nat} {h : Word} (hc : opClass op = none) (h9 : op ≠ 0x09) (hx : op ≠ 0x38)
    (hh : h ≠ 0) : handleErr s op h = some 1 := by
  unfold handleErr
  rw [hc]
  dsimp only
  rw [if_neg h9, if_neg hx, if_neg hh]

/-! ### FENCE and OWL_FEED (R107, R340) -/

theorem fence_waits {s : State} {it : Item} (ho : it.opcode = 0x01) (h : canStart s it = true) :
    ∀ j ∈ earlier s it, j.ring = it.ring → dormant j = true := by
  intro j hj hr
  unfold canStart at h
  rw [if_pos ho, Bool.and_eq_true, List.all_eq_true] at h
  simpa [hr] using h.2 j hj

theorem owlFeed_eq {a : Word} {it : Item} {s u : State} (h : Works 0x02 a it s u) : exec (.owlFeed a) s = .next (
    if it.redriven then complete a .done 0x11 0 u
    else if !owlEn u 0 then complete a .refusedState 0x10 0 u
    else if owlEarly u && inRun u then
      complete a .done 0x12 (BitVec.ofNat 64 u.owl.owls[(0 : Fin 2)].left) (hostFeed u)
    else complete a .done 0 (BitVec.ofNat 64 u.owl.owls[(0 : Fin 2)].left) (hostFeed u)) :=
  congrArg Host.Outcome.next (h.begins _)

/-- A feed that is not early raises nothing, and so leaves every item. -/
theorem hostFeed_items {u : State} (h : owlEarly u = false ∨ inRun u = false) : (hostFeed u).eng.items = u.eng.items := by
  unfold hostFeed
  split
  · rfl
  · rename_i hn
    have he : owlEarly u = false := h.resolve_right (by simp_all)
    rw [if_neg (by rw [he]; decide)]
    exact (owlFed_within (L := 0x40008000000) 0 (.refl _ u) (.of rfl)).keeps .items rfl

/-- Settles O29: each item by the work that its turn begins, FENCE's start by `fence_waits`, OWL_FEED by `owlFeed_eq`. -/
theorem nopFenceAndFeedAnswer : Obligations.NopFenceAndFeedAnswer := by
  unfold Obligations.NopFenceAndFeedAnswer
  refine fun a it s u => ⟨fun h => h.finishes (congrArg Host.Outcome.next (h.begins _)),
    fun h => h.finishes (congrArg Host.Outcome.next (h.begins _)),
    fun h hh => h.refusesHandle (handleErr_noClass rfl (by decide) (by decide) hh) rfl,
    fence_waits, fun h => ⟨fun hr => ?_, fun hr he => ?_, fun hr he hf => ?_, fun hr he hf hi => ?_⟩,
    fun h hh => h.refusesHandle (handleErr_noClass rfl (by decide) (by decide) hh) rfl⟩
  · exact h.finishes ((owlFeed_eq h).trans (by rw [if_pos hr]))
  · exact h.finishes ((owlFeed_eq h).trans (by rw [hr, he]; rfl))
  · refine h.finishesIn (hostFeed_items hf) ((owlFeed_eq h).trans ?_)
    have hn : (owlEarly u && inRun u) = false := Bool.and_eq_false_iff.2 hf
    rw [hr, he, hn]
    rfl
  · rw [owlFeed_eq h, hr, he, hf, hi]
    rfl

/-! ### HANDLE_CREATE (R115) -/

section
variable {a : Word} {tb : ItemRead} {it : Item} {s u : State} {c slot : Nat} (h : Works 0x08 a it s u)
  (hc : fld (opv it 4) 3 0 = c)
include h hc

theorem handleCreate_refusesClass (hk : c = 0 ∨ c = 7 ∨ 9 < c) :
    handleCreate a tb s = complete a .refusedFormat 7 0 u := by
  refine (h.begins _).trans (if_pos ?_)
  rw [hc]
  simp only [Bool.or_eq_true, decide_eq_true_eq]
  omega

/-- A class that is listed goes on: PARTNER by its port and address, any other by its slot. -/
theorem handleCreate_eq (h7 : c ≠ 7) (h1 : 1 ≤ c) (h9 : c ≤ 9) : handleCreate a tb s =
    if c = 6 then createPartner a it u
    else match createSlot u c (fld (opv it 4) 31 16) with
      | .error e => complete a e.1 e.2 0 u
      | .ok slot =>
        if c = 9 then createGraph a it slot tb u
        else if c = 5 then createSeq a it slot tb u
        else match paramFault u c slot (opv it) with
          | some e => complete a e.1 e.2 0 u
          | none => created a c slot (placeObject c slot (opv it) u) := by
  subst hc
  refine (h.begins _).trans ((if_neg ?_).trans ?_)
  · simp only [Bool.or_eq_true, decide_eq_true_eq]
    omega
  · rfl

theorem handleCreate_refusesSlot (h6 : c ≠ 6) (h7 : c ≠ 7) (h1 : 1 ≤ c) (h9 : c ≤ 9) {e : Refuse}
    (he : createSlot u c (fld (opv it 4) 31 16) = .error e) : handleCreate a tb s = complete a e.1 e.2 0 u := by
  rw [handleCreate_eq h hc h7 h1 h9, if_neg h6, he]

variable (hs : createSlot u c (fld (opv it 4) 31 16) = .ok slot)
include hs

/-- The classes whose parameters all stand in the descriptor. -/
theorem handleCreate_judges (hk : c = 1 ∨ c = 2 ∨ c = 3 ∨ c = 4 ∨ c = 8) : handleCreate a tb s =
    match paramFault u c slot (opv it) with
    | some e => complete a e.1 e.2 0 u
    | none => created a c slot (placeObject c slot (opv it) u) := by
  rw [handleCreate_eq h hc (by omega) (by omega) (by omega), if_neg (by omega), hs]
  dsimp only
  rw [if_neg (by omega), if_neg (by omega)]

end

/-! ### HANDLE_DESTROY (R116) -/

theorem handleDestroy_eq {a : Word} {it : Item} {s u : State} (h : Works 0x09 a it s u) : handleDestroy a s =
    if bodyNames u it.handle then complete a .refusedState 0x03 0 u
    else match destroyFault u a it.handle with
      | some d => complete a .refusedState d 0 u
      | none => ruleEffects u (completeBehind a .done 0 0 (endObject (hClass it.handle) (hSlot it.handle)
          (removeObject (hClass it.handle) (hSlot it.handle) u))) := h.begins _

/-- Settles O30: a creation by its class (`handleCreate_eq`), its slot and its parameters, a destruction by
`handleDestroy_eq`. -/
theorem handlesAreMadeAndEnded : Obligations.HandlesAreMadeAndEnded := by
  unfold Obligations.HandlesAreMadeAndEnded
  refine ⟨fun a tb it s u c slot h hc => ⟨fun hk hs => ⟨fun hp => ?_, fun e hp => ?_⟩, fun h6 => ?_, fun h9 hs => ?_,
    fun h5 hs => ?_, fun h6 h7 h1 h9 e he => h.finishes (congrArg Host.Outcome.next (handleCreate_refusesSlot h hc h6 h7 h1 h9 he)),
    fun hk => h.finishes (congrArg Host.Outcome.next (handleCreate_refusesClass h hc hk))⟩,
    fun a it s u h => ⟨fun hb => ?_, fun hb d hd => ?_, fun hb hd => ?_⟩⟩
  · refine congrArg Host.Outcome.next ((handleCreate_judges h hc hs hk).trans ?_)
    rw [hp]
  · refine h.finishes (congrArg Host.Outcome.next ((handleCreate_judges h hc hs hk).trans ?_))
    rw [hp]
  · subst h6
    exact congrArg Host.Outcome.next (handleCreate_eq h hc (by decide) (by decide) (by decide))
  · subst h9
    refine congrArg Host.Outcome.next ((handleCreate_eq h hc (by decide) (by decide) (by decide)).trans ?_)
    rw [hs]
    rfl
  · subst h5
    refine congrArg Host.Outcome.next ((handleCreate_eq h hc (by decide) (by decide) (by decide)).trans ?_)
    rw [hs]
    rfl
  · exact h.finishes (congrArg Host.Outcome.next ((handleDestroy_eq h).trans (if_pos hb)))
  · refine h.finishes (congrArg Host.Outcome.next ((handleDestroy_eq h).trans ?_))
    rw [hb, hd]
    rfl
  · refine congrArg Host.Outcome.next ((handleDestroy_eq h).trans ?_)
    rw [hb, hd]
    rfl

end Sys2Proof.Machine

namespace Sys2Proof.Machine

/-! ### ARM (R140, R142) -/

/-- What the creation of an object answers: DONE with the object's handle. -/
theorem created_answers {s : State} {a : Word} {it : Item} (h : findItem s a = some it) (c slot : Nat) :
    Answered it .done 0 ((handleOf s c slot).setWidth 64) (created a c slot s) :=
  completeH_answers (s := noteObject c slot a s) h .done 0 _ _

theorem created_now (a : Word) (c slot : Nat) (s : State) : now (created a c slot s) = now s := by
  have w := completeH_within (L := 0x20000fb90c3) a .done 0 ((handleOf s c slot).setWidth 64) (some (handleOf s c slot))
    (.refl _ (noteObject c slot a s)) (.of rfl)
  exact congrArg Den.time (w.keeps .den rfl)

section
variable {a : Word} {it : Item} {s u : State} (h : Works 0x60 a it s u) (hr : armReady it = true)
include h hr

/-- An ARM whose BODY items have come is judged in the order of notes/assumptions/58.md. -/
theorem arm_eq : arm a s =
    if armOperand it then armRefused a .refusedFormat 7 u
    else if it.bodyFail = 1 then armRefused a .refusedFormat 6 u
    else if 2 ≤ it.bodyFail then armRefused a .refusedState 0x10 u
    else match (fins 64).find? (fun k => (u.eng.armed[k]).isNone) with
      | none => armRefused a .refusedState 0x01 u
      | some k =>
        if 128 < armedBodies u + (bodiesOf u a).length then armRefused a .refusedState 0x11 u
        else armTakes a it k u := by
  have hi : itemAt s a armReady = true := by
    unfold itemAt
    rw [h.1.1]
    exact hr
  unfold arm
  rw [hi]
  exact (if_neg (by decide)).trans (h.begins _)

omit hr in
theorem armTakes_answers {k : Fin 64} (hp : timePast u (slotOf it (handleOf u 7 k.val)) = false) :
    Answered it .done 0 ((handleOf u 7 k.val).setWidth 64) (armTakes a it k u) := by
  have hn : timePast (created a 7 k.val (setArmed k (some (slotOf it (handleOf u 7 k.val))) u))
      (slotOf it (handleOf u 7 k.val)) = false := by
    unfold timePast at *
    rw [created_now]
    exact hp
  unfold armTakes
  dsimp only
  rw [hn]
  have e : it.aseq = a := findItem_aseq h.1.1
  subst e
  exact (created_answers (s := setArmed k (some (slotOf it (handleOf u 7 k.val))) u) h.item 7 k.val).as rfl rfl

end

/-! ### DISARM (R143) -/

theorem disarm_eq {a : Word} {it : Item} {s u : State} {k : Fin 64} {x : ArmedSlot} (h : Works 0x61 a it s u)
    (hk : hSlot it.handle = k.val) (hx : u.eng.armed[k] = some x) : disarm a s =
    if x.fired then complete a .refusedState 0x12 0 u
    else completeBehind a .done 0 0 (slotGone k (cancelBodies x.aseq 0 u)) := by
  refine (h.begins _).trans ?_
  rw [hk, fin?_val]
  dsimp only
  rw [hx]

/-! ### Triggers and delays (R140, R141) -/

section
variable {s : State} {k : Fin 64} {x : ArmedSlot}

theorem setArmed_self (k : Fin 64) (x : Option ArmedSlot) (s : State) : (setArmed k x s).eng.armed[k] = x := by
  simp

theorem armed_of_within {L : Nat} {t : State} (w : Within L s t) (hp : L.testBit 21 = false) : t.eng.armed = s.eng.armed :=
  w.keeps .armed hp

/-- The BODY items enter their queues, and the slot waits for nothing more. -/
theorem releaseBodies_armed (k : Fin 64) (x : ArmedSlot) (s : State) :
    (releaseBodies k x s).eng.armed[k] = some { x with due := none } := by
  unfold releaseBodies
  have w : Within 0x118000 _ ((bodiesOf s x.aseq).foldl (fun t a => enterTail a t) (setArmed k (some { x with due := none }) s)) :=
    .foldl (fun _ b hu => enterTail_within b hu (.of rfl)) (.refl _ _)
  rw [armed_of_within w rfl]
  exact setArmed_self k _ s

/-- A slot that has fired, with its trigger's time. -/
def firedAt (t : Time) (x : ArmedSlot) : ArmedSlot := { x with fired := true, due := some t }

/-- The BODY items of a fired slot wait for its DELAY. -/
def delayBodies (bs : List Word) (s : State) : State :=
  bs.foldl (fun u a => modItem a (fun i => { i with phase := .delay, armed := true }) u) s

theorem delayBodies_armed (bs : List Word) (s : State) : (delayBodies bs s).eng.armed = s.eng.armed :=
  armed_of_within (L := 0x18000) (.foldl (fun _ b hu => modItem_within b _ hu (.of rfl)) (.refl _ s)) rfl

theorem fireSlot_eq (t : Time) (hx : s.eng.armed[k] = some x) (hf : x.fired = false) (hr : reserveLow s = false) :
    ∃ u, fireSlot k t s = if x.delay = 0 then releaseBodies k (firedAt t x) u
      else delayBodies (bodiesOf s x.aseq) (setArmed k (some (firedAt t x)) u) := by
  unfold fireSlot
  rw [hx]
  dsimp only
  rw [hf, hr, if_neg (by decide), if_neg (by simp)]
  exact ⟨_, rfl⟩

theorem fireSlot_fires (t : Time) (hx : s.eng.armed[k] = some x) (hf : x.fired = false) (hr : reserveLow s = false) :
    ∃ y, (fireSlot k t s).eng.armed[k] = some y ∧ y.fired = true ∧ y.aseq = x.aseq := by
  obtain ⟨u, e⟩ := fireSlot_eq t hx hf hr
  rw [e]
  by_cases hd : x.delay = 0
  · rw [if_pos hd]
    exact ⟨_, releaseBodies_armed k _ u, rfl, rfl⟩
  · rw [if_neg hd, delayBodies_armed]
    exact ⟨_, setArmed_self k _ u, rfl, rfl⟩

theorem timeTrigger_fires (hx : s.eng.armed[k] = some x) (hw : watched s = true) (hf : x.fired = false) (hd : x.due = none)
    (hp : timePast s x = true) (ho : slotsInOrder s = [k]) : timeTrigger s = fireSlot k (now s) s := by
  unfold timeTrigger fireAll
  rw [hw, ho]
  dsimp only [Bool.not_true, List.foldl_cons, List.foldl_nil]
  rw [hx]
  simp [hf, hd, hp]

theorem armDelayExpiry_eq (hx : s.eng.armed[k] = some x) (hf : x.fired = true) (hd : x.due ≠ none) (hu : s.den.up = true) :
    armDelayExpiry k s = startAll (releaseBodies k x (rootWake s)) := by
  unfold armDelayExpiry
  rw [hx]
  simp [hf, hu, Option.isSome_iff_ne_none.2 hd]

theorem startAll_armed (s : State) : (startAll s).eng.armed = s.eng.armed :=
  armed_of_within (startAll_within (L := 0x108000) (.refl _ s) (.of rfl)) rfl

end

/-- Settles O28: ARM by the order of its judgements (`arm_eq`), DISARM by whether its slot has fired (`disarm_eq`), the
trigger by `fireSlot_fires`, the DELAY's end by `releaseBodies_armed`. -/
theorem armedWorkRuns : Obligations.ArmedWorkRuns := by
  unfold Obligations.ArmedWorkRuns
  refine ⟨fun a it s u k x => ⟨fun h hr => ⟨fun ho => ?_, fun ho hb => ?_, fun ho hb => ?_, fun ho hb hn => ?_,
      fun ho hb hn hm => ?_, fun ho hb hn hm => ⟨_, congrArg Host.Outcome.next ?_, rfl, fun hp => armTakes_answers h hp⟩⟩,
      fun h hk hx => ⟨fun hf => ?_, fun hf => ?_⟩⟩,
    fun k x s hx => ⟨fun hw hf hd hp ho hr => ⟨_, rfl, ?_⟩, fun hf hd hu => ⟨_, rfl, armDelayExpiry_eq hx hf hd hu, ?_⟩⟩,
    fun a it d s h hf => h.refusesHandle hf rfl⟩
  · refine congrArg Host.Outcome.next ((arm_eq h hr).trans ?_)
    rw [if_pos ho]
  · refine congrArg Host.Outcome.next ((arm_eq h hr).trans ?_)
    rw [ho, hb]
    rfl
  · refine congrArg Host.Outcome.next ((arm_eq h hr).trans ?_)
    rw [ho, if_neg (by decide), if_neg (by omega), if_pos hb]
  · refine congrArg Host.Outcome.next ((arm_eq h hr).trans ?_)
    rw [ho, hb, hn]
    rfl
  · refine congrArg Host.Outcome.next ((arm_eq h hr).trans ?_)
    rw [ho, hb, hn]
    exact if_pos hm
  · refine (arm_eq h hr).trans ?_
    rw [ho, hb, hn]
    exact if_neg (Nat.not_lt.2 hm)
  · exact h.finishes (congrArg Host.Outcome.next ((disarm_eq h hk hx).trans (if_pos hf)))
  · refine congrArg Host.Outcome.next ((disarm_eq h hk hx).trans ?_)
    rw [hf]
    rfl
  · rw [timeTrigger_fires hx hw hf hd hp ho]
    exact fireSlot_fires _ hx hf hr
  · rw [armDelayExpiry_eq hx hf hd hu, startAll_armed]
    exact releaseBodies_armed k x _

end Sys2Proof.Machine

namespace Sys2Proof.Machine

/-! ### The door (R99 to R101, R117) -/

section
variable (s : State)

theorem readsOf_out (fuel lim : Nat) (addr : DWord) (len : Nat) : ∃ o, readsOf fuel lim addr len s = { s with out := o } := by
  induction fuel generalizing addr len s with
  | zero => exact ⟨s.out, rfl⟩
  | succ n ih =>
    unfold readsOf
    split
    · exact ⟨s.out, rfl⟩
    · exact ih _ _ _

/-- The entry has been read, and no failed read stands against its SQ any more. -/
def entryRead (q : Fin 16) (s : State) : State := modLink (fun l => { l with sqFails := upd l.sqFails q (fun _ => 0) }) (readSq q s)

theorem entryRead_eq (q : Fin 16) : ∃ o, entryRead q s =
    { s with out := o, link := { s.link with sqFails := upd s.link.sqFails q (fun _ => 0) } } := by
  obtain ⟨o, e⟩ := readsOf_out s 64 (readLimit s) (entryAddr s (0x0440 + 0x10 * q.val) s.link.sqs[q].fetch (ringSize (sqCfg s q.val)) 64) 64
  refine ⟨o, ?_⟩
  unfold entryRead readSq memRead
  rw [e]
  rfl

/-- What the door judges by is not touched by the read of the entry. -/
theorem doorJob_entryRead (q : Fin 16) (d : Descriptor) (it : Item) (b : Bool) : doorJob (entryRead q s) d it b = doorJob s d it b := by
  obtain ⟨o, e⟩ := entryRead_eq s q
  rw [e]
  rfl

theorem modSq_self (q : Fin 16) (f : SqRing → SqRing) : (modSq q f s).link.sqs[q] = f s.link.sqs[q] := by
  show (upd s.link.sqs q f)[q] = _
  simp [upd]

end

section
variable {q : Fin 16} {d : Descriptor} {s : State} (hr : inRun s = true) (hd : dmaOk s = true) (ho : s.link.hold = false)
  (hb : dead s = false)
include hr hd ho hb

theorem descriptorArrival_eq : descriptorArrival q d s =
    if dueSq s ≠ some q then judgeFull s
    else if fld d[0] 31 16 ≠ s.link.sqs[q].fetch.toNat % 65536 then
      rseqMiss q (descItem s (BitVec.ofNat 5 q.val) d) (entryRead q s)
    else queueJob (doorJob s d (descItem s (BitVec.ofNat 5 q.val) d) (opListed (descOp d))) (tookSq q (entryRead q s)) := by
  rw [← doorJob_entryRead s q]
  unfold descriptorArrival
  rw [hr, hd, ho, hb]
  rfl

end

section
variable {q : Fin 16} {s : State}

theorem tookSq_fetch : (tookSq q s).link.sqs[q].fetch = s.link.sqs[q].fetch + 1 :=
  congrArg SqRing.fetch (modSq_self s q fun r => { r with fetch := r.fetch + 1, rseqFails := 0 })

theorem entryRead_queue (q : Fin 16) (s : State) : (entryRead q s).jnl.queue = s.jnl.queue := by
  obtain ⟨o, e⟩ := entryRead_eq s q
  rw [e]

theorem entryRead_sqs (q : Fin 16) (s : State) : (entryRead q s).link.sqs = s.link.sqs := by
  obtain ⟨o, e⟩ := entryRead_eq s q
  rw [e]

/-- A descriptor whose RSEQ does not fit is refused at the third time, and else waits to be read again. -/
theorem rseqMiss_counts (it : Item) : if 2 ≤ s.link.sqs[q].rseqFails then
      (rseqMiss q it s).jnl.queue = s.jnl.queue ++ [.door it .refusedFormat 1 0]
    else (rseqMiss q it s).jnl.queue = s.jnl.queue ∧ (rseqMiss q it s).link.sqs[q].rseqFails = s.link.sqs[q].rseqFails + 1 := by
  unfold rseqMiss
  split
  · rfl
  · exact ⟨rfl, congrArg SqRing.rseqFails (modSq_self s q fun r => { r with rseqFails := r.rseqFails + 1, stalled := true })⟩

end

/-- Settles O24: a descriptor in turn is judged by its RSEQ (`descriptorArrival_eq`); the read of its entry changes neither
the queue to the banks nor the ring (`entryRead_queue`, `entryRead_sqs`). -/
theorem descriptorsAreTaken : Obligations.DescriptorsAreTaken := by
  unfold Obligations.DescriptorsAreTaken
  intro q d s hr hd ho hb
  have e := descriptorArrival_eq (q := q) (d := d) hr hd ho hb
  refine ⟨fun ht hf => ⟨_, rfl, ?_⟩, fun ht hf => ⟨_, rfl, ?_⟩, fun ht => congrArg Host.Outcome.next (e.trans (if_pos ht))⟩
  · rw [e, if_neg (not_not.2 ht), if_neg (not_not.2 hf)]
    refine ⟨congrArg (· ++ _) (entryRead_queue q s), ?_⟩
    show (tookSq q (entryRead q s)).link.sqs[q].fetch = _
    rw [tookSq_fetch, entryRead_sqs]
  · rw [e, if_neg (not_not.2 ht), if_pos hf]
    have m := rseqMiss_counts (q := q) (s := entryRead q s) (descItem s (BitVec.ofNat 5 q.val) d)
    rwa [entryRead_queue, entryRead_sqs] at m

end Sys2Proof.Machine

namespace Sys2Proof.Machine

/-! ### What the writer of the journal leaves of it (R131, R136) -/

/-- The banks in service and those whose reinstatement is asked for stand. -/
structure Journal.Served (j k : Journal) : Prop where
  reinstating : k.reinstating = j.reinstating
  bankA : k.bankA.inService = j.bankA.inService
  bankB : k.bankB.inService = j.bankB.inService

theorem Journal.Served.refl (j : Journal) : j.Served j := ⟨rfl, rfl, rfl⟩

theorem Journal.Served.trans {i j k : Journal} (h : i.Served j) (g : j.Served k) : i.Served k :=
  ⟨g.reinstating.trans h.reinstating, g.bankA.trans h.bankA, g.bankB.trans h.bankB⟩

theorem Journal.Served.of_eq {j k : Journal} (h : k = j) : j.Served k := h ▸ .refl j

section
variable (s : State)

theorem putBank_inService (k : Nat) (w : List Word) (b : Bank) : (putBank k w b).inService = b.inService := by
  unfold putBank
  split <;> rfl

theorem putRec_served (w : List Word) : s.jnl.Served (putRec w s).jnl :=
  ⟨rfl, putBank_inService _ _ _, putBank_inService _ _ _⟩

theorem noteAck_served (cq : Nat) (idx : Word) : s.jnl.Served (noteAck cq idx s).jnl := by
  unfold noteAck
  split <;> exact ⟨rfl, rfl, rfl⟩

theorem putForced_served (w : List Word) : s.jnl.Served (putForced w s).jnl := by
  unfold putForced
  split
  · exact (putRec_served s w).trans (noteAck_served _ _ _)
  · exact putRec_served s w

theorem clearWay_served (fuel ahead : Nat) : s.jnl.Served (clearWay fuel ahead s).jnl := by
  induction fuel generalizing s with
  | zero => exact .refl _
  | succ n ih =>
    unfold clearWay
    split
    · exact (putForced_served s _).trans (ih _)
    · exact .refl _

theorem forget_served : s.jnl.Served (forget s).jnl := by
  unfold forget
  dsimp only
  split
  · split <;> exact ⟨rfl, rfl, rfl⟩
  · exact .refl _

theorem rootWake_served : s.jnl.Served (rootWake s).jnl := .of_eq (rootWake_jnl s)

theorem makeWay_served (n : Nat) : s.jnl.Served (makeWay n s).jnl := by
  unfold makeWay
  split
  · exact rootWake_served s
  · exact (rootWake_served s).trans (clearWay_served _ _ _)

theorem commit_served (w : List Word) : s.jnl.Served (commit w s).jnl := by
  unfold commit
  split
  · exact rootWake_served s
  · exact (((rootWake_served s).trans (clearWay_served _ _ _)).trans (forget_served _)).trans (putRec_served _ w)

theorem owe_served (o : Owed) : s.jnl.Served (owe o s).jnl := ⟨rfl, rfl, rfl⟩

theorem commitNew_served (w : List Word) : s.jnl.Served (commitNew w s).jnl := by
  unfold commitNew
  split
  · exact owe_served s _
  · exact commit_served s w

theorem setupRecord_served (o : Nat) (v : Word) : s.jnl.Served (setupRecord o v s).jnl := by
  unfold setupRecord
  split
  · exact commitNew_served s _
  · exact .refl _

end

/-! ### Banks that fail (R136) -/

section
variable {s : State}

/-- A bank that is retired latches its cause, whatever the raise brings about besides. -/
theorem retireBank_latches {b : Fin 2} {d : Nat} (hi : bankIn s b = true) (hb : s.pwr.burrowing = false)
    (hd : 1 ≤ d ∧ d ≤ 16) : Latched (retireBank b d s) (169 + b.val) d := by
  unfold retireBank
  rw [hi]
  extract_lets s1
  have hq : (commit (bankRec s1) s1).pwr.burrowing = false := by
    have e : _ = s1.pwr := (commit_within (L := 0xc00040) (bankRec s1) (.refl _ s1) (.of rfl)).keeps .pwr rfl
    rw [e, show s1.pwr = s.pwr by unfold s1 modBank; split <;> rfl, hb]
  have w : Within 0x4a083 _ (retireTold b d (commit (bankRec s1) s1)) :=
    sendVector_within 18 (event_within 0x0401 0 b.val d 0 (.refl _ (raise (169 + b.val) d (commit (bankRec s1) s1))) (.of rfl)) (.of rfl)
  exact w.latched (raise_latched (by omega) hd hq) rfl

/-- What follows the read-backs where a bank holds the record: a copy in hand, or the front job's commit. -/
def writeEnds (jobs : List Job) (s : State) : State :=
  match jobs, copyInHand s with
  | [], _ => s
  | _, some w => judgeFull (putForced w s)
  | j :: rest, none => heldWhenDone (judgeFull (copyBetween (commitJob j (modJnl (fun x => { x with queue := rest }) s))))

/-- After a job's commit no more than the following copy, FULL_WAIT and HELD are looked at. -/
theorem jobEnds_within {L : Nat} {s0 : State} (hs : Within L s0 s) (hl : Sub 0x40000c4a283 L) :
    Within L s0 (heldWhenDone (judgeFull (copyBetween s))) :=
  heldWhenDone_within (judgeFull_within (copyBetween_within hs (.le rfl hl)) (.le rfl hl)) (.le rfl hl)

theorem writeEnds_within (jobs : List Job) (s : State) : Within 0x60004ffbac3 s (writeEnds jobs s) := by
  unfold writeEnds
  split
  · exact .refl _ s
  · exact judgeFull_within (putForced_within _ (.refl _ s) (.of rfl)) (.of rfl)
  · refine jobEnds_within (commitJob_within _ (modJnl_within _ (.refl _ s) (.of rfl) ?_ ?_ ?_ ?_ ?_ ?_ ?_ ?_ ?_ ?_ ?_)
      (.of rfl)) (.of rfl)
    iterate 7 exact fun _ => rfl
    iterate 3 exact .inl fun _ => rfl
    exact .inr (.of rfl)

theorem frontWaits_off (h : mustWait s = false) : frontWaits s = false := by
  unfold frontWaits
  rw [h]
  rfl

section
variable (hu : s.den.up = true) (hd : dead s = false) (hm : mustWait s = false)
include hu hd hm

theorem journalWriteDone_held : journalWriteDone true true s = writeEnds s.jnl.queue s := by
  unfold journalWriteDone
  rw [hu, hd, frontWaits_off hm]
  unfold dead at hd
  simp only [Bool.not_true, Bool.and_false, Bool.false_or, hd]
  rfl

variable (hA : s.jnl.bankA.inService = true) (hB : s.jnl.bankB.inService = true)
include hA hB

theorem journalWriteDone_failsA : journalWriteDone false true s = writeEnds s.jnl.queue (retireBank 0 1 s) := by
  unfold journalWriteDone
  rw [hu, hd, frontWaits_off hm, hA, hB]
  rfl

theorem journalWriteDone_failsB : journalWriteDone true false s = writeEnds s.jnl.queue (retireBank 1 1 s) := by
  unfold journalWriteDone
  rw [hu, hd, frontWaits_off hm, hA, hB]
  rfl

end

end

end Sys2Proof.Machine

namespace Sys2Proof.Machine

/-! ### What a commit stands for has happened (R102, R131, R132) -/

section
variable {s : State}

/-- A final verdict's completion stands with the others, posted or held. -/
theorem postFinal_stands (type : Nat) {c : Comp} (hq : c.cq < 16) :
    ∃ p w, { c with pos := p, shown := w } ∈ (postFinal type c s).eng.comps := by
  unfold postFinal
  dsimp only
  rw [if_pos hq]
  split
  · have e : _ = (addComp _ _).eng.comps := (writeCompletion_within (L := 0x1083) c.cq c (.refl _ (addComp
      { c with pos := some (cqProd (countClear c s) c.cq), shown := some (c.cq, cqProd (countClear c s) c.cq) }
      (commit (doneRec type c (cqProd (countClear c s) c.cq)) (countClear c s)))) (.of rfl)).keeps .comps rfl
    rw [e]
    exact ⟨_, _, List.mem_append_right _ (List.mem_singleton_self _)⟩
  · rw [holdComp_comps]
    exact ⟨c.pos, c.shown, List.mem_append_right _ (List.mem_singleton_self _)⟩

theorem startAll_items (s : State) : (startAll s).eng.items = s.eng.items :=
  (startAll_within (L := 0x108000) (.refl _ s) (.of rfl)).keeps .items rfl

/-- An item that is no BODY is taken in as it came. -/
theorem takeIn_item {it : Item} (h : itemBody it = false) :
    { it with armOf := none, began := now s } ∈ (takeIn it s).eng.items := by
  have e : ∀ u x, x ∈ (startAll (modEng (fun e => { e with items := e.items ++ [x] }) u)).eng.items := by
    intro u x
    rw [startAll_items]
    exact List.mem_append_right _ (List.mem_singleton_self x)
  unfold takeIn
  rw [h]
  exact e _ _

theorem commitJob_accepts {it : Item} (h : itemBody it = false) :
    ∃ i ∈ (commitJob (.accept it) s).eng.items, i.tag = it.tag ∧ i.opcode = it.opcode ∧ i.ops = it.ops := by
  unfold commitJob
  exact ⟨_, takeIn_item h, rfl, rfl, rfl⟩

/-- What a refused descriptor's record stands for: its completion, then the consumer index and the BODY tracking. -/
theorem commitJob_door (it : Item) (v : Verdict) (d : Byte) (r : DWord) (s : State) : ∃ a c u,
    commitJob (.door it v d r) s = trackBody it a true (noteAuth (.door it v d r) (passSlot it.ring.toNat (postFinal 5 c u))) ∧
      c.cq = itemCq u it ∧ c.tag = it.tag ∧ c.verdict = v ∧ c.detail = d ∧ c.result = r :=
  ⟨_, _, _, rfl, rfl, rfl, rfl, rfl, rfl⟩

theorem commitJob_answers {it : Item} {v : Verdict} {d : Byte} {r : DWord} (h : it.ring.toNat < 16) :
    ∃ c ∈ (commitJob (.door it v d r) s).eng.comps, c.tag = it.tag ∧ c.verdict = v ∧ c.detail = d ∧ c.result = r := by
  obtain ⟨a, c, u, e, hq, ht⟩ := commitJob_door it v d r s
  have w := trackBody_within (L := 0x20000c188c1) it a true (noteAuth_within (.door it v d r)
    (passSlot_within it.ring.toNat (.refl _ (postFinal 5 c u)) (.of rfl)) (.of rfl)) (.of rfl)
  have k : _ = (postFinal 5 c u).eng.comps := w.keeps .comps rfl
  obtain ⟨p, x, m⟩ := postFinal_stands (s := u) 5 (c := c) (hq ▸ itemCq_lt u h)
  rw [e, k]
  exact ⟨_, m, ht⟩

/-- The commit of the front job leaves the jobs behind it. -/
theorem writeEnds_front {j : Job} {rest : List Job} (hc : copyInHand s = none) :
    writeEnds (j :: rest) s = heldWhenDone (judgeFull (copyBetween (commitJob j (modJnl (fun x => { x with queue := rest }) s)))) := by
  unfold writeEnds
  rw [hc]

theorem writeEnds_copies {jobs : List Job} {w : List Word} (hn : jobs ≠ []) (hc : copyInHand s = some w) :
    writeEnds jobs s = judgeFull (putForced w s) := by
  unfold writeEnds
  cases jobs with
  | nil => exact absurd rfl hn
  | cons j rest => rw [hc]

theorem jobEnds_queue (j : Job) (rest : List Job) :
    (heldWhenDone (judgeFull (copyBetween (commitJob j (modJnl (fun x => { x with queue := rest }) s))))).jnl.queue = rest := by
  have w := jobEnds_within (L := 0x60000ffbac3) (commitJob_within j (.refl _ (modJnl (fun x => { x with queue := rest }) s)) (.of rfl)) (.of rfl)
  exact w.keeps .queue rfl

theorem jobEnds_items (s : State) : (heldWhenDone (judgeFull (copyBetween s))).eng.items = s.eng.items :=
  (jobEnds_within (L := 0x40000c4a283) (.refl _ s) (.of rfl)).keeps .items rfl

theorem jobEnds_comps (s : State) : (heldWhenDone (judgeFull (copyBetween s))).eng.comps = s.eng.comps :=
  (jobEnds_within (L := 0x40000c4a283) (.refl _ s) (.of rfl)).keeps .comps rfl

end

/-! ### Posting a held completion (R69, R94, R109) -/

section
variable {s : State}

/-- Data that one write can carry goes out in one. -/
theorem memWrite_once {data : List Byte} (addr : DWord) (hn : data ≠ []) (hl : data.length ≤ writeLimit s) :
    memWrite addr data s = emit (.memWrite addr data) s := by
  obtain ⟨n, e⟩ : ∃ n, data.length = n + 1 := ⟨_, (Nat.succ_pred_eq_of_pos (List.length_pos_iff.2 hn)).symm⟩
  unfold memWrite
  rw [e]
  unfold writesOf
  rw [if_neg (by simpa using hn), List.take_of_length_le hl, List.drop_of_length_le hl]
  cases n <;> rfl

theorem compWords_bytes (c : Comp) (p : Word) : ((compWords c p).flatMap wordBytes).length = 32 := rfl

/-- A completion is written at the producer index of its CQ, which advances. -/
theorem writeCompletion_posts (q : Fin 16) (c : Comp) (hm : 32 ≤ s.link.cfg.mps) :
    (writeCompletion q.val c s).link.cqs[q].prod = s.link.cqs[q].prod + 1 ∧
    .memWrite (entryAddr s (0x0540 + 0x10 * q.val) s.link.cqs[q].prod (ringSize (cqCfg s q.val)) 32)
      ((compWords c s.link.cqs[q].prod).flatMap wordBytes) ∈ (writeCompletion q.val c s).out := by
  unfold writeCompletion
  rw [dif_pos q.isLt]
  extract_lets p s1 s2
  have e1 : s1 = emit (.memWrite (entryAddr s (0x0540 + 0x10 * q.val) p (ringSize (cqCfg s q.val)) 32) ((compWords c p).flatMap wordBytes))
      (modLink (fun l => { l with cqs := upd l.cqs q (fun r => { r with prod := p + 1 }) }) s) := by
    refine memWrite_once _ (List.ne_nil_of_length_pos (by rw [compWords_bytes]; decide)) ?_
    rw [compWords_bytes]
    exact Nat.le_min.2 ⟨by decide, hm⟩
  have w : Within 0x83 s1 (if quiet c then s2 else sendVector q.val s2) :=
    have w2 : Within 0x83 s1 s2 := shadowWrite_within _ _ (.refl _ s1) (.of rfl)
    .ite w2 (sendVector_within _ w2 (.of rfl))
  constructor
  · have e : _ = s1.link.cqs := w.keeps .cqs rfl
    rw [e, e1]
    exact congrArg OutRing.prod (upd_self _ _ _)
  · refine w.sent.subset ?_
    rw [e1]
    exact List.mem_cons_self

/-- A held completion is written once its newest DONE shows the position. -/
theorem postHeld_eq {q : Nat} {c : Comp} {rest : List Comp} (hh : heldOn s q = c :: rest) (hr : cqRoom s q = true) :
    ∃ u, postHeld q s = writeCompletion q c u ∧ u.regs = s.regs ∧ u.link = s.link := by
  unfold postHeld
  rw [hh]
  dsimp only
  rw [if_pos hr]
  refine ⟨_, rfl, ?_, ?_⟩
  · exact (Within.ite (L := 0xc00040) (.refl _ s) (commit_within _ (.refl _ s) (.of rfl))).keeps .regs rfl
  · exact (Within.ite (L := 0xc00040) (.refl _ s) (commit_within _ (.refl _ s) (.of rfl))).keeps .link rfl

theorem postHeld_posts {q : Fin 16} {c : Comp} {rest : List Comp} (hh : heldOn s q.val = c :: rest)
    (hr : cqRoom s q.val = true) (hm : 32 ≤ s.link.cfg.mps) :
    (postHeld q.val s).link.cqs[q].prod = s.link.cqs[q].prod + 1 ∧
    .memWrite (entryAddr s (0x0540 + 0x10 * q.val) s.link.cqs[q].prod (ringSize (cqCfg s q.val)) 32)
      ((compWords c s.link.cqs[q].prod).flatMap wordBytes) ∈ (postHeld q.val s).out := by
  obtain ⟨u, e, er, el⟩ := postHeld_eq hh hr
  have h := writeCompletion_posts q c (s := u) (by rw [el]; exact hm)
  unfold entryAddr regAddr cqCfg reg at *
  rw [er, el] at h
  rw [e]
  exact h

end

/-! ### Background compaction (R138) -/

theorem compactOne_copies {s : State} {w : List Word} (hu : s.den.up = true) (hd : dead s = false) (hq : s.jnl.queue = [])
    (hf : forced s ((s.jnl.head.toNat + 1) % 2048) = some w) : compactOne s = putForced w s := by
  unfold compactOne copyAhead
  rw [hu, hd, hq]
  dsimp only
  rw [Nat.add_zero, hf]
  rfl

theorem roomAgain_nothing {s : State} (h : s.jnl.owed = []) : roomAgain s = retryFires s := by
  unfold roomAgain
  rw [h]
  rfl

/-! ### Reinstatement (R136) -/

section
variable {s : State} {b : Fin 2}

theorem bankIn_served {t : State} (h : s.jnl.Served t.jnl) (b : Fin 2) : bankIn t b = bankIn s b := by
  unfold bankIn
  rw [h.bankA, h.bankB]

theorem reinstate_asks (hi : bankIn s b = false) (hn : b ∉ s.jnl.reinstating) :
    (reinstate b s).jnl.reinstating = s.jnl.reinstating ++ [b] := by
  unfold reinstate
  rw [hi, List.contains_eq_mem, decide_eq_false hn]
  rfl

theorem jnlCtlStore_flag (b : Fin 2) (s : State) : jnlCtlStore (flag b.val true) s = reinstate b s := by
  match b with
  | 0 => rfl
  | 1 => rfl

/-- A request for a bank out of service stands behind those made before it. -/
theorem reinstateBit_asks (hw : setupWrites s = true) (hi : bankIn s b = false) (hn : b ∉ s.jnl.reinstating) :
    (reinstateBit b s).jnl.reinstating = s.jnl.reinstating ++ [b] := by
  have k := setupRecord_served s 0x0804 (flag b.val true)
  unfold reinstateBit
  rw [inSetup_takes hw, jnlCtlStore_flag, reinstate_asks ((bankIn_served k b).trans hi) (k.reinstating ▸ hn), k.reinstating]

theorem endCause_keepsAbsent {n d : Nat} (e : Nat) (h : isPresent s n d = false) : isPresent (endCause n e s) n d = false := by
  unfold endCause setPresent
  split
  · rename_i m hm
    obtain rfl : m.val = n := by
      unfold fin? at hm
      split at hm
      · exact congrArg Fin.val (Option.some.inj hm).symm
      · cases hm
    rw [isPresent_fin] at h ⊢
    rw [modSrc_flt, upd_self, if_neg Bool.false_ne_true, BitVec.getLsbD_and, h]
    rfl
  · exact h

/-- The three causes of a bank have ended. -/
def bankCausesEnd (n : Nat) (s : State) : State := [1, 2, 3].foldl (fun t d => endCause n d t) s

theorem bankCausesEnd_absent (n : Fin 192) {d : Nat} (h1 : 1 ≤ d) (h3 : d ≤ 3) : isPresent (bankCausesEnd n.val s) n.val d = false := by
  obtain rfl | rfl | rfl : d = 1 ∨ d = 2 ∨ d = 3 := by omega
  · exact endCause_keepsAbsent 3 (endCause_keepsAbsent 2 (endCause_absent s n 0))
  · exact endCause_keepsAbsent 3 (endCause_absent _ n 1)
  · exact endCause_absent _ n 2

theorem bankCausesEnd_jnl (n : Nat) (s : State) : (bankCausesEnd n s).jnl = s.jnl := by
  have w : Within 0x8000000 s (bankCausesEnd n s) := .foldl (fun _ d hu => endCause_within n d hu (.of rfl)) (.refl _ s)
  exact w.keeps .jnl rfl

theorem modBank_in (log : Sparse (List Word)) (s : State) : bankIn (modBank b (fun _ => { inService := true, slots := log }) s) b = true := by
  match b with
  | 0 => rfl
  | 1 => rfl

theorem modBank_reinstating (f : Bank → Bank) (s : State) : (modBank b f s).jnl.reinstating = s.jnl.reinstating := by
  unfold modBank
  show (if _ then _ else _ : Journal).reinstating = _
  split <;> rfl

/-- The bank is in service again with the log's records, its causes ended; `more` are asked back still. -/
def bankBack (b : Fin 2) (more : List (Fin 2)) (s : State) : State :=
  bankCausesEnd (169 + b.val) (modBank b (fun _ => { inService := true, slots := recs (modJnl (fun j => { j with reinstating := more }) s) })
    (modJnl (fun j => { j with reinstating := more }) s))

theorem bankBack_jnl (b : Fin 2) (more : List (Fin 2)) (s : State) :
    (bankBack b more s).jnl.reinstating = more ∧ bankIn (bankBack b more s) b = true := by
  unfold bankBack bankIn
  rw [bankCausesEnd_jnl]
  exact ⟨modBank_reinstating _ _, modBank_in _ _⟩

theorem reinstateDone_eq {more : List (Fin 2)} (hr : s.jnl.reinstating = b :: more) : reinstateDone true s =
    event 0x0405 0 b.val 0 0 (commit (bankRec (bankBack b more s)) (bankBack b more s)) := by
  unfold reinstateDone
  rw [hr]
  rfl

/-- A copy that has been verified brings the bank back, and the causes of its retirement end. -/
theorem reinstateDone_returns {more : List (Fin 2)} (hr : s.jnl.reinstating = b :: more) :
    (reinstateDone true s).jnl.reinstating = more ∧ bankIn (reinstateDone true s) b = true ∧
      ∀ d, 1 ≤ d → d ≤ 3 → isPresent (reinstateDone true s) (169 + b.val) d = false := by
  rw [reinstateDone_eq hr]
  obtain ⟨h1, h2⟩ := bankBack_jnl b more s
  generalize hu : bankBack b more s = u at *
  have w : Within 0x4a083 (commit (bankRec u) u) (event 0x0405 0 b.val 0 0 (commit (bankRec u) u)) :=
    event_within _ _ _ _ _ (.refl _ _) (.of rfl)
  have k := (commit_served u (bankRec u)).trans (.of_eq (w.keeps .jnl rfl))
  refine ⟨k.reinstating.trans h1, (bankIn_served k b).trans h2, fun d hd1 hd3 => ?_⟩
  have f : _ = u.flt := (event_within (L := 0xc4a0c3) 0x0405 0 b.val 0 0 (commit_within (bankRec u) (.refl _ u) (.of rfl)) (.of rfl)).keeps .flt rfl
  rw [isPresent_of_flt f, ← hu]
  exact bankCausesEnd_absent ⟨169 + b.val, by omega⟩ hd1 hd3

end

end Sys2Proof.Machine

namespace Sys2Proof.Machine

/-! ### A fault's reactions leave the banks that wait to be reinstated (R136)

A cause of the journal latches with a reset of the host, a shed tier and everything these bring about, which writes the
journal in many places. None of them asks a bank back or brings one back. `Awaits l` says so of one state; each
operation on the way keeps it. -/

/-- No shutdown toward BURROW runs, and `l` are the banks that wait to be reinstated. -/
structure Awaits (l : List (Fin 2)) (s : State) : Prop where
  burrowing : s.pwr.burrowing = false
  line : s.jnl.reinstating = l

/-- Every part but the journal's own. -/
def besideJournal : Nat := 0x7fffffbfffff

section
variable {l : List (Fin 2)} {s t : State}

/-- An operation whose lemma of the layer `Within` does not name the journal. -/
theorem Awaits.keep {A : Nat} (w : Within besideJournal s s → Sub A besideJournal → Within besideJournal s t)
    (hA : A &&& besideJournal = A) (h : Awaits l s) : Awaits l t where
  burrowing := (w (.refl _ _) (.of hA)).quiet h.burrowing (by decide)
  line := (congrArg Journal.reinstating ((w (.refl _ _) (.of hA)).keeps .jnl rfl)).trans h.line

/-- An operation of the journal's writer. -/
theorem Awaits.served (hj : s.jnl.Served t.jnl) (hp : t.pwr = s.pwr) (h : Awaits l s) : Awaits l t where
  burrowing := hp ▸ h.burrowing
  line := hj.reinstating.trans h.line

theorem Awaits.modPwr {f : Power → Power} (hb : (f s.pwr).burrowing = s.pwr.burrowing) (h : Awaits l s) :
    Awaits l (modPwr f s) :=
  ⟨hb.trans h.burrowing, h.line⟩

theorem Awaits.modJnl {f : Journal → Journal} (hr : (f s.jnl).reinstating = s.jnl.reinstating) (h : Awaits l s) :
    Awaits l (modJnl f s) :=
  ⟨h.burrowing, hr.trans h.line⟩

theorem Awaits.modEng {f : Engine → Engine} (h : Awaits l s) : Awaits l (modEng f s) := ⟨h.burrowing, h.line⟩

theorem Awaits.ite {p : Prop} [Decidable p] (h : Awaits l s) (g : Awaits l t) : Awaits l (if p then s else t) := by
  split <;> assumption

theorem Awaits.foldl {α : Type} {f : State → α → State} {xs : List α} (hf : ∀ u x, Awaits l u → Awaits l (f u x))
    (h : Awaits l s) : Awaits l (xs.foldl f s) := by
  induction xs generalizing s with
  | nil => exact h
  | cons x xs ih => exact ih (hf s x h)

/-! #### Records, completions and the hub's own items -/

theorem commit_awaits {w : List Word} (h : Awaits l s) : Awaits l (commit w s) :=
  .served (commit_served s w) ((commit_within (L := 0xc00040) w (.refl _ s) (.of rfl)).keeps .pwr rfl) h

theorem makeWay_awaits {n : Nat} (h : Awaits l s) : Awaits l (makeWay n s) :=
  .served (makeWay_served s n) ((makeWay_within (L := 0xc00040) n (.refl _ s) (.of rfl)).keeps .pwr rfl) h

theorem owe_awaits {o : Owed} (h : Awaits l s) : Awaits l (owe o s) := ⟨h.burrowing, h.line⟩

theorem slotEnds_awaits {c slot : Nat} (h : Awaits l s) : Awaits l (slotEnds c slot s) := by
  unfold slotEnds
  extract_lets g makers s0 s1
  have h0 : Awaits l s0 := ⟨h.burrowing, h.line⟩
  exact commit_awaits h0.modEng

theorem endObject_awaits {c slot : Nat} (h : Awaits l s) : Awaits l (endObject c slot s) := by
  unfold endObject
  exact .ite (owe_awaits h) (slotEnds_awaits h)

theorem endSlot_awaits {arm : Option Word} (h : Awaits l s) : Awaits l (endSlot arm s) := by
  unfold endSlot
  split
  · exact h
  · refine .ite h ?_
    split
    · exact .ite h (endObject_awaits h)
    · exact h

theorem postFinal_awaits {type : Nat} {c : Comp} (h : Awaits l s) : Awaits l (postFinal type c s) := by
  have h0 : Awaits l (countClear c s) := .keep (countClear_within c) rfl h
  unfold postFinal
  exact .ite (.ite (.keep (writeCompletion_within _ _) rfl <| .keep (addComp_within _) rfl <| commit_awaits h0) <|
      .keep (holdComp_within _) rfl <| commit_awaits h0) <|
    .ite (.keep (postService_within _) rfl <| commit_awaits h0) <| .modJnl rfl <| commit_awaits h0

theorem completeH_awaits {a : Word} {v : Verdict} {d : Nat} {r : DWord} {o : Option Word} (h : Awaits l s) :
    Awaits l (completeH a v d r o s) := by
  unfold completeH
  split
  · exact h
  · exact .keep startAll_within rfl <| endSlot_awaits <| postFinal_awaits <| .keep (dropItem_within _) rfl h

theorem complete_awaits {a : Word} {v : Verdict} {d : Nat} {r : DWord} (h : Awaits l s) : Awaits l (complete a v d r s) :=
  completeH_awaits h

theorem completeOpt_awaits {a : Option Word} {v : Verdict} {d : Nat} {r : DWord} (h : Awaits l s) :
    Awaits l (completeOpt a v d r s) := by
  unfold completeOpt
  split
  · exact complete_awaits h
  · exact h

theorem completeFree_awaits {a : Option Word} {v : Verdict} (h : Awaits l s) : Awaits l (completeFree a v s) := by
  unfold completeFree
  split
  · exact complete_awaits <| .keep (A := 0) (fun w _ => drawNat_within w) rfl h
  · exact h

theorem supersedeOn_awaits {op : Nat} {x : Word} (h : Awaits l s) : Awaits l (supersedeOn op x s) := by
  unfold supersedeOn
  exact .foldl (fun _ _ hu => complete_awaits <| .keep (withdraw_within _) rfl hu) h

theorem hubRecs_awaits {op : Nat} {x : Word} {ops : Vector Word 10} (h : Awaits l s) : Awaits l (hubRecs op x ops s).2 := by
  unfold hubRecs
  dsimp only
  split
  · exact owe_awaits h
  · exact commit_awaits <| commit_awaits <| commit_awaits <| makeWay_awaits h

theorem hubItem_awaits {op : Nat} {x w4 : Word} (h : Awaits l s) : Awaits l (hubItem op x w4 s) :=
  hubRecs_awaits <| supersedeOn_awaits h

/-! #### Armed slots -/

theorem fireSlot_awaits {k : Fin 64} {at_ : Time} (h : Awaits l s) : Awaits l (fireSlot k at_ s) := by
  unfold fireSlot
  split
  · exact h
  · have h1 : ∀ w a b, Awaits l (event 0x0404 a b 0 0 (commit w s)) := fun _ _ _ =>
      .keep (event_within _ _ _ _ _) rfl <| commit_awaits h
    exact .ite h <| .ite (.keep (setArmed_within _ _) rfl h) <| .ite (.keep (releaseBodies_within _ _) rfl (h1 _ _ _)) <|
      .foldl (fun _ _ hu => .keep (modItem_within _ _) rfl hu) <| .keep (setArmed_within _ _) rfl (h1 _ _ _)

theorem fireAll_awaits {p : ArmedSlot → Bool} {at_ : Time} (h : Awaits l s) : Awaits l (fireAll p at_ s) := by
  unfold fireAll
  refine .ite h <| .foldl (fun u k hu => ?_) h
  split
  · exact .ite (fireSlot_awaits hu) hu
  · exact hu

/-! #### Rails, lending and fans -/

theorem settleRail_awaits {r : Fin 48} (h : Awaits l s) : Awaits l (settleRail r s) := by
  unfold settleRail
  refine .foldl (fun u a hu => ?_) h
  split
  · exact .ite (complete_awaits hu) <| .ite (complete_awaits hu) <| .ite (complete_awaits <| .keep (modRail_within _ _) rfl hu) hu
  · exact hu

theorem railDown_awaits {r : Fin 48} {st : RailState} (h : Awaits l s) : Awaits l (railDown r st s) := by
  unfold railDown
  split
  · exact h
  · extract_lets s1 s2 s3 s4 s5
    have h4 : Awaits l s4 := .keep (modRail_within _ _) rfl <| .keep (placeLanes_within _ _) rfl <| .keep (modLanes_within _ _) rfl <|
      .keep (modLanes_within _ _) rfl h
    have h5 : Awaits l s5 := .keep (setPg_within _ _) rfl <| .ite (.keep (release_within _) rfl h4) h4
    exact .ite (settleRail_awaits h5) h5

theorem railIsolate_awaits {r : Fin 48} (h : Awaits l s) : Awaits l (railIsolate r s) := by
  unfold railIsolate
  split
  · exact h
  · have h1 := Awaits.keep (withdrawStarts_within r) rfl <| hubItem_awaits (op := 0x12) (x := railHandle s r) (w4 := 0) h
    exact .ite h1 (.keep (failNodes_within _) rfl <| railDown_awaits h1)

theorem railShed_awaits {r : Fin 48} (h : Awaits l s) : Awaits l (railShed r s) := by
  unfold railShed
  split
  · exact h
  · exact .keep (setBud_within _ _) rfl <| .ite h <| .keep (failNodes_within _) rfl <| railDown_awaits <| hubItem_awaits h

theorem lendAbort_awaits {d : Nat} (h : Awaits l s) : Awaits l (lendAbort d s) := by
  unfold lendAbort
  exact .ite (.keep (lendOff_within _) rfl h) <| completeFree_awaits <| .keep (lendOff_within _) rfl <|
    .keep (withdrawDemand_within _) rfl h

theorem fanItemDone_awaits {f : Fin 4} {d : Nat} (h : Awaits l s) : Awaits l (fanItemDone f d s) := by
  unfold fanItemDone
  split
  · exact completeOpt_awaits <| .keep (modFan_within _ _) rfl h
  · exact h

theorem fanOff_awaits {f : Fin 4} (h : Awaits l s) : Awaits l (fanOff f s) := by
  unfold fanOff
  exact fanItemDone_awaits <| .keep (fanDown_within _ _) rfl <| .keep (withdrawFan_within _) rfl <| .keep (modFan_within _ _) rfl h

theorem fanApply_awaits {f : Fin 4} (h : Awaits l s) : Awaits l (fanApply f s) := by
  have hw := Awaits.keep (withdrawFan_within f) rfl h
  unfold fanApply
  split
  · exact h
  · refine .ite h ?_
    extract_lets t mw s1 r ans s2
    have h2 : Awaits l s2 := .keep (place_within _ _) rfl hw
    exact .ite (.ite h <| .ite hw <| fanOff_awaits h) <| .ite (.keep (fanStart_within _ _) rfl <|
      .keep (lowerGrant_within _ _ _) rfl hw) <| .ite (.keep (fanStart_within _ _) rfl h2) h2

theorem fansApply_awaits (h : Awaits l s) : Awaits l (fansApply s) := by
  unfold fansApply
  refine .foldl (fun u f hu => ?_) h
  split
  · exact .ite hu <| fanApply_awaits hu
  · exact hu

/-! #### Shedding and the power states -/

theorem shedTier_awaits {n cause : Nat} (h : Awaits l s) : Awaits l (shedTier n cause s) := by
  unfold shedTier
  refine .ite h ?_
  extract_lets mw s1 s2 s3 s4 s5
  have h1 : Awaits l s1 := .foldl (fun _ _ hu => railShed_awaits hu) h
  have h2 : Awaits l s2 := .ite (.keep chgUpdate_within rfl h1) h1
  have h3 : Awaits l s3 := .ite (.keep (setBud_within _ _) rfl <| lendAbort_awaits h2) h2
  have h4 : Awaits l s4 := .foldl (fun _ _ hu => .keep (fanShed_within _) rfl hu) h3
  have h5 : Awaits l s5 := .foldl (fun _ _ hu => .keep (setBud_within _ _) rfl hu) h4
  exact .keep (budEvent_within _ _ _ _) rfl <| .keep (countReg_within _ _ _ _) rfl h5

theorem arbitrateN_awaits {fuel : Nat} (h : Awaits l s) : Awaits l (arbitrateN fuel s) := by
  induction fuel generalizing s with
  | zero =>
    unfold arbitrateN
    extract_lets s1 excess
    have h1 : Awaits l s1 := .keep fitCharger_within rfl h
    exact .ite (.keep (modBud_within _) rfl h1) <| .ite h1 <| .keep (budEvent_within _ _ _ _) rfl <|
      .keep (countReg_within _ _ _ _) rfl <| .keep (modBud_within _) rfl h1
  | succ n ih =>
    unfold arbitrateN
    extract_lets s1 excess
    have h1 : Awaits l s1 := .keep fitCharger_within rfl h
    refine .ite (.keep (modBud_within _) rfl h1) ?_
    split
    · cases ‹n + 1 = _›
      exact ih <| shedTier_awaits <| .keep (modBud_within _) rfl h1
    · exact .ite h1 <| .keep (budEvent_within _ _ _ _) rfl <| .keep (countReg_within _ _ _ _) rfl <| .keep (modBud_within _) rfl h1

theorem arbitrate_awaits (h : Awaits l s) : Awaits l (arbitrate s) := arbitrateN_awaits h

theorem seqStopNow_awaits {q : Fin 8} {why : Nat} (h : Awaits l s) : Awaits l (seqStopNow q why s) := by
  unfold seqStopNow
  split
  · exact h
  · exact completeOpt_awaits <| completeOpt_awaits <| .keep (event_within _ _ _ _ _) rfl <| .keep (modSeq_within _ _) rfl h

theorem seqStop_awaits {q : Fin 8} {why : Nat} (h : Awaits l s) : Awaits l (seqStop q why s) := by
  unfold seqStop
  split
  · exact h
  · exact .ite h <| .ite (.keep (modSeq_within _ _) rfl h) (seqStopNow_awaits h)

theorem hushSeqs_awaits (h : Awaits l s) : Awaits l (hushSeqs s) := by
  unfold hushSeqs
  refine .foldl (fun u q hu => ?_) h
  split
  · exact .ite (seqStop_awaits hu) hu
  · exact hu

theorem hushRails_awaits (h : Awaits l s) : Awaits l (hushRails s) := by
  unfold hushRails
  exact .foldl (fun _ _ hu => .ite (railIsolate_awaits hu) hu) h

theorem hushFans_awaits (h : Awaits l s) : Awaits l (hushFans s) := by
  unfold hushFans
  exact fansApply_awaits <| .foldl (fun _ _ hu => .keep (modFan_within _ _) rfl hu) h

theorem enterHush_awaits (h : Awaits l s) : Awaits l (enterHush s) := by
  unfold enterHush
  exact hushSeqs_awaits <| hushFans_awaits <| .keep hushClock_within rfl <| .keep hostDown_within rfl <| hushRails_awaits <|
    .modPwr rfl h

theorem enterOutage_awaits {d : Nat} (h : Awaits l s) : Awaits l (enterOutage d s) := by
  unfold enterOutage
  exact .keep (event_within _ _ _ _ _) rfl <| fireAll_awaits <| arbitrate_awaits <| .keep chgUpdate_within rfl <| .modPwr rfl h

theorem enterFull_awaits (h : Awaits l s) : Awaits l (enterFull s) := by
  unfold enterFull
  exact .keep (event_within _ _ _ _ _) rfl <| fireAll_awaits <| arbitrate_awaits <| .keep chgUpdate_within rfl <| .modPwr rfl <|
    .ite (.keep rootWake_within rfl h) h

theorem judge_awaits {d : Nat} (h : Awaits l s) : Awaits l (judge d s) := by
  unfold judge
  refine .ite h <| .ite (.keep owlsSettle_within rfl <| .keep factState_within rfl h) ?_
  extract_lets s1 s2
  have h1 : Awaits l s1 := .ite (.keep hushless_within rfl <| enterOutage_awaits h) <| .ite (enterFull_awaits h) h
  have h2 : Awaits l s2 := .ite (.keep rootWake_within rfl <| .modPwr rfl h1) h1
  exact .keep owlsSettle_within rfl <| .ite (enterHush_awaits h2) h2

theorem hostFell_awaits (h : Awaits l s) : Awaits l (hostFell s) := by
  unfold hostFell
  exact .ite (.keep hostDown_within rfl <| judge_awaits h) (judge_awaits h)

/-! #### Start graphs -/

/-- What follows a run; only a shutdown toward BURROW would go on to the journal. -/
theorem afterRun_awaits {r : RunBy} (h : Awaits l s) : Awaits l (afterRun r s) := by
  unfold afterRun
  split
  · exact .modPwr rfl h
  · exact .ite (.keep (modOwl_within _ _) rfl h) <| .ite (.keep (event_within _ _ _ _ _) rfl <| .keep (modOwl_within _ _) rfl h) h
  · exact .ite (.keep (owlEndLadder_within _) rfl h) h
  · rw [h.burrowing]
    exact h
  · exact h

theorem endRun_awaits {k : Fin 16} {g : Graph} {down : Bool} (h : Awaits l s) : Awaits l (endRun k g down s) := by
  unfold endRun
  extract_lets ok host st upNow s1 s2 s3 s4
  have h4 : Awaits l s4 := completeOpt_awaits <| .keep (event_within _ _ _ _ _) rfl <| .modPwr rfl <|
    .keep (modGraph_within _ _) rfl h
  exact afterRun_awaits <| .ite h4 <| .ite (hostFell_awaits h4) (judge_awaits h4)

theorem settleOne_awaits {k : Fin 16} (h : Awaits l s) : Awaits l (settleOne k s) := by
  unfold settleOne
  split
  · exact h
  · rename_i g _
    have he : ∀ d, Awaits l (endRun k g d s) := fun _ => endRun_awaits h
    have h1 := Awaits.keep (modGraph_within k fun x => { x with unwinding := true, state := .runDown }) rfl h
    exact .ite h <| .ite h <| .ite (.ite (he _) h) <| .ite (.ite (he _) h) <|
      .ite (.ite (he _) <| .ite (.keep owlsSettle_within rfl <| .modPwr rfl h1) h1) <| .ite h (he _)

theorem settle_awaits (h : Awaits l s) : Awaits l (settle s) := by
  unfold settle
  exact .foldl (fun _ _ hu => settleOne_awaits hu) <| .foldl (fun _ _ hu => settleOne_awaits hu) h

/-! #### The causes of a bank -/

theorem shedBy_awaits {s0 : State} {n : Nat} (h : Awaits l s) : Awaits l (shedBy s0 n s) := by
  unfold shedBy
  exact .ite (shedTier_awaits h) h

theorem shedAndReset_awaits {s0 : State} {n : Nat} (h : Awaits l s) : Awaits l (shedAndReset s0 n s) := by
  unfold shedAndReset
  exact .ite (.keep hostRst_within rfl <| shedBy_awaits h) (shedBy_awaits h)

/-- A source without an isolation raises its cause: the notification and the tier it sheds, no more. -/
theorem raiseBase_awaits {n : Fin 192} {d : Nat} {present : Bool} (ho : offersIsolate n.val = false) (h : Awaits l s) :
    Awaits l (raiseBase n d present s) := by
  unfold raiseBase
  rw [ho, Bool.and_false]
  exact .ite (.keep (raiseAgain_within _ _ _) rfl h) <| .keep (faultNotify_within _ _) rfl <| shedAndReset_awaits <|
    .keep (latchCapture_within _ _ _) rfl h

theorem bankSource_isolates (b : Fin 2) : offersIsolate (169 + b.val) = false := by
  revert b
  decide

theorem raise_awaits {b : Fin 2} {d : Nat} (h : Awaits l s) : Awaits l (raise (169 + b.val) d s) := by
  have e : fin? 48 (169 + b.val) = none := dif_neg (by omega)
  unfold raise raiseAs
  rw [e]
  split
  · contradiction
  · rename_i k _ hk
    obtain ⟨_, rfl⟩ : ∃ hb, k = ⟨169 + b.val, hb⟩ := by
      unfold fin? at hk
      split at hk
      · exact ⟨_, (Option.some.inj hk).symm⟩
      · cases hk
    exact .ite (settle_awaits <| raiseBase_awaits (bankSource_isolates b) h) h
  · exact h

end

theorem reinstateDone_fails {b : Fin 2} {more : List (Fin 2)} {s : State} (hr : s.jnl.reinstating = b :: more) :
    reinstateDone false s = raise (169 + b.val) 3 (modJnl (fun j => { j with reinstating := more }) s) := by
  unfold reinstateDone
  rw [hr]
  rfl

/-- A copy that fails latches its cause, and the bank is asked back no more. -/
theorem reinstateDone_latches {b : Fin 2} {more : List (Fin 2)} {s : State} (hr : s.jnl.reinstating = b :: more)
    (hb : s.pwr.burrowing = false) :
    (reinstateDone false s).jnl.reinstating = more ∧ Latched (reinstateDone false s) (169 + b.val) 3 := by
  have h : Awaits more (modJnl (fun j => { j with reinstating := more }) s) := ⟨hb, rfl⟩
  rw [reinstateDone_fails hr]
  exact ⟨(raise_awaits h).line, raise_latched (by omega) (by decide) h.burrowing⟩

/-- Settles O25: both banks' read-backs by `journalWriteDone_held` and its two failing forms, posting by `postHeld_posts`,
background copies by `compactOne_copies`, reinstatement by `reinstateBit_asks` and what a copy's end does. -/
theorem recordsCommit : Obligations.RecordsCommit := by
  unfold Obligations.RecordsCommit
  refine ⟨fun it v d r rest s hu hd hm => ⟨fun hn w hc => ?_, fun hc hq hb => ?_, fun hc hq hr => ?_, fun hA hB hb => ⟨?_, ?_⟩⟩,
    fun q c rest w s => ⟨fun hh hr hp => ⟨_, rfl, postHeld_posts hh hr hp⟩, fun hu hd hq ho hf => ?_⟩,
    fun b s => ⟨fun hw => ⟨fun hi hn => ⟨_, rfl, reinstateBit_asks (b := 0) hw hi hn⟩,
      fun hi hn => ⟨_, rfl, reinstateBit_asks (b := 1) hw hi hn⟩⟩,
      fun more hr hb => ⟨⟨_, rfl, reinstateDone_latches hr hb⟩, ⟨_, rfl, reinstateDone_returns hr⟩⟩⟩⟩
  · exact congrArg Host.Outcome.next ((journalWriteDone_held hu hd hm).trans (writeEnds_copies hn hc))
  · refine ⟨_, rfl, ?_⟩
    rw [journalWriteDone_held hu hd hm, hq, writeEnds_front hc]
    refine ⟨jobEnds_queue _ _, ?_⟩
    rw [jobEnds_items]
    exact commitJob_accepts hb
  · refine ⟨_, rfl, ?_⟩
    rw [journalWriteDone_held hu hd hm, hq, writeEnds_front hc]
    refine ⟨jobEnds_queue _ _, ?_⟩
    rw [jobEnds_comps]
    exact commitJob_answers hr
  · refine ⟨_, rfl, ?_⟩
    rw [journalWriteDone_failsA hu hd hm hA hB]
    exact (writeEnds_within _ _).latched (retireBank_latches (b := 0) hA hb (by decide)) rfl
  · refine ⟨_, rfl, ?_⟩
    rw [journalWriteDone_failsB hu hd hm hA hB]
    exact (writeEnds_within _ _).latched (retireBank_latches (b := 1) hB hb (by decide)) rfl
  · refine congrArg Host.Outcome.next ?_
    rw [compactOne_copies hu hd hq hf]
    exact roomAgain_nothing ((putForced_owed _ _).trans ho)

end Sys2Proof.Machine

/-! PROOFS. The journal: JOURNAL_READ, and the end of the boot image's register form (R144, R146). -/

namespace Sys2Proof.Machine

/-! ### Verdicts behind a START (R132) -/

/-- A verdict that the item gets in a state that holds the items of the one behind its START. -/
theorem Works.finishesStarted {op : Nat} {a : Word} {it : Item} {s u t : State} {c : Instr} (h : Works op a it s u)
    (hi : t.eng.items = (commitStart it u).eng.items) {v : Verdict} {d : Nat} {r : DWord}
    (e : exec c s = .next (complete a v d r t)) : Finishes c s it v d r t := by
  have ea : it.aseq = a := findItem_aseq h.1.1
  obtain ⟨kt, hk, hr, -, -⟩ := commitStart_findItem h.item ea
  exact ⟨_, e, by rw [ea], h.answers ((findItem_of_items hi a).trans hk) hr v d r⟩

theorem memWords_items (x : DWord) (ws : List Word) (s : State) : (memWords x ws s).eng.items = s.eng.items :=
  (memWords_within (L := 1) x ws (.refl _ s) (.of rfl)).keeps .items rfl

/-! ### JOURNAL_READ (R144) -/

section
variable {a : Word} {it : Item} {s u : State} (h : Works 0x72 a it s u)
  (hb : aligned (addrOf (opv it 7) (opv it 8)) 64 = true) (hd : dmaOk (commitStart it u) = true)
include h hb hd

/-- WHAT 0 with operands in range: records of a bank in service go to the buffer. -/
theorem journalRead_givesRecords (hw : fld (opv it 4) 1 0 = 0) (h1 : 1 ≤ (opv it 6).toNat) (h2 : (opv it 6).toNat ≤ 2048)
    (hl : 64 ≤ (opv it 9).toNat) (hi : bankIn u (if bit (opv it 4) 8 then 1 else 0) = true) {rs : List (List Word)}
    (hr : rs = recordsFrom (commitStart it u) (if bit (opv it 4) 8 then 1 else 0) (opv it 5)
      (min (opv it 6).toNat ((opv it 9).toNat / 64))) :
    journalRead a s = complete a .done 0 (dword (BitVec.ofNat 32 rs.length) (nextRec (commitStart it u) rs))
      (memWords (addrOf (opv it 7) (opv it 8)) rs.flatten (commitStart it u)) := by
  subst hr
  refine (h.begins _).trans ?_
  dsimp only
  simp only [hw, hb, hi, hd, Nat.not_lt.2 h1, Nat.not_lt.2 h2, Nat.not_lt.2 hl, if_true, decide_false, decide_true,
    OfNat.zero_ne_ofNat, Bool.or_self, Bool.not_true, Bool.and_false, Bool.false_eq_true, if_false]

/-- WHAT 1 and 2: a copy of the boot image goes to a buffer that holds it. -/
theorem journalRead_givesImage (hw : fld (opv it 4) 1 0 = 1 ∨ fld (opv it 4) 1 0 = 2) (hl : 8192 ≤ (opv it 9).toNat) :
    journalRead a s = complete a .done 0 8192 (memWords (addrOf (opv it 7) (opv it 8))
      (imgWords (commitStart it u) (fld (opv it 4) 1 0 - 1)) (commitStart it u)) := by
  have h0 : fld (opv it 4) 1 0 ≠ 0 := by omega
  have h3 : fld (opv it 4) 1 0 ≠ 3 := by omega
  refine (h.begins _).trans ?_
  dsimp only
  simp only [h0, h3, hb, hd, Nat.not_lt.2 hl, decide_false, Bool.false_and, Bool.or_self, Bool.not_true, Bool.and_false,
    Bool.false_eq_true, if_false]

end

/-- Settles O26: records by `journalRead_givesRecords`, an image copy by `journalRead_givesImage`; what goes to the buffer
leaves the item behind its START. -/
theorem journalReadGives : Obligations.JournalReadGives := by
  unfold Obligations.JournalReadGives
  refine fun a it s u h hb hd => ⟨fun hw h1 h2 hl hi rs hr => ?_, fun hw hl => ?_⟩
  · exact h.finishesStarted (memWords_items _ _ _)
      (congrArg Host.Outcome.next (journalRead_givesRecords h hb hd hw h1 h2 hl hi hr))
  · exact h.finishesStarted (memWords_items _ _ _) (congrArg Host.Outcome.next (journalRead_givesImage h hb hd hw hl))

/-! ### A commit that repairs the boot image on a battery too low (R33, R146) -/

/-- The register form's write has ended with both copies verified. -/
def imageVerified (s : State) : State :=
  modJnl (fun j => { j with biBusy := false, biResult := .done })
    (writeCopies ((List.range 2048).map (fun i => spGet (fun _ => 0) s.jnl.biWords i)) true s)

section
variable {s : State}

/-- Under IMAGE_BAD the new image is applied at once, and the start goes on. -/
theorem biEnd_repairs (hu : s.jnl.biBusy = true) (hi : s.pwr.bootHold = .imageBad) :
    biEnd true s = proceed (imageStep (imageVerified s)) := by
  unfold biEnd
  rw [hu, hi]
  rfl

/-- The image's registers do not change the straps. -/
theorem imageStep_battless (hq : s.pwr.burrowing = false) : battless (imageStep s) = battless s := by
  have e : _ = s.pwr.strap := (imageStep_within (L := 0x47bff9ffb4d7) (.refl _ s) (.calm hq rfl)).keeps .strap rfl
  unfold battless
  rw [e]

theorem Senses.tooLow {v : Nat} (h : Senses false v s) (hv : v < 9000) (hb : battless s = false) : battTooLow s = true := by
  unfold battTooLow
  rw [h.volts, h.acin, decide_eq_true (hv.trans_le (le_lowMv_of_battery hb))]
  rfl

theorem proceed_burrows (hl : battTooLow s = true) (hb : battless s = false) : proceed s = toBurrow s := by
  unfold proceed
  rw [hl, hb]
  rfl

/-- The battery check fails behind such a repair: BURROW, and RESULT falls with the Den domain. -/
theorem biEnd_losesResult (hu : s.jnl.biBusy = true) (hi : s.pwr.bootHold = .imageBad) {v : Nat} (hs : Senses false v s)
    (hv : v < 9000) (hb : battless s = false) : (biEnd true s).jnl.biResult = .none := by
  have h1 : Senses false v (imageVerified s) := ⟨hs.burrowing, hs.acin, hs.volts⟩
  have hb1 : battless (imageStep (imageVerified s)) = false := (imageStep_battless h1.burrowing).trans hb
  rw [biEnd_repairs hu hi, proceed_burrows ((imageStep_senses h1).tooLow hv hb1) hb1]
  rfl

end

/-- IMAGE_BAD holds the start, BATSNS has fallen to 8.0 V without ACIN, and an image of the least content that passes
every check is being written: its default list is empty. -/
def repairAt8V : State :=
  { State.reset with
    den := { Den.reset with up := true }
    pwr := { Power.reset with stage := .heldImage, bootHold := .imageBad, batsw := true }
    chg := { Charger.reset with batsns := 8000 }
    jnl := { Journal.reset with
      scanned := true, biBusy := true, biPtr := 2048
      biWords := [(0, 0x4E424931), (1, 1), (2, 1),
        (3, crc32 (List.replicate 12 0 ++ 0xFFFFFFFF :: List.replicate 2031 0)), (16, 0xFFFFFFFF)] } }

/-- Refutes O27: a commit may end under IMAGE_BAD while the battery is below 9.0 V without ACIN (`repairAt8V`). Both copies
verify, the start goes on into BURROW, and RESULT is none, where the statement says DONE. -/
theorem not_bootImageIsWritten : ¬ Obligations.BootImageIsWritten := by
  unfold Obligations.BootImageIsWritten
  rintro ⟨-, h⟩
  obtain ⟨t, e, -, hr⟩ := (h 0 true repairAt8V).2 rfl rfl
  have ht : biEnd true repairAt8V = t := Host.Outcome.next.inj e
  have hn : (biEnd true repairAt8V).jnl.biResult = .none :=
    biEnd_losesResult rfl rfl ⟨rfl, rfl, rfl⟩ (show 8000 < 9000 by decide) rfl
  rw [ht, hr] at hn
  exact absurd hn (by decide)

end Sys2Proof.Machine

/-! PROOFS. Lanes and the watches of a running rail: the statements on spec/08 and what of spec/09 goes with them. -/

namespace Sys2Proof.Machine

/-! ### Single lanes and rails -/

section
variable {s : State} {n : Fin 48} {f : Lane → Lane}

theorem modLane_self : (modLane n f s).lanes[n] = f s.lanes[n] := upd_self _ _ _

/-- A change that doing it again leaves as it is reaches each lane of the list once. -/
theorem modLanes_lane (hf : ∀ l, f (f l) = f l) {ns : List (Fin 48)} :
    (modLanes ns f s).lanes[n] = if n ∈ ns then f s.lanes[n] else s.lanes[n] := by
  induction ns generalizing s with
  | nil => rfl
  | cons m ns ih =>
    refine (ih (s := modLane m f s)).trans ?_
    by_cases e : m = n
    · subst e
      rw [modLane_self, hf, ite_self, if_pos List.mem_cons_self]
    · rw [show (modLane m f s).lanes[n] = s.lanes[n] from upd_ne _ _ e]
      simp only [List.mem_cons, Ne.symm e, false_or]

theorem pastMeasure_eq (h : s.lanes[n].state ≠ .measure) : pastMeasure n s = s := if_neg h

end

theorem modRail_self {r : Fin 48} {x : Rail} {s : State} (h : s.rails[r] = some x) (f : Rail → Rail) :
    (modRail r f s).rails[r] = some (f x) := by
  simp only [modRail_rails, Fin.getElem_fin, Vector.getElem_set_self]
  exact congrArg (Option.map f) h

theorem lostEnds_lanes (r : Fin 48) (s : State) : (lostEnds r s).lanes = s.lanes :=
  (lostEnds_within (L := 0x8000000) r (.refl _ s) (.of rfl)).keeps .lanes rfl

theorem lostEnds_rails (r : Fin 48) (s : State) : (lostEnds r s).rails = s.rails :=
  (lostEnds_within (L := 0x8000000) r (.refl _ s) (.of rfl)).keeps .rails rfl

theorem event_lanes (code : BitVec 16) (h : Word) (i d : Nat) (v : DWord) (s : State) : (event code h i d v s).lanes = s.lanes :=
  (event_within (L := 0x4a083) code h i d v (.refl _ s) (.of rfl)).keeps .lanes rfl

/-! ### Starting (R150, R154, R164 to R166) -/

/-- The lane starts from a measured voltage. -/
def laneFrom (mv : Nat) (l : Lane) : Lane := { l with state := .start, ref := 100 * mv }

/-- The lane is in regulation at the rail's target. -/
def laneAt (x : Rail) (l : Lane) : Lane := { l with state := .reg, ref := 100 * x.target }

section
variable {n r : Fin 48} {x : Rail} {mv : Nat} {s : State} (hn : s.lanes[n].rail = some r) (hx : s.rails[r] = some x)
include hn hx

theorem laneRemeasure_eq (hw : s.lanes[n].state = .waitDown) : laneRemeasure n mv s =
    if x.target < mv then setVmeas [n] mv s
    else if x.state = .waitDown then
      if decider s x ≠ n then setVmeas [n] mv s
      else modRail r (fun y => { y with state := .starting })
        (modLanes (x.members.filter (fun m => s.lanes[m].state = .waitDown)) (laneFrom mv) (setVmeas [n] mv s))
    else modLane n (laneFrom mv) (setVmeas [n] mv s) := by
  unfold laneRemeasure
  rw [pastMeasure_eq (by rw [hw]; decide)]
  unfold laneRemeasureNow
  rw [hn]
  dsimp only
  rw [hx]
  exact if_neg (not_not_intro hw)

/-- The output has come down to the target: the lane starts from it. -/
theorem laneRemeasure_starts (hw : s.lanes[n].state = .waitDown) (ht : mv ≤ x.target) (hm : n ∈ x.members)
    (hd : x.state ≠ .waitDown ∨ decider s x = n) : (laneRemeasure n mv s).lanes[n] = laneFrom mv s.lanes[n] := by
  rw [laneRemeasure_eq hn hx hw, if_neg (Nat.not_lt.2 ht)]
  by_cases hs : x.state = .waitDown
  · have hmem : n ∈ x.members.filter (fun m => s.lanes[m].state = .waitDown) := List.mem_filter.2 ⟨hm, decide_eq_true hw⟩
    rw [if_pos hs, if_neg (not_not_intro (hd.resolve_left (not_not_intro hs))), modRail_lanes]
    exact (modLanes_lane (f := laneFrom mv) fun _ => rfl).trans (if_pos hmem)
  · rw [if_neg hs]
    exact modLane_self

theorem laneSlewDone_stands (hs : slewStands s n x = true) (hm : s.lanes[n].state ≠ .measure) : laneSlewDone n s = s := by
  unfold laneSlewDone
  rw [pastMeasure_eq hm]
  unfold slewDoneNow
  rw [hn]
  dsimp only
  rw [hx]
  exact if_pos hs

variable (hl : s.lanes[n].state = .start) (hs : slewStands s n x = false)
include hl hs

/-- The reference of a lane in START stands at the target. -/
theorem laneSlewDone_eq (hst : x.state = .starting ∨ x.state = .sinking ∨ x.state = .on) : laneSlewDone n s =
    if x.state = .on then lostEnds r (modLane n (laneAt x) s)
    else if decider s x = n then lostEnds r (railOn r s)
    else modLane n (laneAt x) s := by
  unfold laneSlewDone
  rw [pastMeasure_eq (by rw [hl]; decide)]
  unfold slewDoneNow
  rw [hn]
  dsimp only
  rw [hx]
  dsimp only
  rw [hs, hl]
  obtain e | e | e := hst <;> rw [e] <;> rfl

/-- A lane that does not decide for a rail that starts, and any lane of a rail that is ON, comes into regulation. -/
theorem laneSlewDone_regulates (hst : (x.state = .starting ∨ x.state = .sinking) ∧ decider s x ≠ n ∨ x.state = .on) :
    (laneSlewDone n s).lanes[n] = laneAt x s.lanes[n] := by
  rw [laneSlewDone_eq hn hx hl hs (by tauto)]
  by_cases ho : x.state = .on
  · rw [if_pos ho, lostEnds_lanes, modLane_self]
  · rw [if_neg ho, if_neg (hst.resolve_right ho).2, modLane_self]

theorem laneSlewDone_reaches (hst : x.state = .starting ∨ x.state = .sinking) (hd : decider s x = n) :
    laneSlewDone n s = lostEnds r (railOn r s) := by
  have ho : x.state ≠ .on := by obtain e | e := hst <;> rw [e] <;> decide
  rw [laneSlewDone_eq hn hx hl hs (by tauto), if_neg ho, if_pos hd]

end

theorem railOn_eq {r : Fin 48} {x : Rail} {s : State} (hx : s.rails[r] = some x) :
    railOn r s = completeOpt (onHandle s (railHandle s r) 0x10) .done 0 (voutResult s r)
      (modRail r (fun y => { y with state := .on, slewing := false, rsActive := y.rsEn && !y.senseLost && !y.senseFrozen })
        (modLanes (x.members.filter (fun n => s.lanes[n].state = .start)) (laneAt x) s)) := by
  unfold railOn
  rw [hx]
  rfl

theorem railOn_state {r : Fin 48} {x : Rail} {s : State} (hx : s.rails[r] = some x) :
    ∃ y, (railOn r s).rails[r] = some y ∧ y.state = .on := by
  have hm : ∀ ns f, (modLanes ns f s).rails = s.rails := fun ns f =>
    (modLanes_within (L := 0x10000000) ns f (.refl _ s) (.of rfl)).keeps .rails rfl
  have hc : ∀ a d t, (completeOpt a .done 0 d t).rails = t.rails := fun a d t =>
    (completeOpt_within (L := 0x20000fb90c3) a .done 0 d (.refl _ t) (.of rfl)).keeps .rails rfl
  rw [railOn_eq hx, hc]
  exact ⟨_, modRail_self (by rw [hm]; exact hx) _, rfl⟩

/-! ### The supply of a lane comes back (R156), and dropout (R158) -/

section
variable {n : Fin 48} {mv : Nat} {s : State}

theorem laneEndCause_lanes (d : Nat) : (endCause n.val d s).lanes = s.lanes :=
  (endCause_within (L := 0x8000000) n.val d (.refl _ s) (.of rfl)).keeps .lanes rfl

theorem laneSupplyRecover_flt : (laneSupplyRecover n mv s).flt = (endCause n.val 4 s).flt := by
  unfold laneSupplyRecover
  dsimp only
  generalize (_ && !isolated s n.val : Bool) = enabled
  split
  · rfl
  · cases enabled <;> rfl

theorem laneSupplyRecover_absent : isPresent (laneSupplyRecover n mv s) n.val 4 = false :=
  (isPresent_of_flt laneSupplyRecover_flt _ _).trans (endCause_absent s ⟨n.val, by omega⟩ 3)

variable (hw : s.lanes[n].state = .supplyWait)
include hw

theorem laneSupplyRecover_stops (hr : rail2 s n = none) : (laneSupplyRecover n mv s).lanes[n].state = .stopped := by
  have e : laneSupplyRecover n mv s = laneStop n (endCause n.val 4 s) := by
    unfold laneSupplyRecover
    rw [hr, hw]
    rfl
  rw [e]
  unfold laneStop
  rw [modLane_self, laneEndCause_lanes, hw]
  rfl

theorem laneSupplyRecover_measures (hh : held s n.val = false) (hi : isolated s n.val = false) {x : Rail}
    (hr : rail2 s n = some x) (hx : railRuns x = true) : (laneSupplyRecover n mv s).lanes[n].state = .measure ∧
      (laneSupplyRecover n mv s).lanes[n].meas = some (mv, now s + 2) := by
  have e : laneSupplyRecover n mv s = laneMeasure n mv (endCause n.val 4 s) := by
    unfold laneSupplyRecover
    rw [hr, hw, hh, hi]
    dsimp only
    rw [hx]
    rfl
  rw [e]
  unfold laneMeasure
  have hp : isPresent (endCause n.val 4 s) n.val 4 = false := endCause_absent s ⟨n.val, by omega⟩ 3
  have ht : now (endCause n.val 4 s) = now s :=
    congrArg Den.time ((endCause_within (L := 0x8000000) n.val 4 (.refl _ s) (.of rfl)).keeps .den rfl)
  rw [hp, ht, modLane_self]
  exact ⟨rfl, rfl⟩

end

theorem laneDropout_eq {n : Fin 48} {on : Bool} {s : State} (hr : laneRun s.lanes[n] = true) (hd : s.lanes[n].dropout ≠ on) :
    laneDropout n on s = if on then event 0x0501 0 n.val 0 0 (modLane n (fun l => { l with dropout := on }) s)
      else modLane n (fun l => { l with dropout := on }) s := by
  unfold laneDropout
  rw [hr]
  exact if_neg (by simp only [Bool.not_true, Bool.false_or, decide_eq_true_eq]; exact hd)

theorem laneDropout_lane {n : Fin 48} {on : Bool} {s : State} (hr : laneRun s.lanes[n] = true)
    (hd : s.lanes[n].dropout ≠ on) : (laneDropout n on s).lanes[n].dropout = on := by
  rw [laneDropout_eq hr hd]
  cases on
  · exact congrArg Lane.dropout modLane_self
  · rw [if_pos rfl, event_lanes]
    exact congrArg Lane.dropout modLane_self

/-- Settles O32: a re-measured lane by `laneRemeasure_eq`, the reference at the target by `laneSlewDone_eq`, the supply by
what `laneSupplyRecover` leaves of the cause and the lane, dropout by `laneDropout_eq`. -/
theorem lanesComeUp : Obligations.LanesComeUp := by
  unfold Obligations.LanesComeUp
  refine ⟨fun n r x mv s hn hx => ⟨fun hw ht => ?_, fun hw ht hm hd => ⟨_, rfl, ?_⟩, fun hl hs hst =>
      ⟨fun hd => ⟨_, rfl, ?_⟩, fun hd => ⟨_, rfl, ?_⟩⟩, fun hl hs hst => ⟨_, rfl, ?_⟩, fun hs hm => ?_⟩,
    fun n mv on s => ⟨⟨_, rfl, laneSupplyRecover_absent⟩, fun hw hr => ⟨_, rfl, laneSupplyRecover_stops hw hr⟩,
      fun hw hh hi x hr hx => ⟨_, rfl, laneSupplyRecover_measures hw hh hi hr hx⟩,
      fun hr hd => ⟨_, rfl, laneDropout_lane hr hd, laneDropout_eq hr hd⟩⟩⟩
  · exact congrArg Host.Outcome.next ((laneRemeasure_eq hn hx hw).trans (if_pos ht))
  · have e := laneRemeasure_starts hn hx hw ht hm hd
    exact ⟨congrArg Lane.state e, congrArg Lane.ref e⟩
  · have e := laneSlewDone_regulates hn hx hl hs (.inl ⟨hst, hd⟩)
    exact ⟨congrArg Lane.state e, congrArg Lane.ref e⟩
  · have e := laneSlewDone_reaches hn hx hl hs hst hd
    obtain ⟨y, hy, ho⟩ := railOn_state hx
    exact ⟨e, y, by rw [e, lostEnds_rails]; exact hy, ho⟩
  · have e := laneSlewDone_regulates hn hx hl hs (.inr hst)
    exact ⟨congrArg Lane.state e, congrArg Lane.ref e⟩
  · exact congrArg Host.Outcome.next (laneSlewDone_stands hn hx hs hm)

/-! ### A cause that a raise may latch (R349, R350) -/

/-- Cause `d` of source `n` is not present and no shutdown toward BURROW runs: a raise of it latches. -/
structure MayRaise (s : State) (n d : Nat) : Prop where
  quiet : s.pwr.burrowing = false
  absent : isPresent s n d = false

section
variable {s t : State} {n d : Nat}

theorem MayRaise.once (h : MayRaise s n d) (hn : n < 186) (hd : 1 ≤ d ∧ d ≤ 16) : Latched (raiseOnce n d s) n d :=
  raiseOnce_latched hn hd h.quiet h.absent

/-- An operation that leaves the faults leaves what may be raised. -/
theorem Within.mayRaise {L : Nat} (w : Within L s t) (h : MayRaise s n d) (hf : L.testBit 27 = false) : MayRaise t n d where
  quiet := w.quiet h.quiet fun e => by
    have := congrArg (·.testBit 27) e
    rw [Nat.testBit_and, hf] at this
    exact absurd this (by decide)
  absent := (isPresent_of_flt (w.keeps .flt hf) n d).trans h.absent

theorem MayRaise.endCause (e : Nat) (h : MayRaise s n d) : MayRaise (endCause n e s) n d where
  quiet := (endCause_within (L := 0x8000000) n e (.refl _ s) (.of rfl)).quiet h.quiet (by decide)
  absent := endCause_keepsAbsent e h.absent

end

/-! #### Another cause of the same rail is raised -/

section
variable {s : State} {n : Fin 192} {d e : Nat}

theorem MayRaise.latch (h : MayRaise s n.val e) (he : 1 ≤ e) (hd : 1 ≤ d) (hne : d ≠ e) (p : Bool) :
    MayRaise (latch n d p s) n.val e where
  quiet := h.quiet
  absent := by
    have ha := h.absent
    rw [isPresent_fin] at ha ⊢
    unfold Machine.latch
    dsimp only
    rw [modSrc_flt, upd_self]
    cases p
    · exact ha
    · rw [if_pos rfl, BitVec.getLsbD_or, ha, BitVec.getLsbD_ofNat, Nat.testBit_two_pow_of_ne (by omega), Bool.and_false]
      rfl

theorem MayRaise.latchCapture (h : MayRaise s n.val e) (he : 1 ≤ e) (hd : 1 ≤ d) (hne : d ≠ e) (p : Bool) :
    MayRaise (latchCapture n d p s) n.val e := by
  have hb := (batterySource_within (L := 2) n.val (.refl _ s) (.of rfl)).mayRaise h rfl
  have hl := hb.latch he hd hne p
  exact ⟨hl.quiet, hl.absent⟩

theorem MayRaise.faultNotify (h : MayRaise s n.val e) : MayRaise (faultNotify n d s) n.val e where
  quiet := (faultNotify_within (L := 0x804a083) n d (.refl _ s) (.of rfl)).quiet h.quiet (by decide)
  absent := by
    have ha := h.absent
    rw [isPresent_fin] at ha ⊢
    rw [faultNotify_present, ha]

end

section
variable {s : State} {r : Fin 48} {d e : Nat}

theorem isolateBase_rail (h : 48 + r.val < 192) : isolateBase ⟨48 + r.val, h⟩ s = railIsolate r s := by
  unfold isolateBase
  rw [show fin? 48 (48 + r.val - 48) = some r by rw [Nat.add_sub_cancel_left, fin?_val]]

theorem raiseAs_rail (h : 48 + r.val < 192) (p : Bool) :
    raiseAs (48 + r.val) d p s = settle (raiseBase ⟨48 + r.val, h⟩ d p s) := by
  unfold raiseAs
  rw [show fin? 48 (48 + r.val) = none from dif_neg (by omega), show fin? 192 (48 + r.val) = some ⟨48 + r.val, h⟩ from dif_pos h]
  exact if_pos (by omega)

theorem MayRaise.raiseBase (h : 48 + r.val < 192) (hr : MayRaise s (48 + r.val) e) (he : 1 ≤ e) (hd : 1 ≤ d) (hne : d ≠ e)
    (p : Bool) : MayRaise (raiseBase ⟨48 + r.val, h⟩ d p s) (48 + r.val) e := by
  have hc := MayRaise.latchCapture (n := ⟨48 + r.val, h⟩) hr he hd hne p
  unfold Machine.raiseBase
  split
  · exact hc.faultNotify
  · refine MayRaise.faultNotify (n := ⟨48 + r.val, h⟩) ?_
    refine (shedAndReset_within (L := 0x20ff0ffb0c7) _ _ (.refl _ _) (.of rfl)).mayRaise ?_ rfl
    rw [isolateBase_rail]
    split
    · exact (railIsolate_within (L := 0x20ff0ffb0c3) r (.refl _ _) (.of rfl)).mayRaise hc rfl
    · exact hc

/-- A raise of one cause of a rail makes no other present. -/
theorem MayRaise.raiseOnce (hr : MayRaise s (48 + r.val) e) (he : 1 ≤ e) (hd : 1 ≤ d) (hne : d ≠ e) :
    MayRaise (raiseOnce (48 + r.val) d s) (48 + r.val) e := by
  have hn : 48 + r.val < 192 := by omega
  have hb := hr.raiseBase hn he hd hne true
  unfold Machine.raiseOnce raise
  split
  · exact hr
  · rw [raiseAs_rail hn]
    exact (settle_within (L := 0x61ff0ffb4d7) (.refl _ _) (.calm hb.quiet rfl)).mayRaise hb rfl

end

/-! ### The causes of a lane (R155) -/

section
variable {n : Fin 48} {m d : Nat} {s : State}

theorem laneLost_quiet (hb : s.pwr.burrowing = false) : (laneLost n s).pwr.burrowing = false :=
  (laneLost_within (L := 0x32ff8ffb0c7) n (.refl _ s) (.of rfl)).quiet hb (by decide)

theorem laneLost_latched (h : Latched s m d) : Latched (laneLost n s) m d :=
  (laneLost_within (L := 0x32ff8ffb0c7) n (.refl _ s) (.of rfl)).latched h rfl

theorem raiseAs_quiet (p : Bool) (hb : s.pwr.burrowing = false) : (raiseAs m d p s).pwr.burrowing = false :=
  (raiseAs_within (L := 0x73ff8ffb4d7) m d p (.refl _ s) (.calm hb rfl)).quiet hb (by decide)

theorem railStartFailed_quiet (hb : s.pwr.burrowing = false) : (railStartFailed n s).pwr.burrowing = false :=
  (railStartFailed_within (L := 0x61ff0ffb4d7) n (.refl _ s) (.calm hb rfl)).quiet hb (by decide)

/-- What the rail makes of a lane that stopped leaves the lane's cause. -/
theorem laneLost_settles {ran : Bool} (hb : s.pwr.burrowing = false) (h : Latched s m d) :
    Latched (if ran then settle (laneLost n s) else s) m d := by
  cases ran
  · exact h
  · rw [if_pos rfl]
    exact settle_latched (laneLost_quiet hb) (laneLost_latched h)

theorem laneTrip_latched (hd : 1 ≤ d ∧ d ≤ 16) (hb : s.pwr.burrowing = false) : Latched (laneTrip n d s) n.val d := by
  unfold laneTrip
  extract_lets ran s1 s2
  have hq : (if d = 7 then railStartFailed n s1 else s1).pwr.burrowing = false := by
    split
    · exact railStartFailed_quiet hb
    · exact hb
  exact laneLost_settles (raiseAs_quiet false hq) (raiseAs_latched (by omega) hd false hq)

theorem supplyTrip_latched (h : MayRaise s n.val 4) : Latched (supplyTrip n s) n.val 4 := by
  unfold supplyTrip
  extract_lets ran s1 s2
  have e : s2 = raiseAs n.val 4 true s1 := if_neg (by rw [show isPresent s n.val 4 = false from h.absent]; decide)
  rw [e]
  exact laneLost_settles (raiseAs_quiet true h.quiet) (raiseAs_latched (by omega) (by decide) true h.quiet)

theorem lanesLost_latched {ns : List (Fin 48)} (hb : s.pwr.burrowing = false) (h : Latched s m d) :
    Latched (settle (ns.foldl (fun t k => laneLost k t) s)) m d := by
  have w : Within 0x32ff8ffb0c7 s (ns.foldl (fun t k => laneLost k t) s) :=
    .foldl (fun _ k hu => laneLost_within k hu (.of rfl)) (.refl _ s)
  exact settle_latched (w.quiet hb (by decide)) (w.latched h rfl)

theorem stageTrip_latched (h : MayRaise s n.val 3) : Latched (stageTrip n s) n.val 3 := by
  unfold stageTrip
  extract_lets ran s1
  have w : Within 0x10000000 s s1 := .foldl (fun _ k hu => laneStop_within k hu (.of rfl)) (.refl _ s)
  have hb := (w.mayRaise h rfl).quiet
  rw [if_neg (by rw [show isPresent s n.val 3 = false from h.absent]; decide)]
  exact lanesLost_latched (raiseAs_quiet true hb) (raiseAs_latched (by omega) (by decide) true hb)

/-- START_FAIL comes after the measurement; a lane that starts has it behind it. -/
theorem laneFault_eq {c : LaneCause} (h : c = .startFail → s.lanes[n].state ≠ .measure) : laneFault n c s = laneCause n c s := by
  unfold laneFault
  split
  · rw [pastMeasure_eq (h ‹_›)]
  · rfl

variable (hd : s.den.up = true) (ha : s.lanes[n].state ≠ .absent)
include hd ha

theorem lane_detects : ¬ (s.lanes[n].state = .absent || !s.den.up) = true := by
  rw [hd]
  simpa using ha

theorem laneCause_ocSustained (h : s.lanes[n].state = .reg) : laneCause n .ocSustained s = raiseOnce n.val 1 s :=
  (if_neg (lane_detects hd ha)).trans (if_pos h)
theorem laneCause_bootUv (h : laneRun s.lanes[n] = true) : laneCause n .bootUv s = raiseOnce n.val 2 s :=
  (if_neg (lane_detects hd ha)).trans (if_pos h)
theorem laneCause_stageOt (h : n.val < 32) : laneCause n .stageOt s = stageTrip n s :=
  (if_neg (lane_detects hd ha)).trans (if_neg (by unfold isCtl; simpa using h))
theorem laneCause_supplyUv (h : laneActive s.lanes[n] = true) : laneCause n .supplyUv s = supplyTrip n s :=
  (if_neg (lane_detects hd ha)).trans (if_pos h)
theorem laneCause_ovAbs : laneCause n .ovAbs s = raiseOnce n.val 5 s := if_neg (lane_detects hd ha)
theorem laneCause_share (h : s.lanes[n].state = .reg) (hm : manyLanes s n = true) : laneCause n .share s = raiseOnce n.val 6 s :=
  (if_neg (lane_detects hd ha)).trans (if_pos (by rw [h, hm]; rfl))
theorem laneCause_startFail (h : s.lanes[n].state = .start) : laneCause n .startFail s = laneTrip n 7 s :=
  (if_neg (lane_detects hd ha)).trans (if_pos h)
theorem laneCause_swFail (h : laneActive s.lanes[n] = true) : laneCause n .swFail s = laneTrip n 8 s :=
  (if_neg (lane_detects hd ha)).trans (if_pos h)

end

/-! ### Time-outs of a start (R164, R165) -/

/-- The measurements that end move no rail but one that starts. -/
theorem measured_rail {m r : Fin 48} {x : Rail} {s : State} (hx : s.rails[r] = some x) (hs : x.state ≠ .starting) :
    (measured m s).rails[r] = some x := by
  unfold measured
  split
  · rename_i mv _ q _ _
    split
    · exact hx
    · rename_i y hy
      extract_lets above wait s1 s2
      rw [lostEnds_rails]
      by_cases c : (above && decide (y.state = .starting) && decide (decider s y = m) && (runningOf s y).isEmpty) = true
      · have hq : q.val ≠ r.val := fun e => by
          obtain rfl := Fin.ext e
          simp only [Bool.and_eq_true, decide_eq_true_eq] at c
          rw [Option.some.inj (hx.symm.trans hy)] at hs
          exact hs c.1.1.2
        rw [show s2 = _ from if_pos c, modRail_rails]
        exact (Vector.getElem_set_ne _ _ hq).trans hx
      · rw [show s2 = s1 from if_neg c]
        exact hx
  · exact hx

theorem measuredAll_rail {q r : Fin 48} {x : Rail} {s : State} (hx : s.rails[r] = some x) (hs : x.state ≠ .starting) :
    (measuredAll q s).rails[r] = some x := by
  unfold measuredAll
  generalize boundTo s q = ns
  induction ns generalizing s with
  | nil => exact hx
  | cons m ns ih => exact ih (measured_rail hx hs)

section
variable {r : Fin 48} {x : Rail} {s : State} (hx : s.rails[r] = some x)
include hx

theorem pgTmo_latched (hr : railRuns x = true) (hp : x.pg = false) (h : MayRaise s (48 + r.val) 8) :
    Latched (pgTmo r s) (48 + r.val) 8 := by
  unfold pgTmo
  rw [hx]
  dsimp only
  rw [hr, hp]
  exact ((completeOpt_within (L := 0x20000fb90c3) _ _ _ _ (.refl _ s) (.of rfl)).mayRaise h rfl).once (by omega) (by decide)

theorem prebiasEnds_latched (hw : x.state = .waitDown) (ht : fld x.w12 7 0 ≠ 0) (hb : s.pwr.burrowing = false) :
    Latched (prebiasEnds r s) (48 + r.val) 5 := by
  unfold prebiasEnds
  rw [hx]
  dsimp only
  rw [if_neg (by simp [hw, ht])]
  have w : Within 0x20fb0ffb0c3 s (railDown r .off s) := railDown_within r .off (.refl _ s) (.of rfl)
  exact raise_latched (by omega) (by decide) ((completeOpt_within _ _ _ _ w (.of rfl)).quiet hb (by decide))

theorem prebiasTmo_latched (hw : x.state = .waitDown) (ht : fld x.w12 7 0 ≠ 0) (hb : s.pwr.burrowing = false) :
    Latched (prebiasTmo r s) (48 + r.val) 5 :=
  prebiasEnds_latched (measuredAll_rail hx (by rw [hw]; decide)) hw ht
    ((measuredAll_within (L := 0x38000002) r (.refl _ s) (.of rfl)).quiet hb (by decide))

/-! ### Remote sense (R174 to R177) -/

/-- Falling back to local sense latches the cause, whatever the correction held makes of its limit. -/
theorem senseFall_latched {d : Nat} (f : Rail → Rail) (hd : 1 ≤ d ∧ d ≤ 16) (h6 : 6 ≠ d) (h : MayRaise s (48 + r.val) d) :
    Latched (senseFall r d f s) (48 + r.val) d := by
  unfold senseFall
  rw [hx]
  dsimp -zeta only
  extract_lets c s1 s2
  have h1 : MayRaise s1 (48 + r.val) d := (modRail_within (L := 0x20000000) _ _ (.refl _ s) (.of rfl)).mayRaise h rfl
  have h2 : MayRaise s2 (48 + r.val) d := by
    unfold s2
    cases atCorrLimit x c
    · exact h1.endCause 6
    · exact h1.raiseOnce hd.1 (by decide) h6
  refine (event_within (L := 0x4a083) _ _ _ _ _ (.refl _ _) (.of rfl)).latched ?_ rfl
  exact ((countReg_within (L := 2) _ _ _ _ (.refl _ s2) (.of rfl)).mayRaise h2 rfl).once (by omega) hd

theorem senseLost_latched {rem loc : Int} (he : x.rsEn = true) (hf : 300 < (remoteSeen s x rem - loc).natAbs)
    (h : MayRaise s (48 + r.val) 3) : Latched (senseLost r rem loc s) (48 + r.val) 3 := by
  unfold senseLost
  rw [hx]
  dsimp only
  rw [if_neg (by simp [he, hf])]
  split
  · exact h.once (by omega) (by decide)
  · exact senseFall_latched hx _ (by decide) (by decide) h

theorem senseFrozen_latched {mv : Nat} (ho : x.state = .on) (he : x.rsEn = true) (hd : x.ditherEn = true)
    (hm : mv * trimGain (trimWord s (153 + x.rsPair)) < 200000) (h : MayRaise s (48 + r.val) 4) :
    Latched (senseFrozen r mv s) (48 + r.val) 4 := by
  unfold senseFrozen
  rw [hx]
  dsimp only
  rw [if_neg (by simp [ho, he, hd, hm])]
  split
  · exact h.once (by omega) (by decide)
  · exact senseFall_latched hx _ (by decide) (by decide) h

/-- The correction has come to `c`. -/
def rsStepped (r : Fin 48) (x : Rail) (c : Int) (s : State) : State :=
  modRail r (fun y => { y with corr := c, corrHist := (c :: y.corrHist).take 161, corrLimit := atCorrLimit x c }) s

section
variable {rem c : Int} (ho : x.state = .on) (ha : x.rsActive = true) (hs : x.slewing = false)
  (hc : c = clampI (-x.corrMax) x.corrMax (x.corr + clampI (-1) 1 ((x.target : Int) - remoteSeen s x rem)))
include ho ha hs hc

theorem rsCorrection_eq : rsCorrection r rem s =
    if atCorrLimit x c then raiseOnce (48 + r.val) 6 (rsStepped r x c s) else endCause (48 + r.val) 6 (rsStepped r x c s) := by
  subst hc
  unfold rsCorrection
  rw [hx]
  dsimp only
  rw [if_neg (by simp [ho, ha]), hs]
  rfl

/-- A correction short of its limit ends the cause and stands. -/
theorem rsCorrection_steps (hl : atCorrLimit x c = false) :
    isPresent (rsCorrection r rem s) (48 + r.val) 6 = false ∧ ∃ y, (rsCorrection r rem s).rails[r] = some y ∧ y.corr = c := by
  have e : ∀ t, (endCause (48 + r.val) 6 t).rails = t.rails := fun t =>
    (endCause_within (L := 0x8000000) (48 + r.val) 6 (.refl _ t) (.of rfl)).keeps .rails rfl
  rw [rsCorrection_eq hx ho ha hs hc, if_neg (by rw [hl]; decide), e]
  exact ⟨endCause_absent _ ⟨48 + r.val, by omega⟩ 5, _, modRail_self hx _, rfl⟩

theorem rsCorrection_latched (hl : atCorrLimit x c = true) (h : MayRaise s (48 + r.val) 6) :
    Latched (rsCorrection r rem s) (48 + r.val) 6 := by
  rw [rsCorrection_eq hx ho ha hs hc, if_pos hl]
  exact ((modRail_within (L := 0x20000000) _ _ (.refl _ s) (.of rfl)).mayRaise h rfl).once (by omega) (by decide)

end

/-! ### Windows (R178, R179) -/

theorem uvCrossed_latched (ho : x.state = .on) (hh : x.members.any (fun n => s.lanes[n].slewHeld) = false)
    (h : MayRaise s (48 + r.val) 1) : Latched (uvCrossed r s) (48 + r.val) 1 := by
  unfold uvCrossed
  rw [hx]
  dsimp only
  rw [hh, ho]
  exact ((setPg_within (L := 0x2004a083) r false (.refl _ s) (.of rfl)).mayRaise h rfl).once (by omega) (by decide)

theorem ovCrossed_latched (hr : railRuns x = true ∨ x.state = .stopping) (h : MayRaise s (48 + r.val) 2) :
    Latched (ovCrossed r s) (48 + r.val) 2 := by
  unfold ovCrossed
  rw [hx]
  dsimp only
  rw [if_neg (by simpa [or_iff_not_imp_left] using hr)]
  have w : Within 0x20ff0ffb0c3 s (failNodes r (railDown r .faulted (withdrawDemand (.rail r.val)
      (countReg (0x4000 + r.val * 0x40 + 0x38) 7 0 1 s)))) :=
    failNodes_within _ (railDown_within _ _ (withdrawDemand_within _ (countReg_within _ _ _ _ (.refl _ s) (.of rfl)) (.of rfl))
      (.of rfl)) (.of rfl)
  refine MayRaise.once (Within.mayRaise (.foldl (fun _ _ hu => ?_) w) h rfl) (by omega) (by decide)
  exact complete_within _ _ _ _ hu (.of rfl)

end

/-! #### The monitor that watches a rail -/

section
variable {k : Fin 64} {s t : State}

/-- The monitor's output stands at `lv`. -/
def WmShows (k : Fin 64) (lv : CompLevel) (s : State) : Prop :=
  s.cmp.wms[k].below = lv.below ∧ s.cmp.wms[k].above = lv.above

variable {lv : CompLevel}

theorem WmShows.of_cmp (h : WmShows k lv s) (e : t.cmp = s.cmp) : WmShows k lv t := by
  unfold WmShows at *
  rw [e]
  exact h

theorem modWm_shows {f : Wm → Wm} (hb : (f s.cmp.wms[k]).below = lv.below) (ha : (f s.cmp.wms[k]).above = lv.above) :
    WmShows k lv (modWm k f s) :=
  ⟨(congrArg Wm.below (upd_self _ _ _)).trans hb, (congrArg Wm.above (upd_self _ _ _)).trans ha⟩

theorem event_cmp (code : BitVec 16) (h : Word) (i d : Nat) (v : DWord) (s : State) : (event code h i d v s).cmp = s.cmp :=
  (event_within (L := 0x4a083) code h i d v (.refl _ s) (.of rfl)).keeps .cmp rfl

theorem fireWindow_cmp (j : Nat) (act : Bool) (s : State) : (fireWindow j act s).cmp = s.cmp :=
  (fireWindow_within (L := 0xf5a0c3) j act (.refl _ s) (.of rfl)).keeps .cmp rfl

theorem WmShows.wmEvent (act : Bool) (h : WmShows k lv s) : WmShows k lv (wmEvent k act s) := by
  unfold Machine.wmEvent
  dsimp only
  split
  · exact (modWm_shows h.1 h.2).of_cmp (event_cmp _ _ _ _ _ _)
  · exact h

/-- The monitor's output is the level that it takes. -/
theorem wmSet_shows : WmShows k lv (wmSet k lv s) := by
  unfold wmSet
  extract_lets w act s1
  have h1 : WmShows k lv s1 := modWm_shows (s := s) rfl rfl
  split
  · rename_i h
    rw [Bool.and_eq_true, decide_eq_true_eq, decide_eq_true_eq] at h
    exact h
  · split
    · exact h1
    · refine .of_cmp (.wmEvent act (h1.of_cmp ?_)) (fireWindow_cmp _ _ _)
      cases act <;> rfl

theorem wmSet_rails : (wmSet k lv s).rails = s.rails :=
  (wmSet_within (L := 0x3000f5a0c3) k lv (.refl _ s) (.of rfl)).keeps .rails rfl
theorem wmSet_lanes : (wmSet k lv s).lanes = s.lanes :=
  (wmSet_within (L := 0x3000f5a0c3) k lv (.refl _ s) (.of rfl)).keeps .lanes rfl
theorem wmSet_mayRaise {n d : Nat} (h : MayRaise s n d) : MayRaise (wmSet k lv s) n d :=
  (wmSet_within (L := 0x3000f5a0c3) k lv (.refl _ s) (.of rfl)).mayRaise h rfl

end

section
variable {r : Fin 48} {x : Rail} {k : Fin 64} {lv : CompLevel} {mv : Nat} {s : State} (hk : x.wmon = k.val)
include hk

theorem railWm_eq : railWm s x = s.cmp.wms[k] := by
  unfold railWm nth
  rw [dif_pos (hk ▸ k.isLt)]
  simp only [hk, Fin.getElem_fin]

variable (hr : wmRuns k s = true) (hb : wmBlanked k s = false)
  (hl : lv = wmJudge s k (BitVec.ofNat 16 (codeAt (watchedInput x) (1000 * mv))))
include hr hb hl

theorem railSees_eq : railSees x mv s = wmSet k lv s := by
  unfold railSees
  rw [hk, fin?_val]
  subst hl
  exact if_pos (by rw [hr, hb]; rfl)

variable (hx : s.rails[r] = some x) (he : x.wmEn = true)
include hx he

theorem windowUv_eq (hu : lv.below = true) : windowUv r mv s = uvCrossed r (wmSet k lv s) := by
  unfold windowUv
  rw [hx]
  dsimp only
  rw [railSees_eq hk hr hb hl, railWm_eq hk]
  exact if_pos (by rw [he, wmSet_shows.1, hu]; rfl)

theorem windowUv_latched (hu : lv.below = true) (ho : x.state = .on)
    (hh : x.members.any (fun n => s.lanes[n].slewHeld) = false) (h : MayRaise s (48 + r.val) 1) :
    Latched (windowUv r mv s) (48 + r.val) 1 := by
  rw [windowUv_eq hk hr hb hl hx he hu]
  exact uvCrossed_latched ((congrArg (·[r]) wmSet_rails).trans hx) ho (by rw [wmSet_lanes]; exact hh) (wmSet_mayRaise h)

theorem windowOv_eq (ho : lv.above = true) : windowOv r mv s = ovCrossed r (wmSet k lv s) := by
  unfold windowOv
  rw [hx]
  dsimp only
  rw [railSees_eq hk hr hb hl, railWm_eq hk]
  exact if_pos (by rw [he, wmSet_shows.2, ho]; rfl)

theorem windowOv_latched (ho : lv.above = true) (hs : railRuns x = true ∨ x.state = .stopping) (h : MayRaise s (48 + r.val) 2) :
    Latched (windowOv r mv s) (48 + r.val) 2 := by
  rw [windowOv_eq hk hr hb hl hx he ho]
  exact ovCrossed_latched ((congrArg (·[r]) wmSet_rails).trans hx) hs (wmSet_mayRaise h)

end

/-- Settles O33: a lane's cause by what `laneCause` makes of it; the rail's time-outs, its remote sense and its windows by the
raise that each ends in, before which nothing makes its cause present (`MayRaise`). -/
theorem laneAndRailFaultsLatch : Obligations.LaneAndRailFaultsLatch := by
  unfold Obligations.LaneAndRailFaultsLatch
  refine ⟨fun n s hd hb ha => ?_, fun r x k lv mv rem loc s hb hx => ⟨fun hr hp h => ⟨_, rfl, pgTmo_latched hx hr hp ⟨hb, h⟩⟩,
    fun hw ht => ⟨_, rfl, prebiasTmo_latched hx hw ht hb⟩, fun he hf h => ⟨_, rfl, senseLost_latched hx he hf ⟨hb, h⟩⟩,
    fun ho he hd hm h => ⟨_, rfl, senseFrozen_latched hx ho he hd hm ⟨hb, h⟩⟩,
    fun he hk hr hl hv => ⟨fun hu ho hh h => ⟨_, rfl, windowUv_latched hk hr hl hv hx he hu ho hh ⟨hb, h⟩⟩,
      fun hu hs h => ⟨_, rfl, windowOv_latched hk hr hl hv hx he hu hs ⟨hb, h⟩⟩⟩,
    fun ho ha hs c hc =>
      ⟨fun h1 h2 => ⟨_, rfl, rsCorrection_steps hx ho ha hs hc (decide_eq_false (not_or.2 ⟨h1, h2⟩))⟩,
        fun hl h => ⟨_, rfl, rsCorrection_latched hx ho ha hs hc (decide_eq_true hl) ⟨hb, h⟩⟩⟩⟩⟩
  have once : ∀ {d}, 1 ≤ d ∧ d ≤ 16 → isPresent s n.val d = false → Latched (raiseOnce n.val d s) n.val d :=
    fun h hp => MayRaise.once ⟨hb, hp⟩ (by omega) h
  have runs : ∀ {c t d}, (c = .startFail → s.lanes[n].state ≠ .measure) → laneCause n c s = t → Latched t n.val d →
      Runs (.laneFault n c) s (fun t => Latched t n.val d) :=
    fun hm e h => ⟨_, rfl, by rw [laneFault_eq hm, e]; exact h⟩
  exact ⟨fun h hp => runs nofun (laneCause_ocSustained hd ha h) (once (by decide) hp),
    fun h hp => runs nofun (laneCause_bootUv hd ha h) (once (by decide) hp),
    fun h hp => runs nofun (laneCause_stageOt hd ha h) (stageTrip_latched ⟨hb, hp⟩),
    fun h hp => runs nofun (laneCause_supplyUv hd ha h) (supplyTrip_latched ⟨hb, hp⟩),
    fun hp => runs nofun (laneCause_ovAbs hd ha) (once (by decide) hp),
    fun h hm hp => runs nofun (laneCause_share hd ha h hm) (once (by decide) hp),
    fun h => runs (fun _ => by rw [h]; decide) (laneCause_startFail hd ha h) (laneTrip_latched (by decide) hb),
    fun h => runs nofun (laneCause_swFail hd ha h) (laneTrip_latched (by decide) hb)⟩

end Sys2Proof.Machine

/-! PROOFS. Rails and sequence graphs: the statements on spec/09. -/

namespace Sys2Proof.Machine

/-! ### Requests to the budget (R191, R192) -/

section
variable {a : Word} {q : Req} {k : State → State} {s : State}

theorem itemAsks_refused {n : Nat} (h : ask s q = .refused n) :
    itemAsks a q k s = complete a .refusedBudget 0x10 (BitVec.ofNat 64 n) (place q (.refused n) s) := by
  unfold itemAsks
  rw [h]

theorem itemAsks_served (h : ask s q = .served) : itemAsks a q k s = k (place q .served s) := by
  unfold itemAsks
  rw [h]

theorem itemAsks_waits {n : Nat} (h : ask s q = .waits n) : itemAsks a q k s =
    interim a n (expectedDelay (place q (.waits n) s) q) (modItem a (fun i => { i with phase := .waiting }) (place q (.waits n) s)) := by
  unfold itemAsks
  rw [h]

theorem place_items (x : Asked) : (place q x s).eng.items = s.eng.items :=
  (place_within (L := 0xfa0000002) q x (.refl _ s) (.of rfl)).keeps .items rfl

theorem fitCharger_rails : (fitCharger s).rails = s.rails := by
  unfold fitCharger
  split <;> rfl

theorem setBud_rail (r : Fin 48) (b : BudState) (s : State) :
    setBud (.rail r.val) b s = modRail r (fun x => { x with bud := b }) s := by
  unfold setBud
  dsimp only
  rw [fin?_val]

/-- A rail whose request waits shows why. -/
theorem place_waits_rail {r : Fin 48} {x : Rail} {n : Nat} (hq : q.demand = .rail r.val) (hx : s.rails[r] = some x) :
    (place q (.waits n) s).rails[r] = some { x with bud := causeState n } := by
  unfold place
  rw [fitCharger_rails, hq, setBud_rail]
  exact modRail_self (s := countReg 0x50A0 31 16 1 (addReq q s)) hx _

/-- An item that asks the budget is refused with its verdict, and otherwise goes on or waits. -/
theorem Works.asksBudget {op : Nat} {it : Item} {t u : State} {c : Instr} (h : Works op a it t u)
    (e : exec c t = .next (itemAsks a q k u)) : AsksBudget c t it q k u := by
  obtain rfl : it.aseq = a := findItem_aseq h.1.1
  refine ⟨_, e, rfl, fun n hn => ?_⟩
  rw [itemAsks_refused hn]
  exact h.answers ((findItem_of_items (place_items _) _).trans h.item) rfl _ _ _

end

/-! ### The phase of an item -/

section
variable {a : Word} {it : Item} {s : State}

theorem itemAt_of_find {f : Item → Bool} (h : findItem s a = some it) : itemAt s a f = f it := by
  unfold itemAt
  rw [h]

theorem itemAt_gone {f : Item → Bool} (h : findItem s a = none) : itemAt s a f = false := by
  unfold itemAt
  rw [h]

/-- The START record of an item leaves its phase. -/
theorem commitStart_phase (h : findItem s a = some it) {jt : Item} (ej : jt.aseq = a) :
    ∃ kt, findItem (commitStart jt s) a = some kt ∧ kt.phase = it.phase := by
  subst ej
  unfold commitStart
  split
  · exact ⟨it, h, rfl⟩
  · have e : ∀ w, (commit w s).eng.items = s.eng.items := fun w =>
      (commit_within (L := 0xc00040) w (.refl _ s) (.of rfl)).keeps .items rfl
    exact ⟨_, modItem_findItem ((findItem_of_items (e _) _).trans h) fun _ => rfl, rfl⟩

/-- The interim completion of an item leaves its phase. -/
theorem interim_phase {n : Nat} {d : DWord} (h : findItem s a = some it) :
    ∃ kt, findItem (interim a n d s) a = some kt ∧ kt.phase = it.phase := by
  have kept : ∀ {t : State}, t.eng.items = s.eng.items → ∃ kt, findItem t a = some kt ∧ kt.phase = it.phase :=
    fun e => ⟨it, (findItem_of_items e a).trans h, rfl⟩
  have noted : ∀ {t : State}, t.eng.items = (modItem a (fun i => { i with interim := true }) s).eng.items →
      ∃ kt, findItem t a = some kt ∧ kt.phase = it.phase :=
    fun e => ⟨_, (findItem_of_items e a).trans (modItem_findItem h fun _ => rfl), rfl⟩
  unfold interim
  rw [h]
  dsimp -zeta only
  extract_lets c s1
  split
  · exact kept rfl
  · split
    · split
      · exact noted ((postService_within (L := 0x20000028001) c (.refl _ s1) (.of rfl)).keeps .items rfl)
      · exact kept rfl
    · split
      · exact noted ((writeCompletion_within (L := 0x1083) c.cq c (.refl _ (addComp _ s1)) (.of rfl)).keeps .items rfl)
      · exact noted ((holdComp_within (L := 0x28081) c (.refl _ s1) (.of rfl)).keeps .items rfl)

end

/-! ### Items on a rail -/

section
variable {op : Nat} {a : Word} {it : Item} {r : Fin 48} {x : Rail} {s u : State} (h : OnRail op a it r x s u)
include h

theorem OnRail.works : Works op a it s u := h.1

theorem OnRail.rail : u.rails[r] = some x := h.2.2

theorem OnRail.begins (k : Item → Fin 48 → Rail → State → State) : onRail op a k s = k it r x u := by
  refine (h.works.begins _).trans ?_
  rw [h.2.1, fin?_val]
  dsimp only
  rw [h.rail]

end

/-! ### RAIL_ENABLE (R164) -/

/-- The rail that is OFF shows PENDING where the item's request waits. -/
def showsPending (a : Word) (r : Fin 48) (s : State) : State :=
  match s.rails[r] with
  | some y => if itemAt s a (fun i => i.phase = .waiting) && y.state = .off then modRail r (fun z => { z with state := .pending }) s else s
  | none => s

section
variable {a : Word} {r : Fin 48} {s : State}

theorem showsPending_stands (h : itemAt s a (fun i => i.phase = .waiting) = false) : showsPending a r s = s := by
  unfold showsPending
  rw [h]
  split <;> rfl

theorem showsPending_rail {x : Rail} (h : itemAt s a (fun i => i.phase = .waiting) = true) (hx : s.rails[r] = some x) :
    ∃ y, (showsPending a r s).rails[r] = some y ∧ y.state = if x.state = .off then .pending else x.state := by
  unfold showsPending
  rw [hx, h]
  by_cases ho : x.state = .off
  · simp only [ho]
    exact ⟨_, modRail_self hx _, rfl⟩
  · simp only [ho]
    exact ⟨x, hx, rfl⟩

end

/-- What the budget has served waits no longer. -/
theorem railServed_works {a : Word} {r : Fin 48} {vm : Nat} {it : Item} {s : State} (h : findItem s a = some it) :
    itemAt (railServed a r vm s) a (fun i => i.phase = .waiting) = false := by
  obtain ⟨kt, hk, hp⟩ := commitStart_phase (jt := it)
    (modItem_findItem (f := fun i => { i with phase := .working }) h fun _ => rfl) (findItem_aseq h)
  have works : ∀ {t : State},
      t.eng.items = (commitStart it (modItem a (fun i => { i with phase := .working }) s)).eng.items →
      itemAt t a (fun i => i.phase = .waiting) = false := fun e => by
    rw [itemAt_of_find ((findItem_of_items e a).trans hk), hp]
    rfl
  unfold railServed
  rw [h]
  dsimp only
  split
  · split
    · exact works ((railStart_within (L := 0x38000000) r vm (.refl _ _) (.of rfl)).keeps .items rfl)
    · exact works rfl
  · exact works rfl

section
variable {a : Word} {vm : Nat} {it : Item} {r : Fin 48} {x : Rail} {s u : State} (h : OnRail 0x11 a it r x s u)
include h

theorem railEnable_held (hh : held u (48 + r.val) = true) : railEnable a vm s = complete a .refusedState 0x31 0 u :=
  (h.begins _).trans (if_pos hh)

variable (hh : held u (48 + r.val) = false)
include hh

theorem railEnable_hot (ht : hot u = true) : railEnable a vm s = complete a .refusedState 0x30 0 u :=
  (h.begins _).trans ((if_neg (by rw [hh]; decide)).trans (if_pos ht))

variable (ht : hot u = false)
include ht

/-- Past HOLD and the die's shutdown the rail's state decides. -/
theorem railEnable_judges : railEnable a vm s =
    if x.state = .faulted then complete a .refusedState 0x17 0 u
    else if x.state = .on then complete a .done 0 (enableResult u x (fld (railVout u r) 13 0)) u
    else showsPending a r (itemAsks a (railReq u r x (.item a) a x.claim) (railServed a r vm) u) :=
  (h.begins _).trans ((if_neg (by rw [hh]; decide)).trans (if_neg (by rw [ht]; decide)))

variable (ho : x.state ≠ .on) (hf : x.state ≠ .faulted) {q : Req} (hq : q = railReq u r x (.item a) a x.claim)
include ho hf hq

theorem railEnable_asks : railEnable a vm s = showsPending a r (itemAsks a q (railServed a r vm) u) := by
  rw [hq, railEnable_judges h hh ht, if_neg hf, if_neg ho]

/-- A request that is served or refused leaves no item waiting. -/
theorem railEnable_answered (hk : ∀ n, ask u q ≠ .waits n) : railEnable a vm s = itemAsks a q (railServed a r vm) u := by
  rw [railEnable_asks h hh ht ho hf hq]
  refine showsPending_stands ?_
  have hi := (findItem_of_items (place_items (q := q) (ask u q)) a).trans h.works.item
  cases e : ask u q with
  | refused n =>
    rw [itemAsks_refused e]
    rw [e] at hi
    have gone := (complete_answers hi .refusedBudget 0x10 (BitVec.ofNat 64 n)).1
    exact itemAt_gone ((congrArg _ (findItem_aseq hi).symm).trans gone)
  | served =>
    rw [itemAsks_served e]
    rw [e] at hi
    exact railServed_works hi
  | waits n => exact absurd e (hk n)

/-- Where the request waits, a rail that is OFF shows PENDING. -/
theorem railEnable_waits {n : Nat} (hk : ask u q = .waits n) :
    ∃ y, (railEnable a vm s).rails[r] = some y ∧ y.state = if x.state = .off then .pending else x.state := by
  rw [railEnable_asks h hh ht ho hf hq, itemAsks_waits hk]
  have hi := (findItem_of_items (place_items (q := q) (.waits n)) a).trans h.works.item
  obtain ⟨kt, hkt, hp⟩ := interim_phase (n := n) (d := expectedDelay (place q (.waits n) u) q)
    (modItem_findItem (f := fun i => { i with phase := .waiting }) hi fun _ => rfl)
  have e : ∀ d t, (interim a n d t).rails = t.rails := fun d t =>
    (interim_within (L := 0x20000039083) a n d (.refl _ t) (.of rfl)).keeps .rails rfl
  have hr := place_waits_rail (q := q) (n := n) (by rw [hq]; rfl) h.rail
  exact showsPending_rail (x := { x with bud := causeState n }) (by rw [itemAt_of_find hkt, hp]; rfl) ((congrArg (·[r]) (e _ _)).trans hr)

end

/-- Settles O34: the refusals and the rail that is ON by `railEnable_judges`, a request that is answered at once by
`railEnable_answered`, one that waits by `railEnable_waits`. -/
theorem railEnableAnswers : Obligations.RailEnableAnswers := by
  unfold Obligations.RailEnableAnswers
  refine fun a vm it r x s u h => ⟨fun hh => ?_, fun hh ht => ?_, fun hh ht => ⟨fun hf => ?_, fun ho => ?_,
    fun ho hf q hq => ⟨fun hk => ?_, fun n hk => ⟨_, rfl, ?_⟩⟩⟩⟩
  · exact h.works.finishes (congrArg Host.Outcome.next (railEnable_held h hh))
  · exact h.works.finishes (congrArg Host.Outcome.next (railEnable_hot h hh ht))
  · exact h.works.finishes (congrArg Host.Outcome.next ((railEnable_judges h hh ht).trans (if_pos hf)))
  · refine h.works.finishes (congrArg Host.Outcome.next ((railEnable_judges h hh ht).trans ?_))
    rw [if_neg (by rw [ho]; decide), if_pos ho]
  · exact h.works.asksBudget (congrArg Host.Outcome.next (railEnable_answered h hh ht ho hf hq hk))
  · exact railEnable_waits h hh ht ho hf hq hk

/-! ### RAIL_GANG (R169, R170) -/

section
variable {a : Word} {it : Item} {r : Fin 48} {x : Rail} {s u : State} (h : OnRail 0x13 a it r x s u)
include h

theorem railGang_held (hh : held u (48 + r.val) = true) : railGang a s = complete a .refusedState 0x31 0 u :=
  (h.begins _).trans (if_pos hh)

variable {new : BitVec 48} {ms : List (Fin 48)} (hn : new = lanesOf (opv it 5) (opv it 6)) (hm : ms = membersOf new)
  (hh : held u (48 + r.val) = false)
include hn hm hh

theorem railGang_refusesLanes {e : Refuse} (hl : lanesFault ms = some e) : railGang a s = complete a e.1 e.2 0 u := by
  subst hm hn
  refine (h.begins _).trans ((if_neg (by rw [hh]; decide)).trans ?_)
  rw [hl]

variable (hl : lanesFault ms = none) (hf : membersFault u r ms = none)
include hl hf

/-- A set that the checks of R162 pass is judged by the lead, the current limit and the rail's state. -/
theorem railGang_judges {w : State} {y : Rail} (hw : w = countReg (0x4000 + r.val * 0x40 + 0x38) 31 16 1 (commitStart it u))
    (hy : y = { x with lanes := new, shedMask := x.shedMask &&& new }) : railGang a s =
    if ms.head? ≠ some x.lead then complete a .refusedState 0x15 0 u
    else if imaxLimit u ms < x.imax then complete a .refusedState 0x16 0 u
    else if x.state = .starting || x.state = .waitDown || x.state = .sinking || x.state = .stopping || x.state = .pending then
      complete a .refusedState 0x18 0 u
    else if x.state = .on then gangLanes r x new (setRail r (some { y with ganging := true }) w)
    else complete a .done 0 0 (placeLanes r ms (modLanes
      (x.members.filter (fun n => !new.getLsbD n.val)) laneFree (setRail r (some y) w))) := by
  subst hw hy hm hn
  refine (h.begins _).trans ((if_neg (by rw [hh]; decide)).trans ?_)
  rw [hl, hf]

variable (hd : ms.head? = some x.lead)
include hd

theorem railGang_refusesLimit (hi : imaxLimit u ms < x.imax) : railGang a s = complete a .refusedState 0x16 0 u := by
  rw [railGang_judges h hn hm hh hl hf rfl rfl, if_neg (not_not_intro hd), if_pos hi]

variable (hi : x.imax ≤ imaxLimit u ms)
include hi

theorem railGang_refusesBusy (hb : x.state = .starting ∨ x.state = .waitDown ∨ x.state = .sinking ∨ x.state = .stopping ∨
    x.state = .pending) : railGang a s = complete a .refusedState 0x18 0 u := by
  rw [railGang_judges h hn hm hh hl hf rfl rfl, if_neg (not_not_intro hd), if_neg (Nat.not_lt.2 hi)]
  exact if_pos (by simpa [or_assoc] using hb)

variable {w : State} {y : Rail} (hw : w = countReg (0x4000 + r.val * 0x40 + 0x38) 31 16 1 (commitStart it u))
  (hy : y = { x with lanes := new, shedMask := x.shedMask &&& new })
include hw hy

theorem railGang_gangs (ho : x.state = .on) :
    railGang a s = gangLanes r x new (setRail r (some { y with ganging := true }) w) := by
  rw [railGang_judges h hn hm hh hl hf hw hy, if_neg (not_not_intro hd), if_neg (Nat.not_lt.2 hi),
    if_neg (by rw [ho]; decide), if_pos ho]

theorem railGang_binds (ho : x.state = .off ∨ x.state = .faulted) :
    railGang a s = complete a .done 0 0 (placeLanes r ms (modLanes
      (x.members.filter (fun n => !new.getLsbD n.val)) laneFree (setRail r (some y) w))) := by
  rw [railGang_judges h hn hm hh hl hf hw hy, if_neg (not_not_intro hd), if_neg (Nat.not_lt.2 hi)]
  obtain e | e := ho <;> rw [e] <;> rfl

end

/-! ### RAIL_LIMITS (R180) -/

/-- The limits that the budget has served stand, and the item is DONE. -/
theorem limitsServed_answers {a : Word} {r : Fin 48} {it : Item} {s : State} (h : findItem s a = some it) :
    Answered it .done 0 0 (limitsServed a r s) := by
  have ea := findItem_aseq h
  obtain ⟨kt, hk, hr, -, -⟩ := commitStart_findItem h ea
  have answers : ∀ {t : State}, t.eng.items = (commitStart it s).eng.items → Answered it .done 0 0 (complete a .done 0 0 t) :=
    fun e => by
      have hf := (findItem_of_items e a).trans hk
      exact (complete_answers hf .done 0 0).as ((findItem_aseq hf).trans ea.symm) hr
  unfold limitsServed
  rw [h]
  dsimp -zeta only
  extract_lets s1 s2
  have w1 : Within 0xfa0000000 (commitStart it s) s1 := reask_within r a (modRail_within _ _ (.refl _ _) (.of rfl)) (.of rfl)
  have w2 : Within 0xfa0000000 (commitStart it s) s2 := by
    unfold s2
    split
    · split
      · exact release_within _ w1 (.of rfl)
      · exact w1
    · exact w1
  exact answers (w2.keeps .items rfl)

section
variable {a : Word} {it : Item} {r : Fin 48} {x : Rail} {s u : State} (h : OnRail 0x14 a it r x s u)
include h

theorem railLimits_refuses (hl : imaxLimit u x.members < (setLimits it x).imax) :
    railLimits a s = complete a .refusedLeash 0 0 u :=
  (h.begins _).trans (if_pos hl)

variable (hl : (setLimits it x).imax ≤ imaxLimit u x.members)
include hl

/-- Limits within the lanes' go by the grant that the rail holds, and by its claim where it holds none. -/
theorem railLimits_judges : railLimits a s =
    if (grantOf u (.rail r.val)).isSome then
      if grantMw u (.rail r.val) < (setLimits it x).claim then
        itemAsks a (railReq u r (setLimits it x) (.item a) a (setLimits it x).claim) (limitsServed a r) u
      else limitsServed a r (lowerGrant (.rail r.val) (setLimits it x).tier (setLimits it x).claim u)
    else if x.state = .pending && x.claim < (setLimits it x).claim then
      itemAsks a (railReq u r (setLimits it x) (.item a) a (setLimits it x).claim) (limitsServed a r) u
    else limitsServed a r u :=
  (h.begins _).trans (if_neg (Nat.not_lt.2 hl))

theorem railLimits_takes (hg : grantOf u (.rail r.val) = none) (hc : x.state ≠ .pending ∨ (setLimits it x).claim ≤ x.claim) :
    railLimits a s = limitsServed a r u := by
  rw [railLimits_judges h hl, hg]
  refine (if_neg Bool.false_ne_true).trans (if_neg fun c => ?_)
  rw [Bool.and_eq_true, decide_eq_true_eq, decide_eq_true_eq] at c
  exact hc.elim (· c.1) (Nat.not_le.2 c.2)

theorem railLimits_asksPending (hg : grantOf u (.rail r.val) = none) (hp : x.state = .pending)
    (hc : x.claim < (setLimits it x).claim) : railLimits a s =
    itemAsks a (railReq u r (setLimits it x) (.item a) a (setLimits it x).claim) (limitsServed a r) u := by
  rw [railLimits_judges h hl, hg, hp, decide_eq_true hc]
  rfl

variable (hg : grantOf u (.rail r.val) ≠ none)
include hg

theorem railLimits_asks (hc : grantMw u (.rail r.val) < (setLimits it x).claim) : railLimits a s =
    itemAsks a (railReq u r (setLimits it x) (.item a) a (setLimits it x).claim) (limitsServed a r) u := by
  rw [railLimits_judges h hl, if_pos (Option.isSome_iff_ne_none.2 hg), if_pos hc]

theorem railLimits_lowers (hc : (setLimits it x).claim ≤ grantMw u (.rail r.val)) : railLimits a s =
    limitsServed a r (lowerGrant (.rail r.val) (setLimits it x).tier (setLimits it x).claim u) := by
  rw [railLimits_judges h hl, if_pos (Option.isSome_iff_ne_none.2 hg), if_neg (Nat.not_lt.2 hc)]

end

/-- Settles O36: RAIL_GANG by `railGang_judges`, the lanes that it binds leaving the item behind its START; RAIL_LIMITS by
`railLimits_judges`. -/
theorem railGangAndLimitsAnswer : Obligations.RailGangAndLimitsAnswer := by
  unfold Obligations.RailGangAndLimitsAnswer
  refine fun a it r x s u => ⟨fun h new ms hn hm => ⟨fun hh => ?_, fun hh => ⟨fun e hl => ?_, fun hl hf => ⟨fun hd => ?_,
      fun hd hi => ?_, fun hd hi => ⟨fun hb => ?_, fun w y hw hy => ⟨fun ho => ?_, fun ho => ?_⟩⟩⟩⟩⟩,
    fun h => ⟨fun hl => ?_, fun hl => ⟨fun hg hc => ⟨_, rfl, ?_⟩, fun hg hc => ?_, fun hg hc => ?_, fun hg hp hc => ?_⟩⟩⟩
  · exact h.works.finishes (congrArg Host.Outcome.next (railGang_held h hh))
  · exact h.works.finishes (congrArg Host.Outcome.next (railGang_refusesLanes h hn hm hh hl))
  · exact h.works.finishes (congrArg Host.Outcome.next ((railGang_judges h hn hm hh hl hf rfl rfl).trans (if_pos hd)))
  · exact h.works.finishes (congrArg Host.Outcome.next (railGang_refusesLimit h hn hm hh hl hf hd hi))
  · exact h.works.finishes (congrArg Host.Outcome.next (railGang_refusesBusy h hn hm hh hl hf hd hi hb))
  · exact congrArg Host.Outcome.next (railGang_gangs h hn hm hh hl hf hd hi hw hy ho)
  · refine h.works.finishesStarted ?_ (congrArg Host.Outcome.next (railGang_binds h hn hm hh hl hf hd hi hw hy ho))
    subst hw
    exact (placeLanes_within (L := 0x30000002) r ms (modLanes_within _ _ (setRail_within _ _
      (countReg_within _ _ _ _ (.refl _ (commitStart it u)) (.of rfl)) (.of rfl)) (.of rfl)) (.of rfl)).keeps .items rfl
  · exact h.works.finishes (congrArg Host.Outcome.next (railLimits_refuses h hl))
  · exact (congrArg (Answered it .done 0 0) (railLimits_takes h hl hg hc)).mpr ((limitsServed_answers h.works.item).as rfl rfl)
  · exact h.works.asksBudget (congrArg Host.Outcome.next (railLimits_asks h hl hg hc))
  · exact congrArg Host.Outcome.next (railLimits_lowers h hl hg hc)
  · exact h.works.asksBudget (congrArg Host.Outcome.next (railLimits_asksPending h hl hg hp hc))

/-! ### RAIL_SET_V (R167, R294) and RAIL_DISABLE (R168) -/

section
variable {a : Word} {it : Item} {r : Fin 48} {x : Rail} {s u : State} (h : OnRail 0x10 a it r x s u)
include h

theorem railSetV_derates (hd : it.ring = 0x1F) : railSetV a s = derateBegins it r x u := (h.begins _).trans (if_pos hd)

variable (hd : it.ring ≠ 0x1F) {v sl : Nat} (hv : v = fld (opv it 4) 13 0) (hs : sl = fld (opv it 5) 9 0)
include hd hv

theorem railSetV_held (hh : held u (48 + r.val) = true) (hr : x.vset < v) :
    railSetV a s = complete a .refusedState 0x31 0 u := by
  subst hv
  refine (h.begins _).trans ((if_neg hd).trans (if_pos ?_))
  rw [hh, decide_eq_true hr]
  rfl

variable (hh : held u (48 + r.val) = false ∨ v ≤ x.vset)
include hs hh

/-- HOLD keeps from raising alone: the limits judge what it lets through. -/
theorem railSetV_judges {set : Rail → Rail}
    (hset : set = fun y => { setVset v y with slew := if sl = 0 then (setVset v y).slew else sl })
    {w : State} (hw : w = failOthers r x v (commitStart it u)) : railSetV a s =
    if !targetOk (isCtl x.lead) v || 500 < sl then complete a .refusedLeash 0 0 u
    else if x.state = .on && (x.slewing || (set x).target ≠ x.target) then settle (retargetRail r set w)
    else settle (if x.state = .starting || x.state = .waitDown || x.state = .sinking then modRail r set w
      else complete a .done 0 (voutResult (modRail r set w) r) (modRail r set w)) := by
  have hc : ¬ (held u (48 + r.val) && decide (x.vset < v)) = true := by
    rw [Bool.and_eq_true, decide_eq_true_eq]
    rintro ⟨hc, hr⟩
    exact hh.elim (fun e => Bool.false_ne_true (e.symm.trans hc)) (Nat.not_lt.2 · hr)
  rw [hw]
  subst hset hv hs
  exact (h.begins _).trans ((if_neg hd).trans (if_neg hc))

theorem railSetV_refuses (hk : targetOk (isCtl x.lead) v = false ∨ 500 < sl) :
    railSetV a s = complete a .refusedLeash 0 0 u := by
  rw [railSetV_judges h hd hv hs hh rfl rfl]
  exact if_pos (by simpa using hk)

variable (hk : targetOk (isCtl x.lead) v = true) (hl : sl ≤ 500)
  {set : Rail → Rail} (hset : set = fun y => { setVset v y with slew := if sl = 0 then (setVset v y).slew else sl })
  {w : State} (hw : w = failOthers r x v (commitStart it u))
include hk hl hset hw

theorem railSetV_sets : railSetV a s =
    if x.state = .on && (x.slewing || (set x).target ≠ x.target) then settle (retargetRail r set w)
    else settle (if x.state = .starting || x.state = .waitDown || x.state = .sinking then modRail r set w
      else complete a .done 0 (voutResult (modRail r set w) r) (modRail r set w)) := by
  rw [railSetV_judges h hd hv hs hh hset hw, hk, decide_eq_false (Nat.not_lt.2 hl)]
  rfl

theorem railSetV_slews (ho : x.state = .on) (hm : x.slewing = true ∨ (set x).target ≠ x.target) :
    railSetV a s = settle (retargetRail r set w) := by
  rw [railSetV_sets h hd hv hs hh hk hl hset hw]
  exact if_pos (by simpa [ho] using hm)

theorem railSetV_governsStart (ho : x.state = .starting ∨ x.state = .waitDown ∨ x.state = .sinking) :
    railSetV a s = settle (modRail r set w) := by
  rw [railSetV_sets h hd hv hs hh hk hl hset hw]
  obtain e | e | e := ho <;> rw [e] <;> rfl

theorem railSetV_stores (ho : x.state = .off ∨ x.state = .pending ∨ x.state = .faulted ∨ x.state = .stopping ∨
    (x.state = .on ∧ x.slewing = false ∧ (set x).target = x.target)) :
    railSetV a s = settle (complete a .done 0 (voutResult (modRail r set w) r) (modRail r set w)) := by
  rw [railSetV_sets h hd hv hs hh hk hl hset hw]
  obtain e | e | e | e | ⟨e, f, g⟩ := ho
  case inr.inr.inr.inr => rw [e, f, g, decide_eq_false (not_not_intro rfl)]; rfl
  all_goals rw [e]; rfl

end

section
variable {a : Word} {it : Item} {r : Fin 48} {x : Rail} {s u : State} (h : OnRail 0x12 a it r x s u) {w : State}
  (hw : w = withdrawStarts r (commitStart it u))
include h hw

theorem railDisable_eq : railDisable a s =
    if x.state = .off || x.state = .faulted then settle (complete a .done 0 0 (failNodes r w))
    else if bit (opv it 4) 0 && softly u x then
      settle (failNodes r (setPg r false (modRail r (fun y => { y with state := .stopping, slewing := true, rsActive := false }) w)))
    else if bit (opv it 4) 0 && x.state = .stopping then w
    else settle (failNodes r (railDown r .off w)) := by
  subst hw
  exact h.begins _

theorem railDisable_idle (ho : x.state = .off ∨ x.state = .faulted) :
    railDisable a s = settle (complete a .done 0 0 (failNodes r w)) := by
  rw [railDisable_eq h hw]
  exact if_pos (by simpa using ho)

variable (ho : x.state ≠ .off) (hf : x.state ≠ .faulted)
include ho hf

theorem railDisable_ends : railDisable a s =
    if bit (opv it 4) 0 && softly u x then
      settle (failNodes r (setPg r false (modRail r (fun y => { y with state := .stopping, slewing := true, rsActive := false }) w)))
    else if bit (opv it 4) 0 && x.state = .stopping then w
    else settle (failNodes r (railDown r .off w)) := by
  rw [railDisable_eq h hw]
  exact if_neg (by simpa using ⟨ho, hf⟩)

theorem railDisable_slews (hb : bit (opv it 4) 0 = true) (hs : softly u x = true) : railDisable a s =
    settle (failNodes r (setPg r false (modRail r (fun y => { y with state := .stopping, slewing := true, rsActive := false }) w))) := by
  rw [railDisable_ends h hw ho hf, hb, hs]
  rfl

/-- A soft stop under way goes on. -/
theorem railDisable_goesOn (hb : bit (opv it 4) 0 = true) (hs : x.state = .stopping) : railDisable a s = w := by
  have e : softly u x = false := by
    unfold softly
    rw [hs]
    rfl
  rw [railDisable_ends h hw ho hf, hb, e, hs]
  rfl

theorem railDisable_turnsOff (hb : bit (opv it 4) 0 = false ∨ (softly u x = false ∧ x.state ≠ .stopping)) :
    railDisable a s = settle (failNodes r (railDown r .off w)) := by
  rw [railDisable_ends h hw ho hf]
  obtain e | ⟨e, hs⟩ := hb
  · rw [e]
    rfl
  · rw [e, decide_eq_false hs, Bool.and_false]
    rfl

end

/-- Settles O35: RAIL_SET_V by `railSetV_judges` and `railSetV_sets`, RAIL_DISABLE by `railDisable_eq`. -/
theorem railTargetsAndStops : Obligations.RailTargetsAndStops := by
  unfold Obligations.RailTargetsAndStops
  refine fun a it r x s u => ⟨fun h hd => congrArg Host.Outcome.next (railSetV_derates h hd),
    fun h hd v sl hv hs => ⟨fun hh hr => ?_, fun hh => ⟨fun hk => ?_, fun hk hl set hset w hw => ⟨fun ho hm => ?_, fun ho => ?_,
      fun ho => ?_⟩⟩⟩,
    fun h w hw => ⟨fun ho => ?_, fun ho hf => ⟨fun hb hs => ?_, fun hb hs => ?_, fun hb => ?_⟩⟩⟩
  · exact h.works.finishes (congrArg Host.Outcome.next (railSetV_held h hd hv hh hr))
  · exact h.works.finishes (congrArg Host.Outcome.next (railSetV_refuses h hd hv hs hh hk))
  · exact congrArg Host.Outcome.next (railSetV_slews h hd hv hs hh hk hl hset hw ho hm)
  · exact congrArg Host.Outcome.next (railSetV_governsStart h hd hv hs hh hk hl hset hw ho)
  · exact congrArg Host.Outcome.next (railSetV_stores h hd hv hs hh hk hl hset hw ho)
  · exact congrArg Host.Outcome.next (railDisable_idle h hw ho)
  · exact congrArg Host.Outcome.next (railDisable_slews h hw ho hf hb hs)
  · exact congrArg Host.Outcome.next (railDisable_goesOn h hw ho hf hb hs)
  · exact congrArg Host.Outcome.next (railDisable_turnsOff h hw ho hf hb)

/-! ### Sequence graphs (R182 to R185) -/

/-- SEQ_GRAPH_RUN begins its run, but upward it is refused after a die shutdown and where a rule keeps the graph down. -/
theorem seqGraphRun_eq {a : Word} {it : Item} {k : Fin 16} {g : Graph} {s u : State} (h : Works 0x15 a it s u)
    (hk : hSlot it.handle = k.val) (hg : u.graphs[k] = some g) : seqGraphRun a s =
    if !bit (opv it 4) 0 && (hot u || keptDown u k) then complete a .refusedState 0x30 0 u
    else settle (startRun k (bit (opv it 4) 0) .item (some a) (commitStart it u)) := by
  refine (h.begins _).trans ?_
  rw [hk, fin?_val]
  dsimp only
  rw [hg]
  rfl

section
variable {k : Fin 16} {i : Nat} {g : Graph} {s : State} (hg : s.graphs[k] = some g) (hr : isRunning g = true)
include hg hr

/-- A node that is ready starts. -/
theorem graphNodeStart_eq (vm : Nat) (hn : nodeReady g i = true) : graphNodeStart k i vm s =
    let s1 := modGraph k (fun x => { x with active := x.active ||| at_ i 1 })
      (if g.state = .runUp && !(nodeAt g i).wait then stopEnds (nodeAt g i) (rootWake s) else rootWake s)
    settle (if (nodeAt g i).wait then nodeDone k i s1
      else if g.state = .runUp then nodeUp k i g.item (nodeAt g i) vm s1 else nodeDown k i (nodeAt g i) s1) := by
  unfold graphNodeStart
  rw [hg]
  exact if_neg (by rw [hr, hn]; decide)

variable (ha : bit g.active i = true)
include ha

theorem graphNodeDone_down (hd : g.state = .runDown) : graphNodeDone k i s = settle (nodeDone k i s) := by
  unfold graphNodeDone
  rw [hg]
  exact if_neg (by rw [hr, ha, hd]; exact Bool.false_ne_true)

/-- An upward node is done where its rail stands at the target with power-good (R183). -/
theorem graphNodeDone_up {r : Fin 48} {x : Rail} (hn : nodeRail s (nodeAt g i) = some r) (hx : s.rails[r] = some x)
    (hs : railStands x = true) : graphNodeDone k i s = settle (nodeDone k i s) := by
  unfold graphNodeDone
  rw [hg]
  dsimp only
  rw [hr, ha, hn, Option.bind_some, hx]
  exact if_neg (by dsimp only; rw [hs, Bool.not_true, Bool.and_false]; exact Bool.false_ne_true)

theorem graphNodeTmo_ends (hw : nodeWaits s k i = false) :
    graphNodeTmo k i s = settle (if g.state = .runUp then nodeFail k i s else nodeDone k i s) := by
  unfold graphNodeTmo
  rw [hg]
  exact if_neg (by rw [hr, ha, hw]; decide)

end

/-- Settles O38: a run by `seqGraphRun_eq`, a node's start by `graphNodeStart_eq`, its end by `graphNodeDone_down` and
`graphNodeDone_up`, its time-out by `graphNodeTmo_ends`. -/
theorem graphsRun : Obligations.GraphsRun := by
  unfold Obligations.GraphsRun
  refine fun a it k i g vm s u => ⟨fun h hk hg => ⟨fun hd hc => ?_, fun hc => ?_⟩,
    fun hg hr => ⟨fun hn w hw => ⟨fun hwt => ?_, fun hwt hs => ?_, fun hwt hs => ?_⟩, fun ha => ⟨fun hd => ?_,
      fun r x hs hn hx hst => ?_, fun hw => ?_⟩⟩⟩
  · refine h.finishes (congrArg Host.Outcome.next ((seqGraphRun_eq h hk hg).trans (if_pos ?_)))
    rw [hd]
    simpa using hc
  · refine congrArg Host.Outcome.next ((seqGraphRun_eq h hk hg).trans (if_neg ?_))
    obtain e | ⟨e, f⟩ := hc
    · rw [e]
      exact Bool.false_ne_true
    · rw [e, f, Bool.or_self, Bool.and_false]
      exact Bool.false_ne_true
  · refine congrArg Host.Outcome.next ((graphNodeStart_eq hg hr vm hn).trans ?_)
    rw [hwt, Bool.not_true, Bool.and_false, hw]
    rfl
  · refine congrArg Host.Outcome.next ((graphNodeStart_eq hg hr vm hn).trans ?_)
    rw [hwt, hs]
    rfl
  · refine congrArg Host.Outcome.next ((graphNodeStart_eq hg hr vm hn).trans ?_)
    rw [hwt, hs, hw]
    rfl
  · exact congrArg Host.Outcome.next (graphNodeDone_down hg hr ha hd)
  · exact congrArg Host.Outcome.next (graphNodeDone_up hg hr ha hn hx hst)
  · exact congrArg Host.Outcome.next (graphNodeTmo_ends hg hr ha hw)

/-! ### Power-good and the end of a SOFT stop (R164, R168, R178) -/

section
variable {r : Fin 48} {s : State}

/-- Power-good stands: the undervoltage and the time-out of power-good have ended (R181). -/
def pgStands (r : Fin 48) (s : State) : State := endCause (48 + r.val) 1 (endCause (48 + r.val) 8 (setPg r true s))

theorem pgStands_ends (hb : s.pwr.burrowing = false) :
    MayRaise (pgStands r s) (48 + r.val) 1 ∧ MayRaise (pgStands r s) (48 + r.val) 8 := by
  have h8 : MayRaise (endCause (48 + r.val) 8 (setPg r true s)) (48 + r.val) 8 :=
    ⟨(endCause_within (L := 0x2804a083) _ 8 (setPg_within r true (.refl _ s) (.of rfl)) (.of rfl)).quiet hb (by decide),
      endCause_absent _ ⟨48 + r.val, by omega⟩ 7⟩
  exact ⟨⟨(h8.endCause 1).quiet, endCause_absent _ ⟨48 + r.val, by omega⟩ 0⟩, h8.endCause 1⟩

theorem railPgAssert_eq {x : Rail} {mv : Nat} {u : State} (hx : s.rails[r] = some x) (ho : x.state = .on) (hp : x.pg = false)
    (hu : u = if x.wmEn then railSees x mv s else s) (hw : x.wmEn = false ∨ wmActive (railWm u x) = false) :
    railPgAssert r mv s =
      let t := completeOpt (onHandle (pgStands r u) (railHandle (pgStands r u) r) 0x11) .done 0
        (enableResult (pgStands r u) x mv) (pgStands r u)
      settle (if x.slewing then t else nodesOnPg r t) := by
  subst hu
  unfold railPgAssert
  rw [hx]
  refine if_neg fun c => ?_
  rw [ho, hp, Bool.or_false, Bool.or_eq_true, Bool.and_eq_true] at c
  obtain c | ⟨c, d⟩ := c
  · exact of_decide_eq_true c rfl
  · exact hw.elim (fun e => Bool.false_ne_true (e.symm.trans c)) (fun e => Bool.false_ne_true (e.symm.trans d))

/-- What is left of the assertion raises nothing. -/
theorem pgAsserted_within (x : Rail) (hb : s.pwr.burrowing = false) (a : Option Word) (d : DWord) :
    Within 0x61ff0ffb4d7 s (settle (if x.slewing then completeOpt a .done 0 d s else nodesOnPg r (completeOpt a .done 0 d s))) := by
  have w : Within 0x61ff0ffb4d7 s (completeOpt a .done 0 d s) := completeOpt_within _ _ _ _ (.refl _ s) (.of rfl)
  refine settle_within ?_ (.calm hb rfl)
  split
  · exact w
  · exact nodesOnPg_within r w (.of rfl)

variable {x : Rail} {mv : Nat} (hx : s.rails[r] = some x)
include hx

theorem softStopDone_ends (hs : x.state = .stopping) : softStopDone r s = settle (railDown r .off s) := by
  unfold softStopDone
  rw [hx]
  exact if_pos hs

variable (ho : x.state = .on) (hp : x.pg = false)
include ho hp

/-- Power-good asserts where the monitor that has seen the output shows no level. -/
theorem railPgAssert_ends {u : State} (hu : u = if x.wmEn then railSees x mv s else s)
    (hw : x.wmEn = false ∨ wmActive (railWm u x) = false) (hb : u.pwr.burrowing = false) :
    isPresent (railPgAssert r mv s) (48 + r.val) 1 = false ∧ isPresent (railPgAssert r mv s) (48 + r.val) 8 = false := by
  obtain ⟨h1, h8⟩ := pgStands_ends (r := r) hb
  have w := pgAsserted_within (r := r) x h1.quiet (onHandle (pgStands r u) (railHandle (pgStands r u) r) 0x11)
    (enableResult (pgStands r u) x mv)
  rw [railPgAssert_eq hx ho hp hu hw]
  exact ⟨(w.mayRaise h1 rfl).absent, (w.mayRaise h8 rfl).absent⟩

theorem railPgAssert_inside {k : Fin 64} (hb : s.pwr.burrowing = false) (hw : x.wmEn = false ∨ (x.wmon = k.val ∧
    wmRuns k s = true ∧ wmBlanked k s = false ∧
    wmJudge s k (BitVec.ofNat 16 (codeAt (watchedInput x) (1000 * mv))) = { below := false, above := false })) :
    isPresent (railPgAssert r mv s) (48 + r.val) 1 = false ∧ isPresent (railPgAssert r mv s) (48 + r.val) 8 = false := by
  cases he : x.wmEn with
  | false => exact railPgAssert_ends hx ho hp rfl (.inl he) (by rw [he]; exact hb)
  | true =>
    obtain ⟨hk, hr, hn, hj⟩ := hw.resolve_left (by rw [he]; decide)
    have e : railSees x mv s = wmSet k { below := false, above := false } s := railSees_eq hk hr hn hj.symm
    obtain ⟨hbelow, habove⟩ := wmSet_shows (k := k) (lv := { below := false, above := false }) (s := s)
    refine railPgAssert_ends hx ho hp rfl (.inr ?_) ?_
    · rw [he, if_pos rfl, railWm_eq hk, e]
      unfold wmActive
      rw [hbelow, habove]
      rfl
    · rw [he, if_pos rfl, e]
      exact (wmSet_within (L := 0x3000f5a0c3) k _ (.refl _ s) (.of rfl)).quiet hb (by decide)

end

/-! ### Ganging (R170) -/

section
variable {n : Fin 48} {s : State}

theorem modLanes_off {f : Lane → Lane} {ns : List (Fin 48)} (h : n ∉ ns) : (modLanes ns f s).lanes[n] = s.lanes[n] := by
  induction ns generalizing s with
  | nil => rfl
  | cons m ns ih =>
    obtain ⟨hm, hn⟩ := not_or.1 (mt List.mem_cons.2 h)
    exact (ih (s := modLane m f s) hn).trans (upd_ne _ _ (Ne.symm hm))

theorem mem_boundTo {r : Fin 48} (h : s.lanes[n].rail = some r) : n ∈ boundTo s r :=
  List.mem_filter.2 ⟨List.mem_finRange n, decide_eq_true h⟩

/-- A lane that has joined: it regulates at its full share, in its phase. -/
def laneJoined (l : Lane) : Lane := { l with state := .reg, share := 64, moving := none }

/-- A lane whose phase is in place. -/
def laneStands (l : Lane) : Lane := { l with moving := none }

/-- The lanes bound to a rail have arrived: those in JOIN regulate, those in SHED are OFF, those that leave are free. -/
def lanesArrive (r : Fin 48) (s : State) : State :=
  modLanes ((boundTo s r).filter (fun n => s.lanes[n].leaving)) laneFree (modLanes (boundTo s r) laneStands
    (modLanes ((boundTo s r).filter (fun n => s.lanes[n].state = .shed && !s.lanes[n].leaving)) (fun l => { laneOff l with share := 0 })
      (modLanes ((boundTo s r).filter (fun n => s.lanes[n].state = .join)) laneJoined s)))

theorem lanesArrive_rails (r : Fin 48) : (lanesArrive r s).rails = s.rails :=
  (modLanes_within (L := 0x10000000) _ _ (modLanes_within _ _ (modLanes_within _ _ (modLanes_within _ _
    (.refl _ s) (.of rfl)) (.of rfl)) (.of rfl)) (.of rfl)).keeps .rails rfl

theorem lanesArrive_joined {r : Fin 48} (hr : s.lanes[n].rail = some r) (hj : s.lanes[n].state = .join)
    (hl : s.lanes[n].leaving = false) : (lanesArrive r s).lanes[n] = laneJoined s.lanes[n] := by
  have hb := mem_boundTo hr
  have stays : n ∉ (boundTo s r).filter (fun n => s.lanes[n].leaving) := fun c => by
    rw [List.mem_filter, hl] at c
    exact Bool.false_ne_true c.2
  have runs : n ∉ (boundTo s r).filter (fun n => s.lanes[n].state = .shed && !s.lanes[n].leaving) := fun c => by
    rw [List.mem_filter, hj] at c
    exact Bool.false_ne_true c.2
  have joins : n ∈ (boundTo s r).filter (fun n => s.lanes[n].state = .join) := List.mem_filter.2 ⟨hb, decide_eq_true hj⟩
  unfold lanesArrive
  rw [modLanes_off stays, modLanes_lane (f := laneStands) (fun _ => rfl), if_pos hb, modLanes_off runs,
    modLanes_lane (f := laneJoined) (fun _ => rfl), if_pos joins]
  rfl

end

section
variable {r : Fin 48} {x : Rail} {s : State} (hx : s.rails[r] = some x)
include hx

theorem gangDone_early (h : (boundTo s r).all (inPlace s) = false) : gangDone r s = s := by
  unfold gangDone
  rw [hx]
  exact if_pos (by rw [h, Bool.not_false, Bool.or_true])

variable (ho : x.state = .on)
include ho

theorem gangDone_eq (h : (boundTo s r).all (inPlace s) = true) : gangDone r s =
    let t := lostEnds r (modRail r (fun y => { y with ganging := false }) (lanesArrive r s))
    if x.ganging then
      completeOpt (onHandle t (railHandle t r) 0x13) .done 0 0 (event 0x0513 (railHandle t r) r.val 0 0 t)
    else t := by
  unfold gangDone
  rw [hx]
  exact if_neg (by rw [ho, h]; decide)

/-- The verdict and the event of GANG_DONE leave lanes and rails as the arrival has set them. -/
theorem gangDone_arrives (h : (boundTo s r).all (inPlace s) = true) : (gangDone r s).lanes = (lanesArrive r s).lanes ∧
    (gangDone r s).rails[r] = some { x with ganging := false } := by
  have hy := modRail_self (s := lanesArrive r s) ((congrArg (·[r]) (lanesArrive_rails r)).trans hx) (fun y => { y with ganging := false })
  rw [gangDone_eq hx ho h]
  extract_lets t
  have hl : t.lanes = (lanesArrive r s).lanes := lostEnds_lanes r _
  have hr : t.rails[r] = some { x with ganging := false } := (congrArg (·[r]) (lostEnds_rails r _)).trans hy
  split
  · have w : Within 0x20000ffb0c3 t (completeOpt (onHandle t (railHandle t r) 0x13) .done 0 0 (event 0x0513 (railHandle t r) r.val 0 0 t)) :=
      completeOpt_within _ _ _ _ (event_within _ _ _ _ _ (.refl _ t) (.of rfl)) (.of rfl)
    exact ⟨(w.keeps .lanes rfl).trans hl, (congrArg (·[r]) (w.keeps .rails rfl)).trans hr⟩
  · exact ⟨hl, hr⟩

end

/-! ### AUTO_SHED (R172) -/

theorem autoShedEvent_lanes (r : Fin 48) (s : State) : (autoShedEvent r s).lanes = s.lanes :=
  (autoShedEvent_within (L := 0x4a083) r (.refl _ s) (.of rfl)).keeps .lanes rfl

section
variable {r n : Fin 48} {x : Rail} {ma : Int} {s : State}

theorem autoShed_eq (hx : s.rails[r] = some x) (ho : x.state = .on) (ha : x.autoShed = true) : autoShed r ma s =
    if lightLoad s x ma then railShedLane r x s else if heavyLoad s x ma then railRejoin r x s else s := by
  unfold autoShed
  rw [hx]
  exact if_neg (by rw [ho, ha]; decide)

theorem railShedLane_sheds (hk : max x.minLanes (laneFloor s r) < (kept s x).length)
    (hn : ((kept s x).filter (fun m => m ≠ x.lead)).getLast? = some n) :
    (railShedLane r x s).lanes[n] = { s.lanes[n] with state := .shed } := by
  unfold railShedLane
  rw [if_pos hk, hn]
  dsimp only
  rw [autoShedEvent_lanes]
  exact modLane_self

theorem railRejoin_joins (hn : (x.members.filter (fun m => x.shedMask.getLsbD m.val && mayStart s m)).head? = some n) :
    (railRejoin r x s).lanes[n] = { laneQuiet s.lanes[n] with
      state := .join, share := 0, ref := if laneRun s.lanes[decider s x] then s.lanes[decider s x].ref else x.goal } := by
  unfold railRejoin
  rw [hn]
  dsimp only
  rw [autoShedEvent_lanes, lostEnds_lanes]
  exact modLane_self

end

/-- Settles O37: power-good by `railPgAssert_inside`, ganging by `gangDone_arrives` and `lanesArrive_joined`, AUTO_SHED by
`autoShed_eq` and the lane that `railShedLane_sheds` or `railRejoin_joins` moves. -/
theorem railsRun : Obligations.RailsRun := by
  unfold Obligations.RailsRun
  refine fun r n x k mv ma s hx => ⟨fun ho hp hb hw => ⟨_, rfl, railPgAssert_inside hx ho hp hb hw⟩,
    fun hs => congrArg Host.Outcome.next (softStopDone_ends hx hs), fun h => congrArg Host.Outcome.next (gangDone_early hx h),
    fun ho h => ?_, fun ho ha => ⟨fun hl hk hn => ?_, fun hl hv hn => ?_, fun hl hv => ?_⟩⟩
  · obtain ⟨hl, hr⟩ := gangDone_arrives hx ho h
    refine ⟨_, rfl, ⟨_, hr, rfl⟩, fun hb hj hv => ?_⟩
    rw [hl, lanesArrive_joined hb hj hv]
    exact ⟨rfl, rfl⟩
  · exact ⟨_, congrArg Host.Outcome.next ((autoShed_eq hx ho ha).trans (if_pos hl)),
      congrArg Lane.state (railShedLane_sheds hk hn)⟩
  · have e := railRejoin_joins (r := r) hn
    refine ⟨_, congrArg Host.Outcome.next ((autoShed_eq hx ho ha).trans ?_), congrArg Lane.state e, congrArg Lane.share e,
      congrArg Lane.ref e⟩
    rw [hl, if_neg Bool.false_ne_true, if_pos hv]
  · refine congrArg Host.Outcome.next ((autoShed_eq hx ho ha).trans ?_)
    rw [hl, hv]
    rfl

end Sys2Proof.Machine

/-! PROOFS. The budget arbiter and the leash: the walk, the DEFER limit, a tier's restoration, CAP_BATT (R191, R193, R199,
R221), BUDGET_SET (R201) and LEASH_SET (R367, R368). -/

namespace Sys2Proof.Machine

/-! ### The walk, the DEFER limit and the tiers (R191, R193, R199) -/

section
variable {r : Req} {s : State}

theorem nextServed_eq {n : Option Nat}
    (h : (walkAll (now s) s).1.find? (fun x => x.2.isNone && !startWaits s x.1) = some (r, n)) : nextServed s = some r :=
  congrArg (Option.map Prod.fst) h

theorem serveNext_serves {vm : Nat} (h : nextServed s = some r) :
    serveNext vm s = served r vm (serveReq (now s) r (rootWake s)) := by
  unfold serveNext
  rw [h]

theorem sortBy_singleton {α : Type} (le : α → α → Bool) (x : α) : sortBy le [x] = [x] := rfl

theorem deferTmo_refuses {a : Word} (h : s.bud.waiting.filter (fun q => q.aseq = a && deferLimit s q.tier ≠ 0) = [r]) :
    deferTmo a s = deferRefused r (rootWake s) := by
  unfold deferTmo
  rw [h, sortBy_singleton]
  rfl

theorem unshed_restores {tier : Nat} (ht : [1, 2, 3].find? (fun t => s.bud.shedCap.getLsbD t) = some tier)
    (hf : ((nth s.bud.shedSum tier 0 : Nat) : Int) ≤ freePower s) :
    unshed s = restoreTier tier (modBud (fun b => { b with
      shedCap := b.shedCap &&& ~~~(BitVec.ofNat 4 (2 ^ tier)), shedSum := b.shedSum.setIfInBounds tier 0 }) s) := by
  unfold unshed
  rw [ht]
  exact if_neg (Int.not_lt.2 hf)

end

/-! ### CAP_BATT (R221) -/

/-- The open rounding draws at most one free value and gives a neighbour of the quotient. -/
theorem roundOpen_near (num : Nat) {den : Nat} (hd : 0 < den) (s : State) :
    (∃ k, (roundOpen num den s).2 = { s with freeIx := k }) ∧
    (roundOpen num den s).1 * den < num + den ∧ num < (roundOpen num den s).1 * den + den := by
  have hq : num / den * den + num % den = num := Nat.div_add_mod' num den
  have hr : num % den < den := Nat.mod_lt num hd
  unfold roundOpen
  split
  · exact ⟨⟨s.freeIx, rfl⟩, by dsimp only; omega, by dsimp only; omega⟩
  · refine ⟨⟨s.freeIx + 1, rfl⟩, ?_⟩
    dsimp only [drawNat]
    rw [Nat.add_mul]
    rcases Nat.mod_two_eq_zero_or_one (Config.freeNat s.freeIx) with h | h <;> rw [h] <;> omega

theorem capBattUpdate_eq {b : Nat} {s u : State} (hd : s.den.up = true) (hu : u = judgeDerate (sawBatsns b s)) {x : Nat × State}
    (hx : x = roundOpen (b * dsgLimit u) (if u.chg.derated then 200 else 100) u) :
    capBattUpdate b s = arbitrate (modBud (fun k => { k with capBatt := x.1 }) x.2) := by
  subst hx hu
  exact if_neg (by rw [hd]; decide)

/-- Settles O39: the walk by `serveNext_serves`, the DEFER limit by `deferTmo_refuses`, the tier by `unshed_restores`, CAP_BATT
by `capBattUpdate_eq` with what `roundOpen_near` says of the open rounding. -/
theorem budgetWalks : Obligations.BudgetWalks := by
  unfold Obligations.BudgetWalks
  refine ⟨fun vm a r n tier s => ⟨fun h => ?_, fun h => ?_, fun ht hf => ?_⟩, fun b s u hd hu => ?_⟩
  · exact congrArg Host.Outcome.next (serveNext_serves (nextServed_eq h))
  · exact congrArg Host.Outcome.next (deferTmo_refuses h)
  · exact congrArg Host.Outcome.next (unshed_restores ht hf)
  · obtain ⟨⟨k, hk⟩, hlo, hhi⟩ := roundOpen_near (b * dsgLimit u) (den := if u.chg.derated then 200 else 100)
      (by split <;> decide) u
    exact ⟨_, congrArg Host.Outcome.next (capBattUpdate_eq hd hu rfl), _, k, by rw [hk], hlo, hhi⟩

/-! ### BUDGET_SET (R201) -/

section
variable {a : Word} {it : Item} {s u : State} (h : Works 0x48 a it s u)
include h

theorem budgetSet_refuses (hb : budgetBad it = true) : budgetSet a s = complete a .refusedLeash 0 0 u :=
  (h.begins _).trans (if_pos hb)

theorem budgetSet_stores (hb : budgetBad it = false) {w t : State}
    (hw : w = arbitrate (if bit (opv it 4) 4 then setForce (fld (opv it 9) 3 0) (budgetStore it (commitStart it u))
      else budgetStore it (commitStart it u)))
    (ht : t = serveAllNext w.bud.waiting.length w) :
    budgetSet a s = complete a .done 0 (BitVec.ofNat 64 (capacity t)) t := by
  subst ht hw
  exact (h.begins _).trans (if_neg (by rw [hb]; decide))

end

/-! ### LEASH_SET (R367, R368) -/

theorem leashSet_eq {a : Word} {it : Item} {s u t : State} (h : Works 0x49 a it s u)
    (ht : t = leashReturn (opv it 4) (commitStart it u) (leashStore it (commitStart it u))) : leashSet a s =
    if leashOperand it then complete a .refusedFormat 7 0 u
    else if leashBeyond it then complete a .refusedLeash 0 0 u
    else complete a .done 0 ((lshStatus t).setWidth 64) t := by
  subst ht
  exact h.begins _

/-- Settles O40: BUDGET_SET by `budgetSet_refuses` and `budgetSet_stores`, LEASH_SET by the order of its judgements
(`leashSet_eq`). -/
theorem budgetAndLeashAreSet : Obligations.BudgetAndLeashAreSet := by
  unfold Obligations.BudgetAndLeashAreSet
  refine fun a it s u => ⟨fun h => ⟨fun hb => ?_, fun hb w t hw ht => ?_⟩, fun h => ⟨fun ho => ?_, fun ho hb => ?_,
    fun ho hb t ht => ?_⟩⟩
  · exact h.finishes (congrArg Host.Outcome.next (budgetSet_refuses h hb))
  · exact congrArg Host.Outcome.next (budgetSet_stores h hb hw ht)
  · exact h.finishes (congrArg Host.Outcome.next ((leashSet_eq h rfl).trans (if_pos ho)))
  · exact h.finishes (congrArg Host.Outcome.next ((leashSet_eq h rfl).trans (by rw [ho, hb]; rfl)))
  · refine congrArg Host.Outcome.next ((leashSet_eq h ht).trans ?_)
    rw [ho, hb]
    rfl

end Sys2Proof.Machine

/-! PROOFS. Charger, gauge, Lend and Lift: the statements on spec/11. -/

namespace Sys2Proof.Machine

/-! ### The charger's states by voltage (R203, R204, R207) -/

section
variable {b : Nat} {s : State}

theorem chgVolts_fromPrecharge (hs : s.chg.state = .precharge) (hb : pack s (preV s) ≤ b) :
    chgVolts b s = arbitrate (setChg .cc (sawBatsns b s)) := by
  unfold chgVolts
  dsimp only
  rw [show (sawBatsns b s).chg.state = .precharge from hs]
  exact if_neg (mt of_decide_eq_true (Nat.not_lt.2 hb))

theorem chgVolts_toCv (hs : s.chg.state = .cc) (hl : pack s (preV s) ≤ b) (hb : pack s (rfld s 0x540C 12 0) ≤ b) :
    chgVolts b s = arbitrate (setChg .cv (sawBatsns b s)) := by
  unfold chgVolts
  dsimp only
  rw [show (sawBatsns b s).chg.state = .cc from hs]
  exact (if_neg (mt of_decide_eq_true (Nat.not_lt.2 hl))).trans (if_pos hb)

theorem chgVolts_toPrecharge (hs : s.chg.state = .cc ∨ s.chg.state = .cv) (hb : b < pack s (preV s)) :
    chgVolts b s = arbitrate (setChg .precharge (sawBatsns b s)) := by
  unfold chgVolts
  dsimp only
  rcases hs with hs | hs
  · rw [show (sawBatsns b s).chg.state = .cc from hs]
    exact if_pos (decide_eq_true hb)
  · rw [show (sawBatsns b s).chg.state = .cv from hs]
    exact if_pos (decide_eq_true hb)

theorem chgTerminate_fromCv (hs : s.chg.state = .cv) :
    chgTerminate s = judgeGauge (setChg .done (rebase (qfull s : Int) s)) := if_neg (not_not.2 hs)

theorem chgRecharge_fromDone (hs : s.chg.state = .done) (hb : b < pack s (rfld s 0x540C 12 0 - 5 * rfld s 0x5410 15 8)) :
    chgRecharge b s = arbitrate (setChg (if b < pack s (preV s) then .precharge else .cc) (sawBatsns b s)) :=
  if_neg (by simp [hs, hb])

end

/-! ### Input adaptation (R209) -/

section
variable {vin cur : Nat} {s : State} (hc : charging s = true) (he : cur = min (baseMa s) (s.chg.adapted.getD (baseMa s)))
  (hm : chgMin s ≤ cur)
include hc he hm

/-- Above the leash's minimum the step is judged by VIN alone. -/
theorem inputAdapt_byVin : inputAdapt vin s =
    if vin < rfld s 0x5418 8 0 * 100 then
      (if baseMa s ≤ chgMin s then s
        else adaptTo (max (chgMin s) (cur - (drawNat s).1 % 101)) (drawNat s).2)
    else if rfld s 0x5418 8 0 * 100 + 200 < vin then adaptTo (cur + 1) s
    else s := by
  subst he
  exact (if_neg (by rw [hc]; decide)).trans
    (if_neg fun hx => Nat.not_lt.2 hm (of_decide_eq_true (Bool.and_eq_true_iff.1 hx).2))

end

/-- Settles O41: the voltage tests by the charger's state that each names (`chgVolts_fromPrecharge` to
`chgRecharge_fromDone`), a step of input adaptation by `inputAdapt_byVin`; what it draws is at most 100 mA. -/
theorem chargerMoves : Obligations.ChargerMoves := by
  unfold Obligations.ChargerMoves
  refine ⟨fun b s => ⟨fun hs hb => ?_, fun hs hl hb => ?_, fun hs hb => ?_, fun hs => ?_, fun hs hb => ?_⟩,
    fun vin base cur s hc hb he hm => ?_⟩
  · exact congrArg Host.Outcome.next (chgVolts_fromPrecharge hs hb)
  · exact congrArg Host.Outcome.next (chgVolts_toCv hs hl hb)
  · exact congrArg Host.Outcome.next (chgVolts_toPrecharge hs hb)
  · exact congrArg Host.Outcome.next (chgTerminate_fromCv hs)
  · exact congrArg Host.Outcome.next (chgRecharge_fromDone hs hb)
  · subst hb
    have step := inputAdapt_byVin (vin := vin) hc he hm
    refine ⟨fun hv hl => ⟨_, congrArg Host.Outcome.next step, (drawNat s).1 % 101, ?_, ?_⟩, fun hv => ?_, fun hl hh => ?_⟩
    · exact Nat.le_of_lt_succ (Nat.mod_lt _ (by decide))
    · rw [if_pos hv, if_neg (Nat.not_le.2 hl)]
      rfl
    · refine congrArg Host.Outcome.next (step.trans ?_)
      rw [if_neg (by omega), if_pos hv]
    · refine congrArg Host.Outcome.next (step.trans ?_)
      rw [if_neg (Nat.not_lt.2 hl), if_neg (Nat.not_lt.2 hh)]

/-! ### Causes raised once in their episode (R230) -/

section
variable {s t : State} {n d : Nat}

theorem raiseEpisode_stands (h : inEpisode s n d = true) : raiseEpisode n d s = s := if_pos h

theorem inEpisode_of_flt (h : t.flt = s.flt) (n d : Nat) : inEpisode t n d = inEpisode s n d := by
  unfold inEpisode causesOf
  rw [h]

theorem raiseEpisode_latched (hn : n < 186) (hd : 1 ≤ d ∧ d ≤ 16) (hb : s.pwr.burrowing = false)
    (h : inEpisode s n d = false) : Latched (raiseEpisode n d s) n d := by
  unfold raiseEpisode
  rw [show (causesOf s n).latched.getLsbD (d - 1) = false from h]
  exact raiseLatched_latched hn hd hb

/-- Behind an operation that leaves the faults a cause outside its episode latches still. -/
theorem Within.episode {L : Nat} (w : Within L s t) (hf : L.testBit 27 = false) (hn : n < 186) (hd : 1 ≤ d ∧ d ≤ 16)
    (hb : s.pwr.burrowing = false) (h : inEpisode s n d = false) : Latched (raiseEpisode n d t) n d := by
  refine raiseEpisode_latched hn hd (w.quiet hb fun e => ?_) ((inEpisode_of_flt (w.keeps .flt hf) n d).trans h)
  have := congrArg (·.testBit 27) e
  rw [Nat.testBit_and, hf] at this
  exact absurd this (by decide)

end

/-! ### The supply side's faults (R205, R206, R211, R221) -/

section
variable {s : State}

theorem preTmo_latches (hb : s.pwr.burrowing = false) (hs : s.chg.state = .precharge)
    (ht : 60000000 * rfld s 0x5414 15 8 < s.chg.preTime) (hp : isPresent s 151 1 = false) : Latched (preTmo s) 151 1 := by
  unfold preTmo
  rw [if_neg (by simp [hs, ht])]
  extract_lets s1 s2
  have w1 : Within 0xfa004a087 s s1 := setChg_within _ (.refl _ s) (.of rfl)
  have w2 : Within 0xfa004a087 s s2 := Within.ite
    (modPwr_within _ w1 (.of rfl) (.inl fun _ => rfl) (.inl fun _ => rfl) (.inl fun _ => rfl) (.inl fun _ => rfl)
      (.inl fun _ => rfl)) w1
  exact (w2.mayRaise ⟨hb, hp⟩ rfl).once (by decide) (by decide)

/-- SAFETY has passed while the charger runs: it stops, and the cause is raised once in its episode. -/
theorem safetyTmo_stops (hc : charging s = true) (ht : 3600000000 * orElse0 (rfld s 0x5414 23 16) 24 ≤ s.chg.safety) :
    safetyTmo s = raiseEpisode 151 2 (setChg .fault s) := if_pos (by simp [hc, ht])

theorem setChg_within_self (st : ChgState) (s : State) : Within 0xfa004a083 s (setChg st s) :=
  setChg_within st (.refl _ s) (.of rfl)

theorem setChg_episode {st : ChgState} {n d : Nat} (hn : n < 186) (hd : 1 ≤ d ∧ d ≤ 16) (hb : s.pwr.burrowing = false)
    (h : inEpisode s n d = false) : Latched (raiseEpisode n d (setChg st s)) n d :=
  (setChg_within_self st s).episode rfl hn hd hb h

theorem chgOc_raises {ma : Int} (hd : s.den.up = true) (hc : charging s = true) (hm : (10 * s.chg.target + 1000 : Int) < ma) :
    chgFault (.chgOc ma) s = raiseEpisode 151 4 (setChg .fault s) :=
  (if_neg (by rw [hd]; decide)).trans (if_pos (by simp [hc, hm]))

theorem swFail_raises (hd : s.den.up = true) (hc : charging s = true) :
    chgFault .swFail s = raiseEpisode 151 5 (setChg .fault s) :=
  (if_neg (by rw [hd]; decide)).trans (if_pos (by simp [hc]))

theorem acinOv_raises {mv : Nat} (hd : s.den.up = true) (hm : 38000 < mv) : chgFault (.acinOv mv) s = raiseOnce 150 1 s :=
  (if_neg (by rw [hd]; decide)).trans (if_pos hm)

theorem acgateFail_raises {mv acin : Nat} (hd : s.den.up = true) (hg : s.pwr.acgate = true)
    (hm : 1000 < ((mv : Int) - acin).natAbs) : chgFault (.acgateFail mv acin) s = raiseOnce 150 2 s :=
  (if_neg (by rw [hd]; decide)).trans (if_pos (by rw [hg, decide_eq_true hm]; rfl))

theorem battOv_raises {mv : Nat} (hd : s.den.up = true) (hs : s.chg.state ≠ .disabled) (hm : ovMv s < mv) :
    chgFault (.battOv mv) s = raiseOnce 151 3 (setChg .fault s) :=
  (if_neg (by rw [hd]; decide)).trans (if_neg (by simp [hs, hm]))

theorem batswOpen_raises {diff : Int} (hs : s.pwr.batsw = true) (hm : 300 < diff.natAbs) :
    batswOpen diff s = raiseOnce 155 1 s := if_pos (by rw [hs, decide_eq_true hm]; rfl)

/-- A reading beyond the range stays latched while DISPUTE and LOW are judged behind it. -/
theorem gaugeRange_latches (hb : s.pwr.burrowing = false) (hg : gaugeRuns s = true) (hp : isPresent s 152 3 = false) :
    Latched (gaugeRange s) 152 3 := by
  unfold gaugeRange
  rw [if_neg (by rw [hg]; decide)]
  generalize hu : modChg (fun c => { c with senseRange := true, qvalid := false }) s = u
  have hm : MayRaise u 152 3 := hu ▸ ⟨hb, hp⟩
  have hq : (raiseOnce 152 3 u).pwr.burrowing = false :=
    (raiseOnce_within 152 3 (.refl 0x73ff8ffb4d7 u) (.calm hm.quiet rfl)).quiet hm.quiet (by decide)
  exact (judgeGauge_within (L := 0x73ff8ffb4d7) (.refl _ _) (.calm hq rfl)).latched (hm.once (by decide) (by decide)) rfl

end

/-- Settles O42: each cause by the branch that its threshold takes; what goes before the raise leaves the faults
(`setChg_within_self`). -/
theorem chargerFaultsLatch : Obligations.ChargerFaultsLatch := by
  unfold Obligations.ChargerFaultsLatch
  refine fun ma diff mv acin s hu hb => ⟨fun hs ht hp => ?_, fun hc => ⟨fun ht => ⟨fun he => ?_, fun he => ?_⟩,
    fun hm he => ?_, fun he => ?_⟩, fun hm hp => ?_, fun hg hm hp => ?_, fun hs hm hp => ?_, fun hs hm hp => ?_,
    fun hm hp => ?_, fun hg hp => ?_⟩
  · exact ⟨_, rfl, preTmo_latches hb hs ht hp⟩
  · exact ⟨_, congrArg Host.Outcome.next (safetyTmo_stops hc ht), setChg_episode (by decide) (by decide) hb he⟩
  · refine congrArg Host.Outcome.next ((safetyTmo_stops hc ht).trans (raiseEpisode_stands ?_))
    rw [inEpisode_of_flt ((setChg_within_self .fault s).keeps .flt rfl), he]
  · exact ⟨_, congrArg Host.Outcome.next (chgOc_raises hu hc hm), setChg_episode (by decide) (by decide) hb he⟩
  · exact ⟨_, congrArg Host.Outcome.next (swFail_raises hu hc), setChg_episode (by decide) (by decide) hb he⟩
  · exact ⟨_, congrArg Host.Outcome.next (acinOv_raises hu hm), raiseOnce_latched (by decide) (by decide) hb hp⟩
  · exact ⟨_, congrArg Host.Outcome.next (acgateFail_raises hu hg hm), raiseOnce_latched (by decide) (by decide) hb hp⟩
  · exact ⟨_, congrArg Host.Outcome.next (battOv_raises hu hs hm),
      ((setChg_within_self .fault s).mayRaise ⟨hb, hp⟩ rfl).once (by decide) (by decide)⟩
  · exact ⟨_, congrArg Host.Outcome.next (batswOpen_raises hs hm), raiseOnce_latched (by decide) (by decide) hb hp⟩
  · refine ⟨_, congrArg Host.Outcome.next (if_pos ?_), raiseOnce_latched (by decide) (by decide) hb hp⟩
    rw [hu, decide_eq_true hm]
    rfl
  · exact ⟨_, rfl, gaugeRange_latches hb hg hp⟩

/-! ### The gauge's samples, rest and cutoff (R212 to R218) -/

section
variable {b : Nat} {s : State}

theorem gaugeSample_idle {ma : Int} (hg : gaugeRuns s = false) : gaugeSample ma b s = sawBatsns b s :=
  if_pos (by rw [hg]; rfl)

theorem cutoffPend_pends (hg : gaugeRuns s = true) (ha : s.pwr.acinValid = false) (hc : s.chg.cutPend = false)
    (hb : b ≤ pack s (cutoffMv s)) : cutoffPend b s =
      event 0x0703 0 0 0 0 (orReg 0x54C0 0x20 (modChg (fun c => { c with cutPend := true, batsns := b }) s)) :=
  if_neg (by simp [hg, ha, hc, hb])

theorem event_chg (code : BitVec 16) (h : Word) (i d : Nat) (v : DWord) (s : State) : (event code h i d v s).chg = s.chg :=
  (event_within (L := 0x4a083) code h i d v (.refl _ s) (.of rfl)).keeps .chg rfl

/-- Without a count above 0 that is valid, CUTOFF goes to BURROW at once (R219). -/
theorem cutoff_burrows (hg : gaugeRuns s = true) (ha : s.pwr.acinValid = false) (hc : s.chg.cutPend = true)
    (hq : s.pwr.burrowing = false) (hb : b ≤ pack s (cutoffMv s + 50)) (he : s.chg.qacc ≤ 0 ∨ s.chg.qvalid = false) :
    cutoff b s = burrowStart (modPwr (fun p => { p with latch := { p.latch with gaugeZero := true, uv := true } })
      (disputeEnd (event 0x0704 0 0 0 (BitVec.ofInt 64 s.chg.qacc) (sawBatsns b s)))) := by
  have hz : ¬ (decide (0 < s.chg.qacc) && s.chg.qvalid) = true := by
    rw [Bool.and_eq_true, decide_eq_true_eq]
    rintro ⟨hp, hv⟩
    rcases he with he | he
    · omega
    · rw [he] at hv
      cases hv
  unfold cutoff
  rw [if_neg (by simp [hg, ha, hc, hq, hb])]
  dsimp only
  rw [if_neg hz]

end

/-- Settles O43: a sample and a rest by what the gauge does while it runs, CUT_PEND by `cutoffPend_pends` with the event that
leaves the charger's part, CUTOFF by `cutoff_burrows`. -/
theorem gaugeCounts : Obligations.GaugeCounts := by
  unfold Obligations.GaugeCounts
  refine fun ma b s => ⟨fun hg => ?_, fun hg => ⟨fun n hn => ?_, ?_, fun ha hc hb => ?_, fun ha hc hq hb he => ?_⟩⟩
  · exact congrArg Host.Outcome.next (gaugeSample_idle hg)
  · subst hn
    exact congrArg Host.Outcome.next (if_neg (by rw [hg]; decide))
  · exact congrArg Host.Outcome.next (if_neg (by rw [hg]; decide))
  · refine ⟨_, congrArg Host.Outcome.next (cutoffPend_pends hg ha hc hb), ?_, ?_⟩
    · rw [event_chg]
      rfl
    · rw [event_chg]
      rfl
  · exact congrArg Host.Outcome.next (cutoff_burrows hg ha hc hq hb he)

/-! ### GAUGE_REBASE while a graph's run names the same item (R185, R216, R218) -/

theorem complete_gone {s : State} {a : Word} (h : findItem s a = none) (v : Verdict) (d : Nat) (r : DWord) :
    complete a v d r s = s := by
  unfold complete completeH
  rw [h]

/-- Where the item has gone before its verdict, its completion stands already. -/
theorem Finishes.result_of_gone {c : Instr} {s u : State} {it : Item} {v : Verdict} {d : Nat} {r : DWord}
    (h : Finishes c s it v d r u) (hg : findItem u it.aseq = none) (hr : it.ring.toNat < 16) :
    ∃ k ∈ u.eng.comps, k.result = r := by
  obtain ⟨t, -, ht, -, hc⟩ := h
  rw [ht, complete_gone hg] at hc
  obtain ⟨k, hk, -, -, -, hres⟩ := hc hr
  exact ⟨k, hk, hres⟩

/-- A GAUGE_REBASE that sets the count to 0 (MODE 0). -/
def rebaseItem : Item := newItem 7 0 0x43 0 1 0 (Vector.replicate 10 0) 0

/-- A run upward without nodes, which ends as soon as it is looked at; its verdict goes to ASEQ 7. -/
def emptyRun : Graph :=
  { nodes := [], onFail := false, boot := false, state := .runUp, active := 0, done := 0, failed := 0, unwinding := false,
    by_ := .none, item := some 7 }

/-- On the battery alone, at 16.0 V: the count is 1, and 0 begins DISPUTE. Graph slot 0 has a run whose item is the
GAUGE_REBASE at the head of the charger's queue. -/
def rebaseInRun : State :=
  { State.reset with
    den := { Den.reset with up := true }
    clk := { Clk.reset with rootRun := true }
    pwr := { Power.reset with stage := .started }
    chg := { Charger.reset with qacc := 1, batsns := 16000 }
    graphs := State.reset.graphs.set 0 (some emptyRun)
    eng := { State.reset.eng with items := [rebaseItem], line := [7] } }

/-- The state in which the GAUGE_REBASE has set the count and DISPUTE is judged. -/
def rebasedInRun : State := judgeGauge (disputeEnd (rebase 0 (takenUp rebaseItem rebaseInRun)))

theorem rebaseInRun_works : Works 0x43 7 rebaseItem rebaseInRun (takenUp rebaseItem rebaseInRun) := by
  refine ⟨⟨rfl, rfl, ?_, ?_⟩, rfl, ?_⟩ <;> decide +kernel

/-- DISPUTE is raised, with it every graph looks at its run, and the run that ends takes the item with it. -/
theorem rebasedInRun_gone : findItem rebasedInRun rebaseItem.aseq = none := by decide +kernel

/-- The answer that the item has then is the run's, without a count. -/
theorem rebasedInRun_answer : ∀ c ∈ rebasedInRun.eng.comps, c.result = 0 := by decide +kernel

/-- Refutes O44: the statement ranges over every state, one in which a graph's run names the GAUGE_REBASE as its item among
them (`rebaseInRun`). The raise of DISPUTE lets the run end, whose verdict answers the item with RESULT 0 before GAUGE_REBASE
can: no completion tells the old and the new count, 1 and 0. Each run that `startRun` begins has a SEQ_GRAPH_RUN for its item;
the hypothesis that says so is what the statement lacks. -/
theorem not_gaugeAndChargerAreSet : ¬ Obligations.GaugeAndChargerAreSet := by
  unfold Obligations.GaugeAndChargerAreSet
  intro h
  obtain ⟨-, -, hdone⟩ := (h 7 rebaseItem rebaseInRun _).1 rebaseInRun_works
  have hu : battless (takenUp rebaseItem rebaseInRun) = false := by decide +kernel
  have hmode : fld (opv rebaseItem 4) 1 0 = 0 := by decide +kernel
  have hf : Finishes _ _ rebaseItem _ _ _ rebasedInRun :=
    (hdone hu (.inl (by rw [hmode]; decide)) 0 (by rw [hmode]; exact (if_pos rfl).symm)).1
  obtain ⟨k, hk, hr⟩ := hf.result_of_gone rebasedInRun_gone (by decide)
  rw [rebasedInRun_answer k hk] at hr
  exact absurd hr (by decide +kernel)

/-! ### LEND_SET (R222, R223) -/

section
variable {a : Word} {it : Item} {s u : State} (h : Works 0x41 a it s u)
include h

theorem lendSet_holds (he : bit (opv it 4) 0 = true) (hh : held u 153 = true) : lendSet a s = complete a .refusedState 0x31 0 u :=
  (h.begins _).trans (if_pos (by rw [he, hh]; rfl))

theorem lendSet_refusesRange (hh : bit (opv it 4) 0 = false ∨ held u 153 = false) (hr : lendRange it = true) :
    lendSet a s = complete a .refusedLeash 0 0 u :=
  (h.begins _).trans ((if_neg (by rcases hh with e | e <;> simp [e])).trans (if_pos hr))

theorem lendSet_off (he : bit (opv it 4) 0 = false) (hr : lendRange it = false) : lendSet a s =
    complete a .done 0 0 (if u.chg.lend = .off then u else arbitrate (lendOff 1 (commitStart it u))) := by
  refine (h.begins _).trans ?_
  simp only [he, hr, Bool.false_and, Bool.false_eq_true, if_false, Bool.not_false, if_true]

section
variable (he : bit (opv it 4) 0 = true) (hh : held u 153 = false) (hr : lendRange it = false) (ht : hot u = false)
  (hv : vinBank u = false) (hb : battless u = false)
include he hh hr ht hv hb

/-- Switched on within its ranges, while neither heat nor a rail on VIN nor the lack of a battery is in the way. -/
theorem lendSet_on : lendSet a s =
    if u.chg.cutPend || socUse u < (fld (opv it 7) 7 0 * 10 : Nat) then complete a .refusedState 0x11 0 u
    else if latchedIn u 153 then complete a .refusedState 0x13 0 u
    else if u.chg.lend ≠ .off && lendMw it ≤ grantMw u .lend then
      lendServed a (lowerGrant .lend (lendTier u) (lendMw it) u)
    else itemAsks a (lendReq u a (lendMw it)) (lendServed a) u := by
  refine (h.begins _).trans ?_
  simp only [he, hh, hr, ht, hv, hb, Bool.and_false, Bool.false_eq_true, if_false, Bool.not_true]

theorem lendSet_cutoff (hc : u.chg.cutPend = true) : lendSet a s = complete a .refusedState 0x11 0 u :=
  (lendSet_on h he hh hr ht hv hb).trans (if_pos (by rw [hc, Bool.true_or]))

variable (hc : u.chg.cutPend = false) (hq : (fld (opv it 7) 7 0 * 10 : Nat) ≤ socUse u)
include hc hq

theorem lendSet_charged : lendSet a s =
    if latchedIn u 153 then complete a .refusedState 0x13 0 u
    else if u.chg.lend ≠ .off && lendMw it ≤ grantMw u .lend then
      lendServed a (lowerGrant .lend (lendTier u) (lendMw it) u)
    else itemAsks a (lendReq u a (lendMw it)) (lendServed a) u :=
  (lendSet_on h he hh hr ht hv hb).trans (if_neg (by rw [hc, decide_eq_false (Int.not_lt.2 hq)]; decide))

theorem lendSet_latched (hl : latchedIn u 153 = true) : lendSet a s = complete a .refusedState 0x13 0 u :=
  (lendSet_charged h he hh hr ht hv hb hc hq).trans (if_pos hl)

theorem lendSet_asks (hl : latchedIn u 153 = false) (hg : u.chg.lend = .off ∨ grantMw u .lend < lendMw it) :
    lendSet a s = itemAsks a (lendReq u a (lendMw it)) (lendServed a) u := by
  rw [lendSet_charged h he hh hr ht hv hb hc hq, hl, if_neg Bool.false_ne_true]
  exact if_neg (by rcases hg with hg | hg <;> simp [hg])

end

end

/-! ### LIFT_SET (R226) -/

theorem liftOffFree_off {s : State} (h : s.chg.lift = .off) : liftOffFree s = s := if_pos h

section
variable {a : Word} {it : Item} {s u : State} (h : Works 0x42 a it s u)
include h

theorem liftSet_holds (he : bit (opv it 4) 0 = true) (hh : held u 154 = true) : liftSet a s = complete a .refusedState 0x31 0 u :=
  (h.begins _).trans (if_pos (by rw [he, hh]; rfl))

theorem liftSet_refusesRange (hh : bit (opv it 4) 0 = false ∨ held u 154 = false) (hr : liftRange it = true) :
    liftSet a s = complete a .refusedLeash 0 0 u :=
  (h.begins _).trans ((if_neg (by rcases hh with e | e <;> simp [e])).trans (if_pos hr))

theorem liftSet_off (he : bit (opv it 4) 0 = false) (hr : liftRange it = false) : liftSet a s =
    complete a .done 0 0 (liftOffFree (if u.chg.lift = .off then u else commitStart it u)) := by
  refine (h.begins _).trans ?_
  simp only [he, hr, Bool.false_and, Bool.false_eq_true, if_false, Bool.not_false, if_true]

section
variable (he : bit (opv it 4) 0 = true) (hh : held u 154 = false) (hr : liftRange it = false) (ht : hot u = false)
include he hh hr ht

/-- Switched on within its ranges, without heat. -/
theorem liftSet_on : liftSet a s =
    if latchedIn u 154 then complete a .refusedState 0x13 0 u
    else if u.chg.lift ≠ .off && fld (opv it 7) 23 0 ≤ grantMw u .lift then
      liftServed a (lowerGrant .lift (liftTier u) (fld (opv it 7) 23 0) u)
    else itemAsks a (liftReq u a (fld (opv it 7) 23 0)) (liftServed a) u := by
  refine (h.begins _).trans ?_
  simp only [he, hh, hr, ht, Bool.and_false, Bool.false_eq_true, if_false, Bool.not_true]

theorem liftSet_latched (hl : latchedIn u 154 = true) : liftSet a s = complete a .refusedState 0x13 0 u :=
  (liftSet_on h he hh hr ht).trans (if_pos hl)

theorem liftSet_asks (hl : latchedIn u 154 = false) (hg : u.chg.lift = .off ∨ grantMw u .lift < fld (opv it 7) 23 0) :
    liftSet a s = itemAsks a (liftReq u a (fld (opv it 7) 23 0)) (liftServed a) u := by
  rw [liftSet_on h he hh hr ht, hl, if_neg Bool.false_ne_true]
  exact if_neg (by rcases hg with hg | hg <;> simp [hg])

end

end

/-! ### Lend and Lift on their way, and their ends (R223, R224, R226, R227) -/

theorem completeOpt_chg (a : Option Word) (v : Verdict) (d : Nat) (r : DWord) (s : State) : (completeOpt a v d r s).chg = s.chg :=
  (completeOpt_within (L := 0x20000fb90c3) a v d r (.refl _ s) (.of rfl)).keeps .chg rfl

section
variable {mv : Nat} {s : State}

theorem lendVinReached_closes (hs : s.chg.lend = .slewing) :
    (lendVinReached s).chg.lend = .closing ∧ (lendVinReached s).pwr.ptng = true := by
  unfold lendVinReached
  rw [if_neg (not_not.2 hs)]
  exact ⟨rfl, rfl⟩

theorem lendStartDone_runs (hs : s.chg.lend = .closing) : (lendStartDone mv s).chg.lend = .running := by
  unfold lendStartDone
  rw [if_neg (not_not.2 hs), completeOpt_chg]
  rfl

theorem lendStop_stops {c : LendCause} (hs : s.chg.lend ≠ .off) (hc : c ≠ .sub ∨ capLend s < grantMw s .lend) :
    lendStop c s = arbitrate (lendAbort (lendCode c) s) :=
  if_neg (by rcases hc with hc | hc <;> simp [hs, hc])

theorem lendShort_stops (hs : s.chg.lend = .running) (hm : mv < 8 * s.chg.vlend) :
    lendFault (.short mv) s = raiseEpisode 153 1 (lendStops 3 s) := if_pos (by simp [hs, hm])

theorem lendBackfeed_stops (hs : s.chg.lend ≠ .off) (hm : 10 * s.chg.vlend + 1000 < mv) :
    lendFault (.backfeed mv) s = raiseEpisode 153 2 (lendStops 4 s) := if_pos (by simp [hs, hm])

/-- Lend's stop leaves the faults, so that its own cause latches behind it. -/
theorem lendStops_episode {c d : Nat} (hb : s.pwr.burrowing = false) (hd : 1 ≤ d ∧ d ≤ 16)
    (he : inEpisode s 153 d = false) : Latched (raiseEpisode 153 d (lendStops c s)) 153 d :=
  (lendStops_within (L := 0x20ff0ffb0c7) c (.refl _ s) (.of rfl)).episode rfl (by decide) hd hb he

/-- So does Lift's abort. -/
theorem liftAbort_episode {c d : Nat} (hb : s.pwr.burrowing = false) (hd : 1 ≤ d ∧ d ≤ 16)
    (he : inEpisode s 154 d = false) : Latched (raiseEpisode 154 d (liftAbort c s)) 154 d :=
  (liftAbort_within (L := 0x20fa0ffb0c3) c (.refl _ s) (.of rfl)).episode rfl (by decide) hd hb he

theorem liftReached_far (hm : 3 * s.chg.vacc < ((mv : Int) - 100 * s.chg.vacc).natAbs) : liftReached mv s = s :=
  if_pos (by rw [decide_eq_true hm, Bool.or_true])

variable (hs : s.chg.lift ≠ .off)
include hs

theorem liftReached_runs (hm : ((mv : Int) - 100 * s.chg.vacc).natAbs ≤ 3 * s.chg.vacc) :
    (liftReached mv s).chg.lift = .running := by
  unfold liftReached
  rw [if_neg (by simp [hs, hm]), completeOpt_chg]
  rfl

theorem liftShort_stops : liftFault .short s = raiseEpisode 154 1 (liftAbort 1 s) := if_neg hs

theorem liftOv_stops (hm : 100 * s.chg.vacc + 2000 < mv) : liftFault (.ov mv) s = raiseEpisode 154 2 (liftAbort 2 s) :=
  (if_neg hs).trans (if_pos hm)

theorem liftUv_raises (hm : mv < 90 * s.chg.vacc) : liftFault (.uv mv) s = raiseOnce 154 3 s := (if_neg hs).trans (if_pos hm)

end

/-- Settles O45: LEND_SET and LIFT_SET by the order of their judgements, Lend and Lift by the states they go through, a fault
by the stop that goes before its raise (`lendStops_episode`, `liftAbort_episode`). -/
theorem lendAndLiftAct : Obligations.LendAndLiftAct := by
  unfold Obligations.LendAndLiftAct
  refine ⟨fun a it s u => ⟨fun h => ?_, fun h => ?_⟩, fun mv c s => ⟨fun hs => ?_, fun hs => ?_, fun hs hc => ?_,
    fun hb => ⟨fun hs hm he => ?_, fun hs hm he => ?_⟩, fun hs => ⟨fun hm => ?_, fun hm => ?_⟩,
    fun hs hb => ⟨fun he => ?_, fun hm he => ?_, fun hm hp => ?_⟩⟩⟩
  · refine ⟨fun he hr ho => ?_, fun he hr ho => ?_, fun he hh => ?_, fun hh hr => ?_,
      fun he hh hr ht hv hb => ⟨fun hc => ?_, fun hc hq => ⟨fun hl => ?_, fun hl hg => ?_⟩⟩⟩
    · exact h.finishes (congrArg Host.Outcome.next ((lendSet_off h he hr).trans (by rw [if_pos ho])))
    · exact congrArg Host.Outcome.next ((lendSet_off h he hr).trans (by rw [if_neg ho]))
    · exact h.finishes (congrArg Host.Outcome.next (lendSet_holds h he hh))
    · exact h.finishes (congrArg Host.Outcome.next (lendSet_refusesRange h hh hr))
    · exact h.finishes (congrArg Host.Outcome.next (lendSet_cutoff h he hh hr ht hv hb hc))
    · exact h.finishes (congrArg Host.Outcome.next (lendSet_latched h he hh hr ht hv hb hc hq hl))
    · exact h.asksBudget (congrArg Host.Outcome.next (lendSet_asks h he hh hr ht hv hb hc hq hl hg))
  · refine ⟨fun he hr ho => ?_, fun he hr ho => ?_, fun he hh => ?_, fun hh hr => ?_,
      fun he hh hr ht => ⟨fun hl => ?_, fun hl hg => ?_⟩⟩
    · exact h.finishes (congrArg Host.Outcome.next ((liftSet_off h he hr).trans (by rw [if_pos ho, liftOffFree_off ho])))
    · exact congrArg Host.Outcome.next ((liftSet_off h he hr).trans (by rw [if_neg ho]))
    · exact h.finishes (congrArg Host.Outcome.next (liftSet_holds h he hh))
    · exact h.finishes (congrArg Host.Outcome.next (liftSet_refusesRange h hh hr))
    · exact h.finishes (congrArg Host.Outcome.next (liftSet_latched h he hh hr ht hl))
    · exact h.asksBudget (congrArg Host.Outcome.next (liftSet_asks h he hh hr ht hl hg))
  · exact ⟨_, rfl, lendVinReached_closes hs⟩
  · exact ⟨_, rfl, lendStartDone_runs hs⟩
  · exact congrArg Host.Outcome.next (lendStop_stops hs hc)
  · exact ⟨_, congrArg Host.Outcome.next (lendShort_stops hs hm), lendStops_episode hb (by decide) he⟩
  · exact ⟨_, congrArg Host.Outcome.next (lendBackfeed_stops hs hm), lendStops_episode hb (by decide) he⟩
  · exact ⟨_, rfl, liftReached_runs hs hm⟩
  · exact congrArg Host.Outcome.next (liftReached_far hm)
  · exact ⟨_, congrArg Host.Outcome.next (liftShort_stops hs), liftAbort_episode hb (by decide) he⟩
  · exact ⟨_, congrArg Host.Outcome.next (liftOv_stops hs hm), liftAbort_episode hb (by decide) he⟩
  · exact ⟨_, congrArg Host.Outcome.next (liftUv_raises hs hm), raiseOnce_latched (by decide) (by decide) hb hp⟩

end Sys2Proof.Machine

/-! PROOFS. Relays and motors: the statements on spec/12. -/

namespace Sys2Proof.Machine

/-! ### Single relays and motors -/

section
variable {s t : State}

theorem modRelay_self {n : Fin 48} {x : Relay} (h : s.relays[n] = some x) (f : Relay → Relay) :
    (modRelay n f s).relays[n] = some (f x) := by
  have e : (modRelay n f s).relays[n] = s.relays[n].map f := by simp
  rw [e, h]
  rfl

theorem modMotor_self {m : Fin 2} {x : Motor} (h : s.motors[m] = some x) (f : Motor → Motor) :
    (modMotor m f s).motors[m] = some (f x) := by
  have e : (modMotor m f s).motors[m] = s.motors[m].map f := by simp
  rw [e, h]
  rfl

theorem setMotor_self (m : Fin 2) (x : Option Motor) (s : State) : (setMotor m x s).motors[m] = x := by simp

/-- Behind an operation that leaves the faults a cause latches. -/
theorem Within.raises {L n d : Nat} (w : Within L s t) (hL : L &&& 0x7fffffffffff ≠ 0x7fffffffffff) (hn : n < 186)
    (hd : 1 ≤ d ∧ d ≤ 16) (hb : s.pwr.burrowing = false) : Latched (raiseLatched n d t) n d :=
  raiseLatched_latched hn hd (w.quiet hb hL)

theorem fitCharger_relays : (fitCharger s).relays = s.relays := by
  unfold fitCharger
  split <;> rfl

theorem setBud_relay (n : Fin 48) (b : BudState) (s : State) :
    setBud (.relay n.val) b s = modRelay n (fun x => { x with bud := b }) s := by
  unfold setBud
  dsimp only
  rw [fin?_val]

/-- A relay whose request waits shows why. -/
theorem place_waits_relay {n : Fin 48} {x : Relay} {q : Req} {c : Nat} (hq : q.demand = .relay n.val)
    (hx : s.relays[n] = some x) : (place q (.waits c) s).relays[n] = some { x with bud := causeState c } := by
  unfold place
  rw [fitCharger_relays, hq, setBud_relay]
  exact modRelay_self (s := countReg 0x50A0 31 16 1 (addReq q s)) hx _

theorem isolated_of (hr : t.regs = s.regs) (hf : t.flt = s.flt) (n : Nat) : isolated t n = isolated s n := by
  unfold isolated faulted reactOf reg causesOf
  rw [hr, hf]

end

section
variable {a : Word} {it : Item} {s u : State} {q : Req} {k : State → State}

/-- An item that its request leaves waiting is found waiting. -/
theorem itemAsks_waiting {c : Nat} (h : findItem u a = some it) (hk : ask u q = .waits c) :
    itemAt (itemAsks a q k u) a (fun i => i.phase = .waiting) = true := by
  have hi := (findItem_of_items (place_items (q := q) (.waits c)) a).trans h
  obtain ⟨kt, hkt, hp⟩ := interim_phase (n := c) (d := expectedDelay (place q (.waits c) u) q)
    (modItem_findItem (f := fun i => { i with phase := .waiting }) hi fun _ => rfl)
  rw [itemAsks_waits hk, itemAt_of_find hkt, hp]
  rfl

/-- An item whose request is answered at once waits no longer, where what serves it leaves it at work. -/
theorem itemAsks_answered (h : findItem u a = some it) (hk : ∀ c, ask u q ≠ .waits c)
    (hs : ask u q = .served → itemAt (k (place q .served u)) a (fun i => i.phase = .waiting) = false) :
    itemAt (itemAsks a q k u) a (fun i => i.phase = .waiting) = false := by
  cases e : ask u q with
  | refused n =>
    have hi := (findItem_of_items (place_items (q := q) (.refused n)) a).trans h
    rw [itemAsks_refused e]
    exact itemAt_gone ((congrArg _ (findItem_aseq hi).symm).trans
      (complete_answers hi .refusedBudget 0x10 (BitVec.ofNat 64 n)).1)
  | served =>
    rw [itemAsks_served e]
    exact hs e
  | waits c => exact absurd e (hk c)

/-- The item is at work behind its START. -/
theorem commitStart_works {jt : Item} (h : findItem s a = some it) (ej : jt.aseq = a) :
    ∃ kt, findItem (commitStart jt (modItem a (fun i => { i with phase := .working }) s)) a = some kt ∧ kt.phase = .working :=
  commitStart_phase (modItem_findItem (f := fun i => { i with phase := .working }) h fun _ => rfl) ej

end

/-! ### RELAY_SET (R233) -/

section
variable {a : Word} {it : Item} {n : Fin 48} {s : State}

theorem relayPulse_items (h : isolated s (96 + n.val) = false) : (relayPulse n s).eng.items = s.eng.items := by
  unfold relayPulse
  rw [h]
  rfl

/-- Under ISOLATE the attempt counts as CUT (R352). -/
theorem relayPulse_cut (h : isolated s (96 + n.val) = true) (hb : s.pwr.burrowing = false) :
    Latched (relayPulse n s) (96 + n.val) 4 := by
  have w : Within 0x22fa8ffb0c3 s (relayCut n (modRelay n (fun x => { x with state := .pulsing, pos := .unknown }) s)) :=
    relayCut_within n (modRelay_within n _ (.refl _ s) (.of rfl)) (.of rfl)
  have hq := w.quiet hb (by decide)
  unfold relayPulse
  rw [h, if_pos rfl]
  exact settle_latched (raiseAs_quiet false hq) (raiseLatched_latched (by omega) (by decide) hq)

/-- What the slot brings about for an item: its START, what the relay keeps of it, and the pulse. -/
theorem relayServed_pulses (h : findItem s a = some it) (n : Fin 48) : ∃ f, relayServed a n s =
    relayPulse n (modRelay n f (commitStart it (modItem a (fun i => { i with phase := .working }) s))) := by
  unfold relayServed
  rw [h]
  exact ⟨_, rfl⟩

theorem started_within (it : Item) (a : Word) (s : State) :
    Within 0xc18040 s (commitStart it (modItem a (fun i => { i with phase := .working }) s)) :=
  commitStart_within it (modItem_within a _ (.refl _ s) (.of rfl)) (.of rfl)

theorem started_isolated (it : Item) (a : Word) (s : State) (n : Nat) :
    isolated (commitStart it (modItem a (fun i => { i with phase := .working }) s)) n = isolated s n :=
  isolated_of ((started_within it a s).keeps .regs rfl) ((started_within it a s).keeps .flt rfl) n

theorem relayServed_works (h : findItem s a = some it) (hi : isolated s (96 + n.val) = false) :
    itemAt (relayServed a n s) a (fun i => i.phase = .waiting) = false := by
  obtain ⟨f, e⟩ := relayServed_pulses h n
  obtain ⟨kt, hk, hp⟩ := commitStart_works h (findItem_aseq h)
  have hq := (findItem_of_items (relayPulse_items (s := modRelay n f _) ((started_isolated it a s _).trans hi)) a).trans hk
  rw [e, itemAt_of_find hq, hp]
  rfl

theorem relayServed_cut (h : findItem s a = some it) (hi : isolated s (96 + n.val) = true) (hb : s.pwr.burrowing = false) :
    Latched (relayServed a n s) (96 + n.val) 4 := by
  obtain ⟨f, e⟩ := relayServed_pulses h n
  rw [e]
  exact relayPulse_cut ((started_isolated it a s _).trans hi) ((started_within it a s).quiet hb (by decide))

end

/-- The relay of an item whose request waits shows so. -/
def relayShows (a : Word) (n : Fin 48) (s : State) : State :=
  if itemAt s a (fun i => i.phase = .waiting) then modRelay n (fun y => { y with state := .waiting }) s else s

theorem relayShows_stands {a : Word} {n : Fin 48} {s : State} (h : itemAt s a (fun i => i.phase = .waiting) = false) :
    relayShows a n s = s := if_neg (by rw [h]; decide)

theorem relayShows_latched {a : Word} {n : Fin 48} {s : State} {k d : Nat} (h : Latched s k d) :
    Latched (relayShows a n s) k d := by
  unfold relayShows
  split <;> exact h

section
variable {a : Word} {it : Item} {n : Fin 48} {x : Relay} {s u : State} (h : Works 0x20 a it s u)
  (hf : relayBusy s it.handle = false) (hn : hSlot it.handle = n.val) (hx : u.relays[n] = some x)
  {dir : Bool} {pw : Nat} (hd : dir = bit (opv it 4) 0) (hp : pw = fld (opv it 4) 23 16)
include h hf hn hx hd hp

theorem relaySet_judges : relaySet a s =
    if held u (96 + n.val) then complete a .refusedState 0x31 0 u
    else if !pwOk pw then complete a .refusedFormat 7 0 u
    else if x.state = .faulted then complete a .refusedState 0x17 0 u
    else if hot u then complete a .refusedState 0x30 0 u
    else if x.target = some dir && x.confirmed && !bit (opv it 4) 8 then
      complete a .done 0x10 0 (commitRelay n (modRelay n (fun y => { y with targetAseq := a }) u))
    else relayShows a n (itemAsks a (relayReq u n x (.item a) a (pulseWidth x dir pw)) (relayServed a n) u) := by
  subst hd hp
  unfold relaySet
  rw [itemAt_of_find h.1.1, hf, if_neg Bool.false_ne_true, h.begins, hn, fin?_val]
  dsimp only
  rw [hx]
  rfl

variable (hh : held u (96 + n.val) = false)
include hh

theorem relaySet_refusesWidth (hw : pwOk pw = false) : relaySet a s = complete a .refusedFormat 7 0 u := by
  rw [relaySet_judges h hf hn hx hd hp, hh, hw]
  rfl

variable (hw : pwOk pw = true)
include hw

theorem relaySet_refusesFaulted (hs : x.state = .faulted) : relaySet a s = complete a .refusedState 0x17 0 u := by
  rw [relaySet_judges h hf hn hx hd hp, hh, hw, if_pos hs]
  rfl

variable (hs : x.state ≠ .faulted)
include hs

theorem relaySet_refusesHeat (ht : hot u = true) : relaySet a s = complete a .refusedState 0x30 0 u := by
  rw [relaySet_judges h hf hn hx hd hp, hh, hw, if_neg hs, ht]
  rfl

variable (ht : hot u = false)
include ht

theorem relaySet_stands (h1 : x.target = some dir) (h2 : x.confirmed = true) (h3 : bit (opv it 4) 8 = false) :
    relaySet a s = complete a .done 0x10 0 (commitRelay n (modRelay n (fun y => { y with targetAseq := a }) u)) := by
  rw [relaySet_judges h hf hn hx hd hp, hh, hw, if_neg hs, ht, decide_eq_true h1, h2, h3]
  rfl

theorem relaySet_asks (hc : x.target ≠ some dir ∨ x.confirmed = false ∨ bit (opv it 4) 8 = true) {q : Req}
    (hq : q = relayReq u n x (.item a) a (pulseWidth x dir pw)) :
    relaySet a s = relayShows a n (itemAsks a q (relayServed a n) u) := by
  have e : (decide (x.target = some dir) && x.confirmed && !bit (opv it 4) 8) = false := by
    rcases hc with hc | hc | hc <;> simp [hc]
  rw [relaySet_judges h hf hn hx hd hp, hh, hw, if_neg hs, ht, e, hq]
  rfl

end

/-! ### The end of a pulse (R233 to R236) -/

/-- A cause that a pulse's end raises latches. -/
theorem relayEnd_raises {d : Nat} (n : Fin 48) (code landing peak : Nat) (hd : 1 ≤ d ∧ d ≤ 16) (s : State)
    (hb : s.pwr.burrowing = false) :
    Latched (raiseLatched (96 + n.val) d (relayEnd n code landing peak (drawNat s).2)) (96 + n.val) d :=
  (relayEnd_within (L := 0x22fa8ffb0c3) n code landing peak (drawNat_within (.refl _ s)) (.of rfl)).raises (by decide)
    (by omega) hd hb

section
variable {n : Fin 48} {x : Relay} {e : Dip} {dip : Option Dip} {peak : Nat} {s : State} (hx : s.relays[n] = some x)
include hx

section
variable (hs : x.state = .pulsing)
include hs

theorem relayPulseEnd_confirms (h1 : dipMin x ≤ e.depth) (h2 : twinMin x ≤ e.ms) (h3 : e.ms ≤ twinMax x x.width) :
    relayPulseEnd n (some e) peak s = relayEnd n 0 e.ms peak (relayConfirm n s) := by
  have hl : lands x e = true := by simp [lands, h1, h2, h3]
  unfold relayPulseEnd
  rw [hx]
  simp only [hs, ne_eq, not_true_eq_false, if_false, Option.filter_some, hl, if_true]

/-- Without a landing a relay that is held is confirmed all the same, and any other has not moved. -/
theorem relayPulseEnd_misses (hl : dip.filter (lands x) = none) : relayPulseEnd n dip peak s =
    if x.held then relayEnd n 1 (drawNat s).1 peak (relayConfirm n (drawNat s).2)
    else raiseLatched (96 + n.val) 3 (relayEnd n 2 (drawNat s).1 peak (drawNat s).2) := by
  unfold relayPulseEnd
  rw [hx]
  dsimp only
  rw [if_neg (not_not_intro hs), hl]

theorem relayPulseAbort_raises (why : PulseAbort) : relayPulseAbort n why peak s = match why with
    | .coilShort => raiseLatched (96 + n.val) 2 (relayEnd n 4 (drawNat s).1 peak (drawNat s).2)
    | .coilOpen => raiseLatched (96 + n.val) 1 (relayEnd n 3 (drawNat s).1 peak (drawNat s).2)
    | .bankUv => raiseLatched (96 + n.val) 4 (relayEnd n 5 (drawNat s).1 peak (drawNat s).2) := by
  unfold relayPulseAbort
  rw [hx]
  exact if_neg (not_not_intro hs)

end

section
variable (hs : x.state = .retryGap) {q : Req} (hq : q = relayReq s n x (.retry n.val) (x.item.getD (nextAseq s)) x.width)
include hs hq

theorem relayRetry_refused {k : Nat} (hk : ask s q = .refused k) :
    relayRetry n s = relayVerdict n .idle (place q (.refused k) s) := by
  unfold relayRetry
  rw [hx]
  dsimp only
  rw [if_neg (not_not_intro hs), ← hq, hk]

theorem relayRetry_served (hk : ask s q = .served) : relayRetry n s = relayPulse n (place q .served s) := by
  unfold relayRetry
  rw [hx]
  dsimp only
  rw [if_neg (not_not_intro hs), ← hq, hk]

/-- The relay of a retry that waits shows so, whether or not an item learns of it. -/
theorem relayRetry_waits {c : Nat} (hk : ask s q = .waits c) :
    ∃ y, (relayRetry n s).relays[n] = some y ∧ y.state = .waiting := by
  have hd : q.demand = .relay n.val := by rw [hq]; rfl
  have hw := modRelay_self (place_waits_relay hd hx (c := c)) (fun y => { y with state := .waiting })
  have he : ∀ a d t, (interim a c d t).relays = t.relays := fun a d t =>
    (interim_within (L := 0x20000039083) a c d (.refl _ t) (.of rfl)).keeps .relays rfl
  unfold relayRetry
  rw [hx]
  dsimp only
  rw [if_neg (not_not_intro hs), ← hq, hk]
  dsimp only
  cases x.item with
  | none => exact ⟨_, hw, rfl⟩
  | some a => exact ⟨_, (congrArg (·[n]) (he _ _ _)).trans hw, rfl⟩

end

end

/-- Settles O46: RELAY_SET by the order of its judgements (`relaySet_judges`), what waits and what is served by what the item
is found in then, a pulse by its landing (`relayPulseEnd_confirms`, `relayPulseEnd_misses`), a retry by the budget's answer. -/
theorem relaysPulse : Obligations.RelaysPulse := by
  unfold Obligations.RelaysPulse
  refine ⟨fun a it n x s u h hf hn hx dir pw hd hp => ⟨fun hh => ?_, fun hh => ⟨fun hw => ?_, fun hw hs => ?_,
    fun hw hs ht => ?_, fun hw hs ht => ⟨fun h1 h2 h3 => ?_, fun hc q hq => ?_⟩⟩⟩,
    fun n x e dip peak s hx => ⟨fun hs => ⟨fun h1 h2 h3 => ?_, fun hl hn => ?_,
      fun hb => ⟨fun hl hn => ?_, ?_, ?_, ?_⟩⟩, fun hs q hq => ⟨fun k hk => ?_, fun hk => ?_, fun c hk => ?_⟩⟩⟩
  · exact h.finishes (congrArg Host.Outcome.next ((relaySet_judges h hf hn hx hd hp).trans (if_pos hh)))
  · exact h.finishes (congrArg Host.Outcome.next (relaySet_refusesWidth h hf hn hx hd hp hh hw))
  · exact h.finishes (congrArg Host.Outcome.next (relaySet_refusesFaulted h hf hn hx hd hp hh hw hs))
  · exact h.finishes (congrArg Host.Outcome.next (relaySet_refusesHeat h hf hn hx hd hp hh hw hs ht))
  · exact congrArg Host.Outcome.next (relaySet_stands h hf hn hx hd hp hh hw hs ht h1 h2 h3)
  · have asks : exec (.relaySet a) s = .next (relayShows a n (itemAsks a q (relayServed a n) u)) :=
      congrArg Host.Outcome.next (relaySet_asks h hf hn hx hd hp hh hw hs ht hc hq)
    have hi : ∀ k, findItem (place q k u) a = some (workItem it s) := fun k =>
      (findItem_of_items (place_items k) a).trans h.item
    refine ⟨fun k hk => ⟨_, asks, ?_⟩, fun c hk => ?_, fun hk hi0 => ?_, fun hk hi1 hb => ⟨_, asks, ?_⟩⟩
    · rw [relayShows_stands (itemAsks_answered h.item (by simp [hk]) (by simp [hk])), itemAsks_refused hk]
      exact h.answers (hi _) rfl _ _ _
    · exact asks.trans (congrArg Host.Outcome.next (if_pos (itemAsks_waiting h.item hk)))
    · refine asks.trans (congrArg Host.Outcome.next ?_)
      rw [itemAsks_served hk]
      exact relayShows_stands (relayServed_works (hi _) hi0)
    · rw [itemAsks_served hk]
      have hq : (place q .served u).pwr.burrowing = false :=
        (place_within (L := 0xfa0000002) q .served (.refl _ u) (.of rfl)).quiet hb (by decide)
      exact relayShows_latched (relayServed_cut (hi _) hi1 hq)
  · exact congrArg Host.Outcome.next (relayPulseEnd_confirms hx hs h1 h2 h3)
  · exact ⟨_, congrArg Host.Outcome.next ((relayPulseEnd_misses hx hs hn).trans (if_pos hl)), _, _, rfl⟩
  · exact ⟨_, congrArg Host.Outcome.next ((relayPulseEnd_misses hx hs hn).trans (if_neg (by rw [hl]; decide))),
      relayEnd_raises n _ _ _ (by decide) s hb⟩
  · exact ⟨_, congrArg Host.Outcome.next (relayPulseAbort_raises hx hs .coilOpen), relayEnd_raises n _ _ _ (by decide) s hb⟩
  · exact ⟨_, congrArg Host.Outcome.next (relayPulseAbort_raises hx hs .coilShort), relayEnd_raises n _ _ _ (by decide) s hb⟩
  · exact ⟨_, congrArg Host.Outcome.next (relayPulseAbort_raises hx hs .bankUv), relayEnd_raises n _ _ _ (by decide) s hb⟩
  · exact congrArg Host.Outcome.next (relayRetry_refused hx hs hq hk)
  · exact congrArg Host.Outcome.next (relayRetry_served hx hs hq hk)
  · exact ⟨_, rfl, relayRetry_waits hx hs hq hk⟩

end Sys2Proof.Machine

namespace Sys2Proof.Machine

/-! ### What the budget shows of a motor channel -/

/-- Channel `m` is as `x` describes it, whatever BUDGET_STATE it shows. -/
def MotorIs (m : Fin 2) (x : Motor) (s : State) : Prop := ∃ b, s.motors[m] = some { x with bud := b }

section
variable {m : Fin 2} {x : Motor} {s t : State}

theorem MotorIs.of (h : s.motors[m] = some x) : MotorIs m x s := ⟨x.bud, h⟩

/-- An operation that leaves the motors. -/
theorem MotorIs.keep {L : Nat} (w : Within L s t) (hL : L.testBit 34 = false) (h : MotorIs m x s) : MotorIs m x t :=
  h.imp fun _ e => (congrArg (·[m]) (w.keeps .motors hL)).trans e

theorem MotorIs.modMotor {f : Motor → Motor} (h : MotorIs m x s) (hf : ∀ b, f { x with bud := b } = { f x with bud := b }) :
    MotorIs m (f x) (modMotor m f s) :=
  h.imp fun b e => (modMotor_self e f).trans (congrArg some (hf b))

/-- BUDGET_STATE is a field of one object: of the motors at most one channel changes, and in it nothing else. -/
theorem setBud_motors (d : Demand) (b : BudState) (s : State) : (setBud d b s).motors = s.motors ∨
    ∃ k, (setBud d b s).motors = (modMotor k (fun x => { x with bud := b }) s).motors := by
  cases d with
  | motor k =>
    unfold setBud
    dsimp only
    split
    · exact .inr ⟨_, rfl⟩
    · exact .inl rfl
  | rail k | relay k | fan k =>
    unfold setBud
    dsimp only
    split <;> exact .inl rfl
  | charger | lend | lift => exact .inl rfl

theorem MotorIs.setBud (d : Demand) (b : BudState) (h : MotorIs m x s) : MotorIs m x (setBud d b s) := by
  obtain ⟨b', h⟩ := h
  obtain e | ⟨k, e⟩ := setBud_motors d b s
  · exact ⟨b', (congrArg (·[m]) e).trans h⟩
  · by_cases hk : k = m
    · subst hk
      exact ⟨b, (congrArg (·[k]) e).trans (modMotor_self h _)⟩
    · exact ⟨b', (congrArg (·[m]) e).trans ((upd_ne _ _ hk).trans h)⟩

theorem fitCharger_motors : (fitCharger s).motors = s.motors := by
  unfold fitCharger
  split <;> rfl

theorem MotorIs.release (d : Demand) (h : MotorIs m x s) : MotorIs m x (release d s) :=
  (MotorIs.setBud d _ (s := modBud _ s) h).imp fun _ e => (congrArg (·[m]) fitCharger_motors).trans e

theorem MotorIs.budAfter (d : Demand) (h : MotorIs m x s) : MotorIs m x (budAfter d s) := by
  unfold Machine.budAfter
  split
  · exact h
  · exact h.setBud _ _

theorem MotorIs.withdrawThose (p : Req → Bool) (h : MotorIs m x s) : MotorIs m x (withdrawThose p s) := by
  have kept : ∀ (l : List Req) (t : State), MotorIs m x t →
      MotorIs m x (l.foldl (fun t q => Machine.budAfter q.demand t) t) := by
    intro l
    induction l with
    | nil => exact fun _ ht => ht
    | cons q l ih => exact fun t ht => ih _ (ht.budAfter _)
  exact kept _ (modBud _ s) h

theorem MotorIs.withdrawDemand (d : Demand) (h : MotorIs m x s) : MotorIs m x (withdrawDemand d s) := h.withdrawThose _

/-- What the channel shows beside its BUDGET_STATE. -/
theorem MotorIs.shows {P : Motor → Prop} (h : MotorIs m x s) (hp : ∀ b, P { x with bud := b }) :
    ∃ y, s.motors[m] = some y ∧ P y := h.elim fun b e => ⟨_, e, hp b⟩

/-- A stop leaves the channel in its place. -/
theorem motorStopNow_motor (coast : Bool) (h : s.motors[m] = some x) :
    ∃ y, (motorStopNow m coast s).motors[m] = some y := by
  have there : ∀ {y t}, MotorIs m y t → ∃ z, t.motors[m] = some z := fun ⟨_, e⟩ => ⟨_, e⟩
  unfold motorStopNow
  rw [h]
  dsimp -zeta only
  extract_lets s1 stopping s2 s3
  have h1 : MotorIs m x s1 := (MotorIs.of h).withdrawDemand _
  have h3 := (h1.modMotor (f := fun y => { y with
    posValid := y.posValid && !loses x, homed := y.homed && !loses x, item := if stopping then y.item else none })
    fun _ => rfl).release (.motor m.val)
  split
  · split
    · exact there (h3.modMotor fun _ => rfl)
    · split
      · exact there h3
      · exact there (h3.modMotor fun _ => rfl)
  · split
    · exact there ((h1.modMotor fun _ => rfl).release _)
    · exact there h1

end

theorem commitStart_motors (it : Item) (s : State) : (commitStart it s).motors = s.motors :=
  (commitStart_within (L := 0xc18040) it (.refl _ s) (.of rfl)).keeps .motors rfl

theorem motorStopNow_items (m : Fin 2) (coast : Bool) (s : State) : (motorStopNow m coast s).eng.items = s.eng.items :=
  (motorStopNow_within (L := 0xfa0000000) m coast (.refl _ s) (.of rfl)).keeps .items rfl

/-! ### Items on a motor channel (R239, R243, R245, R246) -/

/-- The drive that the budget has served: behind the item's START the channel alone changes. -/
theorem motorServed_drives {a : Word} {it : Item} {s : State} (h : findItem s a = some it) (m : Fin 2) :
    ∃ f, motorServed a m s = modMotor m f (commitStart it (modItem a (fun i => { i with phase := .working }) s)) := by
  unfold motorServed
  rw [h]
  dsimp only
  split <;> exact ⟨_, rfl⟩

theorem motorServed_works {a : Word} {it : Item} {m : Fin 2} {s : State} (h : findItem s a = some it) :
    itemAt (motorServed a m s) a (fun i => i.phase = .waiting) = false := by
  obtain ⟨f, e⟩ := motorServed_drives h m
  obtain ⟨kt, hk, hp⟩ := commitStart_works h (findItem_aseq h)
  have hq : findItem (modMotor m f _) a = some kt := hk
  rw [e, itemAt_of_find hq, hp]
  rfl

section
variable {op : Nat} {a : Word} {it : Item} {m : Fin 2} {x : Motor} {s u : State}

theorem motorAsks_answers (h : Works op a it s u) {q : Req} (hq : q = motorReq u m x a) (hk : ∀ c, ask u q ≠ .waits c) :
    motorAsks a m x u = itemAsks a q (motorServed a m) u := by
  subst hq
  refine if_neg ?_
  rw [itemAsks_answered h.item hk fun _ => motorServed_works ((findItem_of_items (place_items _) a).trans h.item)]
  decide

theorem motorAsks_waits (h : Works op a it s u) {q : Req} (hq : q = motorReq u m x a) {c : Nat} (hk : ask u q = .waits c) :
    motorAsks a m x u =
      modMotor m (fun y => { y with state := .pending, item := some a }) (itemAsks a q (motorServed a m) u) := by
  subst hq
  exact if_pos (itemAsks_waiting h.item hk)

variable (hm : hSlot it.handle = m.val)
  (hx : u.motors[m] = some x)
include hm hx

theorem Works.onMotor (h : Works op a it s u) (k : Item → Fin 2 → Motor → State → State) :
    onMotor op a k s = k it m x u := by
  refine (h.begins _).trans ?_
  rw [hm, fin?_val]
  dsimp only
  rw [hx]

/-! #### MOTOR_HOME -/

section
variable (h : Works 0x21 a it s u) (hb : motorBraking s it.handle = false)
include h hb

theorem motorHome_judges : motorHome a s =
    if held u (144 + m.val) then complete a .refusedState 0x31 0 u
    else if x.state = .faulted then complete a .refusedState 0x17 0 u
    else if hot u then complete a .refusedState 0x30 0 u
    else motorAsks a m x u := by
  unfold motorHome
  rw [itemAt_of_find h.1.1, hb, if_neg Bool.false_ne_true, h.onMotor hm hx]
  rfl

theorem motorHome_asks (hh : held u (144 + m.val) = false) (hs : x.state ≠ .faulted) (ht : hot u = false) :
    motorHome a s = motorAsks a m x u := by
  rw [motorHome_judges hm hx h hb, hh, if_neg hs, ht]
  rfl

end

/-! #### MOTOR_MOVE -/

section
variable (h : Works 0x22 a it s u) (hb : motorBraking s it.handle = false)
include h hb

theorem motorMove_judges : motorMove a s =
    if held u (144 + m.val) then complete a .refusedState 0x31 0 u
    else if !inOr0 (fld (opv it 5) 7 0) 5 100 then complete a .refusedFormat 7 0 u
    else if it.redriven && !x.posValid then complete a .failed 0x1F 0 u
    else if !x.posValid then complete a .refusedState 0x11 0 u
    else if !motEnc x then complete a .refusedState 0x12 0 u
    else if x.state = .faulted then complete a .refusedState 0x17 0 u
    else if hot u then complete a .refusedState 0x30 0 u
    else motorAsks a m x u := by
  unfold motorMove
  rw [itemAt_of_find h.1.1, hb, if_neg Bool.false_ne_true, h.onMotor hm hx]
  rfl

variable (hh : held u (144 + m.val) = false)
include hh

theorem motorMove_refusesDuty (hd : inOr0 (fld (opv it 5) 7 0) 5 100 = false) :
    motorMove a s = complete a .refusedFormat 7 0 u := by
  rw [motorMove_judges hm hx h hb, hh, hd]
  rfl

variable (hd : inOr0 (fld (opv it 5) 7 0) 5 100 = true)
include hd

theorem motorMove_lost (hp : x.posValid = false) : motorMove a s =
    if it.redriven then complete a .failed 0x1F 0 u else complete a .refusedState 0x11 0 u := by
  rw [motorMove_judges hm hx h hb, hh, hd, hp]
  simp

variable (hp : x.posValid = true)
include hp

theorem motorMove_known : motorMove a s =
    if !motEnc x then complete a .refusedState 0x12 0 u
    else if x.state = .faulted then complete a .refusedState 0x17 0 u
    else if hot u then complete a .refusedState 0x30 0 u
    else motorAsks a m x u := by
  rw [motorMove_judges hm hx h hb, hh, hd, hp]
  simp

theorem motorMove_refusesBlind (he : motEnc x = false) : motorMove a s = complete a .refusedState 0x12 0 u := by
  rw [motorMove_known hm hx h hb hh hd hp, he]
  rfl

theorem motorMove_refusesFaulted (he : motEnc x = true) (hs : x.state = .faulted) :
    motorMove a s = complete a .refusedState 0x17 0 u := by
  rw [motorMove_known hm hx h hb hh hd hp, he, if_pos hs]
  rfl

theorem motorMove_sound (he : motEnc x = true) (hs : x.state ≠ .faulted) : motorMove a s =
    if hot u then complete a .refusedState 0x30 0 u else motorAsks a m x u := by
  rw [motorMove_known hm hx h hb hh hd hp, he, if_neg hs]
  rfl

end

/-! #### MOTOR_STOP -/

section
variable (h : Works 0x23 a it s u)
include h

/-- The channel that drives or brakes is let coast: the item is DONE at once, with a position that is free. -/
theorem motorStop_coasts (hs : motorDrives x = true ∨ x.state = .braking) (hc : bit (opv it 4) 0 = true) :
    ∃ r, Answered it .done 0 r (motorStop a s) := by
  obtain ⟨kt, hk, hr, -, -⟩ := commitStart_findItem h.item (findItem_aseq h.1.1)
  obtain ⟨y, hy⟩ := motorStopNow_motor true ((congrArg (·[m]) (commitStart_motors it u)).trans hx)
  have hz := modMotor_self (s := (drawWord (motorStopNow m true (commitStart it u))).2) hy
    (fun y => { y with pos := if y.posValid then (drawWord (motorStopNow m true (commitStart it u))).1.toInt else y.pos })
  unfold motorStop
  rw [h.onMotor hm hx, if_pos (by simpa using hs), hc, if_pos rfl]
  dsimp only
  rw [hz]
  dsimp only
  have hi := (findItem_of_items (motorStopNow_items m true (commitStart it u)) a).trans hk
  exact ⟨_, h.answers (t := modMotor m _ (drawWord _).2) hi hr _ _ _⟩

theorem motorStop_brakes (hs : motorDrives x = true ∨ x.state = .braking) (hc : bit (opv it 4) 0 = false) :
    motorStop a s = modMotor m (fun y => { y with item := some a }) (motorStopNow m false (commitStart it u)) := by
  unfold motorStop
  rw [h.onMotor hm hx, if_pos (by simpa using hs), hc]
  rfl

theorem motorStop_rests (hd : motorDrives x = false) (hs : x.state ≠ .braking) : motorStop a s =
    complete a .done 0 (posResult x) (motorStopNow m (bit (opv it 4) 0) (commitStart it u)) := by
  unfold motorStop
  rw [h.onMotor hm hx, if_neg (by simp [hd, hs])]

end

end

/-- Settles O47: HOME and MOVE by the order of their judgements and by the budget's answer (`motorAsks_answers`,
`motorAsks_waits`), STOP by whether the channel moves. -/
theorem motorItemsAnswer : Obligations.MotorItemsAnswer := by
  unfold Obligations.MotorItemsAnswer
  refine fun a it m x s u hm hx q hq => ⟨fun h hb => ⟨fun hh => ?_, fun hh hs => ?_, fun hh hs ht => ?_,
    fun hh hs ht => ?_⟩, fun h hb => ⟨fun hh => ?_, fun hh => ⟨fun hd => ?_, fun hd hp hr => ?_, fun hd hp hr => ?_,
    fun hd hp => ⟨fun he => ?_, fun he hs => ?_, fun he hs ht => ?_, fun he hs ht => ?_⟩⟩⟩,
    fun h => ⟨fun hs => ⟨fun hc => ⟨_, rfl, ?_⟩, fun hc => ?_⟩, fun hd hs => ?_⟩⟩
  · exact h.finishes (congrArg Host.Outcome.next ((motorHome_judges hm hx h hb).trans (if_pos hh)))
  · refine h.finishes (congrArg Host.Outcome.next ((motorHome_judges hm hx h hb).trans ?_))
    rw [hh, if_pos hs]
    rfl
  · refine h.finishes (congrArg Host.Outcome.next ((motorHome_judges hm hx h hb).trans ?_))
    rw [hh, if_neg hs, ht]
    rfl
  · have asks := motorHome_asks hm hx h hb hh hs ht
    exact ⟨fun hk => h.asksBudget (congrArg Host.Outcome.next (asks.trans (motorAsks_answers h hq hk))),
      fun c hk => congrArg Host.Outcome.next (asks.trans (motorAsks_waits h hq hk))⟩
  · exact h.finishes (congrArg Host.Outcome.next ((motorMove_judges hm hx h hb).trans (if_pos hh)))
  · exact h.finishes (congrArg Host.Outcome.next (motorMove_refusesDuty hm hx h hb hh hd))
  · exact h.finishes (congrArg Host.Outcome.next ((motorMove_lost hm hx h hb hh hd hp).trans (if_pos hr)))
  · exact h.finishes (congrArg Host.Outcome.next ((motorMove_lost hm hx h hb hh hd hp).trans (if_neg (by rw [hr]; decide))))
  · exact h.finishes (congrArg Host.Outcome.next (motorMove_refusesBlind hm hx h hb hh hd hp he))
  · exact h.finishes (congrArg Host.Outcome.next (motorMove_refusesFaulted hm hx h hb hh hd hp he hs))
  · exact h.finishes (congrArg Host.Outcome.next ((motorMove_sound hm hx h hb hh hd hp he hs).trans (if_pos ht)))
  · have asks := (motorMove_sound hm hx h hb hh hd hp he hs).trans (if_neg (by rw [ht]; decide))
    exact ⟨fun hk => h.asksBudget (congrArg Host.Outcome.next (asks.trans (motorAsks_answers h hq hk))),
      fun c hk => congrArg Host.Outcome.next (asks.trans (motorAsks_waits h hq hk))⟩
  · exact motorStop_coasts hm hx h hs hc
  · exact congrArg Host.Outcome.next (motorStop_brakes hm hx h hs hc)
  · have f := h.finishesStarted (c := .motorStop a) (motorStopNow_items m _ _)
      (congrArg Host.Outcome.next (motorStop_rests hm hx h hd hs))
    rwa [Finishes, findItem_aseq h.1.1] at f

end Sys2Proof.Machine

namespace Sys2Proof.Machine

/-! ### A limit's level outlasts what a raise brings about (R241, R243, R350)

Chatter comes before the trip of a limit whose level has changed, and its raise may stop channels, shed tiers and end the
runs of graphs, the last of a shutdown toward BURROW among them. None of that touches the level that HOME of a channel is
known to have; where the Den domain falls there is no channel any more. -/

/-- HOME of channel `m` is known at level `v`, where there is such a channel. -/
def HomeAt (m : Fin 2) (v : Bool) (s : State) : Prop := ∀ x, s.motors[m] = some x → x.homeActive = v

/-- Every part but the motors. -/
def stillParts : Nat := 0x7ffbffffffff

section
variable {m : Fin 2} {v : Bool} {s t : State}

theorem HomeAt.of_motors (e : t.motors = s.motors) (h : HomeAt m v s) : HomeAt m v t := by
  unfold HomeAt
  rw [e]
  exact h

/-- An operation whose lemma of the layer `Within` does not name the motors. -/
theorem HomeAt.keep {A : Nat} (w : Within stillParts s s → Sub A stillParts → Within stillParts s t)
    (hA : A &&& stillParts = A) (h : HomeAt m v s) : HomeAt m v t :=
  h.of_motors ((w (.refl _ _) (.of hA)).keeps .motors rfl)

theorem HomeAt.ite {p : Prop} [Decidable p] (h : HomeAt m v s) (g : HomeAt m v t) : HomeAt m v (if p then s else t) := by
  split <;> assumption

theorem HomeAt.foldl {α : Type} {f : State → α → State} {l : List α} (hf : ∀ u x, HomeAt m v u → HomeAt m v (f u x))
    (h : HomeAt m v s) : HomeAt m v (l.foldl f s) := by
  induction l generalizing s with
  | nil => exact h
  | cons x l ih => exact ih (hf s x h)

/-- A change of any channel that leaves the level. -/
theorem HomeAt.modMotor {k : Fin 2} {f : Motor → Motor} (hf : ∀ x, (f x).homeActive = x.homeActive) (h : HomeAt m v s) :
    HomeAt m v (modMotor k f s) := by
  intro x hx
  by_cases e : k = m
  · subst e
    have hx : s.motors[k].map f = some x := by simpa using hx
    obtain ⟨y, hy, rfl⟩ := Option.map_eq_some_iff.1 hx
    exact (hf y).trans (h y hy)
  · exact h x ((upd_ne s.motors (Option.map f) e).symm.trans hx)

/-! #### The budget -/

theorem setBud_homeAt (d : Demand) (b : BudState) (h : HomeAt m v s) : HomeAt m v (setBud d b s) := by
  obtain e | ⟨k, e⟩ := setBud_motors d b s
  · exact h.of_motors e
  · exact .of_motors e (.modMotor (fun _ => rfl) h)

theorem fitCharger_homeAt (h : HomeAt m v s) : HomeAt m v (fitCharger s) := h.of_motors fitCharger_motors

theorem release_homeAt (d : Demand) (h : HomeAt m v s) : HomeAt m v (release d s) :=
  fitCharger_homeAt (setBud_homeAt (s := modBud _ s) d _ h)

theorem serveReq_homeAt (w : Time) (r : Req) (h : HomeAt m v s) : HomeAt m v (serveReq w r s) :=
  fitCharger_homeAt (setBud_homeAt _ _ (.ite (.keep (takeSlot_within _ _) rfl <| .keep (modBud_within _) rfl h)
    (.keep (modBud_within _) rfl h)))

theorem lowerGrant_homeAt (d : Demand) (tier mw : Nat) (h : HomeAt m v s) : HomeAt m v (lowerGrant d tier mw s) :=
  fitCharger_homeAt (setBud_homeAt (s := modBud _ s) d _ h)

theorem place_homeAt (r : Req) (x : Asked) (h : HomeAt m v s) : HomeAt m v (place r x s) := by
  cases x with
  | refused n => exact setBud_homeAt (s := setReg _ _ (countReg _ _ _ _ s)) _ _ h
  | served => exact serveReq_homeAt _ _ h
  | waits c => exact fitCharger_homeAt (setBud_homeAt (s := countReg _ _ _ _ (addReq r s)) _ _ h)

theorem withdrawThose_homeAt (p : Req → Bool) (h : HomeAt m v s) : HomeAt m v (withdrawThose p s) := by
  unfold withdrawThose
  refine .foldl (fun u q hu => ?_) (s := modBud _ s) h
  unfold budAfter
  exact .ite hu (setBud_homeAt _ _ hu)

theorem withdrawReqs_homeAt (p : Req → Bool) (h : HomeAt m v s) : HomeAt m v (withdrawReqs p s) := by
  unfold withdrawReqs
  exact .foldl (fun _ _ hu => .keep (railUnwait_within _) rfl hu) (withdrawThose_homeAt p h)

/-! #### The hub's own items, and rails -/

theorem supersedeOn_homeAt (op : Nat) (w : Word) (h : HomeAt m v s) : HomeAt m v (supersedeOn op w s) := by
  unfold supersedeOn
  exact .foldl (fun _ _ hu => .keep (complete_within _ _ _ _) rfl (withdrawThose_homeAt _ hu)) h

theorem hubItem_homeAt (op : Nat) (w x : Word) (h : HomeAt m v s) : HomeAt m v (hubItem op w x s) :=
  .keep (hubRecs_within _ _ _) rfl (supersedeOn_homeAt op w h)

theorem failNodes_homeAt (r : Fin 48) (h : HomeAt m v s) : HomeAt m v (failNodes r s) := by
  unfold failNodes
  refine .foldl (fun u k hu => ?_) h
  split
  · exact .ite (.ite hu (withdrawThose_homeAt _ (.keep (modGraph_within _ _) rfl hu))) hu
  · exact hu

theorem railDown_homeAt (r : Fin 48) (st : RailState) (h : HomeAt m v s) : HomeAt m v (railDown r st s) := by
  unfold railDown
  split
  · exact h
  · extract_lets s1 s2 s3 s4 s5
    have h4 : HomeAt m v s4 := .keep (modRail_within _ _) rfl <| .keep (placeLanes_within _ _) rfl <|
      .keep (modLanes_within _ _) rfl <| .keep (modLanes_within _ _) rfl h
    have h5 : HomeAt m v s5 := .keep (setPg_within _ _) rfl <| .ite (release_homeAt _ h4) h4
    exact .ite (.keep (settleRail_within _) rfl h5) h5

theorem railIsolate_homeAt (r : Fin 48) (h : HomeAt m v s) : HomeAt m v (railIsolate r s) := by
  unfold railIsolate
  split
  · exact h
  · have h1 : HomeAt m v (withdrawStarts r (hubItem 0x12 (railHandle s r) 0 s)) :=
      withdrawThose_homeAt _ (hubItem_homeAt 0x12 (railHandle s r) 0 h)
    exact .ite h1 (failNodes_homeAt _ (railDown_homeAt _ _ h1))

theorem railShed_homeAt (r : Fin 48) (h : HomeAt m v s) : HomeAt m v (railShed r s) := by
  unfold railShed
  split
  · exact h
  · exact setBud_homeAt _ _ (.ite h (failNodes_homeAt _ (railDown_homeAt _ _ (hubItem_homeAt _ _ _ h))))

/-! #### Charger, Lend and Lift -/

theorem setChg_homeAt (st : ChgState) (h : HomeAt m v s) : HomeAt m v (setChg st s) := by
  unfold setChg
  exact .ite (fitCharger_homeAt h) (fitCharger_homeAt <| setBud_homeAt _ _ <| .keep (event_within _ _ _ _ _) rfl <|
    .keep (orReg_within _ _) rfl <| .keep (modChg_within _) rfl h)

theorem lendOff_homeAt (d : Nat) (h : HomeAt m v s) : HomeAt m v (lendOff d s) := by
  unfold lendOff
  exact .ite h <| setChg_homeAt _ <| .keep (event_within _ _ _ _ _) rfl <| .keep (orReg_within _ _) rfl <|
    release_homeAt (s := modChg _ (modPwr _ s)) _ h

theorem lendAbort_homeAt (d : Nat) (h : HomeAt m v s) : HomeAt m v (lendAbort d s) := by
  unfold lendAbort
  exact .ite (lendOff_homeAt d h) <| .keep (completeFree_within _ _) rfl <| lendOff_homeAt d <| withdrawThose_homeAt _ h

/-! #### Fans -/

theorem fanDown_homeAt (f : Fin 4) (st : FanState) (h : HomeAt m v s) : HomeAt m v (fanDown f st s) :=
  release_homeAt (s := modFan f _ s) _ h

theorem fanShed_homeAt (f : Fin 4) (h : HomeAt m v s) : HomeAt m v (fanShed f s) := by
  unfold fanShed
  split
  · exact setBud_homeAt _ _ (.ite h (fanDown_homeAt _ _ h))
  · exact h

theorem fanOff_homeAt (f : Fin 4) (h : HomeAt m v s) : HomeAt m v (fanOff f s) := by
  unfold fanOff
  exact .keep (fanItemDone_within _ _) rfl <| fanDown_homeAt _ _ <| withdrawThose_homeAt (s := modFan f _ s) _ h

theorem fanApply_homeAt (f : Fin 4) (h : HomeAt m v s) : HomeAt m v (fanApply f s) := by
  have hw : HomeAt m v (withdrawFan f s) := withdrawThose_homeAt _ h
  unfold fanApply
  split
  · exact h
  · refine .ite h ?_
    extract_lets t mw s1 r ans s2
    have h2 : HomeAt m v s2 := place_homeAt _ _ hw
    exact .ite (.ite h <| .ite hw <| fanOff_homeAt f h) <| .ite (.keep (fanStart_within _ _) rfl <| lowerGrant_homeAt _ _ _ hw) <|
      .ite (.keep (fanStart_within _ _) rfl h2) h2

/-! #### Tiers and the power states -/

theorem shedTier_homeAt (t cause : Nat) (h : HomeAt m v s) : HomeAt m v (shedTier t cause s) := by
  unfold shedTier
  refine .ite h ?_
  extract_lets mw s1 s2 s3 s4 s5
  have h1 : HomeAt m v s1 := .foldl (fun _ _ hu => railShed_homeAt _ hu) h
  have h2 : HomeAt m v s2 := .ite (setChg_homeAt _ h1) h1
  have h3 : HomeAt m v s3 := .ite (setBud_homeAt _ _ (lendAbort_homeAt 2 h2)) h2
  have h4 : HomeAt m v s4 := .foldl (fun _ _ hu => fanShed_homeAt _ hu) h3
  have h5 : HomeAt m v s5 := .foldl (fun _ _ hu => setBud_homeAt _ _ hu) h4
  exact .keep (budEvent_within _ _ _ _) rfl <| .keep (countReg_within _ _ _ _) rfl h5

theorem arbitrateN_homeAt (fuel : Nat) (h : HomeAt m v s) : HomeAt m v (arbitrateN fuel s) := by
  have capped : ∀ {u : State} (e : Int), HomeAt m v u → HomeAt m v (budEvent 0x0603 0 0 (BitVec.ofInt 64 e)
      (countReg 0x9654 15 0 1 (modBud (fun b => { b with overCap := true }) u))) := fun e hu =>
    .keep (budEvent_within _ _ _ _) rfl (s := countReg _ _ _ _ (modBud _ _)) hu
  induction fuel generalizing s with
  | zero =>
    unfold arbitrateN
    exact .ite (fitCharger_homeAt h) <| .ite (fitCharger_homeAt h) (capped _ (fitCharger_homeAt h))
  | succ n ih =>
    unfold arbitrateN
    refine .ite (fitCharger_homeAt h) ?_
    split
    · cases ‹n + 1 = _›
      exact ih (shedTier_homeAt _ _ (s := modBud _ (fitCharger s)) (fitCharger_homeAt h))
    · exact .ite (fitCharger_homeAt h) (capped _ (fitCharger_homeAt h))

theorem enterHush_homeAt (h : HomeAt m v s) : HomeAt m v (enterHush s) := by
  have rails : HomeAt m v (hushRails (modPwr (fun p => { p with pstate := .hush }) s)) := by
    unfold hushRails
    exact .foldl (fun _ _ hu => .ite (railIsolate_homeAt _ hu) hu) (s := modPwr _ s) h
  have fans : ∀ {u : State}, HomeAt m v u → HomeAt m v (hushFans u) := fun hu => by
    unfold hushFans fansApply
    refine .foldl (fun u f hu => ?_) (.foldl (fun _ _ hu => .keep (modFan_within _ _) rfl hu) hu)
    split
    · exact .ite hu (fanApply_homeAt _ hu)
    · exact hu
  unfold enterHush
  exact .keep hushSeqs_within rfl <| fans <| .keep hushClock_within rfl <| .keep hostDown_within rfl rails

theorem enterOutage_homeAt (d : Nat) (h : HomeAt m v s) : HomeAt m v (enterOutage d s) := by
  unfold enterOutage
  exact .keep (event_within _ _ _ _ _) rfl <| .keep fireOutage_within rfl <| arbitrateN_homeAt 4 <|
    setChg_homeAt _ (s := modPwr _ s) h

theorem enterFull_homeAt (h : HomeAt m v s) : HomeAt m v (enterFull s) := by
  unfold enterFull
  have h1 : HomeAt m v (if s.pwr.pstate = .hush then rootWake s else s) := .ite (.keep rootWake_within rfl h) h
  exact .keep (event_within _ _ _ _ _) rfl <| .keep fireRestore_within rfl <| arbitrateN_homeAt 4 <|
    setChg_homeAt _ (s := modPwr _ _) h1

theorem judge_homeAt (d : Nat) (h : HomeAt m v s) : HomeAt m v (judge d s) := by
  unfold judge
  refine .ite h <| .ite (.keep owlsSettle_within rfl (s := factState s) h) ?_
  extract_lets s1 s2
  have h1 : HomeAt m v s1 := .ite (.keep hushless_within rfl <| enterOutage_homeAt d h) <| .ite (enterFull_homeAt h) h
  have h2 : HomeAt m v s2 := .ite (.keep rootWake_within rfl (s := modPwr _ s1) h1) h1
  exact .keep owlsSettle_within rfl <| .ite (enterHush_homeAt h2) h2

theorem hostFell_homeAt (h : HomeAt m v s) : HomeAt m v (hostFell s) := by
  unfold hostFell
  exact .ite (.keep hostDown_within rfl <| judge_homeAt 0 h) (judge_homeAt 0 h)

/-! #### Graphs' runs, and BURROW behind the last of them -/

theorem startRun_homeAt (k : Fin 16) (down : Bool) (b : RunBy) (i : Option Word) (h : HomeAt m v s) :
    HomeAt m v (startRun k down b i s) := by
  have h1 := withdrawReqs_homeAt (fun q => match q.who with
      | .node g _ => decide (g = k.val)
      | _ => false) (.keep (owlCut_within k b) rfl h)
  unfold startRun
  exact .ite (.keep owlsSettle_within rfl (s := modPwr _ (modGraph k _ _)) h1) h1

theorem hubRun_homeAt (k : Fin 16) (down : Bool) (b : RunBy) (h : HomeAt m v s) : HomeAt m v (hubRun k down b s) := by
  unfold hubRun hubRunNow
  refine .ite h (.ite h (.ite ?_ ?_))
  · split
    · exact .keep (owlEndLadder_within _) rfl h
    · exact h
  · extract_lets w s1 it
    have h1 : HomeAt m v s1 := .keep (makeWay_within 1) rfl (supersedeOn_homeAt _ _ h)
    have h2 : HomeAt m v (hubStart it s1) := .keep (hubStart_within it) rfl h1
    exact startRun_homeAt k down b _ (s := modEng _ (hubStart it s1)) h2

/-- Where the Den domain falls no channel is left. -/
theorem burrowFinish_homeAt : HomeAt m v (burrowFinish s) := by
  intro x hx
  have e : (burrowFinish s).motors[m] = none := Vector.getElem_replicate _
  rw [e] at hx
  cases hx

theorem burrowNext_homeAt (h : HomeAt m v s) : HomeAt m v (burrowNext s) := by
  unfold burrowNext
  dsimp only
  split
  · split
    · exact hubRun_homeAt _ _ _ h
    · exact burrowFinish_homeAt
  · exact burrowFinish_homeAt

theorem afterRun_homeAt (b : RunBy) (h : HomeAt m v s) : HomeAt m v (afterRun b s) := by
  cases b with
  | owlDown o up => exact .ite h (.ite (.keep (event_within _ _ _ _ _) rfl (s := modOwl o _ s) h) h)
  | owlUp o => exact .ite (.keep (owlEndLadder_within o) rfl h) h
  | burrow => exact .ite (burrowNext_homeAt h) h
  | _ => exact h

theorem endRun_homeAt (k : Fin 16) (g : Graph) (down : Bool) (h : HomeAt m v s) : HomeAt m v (endRun k g down s) := by
  unfold endRun
  extract_lets ok host st upNow s1 s2 s3 s4
  have h4 : HomeAt m v s4 := .keep (completeOpt_within _ _ _ _) rfl <| .keep (event_within _ _ _ _ _) rfl (s := s2) h
  exact afterRun_homeAt _ <| .ite h4 <| .ite (hostFell_homeAt h4) (judge_homeAt 0 h4)

theorem settleOne_homeAt (k : Fin 16) (h : HomeAt m v s) : HomeAt m v (settleOne k s) := by
  unfold settleOne
  split
  · exact h
  · rename_i g _
    have he : ∀ d, HomeAt m v (endRun k g d s) := fun d => endRun_homeAt k g d h
    exact .ite h <| .ite h <| .ite (.ite (he _) h) <| .ite (.ite (he _) h) <|
      .ite (.ite (he _) <| .ite (.keep owlsSettle_within rfl (s := modPwr _ (modGraph k _ s)) h) h) <| .ite h (he _)

theorem settle_homeAt (h : HomeAt m v s) : HomeAt m v (settle s) := by
  unfold settle
  exact .foldl (fun _ _ hu => settleOne_homeAt _ hu) <| .foldl (fun _ _ hu => settleOne_homeAt _ hu) h

/-! #### The raise of a channel's cause -/

theorem motorStopNow_homeAt (k : Fin 2) (coast : Bool) (h : HomeAt m v s) : HomeAt m v (motorStopNow k coast s) := by
  unfold motorStopNow
  split
  · exact h
  · extract_lets s1 stopping s2 s3
    have h1 : HomeAt m v s1 := withdrawThose_homeAt _ h
    have h3 : HomeAt m v s3 := release_homeAt _ (.modMotor (fun _ => rfl) h1)
    exact .ite (.ite (.modMotor (fun _ => rfl) h3) <| .ite h3 <| .modMotor (fun _ => rfl) h3) <|
      .ite (release_homeAt _ <| .modMotor (fun _ => rfl) h1) h1

/-- The source of a motor channel. -/
def motorSrc (k : Fin 2) : Fin 192 := ⟨144 + k.val, by omega⟩

theorem isolateBase_motor (k : Fin 2) (s : State) : isolateBase (motorSrc k) s =
    if (s.motors[k]).isSome then motorStopNow k false (hubItem 0x23 (motorHandle s k) 0 s) else s := by
  fin_cases k <;> rfl

theorem raise_motor (k : Fin 2) (d : Nat) (s : State) : raise (144 + k.val) d s = settle (raiseBase (motorSrc k) d true s) := by
  fin_cases k <;> rfl

theorem shedAndReset_homeAt (s0 : State) (n : Nat) (h : HomeAt m v s) : HomeAt m v (shedAndReset s0 n s) := by
  have h1 : HomeAt m v (shedBy s0 n s) := .ite (shedTier_homeAt _ _ h) h
  unfold shedAndReset
  exact .ite (.keep hostRst_within rfl h1) h1

theorem raise_homeAt (k : Fin 2) (d : Nat) (h : HomeAt m v s) : HomeAt m v (raise (144 + k.val) d s) := by
  rw [raise_motor]
  refine settle_homeAt ?_
  unfold raiseBase
  extract_lets s1 s2
  have h1 : HomeAt m v s1 := .keep (latchCapture_within _ d true) rfl h
  have h2 : HomeAt m v s2 := .ite (by
    rw [isolateBase_motor]
    exact .ite (motorStopNow_homeAt k false (hubItem_homeAt _ _ _ h1)) h1) h1
  exact .ite (.keep (raiseAgain_within _ _ _) rfl h) <| .keep (faultNotify_within _ _) rfl <| shedAndReset_homeAt _ _ h2

/-- Chatter faults the channel and leaves the level. -/
theorem chatterFaults_homeAt (k : Fin 2) (l : Limit) (x : Motor) (h : HomeAt m v s) : HomeAt m v (chatterFaults k l x s) := by
  unfold chatterFaults
  extract_lets drives s1
  have h0 : HomeAt m v (countReg (0x5CC0 + k.val * 0x80 + 0x3C) 31 16 1 (modMotor k (fun y => { y with
      state := if drives then .braking else .faulted, brake := if drives then .faulted else .none,
      coasted := y.coasted && !drives, item := none, posValid := false, homed := false }) s)) :=
    .keep (countReg_within _ _ _ _) rfl <| .modMotor (fun _ => rfl) h
  have h1 : HomeAt m v s1 := release_homeAt _ <| withdrawThose_homeAt _ h0
  exact .keep (event_within _ _ _ _ _) rfl <| raise_homeAt k 1 <| .keep (completeOpt_within _ _ _ _) rfl h1

theorem countedChanges_homeAt (k : Fin 2) (l : Limit) (ts : List Time) (h : HomeAt m v s) :
    HomeAt m v (countedChanges k l ts s) := by
  have h1 : HomeAt m v (noteEdges k l ts s) := .modMotor (fun _ => by cases l <;> rfl) h
  unfold countedChanges
  split
  · exact h
  · refine .ite h ?_
    dsimp only
    split
    · exact h1
    · exact .ite (chatterFaults_homeAt k l _ h1) h1

end

end Sys2Proof.Machine

namespace Sys2Proof.Machine

/-! ### A channel at work (R238, R245, R247, R249) -/

section
variable {m : Fin 2} {x y : Motor} {s t : State}

theorem motorEnds_motor (h : s.motors[m] = some x) (d : Nat) (lose : Bool) : MotorIs m { x with
    state := .braking, brake := .stopped, coasted := false, item := none, posValid := x.posValid && !lose,
    homed := x.homed && !lose } (motorEnds m y d lose s) :=
  .keep (completeOpt_within (L := 0x20000fb90c3) y.item .failed d 0 (.refl _ _) (.of rfl)) rfl <|
    (((MotorIs.of h).modMotor fun _ => rfl).release _).modMotor fun _ => rfl

/-- A cause behind the end of the channel's item latches. -/
theorem motorEnds_raises {e : Nat} (he : 1 ≤ e ∧ e ≤ 16) (d : Nat) (lose : Bool) (hb : s.pwr.burrowing = false) :
    Latched (raiseLatched (144 + m.val) e (motorEnds m y d lose s)) (144 + m.val) e :=
  (motorEnds_within (L := 0x20fa0fb90c3) m y d lose (.refl _ s) (.of rfl)).raises (by decide) (by omega) he hb

variable (hx : s.motors[m] = some x)
include hx

theorem whileDrives_runs (hd : motorDrives x = true) (k : Motor → State → State) : whileDrives m k s = k x s := by
  unfold whileDrives
  rw [hx]
  exact if_pos hd

theorem whileWorks_runs (hw : motorWorks x = true) (k : Motor → State → State) : whileWorks m k s = k x s := by
  unfold whileWorks
  rw [hx]
  exact if_pos hw

section
variable (hb : s.pwr.burrowing = false) (hd : motorDrives x = true)
include hb hd

theorem bridgeOc_latches : Latched (bridgeOc m s) (144 + m.val) 3 := by
  unfold bridgeOc
  rw [whileDrives_runs hx hd]
  exact (completeFree_within (L := 0x20fa0fb90c3) x.item .failed (release_within _ (modMotor_within m _ (.refl _ s) (.of rfl))
    (.of rfl)) (.of rfl)).raises (by decide) (by omega) (by decide) hb

theorem stall_latches : Latched (stall m s) (144 + m.val) 2 := by
  unfold stall
  rw [whileDrives_runs hx hd]
  exact motorEnds_raises (by decide) _ _ hb

theorem supplyLost_latches (ha : motAcc x = true) (hl : s.chg.lift = .off) : Latched (supplyLost m s) (144 + m.val) 5 := by
  unfold supplyLost
  rw [whileDrives_runs hx hd, if_neg (by simp [ha, hl])]
  exact motorEnds_raises (by decide) _ _ hb

end

theorem moveTmo_ends (hw : motorWorks x = true) (ht : motTmo x ≠ 0) : moveTmo m s = motorEnds m x 0x1E (loses x) s := by
  unfold moveTmo
  rw [whileWorks_runs hx hw]
  exact if_neg ht

/-- The illegal steps of a channel at work count, and decide whether its item goes on. -/
theorem encoderError_counts (hw : motorWorks x = true) (he : motEnc x = true) (hs : motorSensed s x = true) (k : Nat) :
    encoderError m k s =
      if 16 < x.badSteps + k then raiseLatched (144 + m.val) 4
        (motorEnds m x 0x20 true (countReg (0x5CC0 + m.val * 0x80 + 0x3C) 15 0 k s))
      else modMotor m (fun y => { y with badSteps := y.badSteps + k }) (countReg (0x5CC0 + m.val * 0x80 + 0x3C) 15 0 k s) := by
  unfold encoderError
  rw [hx]
  dsimp only
  rw [if_neg (by simp [he, hs])]
  exact whileWorks_runs (s := countReg _ _ _ _ s) hx hw _

end

/-! ### Chatter (R241) -/

section
variable {m : Fin 2} {x y : Motor} {l : Limit} {ts : List Time} {s : State}

theorem chatterFaults_latches (hb : s.pwr.burrowing = false) : Latched (chatterFaults m l x s) (144 + m.val) 1 := by
  unfold chatterFaults
  extract_lets drives s1
  have w : Within 0x20fa0fb90c3 s (completeOpt x.item .failed 0x17 0 s1) :=
    completeOpt_within _ _ _ _ (release_within _ (withdrawDemand_within _ (countReg_within _ _ _ _
      (modMotor_within m _ (.refl _ s) (.of rfl)) (.of rfl)) (.of rfl)) (.of rfl)) (.of rfl)
  exact (event_within (L := 0x4a083) _ _ _ _ _ (.refl _ _) (.of rfl)).latched
    (raise_latched (by omega) (by decide) (w.quiet hb (by decide))) rfl

/-- Where a limit is watched its counted changes are chatter or only noted. -/
theorem countedChanges_judges (hx : s.motors[m] = some x) (hs : motorSensed s x = true)
    (hw : inHush s = false ∨ motorDrives x = true) (hy : (noteEdges m l ts s).motors[m] = some y) :
    countedChanges m l ts s =
      if !isPresent s (144 + m.val) 1 && chatters y (y.edges l) then chatterFaults m l x (noteEdges m l ts s)
      else noteEdges m l ts s := by
  unfold countedChanges
  rw [hx]
  dsimp only
  rw [if_neg (by rcases hw with hw | hw <;> simp [hs, hw]), hy]

end

/-! ### A limit's qualified change (R242 to R245) -/

/-- The channel takes the level of a limit. -/
def takesLevel (l : Limit) (active : Bool) (x : Motor) : Motor :=
  match l with
  | .home => { x with homeActive := active }
  | .far => { x with farActive := active }

/-- What the change brings about for channel `y`, its count done: a homing step, the turn of a homing that brakes, or the end
of a move (R243 to R245). -/
def limitActs (m : Fin 2) (l : Limit) (active : Bool) (count first : Int) (y : Motor) (u : State) : State :=
  if y.state = .homing then
    homingLimit m l active y
      (if l = .home && active && y.step = .final then modMotor m (fun z => { z with zero := first }) u else u)
  else if y.state = .braking && l = .far && active && loses y then farBraking m y u
  else if y.state = .moving && active && ahead_ l y then
    motorEnds m y 0x1D false (modMotor m (fun z => { z with pos := count - z.zero }) u)
  else u

section
variable {m : Fin 2} {y : Motor} {u : State}

theorem brakeTo_motor (hy : u.motors[m] = some y) (e : BrakeEnd) :
    (brakeTo m e u).motors[m] = some { y with state := .braking, brake := e, coasted := false } := modMotor_self hy _

theorem homingLimit_released (h : y.step = .release) : homingLimit m .home false y u = brakeTo m (.homeStep .approach) u := by
  unfold homingLimit
  rw [h]

theorem homingLimit_approached (h : y.step = .approach) : homingLimit m .home true y u = brakeTo m (.homeStep .backoff) u := by
  unfold homingLimit
  rw [h]

theorem homingLimit_home (h : y.step = .final) : homingLimit m .home true y u = brakeTo m .homed u := by
  unfold homingLimit
  rw [h]

theorem homingLimit_far (h : y.farTrips = 0) :
    homingLimit m .far true y u = modMotor m (fun y => { y with step := .approach, farTrips := 1 }) u :=
  if_neg (by rw [h]; decide)

end

section
variable {m : Fin 2} {x y : Motor} {l : Limit} {active : Bool} {count first : Int} {s u : State}

theorem homeAt_takesLevel (s : State) : HomeAt m active (modMotor m (takesLevel .home active) s) := by
  intro x hx
  have hx : s.motors[m].map (takesLevel .home active) = some x := by simpa using hx
  obtain ⟨y, -, rfl⟩ := Option.map_eq_some_iff.1 hx
  rfl

variable (hx : s.motors[m] = some x) (hs : motorSensed s x = true)
  (hu : u = countedChanges m l [now s - BitVec.ofNat 48 x.qualUs] (modMotor m (takesLevel l active) s))
  (hy : u.motors[m] = some y)
include hx hs hu hy

/-- The change acts on what its count has left of the channel. -/
theorem limitQualified_acts : limitQualified m l active count first s = limitActs m l active count first y u := by
  have e : limitQualified m l active count first s = match u.motors[m] with
    | none => u
    | some y => limitActs m l active count first y u := by
    subst hu
    unfold limitQualified
    rw [hx]
    exact if_neg (by rw [hs]; decide)
  rw [e, hy]

theorem limitQualified_stands (h1 : y.state ≠ .homing) (h2 : y.state ≠ .moving ∨ active = false ∨ ahead_ l y = false)
    (h3 : y.state ≠ .braking ∨ l = .home ∨ active = false ∨ loses y = false) :
    limitQualified m l active count first s = u := by
  rw [limitQualified_acts hx hs hu hy, limitActs, if_neg h1,
    if_neg (by rcases h3 with h | h | h | h <;> simp [h]), if_neg (by rcases h2 with h | h | h <;> simp [h])]

theorem limitQualified_stops (hm : y.state = .moving) (ha : active = true) (hl : ahead_ l y = true) :
    MotorIs m { y with state := .braking, brake := .stopped, coasted := false, item := none, pos := count - y.zero }
      (limitQualified m l active count first s) := by
  rw [limitQualified_acts hx hs hu hy, limitActs, if_neg (by simp [hm]), if_neg (by simp [hm]), if_pos (by simp [hm, ha, hl])]
  have h := motorEnds_motor (y := y) (modMotor_self hy (fun z => { z with pos := count - z.zero })) 0x1D false
  simpa using h

theorem limitQualified_farBraking (hb : y.state = .braking) (hl : loses y = true) (hf : l = .far) (ha : active = true) :
    limitQualified m l active count first s = farBraking m y u := by
  rw [limitQualified_acts hx hs hu hy, limitActs, if_neg (by rw [hb]; decide), if_pos (by simp [hb, hl, hf, ha])]

variable (hh : y.state = .homing)
include hh

/-- A homing step of a limit that is not the last trip of HOME. -/
theorem limitQualified_homing (hn : l = .far ∨ active = false ∨ y.step ≠ .final) :
    limitQualified m l active count first s = homingLimit m l active y u := by
  rw [limitQualified_acts hx hs hu hy, limitActs, if_pos hh, if_neg (by rcases hn with h | h | h <;> simp [h])]

theorem limitQualified_approaches (hl : l = .home) (ha : active = true) (hp : y.step = .approach) :
    (limitQualified m l active count first s).motors[m] =
      some { y with state := .braking, brake := .homeStep .backoff, coasted := false } := by
  rw [limitQualified_homing hx hs hu hy hh (.inr (.inr (by rw [hp]; decide))), hl, ha, homingLimit_approached hp]
  exact brakeTo_motor hy _

theorem limitQualified_homes (hl : l = .home) (ha : active = true) (hp : y.step = .final) :
    (limitQualified m l active count first s).motors[m] =
      some { y with state := .braking, brake := .homed, coasted := false, zero := first } := by
  rw [limitQualified_acts hx hs hu hy, limitActs, if_pos hh, if_pos (by simp [hl, ha, hp]), hl, ha, homingLimit_home hp]
  exact brakeTo_motor (modMotor_self hy _) _

theorem limitQualified_releases (hl : l = .home) (ha : active = false) (hp : y.step = .release) :
    (limitQualified m l active count first s).motors[m] =
      some { y with state := .braking, brake := .homeStep .approach, coasted := false } := by
  rw [limitQualified_homing hx hs hu hy hh (.inr (.inl ha)), hl, ha, homingLimit_released hp]
  exact brakeTo_motor hy _

theorem limitQualified_turns (hl : l = .far) (ha : active = true) (hf : y.farTrips = 0) :
    (limitQualified m l active count first s).motors[m] = some { y with step := .approach, farTrips := 1 } := by
  rw [limitQualified_homing hx hs hu hy hh (.inl hl), hl, ha, homingLimit_far hf]
  exact modMotor_self hy _

end

/-! ### Targets, and the end of braking (R243, R245) -/

section
variable {m : Fin 2} {x : Motor} {count : Int} {s : State} (hx : s.motors[m] = some x)
include hx

theorem targetReached_homing (hh : x.state = .homing) : targetReached m s = match x.step with
    | .release => motorEnds m x 0x1A true s
    | .backoff => brakeTo m (.homeStep .final) s
    | _ => motorEnds m x 0x1B true s := by
  unfold targetReached
  rw [whileDrives_runs hx (by simp [motorDrives, hh])]
  exact if_neg (by rw [hh]; decide)

theorem targetReached_moving (hm : x.state = .moving) : targetReached m s = brakeTo m .arrived s := by
  unfold targetReached
  rw [whileDrives_runs hx (by simp [motorDrives, hm]), if_pos hm]

end

/-- The channel rests as `z`, and its grant has ended. -/
def rests (m : Fin 2) (z : Motor) (s : State) : State := release (.motor m.val) (setMotor m (some z) s)

theorem rests_motor (m : Fin 2) (z : Motor) (s : State) : MotorIs m z (rests m z s) :=
  (MotorIs.of (setMotor_self m (some z) s)).release _

theorem rests_items (m : Fin 2) (z : Motor) (s : State) : (rests m z s).eng.items = s.eng.items :=
  (release_within (L := 0xfa0000000) _ (setMotor_within m (some z) (.refl _ s) (.of rfl)) (.of rfl)).keeps .items rfl

section
variable {m : Fin 2} {x : Motor} {count : Int} {s : State} (hx : s.motors[m] = some x) (hs : x.state = .braking)
include hx hs

theorem brakeEnd_goesOn {n : HomeStep} (hb : x.brake = .homeStep n) : (brakeEnd m count s).motors[m] =
    some { x with pos := count - x.zero, brake := .none, state := .homing, step := n } := by
  unfold brakeEnd
  rw [hx]
  dsimp only
  rw [if_neg (not_not_intro hs), hb]
  exact setMotor_self _ _ _

theorem brakeEnd_homes (hb : x.brake = .homed) : MotorIs m
    { x with pos := count - x.zero, brake := .none, posValid := true, homed := true, state := .idle, item := none }
    (brakeEnd m count s) := by
  unfold brakeEnd
  rw [hx]
  dsimp only
  rw [if_neg (not_not_intro hs), hb, show braked x = .idle from if_neg (by rw [hb]; decide)]
  refine .keep (event_within (L := 0x4a083) _ _ _ _ _ (.refl _ _) (.of rfl)) rfl <|
    .keep (completeOpt_within (L := 0x20000fb90c3) _ _ _ _ (.refl _ _) (.of rfl)) rfl <|
    .keep (setReg_within (L := 2) _ _ (.refl _ _) (.of rfl)) rfl (rests_motor m _ s)

theorem brakeEnd_faults (hb : x.brake = .faulted) : MotorIs m
    { x with pos := count - x.zero, brake := .none, state := .faulted, item := none } (brakeEnd m count s) := by
  unfold brakeEnd
  rw [hx]
  dsimp only
  rw [if_neg (not_not_intro hs), hb, show braked x = .faulted from if_pos hb]
  exact .keep (completeOpt_within (L := 0x20000fb90c3) _ _ _ _ (.refl _ _) (.of rfl)) rfl (rests_motor m _ s)

/-- Where a move has arrived its item is answered by how far it came from its target. -/
theorem brakeEnd_arrives {a : Word} (hb : x.brake = .arrived) (ha : x.item = some a) : brakeEnd m count s =
    complete a .done (if 8 < (count - x.zero - x.target).natAbs then 0x10 else 0) ((BitVec.ofInt 32 (count - x.zero)).setWidth 64)
      (rests m { x with pos := count - x.zero, brake := .none, state := braked x, item := none } s) := by
  unfold brakeEnd
  rw [hx]
  dsimp only
  rw [if_neg (not_not_intro hs), hb, ha]
  rfl

end

/-- Settles O48: a fault by what ends the drive before its raise (`motorEnds_raises`), a limit by what its counted change has
left of the channel (`limitQualified_acts`), where the level stands whatever chatter has brought about
(`countedChanges_homeAt`), a target and the end of braking by the step that ends. -/
theorem motorsMove : Obligations.MotorsMove := by
  unfold Obligations.MotorsMove
  refine fun m x l active count first k ages s hx => ⟨fun hb => ⟨fun hd => ⟨⟨_, rfl, bridgeOc_latches hx hb hd⟩,
    ⟨_, rfl, stall_latches hx hb hd⟩, fun ha hl => ⟨_, rfl, supplyLost_latches hx hb hd ha hl⟩⟩, fun hw he hs hk => ?_⟩,
    fun hs hw n y hn hy => ⟨fun hp hc hb => ?_, fun hc => ?_⟩, fun hw he hs hk => ?_, fun hw ht => ?_,
    fun hs u y hu hy => ⟨fun h1 h2 h3 => ?_, fun hm ha hl => ?_, fun hb hl hf ha => ?_, fun hh => ⟨fun hl ha =>
      ⟨fun hp => ?_, fun hp => ?_⟩, fun hl ha hp => ?_, fun hl ha hf => ?_⟩⟩, fun hh => ⟨fun hp => ?_, fun hp => ?_, fun hp => ?_⟩,
    fun hm => ?_, fun hs pos hp => ⟨fun n hb => ?_, fun hb => ?_, fun hb => ?_, fun a it hb ha hi => ?_⟩⟩
  · refine ⟨_, congrArg Host.Outcome.next ((encoderError_counts hx hw he hs k).trans (if_pos hk)), ?_⟩
    exact motorEnds_raises (s := countReg _ _ _ _ s) (by decide) _ _ hb
  · subst hn
    refine ⟨_, congrArg Host.Outcome.next ((countedChanges_judges hx hs hw hy).trans (if_pos (by rw [hp, hc]; decide))), ?_⟩
    exact chatterFaults_latches (s := noteEdges m l _ s) hb
  · subst hn
    exact congrArg Host.Outcome.next ((countedChanges_judges hx hs hw hy).trans
      (if_neg (by rcases hc with h | h <;> simp [h])))
  · refine ⟨_, congrArg Host.Outcome.next ((encoderError_counts hx hw he hs k).trans (if_neg (by omega))), ?_⟩
    exact modMotor_self (s := countReg _ _ _ _ s) hx _
  · exact congrArg Host.Outcome.next (moveTmo_ends hx hw ht)
  · exact congrArg Host.Outcome.next (limitQualified_stands hx hs hu hy h1 h2 h3)
  · exact ⟨_, rfl, (limitQualified_stops hx hs hu hy hm ha hl).shows fun _ => ⟨rfl, rfl, rfl, rfl⟩⟩
  · exact congrArg Host.Outcome.next (limitQualified_farBraking hx hs hu hy hb hl hf ha)
  · refine ⟨_, rfl, _, limitQualified_approaches hx hs hu hy hh hl ha hp, rfl, rfl, ?_⟩
    subst hl ha hu
    exact countedChanges_homeAt m .home _ (homeAt_takesLevel s) y hy
  · exact ⟨_, rfl, _, limitQualified_homes hx hs hu hy hh hl ha hp, rfl, rfl, rfl⟩
  · exact ⟨_, rfl, _, limitQualified_releases hx hs hu hy hh hl ha hp, rfl, rfl⟩
  · exact ⟨_, rfl, _, limitQualified_turns hx hs hu hy hh hl ha hf, hh, rfl, rfl⟩
  · refine ⟨_, congrArg Host.Outcome.next ((targetReached_homing hx hh).trans (by rw [hp])), _, brakeTo_motor hx _, rfl, rfl⟩
  · refine congrArg Host.Outcome.next ((targetReached_homing hx hh).trans ?_)
    rcases hp with hp | hp <;> rw [hp]
  · exact congrArg Host.Outcome.next ((targetReached_homing hx hh).trans (by rw [hp]))
  · exact ⟨_, congrArg Host.Outcome.next (targetReached_moving hx hm), _, brakeTo_motor hx _, rfl, rfl⟩
  · exact ⟨_, rfl, _, brakeEnd_goesOn hx hs hb, rfl, rfl⟩
  · subst hp
    exact ⟨_, rfl, (brakeEnd_homes hx hs hb).shows fun _ => ⟨rfl, rfl, rfl, rfl⟩⟩
  · exact ⟨_, rfl, (brakeEnd_faults hx hs hb).shows fun _ => rfl⟩
  · subst hp
    refine ⟨_, congrArg Host.Outcome.next (brakeEnd_arrives hx hs hb ha), ?_⟩
    exact complete_answers (s := rests m _ s) ((findItem_of_items (rests_items m _ s) a).trans hi) _ _ _

end Sys2Proof.Machine

/-! PROOFS. The fans: the statement on spec/13. -/

namespace Sys2Proof.Machine

/-! ### Single fans -/

section
variable {f : Fin 4} {x : Fan} {s t : State}

theorem modFan_self (h : s.fans[f] = some x) (g : Fan → Fan) : (modFan f g s).fans[f] = some (g x) := by
  have e : (modFan f g s).fans[f] = s.fans[f].map g := by simp
  rw [e, h]
  rfl

/-- An operation that leaves the fans. -/
theorem Within.fan {L : Nat} (w : Within L s t) (hL : L.testBit 35 = false) (h : s.fans[f] = some x) : t.fans[f] = some x :=
  (congrArg (·[f]) (w.keeps .fans hL)).trans h

end

/-! ### FAN_SET (R250, R251, R255, R257) -/

/-- What the checks of the item's new parameters find (R251). -/
def newFanFault (it : Item) (x : Fan) : Option Refuse := if bit (opv it 4) 8 then fanFaultOf (fanTakes it x) else none

/-- FAN_SET with a target that the fan can take, in a mode that it has (R257). -/
def fanGoesOn (a : Word) (it : Item) (f : Fin 4) (x : Fan) (u : State) : State :=
  let y := fanTakes it x
  let mw := fanClaim u f y (fanTarget u f y)
  if x.state = .faulted then complete a .refusedState 0x17 0 u
  else if blindHeld x then complete a .done 0x11 (fanResult x) (setFan f (some { fanWith it x with item := none }) u)
  else if fanTarget u f y = 0 || (mw ≤ grantMw u (.fan f.val) && !fanIsShed u y) then fanServed a f u
  else itemAsks a (fanReq u f y (.item a) a mw) (fanServed a f) u

section
variable {a : Word} {it : Item} {f : Fin 4} {x y : Fan} {s u : State}

section
variable (h : Works 0x28 a it s u) (hf : hSlot it.handle = f.val) (hx : u.fans[f] = some x) (hy : y = fanTakes it x)
include h hf hx hy

/-- FAN_SET's judgements in their order. -/
theorem fanSet_judges : fanSet a s =
    if held u (146 + f.val) then complete a .refusedState 0x18 0 u
    else (newFanFault it x).elim
      (if !fanTargetOk y.speed (opv it 5).toNat then complete a .refusedLeash 0 0 u
      else if y.speed && !fanTach y then complete a .refusedState 0x10 0 u
      else fanGoesOn a it f x u)
      (fun e => complete a e.1 e.2 0 u) := by
  subst hy
  refine (h.begins _).trans ?_
  rw [hf, fin?_val]
  dsimp only
  rw [hx]
  dsimp only
  unfold newFanFault
  cases (if bit (opv it 4) 8 then fanFaultOf (fanTakes it x) else none) <;> rfl

variable (hh : held u (146 + f.val) = false)
include hh

theorem fanSet_refusesParameters {e : Refuse} (hb : bit (opv it 4) 8 = true) (he : fanFaultOf y = some e) :
    fanSet a s = complete a e.1 e.2 0 u := by
  rw [fanSet_judges h hf hx hy, hh, newFanFault, hb, if_pos rfl, ← hy, he]
  rfl

variable (hp : bit (opv it 4) 8 = false ∨ fanFaultOf y = none)
include hp

/-- The item brings no parameters, or such as R251 allows. -/
theorem fanSet_judgesTarget : fanSet a s =
    if !fanTargetOk y.speed (opv it 5).toNat then complete a .refusedLeash 0 0 u
    else if y.speed && !fanTach y then complete a .refusedState 0x10 0 u
    else fanGoesOn a it f x u := by
  have hn : newFanFault it x = none := by
    unfold newFanFault
    rw [← hy]
    rcases hp with hb | hn
    · exact if_neg (by rw [hb]; decide)
    · rw [hn, ite_self]
  rw [fanSet_judges h hf hx hy, hh, hn]
  rfl

theorem fanSet_goesOn (ht : fanTargetOk y.speed (opv it 5).toNat = true) (hs : y.speed = false ∨ fanTach y = true) :
    fanSet a s = fanGoesOn a it f x u := by
  rw [fanSet_judgesTarget h hf hx hy hh hp, if_neg (by rw [ht]; decide),
    if_neg (by rcases hs with hs | hs <;> simp [hs])]

end

theorem fanGoesOn_faulted (hs : x.state = .faulted) : fanGoesOn a it f x u = complete a .refusedState 0x17 0 u := if_pos hs

variable (hs : x.state ≠ .faulted)
include hs

theorem fanGoesOn_stores (hb : blindHeld x = true) : fanGoesOn a it f x u =
    complete a .done 0x11 (fanResult x) (setFan f (some { fanWith it x with item := none }) u) :=
  (if_neg hs).trans (if_pos hb)

variable (hb : blindHeld x = false) {mw : Nat} (hy : y = fanTakes it x) (hw : mw = fanClaim u f y (fanTarget u f y))
include hb hy hw

theorem fanGoesOn_served (hg : fanTarget u f y = 0 ∨ (mw ≤ grantMw u (.fan f.val) ∧ fanIsShed u y = false)) :
    fanGoesOn a it f x u = fanServed a f u := by
  subst hy hw
  refine (if_neg hs).trans ((if_neg (by rw [hb]; decide)).trans (if_pos ?_))
  simpa using hg

theorem fanGoesOn_asks (ht : fanTarget u f y ≠ 0) (hg : grantMw u (.fan f.val) < mw ∨ fanIsShed u y = true) :
    fanGoesOn a it f x u = itemAsks a (fanReq u f y (.item a) a mw) (fanServed a f) u := by
  subst hy hw
  refine (if_neg hs).trans ((if_neg (by rw [hb]; decide)).trans (if_neg ?_))
  rcases hg with hg | hg <;> simp [ht, hg]

end

/-! ### The update (R252 to R254) -/

/-- The fan with an update's readings: of them the speed stands without a new edge. -/
def fanReads (rd : FanReading) (x : Fan) : Fan :=
  match rd.tach with
  | some us =>
    if fanTach x then { x with fanpv := rd.fanpv, rpm := rpmOf x us, tachOk := !x.tachLost } else { x with fanpv := rd.fanpv }
  | none => { x with fanpv := rd.fanpv }

/-- The fan from which an update ramps: its readings taken, the leash and its demand judged, the output at most what FANPV
allows. -/
def fanJudged (rd : FanReading) (leash : Bool) (demand : Nat) (x : Fan) : Fan :=
  let y := { fanReads rd x with demand := demand, leashHit := leash }
  { y with out := min y.out (10 * fanTop y) }

/-- The fan after a step of its ramp. -/
def fanRamps (s : State) (f : Fin 4) (x : Fan) : Fan :=
  { x with
    out := (rampStep s f x (fanGoal s f x)).1
    ramping := decide ((rampStep s f x (fanGoal s f x)).1 ≠ fanGoal s f x)
    bandMoved := (fanAsks s f x).2
    dropout := decide (fanTop x < (fanAsks s f x).1) }

section
variable {f : Fin 4} {x : Fan} {rd : FanReading} {s : State}

theorem fanReads_only (rd : FanReading) (x : Fan) :
    ∃ o, fanReads rd x = { x with fanpv := rd.fanpv, rpm := (fanReads rd x).rpm, tachOk := o } := by
  unfold fanReads
  split
  · split <;> exact ⟨_, rfl⟩
  · exact ⟨_, rfl⟩

theorem fanJudged_only (rd : FanReading) (l : Bool) (d : Nat) (x : Fan) : ∃ o, fanJudged rd l d x =
    { x with fanpv := rd.fanpv, rpm := (fanReads rd x).rpm, tachOk := o, demand := d, leashHit := l,
             out := min x.out (10 * fanTop { x with fanpv := rd.fanpv }) } := by
  obtain ⟨o, e⟩ := fanReads_only rd x
  unfold fanJudged
  rw [e]
  exact ⟨o, rfl⟩

theorem fanReads_rpm {us : Nat} (hr : rd.tach = some us) (ht : fanTach x = true) : (fanReads rd x).rpm = rpmOf x us := by
  unfold fanReads
  rw [hr]
  dsimp only
  rw [if_pos ht]

theorem fanReads_rpmStands (h : rd.tach = none ∨ fanTach x = false) : (fanReads rd x).rpm = x.rpm := by
  unfold fanReads
  split
  · next us hr =>
    have ht : fanTach x = false := h.resolve_left (by rw [hr]; exact Option.some_ne_none us)
    rw [if_neg (by rw [ht]; decide)]
  · rfl

theorem fanReads_moves (rd : FanReading) (x : Fan) : fanMoves (fanReads rd x) = fanMoves x := by
  obtain ⟨o, e⟩ := fanReads_only rd x
  rw [e]
  rfl

/-! #### What the parts of an update leave of the fan -/

theorem fanLeash_fan (h : s.fans[f] = some x) : ∃ l, (fanLeash f s).fans[f] = some { x with leashHit := l } := by
  unfold fanLeash
  rw [h]
  dsimp only
  split
  · split
    · exact ⟨x.leashHit, h⟩
    · exact ⟨true, (event_within (L := 0x4a083) _ _ _ _ _ (countReg_within _ _ _ _ (.refl _ _) (.of rfl)) (.of rfl)).fan rfl
        (modFan_self h _)⟩
  · exact ⟨false, modFan_self h _⟩

theorem stepDemand_fan (h : s.fans[f] = some x) (x0 : Fan) : ∃ d, (stepDemand f x0 s).fans[f] = some { x with demand := d } := by
  unfold stepDemand
  split
  · exact ⟨x.demand, h⟩
  · exact ⟨_, modFan_self (s := (drawNat s).2) h _⟩

theorem fanItemDone_fan (h : s.fans[f] = some x) (d : Nat) :
    (fanItemDone f d s).fans[f] = some { x with item := none, settled := 0 } := by
  unfold fanItemDone
  rw [h]
  exact (completeOpt_within (L := 0x20000fb90c3) _ _ _ _ (.refl _ _) (.of rfl)).fan rfl (modFan_self h _)

theorem fanArrives_fan (h : s.fans[f] = some x) (x0 : Fan) :
    ∃ i n, (fanArrives f x0 s).fans[f] = some { x with item := i, settled := n } := by
  unfold fanArrives
  split
  · split
    · exact ⟨x.item, x.settled, (event_within (L := 0x4a083) _ _ _ _ _ (.refl _ _) (.of rfl)).fan rfl h⟩
    · exact ⟨x.item, x.settled, h⟩
  · split
    · exact ⟨x.item, x.settled, h⟩
    · exact ⟨none, 0, fanItemDone_fan h 0⟩

/-! #### A VOLTAGE fan without bands -/

section
variable (hb : enabledBands x = [])
include hb

theorem bandsThat_none (leash : Bool) : bandsThat s f x leash = [] := by
  unfold enabledBands at hb
  unfold bandsThat
  rw [List.filter_eq_nil_iff] at hb ⊢
  intro e he
  simp [hb e he]

theorem bandOf_none (v : Nat) : bandOf s f x v = none := by
  unfold bandOf
  rw [bandsThat_none hb]
  rfl

theorem fanAsks_volts (hs : x.state ≠ .blind) (hh : x.held = false) (hm : x.runSpeed = false) :
    fanAsks s f x = (x.run, false) := by
  unfold fanAsks bandTarget
  rw [if_neg hs, hh, hm, bandOf_none hb]
  rfl

theorem fanGoal_noBands {v : Nat} {moved : Bool} (ha : fanAsks s f x = (v, moved)) :
    fanGoal s f x = 10 * min v (fanTop x) := by
  unfold fanGoal
  rw [ha]
  dsimp only
  rw [bandOf_none hb, Nat.min_def]

theorem rampStep_noBands (goal : Nat) : (rampStep s f x goal).1 =
    if x.out < goal then min goal (x.out + fanRamp x) else max goal (x.out - fanRamp x) := by
  unfold rampStep
  rw [bandsThat_none hb]
  dsimp only [List.map_nil, List.find?_nil]
  split
  · rfl
  · split
    · rfl
    · omega

end

/-! #### The update -/

variable (hx : s.fans[f] = some x)
include hx

theorem fanUpdate_rests (hm : fanMoves x = false) : (fanUpdate f rd s).fans[f] = some (fanReads rd x) := by
  have h1 : (modFan f (fanReads rd) s).fans[f] = some (fanReads rd x) := modFan_self hx _
  have e : fanUpdate f rd s = modFan f (fanReads rd) s := by
    unfold fanUpdate
    extract_lets s1
    rw [show s1.fans[f] = _ from h1]
    exact if_pos (by rw [fanReads_moves, hm]; rfl)
  rw [e, h1]

/-- An update of a fan that moves judges it and ramps. -/
theorem fanUpdate_ramps (hm : fanMoves x = true) : ∃ u l d i n, (fanUpdate f rd s).fans[f] =
    some { fanRamps u f (fanJudged rd l d x) with item := i, settled := n } := by
  have h1 : (modFan f (fanReads rd) s).fans[f] = some (fanReads rd x) := modFan_self hx _
  unfold fanUpdate
  extract_lets s1
  rw [show s1.fans[f] = _ from h1]
  dsimp -zeta only
  rw [if_neg (by rw [fanReads_moves, hm]; decide)]
  extract_lets s2
  obtain ⟨d, hd⟩ : ∃ d, (if (fanReads rd x).state = .blind then s1 else stepDemand f (fanReads rd x) s1).fans[f] =
      some { fanReads rd x with demand := d } := by
    split
    · exact ⟨_, h1⟩
    · exact stepDemand_fan h1 _
  obtain ⟨l, hl⟩ : ∃ l, s2.fans[f] = some { fanReads rd x with demand := d, leashHit := l } := fanLeash_fan hd
  rw [hl]
  dsimp -zeta only
  extract_lets _ y g goal r n s3 s4 s5
  have h3 : s3.fans[f] = some { fanRamps s2 f y with settled := n } := modFan_self hl _
  have h4 : s4.fans[f] = some { fanRamps s2 f y with settled := n } := by
    unfold s4
    split
    · exact (countReg_within (L := 2) _ _ _ _ (.refl _ _) (.of rfl)).fan rfl h3
    · exact h3
  obtain ⟨i, k, h5⟩ : ∃ i k, s5.fans[f] = some { fanRamps s2 f y with item := i, settled := k } := by
    unfold s5
    split
    · exact fanArrives_fan h4 _
    · exact ⟨_, _, h4⟩
  refine ⟨s2, l, d, ?_⟩
  split
  · exact ⟨none, 0, fanItemDone_fan h5 0⟩
  · exact ⟨i, k, h5⟩

/-- What an update leaves beside its ramp. -/
theorem fanUpdate_reads : ∃ y, (fanUpdate f rd s).fans[f] = some y ∧ y.fanpv = rd.fanpv ∧ y.state = x.state ∧
    y.rpm = (fanReads rd x).rpm := by
  cases hm : fanMoves x with
  | false =>
    obtain ⟨o, e⟩ := fanReads_only rd x
    refine ⟨_, fanUpdate_rests hx hm, ?_⟩
    rw [e]
    exact ⟨rfl, rfl, rfl⟩
  | true =>
    obtain ⟨u, l, d, i, n, e⟩ := fanUpdate_ramps (rd := rd) hx hm
    obtain ⟨o, ej⟩ := fanJudged_only rd l d x
    refine ⟨_, e, ?_⟩
    rw [ej]
    exact ⟨rfl, rfl, rfl⟩

/-- A VOLTAGE fan without bands ramps toward its target, as far as FANPV allows. -/
theorem fanUpdate_volts (hm : fanMoves x = true) (hs : x.state ≠ .blind) (hh : x.held = false) (hv : x.runSpeed = false)
    (hb : enabledBands x = []) {top goal out : Nat} (htop : top = fanTop { x with fanpv := rd.fanpv })
    (hgoal : goal = 10 * min x.run top) (hout : out = min x.out (10 * top)) :
    ∃ y, (fanUpdate f rd s).fans[f] = some y ∧
      y.out = (if out < goal then min goal (out + fanRamp x) else max goal (out - fanRamp x)) ∧
      y.dropout = decide (top < x.run) := by
  obtain ⟨u, l, d, i, n, e⟩ := fanUpdate_ramps (rd := rd) hx hm
  obtain ⟨o, ej⟩ := fanJudged_only rd l d x
  generalize hy : fanJudged rd l d x = y at e ej
  have hby : enabledBands y = [] := ej ▸ hb
  have ha : fanAsks u f y = (x.run, false) := by
    subst ej
    exact fanAsks_volts hb hs hh hv
  subst htop hgoal hout
  refine ⟨_, e, ?_, ?_⟩
  · refine (rampStep_noBands hby _).trans ?_
    rw [fanGoal_noBands hby ha, ej]
    rfl
  · show decide (fanTop y < (fanAsks u f y).1) = _
    rw [ha, ej]
    rfl

end

/-! ### Tach loss and faults (R255, R256) -/

section
variable {f : Fin 4} {x : Fan} {mv : Nat} {s : State}

/-- The source of a fan. -/
def fanSrc (f : Fin 4) : Fin 192 := ⟨146 + f.val, by omega⟩

theorem fanFails_within_self (f : Fin 4) (s : State) : Within 0x20fa0fb90c3 s (fanFails f s) := fanFails_within f (.refl _ s) (.of rfl)

theorem tachBack_ends (h : isPresent s (146 + f.val) 1 = true) : isPresent (tachBack f s) (146 + f.val) 1 = false := by
  unfold tachBack
  rw [if_neg (by rw [h]; decide),
    isPresent_of_flt ((event_within (L := 0x4a083) _ _ _ _ _ (.refl _ _) (.of rfl)).keeps .flt rfl)]
  exact endCause_absent _ (fanSrc f) 0

section
variable (hx : s.fans[f] = some x)
include hx

theorem tachLoss_latches (hb : s.pwr.burrowing = false) (ht : fanTach x = true) (hs : x.state = .run ∨ x.state = .blind)
    (hq : 4 * expectedTach x ≤ mv) (hp : isPresent s (146 + f.val) 1 = false) :
    Latched (tachLoss f mv s) (146 + f.val) 1 := by
  unfold tachLoss
  rw [hx]
  dsimp -zeta only
  rw [if_neg (by rcases hs with hs | hs <;> simp [ht, hs, hp, hq])]
  extract_lets o s1 s2
  have w : Within 0x800000002 s s1 :=
    setReg_within _ _ (countReg_within _ _ _ _ (modFan_within f _ (.refl _ s) (.of rfl)) (.of rfl)) (.of rfl)
  have h2 : Latched s2 (146 + f.val) 1 := (w.mayRaise ⟨hb, hp⟩ rfl).once (by omega) (by decide)
  split
  · exact (event_within (L := 0x4a083) _ _ _ _ _ (.refl _ _) (.of rfl)).latched h2 rfl
  · exact h2

theorem fanFault_short (hb : s.pwr.burrowing = false) (hm : fanMoves x = true) (hv : 20 * fanSeen s f mv < x.out) :
    Latched (fanFault f (.short mv) s) (146 + f.val) 2 := by
  unfold fanFault
  rw [hx]
  dsimp only
  rw [if_pos (by simp [hm, hv])]
  exact (fanFails_within_self f s).raises (by decide) (by omega) (by decide) hb

theorem fanFault_ov (hb : s.pwr.burrowing = false) (hv : x.out + 10000 < 10 * fanSeen s f mv)
    (hp : isPresent s (146 + f.val) 3 = false) : Latched (fanFault f (.ov mv) s) (146 + f.val) 3 := by
  unfold fanFault
  rw [hx]
  dsimp only
  rw [if_pos hv]
  exact ((Within.ite (.refl _ s) (fanFails_within_self f s)).mayRaise ⟨hb, hp⟩ rfl).once (by omega) (by decide)

theorem fanBlind_enters (hh : x.held = true) (hs : x.state = .run) : fanBlind f s = arbitrate (forceGrant
    (.fan f.val) (fanTier x) (blindClaim x)
    (modFan f (fun y => { y with state := .blind, ramping := true, bandMoved := false }) (withdrawFan f s))) := by
  unfold fanBlind
  rw [hx]
  exact if_neg (by simp [hh, hs])

theorem fanSpinupEnd_runs (hs : x.state = .spinup) : (fanSpinupEnd f s).fans[f] = some { x with state := .run } :=
  (modFan_self hx _).trans (congrArg some (if_pos hs))

theorem fanNotSettled_ends {a : Word} {it : Item} (hm : x.runSpeed = true) (ha : x.item = some a)
    (hi : findItem s a = some it) (hw : it.phase = .working) (ht : 30000000 ≤ sinceT (now s) it.began) :
    fanNotSettled f s =
      complete a .done 0x12 (fanResult x) (modFan f (fun y => { y with item := none, settled := 0 }) s) := by
  unfold fanNotSettled fanItemDone
  rw [hx]
  dsimp only
  rw [ha]
  exact if_pos (by rw [hm, Option.getD_some, itemAt_of_find hi]; simp [hw, ht])

end

end

/-- Settles O49: FAN_SET by the order of its judgements (`fanSet_judges`, `fanGoesOn`), an update by the fan that it judges
and the step of its ramp (`fanUpdate_ramps`), of which without bands no more than the distance is left
(`rampStep_noBands`), a cause by what goes before its raise. -/
theorem fansAreSetAndRun : Obligations.FansAreSetAndRun := by
  unfold Obligations.FansAreSetAndRun
  refine ⟨fun a it f x y s u h hf hx hy => ⟨fun hh => ?_, fun hh => ⟨fun e hb he => ?_, fun hp => ⟨fun ht => ?_, fun ht =>
    ⟨fun hs hn => ?_, fun hs => ?_⟩⟩⟩⟩, fun f x rd mv s hx => ⟨?_, fun hm hs hh hv hb top htop goal hgoal out hout => ?_,
    fun hb => ⟨fun ht hs hq hp => ?_, fun hm hv => ?_, fun hv hp => ?_⟩, fun hh hs => ?_, fun hp => ?_, fun hs => ?_,
    fun a it hm ha hi hw ht => ?_⟩⟩
  · exact h.finishes (congrArg Host.Outcome.next ((fanSet_judges h hf hx hy).trans (if_pos hh)))
  · exact h.finishes (congrArg Host.Outcome.next (fanSet_refusesParameters h hf hx hy hh hb he))
  · exact h.finishes (congrArg Host.Outcome.next ((fanSet_judgesTarget h hf hx hy hh hp).trans (if_pos (by rw [ht]; rfl))))
  · refine h.finishes (congrArg Host.Outcome.next ((fanSet_judgesTarget h hf hx hy hh hp).trans ?_))
    rw [if_neg (by rw [ht]; decide), if_pos (by rw [hs, hn]; rfl)]
  · have goesOn := fanSet_goesOn h hf hx hy hh hp ht hs
    refine ⟨fun hf => ?_, fun hf hb => ?_, fun hf hb mw hw => ⟨fun hg => ?_, fun h0 hg => ?_⟩⟩
    · exact h.finishes (congrArg Host.Outcome.next (goesOn.trans (fanGoesOn_faulted hf)))
    · exact h.finishesIn (t := setFan f _ u) rfl (congrArg Host.Outcome.next (goesOn.trans (fanGoesOn_stores hf hb)))
    · exact congrArg Host.Outcome.next (goesOn.trans (fanGoesOn_served hf hb hy hw hg))
    · exact h.asksBudget (congrArg Host.Outcome.next (goesOn.trans (fanGoesOn_asks hf hb hy hw h0 hg)))
  · obtain ⟨y, hy, hv, hs, hr⟩ := fanUpdate_reads (rd := rd) hx
    exact ⟨_, rfl, y, hy, hv, hs, fun us hu ht => hr.trans (fanReads_rpm hu ht), fun hn => hr.trans (fanReads_rpmStands hn)⟩
  · exact ⟨_, rfl, fanUpdate_volts hx hm hs hh hv hb htop hgoal hout⟩
  · exact ⟨_, rfl, tachLoss_latches hx hb ht hs hq hp⟩
  · exact ⟨_, rfl, fanFault_short hx hb hm hv⟩
  · exact ⟨_, rfl, fanFault_ov hx hb hv hp⟩
  · exact congrArg Host.Outcome.next (fanBlind_enters hx hh hs)
  · exact ⟨_, rfl, tachBack_ends hp⟩
  · exact ⟨_, rfl, fanSpinupEnd_runs hx hs⟩
  · refine ⟨_, congrArg Host.Outcome.next (fanNotSettled_ends hx hm ha hi hw ht), ?_⟩
    exact complete_answers (s := modFan f _ s) hi _ _ _

end Sys2Proof.Machine

/-! PROOFS. The state at large: what a step answers, and which parts of the state a command may change. -/

namespace Sys2Proof.Machine

/-! ### Frames -/

/-- A mask lies within that of `touches c` when it lies within the list that `touches c` is: a list without operands, so that
both masks are numerals. -/
theorem Sub.touched {c : Instr} {A : Nat} {p : Part} {l : List Part} (e : touches c = p :: l)
    (h : A &&& partMask (p :: l) = A) : Sub A (partMask (touches c)) := by
  rw [e]
  exact h

/-- So does the mask of a command that may end a run, no shutdown toward BURROW being under way. -/
theorem Sub.touchedCalm {c : Instr} {s : State} {A : Nat} {p : Part} {l : List Part} (m : mayEndRun c = true)
    (b : mayEndRun c = false ∨ s.pwr.burrowing = false) (e : touches c = p :: l) (h : A &&& partMask (p :: l) = A) :
    Sub (orAll s A) (partMask (touches c)) := by
  rw [e]
  exact .calm (b.resolve_left (by rw [m]; decide)) h

/-- Each command changes the parts that `touches` lists for it, and no others. -/
theorem exec_touches (c : Instr) {s : State} (h : mayEndRun c = false ∨ s.pwr.burrowing = false) :
    WithinOut (partMask (touches c)) s (exec c s) :=
  match c, h with
  | .coldStart w, _ => execColdStart_within w (.refl _ s) (.touched rfl rfl)
  | .bootHoldClear w, _ => execBootHoldClear_within w (.refl _ s) (.touched rfl rfl)
  | .acinValid mv, _ => execAcinValid_within mv (.refl _ s) (.touched rfl rfl)
  | .acinInvalid mv, _ => execAcinInvalid_within mv (.refl _ s) (.touched rfl rfl)
  | .mainsLoss, _ => execMainsLoss_within (.refl _ s) (.touched rfl rfl)
  | .mainsPresence, _ => execMainsPresence_within (.refl _ s) (.touched rfl rfl)
  | .sns1Qualify high, _ => execSns1Qualify_within high (.refl _ s) (.touched rfl rfl)
  | .hostAutoRun, h => execHostAutoRun_within (.refl _ s) (.touchedCalm rfl h rfl rfl)
  | .rootStop, _ => execRootStop_within (.refl _ s) (.touched rfl rfl)
  | .powerFail edges, _ => execPowerFail_within edges (.refl _ s) (.touched rfl rfl)
  | .uvBurrow batsns, _ => execUvBurrow_within batsns (.refl _ s) (.touched rfl rfl)
  | .burrowExitBtn w, _ => execBurrowExitBtn_within w (.refl _ s) (.touched rfl rfl)
  | .burrowExitAcin w, _ => execBurrowExitAcin_within w (.refl _ s) (.touched rfl rfl)
  | .shake, _ => execShake_within (.refl _ s) (.touched rfl rfl)
  | .shakePowerOff, _ => execShakePowerOff_within (.refl _ s) (.touched rfl rfl)
  | .shakeOffTimeEnd w, _ => execShakeOffTimeEnd_within w (.refl _ s) (.touched rfl rfl)
  | .hrstRelease, _ => execHrstRelease_within (.refl _ s) (.touched rfl rfl)
  | .glbModeWrite v, h => execGlbModeWrite_within v (.refl _ s) (.touchedCalm rfl h rfl rfl)
  | .registerWrite src addr be v, h => execRegisterWrite_within src addr be v (.refl _ s) (.touchedCalm rfl h rfl rfl)
  | .dentimeLoRead src, _ => execDentimeLoRead_within src (.refl _ s) (.touched rfl rfl)
  | .authtagLoRead src k, _ => execAuthtagLoRead_within src k (.refl _ s) (.touched rfl rfl)
  | .hbeatLoRead src, _ => execHbeatLoRead_within src (.refl _ s) (.touched rfl rfl)
  | .glbEpochHiWrite v, h => execGlbEpochHiWrite_within v (.refl _ s) (.touchedCalm rfl h rfl rfl)
  | .glbEpochLoWrite v, h => execGlbEpochLoWrite_within v (.refl _ s) (.touchedCalm rfl h rfl rfl)
  | .glbKeyfuseWrite v, h => execGlbKeyfuseWrite_within v (.refl _ s) (.touchedCalm rfl h rfl rfl)
  | .keyfuseDone, _ => execKeyfuseDone_within (.refl _ s) (.touched rfl rfl)
  | .clkDselWrite d v, h => execClkDselWrite_within d v (.refl _ s) (.touchedCalm rfl h rfl rfl)
  | .linkIpendWrite v, h => execLinkIpendWrite_within v (.refl _ s) (.touchedCalm rfl h rfl rfl)
  | .chgIntsrcWrite v, h => execChgIntsrcWrite_within v (.refl _ s) (.touchedCalm rfl h rfl rfl)
  | .ringCfgWrite addr v, h => execRingCfgWrite_within addr v (.refl _ s) (.touchedCalm rfl h rfl rfl)
  | .linkPollWrite v, h => execLinkPollWrite_within v (.refl _ s) (.touchedCalm rfl h rfl rfl)
  | .holdSet, _ => execHoldSet_within (.refl _ s) (.touched rfl rfl)
  | .holdRelease, _ => execHoldRelease_within (.refl _ s) (.touched rfl rfl)
  | .holdReleaseWait, _ => execHoldReleaseWait_within (.refl _ s) (.touched rfl rfl)
  | .bmeSet cfg ack, _ => execBmeSet_within cfg ack (.refl _ s) (.touched rfl rfl)
  | .bmeClear cfg ack, _ => execBmeClear_within cfg ack (.refl _ s) (.touched rfl rfl)
  | .perstAssert, _ => execPerstAssert_within (.refl _ s) (.touched rfl rfl)
  | .functionLevelReset, _ => execFunctionLevelReset_within (.refl _ s) (.touched rfl rfl)
  | .linkTrainingStart, _ => execLinkTrainingStart_within (.refl _ s) (.touched rfl rfl)
  | .linkDown, h => execLinkDown_within (.refl _ s) (.touchedCalm rfl h rfl rfl)
  | .linkRetrain, _ => execLinkRetrain_within (.refl _ s) (.touched rfl rfl)
  | .l1Entry sub, _ => execL1Entry_within sub (.refl _ s) (.touched rfl rfl)
  | .l1Exit byPoll, _ => execL1Exit_within byPoll (.refl _ s) (.touched rfl rfl)
  | .vectorUnmask v, _ => execVectorUnmask_within v (.refl _ s) (.touched rfl rfl)
  | .doorbellPoll page, h => execDoorbellPoll_within page (.refl _ s) (.touchedCalm rfl h rfl rfl)
  | .dmaReadFail what e, h => execDmaReadFail_within what e (.refl _ s) (.touchedCalm rfl h rfl rfl)
  | .aerUncorrectable status correctable, h => execAerUncorrectable_within status correctable (.refl _ s) (.touchedCalm rfl h rfl rfl)
  | .descriptorArrival q d, _ => execDescriptorArrival_within q d (.refl _ s) (.touched rfl rfl)
  | .journalWriteDone okA okB, h => execJournalWriteDone_within okA okB (.refl _ s) (.touchedCalm rfl h rfl rfl)
  | .journalCompaction, _ => execJournalCompaction_within (.refl _ s) (.touched rfl rfl)
  | .completionPost cq, _ => execCompletionPost_within cq (.refl _ s) (.touched rfl rfl)
  | .reinstateA, _ => execReinstateA_within (.refl _ s) (.touched rfl rfl)
  | .reinstateB, _ => execReinstateB_within (.refl _ s) (.touched rfl rfl)
  | .reinstateDone ok, h => execReinstateDone_within ok (.refl _ s) (.touchedCalm rfl h rfl rfl)
  | .biOpen v, _ => execBiOpen_within v (.refl _ s) (.touched rfl rfl)
  | .biDataWrite v, _ => execBiDataWrite_within v (.refl _ s) (.touched rfl rfl)
  | .biCommit v, _ => execBiCommit_within v (.refl _ s) (.touched rfl rfl)
  | .biCommitDone ok, _ => execBiCommitDone_within ok (.refl _ s) (.touched rfl rfl)
  | .nop aseq, _ => execNop_within aseq (.refl _ s) (.touched rfl rfl)
  | .fence aseq, _ => execFence_within aseq (.refl _ s) (.touched rfl rfl)
  | .owlFeed aseq, h => execOwlFeed_within aseq (.refl _ s) (.touchedCalm rfl h rfl rfl)
  | .handleCreate aseq table, _ => execHandleCreate_within aseq table (.refl _ s) (.touched rfl rfl)
  | .handleDestroy aseq, h => execHandleDestroy_within aseq (.refl _ s) (.touchedCalm rfl h rfl rfl)
  | .railSetV aseq, h => execRailSetV_within aseq (.refl _ s) (.touchedCalm rfl h rfl rfl)
  | .railEnable aseq vmeas, _ => execRailEnable_within aseq vmeas (.refl _ s) (.touched rfl rfl)
  | .railDisable aseq, h => execRailDisable_within aseq (.refl _ s) (.touchedCalm rfl h rfl rfl)
  | .railGang aseq, _ => execRailGang_within aseq (.refl _ s) (.touched rfl rfl)
  | .railLimits aseq, _ => execRailLimits_within aseq (.refl _ s) (.touched rfl rfl)
  | .seqGraphRun aseq, h => execSeqGraphRun_within aseq (.refl _ s) (.touchedCalm rfl h rfl rfl)
  | .relaySet aseq, h => execRelaySet_within aseq (.refl _ s) (.touchedCalm rfl h rfl rfl)
  | .motorHome aseq, _ => execMotorHome_within aseq (.refl _ s) (.touched rfl rfl)
  | .motorMove aseq, _ => execMotorMove_within aseq (.refl _ s) (.touched rfl rfl)
  | .motorStop aseq, _ => execMotorStop_within aseq (.refl _ s) (.touched rfl rfl)
  | .fanSet aseq, _ => execFanSet_within aseq (.refl _ s) (.touched rfl rfl)
  | .adcSeqStart aseq, _ => execAdcSeqStart_within aseq (.refl _ s) (.touched rfl rfl)
  | .adcSeqStop aseq, _ => execAdcSeqStop_within aseq (.refl _ s) (.touched rfl rfl)
  | .adcUrgent aseq, _ => execAdcUrgent_within aseq (.refl _ s) (.touched rfl rfl)
  | .twbXfer aseq buf, _ => execTwbXfer_within aseq buf (.refl _ s) (.touched rfl rfl)
  | .twbCensus aseq answers, _ => execTwbCensus_within aseq answers (.refl _ s) (.touched rfl rfl)
  | .chgSet aseq, _ => execChgSet_within aseq (.refl _ s) (.touched rfl rfl)
  | .lendSet aseq, _ => execLendSet_within aseq (.refl _ s) (.touched rfl rfl)
  | .liftSet aseq, _ => execLiftSet_within aseq (.refl _ s) (.touched rfl rfl)
  | .gaugeRebase aseq, h => execGaugeRebase_within aseq (.refl _ s) (.touchedCalm rfl h rfl rfl)
  | .budgetSet aseq, h => execBudgetSet_within aseq (.refl _ s) (.touchedCalm rfl h rfl rfl)
  | .leashSet aseq, _ => execLeashSet_within aseq (.refl _ s) (.touched rfl rfl)
  | .thermalSet aseq, h => execThermalSet_within aseq (.refl _ s) (.touchedCalm rfl h rfl rfl)
  | .calSnapshot aseq, _ => execCalSnapshot_within aseq (.refl _ s) (.touched rfl rfl)
  | .calRestore aseq image, _ => execCalRestore_within aseq image (.refl _ s) (.touched rfl rfl)
  | .calRun aseq first second words, h => execCalRun_within aseq first second words (.refl _ s) (.touchedCalm rfl h rfl rfl)
  | .arm aseq, _ => execArm_within aseq (.refl _ s) (.touched rfl rfl)
  | .disarm aseq, _ => execDisarm_within aseq (.refl _ s) (.touched rfl rfl)
  | .faultClear aseq vmeas, h => execFaultClear_within aseq vmeas (.refl _ s) (.touchedCalm rfl h rfl rfl)
  | .faultReactionSet aseq, h => execFaultReactionSet_within aseq (.refl _ s) (.touchedCalm rfl h rfl rfl)
  | .burrowEnter aseq, _ => execBurrowEnter_within aseq (.refl _ s) (.touched rfl rfl)
  | .bootImageWrite aseq image verified, _ => execBootImageWrite_within aseq image verified (.refl _ s) (.touched rfl rfl)
  | .journalRead aseq, _ => execJournalRead_within aseq (.refl _ s) (.touched rfl rfl)
  | .serviceGrant aseq, _ => execServiceGrant_within aseq (.refl _ s) (.touched rfl rfl)
  | .deferredItemServed vmeas, h => execDeferredItemServed_within vmeas (.refl _ s) (.touchedCalm rfl h rfl rfl)
  | .deferTmo aseq, h => execDeferTmo_within aseq (.refl _ s) (.touchedCalm rfl h rfl rfl)
  | .unshedHoldExpiry, _ => execUnshedHoldExpiry_within (.refl _ s) (.touched rfl rfl)
  | .capBattUpdate batsns, _ => execCapBattUpdate_within batsns (.refl _ s) (.touched rfl rfl)
  | .timeTrigger, _ => execTimeTrigger_within (.refl _ s) (.touched rfl rfl)
  | .armDelayExpiry slot, _ => execArmDelayExpiry_within slot (.refl _ s) (.touched rfl rfl)
  | .xclkLoss, _ => execXclkLoss_within (.refl _ s) (.touched rfl rfl)
  | .rootLock, h => execRootLock_within (.refl _ s) (.touchedCalm rfl h rfl rfl)
  | .lockFailRetry, h => execLockFailRetry_within (.refl _ s) (.touchedCalm rfl h rfl rfl)
  | .xclkQualified, h => execXclkQualified_within (.refl _ s) (.touchedCalm rfl h rfl rfl)
  | .emberBad, h => execEmberBad_within (.refl _ s) (.touchedCalm rfl h rfl rfl)
  | .trimWindow cycles, _ => execTrimWindow_within cycles (.refl _ s) (.touched rfl rfl)
  | .sofMark cycles, _ => execSofMark_within cycles (.refl _ s) (.touched rfl rfl)
  | .stuckTimer d, h => execStuckTimer_within d (.refl _ s) (.touchedCalm rfl h rfl rfl)
  | .laneRemeasure n mv, _ => execLaneRemeasure_within n mv (.refl _ s) (.touched rfl rfl)
  | .laneSlewDone n, h => execLaneSlewDone_within n (.refl _ s) (.touchedCalm rfl h rfl rfl)
  | .laneFault n c, h => execLaneFault_within n c (.refl _ s) (.touchedCalm rfl h rfl rfl)
  | .laneSupplyRecover n mv, _ => execLaneSupplyRecover_within n mv (.refl _ s) (.touched rfl rfl)
  | .laneDropout n on, _ => execLaneDropout_within n on (.refl _ s) (.touched rfl rfl)
  | .railPgAssert r mv, h => execRailPgAssert_within r mv (.refl _ s) (.touchedCalm rfl h rfl rfl)
  | .pgTmo r, h => execPgTmo_within r (.refl _ s) (.touchedCalm rfl h rfl rfl)
  | .prebiasTmo r, h => execPrebiasTmo_within r (.refl _ s) (.touchedCalm rfl h rfl rfl)
  | .gangDone r, _ => execGangDone_within r (.refl _ s) (.touched rfl rfl)
  | .autoShed r current, _ => execAutoShed_within r current (.refl _ s) (.touched rfl rfl)
  | .rsCorrection r remote, h => execRsCorrection_within r remote (.refl _ s) (.touchedCalm rfl h rfl rfl)
  | .senseLost r remote local_, h => execSenseLost_within r remote local_ (.refl _ s) (.touchedCalm rfl h rfl rfl)
  | .senseFrozen r amplitude, h => execSenseFrozen_within r amplitude (.refl _ s) (.touchedCalm rfl h rfl rfl)
  | .windowUv r mv, h => execWindowUv_within r mv (.refl _ s) (.touchedCalm rfl h rfl rfl)
  | .windowOv r mv, h => execWindowOv_within r mv (.refl _ s) (.touchedCalm rfl h rfl rfl)
  | .graphNodeStart g ix vmeas, h => execGraphNodeStart_within g ix vmeas (.refl _ s) (.touchedCalm rfl h rfl rfl)
  | .graphNodeDone g ix, h => execGraphNodeDone_within g ix (.refl _ s) (.touchedCalm rfl h rfl rfl)
  | .graphNodeTmo g ix, h => execGraphNodeTmo_within g ix (.refl _ s) (.touchedCalm rfl h rfl rfl)
  | .chgStateChange batsns, _ => execChgStateChange_within batsns (.refl _ s) (.touched rfl rfl)
  | .chgTerminate, h => execChgTerminate_within (.refl _ s) (.touchedCalm rfl h rfl rfl)
  | .chgRecharge batsns, _ => execChgRecharge_within batsns (.refl _ s) (.touched rfl rfl)
  | .preTmo, h => execPreTmo_within (.refl _ s) (.touchedCalm rfl h rfl rfl)
  | .safetyTmo, h => execSafetyTmo_within (.refl _ s) (.touchedCalm rfl h rfl rfl)
  | .inputAdapt vin, _ => execInputAdapt_within vin (.refl _ s) (.touched rfl rfl)
  | .chgFault c, h => execChgFault_within c (.refl _ s) (.touchedCalm rfl h rfl rfl)
  | .batswOpenFail diff, h => execBatswOpenFail_within diff (.refl _ s) (.touchedCalm rfl h rfl rfl)
  | .gaugeSample ma batsns, h => execGaugeSample_within ma batsns (.refl _ s) (.touchedCalm rfl h rfl rfl)
  | .senseRange, h => execSenseRange_within (.refl _ s) (.touchedCalm rfl h rfl rfl)
  | .batteryRest batsns, h => execBatteryRest_within batsns (.refl _ s) (.touchedCalm rfl h rfl rfl)
  | .cutoffPend batsns, _ => execCutoffPend_within batsns (.refl _ s) (.touched rfl rfl)
  | .cutoff batsns, _ => execCutoff_within batsns (.refl _ s) (.touched rfl rfl)
  | .dsgOc ma, h => execDsgOc_within ma (.refl _ s) (.touchedCalm rfl h rfl rfl)
  | .lendVinReached, _ => execLendVinReached_within (.refl _ s) (.touched rfl rfl)
  | .lendStartDone mv, _ => execLendStartDone_within mv (.refl _ s) (.touched rfl rfl)
  | .lendStop c, _ => execLendStop_within c (.refl _ s) (.touched rfl rfl)
  | .lendFault c, h => execLendFault_within c (.refl _ s) (.touchedCalm rfl h rfl rfl)
  | .liftReached mv, _ => execLiftReached_within mv (.refl _ s) (.touched rfl rfl)
  | .liftFault c, h => execLiftFault_within c (.refl _ s) (.touchedCalm rfl h rfl rfl)
  | .relayPulseEnd n dip peak, h => execRelayPulseEnd_within n dip peak (.refl _ s) (.touchedCalm rfl h rfl rfl)
  | .relayPulseAbort n why peak, h => execRelayPulseAbort_within n why peak (.refl _ s) (.touchedCalm rfl h rfl rfl)
  | .relayRetry n, h => execRelayRetry_within n (.refl _ s) (.touchedCalm rfl h rfl rfl)
  | .motorBridgeOc m, h => execMotorBridgeOc_within m (.refl _ s) (.touchedCalm rfl h rfl rfl)
  | .motorBrakeEnd m pos, _ => execMotorBrakeEnd_within m pos (.refl _ s) (.touched rfl rfl)
  | .motorStall m, h => execMotorStall_within m (.refl _ s) (.touchedCalm rfl h rfl rfl)
  | .motorSupplyLost m, h => execMotorSupplyLost_within m (.refl _ s) (.touchedCalm rfl h rfl rfl)
  | .limitQualified m l active count first, h => execLimitQualified_within m l active count first (.refl _ s) (.touchedCalm rfl h rfl rfl)
  | .limitChatter m l ages, h => execLimitChatter_within m l ages (.refl _ s) (.touchedCalm rfl h rfl rfl)
  | .motorTargetReached m, _ => execMotorTargetReached_within m (.refl _ s) (.touched rfl rfl)
  | .moveTmo m, _ => execMoveTmo_within m (.refl _ s) (.touched rfl rfl)
  | .encoderError m count, h => execEncoderError_within m count (.refl _ s) (.touchedCalm rfl h rfl rfl)
  | .fanUpdate f rd, _ => execFanUpdate_within f rd (.refl _ s) (.touched rfl rfl)
  | .fanTachLost f silent, h => execFanTachLost_within f silent (.refl _ s) (.touchedCalm rfl h rfl rfl)
  | .fanBlind f, _ => execFanBlind_within f (.refl _ s) (.touched rfl rfl)
  | .fanTachBack f, _ => execFanTachBack_within f (.refl _ s) (.touched rfl rfl)
  | .fanFault f c, h => execFanFault_within f c (.refl _ s) (.touchedCalm rfl h rfl rfl)
  | .fanSpinupEnd f, _ => execFanSpinupEnd_within f (.refl _ s) (.touched rfl rfl)
  | .fanNotSettled f, _ => execFanNotSettled_within f (.refl _ s) (.touched rfl rfl)
  | .adcTrigger q, _ => execAdcTrigger_within q (.refl _ s) (.touched rfl rfl)
  | .adcConversionDone c nano, _ => execAdcConversionDone_within c nano (.refl _ s) (.touched rfl rfl)
  | .adcCut c, _ => execAdcCut_within c (.refl _ s) (.touched rfl rfl)
  | .streamFlush st, _ => execStreamFlush_within st (.refl _ s) (.touched rfl rfl)
  | .irqGapEnd, _ => execIrqGapEnd_within (.refl _ s) (.touched rfl rfl)
  | .wmEdge k code, h => execWmEdge_within k code (.refl _ s) (.touchedCalm rfl h rfl rfl)
  | .fcEdge ix mv, h => execFcEdge_within ix mv (.refl _ s) (.touchedCalm rfl h rfl rfl)
  | .blankWindowEnd c input, h => execBlankWindowEnd_within c input (.refl _ s) (.touchedCalm rfl h rfl rfl)
  | .tamper es, h => execTamper_within es (.refl _ s) (.touchedCalm rfl h rfl rfl)
  | .recGapEnd ix, _ => execRecGapEnd_within ix (.refl _ s) (.touched rfl rfl)
  | .tamperClear ix mv, h => execTamperClear_within ix mv (.refl _ s) (.touchedCalm rfl h rfl rfl)
  | .thermalSample die tx, h => execThermalSample_within die tx (.refl _ s) (.touchedCalm rfl h rfl rfl)
  | .dieShutdown sensor die, h => execDieShutdown_within sensor die (.refl _ s) (.touchedCalm rfl h rfl rfl)
  | .dieCooled hottest, h => execDieCooled_within hottest (.refl _ s) (.touchedCalm rfl h rfl rfl)
  | .twbOperationStart p sees alertLow, _ => execTwbOperationStart_within p sees alertLow (.refl _ s) (.touched rfl rfl)
  | .twbAttemptEnd p e, _ => execTwbAttemptEnd_within p e (.refl _ s) (.touched rfl rfl)
  | .twbTimeout p acked addr, _ => execTwbTimeout_within p acked addr (.refl _ s) (.touched rfl rfl)
  | .twbRecovery p sclHigh sdaHigh, h => execTwbRecovery_within p sclHigh sdaHigh (.refl _ s) (.touchedCalm rfl h rfl rfl)
  | .twbBusStuck p, _ => execTwbBusStuck_within p (.refl _ s) (.touched rfl rfl)
  | .alertSweep p rounds stillLow, h => execAlertSweep_within p rounds stillLow (.refl _ s) (.touchedCalm rfl h rfl rfl)
  | .alertHoldEnd p stillLow, _ => execAlertHoldEnd_within p stillLow (.refl _ s) (.touched rfl rfl)
  | .periodicCensus p answers, _ => execPeriodicCensus_within p answers (.refl _ s) (.touched rfl rfl)
  | .usbAttach mv, _ => execUsbAttach_within mv (.refl _ s) (.touched rfl rfl)
  | .usbStandardRequest r, _ => execUsbStandardRequest_within r (.refl _ s) (.touched rfl rfl)
  | .info seq addr, _ => execInfo_within seq addr (.refl _ s) (.touched rfl rfl)
  | .regRead seq addr count arg, _ => execRegRead_within seq addr count arg (.refl _ s) (.touched rfl rfl)
  | .regWrite seq addr count payload, h => execRegWrite_within seq addr count payload (.refl _ s) (.touchedCalm rfl h rfl rfl)
  | .jnlRead seq first count arg, _ => execJnlRead_within seq first count arg (.refl _ s) (.touched rfl rfl)
  | .calRead seq addr, _ => execCalRead_within seq addr (.refl _ s) (.touched rfl rfl)
  | .serviceDescriptor d, _ => execServiceDescriptor_within d (.refl _ s) (.touched rfl rfl)
  | .serviceCompletionAck, _ => execServiceCompletionAck_within (.refl _ s) (.touched rfl rfl)
  | .grantEnd, _ => execGrantEnd_within (.refl _ s) (.touched rfl rfl)
  | .usbVbusOv mv, h => execUsbVbusOv_within mv (.refl _ s) (.touchedCalm rfl h rfl rfl)
  | .usbFlood refused, h => execUsbFlood_within refused (.refl _ s) (.touchedCalm rfl h rfl rfl)
  | .owlExpiry o feed, h => execOwlExpiry_within o feed (.refl _ s) (.touchedCalm rfl h rfl rfl)
  | .owlRung1 o, _ => execOwlRung1_within o (.refl _ s) (.touched rfl rfl)
  | .owlRung2 o, h => execOwlRung2_within o (.refl _ s) (.touchedCalm rfl h rfl rfl)
  | .owlClockStop c, h => execOwlClockStop_within c (.refl _ s) (.touchedCalm rfl h rfl rfl)
  | .hostrstEnd, _ => execHostrstEnd_within (.refl _ s) (.touched rfl rfl)
  | .headValidClear c, _ => execHeadValidClear_within c (.refl _ s) (.touched rfl rfl)
  | .overflowClear c, _ => execOverflowClear_within c (.refl _ s) (.touched rfl rfl)
  | .fltReactWrite n v, h => execFltReactWrite_within n v (.refl _ s) (.touchedCalm rfl h rfl rfl)
  | .linkUp gen2, _ => execLinkUp_within gen2 (.refl _ s) (.touched rfl rfl)
  | .usbDetach mv, _ => execUsbDetach_within mv (.refl _ s) (.touched rfl rfl)
  | .usbSuspend suspended, _ => execUsbSuspend_within suspended (.refl _ s) (.touched rfl rfl)
  | .usbReplyRead, _ => execUsbReplyRead_within (.refl _ s) (.touched rfl rfl)
  | .badCmd seq cmd addr, _ => execBadCmd_within seq cmd addr (.refl _ s) (.touched rfl rfl)
  | .faultCauseEnd src detail, h => execFaultCauseEnd_within src detail (.refl _ s) (.touchedCalm rfl h rfl rfl)
  | .softStopDone r, h => execSoftStopDone_within r (.refl _ s) (.touchedCalm rfl h rfl rfl)

/-- Settles O7: each command keeps within its parts (`exec_touches`), and what is outside their mask stands. -/
theorem framesStand : Obligations.FramesStand := by
  unfold Obligations.FramesStand
  exact fun c _ _ h e => (exec_touches c h).frame e

/-- Settles O3, by what every step keeps of the queue and the outputs (`step_within`). -/
theorem everyStepAnswers : Obligations.EveryStepAnswers := by
  unfold Obligations.EveryStepAnswers
  intro s
  obtain ⟨t, ht, w⟩ := step_within s
  exact ⟨t, ht, w.pending, w.sent⟩

/-- Settles O1, by the branch of `step` for a queue that is not empty. -/
theorem stepRunsFront : Obligations.StepRunsFront := by
  unfold Obligations.StepRunsFront
  intro c rest s h
  unfold step
  rw [h]

end Sys2Proof.Machine

/-! PROOFS. Registers: writes over the link and over the port, and reserved space. -/

namespace Sys2Proof.Machine

/-! ### Who may write (R332, R370, R371) -/

section
variable {s : State} {o : Nat} {be : BitVec 4} {v : Word}

theorem writeAt_reserved (ha : regAccess o = none) : writeAt o be v s = reservedWrite s := by
  unfold writeAt
  rw [ha]

theorem writeAt_whole {a : Acc} (ha : regAccess o = some a) : writeAt o 0xF v s = writeDefined o a v s := by
  unfold writeAt
  rw [ha]
  exact if_pos rfl

theorem writeAt_partial {a : Acc} (ha : regAccess o = some a) (hb : be ≠ 0xF) : writeAt o be v s = partialWrite s := by
  unfold writeAt
  rw [ha]
  exact if_neg hb

theorem linkWrite_open (hd : s.den.up = true) (hl : s.link.dlUp = true) :
    registerWrite .link o be v s = writeAt o be v s := by
  unfold registerWrite
  rw [hd, hl]
  rfl

theorem linkWrite_shut (h : s.den.up = false ∨ s.link.dlUp = false) : registerWrite .link o be v s = s := by
  unfold registerWrite
  rcases h with h | h
  · rw [h]; rfl
  · split
    · rfl
    · rw [h]; rfl

theorem portWrite_up (hd : s.den.up = true) : registerWrite .port o be v s = portWord o v s := by
  unfold registerWrite
  rw [hd]
  rfl

theorem setupGrant_granted (hi : s.pwr.iface = .granted) : setupGrant s = true := by
  unfold setupGrant
  rw [hi]
  rfl

theorem portWord_granted (hi : s.pwr.iface = .granted) (hp : portLocked o = false) :
    portWord o v s = writeAt o 0xF v s := by
  unfold portWord writeGranted
  rw [hp, setupGrant_granted hi, hi]
  rfl

theorem portWord_refused (h : portLocked o = true ∨ portMayWrite s = false) : portWord o v s = s := by
  unfold portWord
  rcases h with h | h
  · rw [h]; rfl
  · obtain ⟨hg, hr⟩ := Bool.or_eq_false_iff.1 h
    rw [hg, hr]
    exact ite_self s

end

theorem scratch_reads {s : State} (g : s.Good) (v : Word) : readReg (setReg 0x0038 v s) 0x0038 = v :=
  reg_setReg _ _ _ g.regs

/-- Settles O17: over the link by `writeAt`'s branches, over the port by what a grant opens (`portWord_granted`,
`portWord_refused`). -/
theorem writesReachTheirRegister : Obligations.WritesReachTheirRegister := by
  unfold Obligations.WritesReachTheirRegister
  refine fun o be v a s => ⟨fun h => ?_, fun hd hl => ⟨fun ha hb => ?_, fun ha hb => ?_, fun g => ?_⟩, fun hd h => ?_,
    fun hd hp hi => ?_⟩
  · exact congrArg Host.Outcome.next (linkWrite_shut h)
  · exact congrArg Host.Outcome.next ((linkWrite_open hd hl).trans (writeAt_partial ha hb))
  · rw [hb]
    exact congrArg Host.Outcome.next ((linkWrite_open hd hl).trans (writeAt_whole ha))
  · exact ⟨_, congrArg Host.Outcome.next ((linkWrite_open hd hl).trans (writeAt_whole (a := { accRO with rw := 0xFFFFFFFF }) rfl)),
      scratch_reads g v⟩
  · exact congrArg Host.Outcome.next ((portWrite_up hd).trans (portWord_refused h))
  · exact congrArg Host.Outcome.next ((portWrite_up hd).trans (portWord_granted hi hp))

/-! ### Reserved space (R370) -/

/-- The last register of BAR0 stands below 0x9800. -/
theorem regAccess_beyond {o : Nat} (h : 0x9800 ≤ o) : regAccess o = none := by
  unfold regAccess accLsh
  grind

/-- A high register of a pair that latches is no reserved offset. -/
theorem authtagHi_defined {o : Nat} (h : (0x0088 ≤ o && o < 0x00A8 && o % 8 = 4) = true) : regAccess o ≠ none := by
  simp only [Bool.and_eq_true, decide_eq_true_eq] at h
  unfold regAccess accGlb
  grind

theorem readBy_reserved {o : Nat} (src : Source) (s : State) (h : regAccess o = none) : readBy src s o = 0 := by
  have hr : readReg s o = 0 := by
    unfold readReg
    rw [h]
    rfl
  unfold readBy
  dsimp only
  split
  · next e => subst e; exact absurd h (by decide)
  · split
    · next e => subst e; exact absurd h (by decide)
    · split
      · next e => exact absurd h (authtagHi_defined e)
      · exact hr

/-- Settles O18: no access code stands from 0x9800 on, and where none stands a read is 0 and a write is `reservedWrite`. -/
theorem reservedSpaceIsCounted : Obligations.ReservedSpaceIsCounted := by
  unfold Obligations.ReservedSpaceIsCounted
  refine fun src o be v s => ⟨regAccess_beyond, fun ha => ⟨readBy_reserved src s ha, fun hd => ⟨fun hl => ?_, fun hi hp => ?_⟩⟩⟩
  · exact congrArg Host.Outcome.next ((linkWrite_open hd hl).trans (writeAt_reserved ha))
  · exact congrArg Host.Outcome.next ((portWrite_up hd).trans ((portWord_granted hi hp).trans (writeAt_reserved ha)))

end Sys2Proof.Machine

/-! PROOFS. The Owls: expiry and the ladder (spec/20). -/

namespace Sys2Proof.Machine

/-! ### What an event leaves of the registers (R71, R112) -/

section
variable {s : State} {o : Nat}

theorem Within.reg {L : Nat} {t : State} (w : Within L s t) (h : L.testBit 1 = false) (o : Nat) : reg t o = reg s o :=
  reg_of_regs (w.keeps .regs h) o

theorem sendVector_reg (v : Nat) (h : o ≠ 0x0410) : reg (sendVector v s) o = reg s o := by
  have h1 : reg (orReg 0x0410 (at_ v 1) s) o = reg s o := reg_setReg_ne _ _ (Ne.symm h)
  have hp {t : State} : reg (pendVector v t) o = reg t o := (pendVector_within (L := 0x81) v (.refl _ t) (.of rfl)).reg rfl o
  unfold sendVector
  dsimp only
  split
  · exact hp.trans h1
  · have h2 : reg (if s.link.cfg.d3hot then pendVector v (orReg 0x0410 (at_ v 1) s)
        else modLink (fun l => { l with wakePend := l.wakePend &&& ~~~(at_ v 1) }) (orReg 0x0410 (at_ v 1) s)) o = reg s o := by
      split
      · exact hp.trans h1
      · exact h1
    split
    · exact h2
    · split <;> exact h2

/-- An event changes LINK_IPEND alone. -/
theorem event_reg (code : BitVec 16) (hd : Word) (i d : Nat) (v : DWord) (h : o ≠ 0x0410) :
    reg (event code hd i d v s) o = reg s o := by
  have hp {t : State} : reg (pendVector 23 t) o = reg t o := (pendVector_within (L := 0x81) 23 (.refl _ t) (.of rfl)).reg rfl o
  unfold event postEvent
  split
  · unfold writeEvent
    dsimp only
    refine (sendVector_reg _ h).trans ((shadowWrite_within (L := 0x81) _ _ (.refl _ _) (.of rfl)).reg rfl o |>.trans ?_)
    exact (memWords_within (L := 0x1) _ _ (.refl _ (modLink _ s)) (.of rfl)).reg rfl o
  · dsimp only
    split <;> exact hp

theorem event_owl (code : BitVec 16) (hd : Word) (i d : Nat) (v : DWord) : (event code hd i d v s).owl = s.owl :=
  (event_within (L := 0x4a083) code hd i d v (.refl _ s) (.of rfl)).keeps .owl rfl

end

/-! ### Single Owls -/

section
variable {s t : State} {o : Fin 2}

theorem modOwl_self (f : Owl → Owl) : (modOwl o f s).owl.owls[o] = f s.owl.owls[o] := upd_self _ _ _

theorem modOwl_ne {p : Fin 2} (h : p ≠ o) (f : Owl → Owl) : (modOwl p f s).owl.owls[o] = s.owl.owls[o] := upd_ne _ _ h

/-- What says whether an Owl rests: the power state, and its own configuration register. -/
theorem owlRests_of (hp : t.pwr.pstate = s.pwr.pstate) (hi : t.pwr.iface = s.pwr.iface) (hu : t.pwr.hostUp = s.pwr.hostUp)
    (hs : t.pwr.strap = s.pwr.strap) (hr : owlReg t o 0 = owlReg s o 0) : owlRests t o = owlRests s o := by
  unfold owlRests hostRests owlVigil battless inRun
  rw [hp, hi, hu, hs, hr]

theorem owlSettle_watch (h : s.owl.owls[o].state = .watch) :
    (owlSettle o s).owl.owls[o].state = if owlRests s o then .paused else .watch := by
  unfold owlSettle
  rw [h]
  dsimp only
  split
  · rw [modOwl_self]
  · exact h

theorem owlReload_state : (owlReload o s).owl.owls[o].state = s.owl.owls[o].state := by
  unfold owlReload
  rw [modOwl_self]
  split <;> rfl

/-- The ladder ends in WATCH, or in PAUSED where the Owl rests (R338, R343, R344). -/
theorem owlEndLadder_state : (owlEndLadder o s).owl.owls[o].state = if owlRests s o then .paused else .watch := by
  unfold owlEndLadder
  rw [owlSettle_watch (by rw [owlReload_state, modOwl_self])]
  rfl

theorem owlEndLadder_ne {p : Fin 2} (h : p ≠ o) : (owlEndLadder p s).owl.owls[o] = s.owl.owls[o] := by
  have hr {t : State} : (owlReload p t).owl.owls[o] = t.owl.owls[o] := modOwl_ne h _
  have hs {t : State} : (owlSettle p t).owl.owls[o] = t.owl.owls[o] := by
    unfold owlSettle
    split
    · split
      · exact modOwl_ne h _
      · rfl
    · split
      · rfl
      · exact hr.trans (modOwl_ne h _)
    · rfl
  exact hs.trans (hr.trans (modOwl_ne h _))

theorem owlEndLadder_pwr (p : Fin 2) : (owlEndLadder p s).pwr = s.pwr :=
  (owlEndLadder_within (L := 0x40000000000) p (.refl _ s) (.of rfl)).keeps .pwr rfl

theorem owlEndLadder_owlReg (p : Fin 2) (r : Nat) : owlReg (owlEndLadder p s) o r = owlReg s o r :=
  (owlEndLadder_within (L := 0x40000000000) p (.refl _ s) (.of rfl)).reg rfl _

end

/-! ### Expiry (R341, R342, R344) -/

section
variable {s : State} {n d : Nat}

theorem owlRung0_latches (o : Fin 2) (c : OwlCause) (hb : s.pwr.burrowing = false) :
    Latched (owlRung0 o c s) (174 + o.val) 1 := by
  unfold owlRung0
  dsimp only
  generalize hu : countReg _ _ _ _ (modOwl o _ s) = u
  have hq : u.pwr.burrowing = false := by
    rw [← hu]
    exact hb
  have hl : Latched (raise (174 + o.val) 1 u) (174 + o.val) 1 := raise_latched (by omega) (by decide) hq
  have h2 := (fireOwl_within (L := 0xf5a0c3) o.val (sendVector_within 21 (event_within 0x1001 0 o.val (owlCauseCode c) 0
    (.refl _ (raise (174 + o.val) 1 u)) (.of rfl)) (.of rfl)) (.of rfl)).latched hl rfl
  split
  · exact h2
  · exact (owlEndLadder_within (L := 0x40000000000) o (.refl _ _) (.of rfl)).latched h2 rfl

theorem owlRung0_quiet (o : Fin 2) (c : OwlCause) (hb : s.pwr.burrowing = false) : (owlRung0 o c s).pwr.burrowing = false :=
  (owlRung0_within (L := 0x73ff8ffb4d7) o c (.refl _ s) (.calm hb rfl)).quiet hb (by decide)

theorem owlGoes_latches (o : Fin 2) (c : OwlCause) (hb : s.pwr.burrowing = false) :
    Latched (owlGoes o c s) (174 + o.val) 1 := by
  unfold owlGoes
  split
  · next h =>
    subst h
    have hr := (coreReset_within (L := 0x7fffcffbed7) (.refl _ _) (.calm (owlRung0_quiet 1 c hb) rfl)).latched
      (owlRung0_latches 1 c hb) rfl
    exact (orReg_within (L := 0x2) 0x0018 0x80 (.refl _ _) (.of rfl)).latched hr rfl
  · exact owlRung0_latches o c hb

theorem owlRunsOut_latches {o : Fin 2} (hb : s.pwr.burrowing = false) (hc : owlCounts s o = true)
    (h0 : s.owl.owls[o].left = 0) : Latched (owlRunsOut o false s) (174 + o.val) 1 := by
  unfold owlRunsOut owlExpires
  rw [if_neg Bool.false_ne_true, if_neg (not_not_intro h0), if_pos hc]
  exact owlGoes_latches o .timeout hb

theorem earlyFeed_latches (hb : s.pwr.burrowing = false) (he : owlEn s 0 = true) (hr : inRun s = true)
    (hw : owlEarly s = true) : Latched (owlRunsOut 0 true s) 174 1 := by
  unfold owlRunsOut hostFeed
  rw [if_pos rfl, hw, he, hr]
  exact owlRung0_latches 0 .early hb

/-- A cause outlasts the expiry of every Owl on a clock. -/
theorem expireOn_latched (c : OwlClock) (s0 : State) (hb : s.pwr.burrowing = false) (h : Latched s n d) :
    Latched (expireOn c s0 s) n d :=
  (expireOn_within (L := 0x7fffcffbed7) c s0 (.refl _ s) (.calm hb rfl)).latched h rfl

/-- The cause of FSRC 172 that stands for a clock. -/
def clockCause (c : OwlClock) : Nat := if c = .wdt then 1 else 2

theorem owlClockStop_latches {c : OwlClock} (hb : s.pwr.burrowing = false) (hd : s.den.up = true)
    (hw : c = .wdt → s.owl.wdtStopped = false ∧ isPresent s 172 1 = false)
    (he : c = .ember → s.owl.emberStopped = false ∧ isPresent s 172 2 = false) :
    Latched (owlClockStop c s) 172 (clockCause c) := by
  have hs : (if c = .wdt then s.owl.wdtStopped else s.owl.emberStopped) = false ∧ isPresent s 172 (clockCause c) = false := by
    cases c
    · exact hw rfl
    · exact he rfl
  unfold owlClockStop
  dsimp only
  rw [if_neg (by simpa [hd] using hs.1)]
  generalize hu : ({ s with owl := _ } : State) = u
  have hm : MayRaise u 172 (clockCause c) := by
    rw [← hu]
    exact ⟨hb, hs.2⟩
  have hl : Latched (raiseOnce 172 (clockCause c) u) 172 (clockCause c) := hm.once (by decide) (by cases c <;> decide)
  have hq : (raiseOnce 172 (clockCause c) u).pwr.burrowing = false :=
    (raiseOnce_within (L := 0x73ff8ffb4d7) _ _ (.refl _ u) (.calm hm.quiet rfl)).quiet hm.quiet (by decide)
  show Latched (owlMoves c (expireOn c s (raiseOnce 172 (clockCause c) u))) 172 (clockCause c)
  exact (owlMoves_within (L := 0x40000000002) c (.refl _ _) (.of rfl)).latched (expireOn_latched c s hq hl) rfl

end

/-! ### The ladder (R344, R346) -/

section
variable {s : State} {o : Fin 2}

theorem owlRungOne_due (h : rungDue s o 1 = true) : owlRungOne o s =
    if inHush s || !owlRung1En s o then
      (if owlRung2En s o then modOwl o (fun x => { x with rung := 2, left := owlDly2 s o }) s
       else owlEndLadder o (modOwl o (fun x => { x with rung := 2, left := owlDly2 s o }) s))
    else event 0x1002 0 o.val 1 0 (modPwr (fun p => { p with hrst := { p.hrst with pulse := true } })
      (modOwl o (fun x => { x with state := .resetting }) (modOwl o (fun x => { x with rung := 2, left := owlDly2 s o }) s))) := by
  unfold owlRungOne
  rw [h]
  rfl

theorem rungOne_passed (h : inHush s = true ∨ owlRung1En s o = false) : (inHush s || !owlRung1En s o) = true := by
  rcases h with h | h <;> simp [h]

theorem owlRungTwo_due (hn : s.owl.owls[o].off = none) (h : rungDue s o 2 = true) {e : State}
    (he : e = event 0x1002 0 o.val 2 0 (modOwl o (fun x => { x with state := .cycling }) s)) : owlRungTwo o s =
    if !owlRung2En s o then owlEndLadder o s
    else if (nth s.graphs (hostGraph s) none).isNone then
      (if owlMaxCycles s o ≤ s.owl.owls[o].cycles then afterRun (.owlDown o false) e else owlEndLadder o e)
    else if owlMaxCycles s o ≤ s.owl.owls[o].cycles then settle (hostRun true (.owlDown o false) e)
    else if inHush s then settle (hostRun false (.owlUp o) (rootWake e))
    else settle (hostRun true (.owlDown o true) e) := by
  unfold owlRungTwo
  rw [hn, h, he]
  simp only [reduceCtorEq, if_false, Bool.not_true, Bool.false_eq_true, decide_eq_true_eq]

theorem owlRungTwo_withGraph (hn : s.owl.owls[o].off = none) (h : rungDue s o 2 = true) {e : State}
    (he : e = event 0x1002 0 o.val 2 0 (modOwl o (fun x => { x with state := .cycling }) s)) (h2 : owlRung2En s o = true)
    (hg : nth s.graphs (hostGraph s) none ≠ none) : owlRungTwo o s =
    if owlMaxCycles s o ≤ s.owl.owls[o].cycles then settle (hostRun true (.owlDown o false) e)
    else if inHush s then settle (hostRun false (.owlUp o) (rootWake e))
    else settle (hostRun true (.owlDown o true) e) :=
  (owlRungTwo_due hn h he).trans ((if_neg (by rw [h2]; decide)).trans (if_neg (by simpa using hg)))

/-- Rung 2 without a host graph: GAVE_UP at its limit, else the ladder ends. -/
theorem rungTwo_noGraph {e : State} (he : e = event 0x1002 0 o.val 2 0 (modOwl o (fun x => { x with state := .cycling }) s)) :
    (afterRun (.owlDown o false) e).owl.owls[o].state = .gaveUp ∧
      (owlEndLadder o e).owl.owls[o].state = if owlRests s o then .paused else .watch := by
  have hc : e.owl.owls[o].state = .cycling := by rw [he, event_owl, modOwl_self]
  refine ⟨?_, ?_⟩
  · unfold afterRun
    dsimp only
    rw [if_neg Bool.false_ne_true, if_pos hc, event_owl, modOwl_self]
  · have hp : e.pwr = s.pwr := by rw [he, event_pwr]; rfl
    have hr : owlReg e o 0 = owlReg s o 0 := by
      rw [he]
      exact event_reg (s := modOwl o _ s) _ _ _ _ _ (by omega)
    rw [owlEndLadder_state, owlRests_of (by rw [hp]) (by rw [hp]) (by rw [hp]) (by rw [hp]) hr]

/-- One Owl's part of the end of a pulse. -/
def pulseEndOne (t : State) (o : Fin 2) : State :=
  if t.owl.owls[o].state = .resetting then
    (if owlRung2En t o then modOwl o (fun x => { x with state := .expired }) t else owlEndLadder o t) else t

theorem pulseEnd_eq : pulseEnd s =
    pulseEndOne (pulseEndOne (modPwr (fun p => { p with hrst := { p.hrst with pulse := false } }) s) 0) 1 := rfl

theorem pulseEndOne_pwr (p : Fin 2) : (pulseEndOne s p).pwr = s.pwr := by
  unfold pulseEndOne
  split
  · split
    · rfl
    · exact owlEndLadder_pwr p
  · rfl

theorem pulseEndOne_owlReg (p : Fin 2) (r : Nat) : owlReg (pulseEndOne s p) o r = owlReg s o r := by
  unfold pulseEndOne
  split
  · split
    · rfl
    · exact owlEndLadder_owlReg p r
  · rfl

theorem pulseEndOne_ne {p : Fin 2} (h : p ≠ o) : (pulseEndOne s p).owl.owls[o] = s.owl.owls[o] := by
  unfold pulseEndOne
  split
  · split
    · exact modOwl_ne h _
    · exact owlEndLadder_ne h
  · rfl

theorem pulseEndOne_self (h : s.owl.owls[o].state = .resetting) : (pulseEndOne s o).owl.owls[o].state =
    if owlRung2En s o then .expired else if owlRests s o then .paused else .watch := by
  unfold pulseEndOne
  rw [if_pos h]
  split
  · rw [modOwl_self]
  · exact owlEndLadder_state

theorem pulseEnd_ends : (pulseEnd s).pwr.hrst.pulse = false ∧ (s.owl.owls[o].state = .resetting →
    (pulseEnd s).owl.owls[o].state = if owlRung2En s o then .expired else if owlRests s o then .paused else .watch) := by
  rw [pulseEnd_eq]
  generalize hu : modPwr _ s = u
  have hr : ∀ r, owlReg u o r = owlReg s o r := by rw [← hu]; exact fun _ => rfl
  have rests {t : State} (hp : t.pwr = u.pwr) (h : ∀ r, owlReg t o r = owlReg u o r) :
      owlRung2En t o = owlRung2En s o ∧ owlRests t o = owlRests s o := by
    refine ⟨congrArg (bit · 5) ((h 0).trans (hr 0)), ?_⟩
    have e : owlRests u o = owlRests s o := by rw [← hu]; rfl
    exact (owlRests_of (by rw [hp]) (by rw [hp]) (by rw [hp]) (by rw [hp]) (h 0)).trans e
  refine ⟨?_, fun h => ?_⟩
  · rw [pulseEndOne_pwr, pulseEndOne_pwr, ← hu]
    rfl
  · have h : u.owl.owls[o].state = .resetting := by rw [← hu]; exact h
    obtain rfl | rfl : o = 0 ∨ o = 1 := by omega
    · obtain ⟨he, hs⟩ := rests rfl fun _ => rfl
      rw [pulseEndOne_ne (by decide), pulseEndOne_self h, he, hs]
    · obtain ⟨he, hs⟩ := rests (pulseEndOne_pwr 0) fun r => pulseEndOne_owlReg 0 r
      rw [pulseEndOne_self (by rw [pulseEndOne_ne (by decide)]; exact h), he, hs]

end

/-- Settles O31: an expiry by the raise that its rung 0 makes (`owlRung0_latches`), the rungs by what is enabled
(`owlRungOne_due`, `owlRungTwo_due`), the end of a pulse Owl by Owl (`pulseEnd_ends`). -/
theorem owlsExpire : Obligations.OwlsExpire := by
  unfold Obligations.OwlsExpire
  refine fun o c s hb => ⟨fun hc h0 => ?_, fun he hr hw => ?_, fun hd u hu => ⟨fun hh he => ?_, fun hp h2 => ?_, fun hp h2 => ?_⟩,
    fun hn hd => ⟨fun h2 => ?_, fun h2 => ⟨fun hg => ?_, fun hg u hu => ⟨fun hm => ?_, fun hm hh => ?_, fun hm hh => ?_⟩⟩⟩,
    fun hz => ?_, ?_, fun hd hw he => ?_⟩
  · exact ⟨_, rfl, owlRunsOut_latches hb hc h0⟩
  · exact ⟨_, rfl, earlyFeed_latches hb he hr hw⟩
  · refine ⟨_, congrArg Host.Outcome.next ((owlRungOne_due hd).trans (if_neg (by rw [hh, he]; decide))), ?_⟩
    dsimp only
    rw [event_owl, event_pwr, modPwr_owl, modOwl_self]
    exact ⟨rfl, rfl⟩
  · exact congrArg Host.Outcome.next ((owlRungOne_due hd).trans (by rw [if_pos (rungOne_passed hp), if_pos h2, hu]))
  · exact congrArg Host.Outcome.next ((owlRungOne_due hd).trans (by rw [if_pos (rungOne_passed hp), h2, hu]; rfl))
  · exact congrArg Host.Outcome.next ((owlRungTwo_due hn hd rfl).trans (if_pos (by rw [h2]; rfl)))
  · refine ⟨_, congrArg Host.Outcome.next ((owlRungTwo_due hn hd rfl).trans
      ((if_neg (by rw [h2]; decide)).trans (if_pos (by rw [hg]; rfl)))), ?_⟩
    obtain ⟨gave, ends⟩ := rungTwo_noGraph (s := s) (o := o) rfl
    split
    · exact gave
    · exact ends
  · exact congrArg Host.Outcome.next ((owlRungTwo_withGraph hn hd hu h2 hg).trans (if_pos hm))
  · exact congrArg Host.Outcome.next ((owlRungTwo_withGraph hn hd hu h2 hg).trans
      ((if_neg (by omega)).trans (if_pos hh)))
  · exact congrArg Host.Outcome.next ((owlRungTwo_withGraph hn hd hu h2 hg).trans
      ((if_neg (by omega)).trans (if_neg (by rw [hh]; decide))))
  · exact congrArg Host.Outcome.next (if_pos hz)
  · exact ⟨_, rfl, pulseEnd_ends⟩
  · exact ⟨_, rfl, owlClockStop_latches hb hd hw he⟩

end Sys2Proof.Machine

/-! PROOFS. The service port: its bus, its commands and its ring (spec/19). -/

namespace Sys2Proof.Machine

/-! ### The pull-up (R327, R337) -/

section
variable {s : State} {mv : Nat}

theorem event_usb (code : BitVec 16) (h : Word) (i d : Nat) (v : DWord) (s : State) : (event code h i d v s).usb = s.usb :=
  (event_within (L := 0x4a083) code h i d v (.refl _ s) (.of rfl)).keeps .usb rfl

theorem usbRelease_usb : (usbRelease s).usb = if s.usb.attached then
    { s.usb with attached := false, address := 0, configured := false, halted := [], suspended := false, reply := none }
    else s.usb := by
  unfold usbRelease
  split
  · exact event_usb _ _ _ _ _ _
  · rfl

theorem usbRelease_detached : (usbRelease s).usb.attached = false := by
  rw [usbRelease_usb]
  split
  · rfl
  · next h => simpa using h

theorem usbRelease_latched {n d : Nat} (h : Latched s n d) : Latched (usbRelease s) n d :=
  (usbRelease_within (L := 0x2000004a0c3) (.refl _ s) (.of rfl)).latched h rfl

theorem usbReattach_vbus : (usbReattach s).usb.vbus = s.usb.vbus := by
  unfold usbReattach
  split
  · rfl
  · rw [event_usb]; rfl

theorem usbReattach_attaches (h : usbMay s = true) : (usbReattach s).usb.attached = true := by
  unfold usbReattach
  rw [h]
  split
  · next h => simpa using h
  · rw [event_usb]; rfl

/-- VBUS stands, and in HUSH the root runs for the port: nothing else that the pull-up depends on has changed. -/
def powered (s : State) : State := rootWake (modUsb (fun u => { u with vbus := true }) s)

theorem powered_within (s : State) : Within 0x20000000040 s (powered s) :=
  rootWake_within (modUsb_within _ (.refl _ s) (.of rfl)) (.of rfl)

theorem powered_vbus : (powered s).usb.vbus = true :=
  congrArg Usb.vbus ((rootWake_within (L := 0x40) (.refl _ (modUsb _ s)) (.of rfl)).keeps .usb rfl)

theorem powered_may (hr : inReset s = false) (he : rbit s 0x9000 0 = true) (hi : isolated s 176 = false)
    (hp : isPresent s 176 1 = false) : usbMay (powered s) = true := by
  have w := powered_within s
  have e1 : inReset (powered s) = inReset s := by
    unfold inReset
    rw [show (powered s).pwr = s.pwr from w.keeps .pwr rfl, show (powered s).den = s.den from w.keeps .den rfl]
  have e2 : rbit (powered s) 0x9000 0 = rbit s 0x9000 0 := rbit_of_regs (w.keeps .regs rfl) _ _
  unfold usbMay
  rw [e1, e2, isolated_of (w.keeps .regs rfl) (w.keeps .flt rfl), isPresent_of_flt (w.keeps .flt rfl), powered_vbus, hr, he, hi, hp]
  rfl

theorem usbAttach_eq (hd : s.den.up = true) (hm : 4000 < mv) : usbAttach mv s = usbReattach (powered s) :=
  if_neg (by rw [hd]; simpa using hm)

theorem usbDetach_eq (hd : s.den.up = true) (hm : mv ≤ 4000) :
    usbDetach mv s = modUsb (fun u => { u with vbus := false }) (usbRelease s) :=
  if_neg (by rw [hd]; simpa using hm)

theorem usbDetach_detaches (hd : s.den.up = true) (hm : mv ≤ 4000) : (usbDetach mv s).usb.vbus = false ∧
    (usbDetach mv s).usb.attached = false ∧
    (s.usb.attached = true → (usbDetach mv s).usb.configured = false ∧ (usbDetach mv s).usb.reply = none) := by
  rw [usbDetach_eq hd hm]
  refine ⟨rfl, usbRelease_detached, fun ha => ?_⟩
  rw [modUsb_usb, usbRelease_usb, if_pos ha]
  exact ⟨rfl, rfl⟩

theorem usbSuspend_eq (hd : s.den.up = true) (ha : s.usb.attached = true) (b : Bool) :
    usbSuspend b s = modUsb (fun u => { u with suspended := b }) (if b then sofStops s else s) :=
  if_neg (by rw [hd, ha]; decide)

theorem sofStops_src : (sofStops s).clk.src ≠ .sof := by
  unfold sofStops
  show (if s.clk.src = .sof then TrimSrc.holding else s.clk.src) ≠ .sof
  split
  · decide
  · assumption

theorem usbSuspend_stops (hd : s.den.up = true) (ha : s.usb.attached = true) (b : Bool) :
    (usbSuspend b s).usb.suspended = b ∧ (b = true → (usbSuspend b s).clk.src ≠ .sof) := by
  rw [usbSuspend_eq hd ha]
  refine ⟨rfl, fun hb => ?_⟩
  rw [hb]
  exact sofStops_src

theorem usbFlood_faults (hd : s.den.up = true) (ha : s.usb.attached = true) (hb : s.pwr.burrowing = false)
    (hm : 1000 < mv) : Latched (usbFlood mv s) 176 2 ∧ (usbFlood mv s).usb.attached = false := by
  have e : usbFlood mv s = usbRelease (raiseLatched 176 2 s) := if_neg (by rw [hd, ha]; simpa using hm)
  rw [e]
  exact ⟨usbRelease_latched (raiseLatched_latched (by decide) (by decide) hb), usbRelease_detached⟩

theorem vbusOv_faults (hd : s.den.up = true) (hm : 5500 < mv) (hv : s.usb.vbus = true) (hp : isPresent s 176 1 = false)
    (hb : s.pwr.burrowing = false) : Latched (vbusOv mv s) 176 1 ∧ (vbusOv mv s).usb.attached = false := by
  have e : vbusOv mv s = usbRelease (raise 176 1 s) := if_neg (by rw [hd, hv, hp]; simpa using hm)
  rw [e]
  exact ⟨usbRelease_latched (raise_latched (by decide) (by decide) hb), usbRelease_detached⟩

end

/-! ### Standard requests (R327) -/

section
variable {s : State} (hd : s.den.up = true) (ha : s.usb.attached = true)
include hd ha

/-- A request is judged on a port that is attached. -/
theorem standardRequest_opens : ¬ (!s.den.up || !s.usb.attached) = true := by rw [hd, ha]; decide

theorem setConfiguration_sets {n : Nat} (hn : n ≤ 1) :
    (standardRequest (.setConfiguration n) s).usb.configured = decide (n = 1) ∧
      (standardRequest (.setConfiguration n) s).usb.reply = none ∧
      (standardRequest (.setConfiguration n) s).usb.halted = [] := by
  unfold standardRequest
  rw [if_neg (standardRequest_opens hd ha)]
  obtain rfl | rfl : n = 0 ∨ n = 1 := by omega
  · exact ⟨rfl, rfl, rfl⟩
  · exact ⟨rfl, rfl, rfl⟩

theorem setConfiguration_stalls {n : Nat} (hn : 1 < n) : standardRequest (.setConfiguration n) s = emit .usbStall s :=
  (if_neg (standardRequest_opens hd ha)).trans ((if_neg (by omega)).trans (if_neg (by omega)))

theorem setAddress_takes {n : Nat} (hc : s.usb.configured = false) (hn : n ≤ 127) :
    standardRequest (.setAddress n) s = modUsb (fun u => { u with address := n }) s :=
  (if_neg (standardRequest_opens hd ha)).trans (if_neg (by rw [hc]; simpa using hn))

omit hd ha in
theorem bulkEp_stands {ep : Nat} (hc : s.usb.configured = true) (he : ep ∈ bulkEps) :
    (s.usb.configured && bulkEps.contains ep) = true := by
  rw [hc]
  simpa using he

section
variable {ep : Nat} (hc : s.usb.configured = true) (he : ep ∈ bulkEps)
include hc

theorem interfaceStatus_answers : standardRequest .interfaceStatus s = emit (.usbData [0, 0]) s :=
  (if_neg (standardRequest_opens hd ha)).trans (if_pos hc)

theorem getInterface_answers : standardRequest .getInterface s = emit (.usbData [0]) s :=
  (if_neg (standardRequest_opens hd ha)).trans (if_pos hc)

theorem setInterface_clears : standardRequest (.setInterface 0) s = modUsb (fun u => { u with halted := [] }) s :=
  (if_neg (standardRequest_opens hd ha)).trans (if_pos (by rw [hc]; rfl))

include he

theorem setHalt_halts : standardRequest (.setHalt ep) s =
    modUsb (fun u => { u with halted := u.halted.filter (· ≠ ep) ++ [ep] }) s :=
  (if_neg (standardRequest_opens hd ha)).trans (if_pos (bulkEp_stands hc he))

theorem clearHalt_clears : standardRequest (.clearHalt ep) s =
    modUsb (fun u => { u with halted := u.halted.filter (· ≠ ep) }) s :=
  (if_neg (standardRequest_opens hd ha)).trans (if_pos (bulkEp_stands hc he))

theorem endpointStatus_answers : standardRequest (.endpointStatus ep) s =
    emit (.usbData [if s.usb.halted.contains ep then 1 else 0, 0]) s :=
  (if_neg (standardRequest_opens hd ha)).trans (if_pos (bulkEp_stands hc he))

end

end

/-- Settles O57: the pull-up by `usbReattach` and `usbRelease`, a standard request on an attached port by its own branch, a
fault by the raise before the release. -/
theorem portLivesOnItsBus : Obligations.PortLivesOnItsBus := by
  unfold Obligations.PortLivesOnItsBus
  refine fun mv n ep b s hd => ⟨fun hm => ?_, fun hm => ⟨_, rfl, usbDetach_detaches hd hm⟩, fun ha => ⟨?_, ?_, ?_, ?_, ?_, ?_,
    fun hc hn => ?_, ?_, ?_, fun hc he => ⟨?_, ?_, ?_⟩, fun hc => ⟨?_, ?_, ?_⟩, ?_, ⟨_, rfl, usbSuspend_stops hd ha b⟩,
    fun hm hb => ⟨_, rfl, usbFlood_faults hd ha hb hm⟩⟩, fun hm hv hp hb => ⟨_, rfl, vbusOv_faults hd hm hv hp hb⟩⟩
  · refine ⟨_, congrArg Host.Outcome.next (usbAttach_eq hd hm), usbReattach_vbus.trans powered_vbus, fun hr he hi hp => ?_⟩
    exact usbReattach_attaches (powered_may hr he hi hp)
  · refine ⟨_, rfl, setConfiguration_sets hd ha, fun hn => ?_⟩
    rw [setConfiguration_stalls hd ha hn]
    exact ⟨rfl, rfl⟩
  · exact ⟨_, congrArg Host.Outcome.next (if_neg (standardRequest_opens hd ha)), rfl, rfl, rfl, rfl⟩
  · exact ⟨_, congrArg Host.Outcome.next (if_neg (standardRequest_opens hd ha)), rfl⟩
  · exact ⟨_, congrArg Host.Outcome.next (if_neg (standardRequest_opens hd ha)), rfl⟩
  · exact ⟨_, congrArg Host.Outcome.next (if_neg (standardRequest_opens hd ha)), rfl⟩
  · exact ⟨_, congrArg Host.Outcome.next (if_neg (standardRequest_opens hd ha)), _, _, rfl⟩
  · exact ⟨_, congrArg Host.Outcome.next (setAddress_takes hd ha hc hn), rfl⟩
  · exact ⟨_, congrArg Host.Outcome.next (if_neg (standardRequest_opens hd ha)), rfl⟩
  · exact ⟨_, congrArg Host.Outcome.next (if_neg (standardRequest_opens hd ha)), rfl⟩
  · exact ⟨_, congrArg Host.Outcome.next (setHalt_halts hd ha hc he), List.mem_append_right _ (List.mem_singleton_self ep)⟩
  · exact ⟨_, congrArg Host.Outcome.next (clearHalt_clears hd ha hc he), fun h => by simpa using (List.mem_filter.1 h).2⟩
  · exact ⟨_, congrArg Host.Outcome.next (endpointStatus_answers hd ha hc he), rfl⟩
  · exact ⟨_, congrArg Host.Outcome.next (interfaceStatus_answers hd ha hc), rfl⟩
  · exact ⟨_, congrArg Host.Outcome.next (getInterface_answers hd ha hc), rfl⟩
  · exact ⟨_, congrArg Host.Outcome.next (setInterface_clears hd ha hc), rfl⟩
  · exact ⟨_, congrArg Host.Outcome.next (if_neg (standardRequest_opens hd ha)), rfl, rfl⟩

/-! ### Requests and replies (R329 to R332) -/

section
variable {s : State}

theorem reply_shows (cmd st : Nat) (seq : BitVec 16) (addr : Word) (data : List Word) (s : State) :
    (reply cmd st seq addr data s).usb.reply = some (replyWords cmd st seq addr data s) := by
  unfold reply
  dsimp only
  split <;> rfl

theorem portTakes_of (hw : portWorks s = true) (hh : s.usb.halted.contains 0x01 = false) (hr : s.usb.reply = none) :
    portTakes s = true := by
  unfold portTakes
  rw [hw, hh, hr]
  rfl

theorem judged_clear {cmd : Nat} {seq : BitVec 16} {addr : Word} {l : List Nat} {k : State → State} (h : l = []) :
    judged cmd seq addr l k s = k s := by
  rw [h]
  rfl

theorem judged_fault {cmd : Nat} {seq : BitVec 16} {addr : Word} {l : List Nat} {k : State → State} {e : Nat} (h : l = [e])
    (he : e ≠ 0) : judged cmd seq addr l k s = reply cmd e seq addr [] s := by
  rw [h]
  exact if_neg he

/-- Where two codes are earned one of them shows (notes/assumptions/40.md). -/
theorem statusOf_pair (x y : Nat) (s : State) : (statusOf [x, y] s).1 = x ∨ (statusOf [x, y] s).1 = y := by
  unfold statusOf
  show [x, y].getD ((drawNat s).1 % 2) x = x ∨ [x, y].getD ((drawNat s).1 % 2) x = y
  obtain h | h := Nat.mod_two_eq_zero_or_one (drawNat s).1
  · rw [h]; exact .inl rfl
  · rw [h]; exact .inr rfl

theorem judged_pair {cmd : Nat} {seq : BitVec 16} {addr : Word} {l : List Nat} {k : State → State} {x y : Nat}
    (h : l = [x, y]) (hx : x ≠ 0) (hy : y ≠ 0) : (judged cmd seq addr l k s).usb.reply = some (replyWords cmd x seq addr [] s) ∨
      (judged cmd seq addr l k s).usb.reply = some (replyWords cmd y seq addr [] s) := by
  rw [h]
  unfold judged
  dsimp only
  rcases statusOf_pair x y s with e | e
  · rw [e, if_neg hx]
    exact .inl (reply_shows _ _ _ _ _ _)
  · rw [e, if_neg hy]
    exact .inr (reply_shows _ _ _ _ _ _)

end

section
variable {s : State} {addr count : Word}

theorem countFaults_within {most : Nat} (h1 : 1 ≤ count.toNat) (h2 : count.toNat ≤ most) : countFaults count most = [] :=
  if_neg (by simp only [Bool.or_eq_true, decide_eq_true_eq]; omega)

theorem countFaults_outside {most : Nat} (h : count.toNat = 0 ∨ most < count.toNat) : countFaults count most = [2, 3] :=
  if_pos (by simp only [Bool.or_eq_true, decide_eq_true_eq]; omega)

theorem addrFaults_within (ha : addr.toNat % 4 = 0) (hm : addr.toNat ≤ 0x97FC)
    (hc : count.toNat ≤ 256 → addr.toNat + 4 * count.toNat ≤ 0x9800) : addrFaults addr count = [] :=
  if_neg (by simp only [Bool.or_eq_true, Bool.and_eq_true, decide_eq_true_eq]; omega)

theorem addrFaults_unaligned (ha : addr.toNat % 4 ≠ 0) : addrFaults addr count = [3] :=
  if_pos (by simp [ha])

end

/-! ### REG_READ (R330) -/

section
variable {s : State} {seq : BitVec 16} {addr count arg : Word} (ht : portTakes s = true)
include ht

theorem regRead_judges : regReadCmd seq addr count arg s =
    judged 2 seq addr (countFaults count 256 ++ addrFaults addr count) (fun t =>
      reply 2 0 seq addr (readRun arg count.toNat addr.toNat ([], t)).1 (readRun arg count.toNat addr.toNat ([], t)).2) s :=
  if_neg (by rw [ht]; decide)

theorem regRead_reads (h1 : 1 ≤ count.toNat) (h2 : count.toNat ≤ 256) (ha : addr.toNat % 4 = 0)
    (hm : addr.toNat + 4 * count.toNat ≤ 0x9800) : regReadCmd seq addr count arg s = reply 2 0 seq addr
      (readRun arg count.toNat addr.toNat ([], s)).1 (readRun arg count.toNat addr.toNat ([], s)).2 :=
  (regRead_judges ht).trans (judged_clear (by
    rw [countFaults_within h1 h2, addrFaults_within ha (by omega) (fun _ => hm)]; rfl))

theorem regRead_unaligned (h1 : 1 ≤ count.toNat) (h2 : count.toNat ≤ 256) (ha : addr.toNat % 4 ≠ 0) :
    regReadCmd seq addr count arg s = reply 2 3 seq addr [] s :=
  (regRead_judges ht).trans (judged_fault (by rw [countFaults_within h1 h2, addrFaults_unaligned ha]; rfl) (by decide))

theorem regRead_miscounted (ha : addr.toNat % 4 = 0) (hm : addr.toNat ≤ 0x97FC)
    (hc : count.toNat = 0 ∨ 256 < count.toNat) :
    (regReadCmd seq addr count arg s).usb.reply = some (replyWords 2 2 seq addr [] s) ∨
      (regReadCmd seq addr count arg s).usb.reply = some (replyWords 2 3 seq addr [] s) := by
  rw [regRead_judges ht]
  exact judged_pair (by rw [countFaults_outside hc, addrFaults_within ha hm (by omega)]; rfl) (by decide) (by decide)

end

/-! ### REG_WRITE (R332) -/

section
variable {s : State} {ws : List (Nat × Word)}

/-- A word that takes no effect where the port may not write. -/
theorem foldl_portWord_refused (h : portMayWrite s = false) : ws.foldl (fun t e => portWord e.1 e.2 t) s = s := by
  induction ws with
  | nil => rfl
  | cons e ws ih =>
    rw [List.foldl_cons, portWord_refused (.inr h)]
    exact ih

theorem setupGrant_mayWrite (h : setupGrant s = true) : portMayWrite s = true := by
  unfold portMayWrite
  rw [h]
  rfl

theorem writeFaults_refused (h : portMayWrite s = false) :
    writeFaults s ws = 4 :: (if ws.any (fun e => portLocked e.1) then [5] else []) :=
  if_pos (by rw [h]; rfl)

theorem writeFaults_granted (h : setupGrant s = true) :
    writeFaults s ws = if ws.any (fun e => portLocked e.1) then [5] else [] := by
  unfold writeFaults
  rw [setupGrant_mayWrite h, h]
  exact List.append_nil _

/-- The boot image's registers are none that the port never reaches. -/
theorem repairReg_open {o : Nat} (h : repairReg o = true) : portLocked o = false := by
  unfold repairReg at h
  simp only [Bool.or_eq_true, decide_eq_true_eq] at h
  obtain ((rfl | rfl) | rfl) | rfl := h <;> rfl

theorem writeFaults_repair (hg : setupGrant s = false) (hr : inRepair s = true) (hw : ws.all (fun e => repairReg e.1) = true) :
    writeFaults s ws = [] := by
  rw [List.all_eq_true] at hw
  have hl : ws.any (fun e => portLocked e.1) = false := by
    rw [List.any_eq_false]
    exact fun e he => by rw [repairReg_open (hw e he)]; decide
  have ho : ws.any (fun e => !portLocked e.1 && !repairReg e.1) = false := by
    rw [List.any_eq_false]
    exact fun e he => by rw [hw e he]; simp
  unfold writeFaults portMayWrite
  rw [hg, hr, hl, ho]
  rfl

end

section
variable {s : State} {seq : BitVec 16} {addr count : Word} {payload : List Word} (ht : portTakes s = true)
  (h1 : 1 ≤ count.toNat) (h2 : count.toNat ≤ 256) (ha : addr.toNat % 4 = 0) (hm : addr.toNat + 4 * count.toNat ≤ 0x9800)
include ht h1 h2 ha hm

theorem regWrite_misfits (hp : payload.length ≠ count.toNat) : regWriteCmd seq addr count payload s = reply 3 2 seq addr [] s := by
  refine (if_neg (by rw [ht]; decide)).trans (judged_fault (e := 2) ?_ (by decide))
  rw [countFaults_within h1 h2, addrFaults_within ha (by omega) (fun _ => hm), if_pos hp]
  rfl

/-- A well-formed write answers by what its words earn, and each takes its effect. -/
theorem regWrite_judges (hp : payload.length = count.toNat) : regWriteCmd seq addr count payload s =
    reply 3 (statusOf (writeFaults s (wordsAt addr payload)) s).1 seq addr []
      ((wordsAt addr payload).foldl (fun u e => portWord e.1 e.2 u) (statusOf (writeFaults s (wordsAt addr payload)) s).2) := by
  refine (if_neg (by rw [ht]; decide)).trans (judged_clear ?_)
  rw [countFaults_within h1 h2, addrFaults_within ha (by omega) (fun _ => hm), if_neg (not_not_intro hp)]
  rfl

theorem regWrite_refused (hp : payload.length = count.toNat) (hw : portMayWrite s = false)
    (hl : (wordsAt addr payload).any (fun e => portLocked e.1) = false) :
    regWriteCmd seq addr count payload s = reply 3 4 seq addr [] s := by
  rw [regWrite_judges ht h1 h2 ha hm hp, writeFaults_refused hw, hl]
  exact congrArg (reply 3 4 seq addr []) (foldl_portWord_refused hw)

theorem regWrite_refusedLocked (hp : payload.length = count.toNat) (hw : portMayWrite s = false)
    (hl : (wordsAt addr payload).any (fun e => portLocked e.1) = true) :
    (regWriteCmd seq addr count payload s).usb.reply = some (replyWords 3 4 seq addr [] s) ∨
      (regWriteCmd seq addr count payload s).usb.reply = some (replyWords 3 5 seq addr [] s) := by
  rw [regWrite_judges ht h1 h2 ha hm hp, writeFaults_refused hw, hl, if_pos rfl, reply_shows,
    foldl_portWord_refused (s := (statusOf [4, 5] s).2) hw]
  exact (statusOf_pair 4 5 s).imp (fun e => by rw [e]; rfl) fun e => by rw [e]; rfl

theorem regWrite_granted (hp : payload.length = count.toNat) (hg : setupGrant s = true) :
    regWriteCmd seq addr count payload s =
      reply 3 (if (wordsAt addr payload).any (fun e => portLocked e.1) then 5 else 0) seq addr []
        ((wordsAt addr payload).foldl (fun t e => portWord e.1 e.2 t) s) := by
  rw [regWrite_judges ht h1 h2 ha hm hp, writeFaults_granted hg]
  split <;> rfl

theorem regWrite_repairs (hp : payload.length = count.toNat) (hg : setupGrant s = false) (hr : inRepair s = true)
    (hw : (wordsAt addr payload).all (fun e => repairReg e.1) = true) : regWriteCmd seq addr count payload s =
      reply 3 0 seq addr [] ((wordsAt addr payload).foldl (fun t e => portWord e.1 e.2 t) s) := by
  rw [regWrite_judges ht h1 h2 ha hm hp, writeFaults_repair hg hr hw]
  rfl

end

/-! ### JNL_READ (R331) -/

section
variable {s : State} {seq : BitVec 16} {first count arg : Word} (ht : portTakes s = true)
include ht

theorem jnlRead_judges : jnlReadCmd seq first count arg s = judged 4 seq first
    (if fld arg 1 0 = 3 then [3] else if fld arg 1 0 = 0 then
      countFaults count 64 ++ (if bankIn s (if bit arg 8 then 1 else 0) then [] else [6]) else [])
    (fun t => reply 4 0 seq first (if fld arg 1 0 = 0 then
      (recordsFrom t (if bit arg 8 then 1 else 0) first count.toNat).flatten else imgWords t (fld arg 1 0 - 1)) t) s :=
  if_neg (by rw [ht]; decide)

theorem jnlRead_records (h0 : fld arg 1 0 = 0) : jnlReadCmd seq first count arg s =
    judged 4 seq first (countFaults count 64 ++ (if bankIn s (if bit arg 8 then 1 else 0) then [] else [6]))
      (fun t => reply 4 0 seq first (recordsFrom t (if bit arg 8 then 1 else 0) first count.toNat).flatten t) s := by
  rw [jnlRead_judges ht, h0]
  rfl

theorem jnlRead_image (hw : fld arg 1 0 = 1 ∨ fld arg 1 0 = 2) : jnlReadCmd seq first count arg s =
    reply 4 0 seq first (imgWords s (fld arg 1 0 - 1)) s := by
  refine (jnlRead_judges ht).trans ((judged_clear ?_).trans ?_)
  · rw [if_neg (by omega), if_neg (by omega)]
  · rw [if_neg (by omega)]

theorem jnlRead_unlisted (hw : fld arg 1 0 = 3) : jnlReadCmd seq first count arg s = reply 4 3 seq first [] s :=
  (jnlRead_judges ht).trans (judged_fault (if_pos hw) (by decide))

end

/-- Settles O59: each command by the faults it earns (`regRead_judges`, `regWrite_judges`, `jnlRead_judges`), of which none,
one or two stand. -/
theorem portReadsAndWrites : Obligations.PortReadsAndWrites := by
  unfold Obligations.PortReadsAndWrites
  intro seq addr count arg payload s ht ws hws
  subst hws
  refine ⟨fun h1 h2 ha hm => ⟨fun r hr => ?_, fun hp hw => ⟨fun hl => ?_, fun hl => ?_⟩, fun hp hg => ?_, fun hp hg hr hw => ?_,
    fun hp => ?_⟩, fun ha h1 h2 => ?_, fun ha hm hc => ?_, fun b hb => ⟨fun h0 h1 h2 hi => ?_, fun h0 h1 h2 hi => ?_,
    fun h0 hc hi => ?_, fun hw => ?_, fun hw => ?_⟩⟩
  · exact ⟨_, congrArg Host.Outcome.next (regRead_reads ht h1 h2 ha hm), by rw [hr]; exact reply_shows _ _ _ _ _ _⟩
  · exact ⟨_, congrArg Host.Outcome.next (regWrite_refused ht h1 h2 ha hm hp hw hl), reply_shows _ _ _ _ _ _⟩
  · exact ⟨_, rfl, regWrite_refusedLocked ht h1 h2 ha hm hp hw hl⟩
  · exact ⟨_, rfl, regWrite_granted ht h1 h2 ha hm hp hg⟩
  · exact ⟨_, rfl, regWrite_repairs ht h1 h2 ha hm hp hg hr hw⟩
  · exact ⟨_, congrArg Host.Outcome.next (regWrite_misfits ht h1 h2 ha hm hp), reply_shows _ _ _ _ _ _⟩
  · exact ⟨_, congrArg Host.Outcome.next (regRead_unaligned ht h1 h2 ha), reply_shows _ _ _ _ _ _⟩
  · exact ⟨_, rfl, regRead_miscounted ht ha hm hc⟩
  · refine ⟨_, congrArg Host.Outcome.next ((jnlRead_records ht h0).trans (judged_clear ?_)), ?_⟩
    · rw [countFaults_within h1 h2, ← hb, hi]; rfl
    · rw [hb]; exact reply_shows _ _ _ _ _ _
  · refine ⟨_, congrArg Host.Outcome.next ((jnlRead_records ht h0).trans (judged_fault (e := 6) ?_ (by decide))),
      reply_shows _ _ _ _ _ _⟩
    rw [countFaults_within h1 h2, ← hb, hi]; rfl
  · refine ⟨_, congrArg Host.Outcome.next (jnlRead_records ht h0), judged_pair ?_ (by decide) (by decide)⟩
    rw [countFaults_outside hc, ← hb, hi]; rfl
  · exact ⟨_, congrArg Host.Outcome.next (jnlRead_image ht hw), reply_shows _ _ _ _ _ _⟩
  · exact ⟨_, congrArg Host.Outcome.next (jnlRead_unlisted ht hw), reply_shows _ _ _ _ _ _⟩

/-! ### INFO, CAL_READ, an unlisted CMD, and the service ring (R329, R330, R335, R336) -/

theorem serviceDesc_queues {s : State} {g : SvcGrant} (d : Descriptor) (hw : portWorks s = true)
    (hh : s.usb.halted.contains 0x02 = false) (hg : s.usb.grant = some g) (hc : g.cls = .ring) (hd : dead s = false)
    (ho : serviceOpen s < 8) (hj : journalAllows s = true) : serviceDesc d s = queueJob
      (if fld d[0] 31 16 ≠ s.usb.ringPos.toNat % 65536 then .door (descItem s 16 d) .refusedFormat 1 0
       else doorJob s d (descItem s 16 d) (serviceListed g.opmask d))
      (modUsb (fun u => { u with ringPos := u.ringPos + 1 }) s) := by
  have hr : ringGrant s = some g := by
    unfold ringGrant
    rw [hg]
    exact if_pos hc
  unfold serviceDesc
  rw [hr]
  exact if_neg (by rw [hw, hh, hd, hj]; simpa using ho)

/-- Settles O58: a reply where the port takes a request, a descriptor by `serviceDesc_queues`. -/
theorem portAnswersAndTakesDescriptors : Obligations.PortAnswersAndTakesDescriptors := by
  unfold Obligations.PortAnswersAndTakesDescriptors
  refine fun seq cmd addr d g s hw => ⟨fun hh hr => ?_, fun hh => ?_, fun hh hg hc hd ho hj => ?_⟩
  · have ht := portTakes_of hw hh hr
    exact ⟨⟨_, congrArg Host.Outcome.next (if_pos ht), reply_shows _ _ _ _ _ _⟩,
      ⟨_, congrArg Host.Outcome.next (if_pos ht), reply_shows _ _ _ _ _ _⟩,
      ⟨_, congrArg Host.Outcome.next (if_pos ht), reply_shows _ _ _ _ _ _⟩⟩
  · exact ⟨_, congrArg Host.Outcome.next (if_pos (by rw [hw, hh]; rfl)), rfl⟩
  · exact ⟨_, congrArg Host.Outcome.next (serviceDesc_queues d hw hh hg hc hd ho hj), rfl, rfl⟩

end Sys2Proof.Machine

/-! PROOFS. Measurement: sequences, passes, conversions, cuts and the delivery of records (spec/14). -/

namespace Sys2Proof.Machine

/-! ### One sequence of the converters -/

section
variable {s : State} {q : Fin 8} {x : Seq}

theorem modSeq_self (f : Seq → Seq) (h : s.adc.seqs[q] = some x) : (modSeq q f s).adc.seqs[q] = some (f x) := by
  simp [modSeq, h]

theorem event_adc (code : BitVec 16) (w : Word) (i d : Nat) (v : DWord) (s : State) : (event code w i d v s).adc = s.adc :=
  (event_within (L := 0x4a083) code w i d v (.refl _ s) (.of rfl)).keeps .adc rfl

theorem completeOpt_adc (a : Option Word) (v : Verdict) (d : Nat) (r : DWord) (s : State) : (completeOpt a v d r s).adc = s.adc :=
  (completeOpt_within (L := 0x20000fb90c3) a v d r (.refl _ s) (.of rfl)).keeps .adc rfl

theorem completeOpt_cal (a : Option Word) (v : Verdict) (d : Nat) (r : DWord) (s : State) : (completeOpt a v d r s).cal = s.cal :=
  (completeOpt_within (L := 0x20000fb90c3) a v d r (.refl _ s) (.of rfl)).keeps .cal rfl

theorem commitStart_adc (it : Item) (s : State) : (commitStart it s).adc = s.adc :=
  (commitStart_within (L := 0xc18040) it (.refl _ s) (.of rfl)).keeps .adc rfl

theorem commitStart_cal (it : Item) (s : State) : (commitStart it s).cal = s.cal :=
  (commitStart_within (L := 0xc18040) it (.refl _ s) (.of rfl)).keeps .cal rfl

/-- The sequence as it is while its pass begins. -/
def inFirstEntry (x : Seq) : Seq := { x with inPass := true, waiting := false, entry := 0 }

/-- A converter that looks for its next pass leaves every sequence, or begins the pass of the one it finds. -/
theorem nextPass_seq (c : Fin 2) (h : s.adc.seqs[q] = some x) :
    ∃ y, (nextPass c s).adc.seqs[q] = some y ∧ (y = x ∨ y = inFirstEntry x) := by
  unfold nextPass
  split
  · exact ⟨x, h, .inl rfl⟩
  · split
    · next p hp =>
      by_cases e : p = q
      · subst e
        exact ⟨_, modSeq_self (s := convSafe c s) inFirstEntry h, .inr rfl⟩
      · refine ⟨x, Eq.trans ?_ h, .inl rfl⟩
        show (s.adc.seqs.set p.val _ p.isLt)[q.val] = _
        exact Vector.getElem_set_ne _ _ fun c => e (Fin.ext c)
    · exact ⟨x, h, .inl rfl⟩

/-- A sequence that asks for a pass waits for it, or has it at once. -/
theorem askPass_seq (h : s.adc.seqs[q] = some x) :
    ∃ y, (askPass q s).adc.seqs[q] = some y ∧ (y = { x with waiting := true } ∨ y = inFirstEntry x) := by
  unfold askPass
  rw [h]
  exact nextPass_seq (q := q) _ (modSeq_self (fun y => { y with waiting := true }) h)

/-- The sequence as it is once it has stopped. -/
def stoppedSeq (x : Seq) : Seq :=
  { x with running := false, inPass := false, waiting := false, stopWhy := 0, stopItem := none, item := none }

theorem seqStopNow_eq (why : Nat) (h : s.adc.seqs[q] = some x) : seqStopNow q why s =
    completeOpt x.item .done 0 (dword (BitVec.ofNat 32 x.records) (BitVec.ofNat 32 x.dropped))
      (completeOpt x.stopItem .done 0 (BitVec.ofNat 64 x.passes)
        (event 0x0A01 (handleOf s 5 q.val) q.val why 0 (modSeq q stoppedSeq s))) := by
  unfold seqStopNow
  rw [h]
  rfl

theorem seqStopNow_seq (why : Nat) (h : s.adc.seqs[q] = some x) :
    (seqStopNow q why s).adc.seqs[q] = some (stoppedSeq x) := by
  rw [seqStopNow_eq why h, completeOpt_adc, completeOpt_adc, event_adc]
  exact modSeq_self stoppedSeq h

end

/-! ### Items on a sequence (R264, R265, R268) -/

section
variable {op : Nat} {a : Word} {it : Item} {q : Fin 8} {x : Seq} {s u : State}

theorem Works.onSeq (h : Works op a it s u) (hs : hSlot it.handle = q.val) (hx : u.adc.seqs[q] = some x)
    (k : Item → Fin 8 → Seq → State → State) : onSeq op a k s = k it q x u := by
  refine (h.begins _).trans ?_
  rw [hs, fin?_val]
  dsimp only
  rw [hx]

/-- The passes that ADC_SEQ_START asks for, 0 for no limit. -/
def passLimit (it : Item) (x : Seq) : Nat := orElse0 (fld (opv it 4) 15 0) (fld x.w8 31 16)

/-- What ADC_SEQ_START makes of a sequence: it runs from its first entry, `n` passes at most, for the item that waits. -/
def startedSeq (n : Nat) (a : Option Word) (at_ : Time) (y : Seq) : Seq :=
  { y with
    entries := y.entries.map (fun e => freshEntry e.word), gainEdge := false, running := true, stopWhy := 0, passes := 0,
    records := 0, dropped := 0, entry := 0, limit := n, item := a, at_ := at_, laneEdges := 0, due := 0 }

def firstDue (x : Seq) (u : State) : Time := now u + BitVec.ofNat 48 (fld x.w9 19 0)

section
variable (hs : hSlot it.handle = q.val) (hx : u.adc.seqs[q] = some x)
include hs hx

theorem adcSeqStart_running (h : Works 0x30 a it s u) (hr : x.running = true) : adcSeqStart a s = complete a .done 0x10 0 u :=
  (h.onSeq hs hx _).trans (if_pos hr)

theorem adcSeqStart_self (h : Works 0x30 a it s u) (hr : x.running = false) (ht : seqTrig x.w8 ≠ 3) : adcSeqStart a s =
    complete a .done 0 0 (modSeq q (startedSeq (passLimit it x) none (firstDue x u)) (commitStart it u)) := by
  refine (h.onSeq hs hx _).trans ((if_neg (by rw [hr]; decide)).trans ?_)
  simp only [ht, if_false]
  rfl

theorem adcSeqStart_counted (h : Works 0x30 a it s u) (hr : x.running = false) (ht : seqTrig x.w8 = 3) : adcSeqStart a s =
    askPass q (modSeq q (startedSeq (orElse0 (passLimit it x) 1) (some a) (firstDue x u)) (commitStart it u)) := by
  refine (h.onSeq hs hx _).trans ((if_neg (by rw [hr]; decide)).trans ?_)
  simp only [ht, if_true]
  rfl

/-- What ADC_SEQ_START has made of the sequence behind the item's START. -/
theorem started_seq (n : Nat) (b : Option Word) :
    (modSeq q (startedSeq n b (firstDue x u)) (commitStart it u)).adc.seqs[q] = some (startedSeq n b (firstDue x u) x) :=
  modSeq_self _ ((congrArg (fun z : Adc => z.seqs[q]) (commitStart_adc it u)).trans hx)

theorem adcSeqStop_eq (h : Works 0x31 a it s u) (hr : x.running = true) : adcSeqStop a s =
    seqStop q 1 (modSeq q (fun y => { y with stopItem := some a }) (commitStart it u)) :=
  (h.onSeq hs hx _).trans (if_neg (by rw [hr]; decide))

theorem adcSeqStop_stopped (h : Works 0x31 a it s u) (hr : x.running = false) : adcSeqStop a s = complete a .done 0x10 0 u :=
  (h.onSeq hs hx _).trans (if_pos (by rw [hr]; decide))

/-- The item that asks the sequence to stop is noted in it. -/
theorem stopAsked_seq : (modSeq q (fun y => { y with stopItem := some a }) (commitStart it u)).adc.seqs[q] =
    some { x with stopItem := some a } :=
  modSeq_self _ ((congrArg (fun z : Adc => z.seqs[q]) (commitStart_adc it u)).trans hx)

theorem adcSeqStop_waits (h : Works 0x31 a it s u) (hr : x.running = true) (hp : x.inPass = true ∨ x.waiting = true) :
    (adcSeqStop a s).adc.seqs[q] = some { x with stopItem := some a, stopWhy := 1 } := by
  rw [adcSeqStop_eq hs hx h hr]
  unfold seqStop
  rw [stopAsked_seq hs hx]
  dsimp only
  rw [if_neg (by rw [hr]; decide), if_pos (by simpa using hp)]
  exact modSeq_self _ (stopAsked_seq hs hx)

theorem adcSeqStop_stops (h : Works 0x31 a it s u) (hr : x.running = true) (hp : x.inPass = false) (hw : x.waiting = false)
    (hn : x.item = none) : Answered it .done 0 (BitVec.ofNat 64 x.passes) (adcSeqStop a s) ∧
    (adcSeqStop a s).adc.seqs[q] = some (stoppedSeq { x with stopItem := some a }) := by
  have hy := stopAsked_seq (a := a) (it := it) hs hx
  have e : adcSeqStop a s = seqStopNow q 1 (modSeq q (fun y => { y with stopItem := some a }) (commitStart it u)) := by
    rw [adcSeqStop_eq hs hx h hr]
    unfold seqStop
    rw [hy]
    dsimp only
    rw [if_neg (by rw [hr]; decide), if_neg (by simp [hp, hw])]
  refine ⟨?_, by rw [e]; exact seqStopNow_seq 1 hy⟩
  rw [e, seqStopNow_eq 1 hy]
  dsimp only
  rw [hn]
  obtain ⟨kt, hk, hr, -, -⟩ := commitStart_findItem h.item (findItem_aseq h.1.1)
  refine h.answers ((findItem_of_items ?_ a).trans hk) hr _ _ _
  exact (event_within (L := 0x4a083) _ _ _ _ _ (.refl _ _) (.of rfl)).keeps .items rfl

/-- The cut that an ADC_URGENT asks for. -/
def urgentCut (q : Fin 8) (a : Word) (it : Item) : Cut := { seq := q, entry := fld (opv it 4) 4 0, item := some a }

theorem adcUrgent_refuses (h : Works 0x32 a it s u) (hi : x.entries.length ≤ fld (opv it 4) 4 0) :
    adcUrgent a s = complete a .refusedFormat 7 0 u :=
  (h.onSeq hs hx _).trans (if_pos hi)

theorem adcUrgent_dropped (h : Works 0x32 a it s u) (hi : fld (opv it 4) 4 0 < x.entries.length)
    (hd : cutDrops u (seqConv x) = true) : adcUrgent a s = cutArrives (seqConv x) (urgentCut q a it) u := by
  refine (h.onSeq hs hx _).trans ((if_neg (by omega)).trans ?_)
  rw [hd]
  rfl

theorem adcUrgent_arrives (h : Works 0x32 a it s u) (hi : fld (opv it 4) 4 0 < x.entries.length)
    (hd : cutDrops u (seqConv x) = false) : adcUrgent a s = cutArrives (seqConv x) (urgentCut q a it) (commitStart it u) := by
  refine (h.onSeq hs hx _).trans ((if_neg (by omega)).trans ?_)
  rw [hd]
  rfl

end

end

/-! ### Cuts that reach their converter (R267, R268) -/

section
variable {s : State} {c : Fin 2} {k : Cut} {q : Fin 8} {y : Seq}

theorem cutQueues_of {t : State} (ha : t.adc = s.adc) (hc : t.cal = s.cal) (c : Fin 2) : cutQueues t c = cutQueues s c := by
  unfold cutQueues calHolds
  rw [ha, hc]

theorem cutShield_idle (hp : s.adc.convs[c].pass = none) : cutShield s c = none := by
  unfold cutShield
  rw [hp]
  rfl

theorem cutShield_shielded (hp : s.adc.convs[c].pass = some q) (hy : s.adc.seqs[q] = some y) (hs : shielded y = true) :
    cutShield s c = some q := by
  unfold cutShield
  rw [hp, Option.filter_some, hy]
  exact if_pos hs

theorem cutArrives_cuts (hq : cutQueues s c = false) (hp : s.adc.convs[c].pass = none) :
    cutArrives c k s = modConv c (fun w => { w with cut := some k }) (convSafe c s) := by
  unfold cutArrives
  rw [if_neg (by rw [hq]; decide), cutShield_idle hp]

theorem cutArrives_shielded (hq : cutQueues s c = false) (hs : cutShield s c = some q) : cutArrives c k s =
    completeOpt k.item .refusedState 0x10 (BitVec.ofNat 64 q.val) (countReg (seqReg q 0x18) 15 0 1 s) := by
  unfold cutArrives
  rw [if_neg (by rw [hq]; decide), hs]

theorem cutArrives_full (hq : cutQueues s c = true) (hf : 4 ≤ s.adc.convs[c].queue.length) : cutArrives c k s =
    completeOpt k.item .refusedState 0x11 0 (countReg (0x69C0 + c.val * 0x20 + 8) 15 0 1 s) := by
  unfold cutArrives cutDrops
  rw [if_pos hq, if_pos hq, if_pos (by simpa using hf)]

theorem cutDrops_idle (hq : cutQueues s c = false) (hp : s.adc.convs[c].pass = none) : cutDrops s c = false := by
  unfold cutDrops
  rw [if_neg (by rw [hq]; decide), cutShield_idle hp]
  rfl

theorem cutDrops_shielded (hq : cutQueues s c = false) (hs : cutShield s c = some q) : cutDrops s c = true := by
  unfold cutDrops
  rw [if_neg (by rw [hq]; decide), hs]
  rfl

theorem cutDrops_full (hq : cutQueues s c = true) (hf : 4 ≤ s.adc.convs[c].queue.length) : cutDrops s c = true := by
  unfold cutDrops
  rw [if_pos hq]
  exact decide_eq_true hf

theorem cut_set (k : Cut) : (modConv c (fun w => { w with cut := some k }) (convSafe c s)).adc.convs[c].cut = some k :=
  congrArg Conv.cut (upd_self _ _ _)

end

section
variable {a : Word} {it : Item} {q : Fin 8} {x : Seq} {s u : State} (hs : hSlot it.handle = q.val)
  (hx : u.adc.seqs[q] = some x) (h : Works 0x32 a it s u) (hi : fld (opv it 4) 4 0 < x.entries.length)
include hs hx h hi

theorem adcUrgent_cuts (hq : cutQueues u (seqConv x) = false) (hp : u.adc.convs[seqConv x].pass = none) :
    (adcUrgent a s).adc.convs[seqConv x].cut = some (urgentCut q a it) := by
  rw [adcUrgent_arrives hs hx h hi (cutDrops_idle hq hp), cutArrives_cuts]
  · exact cut_set _
  · exact (cutQueues_of (commitStart_adc it u) (commitStart_cal it u) _).trans hq
  · rw [commitStart_adc]
    exact hp

theorem adcUrgent_shielded (hq : cutQueues u (seqConv x) = false) {p : Fin 8} {y : Seq}
    (hp : u.adc.convs[seqConv x].pass = some p) (hy : u.adc.seqs[p] = some y) (hd : shielded y = true) :
    Answered it .refusedState 0x10 (BitVec.ofNat 64 p.val) (adcUrgent a s) := by
  have e := cutShield_shielded hp hy hd
  rw [adcUrgent_dropped hs hx h hi (cutDrops_shielded hq e), cutArrives_shielded hq e]
  exact h.answers (t := countReg (seqReg p 0x18) 15 0 1 u) h.item rfl _ _ _

theorem adcUrgent_full (hq : cutQueues u (seqConv x) = true) (hf : 4 ≤ u.adc.convs[seqConv x].queue.length) :
    Answered it .refusedState 0x11 0 (adcUrgent a s) := by
  rw [adcUrgent_dropped hs hx h hi (cutDrops_full hq hf), cutArrives_full hq hf]
  exact h.answers (t := countReg (0x69C0 + (seqConv x).val * 0x20 + 8) 15 0 1 u) h.item rfl _ _ _

end

/-! ### Triggers (R263) -/

section
variable {s : State} {q : Fin 8} {x : Seq} (hx : s.adc.seqs[q] = some x) (hr : x.running = true)
include hx hr

theorem adcTrigger_running : adcTrigger q s =
    if !(takeTrigger s x).1 then modSeq q (fun _ => (takeTrigger s x).2) s
    else if x.inPass || x.waiting then countReg (seqReg q 0x18) 31 16 1 (modSeq q (fun _ => (takeTrigger s x).2) s)
    else askPass q (modSeq q (fun _ => (takeTrigger s x).2) s) := by
  unfold adcTrigger
  rw [hx]
  exact if_neg (by rw [hr]; decide)

theorem adcTrigger_none (ht : (takeTrigger s x).1 = false) : adcTrigger q s = modSeq q (fun _ => (takeTrigger s x).2) s :=
  (adcTrigger_running hx hr).trans (if_pos (by rw [ht]; rfl))

theorem adcTrigger_missed (ht : (takeTrigger s x).1 = true) (hp : x.inPass = true ∨ x.waiting = true) :
    adcTrigger q s = countReg (seqReg q 0x18) 31 16 1 (modSeq q (fun _ => (takeTrigger s x).2) s) :=
  (adcTrigger_running hx hr).trans ((if_neg (by rw [ht]; decide)).trans (if_pos (by simpa using hp)))

theorem adcTrigger_asks (ht : (takeTrigger s x).1 = true) (hp : x.inPass = false) (hw : x.waiting = false) :
    ∃ y, (adcTrigger q s).adc.seqs[q] = some y ∧ (y.inPass = true ∨ y.waiting = true) := by
  rw [(adcTrigger_running hx hr).trans ((if_neg (by rw [ht]; decide)).trans (if_neg (by simp [hp, hw])))]
  obtain ⟨y, hy, e⟩ := askPass_seq (q := q) (modSeq_self (fun _ => (takeTrigger s x).2) hx)
  refine ⟨y, hy, ?_⟩
  rcases e with rfl | rfl
  · exact .inr rfl
  · exact .inl rfl

end

/-! ### Delivery (R269 to R272) -/

section
variable {s : State} {k : Fin 4}

theorem modStream_self (f : Stream → Stream) (s : State) : (modStream k f s).adc.streams[k] = f s.adc.streams[k] := upd_self _ _ _

/-- Delivery leaves the sequences and the converters. -/
def SeqsKept (s t : State) : Prop := t.adc.seqs = s.adc.seqs ∧ t.adc.convs = s.adc.convs

theorem SeqsKept.rfl : SeqsKept s s := ⟨Eq.refl _, Eq.refl _⟩

theorem SeqsKept.trans {t u : State} (h : SeqsKept s t) (g : SeqsKept t u) : SeqsKept s u := ⟨g.1.trans h.1, g.2.trans h.2⟩

theorem SeqsKept.of {t : State} (h : t.adc = s.adc) : SeqsKept s t := ⟨congrArg Adc.seqs h, congrArg Adc.convs h⟩

theorem SeqsKept.seq {t : State} (h : SeqsKept s t) (q : Fin 8) : t.adc.seqs[q] = s.adc.seqs[q] :=
  congrArg (fun z : Vector (Option Seq) 8 => z[q]) h.1

/-- What a write of one pending record leaves: one record fewer, and the producer index one further. -/
def recordSent (k : Fin 4) (r : Word) (rest : List (Word × Time)) (s : State) : State :=
  memWords (entryAddr s (0x0660 + 8 * k.val) s.link.sts[k].prod (stSize s k.val) 4) [r]
    (modOutSt k (fun o => { o with prod := o.prod + 1 }) (modStream k (fun x => { x with pend := rest }) s))

theorem memWords_adc (addr : DWord) (ws : List Word) (s : State) : (memWords addr ws s).adc = s.adc :=
  (memWords_within (L := 1) addr ws (.refl _ s) (.of rfl)).keeps .adc rfl

theorem memWords_sts (addr : DWord) (ws : List Word) (s : State) : (memWords addr ws s).link.sts = s.link.sts :=
  (memWords_within (L := 1) addr ws (.refl _ s) (.of rfl)).keeps .sts rfl

theorem recordSent_pend (k : Fin 4) (r : Word) (rest : List (Word × Time)) (s : State) :
    (recordSent k r rest s).adc.streams[k].pend = rest := by
  unfold recordSent
  rw [memWords_adc]
  exact congrArg Stream.pend (upd_self _ _ _)

theorem recordSent_prod (k : Fin 4) (r : Word) (rest : List (Word × Time)) (s : State) :
    (recordSent k r rest s).link.sts[k].prod = s.link.sts[k].prod + 1 := by
  unfold recordSent
  rw [memWords_sts]
  exact congrArg OutRing.prod (upd_self _ _ _)

theorem recordSent_seqs (k : Fin 4) (r : Word) (rest : List (Word × Time)) (s : State) :
    SeqsKept s (recordSent k r rest s) :=
  .trans (t := modOutSt k _ (modStream k _ s)) ⟨rfl, rfl⟩ (.of (memWords_adc _ _ _))

/-- A record of four bytes goes out in one write. -/
theorem recordSent_out (r : Word) (rest : List (Word × Time)) (hm : 4 ≤ s.link.cfg.mps) :
    .memWrite (entryAddr s (0x0660 + 8 * k.val) s.link.sts[k].prod (stSize s k.val) 4) (wordBytes r) ∈ (recordSent k r rest s).out := by
  unfold recordSent memWords
  rw [show [r].flatMap wordBytes = wordBytes r from List.append_nil _, memWrite_once _ (by simp [wordBytes])]
  · exact List.mem_cons_self
  · exact Nat.le_min.2 ⟨by simp [wordBytes], hm⟩

theorem writeStream_succ (n : Nat) : writeStream (n + 1) k s = match (s.adc.streams[k]).pend with
    | [] => s
    | r :: rest => if ringRoom s (stOn s k.val) (stSize s k.val) s.link.sts[k] then writeStream n k (recordSent k r.1 rest s) else s := rfl

theorem writeStream_seqs (n : Nat) (k : Fin 4) (s : State) : SeqsKept s (writeStream n k s) := by
  induction n generalizing s with
  | zero => exact .rfl
  | succ n ih =>
    rw [writeStream_succ]
    split
    · exact .rfl
    · split
      · exact (recordSent_seqs _ _ _ _).trans (ih _)
      · exact .rfl

/-- Of the pending records `m` are written, one place of the ring for each. -/
theorem writeStream_counts (n : Nat) (k : Fin 4) (s : State) : ∃ m ≤ n,
    (writeStream n k s).adc.streams[k].pend.length + m = s.adc.streams[k].pend.length ∧
    (writeStream n k s).link.sts[k].prod = s.link.sts[k].prod + BitVec.ofNat 32 m := by
  induction n generalizing s with
  | zero => exact ⟨0, Nat.le_refl 0, rfl, by simp [writeStream]⟩
  | succ n ih =>
    rw [writeStream_succ]
    split
    · exact ⟨0, Nat.zero_le _, rfl, by simp⟩
    · next r rest e =>
      split
      · obtain ⟨m, hm, hp, hi⟩ := ih (recordSent k r.1 rest s)
        refine ⟨m + 1, Nat.succ_le_succ hm, ?_, ?_⟩
        · rw [recordSent_pend] at hp
          rw [e, ← Nat.add_assoc, hp]
          rfl
        · rw [hi, recordSent_prod]
          bv_omega
      · exact ⟨0, Nat.zero_le _, rfl, by simp⟩

/-- The vector may wait for IRQ_GAP; nothing else of the converters has changed. -/
theorem streamVector_adc (s : State) : SeqsKept s (streamVector s) ∧ (streamVector s).adc.streams = s.adc.streams := by
  unfold streamVector
  split
  · exact ⟨⟨rfl, rfl⟩, rfl⟩
  · have e (t : State) : (sendVector 22 t).adc = t.adc :=
      (sendVector_within (L := 0x83) 22 (.refl _ t) (.of rfl)).keeps .adc rfl
    have ht : SeqsKept s { s with adc := { s.adc with irqGap := decide (rfld s 0x6404 31 24 ≠ 0), irqDue := false } } := ⟨rfl, rfl⟩
    exact ⟨ht.trans (.of (e _)), (congrArg Adc.streams (e _)).trans rfl⟩

theorem shadowWrite_adc (off : Nat) (d : DWord) (s : State) : (shadowWrite off d s).adc = s.adc :=
  (shadowWrite_within (L := 0x2081) off d (.refl _ s) (.of rfl)).keeps .adc rfl

/-- What follows the written records: the producer index and the vector, and after an overrun its event. -/
def streamTold (k : Fin 4) (s : State) : State :=
  let s2 := streamVector (shadowWrite (0x210 + 8 * k.val) (s.link.sts[k].prod.setWidth 64) s)
  if (s2.adc.streams[k]).overrun then
    event 0x0A02 0 k.val 0 (BitVec.ofNat 64 (s2.adc.streams[k]).episode)
      (modStream k (fun x => { x with overrun := false, episode := 0 }) s2)
  else s2

theorem streamWrite_eq (k : Fin 4) (s : State) : streamWrite k s =
    if (writeStream 256 k s).link.sts[k].prod = s.link.sts[k].prod then s else streamTold k (writeStream 256 k s) := by
  unfold streamWrite
  generalize writeStream 256 k s = t
  rfl

theorem streamTold_within {L : Nat} {s0 : State} (k : Fin 4) {s : State} (hs : Within L s0 s) (hl : Sub 0x100004e083 L) :
    Within L s0 (streamTold k s) := by
  have w := streamVector_within (shadowWrite_within (0x210 + 8 * k.val) (s.link.sts[k].prod.setWidth 64) hs (.le rfl hl))
    (.le rfl hl)
  unfold streamTold
  generalize streamVector _ = t at w ⊢
  exact .ite (event_within _ _ _ _ _ (modStream_within k _ w (.le rfl hl)) (.le rfl hl)) w

theorem streamTold_seqs (k : Fin 4) (s : State) : SeqsKept s (streamTold k s) := by
  have e : SeqsKept s (streamVector (shadowWrite (0x210 + 8 * k.val) (s.link.sts[k].prod.setWidth 64) s)) :=
    .trans (.of (shadowWrite_adc _ _ s)) (streamVector_adc _).1
  unfold streamTold
  generalize streamVector _ = t at e ⊢
  dsimp only
  split
  · have ht : SeqsKept t (modStream k (fun x => { x with overrun := false, episode := 0 }) t) := ⟨rfl, rfl⟩
    exact e.trans (ht.trans (.of (event_adc _ _ _ _ _ _)))
  · exact e

theorem streamTold_pend (k : Fin 4) (s : State) : (streamTold k s).adc.streams[k].pend = s.adc.streams[k].pend := by
  have e : (streamVector (shadowWrite (0x210 + 8 * k.val) (s.link.sts[k].prod.setWidth 64) s)).adc.streams = s.adc.streams :=
    (streamVector_adc _).2.trans (congrArg Adc.streams (shadowWrite_adc _ _ s))
  unfold streamTold
  generalize streamVector _ = t at e ⊢
  dsimp only
  split
  · refine (congrArg (fun a : Adc => a.streams[k].pend) (event_adc _ _ _ _ _ _)).trans ?_
    rw [modStream_self, e]
  · exact congrArg (fun v : Vector Stream 4 => v[k].pend) e

theorem streamWrite_seqs (k : Fin 4) (s : State) : SeqsKept s (streamWrite k s) := by
  rw [streamWrite_eq]
  split
  · exact .rfl
  · exact (writeStream_seqs 256 k s).trans (streamTold_seqs k _)

theorem pushStream_seqs (k : Fin 4) (r : Word) (s : State) : SeqsKept s (pushStream k r s).1 := by
  unfold pushStream
  split
  · exact ⟨rfl, rfl⟩
  · extract_lets s0 s1 a1 s2
    have e0 : SeqsKept s s0 := by
      show SeqsKept s (if dmaOk s then s else pendVector 22 s)
      split
      · exact .rfl
      · exact .of ((pendVector_within (L := 0x81) 22 (.refl _ s) (.of rfl)).keeps .adc rfl)
    have e : SeqsKept s s2 := e0.trans ⟨rfl, rfl⟩
    show SeqsKept s (if 64 ≤ (s2.adc.streams[k]).pend.length then streamWrite k s2 else s2)
    split
    · exact e.trans (streamWrite_seqs k s2)
    · exact e

end

/-! ### A flush that is due (R270) -/

section
variable {s : State} {k : Fin 4} {r : Word × Time} {more : List (Word × Time)} (hp : s.adc.streams[k].pend = r :: more)
  (hr : ringRoom s (stOn s k.val) (stSize s k.val) s.link.sts[k] = true)
include hp hr

theorem writeStream_first (n : Nat) : writeStream (n + 1) k s = writeStream n k (recordSent k r.1 more s) := by
  rw [writeStream_succ, hp]
  exact if_pos hr

/-- The first record is written, so fewer wait, and the producer index has advanced. -/
theorem writeStream_advances : (writeStream 256 k s).adc.streams[k].pend.length < s.adc.streams[k].pend.length ∧
    (writeStream 256 k s).link.sts[k].prod ≠ s.link.sts[k].prod := by
  rw [writeStream_first hp hr]
  obtain ⟨m, hm, hl, hi⟩ := writeStream_counts 255 k (recordSent k r.1 more s)
  rw [recordSent_pend] at hl
  rw [recordSent_prod] at hi
  refine ⟨by rw [hp, List.length_cons]; omega, ?_⟩
  rw [hi]
  bv_omega

theorem streamFlush_writes (hd : flushDue k s = true) (hm : 4 ≤ s.link.cfg.mps) :
    .memWrite (entryAddr s (0x0660 + 8 * k.val) s.link.sts[k].prod (stSize s k.val) 4) (wordBytes r.1) ∈ (streamFlush k s).out ∧
    (streamFlush k s).adc.streams[k].pend.length < s.adc.streams[k].pend.length := by
  obtain ⟨hl, hi⟩ := writeStream_advances hp hr
  have e : streamFlush k s = streamTold k (writeStream 256 k s) :=
    (if_pos hd).trans ((streamWrite_eq k s).trans (if_neg hi))
  refine ⟨?_, by rw [e, streamTold_pend]; exact hl⟩
  rw [e, writeStream_first hp hr 255]
  exact (streamTold_within k (writeStream_within (L := 0x100004e083) 255 k (.refl _ _) (.of rfl)) (.of rfl)).sent.subset
    (recordSent_out (k := k) r.1 more hm)

end

/-! ### The end of IRQ_GAP (R271) -/

theorem irqGapEnd_idle {s : State} (h : s.adc.irqDue = false) : irqGapEnd s = { s with adc := { s.adc with irqGap := false } } :=
  if_neg (by rw [h]; decide)

theorem irqGapEnd_sends {s : State} (h : s.adc.irqDue = true) : (irqGapEnd s).adc.irqDue = false ∧
    (irqGapEnd s).adc.irqGap = decide (rfld s 0x6404 31 24 ≠ 0) := by
  have e : (irqGapEnd s).adc = { s.adc with irqGap := decide (rfld s 0x6404 31 24 ≠ 0), irqDue := false } := by
    unfold irqGapEnd
    rw [if_pos h]
    exact (sendVector_within (L := 0x83) 22 (.refl _ _) (.of rfl)).keeps .adc rfl
  rw [e]
  exact ⟨rfl, rfl⟩

/-! ### Conversions (R261 to R266) -/

section
variable {s : State} {q : Fin 8} {c : Fin 2} {x : Seq}

theorem leashEdge_adc (n : Nat) (w : Word) (d : Nat) (v : DWord) (s : State) : (leashEdge n w d v s).adc = s.adc :=
  (leashEdge_within (L := 0x4a083) n w d v (.refl _ s) (.of rfl)).keeps .adc rfl

/-- The record of a sample goes to its sequence's ring, where it has one. -/
def sampleSent (c : Fin 2) (q : Fin 8) (x : Seq) (i : Nat) (cut : Bool) (code : Int) (s : State) : State × Bool :=
  let e := entryAt x i
  let r := recordOf q i c e cut code
  let s1 := setReg (0x6740 + 4 * entInput e.word) r (countReg (0x69C0 + c.val * 0x20 + 4) 31 0 1 s)
  match bit x.w8 6 && !entNoStream e.word, fin? 4 (fld x.w8 5 4) with
  | true, some k => pushStream k r s1
  | _, _ => (s1, false)

theorem sampleSent_seqs (i : Nat) (cut : Bool) (code : Int) : SeqsKept s (sampleSent c q x i cut code s).1 := by
  unfold sampleSent
  dsimp only
  split
  · exact .trans ⟨rfl, rfl⟩ (pushStream_seqs _ _ _)
  · exact ⟨rfl, rfl⟩

/-- The sequence after a sample of its entry `i`: `dropped` tells that the ring had no place for the record. -/
def sampledSeq (s : State) (c : Fin 2) (x : Seq) (i : Nat) (cut : Bool) (code : Int) (dropped : Bool) (y : Seq) : Seq :=
  setEntry i (autorange s c cut code (entryAt x i)).1 { y with
    records := if cut then y.records else y.records + 1, dropped := if !cut && dropped then y.dropped + 1 else y.dropped }

theorem sample_state (i : Nat) (cut : Bool) (code : Int) (h : s.adc.seqs[q] = some x) : ∃ n w d v, (sample c q i cut code s).2 =
    let p := sampleSent c q x i cut code s
    let s2 := modSeq q (sampledSeq s c x i cut code p.2) p.1
    if (autorange s c cut code (entryAt x i)).2 then leashEdge n w d v s2 else s2 := by
  unfold sample
  rw [h]
  exact ⟨_, _, _, _, rfl⟩

theorem sample_record (i : Nat) (cut : Bool) (code : Int) (h : s.adc.seqs[q] = some x) :
    (sample c q i cut code s).1 = recordOf q i c (entryAt x i) cut code := by
  unfold sample
  rw [h]

theorem sample_seq (i : Nat) (cut : Bool) (code : Int) (h : s.adc.seqs[q] = some x) :
    ∃ d, (sample c q i cut code s).2.adc.seqs[q] = some (sampledSeq s c x i cut code d x) := by
  obtain ⟨n, w, d, v, e⟩ := sample_state (c := c) i cut code h
  have hp : (modSeq q (sampledSeq s c x i cut code (sampleSent c q x i cut code s).2) (sampleSent c q x i cut code s).1).adc.seqs[q]
      = some (sampledSeq s c x i cut code (sampleSent c q x i cut code s).2 x) :=
    modSeq_self _ (((sampleSent_seqs i cut code).seq q).trans h)
  refine ⟨_, Eq.trans ?_ hp⟩
  rw [e]
  dsimp only
  split
  · exact congrArg (fun z : Adc => z.seqs[q]) (leashEdge_adc _ _ _ _ _)
  · rfl

theorem sample_convs (i : Nat) (cut : Bool) (code : Int) (h : s.adc.seqs[q] = some x) :
    (sample c q i cut code s).2.adc.convs = s.adc.convs := by
  obtain ⟨n, w, d, v, e⟩ := sample_state (c := c) i cut code h
  rw [e]
  dsimp only
  split
  · exact (congrArg Adc.convs (leashEdge_adc _ _ _ _ _)).trans (sampleSent_seqs i cut code).2
  · exact (sampleSent_seqs i cut code).2

/-- The conversion draws its code before the sample is delivered. -/
theorem converted_seq (i : Nat) (cut : Bool) (nano : Int) (h : s.adc.seqs[q] = some x) :
    ∃ l g d, (converted c q x i cut nano s).2.adc.seqs[q] = some { x with
      entries := l, gainEdge := g, records := if cut then x.records else x.records + 1, dropped := d } := by
  have hv : (convSafe c (convCode c (entryAt x i).word (entryAt x i).gain nano s).2).adc = s.adc :=
    (convCode_within (L := 0) c _ _ nano (.refl _ s)).keeps .adc rfl
  obtain ⟨d, e⟩ := sample_seq (c := c) i cut (convCode c (entryAt x i).word (entryAt x i).gain nano s).1
    ((congrArg (fun z : Adc => z.seqs[q]) hv).trans h)
  exact ⟨_, _, _, e⟩

theorem converted_record (i : Nat) (cut : Bool) (nano : Int) (h : s.adc.seqs[q] = some x) :
    (converted c q x i cut nano s).1 = recordOf q i c (entryAt x i) cut
      (convCode c (entryAt x i).word (entryAt x i).gain nano s).1 := by
  have hv : (convSafe c (convCode c (entryAt x i).word (entryAt x i).gain nano s).2).adc = s.adc :=
    (convCode_within (L := 0) c _ _ nano (.refl _ s)).keeps .adc rfl
  exact sample_record (c := c) i cut _ ((congrArg (fun z : Adc => z.seqs[q]) hv).trans h)

theorem converted_convs (i : Nat) (cut : Bool) (nano : Int) (h : s.adc.seqs[q] = some x) :
    (converted c q x i cut nano s).2.adc.convs = s.adc.convs := by
  have hv : (convSafe c (convCode c (entryAt x i).word (entryAt x i).gain nano s).2).adc = s.adc :=
    (convCode_within (L := 0) c _ _ nano (.refl _ s)).keeps .adc rfl
  exact (sample_convs (c := c) i cut _ ((congrArg (fun z : Adc => z.seqs[q]) hv).trans h)).trans (congrArg Adc.convs hv)

end

/-! ### The conversions of a pass (R262, R265) -/

section
variable {s : State} {q : Fin 8} {c : Fin 2} {x : Seq} {nano : Int} (hx : s.adc.seqs[q] = some x)
  (hc : s.adc.convs[c].cut = none) (hp : s.adc.convs[c].pass = some q)
include hx hc hp

theorem conversionDone_pass : conversionDone c nano s =
    if x.entry + 1 < x.entries.length then modSeq q (fun y => { y with entry := y.entry + 1 }) (converted c q x x.entry false nano s).2
    else passEnds q c (converted c q x x.entry false nano s).2 := by
  unfold conversionDone
  dsimp only
  rw [hc]
  dsimp only
  rw [hp]
  dsimp only
  rw [hx]

theorem conversionDone_goesOn (hl : x.entry + 1 < x.entries.length) : ∃ y, (conversionDone c nano s).adc.seqs[q] = some y ∧
    y.entry = x.entry + 1 ∧ y.records = x.records + 1 := by
  rw [conversionDone_pass hx hc hp, if_pos hl]
  obtain ⟨l, g, d, e⟩ := converted_seq (c := c) x.entry false nano hx
  exact ⟨_, modSeq_self _ e, rfl, rfl⟩

end

/-- The sequence once the last entry of its pass has been converted. -/
def passedSeq (x : Seq) : Seq := { x with inPass := false, entry := 0, passes := x.passes + 1 }

/-- The converter is free of the pass, which is counted. -/
def passOver (q : Fin 8) (c : Fin 2) (s : State) : State := modConv c (fun v => { v with pass := none }) (modSeq q passedSeq s)

/-- What the sequence does behind a pass: it stops, or a descriptor's sequence waits for its next. -/
def behindPass (q : Fin 8) (x : Seq) (s : State) : State :=
  if x.stopWhy ≠ 0 then seqStopNow q x.stopWhy s
  else if x.limit ≠ 0 && x.limit ≤ x.passes then seqStopNow q 2 s
  else if seqTrig x.w8 = 3 then modSeq q (fun y => { y with waiting := true }) s else s

section
variable {s : State} {q : Fin 8} {x : Seq}

theorem passOver_seq (c : Fin 2) (h : s.adc.seqs[q] = some x) : (passOver q c s).adc.seqs[q] = some (passedSeq x) :=
  modSeq_self passedSeq h

theorem passEnds_eq (c : Fin 2) (h : s.adc.seqs[q] = some x) :
    passEnds q c s = nextPass c (behindPass q (passedSeq x) (passOver q c s)) := by
  show (match (passOver q c s).adc.seqs[q] with
    | none => passOver q c s
    | some y => nextPass c (behindPass q y (passOver q c s))) = _
  rw [passOver_seq c h]

theorem behindPass_seq (h : s.adc.seqs[q] = some x) : ∃ y, (behindPass q x s).adc.seqs[q] = some y ∧
    y.passes = x.passes ∧ y.records = x.records ∧ (x.stopWhy ≠ 0 → y.running = false) := by
  unfold behindPass
  split
  · exact ⟨_, seqStopNow_seq _ h, rfl, rfl, fun _ => rfl⟩
  · next hw =>
    split
    · exact ⟨_, seqStopNow_seq _ h, rfl, rfl, fun _ => rfl⟩
    · split
      · exact ⟨_, modSeq_self _ h, rfl, rfl, fun n => absurd n hw⟩
      · exact ⟨x, h, rfl, rfl, fun n => absurd n hw⟩

/-- A pass that ends is counted; the sequence stops where something asked it to. -/
theorem passEnds_seq (c : Fin 2) (h : s.adc.seqs[q] = some x) : ∃ y, (passEnds q c s).adc.seqs[q] = some y ∧
    y.passes = x.passes + 1 ∧ y.records = x.records ∧ (x.stopWhy ≠ 0 → y.running = false) := by
  rw [passEnds_eq c h]
  obtain ⟨y, hy, hp, hr, hn⟩ := behindPass_seq (passOver_seq c h)
  obtain ⟨z, hz, rfl | rfl⟩ := nextPass_seq (q := q) c hy
  · exact ⟨z, hz, hp, hr, hn⟩
  · exact ⟨_, hz, hp, hr, hn⟩

theorem conversionDone_passEnds {c : Fin 2} {nano : Int} (hx : s.adc.seqs[q] = some x) (hc : s.adc.convs[c].cut = none)
    (hp : s.adc.convs[c].pass = some q) (hl : x.entries.length ≤ x.entry + 1) :
    ∃ y, (conversionDone c nano s).adc.seqs[q] = some y ∧ y.passes = x.passes + 1 ∧ y.records = x.records + 1 ∧
      (x.stopWhy ≠ 0 → y.running = false) := by
  rw [conversionDone_pass hx hc hp, if_neg (by omega)]
  obtain ⟨l, g, d, e⟩ := converted_seq (c := c) x.entry false nano hx
  exact passEnds_seq c e

end

/-! ### The conversion of a cut (R267, R268) -/

section
variable {s : State} {c : Fin 2} {k : Cut} {x : Seq} {nano : Int}

/-- The converter takes the next cut of its queue, and then a pass. -/
theorem nextWork_cut (hc : s.adc.convs[c].cut = none) (hh : calHolds s c = false) :
    (nextWork c s).adc.convs[c].cut = s.adc.convs[c].queue.head? := by
  have e : nextCut c s = modConv c (fun v => { v with cut := v.queue.head?, queue := v.queue.drop 1 }) (convSafe c s) := by
    unfold nextCut
    rw [hh, hc]
    rfl
  have hn : (nextCut c s).adc.convs[c].cut = s.adc.convs[c].queue.head? := by
    rw [e]
    exact congrArg Conv.cut (upd_self _ _ _)
  unfold nextWork nextPass
  split
  · exact hn
  · split
    · exact (congrArg Conv.cut (upd_self _ _ _)).trans hn
    · exact hn

/-- The record of the cut is in the converter's register, the cut has ended. -/
def cutTaken (c : Fin 2) (k : Cut) (x : Seq) (nano : Int) (s : State) : State :=
  setReg (0x69C0 + c.val * 0x20 + 0xC) (converted c k.seq x k.entry true nano s).1
    (modConv c (fun w => { w with cut := none }) (converted c k.seq x k.entry true nano s).2)

theorem conversionDone_cut (hx : s.adc.seqs[k.seq] = some x) (hc : s.adc.convs[c].cut = some k) : conversionDone c nano s =
    nextWork c (completeOpt k.item .done 0 ((converted c k.seq x k.entry true nano s).1.setWidth 64) (cutTaken c k x nano s)) := by
  unfold conversionDone
  dsimp only
  rw [hc]
  dsimp only
  rw [hx]
  rfl

theorem cutTaken_convs (hx : s.adc.seqs[k.seq] = some x) :
    (cutTaken c k x nano s).adc.convs[c] = { s.adc.convs[c] with cut := none } := by
  refine (upd_self _ _ _).trans ?_
  rw [converted_convs k.entry true nano hx]

theorem cutTaken_within (s : State) : Within 0x900004e083 s (cutTaken c k x nano s) :=
  setReg_within _ _ (modConv_within _ _ (converted_within c k.seq x k.entry true nano (.refl _ s) (.of rfl)) (.of rfl)) (.of rfl)

theorem cutTaken_cal (s : State) : (cutTaken c k x nano s).cal.run = s.cal.run := by
  have hv : (convCode c (entryAt x k.entry).word (entryAt x k.entry).gain nano s).2.cal = s.cal :=
    (convCode_within (L := 0) c _ _ nano (.refl _ s)).keeps .cal rfl
  have hs := (sample_within (L := 0x100004e083) c k.seq k.entry true (convCode c (entryAt x k.entry).word (entryAt x k.entry).gain nano s).1
    (.refl _ (convSafe c (convCode c (entryAt x k.entry).word (entryAt x k.entry).gain nano s).2)) (.of rfl)).keeps .cal rfl
  exact (congrArg Cal.run hs).trans (by rw [← hv]; rfl)

variable (hx : s.adc.seqs[k.seq] = some x) (hc : s.adc.convs[c].cut = some k)
include hx hc

theorem conversionDone_nextCut (hh : calHolds s c = false) : (conversionDone c nano s).adc.convs[c].cut = s.adc.convs[c].queue.head? := by
  rw [conversionDone_cut hx hc, nextWork_cut]
  · rw [completeOpt_adc, cutTaken_convs hx]
  · rw [completeOpt_adc, cutTaken_convs hx]
  · rw [← hh]
    unfold calHolds
    rw [completeOpt_cal, cutTaken_cal]

theorem conversionDone_answers {a : Word} {it : Item} (ha : k.item = some a) (hi : findItem s a = some it) :
    Answered it .done 0 ((recordOf k.seq k.entry c (entryAt x k.entry) true
      (convCode c (entryAt x k.entry).word (entryAt x k.entry).gain nano s).1).setWidth 64) (conversionDone c nano s) := by
  rw [conversionDone_cut hx hc, ← converted_record k.entry true nano hx, ha]
  have w := cutTaken_within (c := c) (k := k) (x := x) (nano := nano) s
  have hj := (findItem_of_items (w.keeps .items rfl) a).trans hi
  have wn := nextWork_within (L := 0x9000000002) c (.refl _ (complete a .done 0
    ((converted c k.seq x k.entry true nano s).1.setWidth 64) (cutTaken c k x nano s))) (.of rfl)
  exact (complete_answers hj _ _ _).of (wn.keeps .items rfl) (wn.keeps .comps rfl)

end

/-! ### The edges of comparators that ask for cuts (R267) -/

section
variable {s : State} {c : Fin 2} {q : Fin 8} {x : Seq} {e : CutEdge} {more : List CutEdge}

theorem adcCut_none (h : s.adc.convs[c].edges = []) : adcCut c s = s := by
  unfold adcCut
  rw [h]

/-- What the oldest edge does for one sequence. -/
def edgeReaches (c : Fin 2) (e : CutEdge) (t : State) (q : Fin 8) : State :=
  match t.adc.seqs[q] with
  | some x => if cutAsks x c e then cutArrives c { seq := q, entry := fld x.w10 20 16, item := none } t else t
  | none => t

theorem adcCut_edge (h : s.adc.convs[c].edges = e :: more) :
    adcCut c s = (fins 8).foldl (edgeReaches c e) (modConv c (fun v => { v with edges := more }) s) := by
  unfold adcCut
  rw [h]
  rfl

theorem edgeReaches_absent {t : State} {p : Fin 8} (h : t.adc.seqs[p] = none) : edgeReaches c e t p = t := by
  unfold edgeReaches
  rw [h]

theorem edgeReaches_seq {t : State} (h : t.adc.seqs[q] = some x) : edgeReaches c e t q =
    if cutAsks x c e then cutArrives c { seq := q, entry := fld x.w10 20 16, item := none } t else t := by
  unfold edgeReaches
  rw [h]

/-- A fold in which only `q` acts does what `q` does. -/
theorem foldl_only {α β : Type} {f : β → α → β} {q : α} {l : List α} (hn : l.Nodup) (hq : q ∈ l) {b : β}
    (h0 : ∀ a, a ≠ q → f b a = b) (h1 : ∀ a, a ≠ q → f (f b q) a = f b q) : l.foldl f b = f b q := by
  have away (l : List α) (hl : q ∉ l) {b : β} (h : ∀ a, a ≠ q → f b a = b) : l.foldl f b = b :=
    List.foldlRecOn (motive := fun x => x = b) l f rfl fun x hx a ha => by
      rw [hx]
      exact h a fun e => hl (e ▸ ha)
  obtain ⟨l₁, l₂, rfl⟩ := List.append_of_mem hq
  have hd := List.nodup_append.1 hn
  rw [List.foldl_append, List.foldl_cons, away l₁ (fun h => hd.2.2 q h q List.mem_cons_self rfl) h0,
    away l₂ (List.nodup_cons.1 hd.2.1).1 h1]

theorem foldl_edgeReaches {t : State} (h0 : ∀ p, p ≠ q → edgeReaches c e t p = t)
    (h1 : ∀ p, p ≠ q → edgeReaches c e (edgeReaches c e t q) p = edgeReaches c e t q) :
    (fins 8).foldl (edgeReaches c e) t = edgeReaches c e t q :=
  foldl_only (List.nodup_finRange 8) (List.mem_finRange q) h0 h1

variable (ho : ∀ p : Fin 8, p ≠ q → s.adc.seqs[p] = none) (hx : s.adc.seqs[q] = some x) (he : s.adc.convs[c].edges = e :: more)
include ho hx he

theorem adcCut_ignored (ha : cutAsks x c e = false) : adcCut c s = modConv c (fun v => { v with edges := more }) s := by
  have hq : edgeReaches c e (modConv c (fun v => { v with edges := more }) s) q = modConv c (fun v => { v with edges := more }) s :=
    (edgeReaches_seq (t := modConv c _ s) hx).trans (if_neg (by rw [ha]; decide))
  have h0 (p : Fin 8) (hp : p ≠ q) : edgeReaches c e (modConv c (fun v => { v with edges := more }) s) p =
      modConv c (fun v => { v with edges := more }) s := edgeReaches_absent (ho p hp)
  rw [adcCut_edge he, foldl_edgeReaches h0 (by rw [hq]; exact h0)]
  exact hq

theorem adcCut_cuts (ha : cutAsks x c e = true) (hq : cutQueues s c = false) (hp : s.adc.convs[c].pass = none) :
    (adcCut c s).adc.convs[c].edges = more ∧
    (adcCut c s).adc.convs[c].cut = some { seq := q, entry := fld x.w10 20 16, item := none } := by
  have hv : (modConv c (fun v => { v with edges := more }) s).adc.convs[c] = { s.adc.convs[c] with edges := more } := upd_self _ _ _
  generalize ht : modConv c (fun v => { v with edges := more }) s = t at hv
  have hs : t.adc.seqs = s.adc.seqs := by rw [← ht]; rfl
  have hc : t.cal = s.cal := by rw [← ht]; rfl
  have hq' : cutQueues t c = false := by
    unfold cutQueues calHolds at *
    rw [hv, hc]
    exact hq
  have hr : edgeReaches c e t q =
      modConv c (fun w => { w with cut := some { seq := q, entry := fld x.w10 20 16, item := none } }) (convSafe c t) := by
    rw [edgeReaches_seq (by rw [hs]; exact hx), if_pos ha, cutArrives_cuts hq' (by rw [hv]; exact hp)]
  have h0 (p : Fin 8) (h : p ≠ q) : edgeReaches c e t p = t := edgeReaches_absent (by rw [hs]; exact ho p h)
  have h1 (p : Fin 8) (h : p ≠ q) : edgeReaches c e (edgeReaches c e t q) p = edgeReaches c e t q := by
    refine edgeReaches_absent ?_
    rw [hr]
    exact (congrArg (fun z : Vector (Option Seq) 8 => z[p]) hs).trans (ho p h)
  rw [adcCut_edge he, ht, foldl_edgeReaches h0 h1, hr]
  exact ⟨(congrArg Conv.edges (upd_self _ _ _)).trans (congrArg Conv.edges hv), congrArg Conv.cut (upd_self _ _ _)⟩

end

section
variable {a : Word} {it : Item} {q : Fin 8} {x : Seq} {s u : State} (hs : hSlot it.handle = q.val) (hx : u.adc.seqs[q] = some x)
include hs hx

theorem adcSeqStart_answers (h : Works 0x30 a it s u) (hr : x.running = false) (ht : seqTrig x.w8 ≠ 3) :
    Answered it .done 0 0 (adcSeqStart a s) ∧ ∃ y, (adcSeqStart a s).adc.seqs[q] = some y ∧ y.running = true ∧ y.passes = 0 ∧
      y.records = 0 ∧ y.limit = passLimit it x := by
  rw [adcSeqStart_self hs hx h hr ht]
  obtain ⟨kt, hk, hr, -, -⟩ := commitStart_findItem h.item (findItem_aseq h.1.1)
  have hi : findItem (modSeq q (startedSeq (passLimit it x) none (firstDue x u)) (commitStart it u)) a = some kt := hk
  refine ⟨h.answers hi hr _ _ _, startedSeq (passLimit it x) none (firstDue x u) x, ?_, rfl, rfl, rfl, rfl⟩
  exact (congrArg (fun z : Adc => z.seqs[q]) (completeOpt_adc (some a) _ _ _ _)).trans (started_seq hs hx _ _)

theorem adcSeqStart_waits (h : Works 0x30 a it s u) (hr : x.running = false) (ht : seqTrig x.w8 = 3) :
    ∃ y, (adcSeqStart a s).adc.seqs[q] = some y ∧ y.running = true ∧ y.item = some a ∧ (y.inPass = true ∨ y.waiting = true) ∧
      y.limit = orElse0 (passLimit it x) 1 := by
  rw [adcSeqStart_counted hs hx h hr ht]
  obtain ⟨y, hy, rfl | rfl⟩ := askPass_seq (started_seq (it := it) hs hx (orElse0 (passLimit it x) 1) (some a))
  · exact ⟨_, hy, rfl, rfl, .inr rfl, rfl⟩
  · exact ⟨_, hy, rfl, rfl, .inl rfl, rfl⟩

end

/-- Settles O50: each item, trigger, conversion, cut and flush by its own lemma. -/
theorem adcConverts : Obligations.AdcConverts := by
  unfold Obligations.AdcConverts
  refine ⟨fun a it q x s u hs hx => ⟨fun h => ⟨fun hr => ?_, fun hr ht => ?_, fun hr ht => ?_⟩,
    fun h => ⟨fun hr => ?_, fun hr hp => ?_, fun hr hp hw hn => ?_⟩, ?_⟩,
    fun q c k nano x s => ⟨fun hx => ⟨?_, ?_, ?_, ?_⟩,
      fun h => ?_, fun r more hp hd hm hr => ?_, fun h => ?_, fun h => ?_, fun h => ?_⟩⟩
  · exact h.finishes (congrArg Host.Outcome.next (adcSeqStart_running hs hx h hr))
  · exact ⟨_, rfl, adcSeqStart_answers hs hx h hr ht⟩
  · exact ⟨_, rfl, adcSeqStart_waits hs hx h hr ht⟩
  · exact h.finishes (congrArg Host.Outcome.next (adcSeqStop_stopped hs hx h hr))
  · exact ⟨_, rfl, adcSeqStop_waits hs hx h hr hp⟩
  · obtain ⟨ha, hy⟩ := adcSeqStop_stops hs hx h hr hp hw hn
    exact ⟨_, rfl, ha, _, hy, rfl⟩
  · rintro h _ _ rfl rfl
    exact ⟨fun hi => h.finishes (congrArg Host.Outcome.next (adcUrgent_refuses hs hx h hi)),
      fun hi hq hp => ⟨_, rfl, adcUrgent_cuts hs hx h hi hq hp⟩,
      fun hi hq p y hp hy hd => ⟨_, rfl, adcUrgent_shielded hs hx h hi hq hp hy hd⟩,
      fun hi hq hf => ⟨_, rfl, adcUrgent_full hs hx h hi hq hf⟩⟩
  · rintro hr _ rfl
    exact ⟨fun ht => congrArg Host.Outcome.next (adcTrigger_none hx hr ht),
      fun ht hp => congrArg Host.Outcome.next (adcTrigger_missed hx hr ht hp),
      fun ht hp hw => ⟨_, rfl, adcTrigger_asks hx hr ht hp hw⟩⟩
  · exact fun hc hp => ⟨fun hl => ⟨_, rfl, conversionDone_goesOn hx hc hp hl⟩,
      fun hl => ⟨_, rfl, conversionDone_passEnds hx hc hp hl⟩⟩
  · rintro hh cut a it _ hc rfl ha hi rfl
    exact ⟨_, rfl, conversionDone_nextCut hx hc hh, conversionDone_answers hx hc ha hi⟩
  · exact fun ho hq hp e more he => ⟨fun ha => ⟨_, rfl, adcCut_cuts ho hx he ha hq hp⟩,
      fun ha => congrArg Host.Outcome.next (adcCut_ignored ho hx he ha)⟩
  · exact congrArg Host.Outcome.next (adcCut_none h)
  · exact ⟨_, rfl, streamFlush_writes hp hr hd hm⟩
  · exact congrArg Host.Outcome.next (if_neg (by rw [h]; decide))
  · exact congrArg Host.Outcome.next (irqGapEnd_idle h)
  · exact ⟨_, rfl, irqGapEnd_sends h⟩

end Sys2Proof.Machine

/-! PROOFS. Window monitors, fast comparators and Badger (spec/15). -/

namespace Sys2Proof.Machine

/-! ### The output of a monitor (R276, R278) -/

section
variable {k : Fin 64} {lv : CompLevel} {s : State}

/-- A monitor at the level `lv`; only the time of its last event may differ besides. -/
def wmAt (lv : CompLevel) (post : Option Time) (w : Wm) : Wm := { w with below := lv.below, above := lv.above, lastPost := post }

theorem wmAt_eq {w : Wm} (hb : w.below = lv.below) (ha : w.above = lv.above) : w = wmAt lv w.lastPost w := by
  unfold wmAt
  rw [← hb, ← ha]

theorem wmEvent_wm (act : Bool) : ∃ p, (wmEvent k act s).cmp.wms[k] = { s.cmp.wms[k] with lastPost := p } := by
  unfold wmEvent
  dsimp only
  split
  · exact ⟨some (now s), (congrArg (fun z : Cmp => z.wms[k]) (event_cmp _ _ _ _ _ _)).trans (upd_self _ _ _)⟩
  · exact ⟨_, rfl⟩

/-- Of its monitor a change of level takes the level alone, and an event its time. -/
theorem wmSet_wm : ∃ p, (wmSet k lv s).cmp.wms[k] = wmAt lv p s.cmp.wms[k] := by
  unfold wmSet
  extract_lets w act s1
  have h1 : s1.cmp.wms[k] = wmAt lv w.lastPost w := upd_self _ _ _
  split
  · next h =>
    rw [Bool.and_eq_true, decide_eq_true_eq, decide_eq_true_eq] at h
    exact ⟨w.lastPost, wmAt_eq h.1 h.2⟩
  · split
    · exact ⟨_, h1⟩
    · generalize hc : compEdge { comp := .wm k, active := act }
        (if act then countReg (wmReg k 0x10) 15 0 1 s1 else countReg (wmReg k 0x10) 31 16 1 s1) = s2
      have h2 : s2.cmp = s1.cmp := by
        rw [← hc]
        cases act <;> rfl
      obtain ⟨p, hp⟩ := wmEvent_wm (k := k) (s := s2) act
      refine ⟨p, (congrArg (fun z : Cmp => z.wms[k]) (fireWindow_cmp _ _ _)).trans (hp.trans ?_)⟩
      rw [h2, h1]
      rfl

/-- A monitor that no rail holds ends with its own output. -/
theorem railEdge_unheld (h : s.cmp.wms[k].owner = .host ∨ s.cmp.wms[k].owner = .free) : railEdge k s = s := by
  unfold railEdge
  rcases h with h | h <;> rw [h]

theorem railEdge_above {r : Fin 48} (h : s.cmp.wms[k].owner = .rail r) (ha : s.cmp.wms[k].above = true) :
    railEdge k s = ovCrossed r s := by
  unfold railEdge
  rw [h]
  exact if_pos ha

theorem railEdge_below {r : Fin 48} (h : s.cmp.wms[k].owner = .rail r) (ha : s.cmp.wms[k].above = false)
    (hb : s.cmp.wms[k].below = true) : railEdge k s = uvCrossed r s := by
  unfold railEdge
  rw [h]
  exact (if_neg (by rw [ha]; decide)).trans (if_pos hb)

/-- With no rail to hold it a monitor shows its level, and nothing else of it changes that `blanked` tells. -/
theorem railEdge_wmSet (h : s.cmp.wms[k].owner = .host ∨ s.cmp.wms[k].owner = .free) :
    ∃ p, (railEdge k (wmSet k lv s)).cmp.wms[k] = wmAt lv p s.cmp.wms[k] := by
  obtain ⟨p, hp⟩ := wmSet_wm (k := k) (lv := lv) (s := s)
  refine ⟨p, ?_⟩
  rw [railEdge_unheld (by rw [hp]; exact h), hp]

end

section
variable {k : Fin 64} {code : BitVec 16} {s : State} (hr : wmRuns k s = true)
include hr

theorem wmEdge_eq (hb : wmBlanked k s = false) : wmEdge k code s = railEdge k (wmSet k (wmJudge s k code) s) :=
  congrArg (railEdge k) (if_pos (by rw [hr, hb]; rfl))

theorem wmEdge_shows (hb : wmBlanked k s = false) (h : s.cmp.wms[k].owner = .host ∨ s.cmp.wms[k].owner = .free) :
    WmShows k (wmJudge s k code) (wmEdge k code s) := by
  rw [wmEdge_eq hr hb]
  obtain ⟨p, hp⟩ := railEdge_wmSet (lv := wmJudge s k code) h
  exact ⟨congrArg Wm.below hp, congrArg Wm.above hp⟩

variable {r : Fin 48} {x : Rail} (hb : wmBlanked k s = false) (ho : s.cmp.wms[k].owner = .rail r) (hx : s.rails[r] = some x)
  (hq : s.pwr.burrowing = false)
include hb ho hx hq

theorem wmEdge_latchesOv (ha : (wmJudge s k code).above = true) (hs : railRuns x = true ∨ x.state = .stopping)
    (hp : isPresent s (48 + r.val) 2 = false) : Latched (wmEdge k code s) (48 + r.val) 2 := by
  obtain ⟨p, hw⟩ := wmSet_wm (k := k) (lv := wmJudge s k code) (s := s)
  rw [wmEdge_eq hr hb, railEdge_above (r := r) (by rw [hw]; exact ho) (by rw [hw]; exact ha)]
  exact ovCrossed_latched ((congrArg (·[r]) wmSet_rails).trans hx) hs (wmSet_mayRaise ⟨hq, hp⟩)

theorem wmEdge_latchesUv (ha : (wmJudge s k code).above = false) (hl : (wmJudge s k code).below = true) (hs : x.state = .on)
    (hh : x.members.any (fun n => s.lanes[n].slewHeld) = false) (hp : isPresent s (48 + r.val) 1 = false) :
    Latched (wmEdge k code s) (48 + r.val) 1 := by
  obtain ⟨p, hw⟩ := wmSet_wm (k := k) (lv := wmJudge s k code) (s := s)
  rw [wmEdge_eq hr hb, railEdge_below (r := r) (by rw [hw]; exact ho) (by rw [hw]; exact ha) (by rw [hw]; exact hl)]
  exact uvCrossed_latched ((congrArg (·[r]) wmSet_rails).trans hx) hs (by rw [wmSet_lanes]; exact hh) (wmSet_mayRaise ⟨hq, hp⟩)

end

/-! ### The end of a blanking window (R280) -/

section
variable {k : Fin 64} {code : BitVec 16} {s : State}

/-- The monitor's window has ended. -/
def wmUnblanked (k : Fin 64) (s : State) : State := modWm k (fun x => { x with blanked := false }) s

theorem wmUnblanked_wm : (wmUnblanked k s).cmp.wms[k] = { s.cmp.wms[k] with blanked := false } := upd_self _ _ _

theorem wmUnblanked_src : wmSrc (wmUnblanked k s) k = wmSrc s k := by
  unfold wmSrc
  rw [wmUnblanked_wm]
  rfl

theorem wmUnblanked_thresh : wmThresh (wmUnblanked k s) k = wmThresh s k := by
  unfold wmThresh
  rw [wmUnblanked_wm]
  rfl

/-- Whether a window is open has no part in the level. -/
theorem wmUnblanked_judge : wmJudge (wmUnblanked k s) k code = wmJudge s k code := by
  have e : wmActive (wmUnblanked k s).cmp.wms[k] = wmActive s.cmp.wms[k] := by
    rw [wmUnblanked_wm]
    rfl
  unfold wmJudge wmHyst wmValue
  rw [e, wmUnblanked_src, wmUnblanked_thresh]
  rfl

theorem blankEnd_wmFiltered (hf : rfld s (wmReg k 0) 23 16 ≠ 0) : blankEnd (.wm k) code s = wmUnblanked k s :=
  if_neg (by simp [hf])

theorem blankEnd_wmShows (hr : wmRuns k s = true) (ho : s.cmp.wms[k].owner = .host ∨ s.cmp.wms[k].owner = .free)
    (hw : windowStands s.cmp.wms[k].blanked (reg s (wmReg k 8)) = true) (hf : rfld s (wmReg k 0) 23 16 = 0) :
    (blankEnd (.wm k) code s).cmp.wms[k].blanked = false ∧ WmShows k (wmJudge s k code) (blankEnd (.wm k) code s) := by
  have e : blankEnd (.wm k) code s = railEdge k (wmSet k (wmJudge (wmUnblanked k s) k code) (wmUnblanked k s)) := by
    refine if_pos ?_
    rw [hw, show wmRuns k (modWm k _ s) = true from hr, hf]
    rfl
  rw [e, wmUnblanked_judge]
  obtain ⟨p, hp⟩ := railEdge_wmSet (k := k) (lv := wmJudge s k code) (s := wmUnblanked k s) (by rw [wmUnblanked_wm]; exact ho)
  rw [wmUnblanked_wm] at hp
  exact ⟨congrArg Wm.blanked hp, congrArg Wm.below hp, congrArg Wm.above hp⟩

end

/-! ### The output of a fast comparator (R279) -/

section
variable {i : Fin 16} {lv : CompLevel} {raw : Time} {act : Bool} {s : State}

/-- The output of the comparator as it stands at `lv`. -/
def FcShows (i : Fin 16) (lv : CompLevel) (act : Bool) (s : State) : Prop :=
  s.cmp.fcs[i].below = lv.below ∧ s.cmp.fcs[i].above = lv.above ∧ s.cmp.fcs[i].active = act

/-- What stands of a comparator's output while an event's time is noted. -/
def FcStands (i : Fin 16) (s t : State) : Prop := ∃ p, t.cmp.fcs[i] = { s.cmp.fcs[i] with lastPost := p }

theorem FcStands.of_cmp {t : State} (h : t.cmp = s.cmp) : FcStands i s t := ⟨s.cmp.fcs[i].lastPost, by rw [h]⟩

theorem FcStands.trans {t u : State} (h : FcStands i s t) (g : FcStands i t u) : FcStands i s u := by
  obtain ⟨p, hp⟩ := h
  obtain ⟨r, hr⟩ := g
  exact ⟨r, by rw [hr, hp]⟩

theorem fcEvent_stands (act : Bool) (s : State) : FcStands i s (fcEvent i act s) := by
  unfold fcEvent
  split
  · exact ⟨some (now s), (congrArg (fun z : Cmp => z.fcs[i]) (event_cmp _ _ _ _ _ _)).trans (upd_self _ _ _)⟩
  · exact .of_cmp rfl

/-- The edge is told to sequences, to the mains judgement and by an event; then the input of Badger sees it. -/
def fcTold (i : Fin 16) (act : Bool) (s : State) : State :=
  fcEvent i act (compEdge { comp := .fc i, active := act } (mainsNotes i act s))

theorem fcTold_stands (act : Bool) (s : State) : FcStands i s (fcTold i act s) :=
  .trans (t := compEdge { comp := .fc i, active := act } (mainsNotes i act s)) ⟨s.cmp.fcs[i].lastPost, rfl⟩ (fcEvent_stands act _)

/-- The comparator's own state at the level `lv`. -/
def fcAt (i : Fin 16) (lv : CompLevel) (s : State) : State :=
  modFc i (fun y => { y with
    below := lv.below, above := lv.above, active := fcActiveAt (fcMode s i) lv,
    count := if fcActiveAt (fcMode s i) lv && !y.active then BitVec.ofNat 16 (satAdd 16 y.count.toNat 1) else y.count }) s

theorem fcAt_shows : FcShows i lv (fcActiveAt (fcMode s i) lv) (fcAt i lv s) := by
  unfold FcShows fcAt modFc
  rw [upd_self]
  exact ⟨rfl, rfl, rfl⟩

theorem fcSet_eq : fcSet i lv raw s = if fcActiveAt (fcMode s i) lv = s.cmp.fcs[i].active then fcAt i lv s
    else tmpChange i (fcActiveAt (fcMode s i) lv) (sideOf s i lv) raw (fcTold i (fcActiveAt (fcMode s i) lv) (fcAt i lv s)) := rfl

theorem FcShows.stands {t : State} (h : FcShows i lv act s) (g : FcStands i s t) : FcShows i lv act t := by
  obtain ⟨p, hp⟩ := g
  unfold FcShows at *
  rw [hp]
  exact h

/-- No input of Badger: the output alone. -/
theorem tmpChange_other (hi : 8 ≤ i.val) (side : Nat) : tmpChange i act side raw s = s := by
  unfold tmpChange fin?
  rw [dif_neg (by omega)]

theorem fcSet_shows (hi : 8 ≤ i.val) : FcShows i lv (fcActiveAt (fcMode s i) lv) (fcSet i lv raw s) := by
  rw [fcSet_eq]
  split
  · exact fcAt_shows
  · rw [tmpChange_other hi]
    exact fcAt_shows.stands (fcTold_stands _ _)

theorem fcSet_blanked (hi : 8 ≤ i.val) : (fcSet i lv raw s).cmp.fcs[i].blanked = s.cmp.fcs[i].blanked := by
  have e : (fcAt i lv s).cmp.fcs[i].blanked = s.cmp.fcs[i].blanked := by
    unfold fcAt modFc
    rw [upd_self]
  rw [fcSet_eq]
  split
  · exact e
  · rw [tmpChange_other hi]
    obtain ⟨p, hp⟩ := fcTold_stands (i := i) (fcActiveAt (fcMode s i) lv) (fcAt i lv s)
    exact (congrArg Fc.blanked hp).trans e

end

/-- The comparator's window has ended. -/
def fcUnblanked (i : Fin 16) (s : State) : State := modFc i (fun x => { x with blanked := false }) s

section
variable {i : Fin 16} {mv : Nat} {code : BitVec 16} {raw : Time} {s : State}

theorem fcUnblanked_fc : (fcUnblanked i s).cmp.fcs[i] = { s.cmp.fcs[i] with blanked := false } := upd_self _ _ _

theorem fcUnblanked_judge : fcJudge (fcUnblanked i s) i mv = fcJudge s i mv := by
  unfold fcJudge
  rw [fcUnblanked_fc]
  rfl

variable (hr : fcRuns i s = true)
include hr

theorem fcInput_eq (hb : fcBlanked i s = false) : fcInput i mv raw s = fcSet i (fcJudge s i mv) raw s :=
  if_pos (by rw [hr, hb]; rfl)

theorem fcInput_shows (hi : 8 ≤ i.val) (hb : fcBlanked i s = false) :
    FcShows i (fcJudge s i mv) (fcActiveAt (fcMode s i) (fcJudge s i mv)) (fcInput i mv raw s) := by
  rw [fcInput_eq hr hb]
  exact fcSet_shows hi

theorem blankEnd_fcShows (hi : 8 ≤ i.val) (hw : windowStands s.cmp.fcs[i].blanked (reg s (0x7688 + i.val * 0x10)) = true)
    (hf : rfld s (0x7680 + i.val * 0x10) 15 8 = 0) : (blankEnd (.fc i) code s).cmp.fcs[i].blanked = false ∧
    FcShows i (fcJudge s i code.toNat) (fcActiveAt (fcMode s i) (fcJudge s i code.toNat)) (blankEnd (.fc i) code s) := by
  have e : blankEnd (.fc i) code s = fcSet i (fcJudge (fcUnblanked i s) i code.toNat) (now s) (fcUnblanked i s) := by
    refine if_pos ?_
    rw [hw, show fcRuns i (modFc i _ s) = true from hr, hf]
    rfl
  rw [e, fcUnblanked_judge]
  refine ⟨?_, fcSet_shows (s := fcUnblanked i s) hi⟩
  rw [fcSet_blanked hi, fcUnblanked_fc]

end

/-! ### Badger's records (R284, R285) -/

section
variable {i : Fin 8} {side : Nat} {raw : Time} {s : State}

theorem reg_countReg_ne {o j : Nat} (hi lo n : Nat) (h : o ≠ j) : reg (countReg o hi lo n s) j = reg s j := reg_setReg_ne _ _ h

/-- A record's cause latches; what follows it takes no cause back. -/
theorem tamperReport_latched (pst : Nat) (hd : 1 ≤ side ∧ side ≤ 16) (hb : s.pwr.burrowing = false) :
    Latched (tamperReport i side pst raw s) (178 + i.val) side := by
  have hq : (modTamper i (fun x => { x with gap := true, count := 0 }) (tamperCommit i.val side 1 pst false raw s)).pwr.burrowing = false :=
    (tamperCommit_within (L := 0xc00042) i.val side 1 pst false raw (.refl _ s) (.of rfl)).quiet hb (by decide)
  have hl := raise_latched (n := 178 + i.val) (d := side) (by omega) hd hq
  unfold tamperReport
  exact (tamperFires_within (L := 0xffffff) _ _ (sendVector_within _ (event_within _ _ _ _ _ (.refl _ _) (.of rfl)) (.of rfl))
    (.of rfl)).latched hl rfl

theorem sideOf_range (s : State) (i : Fin 16) (lv : CompLevel) : 1 ≤ sideOf s i lv ∧ sideOf s i lv ≤ 16 := by
  unfold sideOf
  split
  · decide
  · split <;> decide

/-- An input of MASK that becomes active outside REC_GAP is a fault. -/
theorem tamperEdge_latched (hd : 1 ≤ side ∧ side ≤ 16) (hm : rbit s 0x7780 i.val = true) (hs : s.jnl.scanned = true)
    (hg : s.cmp.tampers[i].gap = false) (hb : s.pwr.burrowing = false) :
    Latched (tamperEdge i side raw s) (178 + i.val) side := by
  unfold tamperEdge
  rw [if_neg (by rw [hm]; decide)]
  dsimp only
  rw [if_neg (by rw [hs]; decide), if_neg (by rw [hg]; decide)]
  exact tamperReport_latched _ hd hb

theorem tmpChange_active : tmpChange (tmpIndex i) true side raw s =
    tamperEdge i side raw (countReg (0x77B0 + 4 * i.val) 15 0 1 s) := by
  unfold tmpChange
  rw [show fin? 8 (tmpIndex i).val = some i from fin?_val i]
  rfl

theorem tmpChange_inactive : tmpChange (tmpIndex i) false side raw s = tamperReturns i s := by
  unfold tmpChange
  rw [show fin? 8 (tmpIndex i).val = some i from fin?_val i]
  rfl

/-- An input of Badger posts no event of its own as a comparator. -/
theorem fcTold_tmp (act : Bool) (s : State) : fcTold (tmpIndex i) act s =
    compEdge { comp := .fc (tmpIndex i), active := act } (mainsNotes (tmpIndex i) act s) := by
  have h : ¬ 14 ≤ (tmpIndex i).val := Nat.not_le.2 (Nat.lt_trans i.isLt (by decide))
  exact if_neg (by simp [h])

variable {lv : CompLevel}

theorem fcSet_latched (hm : rbit s 0x7780 i.val = true) (hn : s.cmp.fcs[tmpIndex i].active = false)
    (ha : fcActiveAt (fcMode s (tmpIndex i)) lv = true) (hs : s.jnl.scanned = true) (hg : s.cmp.tampers[i].gap = false)
    (hb : s.pwr.burrowing = false) :
    Latched (fcSet (tmpIndex i) lv raw s) (178 + i.val) (sideOf s (tmpIndex i) lv) := by
  rw [fcSet_eq, if_neg (by rw [ha, hn]; decide), ha, tmpChange_active, fcTold_tmp]
  refine tamperEdge_latched (sideOf_range _ _ _) ?_ hs hg hb
  exact (congrArg (fun w : Word => bit w i.val) (reg_countReg_ne _ _ _ (by omega))).trans hm

theorem tamperReturns_fcs (s : State) : (tamperReturns i s).cmp = s.cmp :=
  (tamperReturns_within (L := 0x804a083) i (.refl _ s) (.of rfl)).keeps .cmp rfl

theorem fcSet_inactive (hn : s.cmp.fcs[tmpIndex i].active = true) (ha : fcActiveAt (fcMode s (tmpIndex i)) lv = false) :
    (fcSet (tmpIndex i) lv raw s).cmp.fcs[tmpIndex i].active = false := by
  rw [fcSet_eq, if_neg (by rw [ha, hn]; decide), ha, tmpChange_inactive, tamperReturns_fcs]
  exact ((fcAt_shows (i := tmpIndex i)).stands (fcTold_stands false _)).2.2.trans ha

end

/-! ### Badger's commands -/

section
variable {i j : Fin 8} {mv mw : Nat} {raw rax : Time} {s : State}

/-- In one DEN cycle each input has its own entry, whatever the order (R284). -/
theorem tamperCycle_swap (h : i ≠ j) (e f : TamperEdge) (he : e.input = i) (hf : f.input = j) (s : State) :
    tamperCycle [f, e] s = tamperCycle [e, f] s := by
  have hfind (k : Fin 8) : [f, e].find? (fun e => e.input = k) = [e, f].find? (fun e => e.input = k) := by
    simp only [List.find?_cons, List.find?_nil, he, hf]
    by_cases hi : i = k
    · have hj : j ≠ k := fun c => h (hi.trans c.symm)
      simp [hi, hj]
    · simp [hi]
  unfold tamperCycle
  simp only [hfind]

theorem tamperCycle_one (e : TamperEdge) (s : State) : tamperCycle [e] s = tamperBegins e.input e.mv e.raw s := by
  have hne (t : State) (k : Fin 8) (h : k ≠ e.input) : (match [e].find? (fun e => e.input = k) with
      | some e => tamperBegins k e.mv e.raw t
      | none => t) = t := by
    simp [Ne.symm h]
  refine (foldl_only (List.nodup_finRange 8) (List.mem_finRange e.input) (hne s) (hne _)).trans ?_
  simp

theorem tamper_begins (hm : rbit s 0x7780 i.val = true) (hn : s.cmp.fcs[tmpIndex i].active = false)
    (ha : fcActiveAt (fcMode s (tmpIndex i)) (fcJudge s (tmpIndex i) mv) = true) :
    tamperCycle [{ input := i, mv := mv, raw := raw }] s = fcInput (tmpIndex i) mv raw s :=
  (tamperCycle_one _ s).trans (if_pos (by rw [hm, hn, ha]; rfl))

variable (hr : fcRuns (tmpIndex i) s = true) (hv : fcBlanked (tmpIndex i) s = false)
include hr hv

theorem fcInput_latched (hb : s.pwr.burrowing = false) (hm : rbit s 0x7780 i.val = true) (hn : s.cmp.fcs[tmpIndex i].active = false)
    (ha : fcActiveAt (fcMode s (tmpIndex i)) (fcJudge s (tmpIndex i) mv) = true) (hs : s.jnl.scanned = true)
    (hg : s.cmp.tampers[i].gap = false) :
    Latched (fcInput (tmpIndex i) mv raw s) (178 + i.val) (sideOf s (tmpIndex i) (fcJudge s (tmpIndex i) mv)) := by
  rw [fcInput_eq hr hv]
  exact fcSet_latched hm hn ha hs hg hb

theorem tamperClears_ends (hn : s.cmp.fcs[tmpIndex i].active = true)
    (ha : fcActiveAt (fcMode s (tmpIndex i)) (fcJudge s (tmpIndex i) mv) = false) :
    (tamperClears i mv s).cmp.fcs[tmpIndex i].active = false := by
  have e : tamperClears i mv s = fcInput (tmpIndex i) mv (now s) s := if_pos (by rw [hn, ha]; rfl)
  rw [e, fcInput_eq hr hv]
  exact fcSet_inactive hn ha

end

section
variable {i : Fin 8} {s : State} (hg : s.cmp.tampers[i].gap = true)
include hg

theorem recGapEnd_tamper : (recGapEnd i s).cmp.tampers[i] =
    if s.cmp.tampers[i].count = 0 then { s.cmp.tampers[i] with gap := false } else { s.cmp.tampers[i] with count := 0 } := by
  unfold recGapEnd
  rw [if_neg (by rw [hg]; decide)]
  by_cases h : s.cmp.tampers[i].count = 0
  · rw [if_pos h, if_pos h]
    exact upd_self _ _ _
  · rw [if_neg h, if_neg h]
    extract_lets s1
    have w := tamperFires_within (L := 0x8f5a0c3) s i (tamperRests_within i (.refl _ s1) (.of rfl)) (.of rfl)
    have c : (tamperCommit i.val s.cmp.tampers[i].side.toNat s.cmp.tampers[i].count s.cmp.tampers[i].pst.code false
        s.cmp.tampers[i].first s).cmp = s.cmp :=
      (tamperCommit_within (L := 0xc00042) i.val _ _ _ false _ (.refl _ s) (.of rfl)).keeps .cmp rfl
    refine (congrArg (fun z : Cmp => z.tampers[i]) (w.keeps .cmp rfl)).trans ((upd_self _ _ _).trans ?_)
    rw [c]

/-- The count starts again, and so does the gap where edges were counted. -/
theorem recGapEnd_counts : (recGapEnd i s).cmp.tampers[i].count = 0 ∧
    ((recGapEnd i s).cmp.tampers[i].gap = true ↔ s.cmp.tampers[i].count ≠ 0) := by
  rw [recGapEnd_tamper hg]
  by_cases h : s.cmp.tampers[i].count = 0
  · rw [if_pos h]
    exact ⟨h, nofun, fun n => absurd h n⟩
  · rw [if_neg h]
    exact ⟨rfl, fun _ => h, fun _ => hg⟩

end

/-- Settles O51: a monitor's edge by what `wmSet` leaves of the monitor, an input of Badger by the record that its edge makes. -/
theorem comparatorsFollow : Obligations.ComparatorsFollow := by
  unfold Obligations.ComparatorsFollow
  refine ⟨fun k r i code mv lv s => ⟨?_, ?_⟩, fun i j mv mw lv raw rax s => ⟨fun h => ?_, ?_⟩⟩
  · rintro hr rfl
    refine ⟨fun ho => ⟨fun hb => ⟨_, rfl, wmEdge_shows hr hb ho⟩, fun hw hf => ⟨_, rfl, blankEnd_wmShows hr ho hw hf⟩⟩,
      fun hf => congrArg Host.Outcome.next (blankEnd_wmFiltered hf),
      fun x ho hb hx hq => ⟨fun ha hs hp => ?_, fun ha hl hs hh hp => ?_⟩⟩
    · exact ⟨_, rfl, wmEdge_latchesOv hr hb ho hx hq ha hs hp⟩
    · exact ⟨_, rfl, wmEdge_latchesUv hr hb ho hx hq ha hl hs hh hp⟩
  · rintro hr hi rfl
    refine ⟨fun hb => ⟨_, rfl, fcInput_shows hr hi hb⟩, fun e hw hf => ?_⟩
    obtain ⟨hn, hs⟩ := blankEnd_fcShows (code := code) hr hi hw hf
    exact ⟨_, rfl, hn, by rw [e]; exact hs.2.2⟩
  · exact congrArg Host.Outcome.next (tamperCycle_swap h _ _ rfl rfl s)
  · rintro hb hr hv rfl
    refine ⟨fun hm hn ha hs hg => ⟨⟨_, congrArg Host.Outcome.next (tamper_begins hm hn ha), ?_⟩, ⟨_, rfl, ?_⟩⟩,
      fun hg => ⟨_, rfl, recGapEnd_counts hg⟩, fun hn ha => ⟨_, rfl, tamperClears_ends hr hv hn ha⟩⟩
    · exact fcInput_latched hr hv hb hm hn ha hs hg
    · exact fcInput_latched hr hv hb hm hn ha hs hg

end Sys2Proof.Machine

/-! PROOFS. A thermal sample while the hub shuts down toward BURROW (spec/16, R43, R291). -/

namespace Sys2Proof.Machine

/-! ### A sample that ends the shutdown -/

/-- The run downward that BURROW waits for; it has no node left. -/
def lastRunDown : Graph :=
  { nodes := [], onFail := false, boot := false, state := .runDown, active := 0, done := 0, failed := 0, unwinding := false,
    by_ := .burrow, item := none }

/-- VDEN is up, the shutdown toward BURROW is under way, and graph slot 1 runs down for it; TX0 is a member of group 0. -/
def burrowNear : State :=
  setReg (0x7840 + 8 * 24) 1 { State.reset with
    den := { Den.reset with up := true }
    pwr := { Power.reset with stage := .started, burrowing := true }
    graphs := State.reset.graphs.set 1 (some lastRunDown) }

/-- TX0 reads SHORT and group 0 raises its cause; the raise settles the last run, BURROW is entered and the Den domain falls,
so that no sensor holds the reading that the sample brought. -/
theorem burrowNear_forgets :
    (sampleSensors (Vector.replicate 24 1) (Vector.replicate 8 0) burrowNear).thm.sensors[(0 : Fin 32)].raw = 0 := by decide +kernel

/-- Refutes O52: the statement keeps the readings of a sample in every state with VDEN up, those in which the sample's own raise
ends the shutdown toward BURROW among them. -/
theorem not_temperatureIsWatched : ¬ Obligations.TemperatureIsWatched := by
  unfold Obligations.TemperatureIsWatched
  intro h
  obtain ⟨-, hs, -⟩ := h 0 (newItem 0 0 0 0 0 0 (Vector.replicate 10 0) 0) 0 0 0 none
    { w5 := 0, w6 := 0, w7 := 0, w8 := 0, state := .inactive, stale := false, dwell := 0 } 0 0
    (Vector.replicate 24 1) (Vector.replicate 8 0) burrowNear burrowNear
  obtain ⟨-, hd, -⟩ := hs rfl
  obtain ⟨hr, -⟩ := hd 0 rfl
  rw [burrowNear_forgets] at hr
  exact absurd hr (by decide)

end Sys2Proof.Machine

/-! PROOFS. CAL_RUN while a graph's run names the same item (spec/17, R185, R303). -/

namespace Sys2Proof.Machine

/-! ### A run that CLAMPED ends before its verdict -/

/-- A CAL_RUN of word 169 alone, without CALREF. -/
def calItem : Item := newItem 7 0 0x5A 0 1 0 ((Vector.replicate 10 0).set 0 0x00A900A9) 0

/-- Nothing calibrates. Graph slot 0 has a run whose item is the CAL_RUN at the head of its queue. -/
def calInRun : State :=
  { State.reset with
    den := { Den.reset with up := true }
    clk := { Clk.reset with rootRun := true }
    pwr := { Power.reset with stage := .started }
    graphs := State.reset.graphs.set 0 (some emptyRun)
    eng := { State.reset.eng with items := [calItem], line := [7] } }

/-- A zero so far off that the correction is clamped. -/
def farZero : CalWord := { zeros := [100000], seen := 0, ref := 0 }

/-- The run as it begins. -/
def calBegun : State :=
  setRun ⟨7, calOrder 169 169, 0, 0, 0, false⟩ (modCal (fun c => { c with lastRef := if false then 0 else c.lastRef })
    (commitStart calItem (takenUp calItem calInRun)))

/-- The run with its one word determined. -/
def calEnded : State := [farZero].foldl (fun t c => calOne false c t) calBegun

/-- The job that the run has then. -/
def calJobDone : CalJob := { item := 7, todo := [], determined := 1, skipped := 0, first := 0, noisy := false }

/-- The state in which CAL_RUN has told its counts and is to have its verdict. -/
def calTold : State :=
  event 0x0D02 0 0 0 1 (calRelease (clampedEnds (setTrimmed (modCal (fun c => { c with run := none }) calEnded))))

theorem calInRun_works : Works 0x5A 7 calItem calInRun (takenUp calItem calInRun) := by
  refine ⟨⟨rfl, rfl, ?_, ?_⟩, rfl, ?_⟩ <;> decide +kernel

theorem calEnded_job : calEnded.cal.run = some calJobDone := by decide +kernel

/-- CLAMPED is raised, with it every graph looks at its run, and the run that ends takes the item with it. -/
theorem calTold_gone : findItem calTold calItem.aseq = none := by decide +kernel

/-- The answer that the item has then is the run's, without a count. -/
theorem calTold_answer : ∀ c ∈ calTold.eng.comps, c.result = 0 := by decide +kernel

/-- Refutes O53: the statement ranges over every state, one in which a graph's run names the CAL_RUN as its item among them
(`calInRun`). The raise of CLAMPED lets the graph's run end, whose verdict answers the item with RESULT 0 before CAL_RUN can: no
completion tells that one word was determined. -/
theorem not_calibrationItemsAnswer : ¬ Obligations.CalibrationItemsAnswer := by
  unfold Obligations.CalibrationItemsAnswer
  intro h
  obtain ⟨-, hw, -⟩ := h 7 0 0 [farZero] [] calItem calInRun (takenUp calItem calInRun)
  obtain ⟨-, -, hrun⟩ := hw calInRun_works rfl 169 169 false 0 (by decide +kernel) (by decide +kernel) (by decide +kernel)
    (by decide +kernel)
  obtain ⟨-, hgo⟩ := hrun (by decide) (by decide) (.inl rfl) _ rfl
  obtain ⟨-, hdone, -⟩ := hgo (.inl rfl) calEnded rfl calJobDone calEnded_job
  have hf : Finishes _ _ calItem _ _ _ calTold := hdone rfl rfl _ rfl 1 (by decide)
  obtain ⟨k, hk, hr⟩ := hf.result_of_gone calTold_gone (by decide)
  rw [calTold_answer k hk] at hr
  exact absurd hr (by decide)

end Sys2Proof.Machine

/-! PROOFS. Two-wire ports: recovery, the stuck bus, alerts and the periodic census (spec/18). -/

namespace Sys2Proof.Machine

/-! ### One port -/

section
variable {p : Fin 4} {s : State} {a : Word} {it : Item} {d : Nat}

theorem modPort_self (f : Port → Port) : (modPort p f s).twb.ports[p] = f s.twb.ports[p] := upd_self _ _ _

theorem event_twb (code : BitVec 16) (w : Word) (i e : Nat) (v : DWord) (s : State) : (event code w i e v s).twb = s.twb :=
  (event_within (L := 0x4a083) code w i e v (.refl _ s) (.of rfl)).keeps .twb rfl

theorem endCause_twb (n e : Nat) (s : State) : (endCause n e s).twb = s.twb :=
  (endCause_within (L := 0x8000000) n e (.refl _ s) (.of rfl)).keeps .twb rfl

theorem rootWake_twb (s : State) : (rootWake s).twb = s.twb :=
  (rootWake_within (L := 0x40) (.refl _ s) (.of rfl)).keeps .twb rfl

/-- The verdict of a transfer of which the last attempt's acknowledged bytes tell. -/
def failVerdict (ind : Bool) : Verdict := if ind then .failedIndeterminate else .failed

theorem portIdle_answered {v : Verdict} {r : DWord} (h : Answered it v d r s) : Answered it v d r (portIdle p s) :=
  h.of rfl rfl

theorem xFailAs_answers (ind : Bool) (hp : s.twb.ports[p].item = some a) (hi : findItem s a = some it) :
    Answered it (failVerdict ind) d (xFailed s.twb.ports[p]) (xFailAs p d ind s) := by
  have hb : s.twb.ports[p].item.bind (findItem s) = some it := by
    rw [hp]
    exact hi
  have ea := findItem_aseq hi
  unfold xFailAs
  dsimp only
  rw [hb]
  refine portIdle_answered (complete_answers ?_ _ _ _)
  rw [ea]
  exact (findItem_of_items (s := s) rfl a).trans hi

theorem xFail_answers {x : Port} (surely : Bool) (hx : s.twb.ports[p] = x) (hp : x.item = some a) (hi : findItem s a = some it) :
    Answered it (failVerdict (surely || x.addrAck || 0 < x.acked)) d (xFailed x) (xFail p d surely s) := by
  subst hx
  exact xFailAs_answers _ hp hi

theorem failVerdict_acked (b : Bool) (n : Nat) :
    (if b = true ∨ 0 < n then .failedIndeterminate else .failed) = failVerdict (false || b || 0 < n) := by
  cases b <;> simp [failVerdict]

end

/-! ### An attempt that starts (R314) -/

section
variable {p : Fin 4} {s : State} {it : Item}

/-- The port once its attempt has started. -/
def begunAttempt (x : Port) : Port :=
  { x with op := .xfer, attempts := x.attempts + 1, acked := 0, addrAck := false, again := false }

theorem attempt_eq (h : s.twb.ports[p].item.bind (findItem s) = some it) : attempt p s =
    emit (.bus p.val (BitVec.ofNat 7 (xAddr it)) (xWrite s it s.twb.ports[p].wdata) (xRead s it) (bit (opv it 4) 22))
      (modPort p begunAttempt (rootWake s)) := by
  unfold attempt
  dsimp only
  rw [h]
  rfl

theorem attempt_port (h : s.twb.ports[p].item.bind (findItem s) = some it) :
    (attempt p s).twb.ports[p] = begunAttempt s.twb.ports[p] := by
  rw [attempt_eq h]
  exact (modPort_self _).trans (by rw [rootWake_twb])

theorem attempt_none (h : s.twb.ports[p].item.bind (findItem s) = none) : attempt p s = s := by
  unfold attempt
  dsimp only
  rw [h]

/-- An attempt has no part in what the port knows of its lines. -/
theorem attempt_lines (P : Port → Prop) (hP : ∀ x, P x → P (begunAttempt x)) (h : P s.twb.ports[p]) :
    P (attempt p s).twb.ports[p] := by
  cases e : s.twb.ports[p].item.bind (findItem s) with
  | none => rw [attempt_none e]; exact h
  | some it => rw [attempt_port e]; exact hP _ h

end

/-! ### Recovery (R320) -/

/-- The state in which recovery runs. -/
def recovering (p : Fin 4) (s : State) : State := countReg (twbReg p 0x1C) 15 0 1 (rootWake s)

theorem recovering_within {L : Nat} (p : Fin 4) (s : State) (hl : Sub 0x42 L) : Within L s (recovering p s) :=
  countReg_within _ _ _ _ (rootWake_within (.refl _ s) (.le rfl hl)) (.le rfl hl)

/-- The port once its lines are free again. -/
def freedPort (x : Port) : Port := { x with op := .idle, stuckSda := false, stuckScl := false, needRecovery := false, bus := .free }

/-- Nothing of a stuck line is left. -/
def LinesFree (x : Port) : Prop := x.stuckSda = false ∧ x.stuckScl = false ∧ x.needRecovery = false ∧ x.bus = .free

/-- The state in which both lines have been seen high. -/
def recovered (p : Fin 4) (s : State) : State :=
  event 0x0E05 0 p.val 0 0 (endCause (164 + p.val) 1 (endCause (164 + p.val) 2 (modPort p freedPort
    (emit (.recovery p.val) (recovering p s)))))

theorem recovered_port (p : Fin 4) (s : State) : (recovered p s).twb.ports[p] = freedPort s.twb.ports[p] := by
  unfold recovered
  rw [event_twb, endCause_twb, endCause_twb, modPort_self]
  exact congrArg (fun z : Twb => freedPort z.ports[p]) (rootWake_twb s)

section
variable {p : Fin 4} {sda : Bool} {s : State} (hm : mayRecover s p = true)
include hm

theorem recovery_scl : recovery p false sda s = raiseOnce (164 + p.val) 2
    (modPort p (fun y => { y with op := .recover, stuckScl := true, needRecovery := true }) (recovering p s)) := by
  unfold recovery
  rw [hm]
  rfl

theorem recovery_sda : recovery p true false s =
    raiseOnce (164 + p.val) 1 (modPort p (fun y => { y with op := .recover, stuckSda := true, needRecovery := true })
      (emit (.recovery p.val) (recovering p s))) := by
  unfold recovery
  rw [hm]
  rfl

theorem recovery_latchesScl (hb : s.pwr.burrowing = false) (hp : isPresent s (164 + p.val) 2 = false) :
    Latched (recovery p false sda s) (164 + p.val) 2 := by
  rw [recovery_scl hm]
  exact ((modPort_within (L := 0x10000000043) _ _ (recovering_within p s (.of rfl)) (.of rfl)).mayRaise ⟨hb, hp⟩ rfl).once
    (by omega) (by decide)

theorem recovery_latchesSda (hb : s.pwr.burrowing = false) (hp : isPresent s (164 + p.val) 1 = false) :
    Latched (recovery p true false s) (164 + p.val) 1 := by
  rw [recovery_sda hm]
  exact ((modPort_within (L := 0x10000000043) _ _ (emit_within _ (recovering_within p s (.of rfl)) (.of rfl)) (.of rfl)).mayRaise
    ⟨hb, hp⟩ rfl).once (by omega) (by decide)

theorem recovery_eq : recovery p true true s =
    if s.twb.ports[p].item.isSome && 0 < s.twb.ports[p].attempts then attempt p (recovered p s)
    else modPort p (fun y => { y with item := none }) (recovered p s) := by
  unfold recovery
  rw [hm]
  rfl

theorem recovery_rest : Within 0x10000000041 (recovered p s) (recovery p true true s) := by
  rw [recovery_eq hm]
  exact .ite (attempt_within p (.refl _ _) (.of rfl)) (modPort_within _ _ (.refl _ _) (.of rfl))

theorem recovery_frees : LinesFree (recovery p true true s).twb.ports[p] := by
  have h : LinesFree (recovered p s).twb.ports[p] := by
    rw [recovered_port]
    exact ⟨rfl, rfl, rfl, rfl⟩
  rw [recovery_eq hm]
  split
  · exact attempt_lines LinesFree (fun _ h => h) h
  · rw [modPort_self]
    exact h

theorem recovery_out : .recovery p.val ∈ (recovery p true true s).out := by
  have w : Within 0x1000804a083 (emit (.recovery p.val) (recovering p s)) (recovered p s) :=
    event_within _ _ _ _ _ (endCause_within _ _ (endCause_within _ _ (modPort_within _ _ (.refl _ _) (.of rfl)) (.of rfl)) (.of rfl))
      (.of rfl)
  exact (recovery_rest hm).sent.subset (w.sent.subset List.mem_cons_self)

theorem recovery_absent : isPresent (recovery p true true s) (164 + p.val) 1 = false ∧
    isPresent (recovery p true true s) (164 + p.val) 2 = false := by
  have e (d : Nat) : isPresent (recovery p true true s) (164 + p.val) d = isPresent (recovered p s) (164 + p.val) d :=
    isPresent_of_flt ((recovery_rest hm).keeps .flt rfl) _ _
  have g (d : Nat) : isPresent (recovered p s) (164 + p.val) d = isPresent (endCause (164 + p.val) 1 (endCause (164 + p.val) 2
      (modPort p freedPort (emit (.recovery p.val) (recovering p s))))) (164 + p.val) d :=
    isPresent_of_flt ((event_within (L := 0x4a083) _ _ _ _ _ (.refl _ _) (.of rfl)).keeps .flt rfl) _ _
  rw [e, e, g, g]
  exact ⟨endCause_absent _ ⟨164 + p.val, by omega⟩ 0, endCause_keepsAbsent 1 (endCause_absent _ ⟨164 + p.val, by omega⟩ 1)⟩

end

/-! ### A bus that stays stuck (R319) -/

section
variable {p : Fin 4} {a : Word} {it : Item} {s : State} (hs : stuck s p = true)
  (ha : s.twb.ports[p].item.or (readyOn s p) = some a) (hi : findItem s a = some it)
include hs ha hi

theorem busStuck_failsTransfer (hc : censusItem s p ≠ some a) : Answered it
    (if s.twb.ports[p].addrAck = true ∨ 0 < s.twb.ports[p].acked then .failedIndeterminate else .failed) 0x17
    (xFailed s.twb.ports[p]) (busStuck p s) := by
  have e : busStuck p s = xFail p 0x17 false (modPort p (fun x => { x with item := some a }) s) := by
    unfold busStuck
    rw [hs, ha]
    exact if_neg hc
  have hp : (modPort p (fun x => { x with item := some a }) s).twb.ports[p] = { s.twb.ports[p] with item := some a } := modPort_self _
  rw [e, failVerdict_acked]
  exact xFail_answers (x := { s.twb.ports[p] with item := some a }) false hp rfl hi

theorem busStuck_failsCensus (hc : censusItem s p = some a) : Answered it .failed 0x17 0 (busStuck p s) := by
  have e : busStuck p s = complete a .failed 0x17 0 (modPort p (fun x => { x with census := none, item := none }) s) := by
    unfold busStuck
    rw [hs, ha]
    exact if_pos hc
  rw [e]
  exact complete_answers (s := modPort p _ s) hi _ _ _

end

/-! ### Alerts (R321, R322) -/

section
variable {p : Fin 4} {rounds l : List AlertRound} {low : Bool} {s : State}

theorem alertSeen_port (low : Bool) (s : State) : (alertSeen p low s).twb.ports[p] = { s.twb.ports[p] with alertLow := low } := by
  unfold alertSeen
  cases low
  · exact (congrArg (fun z : Twb => z.ports[p]) (endCause_twb _ _ _)).trans (modPort_self _)
  · exact modPort_self _

theorem alertSeen_high (s : State) : isPresent (alertSeen p false s) (164 + p.val) 3 = false :=
  endCause_absent _ ⟨164 + p.val, by omega⟩ 2

/-- The rounds of a sweep: each a read of 0x0C, and what its answer means. -/
def roundsDone (p : Fin 4) (l : List AlertRound) (s : State) : State :=
  l.foldl (alertRound p) (l.foldl (fun t _ =>
    emit (.bus p.val 0x0C [] (.bytes (if rbit t (twbReg p 0) 5 then 2 else 1)) false) t) s)

theorem roundsDone_within (p : Fin 4) (l : List AlertRound) (s : State) : Within 0x10000cca0c3 s (roundsDone p l s) :=
  .foldl (fun _ _ hu => alertRound_within _ _ hu (.of rfl)) (.foldl (fun _ _ hu => emit_within _ hu (.of rfl)) (.refl _ s))

/-- The sweep ends with these rounds. -/
def sweepEnds (s : State) (p : Fin 4) (l : List AlertRound) (low : Bool) : Bool :=
  !low || l.contains .nack || decide (16 ≤ s.twb.ports[p].rounds + l.length)

/-- The port behind the rounds. -/
def sweptPort (ends : Bool) (n : Nat) (x : Port) : Port :=
  { x with op := if ends then .idle else .sweep, rounds := if ends then 0 else n, lastSweep := true }

/-- The port has seen ALERT_N behind the rounds. -/
def swept (p : Fin 4) (l : List AlertRound) (low : Bool) (s : State) : State :=
  alertSeen p low (modPort p (sweptPort (sweepEnds s p l low) (s.twb.ports[p].rounds + l.length)) (roundsDone p l s))

theorem swept_port : ∃ x, (swept p l low s).twb.ports[p] =
    { sweptPort (sweepEnds s p l low) (s.twb.ports[p].rounds + l.length) x with alertLow := low } := by
  unfold swept
  rw [alertSeen_port, modPort_self]
  exact ⟨_, rfl⟩

/-- Rounds behind which ALERT_N is still low end no cause. -/
theorem swept_low_within (p : Fin 4) (l : List AlertRound) (s : State) : Within 0x10000cca0c3 s (swept p l true s) :=
  modPort_within p (fun x => { x with alertLow := true }) (modPort_within p
    (sweptPort (sweepEnds s p l true) (s.twb.ports[p].rounds + l.length)) (roundsDone_within p l s) (.of rfl)) (.of rfl)

variable (ho : mayOperate s p = true) (hw : mayWatch s p = true)
  (hn : s.twb.ports[p].op = .sweep ∨ (s.twb.ports[p].op = .idle ∧ s.twb.ports[p].needRecovery = false ∧ sweepYields s p = false))
  (hl : l = roundsRun (16 - s.twb.ports[p].rounds) rounds)
include ho hw hn hl

theorem alertSweep_eq : alertSweep p rounds low s = if sweepEnds s p l low && low then
    raiseOnce (164 + p.val) 3 (countReg (twbReg p 0x18) 31 16 1 (modPort p (fun y => { y with alertHold := true }) (swept p l low s)))
    else swept p l low s := by
  subst hl
  have hc : ¬ (!mayOperate s p || !mayWatch s p || !(decide (s.twb.ports[p].op = .sweep) ||
      (decide (s.twb.ports[p].op = .idle) && !s.twb.ports[p].needRecovery && !sweepYields s p))) = true := by
    rw [ho, hw]
    rcases hn with h | ⟨h1, h2, h3⟩
    · rw [decide_eq_true h]
      simp
    · rw [decide_eq_true h1, h2, h3]
      simp
  unfold alertSweep
  exact if_neg hc

theorem alertSweep_ends : (alertSweep p rounds false s).twb.ports[p].op = .idle ∧
    (alertSweep p rounds false s).twb.ports[p].lastSweep = true ∧ (alertSweep p rounds false s).twb.ports[p].rounds = 0 ∧
    (alertSweep p rounds false s).twb.ports[p].alertLow = false ∧ isPresent (alertSweep p rounds false s) (164 + p.val) 3 = false := by
  rw [alertSweep_eq (low := false) ho hw hn hl, if_neg (by simp)]
  obtain ⟨x, e⟩ := swept_port (p := p) (l := l) (low := false) (s := s)
  rw [e]
  exact ⟨rfl, rfl, rfl, rfl, alertSeen_high _⟩

theorem alertSweep_goesOn (hk : l.contains .nack = false) (hr : s.twb.ports[p].rounds + l.length < 16) :
    (alertSweep p rounds true s).twb.ports[p].op = .sweep ∧
    (alertSweep p rounds true s).twb.ports[p].rounds = s.twb.ports[p].rounds + l.length ∧
    (alertSweep p rounds true s).twb.ports[p].alertLow = true := by
  have he : sweepEnds s p l true = false := by
    unfold sweepEnds
    rw [hk, decide_eq_false (Nat.not_le.2 hr)]
    rfl
  rw [alertSweep_eq (low := true) ho hw hn hl, if_neg (by rw [he]; decide)]
  obtain ⟨x, e⟩ := swept_port (p := p) (l := l) (low := true) (s := s)
  rw [e, he]
  exact ⟨rfl, rfl, rfl⟩

theorem alertSweep_latches (hb : s.pwr.burrowing = false) (hp : isPresent s (164 + p.val) 3 = false)
    (hk : l.contains .nack = true ∨ 16 ≤ s.twb.ports[p].rounds + l.length) :
    Latched (alertSweep p rounds true s) (164 + p.val) 3 := by
  have he : sweepEnds s p l true = true := by
    unfold sweepEnds
    rcases hk with h | h
    · rw [h]
      rfl
    · rw [decide_eq_true h, Bool.or_true]
  rw [alertSweep_eq (low := true) ho hw hn hl, if_pos (by rw [he]; rfl)]
  have w := countReg_within (twbReg p 0x18) 31 16 1 (modPort_within p (fun y => { y with alertHold := true })
    (swept_low_within p l s) (.of rfl)) (.of rfl)
  exact (Within.mayRaise w ⟨hb, hp⟩ rfl).once (by omega) (by decide)

end

/-! ### The end of an alert hold, and the periodic census (R322, R325) -/

section
variable {p : Fin 4} {low : Bool} {answers : List ProbeAnswer} {s : State}

theorem alertHoldEnd_eq (h : s.twb.ports[p].alertHold = true) : alertHoldEnd p low s =
    if inHush s then modPort p (fun x => { x with alertHold := false }) s
    else alertSeen p low (modPort p (fun x => { x with alertHold := false }) s) := by
  unfold alertHoldEnd
  exact if_neg (by rw [h]; decide)

theorem alertHoldEnd_looks (h : s.twb.ports[p].alertHold = true) : (alertHoldEnd p low s).twb.ports[p].alertHold = false ∧
    (inHush s = true → (alertHoldEnd p low s).twb.ports[p].alertLow = s.twb.ports[p].alertLow) ∧
    (inHush s = false → (alertHoldEnd p low s).twb.ports[p].alertLow = low ∧
      (low = false → isPresent (alertHoldEnd p low s) (164 + p.val) 3 = false)) := by
  rw [alertHoldEnd_eq h]
  cases hh : inHush s
  · rw [if_neg (by decide), alertSeen_port, modPort_self]
    refine ⟨rfl, nofun, fun _ => ⟨rfl, ?_⟩⟩
    rintro rfl
    exact alertSeen_high _
  · rw [if_pos rfl, modPort_self]
    exact ⟨rfl, fun _ => rfl, nofun⟩

theorem periodicCensus_due (hc : roundChosen s p = false) (hd : s.den.up = true) (ho : portOff s p = false)
    (hr : outputsReset s = false) (hs : s.pwr.pstate = .full ∨ s.pwr.pstate = .outage) (hp : rfld s (twbReg p 4) 15 0 ≠ 0)
    (hn : s.twb.ports[p].due = none) : (periodicCensus p answers s).twb.ports[p].due = some s.jnl.head := by
  have e : periodicCensus p answers s = modPort p (fun x => { x with due := some s.jnl.head }) s := by
    unfold periodicCensus
    rw [hc, if_neg (by decide)]
    refine if_pos ?_
    rw [hd, ho, hr, hn]
    simpa [hp] using hs
  rw [e, modPort_self]

end

/-- Settles O55, each end of a recovery, a sweep or a hold by the port that it leaves. -/
theorem twoWirePortsRecover : Obligations.TwoWirePortsRecover := by
  unfold Obligations.TwoWirePortsRecover
  rintro p _ a it sda low rounds l answers s rfl
  refine ⟨fun hm hb => ⟨fun h => ?_, fun h => ?_, ?_⟩, fun hs ha hi => ⟨fun hc => ?_, fun hc => ?_⟩,
    fun ho hw hn hl => ⟨?_, fun hk hr => ?_, fun hb hp hk => ?_⟩, fun h => ?_, fun h => ?_, fun hc hd ho hr hs hp hn => ?_⟩
  · exact ⟨_, rfl, recovery_latchesScl hm hb h⟩
  · exact ⟨_, rfl, recovery_latchesSda hm hb h⟩
  · obtain ⟨hd, hc, hn, hf⟩ := recovery_frees hm
    refine ⟨_, rfl, ?_, hn, hf, recovery_out hm, recovery_absent hm⟩
    unfold stuck
    rw [hd, hc]
    rfl
  · exact ⟨_, rfl, busStuck_failsTransfer hs ha hi hc⟩
  · exact ⟨_, rfl, busStuck_failsCensus hs ha hi hc⟩
  · exact ⟨_, rfl, alertSweep_ends ho hw hn hl⟩
  · exact ⟨_, rfl, alertSweep_goesOn ho hw hn hl hk hr⟩
  · exact ⟨_, rfl, alertSweep_latches ho hw hn hl hb hp hk⟩
  · exact ⟨_, rfl, alertHoldEnd_looks h⟩
  · exact congrArg Host.Outcome.next (if_pos h)
  · exact ⟨_, rfl, periodicCensus_due hc hd ho hr hs hp hn⟩

end Sys2Proof.Machine

/-! PROOFS. Two-wire ports: the choice of operations, transfers and the census (spec/18). -/

namespace Sys2Proof.Machine

/-! ### The choice of the next operation (R312, R313) -/

section
variable {p : Fin 4} {b : BusSight} {low : Bool} {a : Word} {it : Item} {s : State}

theorem operationStart_eq (hd : s.den.up = true) (hu : underWay s.twb.ports[p] = false) : operationStart p b low s =
    if (portSees p b low s).twb.ports[p].bus ≠ .free then portSees p b low s
    else if (portSees p b low s).twb.ports[p].again then nextAttempt p (portSees p b low s)
    else chooseNext p (portSees p b low s) := by
  unfold operationStart
  exact if_neg (by rw [hd, hu]; decide)

theorem mayRun_free (h : mayRun s p = true) : s.twb.ports[p].bus = .free := by
  unfold mayRun mayOperate at h
  simp only [Bool.and_eq_true, decide_eq_true_eq] at h
  exact h.1.1.2

/-- With its bus free a port takes up the retry that is due. -/
theorem nextAttempt_starts (hb : s.twb.ports[p].bus = .free) (hn : s.twb.ports[p].needRecovery = false)
    (hi : s.twb.ports[p].item.bind (findItem s) = some it) : (nextAttempt p s).twb.ports[p] = begunAttempt s.twb.ports[p] := by
  have e : nextAttempt p s = attempt p s := by
    unfold nextAttempt
    dsimp only
    rw [if_neg (by rw [hn]; decide)]
    exact if_neg (fun h => h hb)
  rw [e, attempt_port hi]

theorem nextAttempt_waits (hn : s.twb.ports[p].needRecovery = false) (hb : s.twb.ports[p].bus ≠ .free) :
    nextAttempt p s = modPort p (fun y => { y with again := true }) s := by
  unfold nextAttempt
  dsimp only
  rw [if_neg (by rw [hn]; decide)]
  exact if_pos hb

theorem nextAttempt_recovers (hn : s.twb.ports[p].needRecovery = true) :
    nextAttempt p s = modPort p (fun y => { y with op := .recover }) s := by
  unfold nextAttempt
  dsimp only
  exact if_pos hn

theorem chooseNext_idle (h : mayRun s p = false) : chooseNext p s = s := by
  unfold chooseNext
  exact if_pos (by rw [h]; rfl)

variable (h : mayRun s p = true)
include h

theorem chooseNext_recover (hn : nextOp s p = .recover) : (chooseNext p s).twb.ports[p].op = .recover := by
  unfold chooseNext
  rw [h, hn]
  exact congrArg Port.op (modPort_self _)

theorem chooseNext_sweep (hn : nextOp s p = .sweep) : (chooseNext p s).twb.ports[p].op = .sweep := by
  unfold chooseNext
  rw [h, hn]
  exact congrArg Port.op (modPort_self _)

theorem chooseNext_round (hn : nextOp s p = .round) : (chooseNext p s).twb.ports[p].op = .census ∧
    (chooseNext p s).twb.ports[p].item = none := by
  unfold chooseNext
  rw [h, hn]
  exact ⟨congrArg Port.op (modPort_self _), congrArg Port.item (modPort_self _)⟩

theorem chooseNext_none (hn : nextOp s p = .none) : chooseNext p s = s := by
  unfold chooseNext
  rw [h, hn]
  rfl

theorem chooseNext_item (hn : nextOp s p = .item a) (hi : findItem s a = some it) :
    (chooseNext p s).twb.ports[p].op = (if it.opcode = 0x38 then .xfer else .census) ∧
    (chooseNext p s).twb.ports[p].item = some a := by
  have e : itemAt s a (fun i => i.opcode = 0x38) = decide (it.opcode = 0x38) := by
    unfold itemAt
    rw [hi]
  unfold chooseNext
  rw [h, hn]
  refine ⟨(congrArg Port.op (modPort_self _)).trans ?_, congrArg Port.item (modPort_self _)⟩
  dsimp only
  rw [e]
  simp only [decide_eq_true_eq]

end

/-! ### How an attempt ends (R314 to R319) -/

section
variable {p : Fin 4} {a : Word} {it : Item} {s : State} {d n : Nat} {addr : Bool}

/-- What the port and the partner know of an attempt that has failed with cause `d`, `n` write bytes acknowledged. -/
def attemptSeen (p : Fin 4) (d n : Nat) (addr : Bool) (it : Item) (s : State) : State :=
  let s1 := modPort p (fun y => { y with acked := n, addrAck := addr, bus := busAfter d }) s
  if addr then noteSeen (partnerSlot p (xAddr it)) s1 else s1

/-- The port behind an attempt that has failed so. -/
def seenPort (d n : Nat) (addr : Bool) (x : Port) : Port := { x with acked := n, addrAck := addr, bus := busAfter d }

theorem attemptSeen_port : (attemptSeen p d n addr it s).twb.ports[p] = seenPort d n addr s.twb.ports[p] := by
  unfold attemptSeen
  cases addr <;> exact modPort_self _

theorem attemptSeen_items : (attemptSeen p d n addr it s).eng.items = s.eng.items := by
  unfold attemptSeen
  cases addr <;> rfl

/-- The port has another attempt to make. -/
def triesAgain (n : Nat) (addr : Bool) (it : Item) (x : Port) : Bool :=
  (!(addr || 0 < n) || bit (opv it 4) 17) && x.retries < fld (opv it 4) 21 20

theorem attemptSeen_found : findItem (attemptSeen p d n addr it s) a = findItem s a :=
  findItem_of_items attemptSeen_items a

/-- Bytes that the device may have taken end the transfer, unless it may be repeated and a retry is left. -/
theorem triesAgain_acked (n : Nat) (it : Item) (x : Port) : triesAgain n true it x = false ↔
    (bit (opv it 4) 17 = false ∨ fld (opv it 4) 21 20 ≤ x.retries) := by
  unfold triesAgain
  cases bit (opv it 4) 17 <;> simp

theorem triesAgain_untouched (it : Item) (x : Port) : triesAgain 0 false it x = decide (x.retries < fld (opv it 4) 21 20) := by
  unfold triesAgain
  simp

variable (hp : s.twb.ports[p].item = some a) (hi : findItem s a = some it)
include hp hi

theorem onPort : s.twb.ports[p].item.bind (findItem s) = some it := by
  rw [hp]
  exact hi

theorem xRetry_eq : xRetry p d n addr s =
    if d = 0x14 then
      (if s.twb.ports[p].arbLosses < 3 then nextAttempt p (modPort p (fun y => { y with arbLosses := y.arbLosses + 1 })
        (countReg (twbReg p 0x14) 15 0 1 (attemptSeen p d n addr it s)))
       else xFail p d false (attemptSeen p d n addr it s))
    else if d = 0x15 then xFail p d true (countReg (twbReg p 0x14) 31 16 1 (attemptSeen p d n addr it s))
    else if triesAgain n addr it s.twb.ports[p] then
      nextAttempt p (modPort p (fun y => { y with retries := y.retries + 1 }) (attemptSeen p d n addr it s))
    else xFail p d false (attemptSeen p d n addr it s) := by
  have hb : (modPort p (seenPort d n addr) s).twb.ports[p].item.bind (findItem (modPort p (seenPort d n addr) s)) = some it := by
    rw [modPort_self]
    exact onPort hp hi
  unfold xRetry
  change (match (modPort p (seenPort d n addr) s).twb.ports[p].item.bind (findItem (modPort p (seenPort d n addr) s)) with
    | none => s
    | some it => _) = _
  rw [hb]
  dsimp only
  rw [modPort_self]
  rfl

/-- What the transfer's RESULT tells of a failed attempt. -/
def failedAs (n : Nat) (addr : Bool) (x : Port) : DWord := xFailed { x with acked := n, addrAck := addr }

/-- A transfer whose attempt has failed ends with what that attempt saw. -/
theorem seen_fails (surely : Bool) : Answered it (failVerdict (surely || addr || 0 < n)) d (failedAs n addr s.twb.ports[p])
    (xFail p d surely (attemptSeen p d n addr it s)) :=
  xFail_answers (x := seenPort d n addr s.twb.ports[p]) surely attemptSeen_port hp (attemptSeen_found.trans hi)

theorem xRetry_fails (h4 : d ≠ 0x14) (h5 : d ≠ 0x15) (ht : triesAgain n addr it s.twb.ports[p] = false) :
    Answered it (failVerdict (addr || 0 < n)) d (failedAs n addr s.twb.ports[p]) (xRetry p d n addr s) := by
  rw [xRetry_eq hp hi, if_neg h4, if_neg h5, if_neg (by rw [ht]; decide)]
  exact seen_fails hp hi false

theorem xRetry_again (h4 : d ≠ 0x14) (h5 : d ≠ 0x15) (ht : triesAgain n addr it s.twb.ports[p] = true) : xRetry p d n addr s =
    nextAttempt p (modPort p (fun y => { y with retries := y.retries + 1 }) (attemptSeen p d n addr it s)) := by
  rw [xRetry_eq hp hi, if_neg h4, if_neg h5, if_pos ht]

theorem xRetry_arbFails (ha : 3 ≤ s.twb.ports[p].arbLosses) :
    Answered it (failVerdict (addr || 0 < n)) 0x14 (failedAs n addr s.twb.ports[p]) (xRetry p 0x14 n addr s) := by
  rw [xRetry_eq hp hi, if_pos rfl, if_neg (Nat.not_lt.2 ha)]
  exact seen_fails hp hi false

theorem xRetry_arbAgain (ha : s.twb.ports[p].arbLosses < 3) : xRetry p 0x14 n addr s =
    nextAttempt p (modPort p (fun y => { y with arbLosses := y.arbLosses + 1 })
      (countReg (twbReg p 0x14) 15 0 1 (attemptSeen p 0x14 n addr it s))) := by
  rw [xRetry_eq hp hi, if_pos rfl, if_pos ha]

theorem xRetry_ctrl : Answered it .failedIndeterminate 0x15 (failedAs n addr s.twb.ports[p]) (xRetry p 0x15 n addr s) := by
  rw [xRetry_eq hp hi, if_neg (by decide), if_pos rfl]
  exact xFail_answers (s := countReg (twbReg p 0x14) 31 16 1 (attemptSeen p 0x15 n addr it s))
    (x := seenPort 0x15 n addr s.twb.ports[p]) true attemptSeen_port hp (attemptSeen_found.trans hi)

variable (hu : underWay s.twb.ports[p] = true)
include hu

/-- What each end of an attempt says of it. -/
def endedAttempt (p : Fin 4) (it : Item) (e : AttemptEnd) (s : State) : State :=
  match e with
  | .done read => attemptRead p it read s
  | .addrNack n => xRetry p 0x12 (n.getD 0) n.isSome s
  | .dataNack n => xRetry p 0x13 n true s
  | .arbLost n addr => xRetry p 0x14 n addr s
  | .arbLostCtrl n => xRetry p 0x15 n true s

theorem attemptEnd_eq {e : AttemptEnd} (hf : endFits s it e = true) : attemptEnd p e s = endedAttempt p it e s := by
  unfold attemptEnd
  rw [onPort hp hi]
  exact if_neg (by rw [hu, hf]; decide)

theorem twbTimeout_eq (ht : rbit s (twbReg p 0) 3 = true) (hn : n ≤ xWrites s it) : twbTimeout p n true s =
    xRetry p 0x18 n true (modPort p (fun x => { x with needRecovery := true }) (countReg (twbReg p 0x1C) 31 16 1 s)) := by
  unfold twbTimeout
  rw [onPort hp hi]
  exact if_neg (by rw [hu, ht]; simpa using hn)

end

/-! ### A transfer that succeeds (R315) -/

section
variable {p : Fin 4} {a : Word} {it : Item} {read : List Byte} {s : State}

/-- The port and the partner once every byte of the attempt has been moved. -/
def bytesMoved (p : Fin 4) (it : Item) (s : State) : State :=
  modPort p (fun y => { y with acked := xWrites s it, addrAck := true, bus := .free }) (noteSeen (partnerSlot p (xAddr it)) s)

/-- The read data is in its buffer, the transfer is counted. -/
def dataKept (p : Fin 4) (it : Item) (read : List Byte) (s : State) : State :=
  modPartner (partnerSlot p (xAddr it)) (fun y => { y with transfers := BitVec.ofNat 16 (satAdd 16 y.transfers.toNat 1) })
    (countReg (twbReg p 0x10) 15 0 1 (if xBuf it then
      memWrite (xTo it + BitVec.ofNat 64 (xWlen it)) (xTaken it read) (bytesMoved p it s) else bytesMoved p it s))

/-- RESULT of a transfer that succeeds. -/
def doneResult (s : State) (it : Item) (read : List Byte) : DWord :=
  if xBuf it then BitVec.ofNat 64 ((xTaken it read).length + 65536 * xWrites s it) else BitVec.ofNat 64 (littleBytes (xTaken it read))

theorem dataKept_items : (dataKept p it read s).eng.items = s.eng.items := by
  have w := memWrite_within (L := 1) (xTo it + BitVec.ofNat 64 (xWlen it)) (xTaken it read) (.refl _ (bytesMoved p it s)) (.of rfl)
  unfold dataKept
  cases xBuf it
  · rfl
  · exact w.keeps .items rfl

variable (hp : s.twb.ports[p].item = some a) (hi : findItem s a = some it)
include hp hi

theorem xDone_eq : xDone p read s =
    if xBuf it && !(xTaken it read).isEmpty && !dmaOk s then xFail p 0x10 false (noteDmaErr 6 5 0 (bytesMoved p it s))
    else portIdle p (complete it.aseq .done 0 (doneResult s it read) (dataKept p it read s)) := by
  unfold xDone
  dsimp only
  rw [onPort hp hi]
  rfl

theorem xDone_done (h : xBuf it = false ∨ dmaOk s = true ∨ xTaken it read = []) :
    Answered it .done 0 (doneResult s it read) (xDone p read s) := by
  have hc : ¬ (xBuf it && !(xTaken it read).isEmpty && !dmaOk s) = true := by
    rcases h with h | h | h <;> simp [h]
  rw [xDone_eq hp hi, if_neg hc]
  refine portIdle_answered (complete_answers ?_ _ _ _)
  rw [findItem_aseq hi]
  exact (findItem_of_items dataKept_items a).trans hi

theorem xDone_undelivered (hb : xBuf it = true) (hd : dmaOk s = false) (ht : xTaken it read ≠ []) :
    Answered it .failedIndeterminate 0x10 (failedAs (xWrites s it) true s.twb.ports[p]) (xDone p read s) := by
  have hc : (xBuf it && !(xTaken it read).isEmpty && !dmaOk s) = true := by simp [hb, hd, ht]
  rw [xDone_eq hp hi, if_pos hc]
  exact xFail_answers (s := noteDmaErr 6 5 0 (bytesMoved p it s))
    (x := { s.twb.ports[p] with acked := xWrites s it, addrAck := true, bus := .free }) false (modPort_self _) hp hi

end

/-! ### The commands that end an attempt -/

section
variable {p : Fin 4} {a : Word} {it : Item} {s : State} {read : List Byte} {n : Nat} {addr : Bool}
  (hu : underWay s.twb.ports[p] = true) (hp : s.twb.ports[p].item = some a) (hi : findItem s a = some it)
include hu hp hi

theorem attemptEnd_read (hf : endFits s it (.done read) = true) (hl : blockTooLong it read = false)
    (hc : pecWrong s p it read = false) : attemptEnd p (.done read) s = xDone p read s := by
  rw [attemptEnd_eq hp hi hu hf]
  exact (if_neg (by rw [hl]; decide)).trans (if_neg (by rw [hc]; decide))

theorem attemptEnd_tooLong (hf : endFits s it (.done read) = true) (hl : blockTooLong it read = true) :
    attemptEnd p (.done read) s = xRetry p 0x19 (xWrites s it) true s := by
  rw [attemptEnd_eq hp hi hu hf]
  exact if_pos hl

theorem attemptEnd_pec (hf : endFits s it (.done read) = true) (hl : blockTooLong it read = false)
    (hc : pecWrong s p it read = true) : attemptEnd p (.done read) s = xRetry p 0x16 (xWrites s it) true s := by
  rw [attemptEnd_eq hp hi hu hf]
  exact (if_neg (by rw [hl]; decide)).trans (if_pos hc)

/-- A retry that may go to the bus at once starts its attempt. -/
theorem attemptEnd_nackAgain (hn : s.twb.ports[p].needRecovery = false) (hr : s.twb.ports[p].retries < fld (opv it 4) 21 20) :
    (attemptEnd p (.addrNack none) s).twb.ports[p].retries = s.twb.ports[p].retries + 1 ∧
    (attemptEnd p (.addrNack none) s).twb.ports[p].attempts = s.twb.ports[p].attempts + 1 := by
  have ht : triesAgain 0 false it s.twb.ports[p] = true := by
    rw [triesAgain_untouched]
    exact decide_eq_true hr
  have e : attemptEnd p (.addrNack none) s =
      nextAttempt p (modPort p (fun y => { y with retries := y.retries + 1 }) (attemptSeen p 0x12 0 false it s)) :=
    (attemptEnd_eq hp hi hu rfl).trans (xRetry_again hp hi (by decide) (by decide) ht)
  have hx : (modPort p (fun y => { y with retries := y.retries + 1 }) (attemptSeen p 0x12 0 false it s)).twb.ports[p] =
      { seenPort 0x12 0 false s.twb.ports[p] with retries := s.twb.ports[p].retries + 1 } := by
    rw [modPort_self, attemptSeen_port]
    rfl
  rw [e, nextAttempt_starts (it := it) (by rw [hx]; rfl) (by rw [hx]; exact hn) (by rw [hx]; exact onPort hp hi), hx]
  exact ⟨rfl, rfl⟩

theorem attemptEnd_arbAgain (hn : s.twb.ports[p].needRecovery = false) (ha : s.twb.ports[p].arbLosses < 3)
    (hf : endFits s it (.arbLost n addr) = true) :
    (attemptEnd p (.arbLost n addr) s).twb.ports[p].arbLosses = s.twb.ports[p].arbLosses + 1 ∧
    (attemptEnd p (.arbLost n addr) s).twb.ports[p].again = true ∧ (attemptEnd p (.arbLost n addr) s).twb.ports[p].bus = .busy := by
  have e := (attemptEnd_eq hp hi hu hf).trans (xRetry_arbAgain (n := n) (addr := addr) hp hi ha)
  have hx : (modPort p (fun y => { y with arbLosses := y.arbLosses + 1 })
      (countReg (twbReg p 0x14) 15 0 1 (attemptSeen p 0x14 n addr it s))).twb.ports[p] =
      { seenPort 0x14 n addr s.twb.ports[p] with arbLosses := s.twb.ports[p].arbLosses + 1 } := by
    rw [modPort_self]
    exact congrArg (fun x : Port => { x with arbLosses := x.arbLosses + 1 }) attemptSeen_port
  rw [e]
  generalize modPort p _ _ = t at hx
  have hb : t.twb.ports[p].bus = .busy := by rw [hx]; rfl
  rw [nextAttempt_waits (by rw [hx]; exact hn) (by rw [hb]; decide), modPort_self, hx]
  exact ⟨rfl, rfl, rfl⟩

variable (ht : rbit s (twbReg p 0) 3 = true) (hn : n ≤ xWrites s it)
include ht hn

/-- SCL held low for TIMEOUT ends the attempt; the port needs recovery. -/
theorem twbTimeout_fails (hr : triesAgain n true it s.twb.ports[p] = false) :
    Answered it .failedIndeterminate 0x18 (failedAs n true s.twb.ports[p]) (twbTimeout p n true s) := by
  have hx : (modPort p (fun x => { x with needRecovery := true }) (countReg (twbReg p 0x1C) 31 16 1 s)).twb.ports[p] =
      { s.twb.ports[p] with needRecovery := true } := modPort_self _
  rw [twbTimeout_eq hp hi hu ht hn]
  generalize hT : modPort p _ _ = t at hx
  have hj : findItem t a = some it := by rw [← hT]; exact hi
  have h := xRetry_fails (p := p) (d := 0x18) (n := n) (addr := true) (s := t) (by rw [hx]; exact hp) hj (by decide) (by decide)
    (by rw [hx]; exact hr)
  rw [hx] at h
  exact h

theorem twbTimeout_recovers (hr : triesAgain n true it s.twb.ports[p] = true) : (twbTimeout p n true s).twb.ports[p].op = .recover ∧
    (twbTimeout p n true s).twb.ports[p].needRecovery = true ∧
    (twbTimeout p n true s).twb.ports[p].retries = s.twb.ports[p].retries + 1 := by
  have hx : (modPort p (fun x => { x with needRecovery := true }) (countReg (twbReg p 0x1C) 31 16 1 s)).twb.ports[p] =
      { s.twb.ports[p] with needRecovery := true } := modPort_self _
  rw [twbTimeout_eq hp hi hu ht hn]
  generalize hT : modPort p _ _ = t at hx
  have hj : findItem t a = some it := by rw [← hT]; exact hi
  rw [xRetry_again (by rw [hx]; exact hp) hj (by decide) (by decide) (by rw [hx]; exact hr)]
  have hy : (modPort p (fun y => { y with retries := y.retries + 1 }) (attemptSeen p 0x18 n true it t)).twb.ports[p] =
      { seenPort 0x18 n true s.twb.ports[p] with needRecovery := true, retries := s.twb.ports[p].retries + 1 } := by
    rw [modPort_self, attemptSeen_port, hx]
    rfl
  generalize modPort p _ _ = v at hy
  rw [nextAttempt_recovers (by rw [hy]), modPort_self, hy]
  exact ⟨rfl, rfl, rfl⟩

end

/-! ### TWB_XFER (R313, R314) -/

section
variable {p : Fin 4} {a : Word} {it jt kt : Item} {v : Verdict} {d : Nat} {r : DWord} {s t u : State}

theorem afterBegin_answered (h : Answered it v d r t) : Answered it v d r (afterBegin p a t) := by
  unfold afterBegin
  split
  · exact portIdle_answered h
  · exact h

theorem afterBegin_found (h : findItem t a = some jt) : afterBegin p a t = t := by
  unfold afterBegin
  rw [h]
  rfl

theorem afterBegin_idle (h : t.twb.ports[p].item = none) : afterBegin p a t = t := by
  unfold afterBegin
  rw [h]
  exact if_neg (by simp)

theorem opcode_of_toNat {n : Nat} (hn : n < 256) (h : it.opcode.toNat = n) : it.opcode = BitVec.ofNat 8 n :=
  BitVec.eq_of_toNat_eq (by rw [h, BitVec.toNat_ofNat, Nat.mod_eq_of_lt hn])

/-- The item that has begun still asks for the same. -/
theorem commitStart_asks (h : findItem s a = some jt) (e : it.aseq = a) :
    ∃ kt, findItem (commitStart it s) a = some kt ∧ kt.handle = jt.handle ∧ kt.ops = jt.ops := by
  unfold commitStart
  split
  · exact ⟨jt, h, rfl, rfl⟩
  · subst e
    refine ⟨_, modItem_findItem (s := commit _ s) (it := jt) ?_ (fun _ => rfl), rfl, rfl⟩
    exact (findItem_of_items ((commit_within (L := 0xc00040) _ (.refl _ s) (.of rfl)).keeps .items rfl) _).trans h

section
variable (hh : kt.handle = it.handle) (ho : kt.ops = it.ops) (ht : t.twb.partners = s.twb.partners)
include ho

theorem opv_of (i : Nat) : opv kt i = opv it i := by
  unfold opv
  rw [ho]

include hh

theorem xAddr_of : xAddr kt = xAddr it := by
  unfold xAddr
  rw [hh, opv_of ho]

include ht

theorem xPec_of : xPec t kt = xPec s it := by
  unfold xPec partnerAt
  rw [hh, opv_of ho, ht]

theorem xRead_of : xRead t kt = xRead s it := by
  unfold xRead xRlen xBlock
  rw [xPec_of hh ho ht, opv_of ho, opv_of ho]

theorem xWrite_of (data : List Byte) : xWrite t kt data = xWrite s it data := by
  unfold xWrite xWlen xRlen
  rw [xPec_of hh ho ht, xAddr_of hh ho, opv_of ho]

end

/-- The port as TWB_XFER takes it, with the bytes of its write phase. -/
def xferPort (a : Word) (it : Item) (data : List Byte) (x : Port) : Port :=
  { x with item := some a, attempts := 0, arbLosses := 0, retries := 0, wdata := data.take (xWlen it), lastSweep := false }

/-- The transfer is put on the bus. -/
def xferGoes (p : Fin 4) (a : Word) (it : Item) (data : List Byte) (u : State) : State :=
  attempt p (modPort p (xferPort a it data) (commitStart it u))

/-- What TWB_XFER does in its turn. -/
def xferWork (p : Fin 4) (a : Word) (buf : ItemRead) (it : Item) (t : State) : State :=
  if xBad it then refuseOperand a t
  else if portOff t p then complete a .refusedState 0x10 0 t
  else if xBuffer it then complete a .refusedFormat 0x10 0 t
  else if !xBuf it then xferGoes p a it (bytesOf (it.ops.toList.drop 2)) t
  else if xWlen it = 0 then xferGoes p a it [] t
  else itemRead a 6 (xTo it) (xWlen it) buf (fun ws u => xferGoes p a it (bytesOf ws) u) t

/-- The bytes that TWB_XFER is to write: those of the buffer, or those of the item. -/
def xferBytes (it : Item) (data : List Word) : List Byte :=
  if xBuf it then (if xWlen it = 0 then [] else bytesOf data) else bytesOf (it.ops.toList.drop 2)

end

section
variable {p : Fin 4} {a : Word} {it : Item} {data : List Word} {s u : State}

/-- The bytes are at hand, or they are read first. -/
theorem xferWork_goes (hb : xBad it = false) (ho : portOff u p = false) (hf : xBuffer it = false)
    (hd : xBuf it = false ∨ xWlen it = 0 ∨ dmaOk u = true) :
    ∃ w, Within 1 u w ∧ xferWork p a (.data data) it u = xferGoes p a it (xferBytes it data) w := by
  have e := (if_neg (by rw [hb]; decide) : xferWork p a (.data data) it u = _).trans ((if_neg (by rw [ho]; decide)).trans
    (if_neg (by rw [hf]; decide)))
  unfold xferBytes
  cases hx : xBuf it
  · exact ⟨u, .refl _ u, e.trans (if_pos (by rw [hx]; rfl))⟩
  · have e2 := e.trans (if_neg (by rw [hx]; decide))
    by_cases hw : xWlen it = 0
    · rw [if_pos rfl, if_pos hw]
      exact ⟨u, .refl _ u, e2.trans (if_pos hw)⟩
    · have hk : dmaOk u = true := hd.elim (fun n => absurd hx (by rw [n]; decide)) fun d => d.resolve_left hw
      rw [if_pos rfl, if_neg hw]
      refine ⟨memRead (xTo it) (xWlen it) u, memRead_within _ _ (.refl _ u) (.of rfl), e2.trans ((if_neg hw).trans ?_)⟩
      exact if_neg (by rw [hk]; decide)

/-- The transfer is on the bus, as the item asks for it. -/
theorem xferGoes_starts (h : Works 0x38 a it s u) (bytes : List Byte) {w : State} (hw : Within 1 u w) :
    findItem (xferGoes p a it bytes w) a ≠ none ∧
    (xferGoes p a it bytes w).twb.ports[p] = begunAttempt (xferPort a it bytes w.twb.ports[p]) ∧
    .bus p.val (BitVec.ofNat 7 (xAddr it)) (xWrite u it (bytes.take (xWlen it))) (xRead u it) (bit (opv it 4) 22)
      ∈ (xferGoes p a it bytes w).out := by
  have hj : findItem w a = some (workItem it s) := (findItem_of_items (hw.keeps .items rfl) a).trans h.item
  obtain ⟨kt, hk, hh, hv⟩ := commitStart_asks hj (findItem_aseq h.1.1)
  have hc : (commitStart it w).twb = w.twb := (commitStart_within (L := 0xc18040) it (.refl _ w) (.of rfl)).keeps .twb rfl
  have hx : (modPort p (xferPort a it bytes) (commitStart it w)).twb.ports[p] = xferPort a it bytes w.twb.ports[p] := by
    rw [modPort_self, hc]
  have hb : (modPort p (xferPort a it bytes) (commitStart it w)).twb.ports[p].item.bind
      (findItem (modPort p (xferPort a it bytes) (commitStart it w))) = some kt := by
    rw [hx]
    exact hk
  have hq : (modPort p (xferPort a it bytes) (commitStart it w)).twb.partners = u.twb.partners :=
    (congrArg Twb.partners hc).trans (congrArg Twb.partners (hw.keeps .twb rfl))
  refine ⟨?_, ?_, ?_⟩
  · have e : (xferGoes p a it bytes w).eng.items = (commitStart it w).eng.items :=
      (attempt_within (L := 0x10000000041) p (.refl _ (modPort p (xferPort a it bytes) (commitStart it w))) (.of rfl)).keeps .items rfl
    rw [findItem_of_items e, hk]
    nofun
  · exact (attempt_port hb).trans (congrArg begunAttempt hx)
  · unfold xferGoes
    rw [attempt_eq hb, hx]
    have ea : xAddr kt = xAddr it := xAddr_of (it := it) hh hv
    have ew : xWrite (modPort p (xferPort a it bytes) (commitStart it w)) kt (bytes.take (xWlen it)) =
        xWrite u it (bytes.take (xWlen it)) := xWrite_of (it := it) hh hv hq _
    have er : xRead (modPort p (xferPort a it bytes) (commitStart it w)) kt = xRead u it := xRead_of (it := it) hh hv hq
    have eo : opv kt 4 = opv it 4 := opv_of (it := it) hv 4
    rw [ea, er, eo]
    show _ ∈ _ :: _
    rw [show (xferPort a it bytes w.twb.ports[p]).wdata = bytes.take (xWlen it) from rfl, ew]
    exact List.mem_cons_self

end

section
variable {p : Fin 4} {a : Word} {it : Item} {data : List Word} {s u : State} (h : Works 0x38 a it s u) (ht : itsTurn s a = true)
  (hp : p = portOf it)
include h ht hp

theorem twbXfer_eq (buf : ItemRead) : twbXfer a buf s = afterBegin p a (xferWork p a buf it u) := by
  subst hp
  unfold twbXfer
  rw [h.1.1]
  refine (if_neg ?_).trans (congrArg (afterBegin (portOf it) a) (h.begins _))
  rw [ht, opcode_of_toNat (by decide) h.1.2.1]
  decide

theorem twbXfer_bad (hb : xBad it = true) : Answered it .refusedFormat 7 0 (twbXfer a (.data data) s) := by
  rw [twbXfer_eq h ht hp]
  refine afterBegin_answered ?_
  rw [show xferWork p a (.data data) it u = complete a .refusedFormat 7 0 u from if_pos hb]
  exact h.answered _ _ _

variable (hb : xBad it = false)
include hb

theorem twbXfer_off (ho : portOff u p = true) : Answered it .refusedState 0x10 0 (twbXfer a (.data data) s) := by
  rw [twbXfer_eq h ht hp]
  refine afterBegin_answered ?_
  rw [show xferWork p a (.data data) it u = complete a .refusedState 0x10 0 u from
    (if_neg (by rw [hb]; decide)).trans (if_pos ho)]
  exact h.answered _ _ _

variable (ho : portOff u p = false)
include ho

theorem twbXfer_buffer (hf : xBuffer it = true) : Answered it .refusedFormat 0x10 0 (twbXfer a (.data data) s) := by
  rw [twbXfer_eq h ht hp]
  refine afterBegin_answered ?_
  rw [show xferWork p a (.data data) it u = complete a .refusedFormat 0x10 0 u from
    (if_neg (by rw [hb]; decide)).trans ((if_neg (by rw [ho]; decide)).trans (if_pos hf))]
  exact h.answered _ _ _

variable (hf : xBuffer it = false)
include hf

theorem twbXfer_starts (hd : xBuf it = false ∨ xWlen it = 0 ∨ dmaOk u = true) :
    (twbXfer a (.data data) s).twb.ports[p].op = .xfer ∧ (twbXfer a (.data data) s).twb.ports[p].item = some a ∧
    (twbXfer a (.data data) s).twb.ports[p].attempts = 1 ∧
    (twbXfer a (.data data) s).twb.ports[p].wdata = (xferBytes it data).take (xWlen it) ∧
    .bus p.val (BitVec.ofNat 7 (xAddr it)) (xWrite u it ((xferBytes it data).take (xWlen it))) (xRead u it) (bit (opv it 4) 22)
      ∈ (twbXfer a (.data data) s).out := by
  obtain ⟨w, hw, e⟩ := xferWork_goes (p := p) (a := a) (data := data) hb ho hf hd
  obtain ⟨hn, hx, hm⟩ := xferGoes_starts (p := p) h (xferBytes it data) hw
  obtain ⟨jt, hj⟩ := Option.ne_none_iff_exists'.1 hn
  have e2 : twbXfer a (.data data) s = xferGoes p a it (xferBytes it data) w := by
    rw [twbXfer_eq h ht hp, e, afterBegin_found hj]
  rw [e2, hx]
  exact ⟨rfl, rfl, rfl, rfl, hm⟩

end

/-! ### TWB_CENSUS (R323, R324) -/

section
variable {p : Fin 4} {a : Word} {it : Item} {answers : List ProbeAnswer} {c : Census} {s u : State}

/-- A probe leaves whose round it is. -/
theorem probe_item (acc : State × Census) (e : Nat × ProbeAnswer) : (probe p acc e).2.item = acc.2.item := by
  unfold probe
  dsimp only
  split <;> rfl

theorem foldl_probe_item (l : List (Nat × ProbeAnswer)) (acc : State × Census) : (l.foldl (probe p) acc).2.item = acc.2.item :=
  List.foldlRecOn (motive := fun x => x.2.item = acc.2.item) l (probe p) rfl fun x hx e _ => (probe_item x e).trans hx

/-- What a round's probes leave, from address `n` on. -/
def probed (p : Fin 4) (n : Nat) (c : Census) (answers : List ProbeAnswer) (s : State) : State × Census :=
  ((probeAddrs n c.last).zip answers).foldl (probe p) (rootWake s, c)

theorem probed_within (p : Fin 4) (n : Nat) (c : Census) (answers : List ProbeAnswer) (s : State) :
    Within 0x10000eca0c3 s (probed p n c answers s).1 :=
  foldl_within_fst (fun u e hu => probe_within p u e hu (.of rfl)) (rootWake_within (.refl _ s) (.of rfl))

theorem roundRuns_ends (hl : (probeAddrs c.next c.last).length ≤ answers.length) :
    roundRuns p c answers s = roundEnd p (probed p c.next c answers s).2 (probed p c.next c answers s).1 := if_pos hl

theorem roundRuns_goesOn (hl : answers.length < (probeAddrs c.next c.last).length) : roundRuns p c answers s =
    modPort p (fun x => { x with op := .idle, item := none, census := some (probed p c.next c answers s).2 })
      (probed p c.next c answers s).1 := if_neg (Nat.not_le.2 hl)

/-- The state in which the round's verdict is given. -/
def roundTold (p : Fin 4) (c : Census) (s : State) : State :=
  let s1 := (roundLost p c s).foldl (fun t k => losePartner p k t) s
  event 0x0E04 0 p.val 0 (roundResult c (roundLost p c s)) (setReg (twbReg p 0x24) (timeLo (now s1)) s1)

theorem roundTold_within (p : Fin 4) (c : Census) (s : State) : Within 0x10000eca0c3 s (roundTold p c s) :=
  event_within _ _ _ _ _ (setReg_within _ _ (.foldl (fun _ k hu => losePartner_within p k hu (.of rfl)) (.refl _ s)) (.of rfl)) (.of rfl)

theorem roundEnd_answered {v : Verdict} {d : Nat} {r : DWord} (h : Answered it v d r
    (completeOpt c.item .done 0 (roundResult c (roundLost p c s)) (roundTold p c s))) : Answered it v d r (roundEnd p c s) :=
  (portIdle_answered (p := p) h).of rfl rfl

/-- The state in which TWB_CENSUS probes. -/
def censusBegins (p : Fin 4) (it : Item) (u : State) : State := modPort p (fun x => { x with lastSweep := false }) (commitStart it u)

/-- What TWB_CENSUS does in its turn. -/
def censusWork (p : Fin 4) (a : Word) (answers : List ProbeAnswer) (it : Item) (t : State) : State :=
  if (roundOf a it).last < (roundOf a it).first || (roundOf a it).first < 0x08 || 0x77 < (roundOf a it).last then refuseOperand a t
  else if portOff t p then complete a .refusedState 0x10 0 t
  else roundRuns p (roundOf a it) answers (censusBegins p it t)

theorem twbCensus_goesOn (hi : findItem s a = some it) (hop : it.opcode = 0x39) (ht : itsTurn s a = true) (hp : p = portOf it)
    (hc : s.twb.ports[p].census = some c) (ha : c.item = some a) : twbCensus a answers s = roundRuns p c answers s := by
  subst hp
  unfold twbCensus
  rw [hi]
  dsimp only
  rw [if_neg (by rw [hop, ht]; decide), hc, Option.filter_some, if_pos (by simpa using ha)]

variable (h : Works 0x39 a it s u) (ht : itsTurn s a = true) (hp : p = portOf it)
  (hn : ∀ c, s.twb.ports[p].census = some c → c.item ≠ some a)
include h ht hp hn

theorem twbCensus_eq : twbCensus a answers s = afterBegin p a (censusWork p a answers it u) := by
  have hf : s.twb.ports[p].census.filter (fun c => decide (c.item = some a)) = none :=
    Option.filter_eq_none_iff.2 fun c hc => by simpa using hn c hc
  subst hp
  unfold twbCensus
  rw [h.1.1]
  dsimp only
  rw [if_neg (by rw [ht, opcode_of_toNat (by decide) h.1.2.1]; decide), hf]
  exact congrArg (afterBegin (portOf it) a) (h.begins _)

theorem twbCensus_bad (hb : (roundOf a it).last < (roundOf a it).first ∨ (roundOf a it).first < 0x08 ∨ 0x77 < (roundOf a it).last) :
    Answered it .refusedFormat 7 0 (twbCensus a answers s) := by
  rw [twbCensus_eq h ht hp hn]
  refine afterBegin_answered ?_
  rw [show censusWork p a answers it u = complete a .refusedFormat 7 0 u from if_pos (by simpa [or_assoc] using hb)]
  exact h.answered _ _ _

variable (h1 : (roundOf a it).first ≤ (roundOf a it).last) (h2 : 0x08 ≤ (roundOf a it).first) (h3 : (roundOf a it).last ≤ 0x77)
include h1 h2 h3

theorem twbCensus_off (ho : portOff u p = true) : Answered it .refusedState 0x10 0 (twbCensus a answers s) := by
  rw [twbCensus_eq h ht hp hn]
  refine afterBegin_answered ?_
  rw [show censusWork p a answers it u = complete a .refusedState 0x10 0 u from
    (if_neg (by simp; omega)).trans (if_pos ho)]
  exact h.answered _ _ _

variable (ho : portOff u p = false)
include ho

theorem twbCensus_runs : twbCensus a answers s = afterBegin p a (roundRuns p (roundOf a it) answers (censusBegins p it u)) := by
  rw [twbCensus_eq h ht hp hn]
  exact congrArg (afterBegin p a) ((if_neg (by simp; omega)).trans (if_neg (by rw [ho]; decide)))

theorem twbCensus_completes {r : State × Census}
    (hr : r = probed p (roundOf a it).first (roundOf a it) answers (censusBegins p it u))
    (hl : (probeAddrs (roundOf a it).first (roundOf a it).last).length ≤ answers.length) :
    Answered it .done 0 (roundResult r.2 (roundLost p r.2 r.1)) (twbCensus a answers s) := by
  rw [twbCensus_runs h ht hp hn h1 h2 h3 ho, roundRuns_ends (c := roundOf a it) hl]
  subst hr
  refine afterBegin_answered (roundEnd_answered ?_)
  obtain ⟨kt, hk, hring, -, -⟩ := commitStart_findItem h.item (findItem_aseq h.1.1)
  have hi : (probed p (roundOf a it).first (roundOf a it) answers (censusBegins p it u)).2.item = some a := foldl_probe_item _ _
  have w := (probed_within p (roundOf a it).first (roundOf a it) answers (censusBegins p it u)).trans
    (roundTold_within p (probed p (roundOf a it).first (roundOf a it) answers (censusBegins p it u)).2 _)
  rw [show (roundOf a it).next = (roundOf a it).first from rfl, hi]
  exact h.answers ((findItem_of_items (s := commitStart it u) (w.keeps .items rfl) a).trans hk) hring _ _ _

theorem twbCensus_waits {r : State × Census}
    (hr : r = probed p (roundOf a it).first (roundOf a it) answers (censusBegins p it u))
    (hl : answers.length < (probeAddrs (roundOf a it).first (roundOf a it).last).length) :
    (twbCensus a answers s).twb.ports[p].op = .idle ∧ (twbCensus a answers s).twb.ports[p].item = none ∧
    (twbCensus a answers s).twb.ports[p].census = some r.2 := by
  rw [twbCensus_runs h ht hp hn h1 h2 h3 ho, roundRuns_goesOn (c := roundOf a it) hl]
  subst hr
  have e (f : Port → Port) (t : State) (hf : ∀ x, (f x).item = none) : afterBegin p a (modPort p f t) = modPort p f t :=
    afterBegin_idle (by rw [modPort_self]; exact hf _)
  rw [e _ _ fun _ => rfl, modPort_self]
  exact ⟨rfl, rfl, rfl⟩

end

/-! ### Two-wire items run and their attempts end -/

section
variable {p : Fin 4} {b : BusSight} {low : Bool} {a : Word} {it : Item} {s w : State} (hd : s.den.up = true)
  (hu : underWay s.twb.ports[p] = false) (hw : w = portSees p b low s)
include hd hu hw

theorem operationStart_waits (h : w.twb.ports[p].bus ≠ .free ∨ (w.twb.ports[p].again = false ∧ mayRun w p = false)) :
    operationStart p b low s = w := by
  rw [operationStart_eq hd hu, ← hw]
  by_cases hb : w.twb.ports[p].bus = .free
  · obtain ⟨ha, hm⟩ := h.resolve_left fun n => n hb
    rw [if_neg (fun n => n hb), if_neg (by rw [ha]; decide), chooseNext_idle hm]
  · exact if_pos hb

theorem operationStart_retries (hb : w.twb.ports[p].bus = .free) (ha : w.twb.ports[p].again = true) :
    operationStart p b low s = nextAttempt p w := by
  rw [operationStart_eq hd hu, ← hw, if_neg (fun n => n hb), if_pos ha]

theorem operationStart_chooses (ha : w.twb.ports[p].again = false) (hm : mayRun w p = true) :
    operationStart p b low s = chooseNext p w := by
  rw [operationStart_eq hd hu, ← hw, if_neg (fun n => n (mayRun_free hm)), if_neg (by rw [ha]; decide)]

end

/-- Settles O54: the choice of an operation by `operationStart_eq`, TWB_XFER and TWB_CENSUS by what each does in its turn, an
attempt's end by `xRetry_eq` and `xDone_eq`. -/
theorem twoWireTransfersRun : Obligations.TwoWireTransfersRun := by
  unfold Obligations.TwoWireTransfersRun
  refine ⟨fun a data answers p b low it s w u => ⟨fun hd hu hw => ⟨fun h => ?_, fun hb ha hn hp hi => ?_, fun ha hm => ?_⟩,
    fun h ht hp => ⟨fun hb => ?_, fun hb ho => ?_, fun hb ho hf => ?_, ?_⟩, fun h ht hp hn => ?_,
    fun hi hop ht hp c hc ha => ?_⟩, ?_⟩
  · exact congrArg Host.Outcome.next (operationStart_waits hd hu hw h)
  · have e := nextAttempt_starts hb hn (onPort hp hi)
    exact ⟨_, congrArg Host.Outcome.next (operationStart_retries hd hu hw hb ha), congrArg Port.attempts e, congrArg Port.again e⟩
  · have e : exec (.twbOperationStart p b low) s = .next (chooseNext p w) :=
      congrArg Host.Outcome.next (operationStart_chooses hd hu hw ha hm)
    exact ⟨fun hn => ⟨_, e, chooseNext_recover hm hn⟩, fun hn => ⟨_, e, chooseNext_sweep hm hn⟩,
      fun hn => ⟨_, e, chooseNext_round hm hn⟩, fun hn => e.trans (congrArg Host.Outcome.next (chooseNext_none hm hn)),
      fun hn hi => ⟨_, e, chooseNext_item hm hn hi⟩⟩
  · exact ⟨_, rfl, twbXfer_bad h ht hp hb⟩
  · exact ⟨_, rfl, twbXfer_off h ht hp hb ho⟩
  · exact ⟨_, rfl, twbXfer_buffer h ht hp hb ho hf⟩
  · rintro hb ho hf hd _ rfl
    exact ⟨_, rfl, twbXfer_starts h ht hp hb ho hf hd⟩
  · rintro _ r rfl hr
    exact ⟨fun hb => ⟨_, rfl, twbCensus_bad h ht hp hn hb⟩, fun h1 h2 h3 =>
      ⟨fun ho => ⟨_, rfl, twbCensus_off h ht hp hn h1 h2 h3 ho⟩,
      fun ho hl => ⟨_, rfl, twbCensus_completes h ht hp hn h1 h2 h3 ho hr hl⟩,
      fun ho hl => ⟨_, rfl, twbCensus_waits h ht hp hn h1 h2 h3 ho hr hl⟩⟩⟩
  · exact congrArg Host.Outcome.next (twbCensus_goesOn hi hop ht hp hc ha)
  rintro p _ a it read n addr s hu rfl hp hi ends he
  have tries (k : Nat) (h : ends) : triesAgain k true it s.twb.ports[p] = false := (triesAgain_acked k it _).2 (he.1 h)
  refine ⟨fun hf hl hc => ?_, fun h => ⟨fun hf hl => ?_, fun hf hl hc => ?_, fun hf => ?_, fun hf => ?_, fun ht hn => ?_⟩,
    fun h ht hn => ?_, fun hr => ?_, fun hn => ⟨fun hr => ?_, fun ha hf => ?_⟩, fun ha hf => ?_, fun hf => ?_⟩
  · have e : exec (.twbAttemptEnd p (.done read)) s = .next (xDone p read s) :=
      congrArg Host.Outcome.next (attemptEnd_read hu hp hi hf hl hc)
    refine ⟨fun hb => ⟨_, e, ?_⟩, fun hb hd => ⟨_, e, ?_⟩, fun hb hd ht => ⟨_, e, xDone_undelivered hp hi hb hd ht⟩⟩
    · have g := xDone_done (read := read) hp hi (.inl hb)
      rwa [doneResult, if_neg (by rw [hb]; decide)] at g
    · have g := xDone_done (read := read) hp hi (.inr hd)
      rwa [doneResult, if_pos hb] at g
  · exact ⟨_, congrArg Host.Outcome.next (attemptEnd_tooLong hu hp hi hf hl), xRetry_fails hp hi (by decide) (by decide) (tries _ h)⟩
  · exact ⟨_, congrArg Host.Outcome.next (attemptEnd_pec hu hp hi hf hl hc), xRetry_fails hp hi (by decide) (by decide) (tries _ h)⟩
  · exact ⟨_, congrArg Host.Outcome.next (attemptEnd_eq hp hi hu hf), xRetry_fails hp hi (by decide) (by decide) (tries _ h)⟩
  · exact ⟨_, congrArg Host.Outcome.next (attemptEnd_eq hp hi hu hf), xRetry_fails hp hi (by decide) (by decide) (tries _ h)⟩
  · exact ⟨_, rfl, twbTimeout_fails hu hp hi ht hn (tries n h)⟩
  · refine ⟨_, rfl, twbTimeout_recovers hu hp hi ht hn ?_⟩
    rw [← Bool.not_eq_false]
    exact fun k => h (he.2 ((triesAgain_acked n it _).1 k))
  · refine ⟨_, congrArg Host.Outcome.next (attemptEnd_eq hp hi hu rfl), xRetry_fails hp hi (by decide) (by decide) ?_⟩
    exact (triesAgain_untouched it _).trans (decide_eq_false (Nat.not_lt.2 hr))
  · exact ⟨_, rfl, attemptEnd_nackAgain hu hp hi hn hr⟩
  · exact ⟨_, rfl, attemptEnd_arbAgain hu hp hi hn ha hf⟩
  · refine ⟨_, congrArg Host.Outcome.next (attemptEnd_eq hp hi hu hf), ?_⟩
    rw [failVerdict_acked]
    exact xRetry_arbFails hp hi ha
  · exact ⟨_, congrArg Host.Outcome.next (attemptEnd_eq hp hi hu hf), xRetry_ctrl hp hi⟩

end Sys2Proof.Machine
